-- ==== Sys2Proof/Word.lean ====
section
/-!
DEFINITION. The plainest words of the model: 64-bit words, bytes, 2,048-bit vector registers (R84, R88), and the one
shape in which sparse state is held, a list of (key, value) pairs with strictly rising keys.
-/
namespace Sys2Proof

/-- A 64-bit word: a scalar register, a scratchpad word, a register of BAR0. -/
abbrev Word := BitVec 64

/-- One byte. -/
abbrev Byte := BitVec 8

/-- One vector register of 2,048 bits (R88). -/
abbrev Vec := BitVec 2048

/-- Sparse state by key: rising keys, no entry equal to what an unlisted key reads as (`Machine.Assoc`). -/
abbrev AMap (α : Type) := List (Nat × α)

end Sys2Proof
end

