-- ==== Sys2Proof/Syntax.lean ====
section
/-!
DEFINITION. The commands of the engine: one constructor of `Instr` for each row of spec/opcode_table.json, with the
row's operands, and the types those operands need. A tile instruction names the hart that issues it and carries the
fields of its 64-bit word (Table 4.1); a host command carries its packet header (Table 11.9) and its parameters
(Table 11.12); an event carries what the world outside the engine's state decides.
-/
namespace Sys2Proof

/-- A tile site: physical field 0-95 and site s = row * 24 + column, 0-719 (R17, Table 0.4). -/
structure Loc where
  field : Nat
  site : Nat
deriving DecidableEq, Repr

/-- A hardware thread 0-63 of a tile site (R84). -/
structure Hart where
  loc : Loc
  thread : Nat
deriving DecidableEq, Repr

/-- The fields of an instruction word below GROUP and OP (Table 4.1). `alt` is bit 7 of OP, the immediate form of
R124; no other group lists an OP with that bit, so there it makes the encoding illegal (R118). `other` holds GROUP and OP of
a word that no row spells: an encoding that no table lists (R118), such as one of Tivivi alone (R150). `ecc` is no bit of the
word: the scratchpad words at which the fetch and the operand reads of this instruction meet an error, with what the check bits
make of it: corrected, or uncorrectable (R166, R167; log entry 129). -/
structure Opnd where
  alt : Bool := false
  other : Option (BitVec 12) := none
  ecc : List (Nat × Bool) := []
  d : BitVec 5 := 0
  a : BitVec 5 := 0
  b : BitVec 5 := 0
  c : BitVec 5 := 0
  imm : BitVec 32 := 0
deriving DecidableEq, Repr

/-- A PCIe function: the physical function of host port 0-7, or the virtual function of tenant 0-255 (R323). -/
inductive Fn where
  | pf (port : Nat)
  | vf (tenant : Nat)
deriving DecidableEq, Repr

/-- A place in the intake order (R344): the pace tick of acceptance, the deck, and the place in the deck's FIFO order. -/
structure Turn where
  tick : Nat := 0
  deck : Nat := 0
  seq : Nat := 0
deriving DecidableEq, Repr

/-- The header of a command packet (Table 11.9) and the function that issued it. OPCODE and LENGTH are those of the
command's row; a packet that carries others is answered by COMMAND_FETCH. No bits of the packet are: `muted`, which an FLR sets
in a scheduled command whose replies are to be discarded (R324); `turn`, its place in intake order (R344); `cpl`, the PCIe
completion status with which the host answers the command's reads, 0 for success (0x0502); `fw`, the code of a firmware fault
that the command meets (0x0505). -/
structure Hdr where
  fn : Fn
  tag : Nat := 0
  tick : Nat := 0
  part : Nat := 0
  fence : Bool := false
  keepAdapt : Bool := false
  force : Bool := false
  silent : Bool := false
  muted : Bool := false
  turn : Turn := {}
  cpl : Nat := 0
  fw : Option Nat := none
deriving DecidableEq, Repr

/-- A command packet as it lies in host memory, and what the intake FIFO's parity shows at read-out (R332). -/
structure RawPacket where
  bytes : List Byte
  wordBad : Bool := false
  headerBad : Bool := false
deriving DecidableEq, Repr

/-- What word parity shows when a reply or token packet is read out: good, bad once and good after the rewrite, or
bad again after the rewrite in the words of `mask` (R332). -/
inductive Parity where
  | good
  | once
  | twice (mask : Nat)
deriving DecidableEq, Repr

/-- Parameters of REQ_SUBMIT (Table 11.13); REQ_UPDATE carries values in the same layout. -/
structure SubmitParams where
  tenant : Nat := 0
  image : Nat := 0
  retain : Bool := false
  spec : Bool := false
  prio : Nat := 0
  topkM1 : Nat := 0
  chunkMax : Nat := 64
  eos : Nat := 0xFFFFFFFF
  topP : BitVec 32 := 0x3F800000#32
  temp : BitVec 32 := 0
  deadline : Nat := 0
  key : Word := 0
  maxLen : Nat := 0
  promptLen : Nat := 1
  promptAddr : Nat := 0
deriving DecidableEq, Repr

/-- The two slab ports of a tile (R103). -/
inductive SlabPort where
  | nv
  | dram
deriving DecidableEq, Repr

/-- Tile exception causes (Table 3.8). -/
inductive Cause where
  | illegalOp | claimViolation | misaligned | foldUnexpected | waitTimeout
  | residue | sramUncorr | nvUncorr | dramUncorr | portFault
deriving DecidableEq, Repr

/-- States of a tile site (Table 3.10, Table 9.8). -/
inductive SiteState where
  | active | spare | covered | retired | dark
deriving DecidableEq, Repr

/-- A proxy-read request of R115 to the ports of a COVERED site: a KV slot or an NV page. -/
inductive ProxyReq where
  | kvSlot (slot : Nat)
  | nvPage (page : Nat)
deriving DecidableEq, Repr

/-- Why a site enters COVERED (R401). -/
inductive CoverCause where
  | strikes | portFault | preventive | remap
deriving DecidableEq, Repr

/-- The stages of a spill (R262): choose victims and copy them out, then replace list entries at the boundary. -/
inductive SpillStage where
  | copyOut
  | replace
deriving DecidableEq, Repr

/-- A counter read with access RC (R14): a deck's FAB_STAT or DISP_STAT, LOST of a ledger, DROPS of a direct window. -/
inductive RcCounter where
  | fab (deck : Nat)
  | disp (deck : Nat)
  | lost (port deck : Nat)
  | drops (fn : Fn)
deriving DecidableEq, Repr

/-- A received RS(544,514) codeword: CWSEQ and how many symbols are in error (R354, R355). -/
structure Codeword where
  seq : Nat
  errors : Nat
deriving DecidableEq, Repr

/-- A LINK flit: credits returned per VC, the last CWSEQ received in order, the partition stop mask (R355, R357). -/
structure LinkFlit where
  credits : List (Nat × Nat)
  ack : Nat
  stopMask : Nat
deriving DecidableEq, Repr

/-- A Zarog packet (Table 12.2) with the sites of its source and destination in deck coordinates (R363). -/
structure ZPacket where
  type : Nat
  vc : Nat
  dnode : Nat
  snode : Nat
  dpart : Nat
  epoch : Nat
  ttl : Nat
  sys : Bool
  dvtile : Nat
  mbox : Nat
  siteSum : Nat
  payload : List Byte
deriving DecidableEq, Repr

/-- A port whose connector can fault (R394). -/
inductive PortName where
  | pcie (n : Nat)
  | zarog (n : Nat)
deriving DecidableEq, Repr

/-- What one PACE exchange tells (R371): the partner's offset and the delays in ns, the pace master and its hop count. -/
structure PaceInfo where
  offsetNs : Int
  delayOutNs : Nat
  delayInNs : Nat
  master : Nat
  hops : Nat
deriving DecidableEq, Repr

/-- The mode fields of PART[n] that a mode epoch sets (R372, Table 10.6). -/
structure Modes where
  res : Bool := false
  att : Bool := false
  spec : Bool := false
  train : Bool := false
  retrKm1 : Nat := 0
  posCap : Nat := 4096
deriving DecidableEq, Repr

/-- What an action announced by tick does when it applies (R372, R376): the modes of a mode epoch; a command that the primary of a pair
or a part of a span forwards, as its packet (R315, R378, R457); a snapshot or restore, which a twin acknowledges only (R463); the
stop of a span's step with a graph fault or a pause of the partition on another part (R367); requests that failed their own norm watch tests
on another part (R82, R366). -/
inductive ActKind where
  | modes (m : Modes)
  | command (fn : Fn) (packet : List Byte)
  | snapshot
  | stop (graphFault : Bool)
  | failed (reqs : List Nat)
deriving DecidableEq, Repr

/-- A prepare message of an action announced by tick (R372, R376): the partition it names on the receiving engine, the number of the
epoch, or of the action from 256 on, its tick and deadline, the coordinator's node, and whether it is committed in two phases or is
a broadcast without acknowledgement (Table 12.7). -/
structure Prepare where
  part : Nat
  epoch : Nat
  what : ActKind
  tick : Nat
  deadline : Nat
  coordinator : Nat
  twoPhase : Bool := true
deriving DecidableEq, Repr

/-- One kept KV entry that a standby primary replicates (R381). -/
structure KvEntry where
  req : Nat
  stream : Nat
  slotPos : Nat
  elems : List Byte
  tags : List Byte
  norms : List Byte
deriving DecidableEq, Repr

/-- A step's replication (R381): request-table entries as packed 512-bit words with each one's newest accepted token, kept KV entries, freed rows, and the
written adapter half by tile. -/
structure Replication where
  stepNo : Nat
  reqs : List (Nat × Nat)
  newest : List (Nat × Nat) := []        -- request, newest accepted token
  kv : List KvEntry
  freed : List (Nat × Nat)
  adapter : List (Loc × List Byte)
deriving DecidableEq, Repr

/-- A part of an image on another engine as it announces itself (R365): the image, the part, the engine's node and its partition; and what
the binding of a span compares (R366): tiles of its SAMPLE spread, tiles whose class declares BATCH, the most bytes H of a handoff its
LOGITS regions hold, and the most its BATCH regions take. `knows`: the parts whose engines it knows and has a route to. -/
structure SpanPart where
  id : Word
  part : Nat
  node : Nat
  partition : Nat
  knows : Nat := 0
  samples : Nat := 0
  batches : Nat := 0
  handoff : Nat := 0
  room : Nat := 0
deriving DecidableEq, Repr

/-- What a twin learns that may make it take over (R382, R383): 5 ms without a heartbeat; the primary's report of Safe Hold or of a deck
latched off; a standby primary's handover. -/
inductive PairNews where
  | silence | stopped | handover
deriving DecidableEq, Repr

/-- The value of a chair latch copy (R386). -/
inductive Chair where
  | none
  | deck (d : Nat)
deriving DecidableEq, Repr

/-- Chair-only writes (R386): the darn tables, an engine-wide action, a request for the NV programming enable. -/
inductive ChairWrite where
  | darnMap (field v : Nat) (value : BitVec 16)
  | darnSite (field s : Nat) (state : SiteState)
  | engineAction (code : Nat)
  | nvEnable (on : Bool)
deriving DecidableEq, Repr

/-- Why a phase is shed (R424, Table 14.9). -/
inductive ShedCause where
  | overcurrent | openSense | blind | selfTest
deriving DecidableEq, Repr

/-- What the completion of a power-up stage reports (Table 15.1): the self-check, decks that latched off, the value
`PACE_NOW` is set to, and what the self-test found. -/
structure StageReport where
  ok : Bool := true
  paceValue : Nat := 0
  failedSites : List Loc := []
  failedStops : List (Nat × Nat) := []
  failedPhases : List (Nat × Nat) := []
  baselines : List (Nat × Nat) := []
deriving DecidableEq, Repr

/-- PTP messages MGMT accepts (R489): a Sync, or another event or general message. -/
inductive PtpKind where
  | sync
  | other
deriving DecidableEq, Repr

/-- The commands of the engine, in the order of the table. Each docstring gives the row's mnemonic and rule. -/
inductive Instr where
  /-- ADD, R124. Scalar add modulo 2^64 of xA and xB, or of the sign-extended IMM in the immediate form, into xD; the all-zero word is the NOP. -/
  | add (h : Hart) (w : Opnd)
  /-- SUB, R124. Scalar subtract modulo 2^64 into xD. -/
  | sub (h : Hart) (w : Opnd)
  /-- AND, R124. Scalar bitwise and into xD. -/
  | and (h : Hart) (w : Opnd)
  /-- OR, R124. Scalar bitwise or into xD. -/
  | or (h : Hart) (w : Opnd)
  /-- XOR, R124. Scalar bitwise exclusive or into xD. -/
  | xor (h : Hart) (w : Opnd)
  /-- SLL, R124. Logical left shift of xA by y[5:0] into xD. -/
  | sll (h : Hart) (w : Opnd)
  /-- SRL, R124. Logical right shift of xA by y[5:0] into xD. -/
  | srl (h : Hart) (w : Opnd)
  /-- SRA, R124. Arithmetic right shift of xA by y[5:0] into xD. -/
  | sra (h : Hart) (w : Opnd)
  /-- SLT, R124. Sets xD to 1 if xA is less than y as signed numbers, else 0. -/
  | slt (h : Hart) (w : Opnd)
  /-- SLTU, R124. Sets xD to 1 if xA is less than y as unsigned numbers, else 0. -/
  | sltu (h : Hart) (w : Opnd)
  /-- MIN, R124. Signed minimum of xA and y into xD. -/
  | min (h : Hart) (w : Opnd)
  /-- MAX, R124. Signed maximum of xA and y into xD. -/
  | max (h : Hart) (w : Opnd)
  /-- MINU, R124. Unsigned minimum of xA and y into xD. -/
  | minu (h : Hart) (w : Opnd)
  /-- MAXU, R124. Unsigned maximum of xA and y into xD. -/
  | maxu (h : Hart) (w : Opnd)
  /-- MUL, R124. Low 64 bits of xA times y into xD. -/
  | mul (h : Hart) (w : Opnd)
  /-- MULH, R124. High 64 bits of the signed product into xD. -/
  | mulh (h : Hart) (w : Opnd)
  /-- MULHU, R124. High 64 bits of the unsigned product into xD. -/
  | mulhu (h : Hart) (w : Opnd)
  /-- DIV, R125. Signed quotient truncated toward zero, with the defined results for division by zero and overflow. -/
  | div (h : Hart) (w : Opnd)
  /-- DIVU, R125. Unsigned quotient, all ones on division by zero. -/
  | divu (h : Hart) (w : Opnd)
  /-- REM, R125. Signed remainder with the sign of xA; xA on division by zero. -/
  | rem (h : Hart) (w : Opnd)
  /-- REMU, R125. Unsigned remainder; xA on division by zero. -/
  | remu (h : Hart) (w : Opnd)
  /-- CLZ, R124. Count of leading zero bits of xA into xD. -/
  | clz (h : Hart) (w : Opnd)
  /-- CTZ, R124. Count of trailing zero bits of xA into xD. -/
  | ctz (h : Hart) (w : Opnd)
  /-- POPC, R124. Count of one bits of xA into xD. -/
  | popc (h : Hart) (w : Opnd)
  /-- LIH, R124. Sets xD to xA[31:0] plus the unsigned IMM in the high word. -/
  | lih (h : Hart) (w : Opnd)
  /-- LDB, R126. Loads one byte, sign-extended, from xA + IMM, waiting on a filling granule. -/
  | ldb (h : Hart) (w : Opnd)
  /-- LDH, R126. Loads two bytes, sign-extended. -/
  | ldh (h : Hart) (w : Opnd)
  /-- LDW, R126. Loads four bytes, sign-extended. -/
  | ldw (h : Hart) (w : Opnd)
  /-- LDD, R126. Loads eight bytes. -/
  | ldd (h : Hart) (w : Opnd)
  /-- LDBU, R126. Loads one byte, zero-extended. -/
  | ldbu (h : Hart) (w : Opnd)
  /-- LDHU, R126. Loads two bytes, zero-extended. -/
  | ldhu (h : Hart) (w : Opnd)
  /-- LDWU, R126. Loads four bytes, zero-extended. -/
  | ldwu (h : Hart) (w : Opnd)
  /-- STB, R126. Stores the low byte of xB at xA + IMM. -/
  | stb (h : Hart) (w : Opnd)
  /-- STH, R126. Stores the low two bytes of xB. -/
  | sth (h : Hart) (w : Opnd)
  /-- STW, R126. Stores the low four bytes of xB. -/
  | stw (h : Hart) (w : Opnd)
  /-- STD, R126. Stores eight bytes of xB. -/
  | std (h : Hart) (w : Opnd)
  /-- AMOADD, R127. Atomically returns the word at xA and adds xB to it. -/
  | amoadd (h : Hart) (w : Opnd)
  /-- AMOSWAP, R127. Atomically returns the word at xA and replaces it with xB. -/
  | amoswap (h : Hart) (w : Opnd)
  /-- CAS, R127. Atomically replaces the word with xB if it equals xD, returning the old value. -/
  | cas (h : Hart) (w : Opnd)
  /-- VLDR, R159. Loads a panel row into a vector register. -/
  | vldr (h : Hart) (w : Opnd)
  /-- VLDC, R159. Loads a panel column into a vector register. -/
  | vldc (h : Hart) (w : Opnd)
  /-- VLDS, R159. Strided load of 32 words into a vector register, with conflict cycles. -/
  | vlds (h : Hart) (w : Opnd)
  /-- VSTR, R159. Stores a vector register to a panel row. -/
  | vstr (h : Hart) (w : Opnd)
  /-- VSTC, R159. Stores a vector register to a panel column. -/
  | vstc (h : Hart) (w : Opnd)
  /-- VSTS, R159. Strided store of 32 words from a vector register. -/
  | vsts (h : Hart) (w : Opnd)
  /-- VUNPK, R128. Checks the residue of one block and unpacks its elements exactly to FP32 lanes. -/
  | vunpk (h : Hart) (w : Opnd)
  /-- BEQ, R129. Branches if xA equals xB, checking the target only when taken. -/
  | beq (h : Hart) (w : Opnd)
  /-- BNE, R129. Branches if xA differs from xB. -/
  | bne (h : Hart) (w : Opnd)
  /-- BLT, R129. Branches if xA is less than xB, signed. -/
  | blt (h : Hart) (w : Opnd)
  /-- BGE, R129. Branches if xA is at least xB, signed. -/
  | bge (h : Hart) (w : Opnd)
  /-- BLTU, R129. Branches if xA is less than xB, unsigned. -/
  | bltu (h : Hart) (w : Opnd)
  /-- BGEU, R129. Branches if xA is at least xB, unsigned. -/
  | bgeu (h : Hart) (w : Opnd)
  /-- JAL, R129. Jumps PC-relative and links PC + 8 into xD. -/
  | jal (h : Hart) (w : Opnd)
  /-- JALR, R129. Jumps to xA + IMM and links, raising MISALIGNED or CLAIM_VIOLATION on a bad target. -/
  | jalr (h : Hart) (w : Opnd)
  /-- FENCE, R130. Waits until the thread's earlier operations of the named classes have taken effect. -/
  | fence (h : Hart) (w : Opnd)
  /-- FENCE_I, R87. Discards the instruction buffer copies so later fetches of the thread see completed writes to code. -/
  | fenceI (h : Hart) (w : Opnd)
  /-- TBAR, R131. Waits until every thread of the task instance on the tile reaches barrier k or has ended. -/
  | tbar (h : Hart) (w : Opnd)
  /-- WAITC, R132. Waits until a completion counter reaches the value in xA modulo 2^32. -/
  | waitc (h : Hart) (w : Opnd)
  /-- RDPACE, R499. Reads PACE_NOW into xD, monotonic within the thread. -/
  | rdpace (h : Hart) (w : Opnd)
  /-- RDCNT, R132. Reads a completion counter or tile step counter into xD. -/
  | rdcnt (h : Hart) (w : Opnd)
  /-- END, R133. Ends the thread; the instance's resources are released after its queued instructions complete. -/
  | endThread (h : Hart) (w : Opnd)
  /-- VADD, R134. Lane-wise floating-point add. -/
  | vadd (h : Hart) (w : Opnd)
  /-- VSUB, R134. Lane-wise floating-point subtract. -/
  | vsub (h : Hart) (w : Opnd)
  /-- VMUL, R134. Lane-wise floating-point multiply. -/
  | vmul (h : Hart) (w : Opnd)
  /-- VFMA, R134. Lane-wise fused multiply-add with one rounding. -/
  | vfma (h : Hart) (w : Opnd)
  /-- VDIV, R134. Lane-wise floating-point divide. -/
  | vdiv (h : Hart) (w : Opnd)
  /-- VSQRT, R134. Lane-wise square root. -/
  | vsqrt (h : Hart) (w : Opnd)
  /-- VMIN, R135. Lane-wise minimum with the stated zero and NaN rules. -/
  | vmin (h : Hart) (w : Opnd)
  /-- VMAX, R135. Lane-wise maximum with the stated zero and NaN rules. -/
  | vmax (h : Hart) (w : Opnd)
  /-- VNEG, R134. Inverts the sign bit of each lane. -/
  | vneg (h : Hart) (w : Opnd)
  /-- VABS, R134. Clears the sign bit of each lane. -/
  | vabs (h : Hart) (w : Opnd)
  /-- VEXP, R136. Lane-wise exponential through the exp kernel with one final rounding. -/
  | vexp (h : Hart) (w : Opnd)
  /-- VCMP, R135. Lane-wise comparison producing all ones or zero. -/
  | vcmp (h : Hart) (w : Opnd)
  /-- VSEL, R134. Lane-wise select of vA or vB by vC. -/
  | vsel (h : Hart) (w : Opnd)
  /-- VCVT, R137. Lane-wise format conversion selected by SUB. -/
  | vcvt (h : Hart) (w : Opnd)
  /-- VLOG, R134. Lane-wise bitwise and, or or exclusive or. -/
  | vlog (h : Hart) (w : Opnd)
  /-- VBCAST, R134. Broadcasts a scalar value to every lane. -/
  | vbcast (h : Hart) (w : Opnd)
  /-- VEXT, R134. Extracts one lane into a scalar register. -/
  | vext (h : Hart) (w : Opnd)
  /-- VMOV, R134. Copies a vector register. -/
  | vmov (h : Hart) (w : Opnd)
  /-- VPERM, R134. Permutes lanes of vA by indices in vB. -/
  | vperm (h : Hart) (w : Opnd)
  /-- LPLACE, R138. Adds BF16 or FP32 lanes exactly into long registers, optionally clearing them first. -/
  | lplace (h : Hart) (w : Opnd)
  /-- LEMIT_S, R61. Scalar emit of long registers to BF16 or FP32 lanes after residue checks. -/
  | lemitS (h : Hart) (w : Opnd)
  /-- LEMIT_B, R62. Block emit of 32 long registers to a KA-4 or KA-8 block with scale selection and norm-watch tallies. -/
  | lemitB (h : Hart) (w : Opnd)
  /-- LDIV_S, R75. Scalar divide-emit of long registers by AD or a long register. -/
  | ldivS (h : Hart) (w : Opnd)
  /-- LDIV_B, R75. Block divide-emit of 32 long registers. -/
  | ldivB (h : Hart) (w : Opnd)
  /-- LEXP, R138. Exponential of long-register values through exp-input conversion and the kernel. -/
  | lexp (h : Hart) (w : Opnd)
  /-- LCLR, R139. Clears a range of long registers after pending arrivals and adds complete. -/
  | lclr (h : Hart) (w : Opnd)
  /-- LEXPECT, R98. Sets a bank's pending-arrival count. -/
  | lexpect (h : Hart) (w : Opnd)
  /-- FOLDS, R220. Reads, packs and sends long registers as fold partials of a reduction, clearing each. -/
  | folds (h : Hart) (w : Opnd)
  /-- MMA, R142. Multiplies G weight blocks by P activation blocks and adds exact products into a bank. -/
  | mma (h : Hart) (w : Opnd)
  /-- MMA_COMPLETE, R92. The adds of an MMA complete in the target bank. -/
  | mmaComplete (t : Loc)
  /-- APASS, R143. Starts an attention pass on the lane after descriptor and page checks. -/
  | apass (h : Hart) (w : Opnd)
  /-- ATTN_PASS_END, R102. An attention pass ends, possibly after its own second pass, adding counts, writing the result word and incrementing CNT_ATT. -/
  | attnPassEnd (t : Loc)
  /-- MFILL, R144. Fills a scratchpad range with a pattern. -/
  | mfill (h : Hart) (w : Opnd)
  /-- MCOPY, R144. Copies a scratchpad range as through a separate buffer. -/
  | mcopy (h : Hart) (w : Opnd)
  /-- MTRN, R144. Transposes one 8 KiB panel. -/
  | mtrn (h : Hart) (w : Opnd)
  /-- MOVER_COMPLETE, R144. A mover operation completes and increments CNT_MOVE. -/
  | moverComplete (t : Loc)
  /-- NVRD, R145. Queues an NV read into a staging window, setting its filling bits. -/
  | nvrd (h : Hart) (w : Opnd)
  /-- NV_DESC_COMPLETE, R106. An NV descriptor ends by completion or fault, clearing filling bits and incrementing CNT_NV; the pages and read offsets in mV at which the page code cannot correct (R198). -/
  | nvDescComplete (t : Loc) (bad : List (Nat × Int))
  /-- DRD, R146. Queues a read from the KV slab into scratchpad. -/
  | drd (h : Hart) (w : Opnd)
  /-- DWR, R146. Queues a write from scratchpad into the KV slab. -/
  | dwr (h : Hart) (w : Opnd)
  /-- DRAM_DESC_COMPLETE, R106. A DRAM descriptor completes and increments CNT_DRAM, letting a held descriptor start. -/
  | dramDescComplete (t : Loc) (i : Nat) (bad : Bool)
  /-- PORT_FAULT, R111. A slab port gives no response for 20 µs and the tile raises PORT_FAULT; the pages of the NV descriptor that it had delivered by then, and the DRAM descriptor in progress that it leaves unanswered. -/
  | portFault (t : Loc) (port : SlabPort) (k : Nat := 0)
  /-- SEND, R147. Sends a message from scratchpad to a mailbox of another tile of the partition. -/
  | send (h : Hart) (w : Opnd)
  /-- SEND_COMPLETE, R147. A message's last flit leaves the tile's router and CNT_SEND increments. -/
  | sendComplete (t : Loc)
  /-- RECV, R148. Posts or replaces a receive buffer for a mailbox. -/
  | recv (h : Hart) (w : Opnd)
  /-- MSG_DELIVERY, R148. An arriving message is written into the posted buffer and CNT_RECV increments, or raises CLAIM_VIOLATION on overflow. -/
  | msgDelivery (t : Loc) (mbox : Nat)
  /-- RCHK, R149. Checks the residues of a block array. -/
  | rchk (h : Hart) (w : Opnd)
  /-- RGET, R149. Returns computed and stored residues of one block. -/
  | rget (h : Hart) (w : Opnd)
  /-- WAIT_TIMEOUT, R108. A thread waiting for 1,000 pace ticks raises WAIT_TIMEOUT. -/
  | waitTimeout (h : Hart)
  /-- TASK_GRANT, R271. A cluster dispatcher grants an eligible task instance or gang whose claim is free and starts its threads. -/
  | taskGrant (t : Loc) (entry : Nat)
  /-- TASK_RELEASE, R86. After all threads end and queued work completes, the instance's resources are released and its out-edges signal. -/
  | taskRelease (t : Loc) (slot : Nat)
  /-- DEP_SIGNAL, R272. A dependency signal reaches a node entry and is counted, or discarded as stale or over. -/
  | depSignal (k : Nat)
  /-- ALL_SIGNAL_COMBINE, R274. A cluster's end report reaches the root tile, which broadcasts the ALL signal once every cluster has reported. -/
  | allSignalCombine (part node cluster : Nat)
  /-- STEP_BEGIN, R33. At a pace tick a partition with eligible work applies due boundary actions, completes cancellations, admits requests, assembles the batch and writes step inputs. -/
  | stepBegin (p : Nat)
  /-- SCHEDULED_ACTION_HOLD, R34. A partition idles before a scheduled tick its projected step would cross and applies the action at that tick. -/
  | scheduledActionHold (p : Nat)
  /-- STEP_CLOSE, R42. When the sweep ends, logits fold to the sampler, draws are made, acceptance is decided, tacked entries kept or dropped and tokens written. -/
  | stepClose (p : Nat)
  /-- STEP_HALT, R395. A hardware exception halts every instance of the step and clears its tile and fabric state without effect. -/
  | stepHalt (p : Nat)
  /-- STEP_REEXECUTE, R396. At the first pace tick after the halt or map window the step re-executes on the mapped tiles, up to three executions. -/
  | stepReexecute (p : Nat)
  /-- PROMPT_FETCH, R300. A DMA fetch of a chunk's prompt tokens completes, or fails and ends the request with REASON 0xA. -/
  | promptFetch (idx : Nat) (tokens : Option (List Nat))
  /-- HELD_PACKET_WRITE, R310. A held token packet is written to the token FIFO when room appears. -/
  | heldPacketWrite (idx : Nat)
  /-- LOSS_STORE_DRAIN, R311. Losses in the loss store are written as KIND 1 packets to token FIFOs as room appears. -/
  | lossStoreDrain (p : Nat)
  /-- TOKEN_DELIVERY, R334. A token packet is forwarded from the token FIFO to a free TOK unit, with cut-through and write-back; `words` of a packet still being written
are in the FIFO when the event finds it (a whole packet: any number of 10 or more). -/
  | tokenDelivery (t : Nat) (parity : Parity) (words : Nat := 8)
  /-- STATUS_DELIVERY, R330. A status reply is written to the STS ring when room allows, followed by the write-back record. -/
  | statusDelivery (fn : Fn) (parity : Parity)
  /-- MSIX_COALESCE_TIMEOUT, R338. COAL_US passes since the first unsignalled completion and the ring's MSI-X vector is sent. -/
  | msixCoalesceTimeout (fn : Fn) (q : Nat)
  /-- COMMAND_FETCH, R329. The engine fetches published command packets from a CMD ring into intake while the function's quota allows. -/
  | commandFetch (fn : Fn) (pkt : RawPacket)
  /-- SCHEDULED_COMMAND_APPLY, R345. A command held in the schedule table applies at its tick, or at the partition's boundary for boundary actions;
`wordBad` and `headerBad` say what the entry's parity shows when it is read (R331, R332). -/
  | scheduledCommandApply (deck i : Nat) (wordBad headerBad : Bool := false)
  /-- DOORBELL, R329. A write of a host pointer to DOORBELL publishes CMD packets or returns STS and TOK ring space. -/
  | doorbell (fn : Fn) (q : Nat) (v : Word)
  /-- RING_CFG_ENABLE, R328. A write of RING_CFG enables or disables a ring, checking windows and resetting pointers. -/
  | ringCfgEnable (fn : Fn) (q : Nat) (v : Word)
  /-- DW_DATA_WRITE, R337. A posted write gathers packet bytes in the direct-window combining buffer, or is dropped while BUSY. -/
  | dwDataWrite (fn : Fn) (off : Nat) (bytes : List Byte)
  /-- DW_LAUNCH, R337. A write of a byte count submits the direct-window packet into intake; `wordBad` and `headerBad` say what the
packet's parity shows when intake takes it (R332). -/
  | dwLaunch (fn : Fn) (v : Word) (wordBad headerBad : Bool := false)
  /-- LEDGER_HEAD_READ, R336. A read latches the oldest unread ledger entry and returns its sequence number. -/
  | ledgerHeadRead (port d : Nat) (poison : Bool)
  /-- LEDGER_ACK, R336. A write retires the oldest ledger entry if its sequence number matches. -/
  | ledgerAck (port d : Nat) (v : Word)
  /-- RC_COUNTER_READ, R14. A read of an RC counter returns and clears it, a same-cycle hardware set winning. -/
  | rcCounterRead (c : RcCounter) (hw : Bool)
  /-- VF_ASSIGN_WRITE, R323. A write reassigns a tenant to a host port only when VF Enable is 0 on both ports. -/
  | vfAssignWrite (port t : Nat) (v : Word)
  /-- SP_REGION_WRITE, R163. The loader writes a region entry; invalid writes are ignored and changed granules zero-filled first. -/
  | spRegionWrite (t : Loc) (n : Nat) (v : Word)
  /-- REGISTER_WRITE, R14. A write to a register without behaviour of its own stores fields by their access codes. -/
  | registerWrite (fn : Fn) (off : Nat) (v : Word)
  /-- FLR, R324. A function level reset disables the function's rings, cancels its tenant's requests and withdraws its commands. -/
  | flr (fn : Fn)
  /-- PCIE_LINK_DOWN, R325. A host port's link goes down and DMA through it stops. -/
  | pcieLinkDown (port : Nat)
  /-- PCIE_LINK_UP, R325. A host port's link returns and delivery resumes. -/
  | pcieLinkUp (port : Nat) (rate width : Nat)
  /-- HOT_RESET, R324. A hot reset or PERST# of a port acts as an FLR of every function of the port. -/
  | hotReset (port : Nat)
  /-- REQ_SUBMIT, R348. Submits a request into the lowest free table entry as QUEUED. -/
  | reqSubmit (hd : Hdr) (q : SubmitParams)
  /-- REQ_QUERY, R296. Writes a request-table entry to host memory. -/
  | reqQuery (hd : Hdr) (idx addr : Nat)
  /-- REQ_UPDATE, R296. Changes RW fields of a request from the next assembly. -/
  | reqUpdate (hd : Hdr) (idx mask : Nat) (q : SubmitParams)
  /-- REQ_PAUSE, R297. Pauses a request and writes a pause packet. -/
  | reqPause (hd : Hdr) (idx : Nat)
  /-- REQ_RESUME, R297. Resumes a paused request at the next boundary. -/
  | reqResume (hd : Hdr) (idx : Nat)
  /-- REQ_CANCEL, R44. Cancels a request at the end of the running step, freeing its pages at the boundary. -/
  | reqCancel (hd : Hdr) (idx : Nat)
  /-- REQ_RELEASE, R297. Frees a DONE request with RETAIN 1. -/
  | reqRelease (hd : Hdr) (idx : Nat)
  /-- REQ_APPEND, R300. Appends a further prompt to a DONE request with RETAIN 1. -/
  | reqAppend (hd : Hdr) (idx count addr : Nat)
  /-- REQ_DRAFT, R301. Supplies or replaces a request's candidate tree. -/
  | reqDraft (hd : Hdr) (idx root : Nat) (nodes : List (Nat × Nat))
  /-- IMG_FIT, R203. Evaluates a manifest against a footprint and writes the fit report. -/
  | imgFit (hd : Hdr) (maddr : Nat) (manifest : List Byte) (fields addr : Nat)
  /-- IMG_BEGIN, R188. Opens an imprint session, verifying the manifest and allocating stripes. -/
  | imgBegin (hd : Hdr) (maddr : Nat) (manifest : List Byte) (fields ports zport : Nat)
  /-- IMG_STREAM, R190. Fetches a batch of imprint frames from host memory into the field chain. -/
  | imgStream (hd : Hdr) (img addr : Nat) (frames : List (List Byte))
  /-- IMG_END, R192. Ends streaming and starts verification, listing failed slices. -/
  | imgEnd (hd : Hdr) (img addr : Nat)
  /-- IMG_ABORT, R188. Aborts an imprint session, freeing its stripes. -/
  | imgAbort (hd : Hdr) (img : Nat)
  /-- IMG_PATCH, R188. Opens a patch session for the failed slices of a FAILED session. -/
  | imgPatch (hd : Hdr) (img : Nat) (imageId : Word)
  /-- IMG_TIER_LOAD, R201. Loads and checks overflow and reserve pages and sets up the reserve cache. -/
  | imgTierLoad (hd : Hdr) (img addr : Nat) (frames : List (List Byte)) (region bytes cache : Nat)
  /-- IMG_RELEASE, R185. Releases an image, freeing its stripes, slots and regions and ending requests that name it. -/
  | imgRelease (hd : Hdr) (img : Nat)
  /-- IMG_QUERY, R347. Writes an image's identifier, footprint, state and slot. -/
  | imgQuery (hd : Hdr) (img addr : Nat)
  /-- KEY_ENROL, R187. Writes or clears a signing key slot while the strap is closed. -/
  | keyEnrol (hd : Hdr) (slot : Nat) (key sig : List Byte)
  /-- PART_BIND_FIELDS, R316. Binds a partition to a field set and image, or frees it, through a re-binding. -/
  | partBindFields (hd : Hdr) (fields img : Nat)
  /-- PART_BIND_IMAGE, R319. Re-binds a partition to another co-resident image at the next boundary. -/
  | partBindImage (hd : Hdr) (img : Nat)
  /-- TENANT_BIND, R318. Re-binds a tenant to a partition, moving its queued entries. -/
  | tenantBind (hd : Hdr) (t : Nat)
  /-- PART_MODE, R372. Changes a partition's modes through a two-phase mode-epoch commit. -/
  | partMode (hd : Hdr) (mask modes retr cap : Nat)
  /-- PART_PAUSE, R315. Pauses a partition and its requests at a step boundary. -/
  | partPause (hd : Hdr)
  /-- PART_RESUME, R315. Returns a paused partition to IDLE at its next boundary. -/
  | partResume (hd : Hdr)
  /-- PART_RESET, R457. Resets a partition at a step boundary, ending its requests with REASON 0x9. -/
  | partReset (hd : Hdr)
  /-- TENANT_SET, R302. Writes a tenant's WEIGHT, MAX_REQ and ENABLE. -/
  | tenantSet (hd : Hdr) (t weight maxReq : Nat) (enable : Bool) (mask : Nat)
  /-- HEM_SET, R227. Writes a hem credit entry within segment capacity. -/
  | hemSet (hd : Hdr) (deck table entry inRate outRate burst : Nat)
  /-- KV_RESERVE, R262. Registers a partition's reserve KV region, cache and low mark. -/
  | kvReserve (hd : Hdr) (addr bytes cache low : Nat)
  /-- GRAPH_LOAD, R288. Checks, places, relocates and patches a load package for an image. -/
  | graphLoad (hd : Hdr) (addr : Nat) (pkg : List Byte) (img : Nat)
  /-- GRAPH_UNLOAD, R289. Unloads a graph, zero-filling and freeing its placements. -/
  | graphUnload (hd : Hdr) (g : Nat)
  /-- GRAPH_QUERY, R347. Writes a graph's state, image, partition and placed tiles. -/
  | graphQuery (hd : Hdr) (g addr : Nat)
  /-- ADAPT_SAVE, R293. Saves an adapter-area half to host memory. -/
  | adaptSave (hd : Hdr) (addr bytes half : Nat)
  /-- ADAPT_RESTORE, R293. Restores an adapter-area half from host memory. -/
  | adaptRestore (hd : Hdr) (addr : Nat) (data : List Byte) (half : Nat)
  /-- MON_READ, R349. Writes monitored registers to host memory, clearing RC fields. -/
  | monRead (hd : Hdr) (sel deck part site first count addr : Nat)
  /-- NW_READ, R80. Writes norm-watch entries to host memory. -/
  | nwRead (hd : Hdr) (first count addr : Nat)
  /-- NW_WRITE, R80. Writes one norm-watch entry. -/
  | nwWrite (hd : Hdr) (entry : Nat) (v : BitVec 128)
  /-- HIST_READ, R478. Writes a consistent monitor record. -/
  | histRead (hd : Hdr) (mon addr : Nat)
  /-- HIST_CLEAR, R479. Clears one or every monitor. -/
  | histClear (hd : Hdr) (mon : Nat)
  /-- TENANT_QUERY, R347. Writes a tenant's queue register to host memory. -/
  | tenantQuery (hd : Hdr) (t addr : Nat)
  /-- PWR_STATE, R451. Moves the engine to Off, Standby or Ready through the power sequence. -/
  | pwrState (hd : Hdr) (target : Nat)
  /-- PWR_CAP, R393. Sets the input power cap, copied to the supervisor. -/
  | pwrCap (hd : Hdr) (watts : Nat)
  /-- THERM_QUERY, R445. Writes the thermal and power status record. -/
  | thermQuery (hd : Hdr) (addr : Nat)
  /-- THROTTLE_QUERY, R446. Writes a throttle record for each clock domain. -/
  | throttleQuery (hd : Hdr) (addr : Nat)
  /-- DARN_READ, R280. Writes a field's darn table and disabled express-stop mask. -/
  | darnRead (hd : Hdr) (field addr : Nat)
  /-- DARN_REMAP, R406. Requests a site to be covered preventively or retired. -/
  | darnRemap (hd : Hdr) (field site : Nat)
  /-- RINSE_SET, R168. Writes a deck's SP_SCRUB_CTL. -/
  | rinseSet (hd : Hdr) (deck : Nat) (v : BitVec 32)
  /-- SELF_TEST, R347. Runs the self-test of the engine or a deck. -/
  | selfTest (hd : Hdr) (scope deck : Nat)
  /-- SNAPSHOT, R463. Schedules a consistent snapshot of masked partitions at a tick, or reports its size. -/
  | snapshot (hd : Hdr) (mask addr bytes : Nat)
  /-- RESTORE, R467. Checks a snapshot and schedules its application at a step boundary. -/
  | restore (hd : Hdr) (mask addr : Nat) (data : List Byte)
  /-- RESET, R455. Requests an engine, deck or tile reset. -/
  | reset (hd : Hdr) (scope deck field site : Nat)
  /-- JOURNAL_READ, R419. Writes the journal header, sticky counters and journal entries. -/
  | journalRead (hd : Hdr) (first addr : Nat)
  /-- SCHED_WITHDRAW, R345. Withdraws a held scheduled command of the same function by TAG. -/
  | schedWithdraw (hd : Hdr) (tag : Nat)
  /-- ZPORT_CTL, R358. Disables, enables or retrains a Zarog port. -/
  | zportCtl (hd : Hdr) (port action : Nat)
  /-- ZPORT_QUERY, R361. Writes a Zarog port's status record. -/
  | zportQuery (hd : Hdr) (port addr : Nat)
  /-- PACE_SRC, R368. Selects the pace source. -/
  | paceSrc (hd : Hdr) (src port : Nat) (value : Nat)
  /-- PAIR_CFG, R377. Configures single, mirror or standby pairing with the licence. -/
  | pairCfg (hd : Hdr) (mode mask addr : Nat) (licence : List Byte)
  /-- ZROUTE_SET, R363. Writes a Zarog route entry, or assigns the engine's own ID. -/
  | zrouteSet (hd : Hdr) (peer : Word) (mask : Nat)
  /-- PAIR_TAKEOVER, R383. Makes a secondary take over, or hands a standby primary's role over. -/
  | pairTakeover (hd : Hdr)
  /-- PACKET_ARRIVAL, R211. A packet reaches its destination router and is handled or consumed for a partition mismatch or inactive site.
  `corrected`: the routers on its way that corrected an error (R214). -/
  | packetArrival (k : Nat) (uncorr : Bool) (corrected : List Loc := [])
  /-- FOLD_COMBINE, R221. A held fold flit at a router is combined with an arriving flit after residue checks, or kept apart. -/
  | foldCombine (router : Loc) (i j : Nat)
  /-- FOLD_RECEIVE, R222. A fold flit arrives at the owner and its slots are added into long registers against the pending count. -/
  | foldReceive (t : Loc)
  /-- HEM_RESERVATION, R226. A router requests outbound hem credit from its partition's bucket. -/
  | hemReservation (t : Loc) (deck : Nat) (zarog : Bool) (flits : Nat)
  /-- HEM_RESERVATION_RETURN, R226. After 16 pace ticks without hem-bound traffic a router returns its unused balance. -/
  | hemReservationReturn (t : Loc)
  /-- HEM_BUCKET_REFILL, R226. At each pace tick each hem bucket gains its rate up to BURST. -/
  | hemBucketRefill
  /-- XSTOP_DISABLED, R500. A faulty express stop's links are disabled at the next step boundary of every partition. -/
  | xstopDisabled (field cluster : Nat) (selfTest : Bool)
  /-- PROXY_READ, R115. A COVERED site's port answers a proxy-read request from the fabric. -/
  | proxyRead (t : Loc) (q : ProxyReq) (requester : Loc)
  /-- RECOVERY_CHAIN_PAGE, R403. A chain member XORs its page into a passing recovery page and forwards it. -/
  | recoveryChainPage (member : Loc) (k : Nat)
  /-- RINSE_PASS, R168. Each rinse period rinse reads, corrects and writes back scratchpad lines and reports uncorrectable words. -/
  | rinsePass (t : Loc) (corrected uncorr : List Nat)
  /-- BANK_GUARDED, R169. A bank's corrected errors in a guard window reach the threshold and it enters guarded mode. -/
  | bankGuarded (t : Loc) (b : Nat)
  /-- GUARD_CONVERSION_DONE, R170. The conversion pass of a newly guarded bank completes. -/
  | guardConversionDone (t : Loc) (b : Nat)
  /-- GUARD_WINDOW_END, R169. A guard window of rinse periods ends and WIN_CE restarts. -/
  | guardWindowEnd (t : Loc)
  /-- KV_RINSE, R261. Rinse reads and corrects each KV slot once per 16 rinse periods. -/
  | kvRinse (t : Loc) (uncorr : List Nat)
  /-- DRAM_REFRESH, R260. A field's DRAM wafer refreshes at its band's interval. -/
  | dramRefresh (field : Nat)
  /-- NV_PATROL, R198. Patrol reads every usable page each 7 days and flags stripes for refresh. -/
  | nvPatrol (t : Loc) (bad : List (Nat × Int)) (near : List Nat := [])
  /-- SLOT_ZERO_FILL_DONE, R238. A freed KV slot's zero-fill completes and it returns to the free list. -/
  | slotZeroFillDone (t : Loc) (slot : Nat)
  /-- KV_SPILL, R262. Free slots below the low mark start spilling row units to the reserve region. -/
  | kvSpill (t : Loc) (stage : SpillStage)
  /-- KV_RESERVE_FETCH, R263. A reserve row's pages are fetched into the KV reserve cache. -/
  | kvReserveFetch (t : Loc) (page slot : Nat) (data : List Byte)
  /-- RESERVE_CACHE_FILL, R202. A weight reserve-cache miss is filled by PCIe transfer. -/
  | reserveCacheFill (t : Loc) (imgSlot page : Nat) (data : List Byte)
  /-- BLOB_TRANSFER, R290. Package blob contents and region entries are delivered to tiles between steps. -/
  | blobTransfer (g : Nat) (t : Loc)
  /-- IMPRINT_ERASE_DONE, R188. Every allocated stripe is erased and the session enters STREAMING. -/
  | imprintEraseDone
  /-- IMPRINT_FRAME, R189. An imprint frame is checked, staged and programmed, forwarded, or discarded and counted. -/
  | imprintFrame (frame : List Byte)
  /-- FIELD_VERIFY, R192. A field whose pages are programmed reads back, checks and hashes its slices, recovering a single failure. -/
  | fieldVerify (field : Nat) (bad : List Nat)
  /-- IMPRINT_COMMIT, R188. After verification extent tables and the image entry are written and the image state set. -/
  | imprintCommit
  /-- REPAIR_WRITE, R194. A slice is rewritten to new stripes without the strap. -/
  | repairWrite (img slice : Nat) (target : Loc)
  /-- REPAIR_WRITE_VERIFIED, R194. A rewritten slice verifies, its extents replace the old ones and descriptors are rewritten. -/
  | repairWriteVerified (k : Nat) (ok : Bool)
  /-- SITE_COVERED, R401. A site enters COVERED by strikes, PORT_FAULT or preventive cover and its partition's map window begins. -/
  | siteCovered (t : Loc) (cause : CoverCause)
  /-- STRIKE_EXPIRY, R397. A strike expires 10 s after it was charged. -/
  | strikeExpiry (t : Loc)
  /-- MAP_WINDOW_STAGE_DONE, R401. A map-window stage (placement, KV migration, route update) completes and the next begins. -/
  | mapWindowStageDone (p : Nat)
  /-- SLICE_REIMPRINT_VERIFIED, R402. The re-imprinted slice verifies on the spare; the covered site is RETIRED. -/
  | sliceReimprintVerified (t : Loc) (img : Nat)
  /-- SITE_DARK, R408. A router found failed makes its site DARK and may fence the field. -/
  | siteDark (t : Loc)
  /-- FIELD_SET_REBIND_STAGE, R320. A stage of a field-set re-binding (drain, KV release, route update, fill, journal) completes. -/
  | fieldSetRebindStage (p : Nat)
  /-- ZPORT_SIGNAL_DETECT, R358. Signal on all lanes for 1 ms moves a port from DETECT to TRAIN. -/
  | zportSignalDetect (z : Nat)
  /-- ZPORT_TRAIN_DONE, R358. Equalisation completes and the port moves to ALIGN. -/
  | zportTrainDone (z : Nat)
  /-- ZPORT_TRAIN_TIMEOUT, R358. 500 ms in TRAIN without completion moves the port to BACKOFF. -/
  | zportTrainTimeout (z : Nat)
  /-- ZPORT_ALIGN_DONE, R358. Codeword lock and identity exchange complete, moving to CREDIT or PARKED. -/
  | zportAlignDone (z : Nat) (partner : Word) (pport : Nat)
  /-- ZPORT_ALIGN_TIMEOUT, R358. 10 ms in ALIGN without lock moves the port to BACKOFF. -/
  | zportAlignTimeout (z : Nat)
  /-- ZPORT_CREDIT_DONE, R358. Credits of every VC arrive, the port comes UP and pace exchange begins. -/
  | zportCreditDone (z rtt : Nat)
  /-- ZPORT_CREDIT_TIMEOUT, R358. 10 ms in CREDIT without completion moves the port to BACKOFF. -/
  | zportCreditTimeout (z : Nat)
  /-- ZPORT_LOSS_OF_SIGNAL, R360. Loss of signal for 10 µs takes the port out of UP, discarding unacknowledged flits. -/
  | zportLossOfSignal (z : Nat)
  /-- ZPORT_BACKOFF_ELAPSED, R359. The backoff wait elapses and the port returns to DETECT. -/
  | zportBackoffElapsed (z : Nat)
  /-- ZPORT_UP_STABLE, R359. A port UP for 10 s resets ATTEMPTS. -/
  | zportUpStable (z : Nat)
  /-- ZAROG_CODEWORD_RECEIVE, R355. A codeword is decoded and its flits accepted, or it is discarded and a NAK sent. -/
  | zarogCodewordReceive (z : Nat) (cw : Codeword)
  /-- ZAROG_NAK, R355. A received NAK makes the sender replay from the named codeword. -/
  | zarogNak (z cwseq : Nat)
  /-- ZPORT_REPLAY_LIMIT, R355. More than 16 replays within 1 ms take the port out of UP. -/
  | zportReplayLimit (z : Nat)
  /-- LINK_FLIT, R357. A LINK flit returns credits, acknowledges codewords and updates the partition stop mask. -/
  | linkFlit (z : Nat) (f : LinkFlit)
  /-- ZAROG_PACKET_RECEIVE, R363. A Zarog packet is delivered locally, forwarded by route, or discarded. -/
  | zarogPacketReceive (z : Nat) (p : ZPacket)
  /-- ZAROG_MODULE_INSERT, R487. A Zarog cable or module is inserted and powered if its class allows. -/
  | zarogModuleInsert (z cls watts : Nat)
  /-- PORT_CONNECTOR_FAULT, R394. Connector overcurrent or module over-temperature clears a port's enable. -/
  | portConnectorFault (p : PortName)
  /-- PACE_EXCHANGE, R371. Every 64 ticks an UP port exchanges PACE packets to measure delay and steer. -/
  | paceExchange (z : Nat) (x : PaceInfo)
  /-- PACE_HOLDOVER, R369. The pace source is lost and the pace unit enters holdover. -/
  | paceHoldover
  /-- PACE_LOCKED, R369. The pace source returns and the unit steers back to lock. -/
  | paceLocked
  /-- EPOCH_PREPARE, R372. A participant receives a prepare and acknowledges or refuses. -/
  | epochPrepare (m : Prepare)
  /-- EPOCH_ACK, R372. The coordinator receives an acknowledgement and sends COMMIT when all have acknowledged: the
participant is `node`, with its partition in the bits above 11, and `epoch` names the action. -/
  | epochAck (p node : Nat) (ok : Bool) (epoch : Nat := 0)
  /-- EPOCH_DECISION, R373. A participant receives COMMIT or ABORT for a prepared epoch. -/
  | epochDecision (p epoch : Nat) (commit : Bool)
  /-- EPOCH_DEADLINE, R372. Deadline D passes without all acknowledgements and the coordinator aborts. -/
  | epochDeadline (p : Nat)
  /-- EPOCH_DECISION_RESEND, R373. The coordinator resends its decision every 100 ticks. -/
  | epochDecisionResend (p : Nat)
  /-- SPAN_ANNOUNCE, R365. A CTRL announcement of an image part is received and the span forms when complete. -/
  | spanAnnounce (imageId : Word) (part node : Nat) (partition knows samples batches handoff room : Nat := 0)
  /-- SPAN_BATCH_RECEIVE, R366. A part receives the batch table and row directories from part 0. -/
  | spanBatchReceive (p : Nat) (batch : List Byte) (dirs : List (Loc × List Byte))
  /-- SPAN_HANDOFF, R366. A handoff arrives at the next part and completes its step inputs. -/
  | spanHandoff (p rank : Nat) (data : List Byte)
  /-- SPAN_RECORDS_RETURN, R366. Sampler records of the last part arrive at part 0's sampler tiles. -/
  | spanRecordsReturn (p rank : Nat) (data : List Byte)
  /-- SPAN_ACCEPTED_PATH, R366. A part receives accepted paths and applies keep copies to its KV. -/
  | spanAcceptedPath (p : Nat) (paths : List (Nat × Nat × List Nat))
  /-- PAIR_HEARTBEAT, R379. Every 100 ticks an engine sends a PAIR heartbeat on every pair-link port. -/
  | pairHeartbeat
  /-- PAIR_HEARTBEAT_LOSS, R382. No heartbeat for 5 ms leads to takeover or orphaning by pair mode and role. -/
  | pairHeartbeatLoss (news : PairNews := .silence)
  /-- PAIR_READY, R379. A twin's readiness report arrives and the paired step begins when both are ready. -/
  | pairReady (p : Nat)
  /-- MIRROR_DIGEST, R380. The secondary's digest arrives and is compared, releasing tokens or re-executing. -/
  | mirrorDigest (p : Nat) (digest : Word)
  /-- STANDBY_REPLICATION, R381. The secondary places a step's replicated state and acknowledges it. -/
  | standbyReplication (p : Nat) (rep : Replication)
  /-- REPLICATION_ACK, R381. The primary receives an acknowledgement and releases the step's token packets. -/
  | replicationAck (p stepNo : Nat)
  /-- CHAIR_REQUEST, R386. A controller requests or releases the chair latch. -/
  | chairRequest (deck : Nat) (take : Bool)
  /-- CHAIR_ONLY_WRITE, R386. A chair-only write is passed for the holder or discarded and recorded. -/
  | chairOnlyWrite (deck : Nat) (cw : ChairWrite)
  /-- CHAIR_VOTE, R387. Every 100 µs the supervisor votes the latch copies, rewriting or declaring a latch fault. -/
  | chairVote (flip : Option (Nat × Chair))
  /-- CHAIR_CLAIM_SAMPLE, R388. Every 100 µs the supervisor samples chair claims and asserts or withdraws FOLLOW. -/
  | chairClaimSample (c0 c1 : Bool)
  /-- WATCHDOG_WRITE, R390. A deck controller writes its supervisor watchdog. -/
  | watchdogWrite (deck : Nat)
  /-- WATCHDOG_RESTART, R390. 200 ms without a watchdog write restarts the controller, or holds it in reset after three. -/
  | watchdogRestart (deck : Nat)
  /-- CONTROLLER_RESTART_DONE, R390. A restarted deck controller resumes and executes deferred commands and actions. -/
  | controllerRestartDone (deck : Nat)
  /-- SUPERVISOR_SELF_CHECK, R391. The supervisor's periodic ROM and NV self-check runs, entering Safe Hold on failure. -/
  | supervisorSelfCheck (ok : Bool)
  /-- JOURNAL_BUCKET_REFILL, R418. The journal write bucket refills at 64 writes per second. -/
  | journalBucketRefill
  /-- FEED_LOSS, R421. A feed below 40 V for 100 µs is lost and the other feed carries the engine. -/
  | feedLoss (b : Bool) (cv : Nat)
  /-- FEED_SENSE_MATED, R482. A feed's sense contact has been mated for 100 ms and the feed may carry current. -/
  | feedSenseMated (b : Bool)
  /-- POWER_LOSS, R431. Both feeds below 40 V for 200 µs abandon steps and run the hold-up commit. -/
  | powerLoss (cvA cvB : Nat)
  /-- LATCH_CLEAR, R384. Both feeds absent for 5 s clear thermal, short and leak latches. -/
  | latchClear
  /-- PHASE_OVERCURRENT, R424. A phase at its 70 A limit in 4 cycles is shed and the zone throttled as needed. -/
  | phaseOvercurrent (field phase amps : Nat)
  /-- PHASE_SHED, R424. A phase found open or blind is shed and the zone throttled as needed. -/
  | phaseShed (field phase : Nat) (cause : ShedCause)
  /-- PHASE_DISAGREEMENT, R424. Residual and duty model disagree for 16 cycles and the zone counts one phase fewer. -/
  | phaseDisagreement (field : Nat)
  /-- DECK_SHORT, R426. A plane short turns the deck's rails off, commits and latches the deck off. -/
  | deckShort (deck rail : Nat)
  /-- SOFT_START_RETRY, R427. 100 ms after a soft-start short the deck retries, latching after the fourth failure. -/
  | softStartRetry (deck : Nat) (short : Option Nat)
  /-- CRACK_DROP, R429. A 1 ms impedance window completes and 16 high windows hold the zone's domain at level 8. -/
  | crackDrop (field amps uohm : Nat)
  /-- CAP_DECISION, R430. Every 1 ms the supervisor raises or lowers the common cap level. -/
  | capDecision (watts ampsA ampsB : Nat)
  /-- PERIODIC_COMMIT, R433. The engine commits request-table changes and accounting at its cartridge-dependent period. -/
  | periodicCommit
  /-- CARTRIDGE_REMOVAL, R434. Loss of cartridge presence stops charging, shortens commits and aborts imprinting. -/
  | cartridgeRemoval (b : Bool)
  /-- CARTRIDGE_INSERTION, R432. A cartridge is inserted and begins charging. -/
  | cartridgeInsertion (b : Bool)
  /-- CARTRIDGE_CHARGED, R432. A cartridge's lower estimate reaches 90 % and it counts as charged. -/
  | cartridgeCharged (b : Bool) (coulomb voltage : Nat)
  /-- CARTRIDGE_ESTIMATES_DISAGREE, R432. A cartridge's two estimates differ by over 20 points for 10 s. -/
  | cartridgeEstimatesDisagree (b : Bool) (coulomb voltage : Nat)
  /-- SENSOR_SAMPLE, R435. Every 100 µs the supervisor samples sensors, marks failed ones and updates bands. -/
  | sensorSample (field : Nat) (readings : List Int)
  /-- THERMAL_DECISION, R440. Every 1 ms the supervisor predicts domain temperatures and changes thermal levels; for each domain its load in W and the coolant temperature at it in 1/16 degC. -/
  | thermalDecision (loads : List (Nat × Nat × Int))
  /-- THERMAL_TRIP, R441. A sensor at 105 °C in three consecutive samples turns the rails off and latches. -/
  | thermalTrip (field wafer sensor : Nat)
  /-- COOLANT_FLOW, R443. Low flow or an over-warm inlet raises the flow response throttling every domain to level 9. -/
  | coolantFlow (flow : Nat) (inlet : Int)
  /-- FLOW_RESTORE_TIMEOUT, R443. Flow not restored within 5 s powers the engine down to Off. -/
  | flowRestoreTimeout
  /-- LEAK, R444. A leak sensor wet for 100 ms powers the engine down to Off through the commit. -/
  | leak (sensor : Nat) (openCircuit : Bool)
  /-- INTLK_SAMPLE, R490. Every 1 ms INTLK inputs are sampled and a new IMPRINT_EN or PWR_ON state taken after 10 agreeing samples. -/
  | intlkSample (imprint pwrOn : Bool)
  /-- PWR_ON_REQUEST, R450. A PWR_ON closure or feed return starts power-up toward the target. -/
  | pwrOnRequest (feeds : Bool)
  /-- POWER_UP_STAGE, R449. A power-up stage completes and the next stage begins. -/
  | powerUpStage (rep : StageReport)
  /-- POWER_DOWN_STAGE, R451. A power-down stage completes and the next stage begins. -/
  | powerDownStage
  /-- RESET_TAKE_EFFECT, R456. 1 ms after its reply an engine or deck reset commits and reruns stages 4 to 8. -/
  | resetTakeEffect
  /-- SNAPSHOT_CAPTURE, R464. At tick T the engine sizes the snapshot and writes the masked partitions' sections. -/
  | snapshotCapture
  /-- SNAPSHOT_CAPTURE_DONE, R465. The capture's last page and header are written and the partitions resume. -/
  | snapshotCaptureDone
  /-- RESTORE_APPLY, R467. At tick T the engine applies modes, tenants, adapter and requests from the snapshot. -/
  | restoreApply
  /-- MONITOR_SAMPLE, R474. A monitor takes a sample into its minimum, maximum, count and histogram. -/
  | monitorSample (mon : Nat) (v : Int)
  /-- FEED_RETURN, R421. A lost 48 V feed's voltage returns and it again shares the input current with the other feed. -/
  | feedReturn (b : Bool) (cv : Nat)
  /-- COOLANT_FLOW_RESTORED, R443. Flow returns to at least 80 L/min within 5 s and the flow response ends. -/
  | coolantFlowRestored (flow : Nat)
  /-- BRIDGE_LANE_DISABLED, R224. A deck-bridge lane that fails permanently is disabled and its cluster row's traffic moves to the neighbouring lane. -/
  | bridgeLaneDisabled (lane : Nat)
  /-- CARTRIDGE_END_OF_LIFE, R432. A cartridge's full capacity falls below 50 J and CARTRIDGE is recorded with event end of life. -/
  | cartridgeEndOfLife (b : Bool) (joules : Nat)
  /-- PHASE_DISAGREEMENT_CLEAR, R424. The residual and duty-model disagreement has been absent for 1 ms and the zone counts its phases in full again. -/
  | phaseDisagreementClear (field : Nat)
  /-- PTP_MESSAGE, R489. A PTP event or general message arrives on MGMT and steers the pace unit, other frames being discarded. -/
  | ptpMessage (isPtp : Bool) (kind : PtpKind) (value : Nat)
  /-- PACE_IN_EDGE, R368. A 1PPS rising edge on PACE IN is taken and the pace unit steers to it or declares the source lost if it is more than 1 µs off. -/
  | paceInEdge (offset : Int)
  /-- PAIR_CFG_TIMEOUT, R377. 60 s after PAIR_CFG without both engines configured, the command's final reply is 0x0504. -/
  | pairCfgTimeout
deriving DecidableEq, Repr

end Sys2Proof
end

