-- ==== Sys2Proof/WellFormed.lean ====
section
/-!
DEFINITION. Which commands name units the engine has and fields in range (R17, Table 0.4; Tables 4.1, 11.9, 11.12).
-/
namespace Sys2Proof

/-- A site of the engine. -/
def Loc.wf (t : Loc) : Bool := decide (t.field < 96) && decide (t.site < 720)
/-- A hart of the engine. -/
def Hart.wf (h : Hart) : Bool := h.loc.wf && decide (h.thread < 64)
/-- A function of the engine. -/
def Fn.wf : Fn → Bool
  | .pf k => decide (k < 8)
  | .vf t => decide (t < 256)
/-- A header whose fields fit (Table 11.9). -/
def Hdr.wf (h : Hdr) : Bool := h.fn.wf && decide (h.tag < 65536) && decide (h.tick < 2 ^ 64) && decide (h.part < 32) && !h.muted

/-- The hart of a tile instruction. -/
def Instr.hart : Instr → Option Hart
  | .add x _ => some x
  | .sub x _ => some x
  | .and x _ => some x
  | .or x _ => some x
  | .xor x _ => some x
  | .sll x _ => some x
  | .srl x _ => some x
  | .sra x _ => some x
  | .slt x _ => some x
  | .sltu x _ => some x
  | .min x _ => some x
  | .max x _ => some x
  | .minu x _ => some x
  | .maxu x _ => some x
  | .mul x _ => some x
  | .mulh x _ => some x
  | .mulhu x _ => some x
  | .div x _ => some x
  | .divu x _ => some x
  | .rem x _ => some x
  | .remu x _ => some x
  | .clz x _ => some x
  | .ctz x _ => some x
  | .popc x _ => some x
  | .lih x _ => some x
  | .ldb x _ => some x
  | .ldh x _ => some x
  | .ldw x _ => some x
  | .ldd x _ => some x
  | .ldbu x _ => some x
  | .ldhu x _ => some x
  | .ldwu x _ => some x
  | .stb x _ => some x
  | .sth x _ => some x
  | .stw x _ => some x
  | .std x _ => some x
  | .amoadd x _ => some x
  | .amoswap x _ => some x
  | .cas x _ => some x
  | .vldr x _ => some x
  | .vldc x _ => some x
  | .vlds x _ => some x
  | .vstr x _ => some x
  | .vstc x _ => some x
  | .vsts x _ => some x
  | .vunpk x _ => some x
  | .beq x _ => some x
  | .bne x _ => some x
  | .blt x _ => some x
  | .bge x _ => some x
  | .bltu x _ => some x
  | .bgeu x _ => some x
  | .jal x _ => some x
  | .jalr x _ => some x
  | .fence x _ => some x
  | .fenceI x _ => some x
  | .tbar x _ => some x
  | .waitc x _ => some x
  | .rdpace x _ => some x
  | .rdcnt x _ => some x
  | .endThread x _ => some x
  | .vadd x _ => some x
  | .vsub x _ => some x
  | .vmul x _ => some x
  | .vfma x _ => some x
  | .vdiv x _ => some x
  | .vsqrt x _ => some x
  | .vmin x _ => some x
  | .vmax x _ => some x
  | .vneg x _ => some x
  | .vabs x _ => some x
  | .vexp x _ => some x
  | .vcmp x _ => some x
  | .vsel x _ => some x
  | .vcvt x _ => some x
  | .vlog x _ => some x
  | .vbcast x _ => some x
  | .vext x _ => some x
  | .vmov x _ => some x
  | .vperm x _ => some x
  | .lplace x _ => some x
  | .lemitS x _ => some x
  | .lemitB x _ => some x
  | .ldivS x _ => some x
  | .ldivB x _ => some x
  | .lexp x _ => some x
  | .lclr x _ => some x
  | .lexpect x _ => some x
  | .folds x _ => some x
  | .mma x _ => some x
  | .apass x _ => some x
  | .mfill x _ => some x
  | .mcopy x _ => some x
  | .mtrn x _ => some x
  | .nvrd x _ => some x
  | .drd x _ => some x
  | .dwr x _ => some x
  | .send x _ => some x
  | .recv x _ => some x
  | .rchk x _ => some x
  | .rget x _ => some x
  | .waitTimeout x => some x
  | _ => none

/-- The header of a host command. -/
def Instr.hdr : Instr → Option Hdr
  | .reqSubmit x _ => some x
  | .reqQuery x _ _ => some x
  | .reqUpdate x _ _ _ => some x
  | .reqPause x _ => some x
  | .reqResume x _ => some x
  | .reqCancel x _ => some x
  | .reqRelease x _ => some x
  | .reqAppend x _ _ _ => some x
  | .reqDraft x _ _ _ => some x
  | .imgFit x _ _ _ _ => some x
  | .imgBegin x _ _ _ _ _ => some x
  | .imgStream x _ _ _ => some x
  | .imgEnd x _ _ => some x
  | .imgAbort x _ => some x
  | .imgPatch x _ _ => some x
  | .imgTierLoad x _ _ _ _ _ _ => some x
  | .imgRelease x _ => some x
  | .imgQuery x _ _ => some x
  | .keyEnrol x _ _ _ => some x
  | .partBindFields x _ _ => some x
  | .partBindImage x _ => some x
  | .tenantBind x _ => some x
  | .partMode x _ _ _ _ => some x
  | .partPause x => some x
  | .partResume x => some x
  | .partReset x => some x
  | .tenantSet x _ _ _ _ _ => some x
  | .hemSet x _ _ _ _ _ _ => some x
  | .kvReserve x _ _ _ _ => some x
  | .graphLoad x _ _ _ => some x
  | .graphUnload x _ => some x
  | .graphQuery x _ _ => some x
  | .adaptSave x _ _ _ => some x
  | .adaptRestore x _ _ _ => some x
  | .monRead x _ _ _ _ _ _ _ => some x
  | .nwRead x _ _ _ => some x
  | .nwWrite x _ _ => some x
  | .histRead x _ _ => some x
  | .histClear x _ => some x
  | .tenantQuery x _ _ => some x
  | .pwrState x _ => some x
  | .pwrCap x _ => some x
  | .thermQuery x _ => some x
  | .throttleQuery x _ => some x
  | .darnRead x _ _ => some x
  | .darnRemap x _ _ => some x
  | .rinseSet x _ _ => some x
  | .selfTest x _ _ => some x
  | .snapshot x _ _ _ => some x
  | .restore x _ _ _ => some x
  | .reset x _ _ _ _ => some x
  | .journalRead x _ _ => some x
  | .schedWithdraw x _ => some x
  | .zportCtl x _ _ => some x
  | .zportQuery x _ _ => some x
  | .paceSrc x _ _ _ => some x
  | .pairCfg x _ _ _ _ => some x
  | .zrouteSet x _ _ => some x
  | .pairTakeover x => some x
  | _ => none

/-- The site an event names. -/
def Instr.site : Instr → Option Loc
  | .mmaComplete x => some x
  | .attnPassEnd x => some x
  | .moverComplete x => some x
  | .nvDescComplete x _ => some x
  | .dramDescComplete x _ _ => some x
  | .portFault x _ _ => some x
  | .sendComplete x => some x
  | .msgDelivery x _ => some x
  | .taskGrant x _ => some x
  | .taskRelease x _ => some x
  | .spRegionWrite x _ _ => some x
  | .foldCombine x _ _ => some x
  | .foldReceive x => some x
  | .hemReservation x _ _ _ => some x
  | .hemReservationReturn x => some x
  | .proxyRead x _ _ => some x
  | .recoveryChainPage x _ => some x
  | .rinsePass x _ _ => some x
  | .bankGuarded x _ => some x
  | .guardConversionDone x _ => some x
  | .guardWindowEnd x => some x
  | .kvRinse x _ => some x
  | .nvPatrol x _ _ => some x
  | .slotZeroFillDone x _ => some x
  | .kvSpill x _ => some x
  | .kvReserveFetch x _ _ _ => some x
  | .reserveCacheFill x _ _ _ => some x
  | .blobTransfer _ x => some x
  | .repairWrite _ _ x => some x
  | .siteCovered x _ => some x
  | .strikeExpiry x => some x
  | .sliceReimprintVerified x _ => some x
  | .siteDark x => some x
  | _ => none

/-- The function a register access or fetch names. -/
def Instr.fn : Instr → Option Fn
  | .statusDelivery x _ => some x
  | .msixCoalesceTimeout x _ => some x
  | .commandFetch x _ => some x
  | .doorbell x _ _ => some x
  | .ringCfgEnable x _ _ => some x
  | .dwDataWrite x _ _ => some x
  | .dwLaunch x _ _ _ => some x
  | .registerWrite x _ _ => some x
  | .flr x => some x
  | _ => none

/-- The units a chair-only write names exist. -/
def ChairWrite.wf : ChairWrite → Bool
  | .darnMap f v _ => decide (f < 96) && decide (v < 696)
  | .darnSite f s _ => decide (f < 96) && decide (s < 720)
  | _ => true
/-- A chair latch value names a deck there is. -/
def Chair.wf : Chair → Bool
  | .none => true
  | .deck d => decide (d < 2)
/-- A KV slot (4,110 of them) or a slab page (58,464) of a proxy read. -/
def ProxyReq.wf : ProxyReq → Bool
  | .kvSlot k => decide (k < 4110)
  | .nvPage p => decide (p < 58464)
/-- A read-clear counter there is. -/
def RcCounter.wf : RcCounter → Bool
  | .fab d => decide (d < 2)
  | .disp d => decide (d < 2)
  | .lost p d => decide (p < 8) && decide (d < 2)
  | .drops f => f.wf
/-- A port there is. -/
def PortName.wf : PortName → Bool
  | .pcie k => decide (k < 8)
  | .zarog z => decide (z < 24)

/-- The other units an event names exist (Table 0.4), and its quantities are in the range their rule gives. -/
def Instr.units : Instr → Bool
  | .msgDelivery _ m => decide (m < 16)
  | .allSignalCombine p _ _ => decide (p < 32)
  | .stepBegin p => decide (p < 32)
  | .scheduledActionHold p => decide (p < 32)
  | .stepClose p => decide (p < 32)
  | .stepHalt p => decide (p < 32)
  | .stepReexecute p => decide (p < 32)
  | .promptFetch i _ => decide (i < 32768)
  | .heldPacketWrite i => decide (i < 32768)
  | .lossStoreDrain p => decide (p < 32)
  | .tokenDelivery t _ _ => decide (t < 256)
  | .scheduledCommandApply d _ _ _ => decide (d < 2)
  | .ledgerHeadRead p d _ => decide (p < 8) && decide (d < 2)
  | .ledgerAck p d _ => decide (p < 8) && decide (d < 2)
  | .rcCounterRead c _ => c.wf
  | .vfAssignWrite p t _ => decide (p < 8) && decide (t < 256)
  | .spRegionWrite _ n _ => decide (n < 64)
  | .pcieLinkDown p => decide (p < 8)
  | .pcieLinkUp p _ _ => decide (p < 8)
  | .hotReset p => decide (p < 8)
  | .hemReservation _ d _ _ => decide (d < 2)
  | .packetArrival _ _ l => l.all (·.wf)
  | .xstopDisabled f c _ => decide (f < 96) && decide (c < 36)
  | .proxyRead _ q r => r.wf && q.wf
  | .bankGuarded _ b => decide (b < 32)
  | .guardConversionDone _ b => decide (b < 32)
  | .dramRefresh f => decide (f < 96)
  | .slotZeroFillDone _ k => decide (k < 4110)
  | .kvReserveFetch _ _ k _ => decide (k < 4110)
  | .reserveCacheFill _ i _ _ => decide (i < 16)
  | .blobTransfer g _ => decide (g < 64)
  | .fieldVerify f _ => decide (f < 96)
  | .repairWrite i _ _ => decide (i < 64)
  | .mapWindowStageDone p => decide (p < 32)
  | .sliceReimprintVerified _ i => decide (i < 64)
  | .fieldSetRebindStage p => decide (p < 32)
  | .zportSignalDetect z => decide (z < 24)
  | .zportTrainDone z => decide (z < 24)
  | .zportTrainTimeout z => decide (z < 24)
  | .zportAlignDone z _ _ => decide (z < 24)
  | .zportAlignTimeout z => decide (z < 24)
  | .zportCreditDone z _ => decide (z < 24)
  | .zportCreditTimeout z => decide (z < 24)
  | .zportLossOfSignal z => decide (z < 24)
  | .zportBackoffElapsed z => decide (z < 24)
  | .zportUpStable z => decide (z < 24)
  | .zarogCodewordReceive z _ => decide (z < 24)
  | .zarogNak z _ => decide (z < 24)
  | .zportReplayLimit z => decide (z < 24)
  | .linkFlit z _ => decide (z < 24)
  | .zarogPacketReceive z _ => decide (z < 24)
  | .zarogModuleInsert z _ _ => decide (z < 24)
  | .portConnectorFault p => p.wf
  | .paceExchange z _ => decide (z < 24)
  | .epochPrepare m => decide (m.part < 32)
  | .epochAck p _ _ _ => decide (p < 32)
  | .epochDecision p _ _ => decide (p < 32)
  | .epochDeadline p => decide (p < 32)
  | .epochDecisionResend p => decide (p < 32)
  | .spanAnnounce _ k _ _ _ _ _ _ _ => decide (k < 4)
  | .spanBatchReceive p _ l => decide (p < 32) && l.all (fun x => x.1.wf)
  | .spanHandoff p _ _ => decide (p < 32)
  | .spanRecordsReturn p _ _ => decide (p < 32)
  | .spanAcceptedPath p _ => decide (p < 32)
  | .pairReady p => decide (p < 32)
  | .mirrorDigest p _ => decide (p < 32)
  | .standbyReplication p _ => decide (p < 32)
  | .replicationAck p _ => decide (p < 32)
  | .chairRequest d _ => decide (d < 2)
  | .chairOnlyWrite d w => decide (d < 2) && w.wf
  | .chairVote f => f.all (fun x => decide (x.1 < 3) && x.2.wf)
  | .watchdogWrite d => decide (d < 2)
  | .watchdogRestart d => decide (d < 2)
  | .controllerRestartDone d => decide (d < 2)
  | .phaseOvercurrent f k _ => decide (f < 96) && decide (k < 12)
  | .phaseShed f k _ => decide (f < 96) && decide (k < 12)
  | .phaseDisagreement f => decide (f < 96)
  | .deckShort d r => decide (d < 2) && decide (r < 5)
  | .softStartRetry d r => decide (d < 2) && r.all (fun r => decide (r < 5))
  | .crackDrop f _ _ => decide (f < 96)

  | .sensorSample f r => decide (f < 96) && r.length == 48
  | .thermalDecision l => l.all (fun x => decide (x.1 < 60))
  | .thermalTrip f w k => decide (f < 96) && decide (w < 4) && decide (k < if w = 0 then 36 else 4)
  | .leak k _ => decide (k < 6)
  | .bridgeLaneDisabled l => decide (l < 36)
  | .phaseDisagreementClear f => decide (f < 96)
  | _ => true

/-- Every unit the command names exists: its hart, function, site and the others. A command that is not so names no unit. -/
def Instr.named (i : Instr) : Bool :=
  (i.hart.map Hart.wf).getD true && (i.hdr.map (fun h => h.fn.wf)).getD true && (i.site.map Loc.wf).getD true && (i.fn.map Fn.wf).getD true && i.units

/-- A well-formed command: every unit it names exists, and its header fits. -/
def Instr.wf (i : Instr) : Bool := i.named && (i.hdr.map Hdr.wf).getD true

end Sys2Proof
end

