-- ==== Sys2Proof/Decode.lean ====
section
/-!
DEFINITION. The block has no instruction decoder of a processor's kind: it takes commands. No row of
spec/opcode_table.json gives bits (every row's field list is empty), so no word spells a command.
-/
namespace Sys2Proof

/-- The command a word spells by the table's bits: the table gives none to any row. -/
def decodeTableWord (_nbits _w : Nat) : Option Instr := none

end Sys2Proof
end

