-- ==== Sys2Proof/Config.lean ====
section
/-!
DEFINITION. What an implementation fixes and the free values: constants with no body, so that no proof can lean on a
number the specification does not state. Each names the log entry that marks it.
-/
namespace Sys2Proof.Config

/-- A byte the specification leaves undefined: a read of a DRD destination before the DRD completes (R146).
Indexed by a counter of the state. DESIGN CHOICE, log entry 3. -/
opaque freeByte : Nat → Byte

/-- TARGET of a batch entry of a training step (Table 9.6 names it and no rule says where it comes from). Indexed by a
counter of the state. DESIGN CHOICE, log entry 25. -/
opaque trainTarget : Nat → BitVec 32

/-- The two engine IDs an AUK-PK2 licence file names, or none when the file is not valid (R377, R497; the file's
layout is not stated). DESIGN CHOICE, log entry 20. -/
opaque licenceIds : List Byte → Option (Word × Word)

/-- Thermal resistance RTH[d] of domain d in units of 2^-16 K/W (R440: calibrated at manufacture). Log entry 18. -/
opaque rth : Nat → Nat

/-- 1 - e^(-8 ms / TAU[d]) of domain d in units of 2^-16 (R440: calibrated at manufacture). Log entry 18. -/
opaque decay : Nat → Nat

/-- Manufacture baseline impedance of a field's zone, in micro-ohm (R429: recorded at manufacture). Log entry 11. -/
opaque zoneBaseline : Nat → Nat

/-- The engine's idle draw in watts (R430: not stated). Log entry 13. -/
opaque idleDraw : Nat

/-- Endurance cycles a stripe has at delivery (R495: at most 3, the number is not stated). Log entry 8. -/
opaque shippedCycles : Nat → Nat → Nat → Nat

/-- Unpacked bytes of the overflow (0) or reserve (1) pages of a slice record, before they are presented: a manifest does
not hold them and the fit report of Table 6.13 counts their slots. DESIGN CHOICE, log entry 34. -/
opaque tierBytes : Nat → Nat → Nat

/-- VCORE setpoint in microvolts, from 700,000 to 740,000 (Table 14.1: fixed per engine at manufacture). Log entry 36. -/
opaque vcoreSetpoint : Nat

/-- How long a power-loss commit takes, in microseconds, by a counter of the state (R431: at most 30 ms). DESIGN CHOICE,
log entry 37. -/
opaque commitTime : Nat → Nat

/-- Does a site pass its test: by a counter of the state and the site's key (R347, R459 name the test and not its
result). DESIGN CHOICE, log entry 38. -/
opaque siteTest : Nat → Nat → Bool

/-- The newest accepted token of a request that RESTORE brings back: a snapshot holds it nowhere (R464, Table 10.1). Indexed
by a counter of the state. DESIGN CHOICE, log entry 41. -/
opaque restoredToken : Nat → BitVec 32

/-- RTAG of a request that RESTORE brings back, the same. DESIGN CHOICE, log entry 41. -/
opaque restoredTag : Nat → BitVec 16

/-- Code of a ledger event that a rule asks for and Table 13.7 does not list: 0 a sensor marked failed (R435), 1 a chair latch copy
rewritten (R387). DESIGN CHOICE, log entry 44. -/
opaque unstatedCode : Nat → BitVec 16

/-- An argument of a ledger event, a temperature or the DETAIL of an exception to which no rule gives a value. Indexed by a counter
of the state. DESIGN CHOICE, log entries 10, 44, 46, 47 and 164. -/
opaque unstatedArg : Nat → Word

/-- What the gauge of a cartridge reads when it has just been inserted: coulomb estimate, voltage estimate, usable energy (R432 gives
no value). Indexed by a counter of the state. DESIGN CHOICE, log entry 17. -/
opaque gauge : Nat → BitVec 7 × BitVec 7 × BitVec 8

/-- Firmware version and hardware revision of ENG_INFO (Table 11.2 gives the fields and no values). Log entry 21. -/
opaque engVersion : Nat

/-- Payload bytes of a packet of a type whose layout is internal to the engines, by type (R356 gives none). DESIGN CHOICE, log entry 149. -/
opaque internalLen : Nat → Nat

end Sys2Proof.Config
end

