-- ==== Sys2Proof/Machine/State.lean ====
section
/-!
DEFINITION. The whole state of the engine as plain data, and State.reset. Every field names the rule that gives it; the
default values are the reset values (INVENTORY.md says which the specification states and which a log entry names).
Sparse tables are `AMap`s in canonical form; a key that is not listed reads as the reset value of its kind.
-/
namespace Sys2Proof.Machine

/-- Scratchpad, KV slab and weight slab contents: byte addresses in rising order, no zero byte listed (R449). -/
abbrev Memory := List Host.Cell

/-! ### Tiles -/

/-- RUN of Table 3.1. -/
inductive Run where
  | free | running | waiting | halted
deriving DecidableEq, Repr

/-- Per-thread state (R84, Table 3.1). Register x0 has no storage: it reads 0 and discards writes. -/
structure Thread where
  pc : BitVec 21 := 0
  regs : AMap Word := []
  vctx : Option Nat := none
  task : Nat := 0
  run : Run := .free
  since : Nat := 0
  ended : Bool := false
  lastPace : Nat := 0
  barrier : Option Nat := none
deriving DecidableEq, Repr

/-- A long register (R58, Table 2.4a). -/
structure LReg where
  value : BitVec 384 := 0
  res : Nat := 0
  poison : Bool := false
deriving DecidableEq, Repr

/-- One add into a long register: exact integer in units of 2^-160, its residue by the checker, poison (R59, R70). -/
structure Add where
  reg : Nat
  n : Int
  res : Nat
  poison : Bool := false
deriving DecidableEq, Repr

/-- An MMA in the matrix queue or in the unit (R92): the products its operands form, the bank it names, and the cycles for which
it occupies the unit. -/
structure MmaJob where
  thread : Nat
  slot : Nat
  bank : Nat
  adds : List Add
  occ : Nat := 1
deriving DecidableEq, Repr

/-- What an attention pass that has started will write when it ends (R102, R143, R248). -/
structure AttnRun where
  clears : List Nat
  adds : List Add
  ad : LReg
  writes : List (Nat × List Byte)
  flushedIn : Nat
  flushedTerms : Nat
  violations : Nat
deriving DecidableEq, Repr

/-- An attention pass in the lane's queue (R100, R143): the instruction and the descriptor's address, the scratchpad as the
instruction found it (R109), the banks of an ATTEND pass, the KV slots it reads in their order, and once it has started what it
will write. -/
structure AttnJob where
  thread : Nat
  slot : Nat
  pc : Nat
  w : Opnd
  addr : Nat
  sp : Memory
  badWords : List Nat
  kvSlots : List Nat
  banks : List Nat
  attend : Bool
  run : Option AttnRun := none
deriving DecidableEq, Repr

/-- A mover operation in its queue (R144). -/
structure MoverJob where
  thread : Nat
  slot : Nat
deriving DecidableEq, Repr

/-- An NV descriptor (R145). -/
structure NvJob where
  thread : Nat
  slot : Nat
  pc : Nat
  dst : Nat
  len : Nat
  first : Nat
  count : Nat
  offs : Option (Int × Int) := none      -- read offsets of the two wafers in mV, from the moment it reaches the head (R197)
deriving DecidableEq, Repr

/-- A DRAM descriptor (R146): a read into scratchpad, or a write of bytes taken from it at issue (R109). -/
structure DramJob where
  thread : Nat
  slot : Nat
  pc : Nat
  write : Bool
  sp : Nat
  slab : Nat
  len : Nat
  data : List Byte
deriving DecidableEq, Repr

/-- A fold flit (R215, R220, Table 7.5). Slot values are exact integers in units of the window's lowest limb. -/
structure Flit where
  bank : Nat
  reg : Nat
  wlo : Nat
  wcnt : Nat
  whole : Bool
  rfault : Bool := false
  rfaultAt : Option Loc := none
  count : Nat
  slots : List (Nat × Int × Nat)     -- present slot s, its value, SRES (0xFF marks a poisoned slot)
deriving DecidableEq, Repr

/-- What a packet on the fabric carries (R215). -/
inductive Payload where
  | msg (mbox : Nat) (bytes : List Byte)
  | fold (f : Flit)
  | proxy (q : ProxyReq)
  | data (bytes : List Byte)             -- proxy-read data
  | inbound (bytes : List Byte)          -- from the hem: DMA data, imprint frames, reserve fills
  | outbound (bytes : List Byte)         -- to the hem
  | other
deriving DecidableEq, Repr

/-- A packet on the fabric (Table 7.2). -/
structure Packet where
  src : Loc
  dst : Loc
  part : Nat
  sys : Bool
  epoch : Nat
  body : Payload
deriving DecidableEq, Repr

/-- A message in the send queue (R147). -/
structure SendJob where
  thread : Nat
  slot : Nat
  pkt : Packet
deriving DecidableEq, Repr

/-- A posted receive buffer (R148). -/
structure Mailbox where
  addr : Nat := 0
  len : Nat := 0
  off : Nat := 0
  thread : Nat := 0
  slot : Option Nat := none
  pc : Nat := 0
deriving DecidableEq, Repr

/-- A running task instance on a tile (R85, R131, R132, R267). `claims` are region indices, true = exclusive. -/
structure Instance where
  part : Nat := 0
  graph : Nat := 0
  node : Nat := 0
  entry : Nat := 0
  threads : List Nat := []
  ctxs : List Nat := []
  banks : Nat := 0
  claims : List (Nat × Bool) := []
  redFirst : Nat := 0
  redCnt : Nat := 0
  cnt : AMap Nat := []
deriving DecidableEq, Repr

/-- TILE_EXC (Table 3.9). -/
structure TileExc where
  cause : Option Cause := none
  thread : Nat := 0
  other : Nat := 0
  pc : Nat := 0
  detail : Nat := 0
deriving DecidableEq, Repr

/-- SP_BANK[b] (Table 5.8). -/
structure SpBank where
  ce : Nat := 0
  ue : Nat := 0
  win : Nat := 0
  guarded : Bool := false
  conv : Bool := false
  last : Nat := 0
deriving DecidableEq, Repr

/-- What a KV slot holds (R239). -/
inductive SlotUse where
  | free
  | page (req stream row : Nat)
  | root (req : Nat)
  | cont (req k : Nat)
  | list (req k : Nat)
  | stub (held : List (Nat × Nat × Nat × Nat))   -- index, request, stream, row of each stub
  | overflow (imgSlot : Nat)
  | rcache (imgSlot page used : Nat)
  | kvcache (part page used : Nat)
  | pool (graph : Nat)
  | adapter (part : Nat)
  | zeroing
  | withdrawn
deriving DecidableEq, Repr

/-- A stripe of the weight slab: erase cycles beyond those at delivery, and the image table index that owns it (R183, R195). -/
structure Stripe where
  cycles : Nat := 0
  owner : Option Nat := none
deriving DecidableEq, Repr

/-- A row unit that a spill has copied out and that still waits for the boundary (R262): its pages as (stream, slot,
reserve page). -/
structure Spill where
  req : Nat
  row : Nat
  pages : List (Nat × Nat × Nat)
deriving DecidableEq, Repr

/-- One tile site with its two slabs (R21 to R24, R84 to R112, R151 to R183, R230 to R239). -/
structure Tile where
  threads : AMap Thread := []
  vregs : AMap Vec := []                 -- key context * 32 + register
  lregs : AMap LReg := []                -- key bank * 128 + index
  ad : LReg := {}
  pend : AMap Nat := []                  -- pending-arrival count of each bank
  sp : Memory := []
  badWords : List Nat := []              -- word addresses
  filling : List Nat := []               -- 4 KiB granules
  region : AMap Word := []
  bank : AMap SpBank := []
  ibuf : AMap Word := []
  matQ : List MmaJob := []               -- waiting in the matrix queue
  matU : List MmaJob := []               -- taken by the matrix unit, adds not yet complete
  attQ : List AttnJob := []
  movQ : List MoverJob := []
  nvQ : List NvJob := []
  dramQ : List DramJob := []
  sendQ : List SendJob := []
  mbox : AMap Mailbox := []
  held : List Packet := []               -- messages whose mailbox has no posted buffer
  foldIn : List Flit := []               -- fold flits at the owner's router
  recv : List (Nat × List Byte) := []    -- pages that recovery chains have brought, by slab page (R403)
  inst : List (Nat × Instance) := []
  granted : List Nat := []               -- task-table entries granted in this execution of the step
  finished : List Nat := []              -- those of them that have been released
  spills : List Spill := []
  stepCnt : AMap Nat := []               -- codes 8 to 13 of Table 4.7
  exc : TileExc := {}
  strikes : List Nat := []
  kv : Memory := []
  slotUse : AMap SlotUse := []
  badSlots : AMap Nat := []              -- slot, 1 + tick of its last uncorrectable word
  kvBad : List Nat := []                 -- slots that hold an uncorrectable word not yet resolved (R410)
  kvLo : Nat := 0
  kvHi : Nat := 4109
  nv : Memory := []                      -- page * 32768 + byte of the page content
  nvBad : List Nat := []
  flagged : List Nat := []               -- stripes patrol has flagged for refresh (R198)
  stripes : AMap Stripe := []
  ext : AMap (BitVec 32) := []
  resident : AMap Nat := []              -- N for each image slot
  recovering : List (Nat × Loc) := []    -- image slot read through recovery chains, and the covered site
  hemBal : AMap Nat := []                -- key 2 * deck + segment
  hemLast : Nat := 0
  routerCorr : Nat := 0                  -- errors that its router corrected (R214)
  rinses : Nat := 0
  dramFault : Bool := false               -- its DRAM port raised PORT_FAULT (R410)
deriving DecidableEq, Repr

/-! ### Fields and decks -/

/-- What the supervisor knows of one field's sensors (R435, R436, R441): readings in 1/16 degC, 36 compute, then 4 DRAM,
4 NV wafer 0, 4 NV wafer 1; failed marks; consecutive samples at 105 degC or more. -/
structure Sensors where
  readings : List Int := List.replicate 48 320
  failed : List Nat := []
  trip : AMap Nat := []
deriving DecidableEq, Repr

/-- One physical field (R280, R423, R429, R436, R500). -/
structure Field where
  darnMap : AMap (BitVec 16) := []       -- unlisted v: VALID with SITE v
  darnSite : AMap SiteState := []        -- unlisted s: ACTIVE below 696, SPARE from 696
  xstop : Nat := 0
  fenced : Bool := false
  cBand : Nat := 0
  dBand : Nat := 0
  nBand0 : Nat := 0
  nBand1 : Nat := 0
  sensors : Sensors := {}
  shed : List Nat := []                  -- phases shed
  disagree : Bool := false
  base : AMap Nat := []                  -- impedance baseline by band
  highWin : Nat := 0
  refresh : Nat := 0
deriving DecidableEq, Repr

/-- A ledger or journal entry (Table 13.4). -/
structure LedgerEntry where
  tick : Nat := 0
  seq : Nat := 0
  code : Nat := 0
  rep : Nat := 1
  field : Nat := 0xFF
  site : Nat := 0x3FF
  part : Nat := 0
  pvalid : Bool := false
  sev : Nat := 0
  deck : Nat := 0
  arg0 : Nat := 0
  arg1 : Nat := 0
deriving DecidableEq, Repr

/-- The ledger of a deck (R336, R413 to R415). -/
structure Ledger where
  entries : List LedgerEntry := []       -- oldest first
  next : Nat := 0
  lost : Nat := 0
  latched : Option LedgerEntry := none
  poison : Bool := false
deriving DecidableEq, Repr

/-- One hem credit entry and its two buckets (R225, R226). -/
structure HemCr where
  inRate : Nat := 0
  outRate : Nat := 0
  burst : Nat := 0
  inBucket : Nat := 0
  outBucket : Nat := 0
deriving DecidableEq, Repr

/-- An action that engines commit in two phases (R372, R378, R463) as one of them keeps it: its number, the coordinator's node, at the
coordinator the other participants as node + 4096 * their partition and those still to acknowledge, the deadline, and the decision. -/
structure Act where
  id : Nat
  coordinator : Nat
  mine : Bool                            -- this engine coordinates it
  nodes : List Nat := []
  waiting : List Nat := []
  deadline : Nat := 0
  decision : Option Bool := none
deriving DecidableEq, Repr

/-- A command held in a deck's schedule table (R345): its header, whose `turn` is its place in intake order (R344), the command, and
the CMD-ring pointer of its packet. -/
structure Held where
  hd : Hdr
  cmd : Instr
  ptr : Nat := 0
  accepted : Bool := false               -- its Accepted reply has been written
  parts : List Nat := []                 -- partitions whose step boundary it applies at
  own : Bool := false                    -- its effect follows a rule of its own: a mode epoch, a snapshot, a restore
  act : Option Act := none               -- the two-phase action that it is (R378)
deriving DecidableEq, Repr

/-- A command packet in the intake FIFO (R331), with the CMD-ring pointer of its first unit, its place in intake order (R344), and what
its words' parity shows (R332). -/
structure Intake where
  fn : Fn
  bytes : List Byte
  ptr : Nat := 0
  turn : Turn := {}
  wordBad : Bool := false
  headerBad : Bool := false
deriving DecidableEq, Repr

/-- Rails of a deck (Table 14.1). -/
structure Rails where
  vnv : Bool := true
  vdram : Bool := true
  vio : Bool := true
  vcore : Bool := true
  vctl : Bool := true
deriving DecidableEq, Repr

/-- A deck controller as the supervisor sees it (R386 to R390). -/
structure Controller where
  running : Bool := true
  heldReset : Bool := false
  lastWatchdog : Nat := 0
  restarts : List Nat := []
  claims : Nat := 0
  follow : Bool := false
deriving DecidableEq, Repr

/-- One deck (R27, R225, R229, R273, R331, R413, R416, R417, R426). -/
structure Deck where
  ledger : Ledger := {}
  thresh : Nat := 1
  sticky : AMap Nat := []
  sums : AMap Nat := []
  intake : List Intake := []
  sched : List Held := []
  fab : AMap Nat := []                   -- 0 PART_DROP, 1 IDLE_DROP, 2 FOLD_KEEP, 3 HEM_WAIT
  disp : AMap Nat := []                  -- 0 STALE, 1 OVER, 2 PASSED, 3 GANG_WAIT
  scrub : BitVec 32 := 0x03E80840#32
  hostCr : AMap HemCr := []              -- unlisted n: Table 7.7 reset
  zarogCr : AMap HemCr := []
  savedIn : Option Nat := none
  fillAt : Nat := 0                      -- first pace tick that fills its buckets again (R226)
  waitAt : Nat := 0                      -- first pace tick that counts in HEM_WAIT again (R229)
  epochHold : List Packet := []
  lanes : List Nat := []                 -- disabled bridge lanes
  latchedOff : Bool := false
  rails : Rails := {}
  attempts : Nat := 0
  ctl : Controller := {}
  fwCap : Nat := 48000
deriving DecidableEq, Repr

/-! ### Requests, tenants, partitions -/

/-- Request states (Table 10.2). -/
inductive ReqState where
  | idle | queued | prefill | decode | verify | paused | cancelling | done
deriving DecidableEq, Repr

/-- A token packet (Table 10.4). -/
structure TokenPacket where
  tokens : List Nat := []
  tick : Nat := 0
  outCnt : Nat := 0
  len : Nat := 0
  rtag : Nat := 0
  tenant : Nat := 0
  req : Nat := 0
  count : Nat := 0
  reason : Nat := 0
  fin : Bool := false
  kind : Nat := 0
deriving DecidableEq, Repr

/-- A request-table entry (Table 10.1) with what the engine keeps beside it. -/
structure Request where
  deadline : Nat := 0
  key : Word := 0
  promptAddr : Nat := 0
  pageHead : Nat := 0xFFFFFFFF
  len : Nat := 0
  promptLen : Nat := 0
  maxLen : Nat := 0
  temp : BitVec 32 := 0
  topP : BitVec 32 := 0
  eos : Nat := 0xFFFFFFFF
  outCnt : Nat := 0
  chunkMax : Nat := 0
  topkM1 : Nat := 0
  image : Nat := 0
  part : Nat := 0
  tenant : Nat := 0
  prio : Nat := 0
  reason : Nat := 0
  pauseSrc : Nat := 0
  spec : Bool := false
  retain : Bool := false
  state : ReqState := .idle
  rtag : Nat := 0
  activate : Nat := 0
  prior : ReqState := .queued            -- state held before a pause
  tree : Option (Nat × List (Nat × Nat)) := none
  newest : Option Nat := none            -- newest accepted token
  prompt : List Nat := []                -- tokens of positions LEN, LEN + 1, ... that have arrived and are in no batch yet
  promptBase : Nat := 0                  -- position of the token at PROMPT_ADDR
  promptEnd : Nat := 0                   -- positions when the prompt is processed
  heldPkts : List TokenPacket := []      -- packets waiting for FIFO space (R310)
  pauseReq : Bool := false               -- a pause requested during a step
  resumeReq : Bool := false              -- a resume requested, for the next boundary
  silentEnd : Bool := false              -- its end packet is discarded (R324)
  delivered : Nat := 0                   -- delivered count (R462)
  rows : Nat := 0                        -- rows allocated
  update : List (Nat × SubmitParams) := []   -- updates waiting for the next assembly
deriving DecidableEq, Repr

/-- A tenant: TQ[t] (Table 10.3), VF_ASSIGN, windows and its token FIFO (R302, R323, R331). -/
structure Tenant where
  maxReq : Nat := 0
  deficit : Int := 0
  weight : Nat := 1
  part : Nat := 0
  bound : Bool := false
  enable : Bool := false
  fifo : List TokenPacket := []
  wr : Option Nat := none                -- words of the newest packet written so far; none: all 8 (R334)
  fwd : Nat := 0                         -- words of the oldest packet forwarded to the next TOK unit (R334)
  heldEnds : List TokenPacket := []      -- end packets of entries that are IDLE again, waiting for FIFO space
  nextPart : Option Nat := none          -- partition of submissions after a TENANT_BIND is accepted (R318)
deriving DecidableEq, Repr

/-- A norm-watch entry (Table 2.7). -/
structure NormWatch where
  mean : BitVec 32 := 0
  factor : BitVec 32 := 0x40800000#32
  vanLimit : Nat := 0
  satLimit : Nat := 0
  warmup : Nat := 0x10
  alpha : Nat := 4
  action : Nat := 0
  dir : Nat := 0
  kind : Bool := false
  enable : Bool := false
deriving DecidableEq, Repr

/-- Tallies of one norm-watch entry in a step, whole or of one request (R81): S in units of 2^-298, C, vanished,
saturated. -/
structure Tally where
  sq : Nat := 0
  cnt : Nat := 0
  van : Nat := 0
  sat : Nat := 0
deriving DecidableEq, Repr

/-- A batch entry (Table 9.6). -/
structure BatchEntry where
  token : Nat := 0
  target : Nat := 0xFFFFFFFF
  slot : Nat := 0
  logpos : Nat := 0
  tmask : Nat := 0
  req : Nat := 0
  node : Nat := 0
  kind : Nat := 0
  parent : Nat := 0
  len : Nat := 0
  lastOfChunk : Bool := false
  finalChunk : Bool := false
deriving DecidableEq, Repr

/-- Partition states (Table 10.7). -/
inductive PartState where
  | free | idle | stepping | held | paused | rebinding
deriving DecidableEq, Repr

/-- Why a partition is paused, where that decides PART_RESUME (R315, R407, R408, R425). -/
inductive PauseCause where
  | host | normWatch | graphFault | noSpare | imageLost | fenced | phases
deriving DecidableEq, Repr

/-- The running step of a partition (R41, R113, R270, R395). -/
structure Step where
  start : Nat := 0
  exec : Nat := 1
  batch : List BatchEntry := []
  exc : TileExc := {}
  excLoc : Option Loc := none
  timedOut : Bool := false               -- an execution ended with class timing (R113)
  graphFault : Bool := false             -- treated as a graph fault without a tile exception (R272, R305)
  hwFault : Bool := false                -- a hardware fault without a tile exception (R214, R363, R375, R500)
  halted : Bool := false
  covered : List Loc := []
  excluded : List Nat := []
  allEnds : List (Nat × Nat) := []       -- (node, cluster key) reported (R274)
  allDone : List Nat := []               -- nodes whose ALL signal has been broadcast
  waits : List Loc := []                 -- tiles whose handoff has not arrived (R366)
  records : List Nat := []               -- ranks whose sampler records have come back (R366)
  handed : Bool := false                 -- its handoffs or sampler records have left for the next part (R366)
  drawn : Bool := false                  -- its draws are known and its digest has left for the twin (R380)
deriving DecidableEq, Repr

/-- A prepared mode epoch at a participant (R372, R373). -/
structure Prepared where
  msg : Prepare
  modes : Modes := {}
  turn : Turn := {}                      -- its place among the boundary actions (R344)
  decided : Option Bool := none
deriving DecidableEq, Repr

/-- The coordinator's open commit (R372): the other participants as (node, their partition), nodes still to acknowledge, the decision,
who asked. -/
structure Coord where
  msg : Prepare
  nodes : List (Nat × Nat) := []
  waiting : List Nat := []
  decision : Option Bool := none
  hd : Option Hdr := none                -- none once the command has its final reply
  nextSend : Nat := 0
deriving DecidableEq, Repr

/-- Stages of the map window (R401). -/
inductive MapStage where
  | cover | placement | migration | route
deriving DecidableEq, Repr

/-- A map window of a partition: the covered site, its spare, its virtual tile, the stage, and its start (R401). -/
structure MapWindow where
  covered : Loc
  spare : Loc
  v : Nat
  stage : MapStage
  start : Nat
  migrate : Bool
  cause : Nat
  migrated : Nat := 0
  also : List Loc := []                  -- spares that failed in this window
deriving DecidableEq, Repr

/-- Stages of a field-set re-binding (Table 10.9). -/
inductive RebindStage where
  | drain | kvRelease | route | fill | journal
deriving DecidableEq, Repr

/-- A field-set re-binding in progress (R320). -/
structure Rebind where
  old : Nat
  fields : Nat
  image : Nat
  stage : RebindStage
  hd : Hdr
deriving DecidableEq, Repr

/-- A partition: PART[n] (Table 10.6), its norm-watch table, its step, and what is under way on it. -/
structure Part where
  fields : Nat := 0
  stepNo : Nat := 0
  lastStep : Nat := 0
  modes : Modes := {}
  image : Option Nat := none
  graph : Nat := 0
  pair : Nat := 0
  epoch : Nat := 0
  state : PartState := .free
  rrNext : Nat := 0
  watch : AMap NormWatch := []
  tally : AMap Tally := []               -- key entry * 4097 + (0 whole, 1 + batch entry)
  step : Option Step := none
  causes : List PauseCause := []
  adaptSel : Nat := 0
  adaptSlots : Nat := 0
  losses : List (Nat × Nat × Nat × Nat) := []   -- request, logical position, FP32 loss, tick of the step start
  kvRegion : Option (Nat × Nat × Fn) := none
  kvLow : Nat := 0
  kvUsed : List (Nat × Nat) := []        -- reserve pages in use, with the request
  window : Option MapWindow := none
  rebind : Option Rebind := none
  prepared : Option Prepared := none
  coord : Option Coord := none
  spanOf : AMap Nat := []                -- part index to node + 4096 * its partition, learnt by announcements (R365)
  loadStep : Option Nat := none          -- step number of the last boundary at which the load unit wrote region entries (R290)
  failed : List Nat := []                -- requests that failed a norm watch on another part of the span in this step (R82, R366)
  upSet : Nat := 0                       -- Zarog ports that were UP at its last step boundary (R363)
  told : List (Nat × List Nat × Bool × Nat) := []   -- actions it decided: number, node + 4096 * partition, commit, next resend (R373)
  spanIndex : Nat := 0
  spanLast : Nat := 0
  pauseAfter : Bool := false             -- another part of its span pauses: it pauses when its step ends (R367)
  twinReady : Bool := false
  selfReady : Bool := false
  unacked : List Nat := []               -- step numbers a standby primary awaits (R381)
  heldPkts : List (Nat × List (Nat × TokenPacket)) := []  -- packets waiting for the twin, by step number
  digest : Option Word := none
  digestFails : Nat := 0
  capture : Bool := false                -- held for a snapshot capture
  lastAcked : Nat := 0
deriving DecidableEq, Repr

/-! ### Images and graphs -/

/-- Image states (Table 6.6). -/
inductive ImgState where
  | absent | imprinting | incomplete | ready | degraded | releasing
deriving DecidableEq, Repr

/-- A slice record (Table 6.5). -/
structure Slice where
  digest : List Byte := []
  tierDigest : List Byte := []
  vtile : Nat := 0
  group : Nat := 0
  member : Nat := 0
  dataPages : Nat := 0
  parityPages : Nat := 0
  ovf : Nat := 0
  spill : Nat := 0
deriving DecidableEq, Repr

/-- An image-table entry (R182, R184, R201, R202). -/
structure Image where
  id : Word := 0
  footprint : Nat := 0
  slot : Nat := 0
  state : ImgState := .absent
  slices : List Slice := []
  refFmt : List Nat := []
  layerFirst : Nat := 0
  partIndex : Nat := 0
  partLast : Nat := 0
  region : Option (Nat × Nat × Fn) := none
  recovered : List Nat := []             -- slices served through recovery
  tierLens : AMap (List Nat) := []       -- slice, unpacked bytes of each of its tier pages
  tier : List (Nat × Nat × List Byte) := []   -- slice, page, content of the tier pages loaded (R180, R201)
deriving DecidableEq, Repr

/-- Session states (Table 6.7). -/
inductive SessState where
  | idle | erasing | streaming | verifying | committing | failed
deriving DecidableEq, Repr

/-- The imprint session (R188, R189, R192). -/
structure Session where
  state : SessState := .idle
  image : Nat := 0
  fn : Fn := .pf 0
  hd : Option Hdr := none
  ports : Nat := 0
  zport : Nat := 0xFF
  programmed : List (Nat × Nat) := []    -- slice, page
  discarded : Nat := 0
  verified : List Nat := []
  failed : List Nat := []
  retried : List Nat := []
  limited : Option (List Nat) := none    -- patch session: the slices that take frames
  endAddr : Nat := 0
  alloc : List (Nat × Nat) := []         -- tile key, stripe
  sites : List (Option Nat) := []        -- tile key of each slice; none where its virtual tile has no site
  tier : List (Nat × Nat × List Byte) := []   -- slice, page, content of its overflow and reserve pages
deriving DecidableEq, Repr

/-- A repair write (R194): a slice rewritten to new stripes of a target tile. -/
structure Repair where
  img : Nat
  slice : Nat
  target : Loc
  stripes : List Nat
  pages : List (List Byte)
deriving DecidableEq, Repr

/-- Graph states (Table 9.15). -/
inductive GraphState where
  | free | loading | loaded | bound
deriving DecidableEq, Repr

/-- A node of a loaded graph (R265) as the engine keeps it. -/
structure Node where
  cls : Nat := 0
  spread : List Nat := []                -- virtual tile keys
  thm1 : Nat := 0
  vctx : Nat := 0
  banks : Nat := 0
  pred : Nat := 0
  gang : Nat := 0
  redFirst : Nat := 0
  redCnt : Nat := 0
  claims : List (Nat × Bool) := []
  entry : Nat := 0
  codeDecl : Nat := 0
  edges : List (Nat × Nat × Nat) := []   -- mode, target node, target virtual tile
  arg : Word := 0
deriving DecidableEq, Repr

/-- A region declaration (Table 9.10). -/
structure Decl where
  size : Nat := 0
  wclass : Bool := false
  kind : Nat := 0
  retain : Bool := false
  role : Nat := 0
deriving DecidableEq, Repr

/-- A tile class (Table 9.18). -/
structure TClass where
  tiles : List Nat := []
  decls : List Decl := []
  reds : List (List Byte) := []
  blobs : List (Nat × Nat × List Byte) := []
  pool : Nat := 0
deriving DecidableEq, Repr

/-- A KV stream (Table 9.13). -/
structure Stream where
  layer : Nat := 0
  group : Nat := 0
  isValue : Bool := false
  part : Nat := 0
  cm1 : Nat := 0
  fmt : Nat := 0
  nseg : Nat := 0
  seg : Nat := 0
  home : Nat := 0
deriving DecidableEq, Repr

/-- A relocation record (Table 9.11). -/
structure Reloc where
  kind : Nat := 0
  tclass : Nat := 0
  lreg : Nat := 0
  offset : Nat := 0
  field : Nat := 0
  width : Nat := 0
  arg : Nat := 0
deriving DecidableEq, Repr

/-- Where a graph stands on one tile (R284): the region index and base of each declaration, the task-table index of each
node, its edge words, the first descriptor and the first pool slot of each class, the first slot of the adapter area. -/
structure Placement where
  regions : List (Nat × Nat × Nat × Nat) := []   -- class, declaration, region index, base byte address
  nodes : List (Nat × Nat) := []         -- node, task-table index
  edges : List (Nat × Nat × Nat) := []   -- node, first edge word, edges
  reds : List (Nat × Nat × Nat) := []    -- class, first descriptor, descriptors
  pool : List (Nat × Nat × Nat) := []    -- class, first slot, slots
  adapt : Nat := 0
deriving DecidableEq, Repr

/-- A graph handle (R283 to R290). -/
structure Graph where
  state : GraphState := .free
  image : Nat := 0
  part : Nat := 0
  gridClass : Nat := 0
  train : Bool := false
  sample : Nat := 0
  cap : Nat := 4096
  adapt : Nat := 0
  classes : List TClass := []
  nodes : List Node := []
  relocs : List Reloc := []
  streams : List Stream := []
  homes : List (List Nat) := []
  placed : List (Nat × Placement) := []  -- tile key
  entriesDue : List Nat := []            -- tile keys whose region entries are still to be written (R290)
  blobsDue : List Nat := []              -- tile keys whose blobs are still to be delivered
  hd : Option Hdr := none
deriving DecidableEq, Repr

/-! ### Host interface -/

/-- A ring of a function (R327 to R330, Tables 11.2, 11.4, 11.5). -/
structure Ring where
  base : Word := 0
  cfg : Word := 0x0601000080000000#64
  wbAddr : Word := 0
  ptr : Nat := 0                         -- the engine's pointer: fetch pointer or producer pointer
  host : Nat := 0                        -- the host's pointer: tail of CMD, head of STS and TOK
  pslot : Nat := 0xFFFFFFFF
  pcnt : Nat := 0
  drops : Nat := 0
  seq : Nat := 0
  since : Nat := 0                       -- completions not yet signalled
  firstAt : Nat := 0                     -- tick of the first completion not yet signalled
deriving DecidableEq, Repr

/-- A status reply (Table 11.10). -/
structure Reply where
  tag : Nat
  status : Nat
  detail : Nat
  tick : Nat
deriving DecidableEq, Repr

/-- A PCIe function's registers and queues (Table 11.2). -/
structure FnState where
  rings : AMap Ring := []
  msix : AMap (BitVec 128) := []
  pba : Nat := 0
  windows : AMap (BitVec 128) := []
  dw : AMap Byte := []
  dwBusy : Bool := false
  dwCount : Nat := 0
  dwDrops : Nat := 0
  dwBefore : Nat := 0                    -- CMD units published before the launch and not fetched yet (R337)
  dwWordBad : Bool := false              -- what the parity of the launched packet shows (R332)
  dwHeaderBad : Bool := false
  status : List Reply := []
  waitStatus : List Reply := []          -- replies that wait for room in the status FIFO
  opened : Nat := 0                      -- commands without their final reply
deriving DecidableEq, Repr

/-- A host port (R322 to R325, R394). -/
structure HostPort where
  up : Bool := true
  vfEnable : Bool := false
  rate : Nat := 6
  width : Nat := 16
  corr : Nat := 0
  uncorr : Nat := 0
  enable : Bool := true
  waiting : List (Fn × Nat × List Byte) := []   -- DMA writes held while the link is down (R325)
deriving DecidableEq, Repr

/-! ### Zarog, pace and pairs -/

/-- Zarog port states (Table 12.4). -/
inductive ZState where
  | disabled | detect | train | align | credit | up | backoff | parked
deriving DecidableEq, Repr

/-- What a packet carries whose payload layout is internal to the engines (R356), or that continues one: the parts of spans announce
themselves (R365), two-phase actions (R372), pace (R371), the messages of a pair by partition, kind and value (R379 to R383), a step's
replication (R381), and what the engines of a span exchange in a step (R366). `bytes`: the payload itself. Kinds of pair message: 0 ready,
1 digest, 4 a lost KV slot asked of the twin, 5 acknowledgement, 6 handover, 7 Safe Hold or a deck latched off. -/
inductive ZBody where
  | bytes
  | announce (a : SpanPart)
  | epoch (part id phase : Nat)
  | prepare (m : Prepare)
  | pace (master hops : Nat)
  | heartbeat
  | pair (part kind value : Nat)
  | replicate (part : Nat) (r : Replication)
  | batch (part : Nat) (table : List Byte) (dirs : List (Loc × List Byte))
  | handoff (part rank : Nat) (data : List Byte)
  | records (part rank : Nat) (data : List Byte)
  | paths (part : Nat) (l : List (Nat × Nat × List Nat))
deriving DecidableEq, Repr

/-- A packet at the output of a port: the partition whose step it belongs to, whether the engine originates it, and otherwise the port it
arrived on (R357, R360, R364). -/
structure ZWait where
  p : ZPacket
  b : ZBody := .bytes
  part : Option Nat := none
  via : Option Nat := none
deriving DecidableEq, Repr

/-- A packet sent and not acknowledged: its flits and the CWSEQ of its last codeword (R355, R360). -/
structure ZFlight where
  w : ZWait
  flits : Nat
  last : Nat
deriving DecidableEq, Repr

/-- A Zarog port (R354 to R361). -/
structure ZPort where
  state : ZState := .disabled
  pnode : Nat := 0xFFF
  pport : Nat := 0
  rtt : Nat := 0
  uncorr : Nat := 0
  corrRaw : Nat := 0                     -- corrected codewords; CORR is this in thousands
  replays : Nat := 0
  reason : Nat := 0
  attempts : Nat := 0
  cls : Nat := 0
  powered : Bool := true
  enable : Bool := true
  since : Nat := 0                       -- tick at which the state was entered
  rxSeq : Nat := 0                       -- next CWSEQ expected
  nak : Option Nat := none               -- CWSEQ the last NAK named, until it has been replayed
  acked : Nat := 0                       -- last CWSEQ the partner acknowledged
  replayTicks : List Nat := []           -- ticks of the last replays
  credits : AMap Nat := []
  stopMask : Nat := 0
  discards : Nat := 0                    -- discarded flits and packets (R360, R363)
  queue : List ZWait := []               -- packets that wait at the output, oldest first (R357, R364)
  rr : Nat := 5                          -- channel of 3 to 5 served last (R357)
  txPos : Nat := 0                       -- flit position after the last one sent, from the tick the port came UP (R353, R354)
  inFlight : List ZFlight := []          -- packets sent that the partner has not acknowledged, oldest first (R355, R360)
  owed : AMap Nat := []                  -- flits of each VC taken from the receive buffer since the last LINK flit (R357)
  rxSince : Nat := 0                     -- codewords accepted since the last LINK flit (R355)
  nextPace : Nat := 0                    -- tick of the next PACE exchange (R371)
  delayOut : Nat := 0                    -- link delays in ns of the last exchange (R371)
  delayIn : Nat := 0
deriving DecidableEq, Repr

/-- The pace unit (R368 to R371). -/
structure Pace where
  src : Nat := 4
  port : Nat := 0
  state : Nat := 2                       -- 0 locked, 1 acquiring, 2 holdover
  holdSince : Nat := 0
  steer : Int := 0                       -- ns per tick
  master : Nat := 0xFFF
  hops : Nat := 0
  lastEdge : Nat := 0
  lastSync : Nat := 0
deriving DecidableEq, Repr

/-- The pair (R377 to R383). mode: 0 single, 1 mirror, 2 standby. -/
structure Pair where
  mode : Nat := 0
  mask : Nat := 0
  primary : Bool := false
  partner : Word := 0
  lastBeat : Nat := 0
  nextBeat : Nat := 0
  pendingCfg : Option (Hdr × Nat) := none
  handover : Bool := false
  alone : Bool := false                  -- a mirror primary that goes on alone (R383)
deriving DecidableEq, Repr

/-! ### Supervisor, power and monitors -/

/-- A hold-up cartridge (R432). -/
structure Cartridge where
  present : Bool := true
  charged : Bool := true
  charging : Bool := false
  coulomb : Nat := 100
  voltage : Nat := 100
  joules : Nat := 60
  eol : Bool := false
deriving DecidableEq, Repr

/-- A 48 V feed (R421, R482); cv is its voltage in units of 10 mV, amps its current in units of 0.1 A. -/
structure Feed where
  cv : Nat := 4800
  amps : Nat := 0
  lost : Bool := false
  mated : Bool := true
deriving DecidableEq, Repr

/-- Throttle state of a clock domain (R439, R446). -/
structure Domain where
  thermal : Nat := 0
  cool : Nat := 0                        -- consecutive decisions below 90 degC
  t8 : Int := 0                          -- 1/16 degC
  crack : Bool := false
  ms : Nat := 0                          -- 1 ms decisions at a level above 0 since power-up
deriving DecidableEq, Repr

/-- Power states (R448). -/
inductive PwrState where
  | off | standby | ready
deriving DecidableEq, Repr

/-- The power sequence (R449 to R452): `stage` is the last stage completed and not undone, 0 to 8; `up` while stages run,
`down` while they are undone, from tick `since` on; `goal` is the state the sequence goes to. -/
structure Power where
  state : PwrState := .ready
  target : PwrState := .ready            -- recorded in the supervisor's NV
  stage : Nat := 8
  up : Bool := false
  down : Bool := false
  goal : PwrState := .ready
  since : Nat := 0
  hds : List Hdr := []                   -- PWR_STATE commands whose final reply is still to come
deriving DecidableEq, Repr

/-- The supervisor (R385 to R394, R418, R430, R441, R443, R444, R490). -/
structure Supervisor where
  chair : List Chair := [.deck 0, .deck 0, .deck 0]
  voteFails : List (Nat × Nat) := []     -- copy, tick
  safeHold : Bool := false
  journal : List LedgerEntry := []       -- oldest first, at most 65,536
  journalNext : Nat := 0
  bucket : Nat := 64
  bucketAt : Nat := 0                    -- first tick at which the journal's bucket gains a write again (R418)
  keys : AMap (List Byte) := []
  imprintEn : Bool := false
  pwrOn : Bool := false
  imprintRun : Nat := 0                  -- consecutive samples of imprintEn that differ from the state taken
  pwrRun : Nat := 0
  pwrSince : Nat := 0                    -- tick at which the PWR_ON state was taken
  pwrUsed : Bool := false                -- this closure has counted as a request (R491)
  nvEnable : Bool := false
  hostCap : Nat := 48000                 -- last cap copied from a PWR_CAP packet (R393)
  capLevel : Nat := 0
  capLow : Nat := 0
  inputW : Nat := 0
  flow : Nat := 800
  inlet : Int := 320
  outlet : Int := 320
  flowLow : Option Nat := none           -- tick at which low flow began
  warm : Option Nat := none              -- tick at which the inlet passed 40 degC
  flowResp : Bool := false
  leak : Nat := 0                        -- sensors that read wet
  leakLatch : Bool := false
  thermLatch : Bool := false
  bothAbsent : Option Nat := none        -- tick from which both feeds have been absent; an absence of 5 s stays recorded until power-up uses it
  startsHeld : Bool := false             -- no new steps: power above the cap at level 9
deriving DecidableEq, Repr

/-- A monitor (R474 to R479). -/
structure Monitor where
  lo : Int := 0x7FFFFFFFFFFFFFFF
  hi : Int := -0x8000000000000000
  count : Nat := 0
  bins : AMap Nat := []
  cleared : Nat := 0
deriving DecidableEq, Repr

/-- What a commit has written to NV (R431, R433, R454, R461, R462). -/
structure Commit where
  reqs : AMap Request := []
  parts : AMap Part := []
  tenants : AMap Tenant := []
  tick : Nat := 0
deriving DecidableEq, Repr

/-- A snapshot or restore that has been scheduled or is under way (R463 to R467). -/
structure Snap where
  hd : Hdr
  mask : Nat
  addr : Nat
  bytes : Nat
  tick : Nat
  restore : Bool
  data : List Byte := []
  size : Nat := 0
  capturing : Bool := false
  act : Option Act := none               -- its commit with the twins (R463)
deriving DecidableEq, Repr

/-- What the engine keeps of a snapshot it has captured beside what the region holds (R468): its engine ID and tick, and of each captured
partition its requests' newest accepted tokens and TAGs, in the order of section 0x03. -/
structure Captured where
  engineId : Word
  tick : Nat
  reqs : List (Nat × List (Option Nat × Nat))
deriving DecidableEq, Repr

/-- A reset that waits to take effect (R456): scope 0 engine, 1 deck. -/
structure PendingReset where
  scope : Nat
  deck : Nat
  due : Nat
  stage : Nat := 0                       -- last stage completed once it has taken effect, from 3 on
deriving DecidableEq, Repr

/-- A dependency signal on its way (R269, R272). -/
structure Signal where
  part : Nat
  dst : Loc
  graph : Nat
  node : Nat
  stag : Nat
deriving DecidableEq, Repr

/-- A recovery chain's passing page (R403). -/
structure Chain where
  img : Nat
  slice : Nat
  page : Nat
  member : Nat
  left : List Nat
  acc : List Byte
  dst : Loc
deriving DecidableEq, Repr

/-- What the engine sends out: DMA writes, messages, link packets, contacts. A record kept by the model (log entry 4). -/
inductive Sent where
  | link (port : Nat) (f : LinkFlit) (nak : Option Nat)
  | replay (port cwseq : Nat)
  | dma (fn : Fn) (addr : Nat) (bytes : List Byte)
  | poisoned (fn : Fn) (addr : Nat) (bytes : List Byte)
  | msix (fn : Fn) (vector : Nat)
  | zarog (port : Nat) (p : ZPacket) (b : ZBody)
  | read (value : Nat)
  | refused48 (b : Bool)
deriving DecidableEq, Repr

/-- Everything of the engine but PACE_NOW and the queue of commands. -/
structure Engine where
  grade : Nat := 96                      -- exposed fields, fixed at manufacture (R5, Table 0.1)
  tiles : AMap Tile := []                -- key field * 720 + site
  fields : AMap Field := []
  decks : AMap Deck := []
  parts : AMap Part := []
  tenants : AMap Tenant := []
  reqs : AMap Request := []
  images : AMap Image := []
  session : Session := {}
  repairs : List Repair := []
  graphs : AMap Graph := []
  fns : AMap FnState := []               -- key port for a PF, 8 + tenant for a VF
  vfAssign : AMap Word := []             -- unlisted t: ASSIGNED, PORT t div 32
  ports : AMap HostPort := []
  zports : AMap ZPort := []
  engineId : Word := 0xFFFFFFFFFFFFFFFF#64
  zroute : AMap Nat := []
  xstopDue : List (Nat × Nat × Nat) := []  -- field, cluster, found: express stops to disable at the next boundary (R500)
  zdrops : Nat := 0                      -- packets of its own discarded for want of a route or a port (R363)
  heard : List SpanPart := []            -- announced parts of images on other engines (R365)
  pace : Pace := {}
  pair : Pair := {}
  sup : Supervisor := {}
  feeds : AMap Feed := []                -- 0 feed A, 1 feed B
  carts : AMap Cartridge := []           -- 0 cartridge A, 1 cartridge B
  domains : AMap Domain := []
  power : Power := {}
  monitors : AMap Monitor := []
  commit : Commit := {}
  snaps : List Snap := []
  captured : List Captured := []         -- newest first
  resets : List PendingReset := []
  flight : List Packet := []             -- packets on the fabric, oldest first
  signals : List Signal := []
  chains : List Chain := []
  remaps : List (Hdr × Loc) := []        -- DARN_REMAP commands whose site is not RETIRED yet (R406)
  siteResets : List (Hdr × Loc) := []    -- tile resets that apply as a preventive cover (R459)
  order : Nat := 0                       -- sequence number of the next place in intake order (R344)
  acts : Nat := 256                      -- number of the next two-phase action that is no mode epoch
  freeCtr : Nat := 0
  out : List Sent := []                  -- newest first
deriving DecidableEq, Repr

/-- The state of the machine: PACE_NOW (R18, R28), the engine, and the commands that wait, first in first out. -/
structure State where
  now : Nat := 0
  eng : Engine := {}
  pending : List Instr := []
deriving DecidableEq, Repr

/-- Why the machine stops. -/
inductive Fault where
  /-- Raised by a command whose operand names a unit the engine does not have: a field above 95, a site above 719, a
  thread above 63, a port, a deck, a partition or a tenant outside Table 0.4. Safe: the specification gives no such unit. -/
  | noSuchUnit
deriving DecidableEq, Repr

/-- Why a command has no meaning. -/
inductive Refusal where
  /-- Raised by an arm of `exec` whose command has no meaning yet. Safe. -/
  | notModelled (mnemonic : String)
deriving DecidableEq, Repr

/-- The engine in Ready after manufacture and an engine reset (R449, R454 to R456, R495; log entry 1). -/
def State.reset : State := {}

end Sys2Proof.Machine
end

