-- ==== Sys2Proof/Machine/Assoc.lean ====
section
/-!
DEFINITION. Sparse tables: lists of (key, value) pairs with strictly rising keys in which no entry equals what an
unlisted key reads as, so that equal tables are equal lists. `d k` is what an unlisted key k reads as.
-/
namespace Sys2Proof.Machine

/-- The value at key `k`. -/
def mget {α : Type} (d : Nat → α) (k : Nat) : AMap α → α
  | [] => d k
  | (j, w) :: r => if j = k then w else mget d k r

/-- A table without key `k`, with the entry (k, v) put before the first key above k. -/
def minsert {α : Type} (k : Nat) (v : α) : AMap α → AMap α
  | [] => [(k, v)]
  | (j, w) :: r => if j < k then (j, w) :: minsert k v r else (k, v) :: (j, w) :: r

/-- The table without key `k`. -/
def mdel {α : Type} (k : Nat) (m : AMap α) : AMap α := m.filter (fun x => x.1 != k)

/-- The table with `v` at key `k`; a value that an unlisted key reads as is not listed. -/
def mset {α : Type} [DecidableEq α] (d : Nat → α) (k : Nat) (v : α) (m : AMap α) : AMap α :=
  if v = d k then mdel k m else minsert k v (mdel k m)

/-- The table with `f` applied at key `k`. -/
def mmod {α : Type} [DecidableEq α] (d : Nat → α) (k : Nat) (f : α → α) (m : AMap α) : AMap α :=
  mset d k (f (mget d k m)) m

/-- The table with the keys that satisfy `p` back at what an unlisted key reads as. -/
def mdrop {α : Type} (p : Nat → Bool) (m : AMap α) : AMap α :=
  m.filter (fun x => !p x.1)

/-- The canonical form: keys rise strictly from above `lo`, and no entry is what an unlisted key reads as. -/
def mwfFrom {α : Type} [DecidableEq α] (d : Nat → α) : Nat → AMap α → Bool
  | _, [] => true
  | lo, (j, w) :: r => decide (lo ≤ j) && decide (w ≠ d j) && mwfFrom d (j + 1) r

/-- The canonical form of a table. -/
def mwf {α : Type} [DecidableEq α] (d : Nat → α) (m : AMap α) : Bool := mwfFrom d 0 m

/-! ### Byte memories: an unlisted address reads as zero (R449: every store is zero-filled at self-test) -/

/-- What an unlisted address of a byte memory reads as. -/
def zeroByte (_ : Nat) : Byte := 0

/-- The canonical form of a byte memory. -/
def Memory.wf (m : Memory) : Bool := mwf zeroByte m

/-- One byte. -/
def readByte (m : Memory) (a : Nat) : Byte := mget zeroByte a m

/-- Write one byte. -/
def writeByte (m : Memory) (a : Nat) (b : Byte) : Memory := mset zeroByte a b m

/-- `n` bytes from address `a`, lowest address first. -/
def readBytes (m : Memory) (a : Nat) : Nat → List Byte
  | 0 => []
  | n + 1 => readByte m a :: readBytes m (a + 1) n

/-- Write bytes from address `a` upward. -/
def writeBytes (m : Memory) (a : Nat) : List Byte → Memory
  | [] => m
  | b :: r => writeBytes (writeByte m a b) (a + 1) r

/-- Zero the `n` bytes from `a` (zero-fill, R165): their entries leave the list. -/
def zeroRange (m : Memory) (a n : Nat) : Memory :=
  mdrop (fun k => decide (a ≤ k) && decide (k < a + n)) m

/-- Bytes as a little-endian number (R13). -/
def leNat : List Byte → Nat
  | [] => 0
  | b :: r => b.toNat + 256 * leNat r

/-- The low `n` bytes of a number, lowest first (R13). -/
def natBytes (v : Nat) : Nat → List Byte
  | 0 => []
  | n + 1 => BitVec.ofNat 8 v :: natBytes (v / 256) n

/-- An `n`-byte little-endian number at address `a`. -/
def readNat (m : Memory) (a n : Nat) : Nat := leNat (readBytes m a n)

/-- Store the low `n` bytes of `v` at address `a`. -/
def writeNat (m : Memory) (a v n : Nat) : Memory := writeBytes m a (natBytes v n)

/-! ### Fields of numbers -/

/-- Bits [hi:lo] of a number (R13). -/
def fld (v hi lo : Nat) : Nat := (v >>> lo) % 2 ^ (hi + 1 - lo)

/-- Bit `i` of a number. -/
def bitAt (v i : Nat) : Bool := v.testBit i

/-- A number with bits [hi:lo] replaced. -/
def setFld (v hi lo x : Nat) : Nat :=
  v - (fld v hi lo <<< lo) + ((x % 2 ^ (hi + 1 - lo)) <<< lo)

/-- A record from its fields, given from the highest bit down as the register tables list them (R14):
(width, value) pairs. -/
def packHigh : List (Nat × Nat) → Nat → Nat
  | [], acc => acc
  | (w, v) :: r, acc => packHigh r (acc * 2 ^ w + v % 2 ^ w)

/-- A record from its fields, highest first. -/
def pack (l : List (Nat × Nat)) : Nat := packHigh l 0

/-- A Bool as a number. -/
def bnat (b : Bool) : Nat := if b then 1 else 0

/-- A signed number of `w` bits from its bits. -/
def toSigned (w v : Nat) : Int := if v % 2 ^ w < 2 ^ (w - 1) then (v % 2 ^ w : Nat) else (v % 2 ^ w : Nat) - (2 ^ w : Nat)

/-- The `w` bits of a signed number. -/
def ofSigned (w : Nat) (v : Int) : Nat := (v % (2 ^ w : Nat)).toNat

/-- Addition that stops at `top` (saturating counters). -/
def satAdd (top a b : Nat) : Nat := min top (a + b)

/-- The list with element `i` replaced by `f` of it. -/
def modAt {α : Type} (f : α → α) : Nat → List α → List α
  | _, [] => []
  | 0, x :: r => f x :: r
  | i + 1, x :: r => x :: modAt f i r

/-- The set bits of a number below `n`, in rising order. -/
def setBits (v n : Nat) : List Nat := (List.range n).filter (fun i => v.testBit i)

/-- ceil(a / b). -/
def ceilDiv (a b : Nat) : Nat := (a + b - 1) / b

end Sys2Proof.Machine
end

