-- ==== Sys2Proof/Machine/Encoding.lean ====
section
/-!
DEFINITION. The encoding of the tile instructions (R117, R118, R150; Tables 4.1, 4.2, 4.4 to 4.12): GROUP and OP of each row, the
64-bit word of a row's fields, and the command that a word spells.
-/
namespace Sys2Proof.Machine

/-- A row of an instruction table: GROUP, OP, and the command of a hart with the word's fields. -/
abbrev OpLine := Nat × Nat × (Hart → Opnd → Instr)

/-- Scalar ALU (Table 4.4). -/
def opsScalar : List OpLine :=
  [(0x0, 0x00, .add), (0x0, 0x01, .sub), (0x0, 0x02, .and), (0x0, 0x03, .or), (0x0, 0x04, .xor), (0x0, 0x05, .sll),
    (0x0, 0x06, .srl), (0x0, 0x07, .sra), (0x0, 0x08, .slt), (0x0, 0x09, .sltu), (0x0, 0x0A, .min), (0x0, 0x0B, .max),
    (0x0, 0x0C, .minu), (0x0, 0x0D, .maxu), (0x0, 0x10, .mul), (0x0, 0x11, .mulh), (0x0, 0x12, .mulhu), (0x0, 0x14, .div),
    (0x0, 0x15, .divu), (0x0, 0x16, .rem), (0x0, 0x17, .remu), (0x0, 0x18, .clz), (0x0, 0x19, .ctz), (0x0, 0x1A, .popc),
    (0x0, 0x1B, .lih)]

/-- Scalar and vector scratchpad access (Table 4.5). -/
def opsAccess : List OpLine :=
  [(0x1, 0x00, .ldb), (0x1, 0x01, .ldh), (0x1, 0x02, .ldw), (0x1, 0x03, .ldd), (0x1, 0x04, .ldbu), (0x1, 0x05, .ldhu),
    (0x1, 0x06, .ldwu), (0x1, 0x08, .stb), (0x1, 0x09, .sth), (0x1, 0x0A, .stw), (0x1, 0x0B, .std), (0x1, 0x10, .amoadd),
    (0x1, 0x11, .amoswap), (0x1, 0x12, .cas), (0x1, 0x20, .vldr), (0x1, 0x21, .vldc), (0x1, 0x22, .vlds),
    (0x1, 0x28, .vstr), (0x1, 0x29, .vstc), (0x1, 0x2A, .vsts), (0x1, 0x30, .vunpk)]

/-- Control and synchronisation (Table 4.6). -/
def opsControl : List OpLine :=
  [(0x2, 0x00, .beq), (0x2, 0x01, .bne), (0x2, 0x02, .blt), (0x2, 0x03, .bge), (0x2, 0x04, .bltu), (0x2, 0x05, .bgeu),
    (0x2, 0x08, .jal), (0x2, 0x09, .jalr), (0x2, 0x10, .fence), (0x2, 0x11, .fenceI), (0x2, 0x12, .tbar),
    (0x2, 0x13, .waitc), (0x2, 0x18, .rdpace), (0x2, 0x19, .rdcnt), (0x2, 0x1F, .endThread)]

/-- Vector arithmetic (Table 4.8). -/
def opsVector : List OpLine :=
  [(0x3, 0x00, .vadd), (0x3, 0x01, .vsub), (0x3, 0x02, .vmul), (0x3, 0x03, .vfma), (0x3, 0x04, .vdiv),
    (0x3, 0x05, .vsqrt), (0x3, 0x06, .vmin), (0x3, 0x07, .vmax), (0x3, 0x08, .vneg), (0x3, 0x09, .vabs),
    (0x3, 0x0A, .vexp), (0x3, 0x0B, .vcmp), (0x3, 0x0C, .vsel), (0x3, 0x0D, .vcvt), (0x3, 0x0E, .vlog),
    (0x3, 0x10, .vbcast), (0x3, 0x11, .vext), (0x3, 0x12, .vmov), (0x3, 0x13, .vperm)]

/-- Long registers (Table 4.10). -/
def opsLong : List OpLine :=
  [(0x5, 0x00, .lplace), (0x5, 0x01, .lemitS), (0x5, 0x02, .lemitB), (0x5, 0x03, .ldivS), (0x5, 0x04, .ldivB),
    (0x5, 0x05, .lexp), (0x5, 0x08, .lclr), (0x5, 0x09, .lexpect), (0x5, 0x0A, .folds)]

/-- Matrix, attention, mover, slab ports, network and residue (R142, R143, Table 4.12, R145 to R149). -/
def opsUnits : List OpLine :=
  [(0x6, 0x00, .mma), (0x7, 0x00, .apass), (0x8, 0x00, .mfill), (0x8, 0x01, .mcopy), (0x8, 0x02, .mtrn),
    (0x9, 0x00, .nvrd), (0x9, 0x01, .drd), (0x9, 0x02, .dwr), (0xA, 0x00, .send), (0xA, 0x01, .recv), (0xB, 0x00, .rchk),
    (0xB, 0x01, .rget)]

/-- Every row of the instruction tables. -/
def opLines : List OpLine := opsScalar ++ opsAccess ++ opsControl ++ opsVector ++ opsLong ++ opsUnits

/-- Has an operation of GROUP 0x0 an immediate form, OP with bit 7 (R124)? -/
def hasImmForm (group op : Nat) : Bool := group == 0 && decide (op ≤ 0x17)

/-- The row that GROUP and OP of a word name (Table 4.1), bit 7 of OP being the immediate form (R124). -/
def lineOf (gop : Nat) : Option OpLine :=
  opLines.find? (fun x => x.1 == gop / 256 && (x.2.1 == gop % 256 || (hasImmForm x.1 x.2.1 && x.2.1 + 0x80 == gop % 256)))

/-- GROUP and OP of a word: those of the row, OP with bit 7 in its immediate form, or those that the word itself has. -/
def gopOf (group op : Nat) (w : Opnd) : Nat :=
  match w.other with
  | some g => g.toNat
  | none => group * 256 + op + if w.alt then 0x80 else 0

/-- The 64-bit instruction word of a group, an operation and the fields below them (Table 4.1). -/
def wordOf (group op : Nat) (w : Opnd) : Word :=
  BitVec.ofNat 64 (pack [(12, gopOf group op w), (5, w.d.toNat), (5, w.a.toNat), (5, w.b.toNat), (5, w.c.toNat), (32, w.imm.toNat)])

/-- Does a word's own GROUP and OP, where it has them, name a row? -/
def spellsRow (w : Opnd) : Bool := w.other.any (fun g => (lineOf g.toNat).isSome)

/-- The fields of a word below GROUP and OP (Table 4.1). -/
def fieldsOf (v : Word) : Opnd :=
  { d := v.extractLsb' 47 5, a := v.extractLsb' 42 5, b := v.extractLsb' 37 5, c := v.extractLsb' 32 5, imm := v.extractLsb' 0 32 }

/-- The command that a hart issues when it fetches a word (R117): its row with the fields, or, where no table lists GROUP and OP, an
illegal encoding (R118), held as the word of an ADD with a GROUP and OP of its own. -/
def instrOf (h : Hart) (v : Word) : Instr :=
  let gop := v.extractLsb' 52 12
  match lineOf gop.toNat with
  | some x => x.2.2 h { fieldsOf v with alt := x.2.1 != gop.toNat % 256 }
  | none => .add h { fieldsOf v with other := some gop }

end Sys2Proof.Machine
end

