-- ==== Sys2Proof/Machine/Numerics.lean ====
section
/-!
DEFINITION. Exact arithmetic (spec 02): round to nearest even, BF16 and FP32, the exp and reciprocal kernels, block
formats, residues, long registers, emit and divide-emit. An FP32 or BF16 bit pattern is a `Nat`; its finite value is an
`Int` in units of 2^-149. Long-register values are `Int`s in units of 2^-160 (R58).
-/
namespace Sys2Proof.Machine

/-! ### Rounding (R48) -/

/-- RNE(num / den), den > 0 (R48). -/
def rne (num : Int) (den : Nat) : Int :=
  let q := num / (den : Int)
  let r := 2 * (num % (den : Int))
  if r < (den : Int) then q
  else if r > (den : Int) then q + 1
  else if q % 2 = 0 then q else q + 1

/-- RNE of a non-negative quotient. -/
def rneNat (num den : Nat) : Nat := (rne num den).toNat

/-- `v` clamped to [lo, hi]. -/
def clampInt (lo hi v : Int) : Int := if v < lo then lo else if hi < v then hi else v

/-- floor(sqrt x), bit by bit from bit `n - 1` down. -/
def isqrtFrom (x : Nat) : Nat → Nat → Nat
  | 0, r => r
  | n + 1, r => if (r + 2 ^ n) * (r + 2 ^ n) ≤ x then isqrtFrom x n (r + 2 ^ n) else isqrtFrom x n r

/-- floor(sqrt x). -/
def isqrt (x : Nat) : Nat := isqrtFrom x (x.log2 / 2 + 1) 0

/-! ### BF16 and FP32 (R55): `p` significand bits, 24 for FP32 and 8 for BF16 -/

/-- The FP32 pattern that holds a BF16 pattern (R55). -/
def bfTo32 (x : Nat) : Nat := x * 65536

/-- Sign bit of an FP32 pattern. -/
def fpNeg (x : Nat) : Bool := x.testBit 31

/-- Exponent field of an FP32 pattern. -/
def fpExp (x : Nat) : Nat := fld x 30 23

/-- Fraction field of an FP32 pattern. -/
def fpFrac (x : Nat) : Nat := fld x 22 0

/-- NaN. -/
def fpNan (x : Nat) : Bool := fpExp x == 255 && fpFrac x != 0

/-- Plus or minus infinity. -/
def fpInf (x : Nat) : Bool := fpExp x == 255 && fpFrac x == 0

/-- Finite. -/
def fpFin (x : Nat) : Bool := fpExp x != 255

/-- Plus or minus zero. -/
def fpZero (x : Nat) : Bool := fld x 30 0 == 0

/-- Magnitude of a finite pattern in units of 2^-149. -/
def fpMag (x : Nat) : Nat :=
  if fpExp x = 0 then fpFrac x else (2 ^ 23 + fpFrac x) * 2 ^ (fpExp x - 1)

/-- Value of a finite pattern in units of 2^-149. -/
def fpVal (x : Nat) : Int := if fpNeg x then - (fpMag x : Int) else fpMag x

/-- The sign bit in a format of `p` significand bits. -/
def fpSign (p : Nat) (neg : Bool) : Nat := if neg then 2 ^ (p + 7) else 0

/-- Infinity with a sign. -/
def fpInfBits (p : Nat) (neg : Bool) : Nat := fpSign p neg + 255 * 2 ^ (p - 1)

/-- The canonical NaN: 0x7FC0_0000 or 0x7FC0 (R55). -/
def fpNanBits (p : Nat) : Nat := 255 * 2 ^ (p - 1) + 2 ^ (p - 2)

/-- What a rounding to BF16 or FP32 gives: the pattern, and whether it saturated or vanished (R61). -/
structure Rounded where
  bits : Nat
  sat : Bool := false
  van : Bool := false
deriving DecidableEq, Repr

/-- roundTiesToEven of num/den in units of 2^-149, with the sign `neg` (R55, R61). A value above the largest finite number that rounds
back to it is not saturated (DEDUCED, log 134). -/
def fpRound (p : Nat) (neg : Bool) (num den : Nat) : Rounded :=
  let ex := (num / den).log2 - 23
  let m := rneNat num (den * 2 ^ (ex + (24 - p)))
  let b := ex * 2 ^ (p - 1) + m
  if 255 * 2 ^ (p - 1) ≤ b then { bits := fpInfBits p neg, sat := true }
  else { bits := fpSign p neg + b, van := m == 0 && num != 0 }

/-- The same of a signed numerator; an exact zero takes the sign `zneg`. -/
def fpRoundInt (p : Nat) (zneg : Bool) (num : Int) (den : Nat) : Rounded :=
  if num = 0 then { bits := fpSign p zneg } else fpRound p (decide (num < 0)) num.natAbs den

/-- Addition of two patterns of FP32 range, rounded to `p` bits (R55). -/
def fpAdd (p a b : Nat) : Nat :=
  if fpNan a || fpNan b then fpNanBits p
  else if fpInf a && fpInf b && fpNeg a != fpNeg b then fpNanBits p
  else if fpInf a then fpInfBits p (fpNeg a)
  else if fpInf b then fpInfBits p (fpNeg b)
  else (fpRoundInt p (fpNeg a && fpNeg b) (fpVal a + fpVal b) 1).bits

/-- Inverts the sign of an FP32 pattern. -/
def fpFlip (x : Nat) : Nat := if fpNeg x then x - 2 ^ 31 else x + 2 ^ 31

/-- Subtraction. A NaN stays a NaN under the sign change. -/
def fpSub (p a b : Nat) : Nat := fpAdd p a (fpFlip b)

/-- Multiplication. -/
def fpMul (p a b : Nat) : Nat :=
  let neg := fpNeg a != fpNeg b
  if fpNan a || fpNan b then fpNanBits p
  else if (fpInf a && fpZero b) || (fpZero a && fpInf b) then fpNanBits p
  else if fpInf a || fpInf b then fpInfBits p neg
  else (fpRoundInt p neg (fpVal a * fpVal b) (2 ^ 149)).bits

/-- Fused multiply-add a * b + c with one rounding. -/
def fpFma (p a b c : Nat) : Nat :=
  let neg := fpNeg a != fpNeg b
  if fpNan a || fpNan b || fpNan c then fpNanBits p
  else if (fpInf a && fpZero b) || (fpZero a && fpInf b) then fpNanBits p
  else if fpInf a || fpInf b then
    (if fpInf c && fpNeg c != neg then fpNanBits p else fpInfBits p neg)
  else if fpInf c then fpInfBits p (fpNeg c)
  else (fpRoundInt p (neg && fpNeg c) (fpVal a * fpVal b + fpVal c * 2 ^ 149) (2 ^ 149)).bits

/-- Division. -/
def fpDiv (p a b : Nat) : Nat :=
  let neg := fpNeg a != fpNeg b
  if fpNan a || fpNan b then fpNanBits p
  else if (fpInf a && fpInf b) || (fpZero a && fpZero b) then fpNanBits p
  else if fpInf a || fpZero b then fpInfBits p neg
  else if fpInf b || fpZero a then fpSign p neg
  else (fpRound p neg (fpMag a * 2 ^ 149) (fpMag b)).bits

/-- Square root: the exact root of |a| * 2^149 in units of 2^-149, one sticky bit below it. -/
def fpSqrt (p a : Nat) : Nat :=
  if fpNan a then fpNanBits p
  else if fpZero a then fpSign p (fpNeg a)
  else if fpNeg a then fpNanBits p
  else if fpInf a then fpInfBits p false
  else
    let x := fpMag a * 2 ^ 149
    let r := isqrt x
    (fpRound p false (2 * r + bnat (r * r != x)) 2).bits

/-- Order of two non-NaN patterns as numbers: is a < b? Zeros of either sign are equal. -/
def fpLt (a b : Nat) : Bool :=
  let k (x : Nat) : Int := if fpNeg x then - (fld x 30 0 : Int) else fld x 30 0
  decide (k a < k b)

/-- Equality of two non-NaN patterns as numbers. -/
def fpEq (a b : Nat) : Bool := !fpLt a b && !fpLt b a

/-- Conversion of an FP32 pattern to `p` bits (R55). -/
def fpConv (p x : Nat) : Nat :=
  if fpNan x then fpNanBits p
  else if fpInf x then fpInfBits p (fpNeg x)
  else (fpRoundInt p (fpNeg x) (fpVal x) 1).bits

/-! ### The exp kernel (R72, R73) -/

/-- RNE(log2(e) * 2^30) (R72). -/
def log2eQ30 : Nat := 0x5C551D95

/-- C[1..32] = RNE(2^(2^-k) * 2^62) (R72). -/
def expC : List Nat :=
  [0x5A827999FCEF3242, 0x4C1BF828C6DC54B8, 0x45CAE0F1F545EB73, 0x42D561B3E6243D8A,
   0x4166C34C5615D0EC, 0x40B268F9DE0183BA, 0x4058F6A7ECCCD5B6, 0x402C6BE96AF2FB58,
   0x4016321B687027A8, 0x400B18178BA33B14, 0x40058BCE410147E8, 0x4002C5D7BFF71DAF,
   0x400162E807EE7E5B, 0x4000B1730DF6A524, 0x400058B9497B8152, 0x40002C5C955DD701,
   0x4000162E46D6F26C, 0x40000B1722757B1B, 0x4000058B90FD3E0C, 0x400002C5C86F3F26,
   0x40000162E433C79B, 0x400000B17218EDD0, 0x40000058B90C3968, 0x4000002C5C860D54,
   0x400000162E4302D2, 0x4000000B17218073, 0x400000058B90BFFC, 0x40000002C5C85FEF,
   0x4000000162E42FF3, 0x40000000B17217F9, 0x4000000058B90BFC, 0x400000002C5C85FE]

/-- The loop of the exp kernel: the constants from k upward against the bits of F from 32 - k downward. -/
def expLoop (f : Nat) : List Nat → Nat → Nat
  | [], m => m
  | c :: r, m => expLoop f r (if f.testBit r.length then rneNat (m * c) (2 ^ 62) else m)

/-- exp_kernel(D) = (M, I): e^(D * 2^-24) is about M * 2^(I - 31) (R72). -/
def expKernel (d : Int) : Nat × Int :=
  let y := rne (d * log2eQ30) (2 ^ 22)
  let i := y / 2 ^ 32
  let f := (y - i * 2 ^ 32).toNat
  let m := rneNat (expLoop f expC (2 ^ 62)) (2 ^ 31)
  if m = 2 ^ 32 then (2 ^ 31, i + 1) else (m, i)

/-- Long-register value to exp input: RNE(x * 2^24), clamped (R73). -/
def expInput (lo hi n : Int) : Int := clampInt lo hi (rne n (2 ^ 136))

/-- The exp-input range of R72 and R73. -/
def expLim : Int := 2 ^ 36

/-- M * 2^(I - 31) rounded to `p` bits (R72). -/
def expRound (p : Nat) (mi : Nat × Int) : Rounded :=
  let sh := mi.2 + 118
  if 0 ≤ sh then fpRound p false (mi.1 * 2 ^ sh.toNat) 1 else fpRound p false mi.1 (2 ^ (-sh).toNat)

/-! ### Blocks (R49 to R54) and their residues (R67) -/

/-- Element i of an element field, two's complement of n bits; KW-1 reads -1 or +1 (R50, Table 2.2). -/
def blockElem (n : Nat) (field i : Nat) : Int :=
  if n = 1 then (if field.testBit i then 1 else -1) else toSigned n (field >>> (n * i))

/-- The 32 elements of a block of n-bit elements. -/
def blockElems (n field : Nat) : List Int := (List.range 32).map (blockElem n field)

/-- The element field of 32 values (R50). -/
def blockField (n : Nat) (vs : List Int) : Nat :=
  (vs.zipIdx.map (fun x => ofSigned n x.1 <<< (n * x.2))).foldl (· + ·) 0

/-- 64-bit words a block of n-bit elements occupies in operand form (R53). -/
def blockWords (n : Nat) : Nat := (n + 1) / 2

/-- Sum of (i + 1) * v_i. -/
def weighted (vs : List Int) : Int := (vs.zipIdx.map (fun x => ((x.2 : Int) + 1) * x.1)).foldl (· + ·) 0

/-- Residue of a block with scale code s (R67). -/
def blockResidue (vs : List Int) (s : Nat) : Nat := ((weighted vs + s) % 255).toNat

/-- Scale exponent of an S12 code (Table 2.3). -/
def scaleExp (s : Nat) : Nat := fld s 11 5

/-- Scale fraction of an S12 code. -/
def scaleFrac (s : Nat) : Nat := fld s 4 0

/-- A code of a zero block (Table 2.4). -/
def scaleZero (s : Nat) : Bool := scaleExp s == 0

/-- A code of a poisoned block (Table 2.4). -/
def scalePoison (s : Nat) : Bool := scaleExp s == 127

/-- Residue of an integer, 0 to 254 (R70). -/
def res255 (n : Int) : Nat := (n % 255).toNat

/-- Sum of products of elements. -/
def dot (xs ys : List Int) : Int := (List.zipWith (· * ·) xs ys).foldl (· + ·) 0

/-! ### Long registers (R58 to R60, R70) -/

/-- The signed integer N of a register. -/
def LReg.n (r : LReg) : Int := r.value.toInt

/-- One exact add: an exact result outside the range of VALUE sets POISON (R60); a poisoned term sets POISON (R56, R59).
The bool says whether the add overflowed. VALUE then keeps the wrapped sum, which POISON hides (DESIGN CHOICE, log 22), and no
register counts the overflow (DESIGN CHOICE, log 128). -/
def LReg.add (r : LReg) (a : Add) : LReg × Bool :=
  let s := r.n + a.n
  let ov := decide (s < -(2 ^ 383)) || decide (2 ^ 383 ≤ s)
  ({ value := BitVec.ofInt 384 s, res := (r.res + a.res) % 255, poison := r.poison || a.poison || ov }, ov)

/-- Does RES agree with VALUE, as R65 and R71 compare them? A poisoned register is not compared. -/
def LReg.ok (r : LReg) : Bool := r.poison || r.res == res255 r.n

/-- The FP32 value of finite pattern `x` as a term in units of 2^-160 (R56). -/
def placeN (x : Nat) : Int := fpVal x * 2 ^ 11

/-- The add that places an FP32 pattern in register `reg` (R56, R70). -/
def placeAdd (reg x : Nat) : Add :=
  if fpFin x then { reg := reg, n := placeN x, res := res255 (placeN x) } else { reg := reg, n := 0, res := 0, poison := true }

/-- Scalar emit of num/den in units of 2^-160 (R61). -/
def emitScalar (p : Nat) (num : Int) (den : Nat) : Rounded := fpRoundInt p false num (den * 2 ^ 11)

/-- Outcomes of a block emit (R62). -/
inductive EmitOutcome where
  | poisoned | zero | vanished | normal | saturated
deriving DecidableEq, Repr

/-- An emitted block: element values, S12 code, outcome. -/
structure Block where
  elems : List Int
  code : Nat
  outcome : EmitOutcome := .normal
deriving DecidableEq, Repr

/-- The poisoned output block (R62). -/
def poisonBlock : Block := { elems := List.replicate 32 0, code := 0xFFF, outcome := .poisoned }

/-- Q * s of code (e, f) in units of 2^-160. -/
def emitLimit (q e f : Nat) : Nat := q * (32 + f) * 2 ^ (e + 92)

/-- The code R62 selects for the maximum magnitude m/den (units of 2^-160), or none where it saturates: the first e
whose largest fraction passes, then the first f that passes there. -/
def emitCode (q m den : Nat) : Option (Nat × Nat) :=
  match ((List.range 126).map (· + 1)).find? (fun e => m ≤ emitLimit q e 31 * den) with
  | none => none
  | some e => ((List.range 32).find? (fun f => m ≤ emitLimit q e f * den)).map (fun f => (e, f))

/-- emit_block of the values xs/den in units of 2^-160, none of them poisoned (R62). Q = 127 for KA-8, 7 for KA-4. -/
def emitBlock (q : Nat) (xs : List Int) (den : Nat) : Block :=
  let m := (xs.map Int.natAbs).foldl max 0
  if m = 0 then { elems := List.replicate 32 0, code := 0, outcome := .zero }
  else match emitCode q m den with
    | some (e, f) =>
      let v := xs.map (fun x => rne x (den * (32 + f) * 2 ^ (e + 92)))
      if v.all (· == 0) then { elems := List.replicate 32 0, code := 0, outcome := .vanished }
      else { elems := v, code := e * 32 + f }
    | none =>
      { elems := xs.map (fun x => clampInt (-(q : Int)) q (rne x (den * 63 * 2 ^ 218))), code := 0xFDF,
        outcome := .saturated }

/-- recip_kernel(B), B > 0 (R75). -/
def recipKernel (b : Nat) : Nat × Nat :=
  let h := b.log2
  let n := if 63 ≤ h then rneNat b (2 ^ (h - 63)) else b * 2 ^ (63 - h)
  if n = 2 ^ 64 then (rneNat (2 ^ 127) (2 ^ 63), h + 1) else (rneNat (2 ^ 127) n, h)

/-- The exact quotient of divide-emit as (numerator, denominator) in units of 2^-160: A * rcp * 2^(-64 - h) (R75). -/
def divideNum (a : Int) (rcp : Nat) : Int := a * rcp * 2 ^ 160

/-- Denominator of divide-emit. -/
def divideDen (h : Nat) : Nat := 2 ^ (64 + h)

/-! ### BF16 inputs of the matrix unit and the attention lane (R57) -/

/-- How R57 reads one BF16 element (given as an FP32 pattern): poison, flushed to 0 and counted, or exact. -/
inductive BfIn where
  | poison
  | flushed
  | exact (v : Int)      -- in units of 2^-93, exact because |x| is at least 2^-86
deriving DecidableEq, Repr

/-- R57's reading of one BF16 pattern. -/
def bfIn (x : Nat) : BfIn :=
  let y := bfTo32 x
  if !fpFin y then .poison
  else if 2 ^ 213 ≤ fpMag y then .poison
  else if fpMag y < 2 ^ 63 then .flushed
  else .exact (fpVal y / 2 ^ 56)

end Sys2Proof.Machine
end

