-- ==== Sys2Proof/Machine/Flags.lean ====
section
/-!
DEFINITION. Status words: the codes and ranks of exceptions (Tables 3.8, 3.9), event severities (Table 13.7), and the
registers the engine composes from its state (TILE_EXC, SP_BANK, SP_REGION fields, DARN entries).
-/
namespace Sys2Proof.Machine

/-- Code of a cause (Table 3.8). -/
def causeCode : Cause → Nat
  | .illegalOp => 0x01
  | .claimViolation => 0x02
  | .misaligned => 0x03
  | .foldUnexpected => 0x04
  | .waitTimeout => 0x08
  | .residue => 0x10
  | .sramUncorr => 0x11
  | .nvUncorr => 0x12
  | .dramUncorr => 0x13
  | .portFault => 0x14

/-- Class of a cause: 1 graph, 2 timing, 3 hardware (Tables 3.8, 3.9). -/
def causeClass (c : Cause) : Nat :=
  if causeCode c ≥ 0x10 then 3 else if causeCode c = 0x08 then 2 else 1

/-- R112: the exception held is the one of the highest class and, within a class, of the lowest code. -/
def outranks (c old : Cause) : Bool :=
  causeClass old < causeClass c || (causeClass old == causeClass c && causeCode c < causeCode old)

/-- TILE_EXC with one further exception of the step (R112). -/
def TileExc.record (x : TileExc) (c : Cause) (thread pc detail : Nat) : TileExc :=
  match x.cause with
  | none => { cause := some c, thread := thread, other := 0, pc := pc, detail := detail }
  | some old =>
    let other := satAdd 0xFF x.other 1
    if outranks c old then { cause := some c, thread := thread, other := other, pc := pc, detail := detail }
    else { x with other := other }

/-- TILE_EXC as a word (Table 3.9). -/
def TileExc.word (x : TileExc) : Nat :=
  match x.cause with
  | none => 0
  | some c => pack [(8, causeCode c), (6, x.thread), (2, causeClass c), (8, x.other), (1, 0), (21, x.pc), (18, x.detail)]

/-- CAUSE of TILE_EXC, 0 for none. -/
def TileExc.code (x : TileExc) : Nat := match x.cause with | none => 0 | some c => causeCode c

/-- SP_BANK[b] (Table 5.8). -/
def SpBank.word (b : SpBank) : Nat :=
  pack [(16, b.ce), (8, b.ue), (8, b.win), (1, bnat b.guarded), (1, bnat b.conv), (12, 0), (18, b.last)]

/-! ### SP_REGION (Table 5.4) -/

/-- VALID. -/
def regValid (v : Word) : Bool := bitAt v.toNat 45
/-- BASE in 4 KiB granules. -/
def regBase (v : Word) : Nat := fld v.toNat 63 55
/-- Size in 4 KiB granules. -/
def regSize (v : Word) : Nat := fld v.toNat 54 46 + 1
/-- CLASS = 1: W-class. -/
def regW (v : Word) : Bool := bitAt v.toNat 44
/-- KIND. -/
def regKind (v : Word) : Nat := fld v.toNat 43 42
/-- RETAIN. -/
def regRetain (v : Word) : Bool := bitAt v.toNat 41
/-- PART. -/
def regPart (v : Word) : Nat := fld v.toNat 40 36
/-- IMG. -/
def regImg (v : Word) : Nat := fld v.toNat 35 32
/-- Does the region hold granule g? -/
def regHas (v : Word) (g : Nat) : Bool := regValid v && decide (regBase v ≤ g) && decide (g < regBase v + regSize v)

/-- SP_REGION from its fields. -/
def regWord (base size : Nat) (w : Bool) (kind : Nat) (retain : Bool) (part img : Nat) : Word :=
  BitVec.ofNat 64 (pack [(9, base), (9, size - 1), (1, 1), (1, bnat w), (2, kind), (1, bnat retain), (5, part), (4, img), (32, 0)])

/-! ### Darn tables (Tables 9.7, 9.8) -/

/-- STATE code of a site (Table 9.8). -/
def siteCode : SiteState → Nat
  | .active => 0
  | .spare => 1
  | .covered => 2
  | .retired => 3
  | .dark => 4

/-- DARN_MAP of an unlisted v: VALID, SITE = v (R281 with no faulty site; log entry 9). -/
def darnMapReset (v : Nat) : BitVec 16 := BitVec.ofNat 16 (0x8000 + v)

/-- DARN_SITE of an unlisted s: ACTIVE for the sites in use, SPARE above (R281; log entry 9). -/
def darnSiteReset (s : Nat) : SiteState := if s < 696 then .active else .spare

/-! ### Ledger events -/

/-- SEV of an event code: 0 information, 1 warning, 2 error, 3 severe (Table 13.7). -/
def eventSev (code : Nat) : Nat :=
  if code ∈ [0x0103, 0x0109, 0x0207, 0x0305, 0x0306, 0x0307, 0x0308, 0x0401, 0x0403, 0x0404, 0x0506, 0x0507,
    0x0601, 0x0604, 0x0605, 0x0606, 0x0607, 0x060A] then 3
  else if code ∈ [0x0101, 0x0108, 0x010A, 0x0201, 0x0204, 0x0206, 0x0208, 0x0301, 0x0405, 0x0406, 0x0503, 0x0602, 0x0609] then 2
  else if code ∈ [0x0302, 0x0303, 0x0505, 0x0608] then 0
  else 1

/-- A ledger entry as 32 bytes (Table 13.4). -/
def LedgerEntry.word (x : LedgerEntry) : Nat :=
  pack [(64, x.tick), (32, x.seq), (16, x.code), (16, x.rep), (8, x.field), (10, x.site), (5, x.part), (1, bnat x.pvalid),
    (2, x.sev), (1, x.deck), (5, 0), (64, x.arg0), (32, x.arg1)]

end Sys2Proof.Machine
end

