-- ==== Sys2Proof/Machine/Ops.lean ====
section
/-!
DEFINITION. The named operations over the engine's state: the tables with what an unlisted key reads as, the units a
command may name, the virtual grid (R182, R280 to R282), scratchpad accesses with claims, filling bits and uncorrectable
words (R105, R119, R161 to R170), ledger events (R413 to R418), and taking a tile exception (R111, R112).
-/
namespace Sys2Proof.Machine

/-! ### Tables -/

/-- Key of a tile site. -/
def locKey (t : Loc) : Nat := t.field * 720 + t.site
/-- The site of a key. -/
def locOf (k : Nat) : Loc := { field := k / 720, site := k % 720 }
/-- Does the engine have this site (R17)? -/
def locOk (t : Loc) : Bool := decide (t.field < 96) && decide (t.site < 720)
/-- Does the engine have this hart (R84)? -/
def hartOk (h : Hart) : Bool := locOk h.loc && decide (h.thread < 64)

/-- Tile. -/
def Engine.tile (e : Engine) (t : Loc) : Tile := mget (fun _ => {}) (locKey t) e.tiles
/-- Engine with a tile changed. -/
def Engine.modTile (e : Engine) (t : Loc) (f : Tile → Tile) : Engine := { e with tiles := mmod (fun _ => {}) (locKey t) f e.tiles }
/-- Field. -/
def Engine.field (e : Engine) (i : Nat) : Field := mget (fun _ => {}) i e.fields
/-- Engine with a field changed. -/
def Engine.modField (e : Engine) (i : Nat) (f : Field → Field) : Engine := { e with fields := mmod (fun _ => {}) i f e.fields }
/-- Deck. -/
def Engine.deck (e : Engine) (d : Nat) : Deck := mget (fun _ => {}) d e.decks
/-- Engine with a deck changed. -/
def Engine.modDeck (e : Engine) (d : Nat) (f : Deck → Deck) : Engine := { e with decks := mmod (fun _ => {}) d f e.decks }
/-- Partition. -/
def Engine.part (e : Engine) (p : Nat) : Part := mget (fun _ => {}) p e.parts
/-- Engine with a partition changed. -/
def Engine.modPart (e : Engine) (p : Nat) (f : Part → Part) : Engine := { e with parts := mmod (fun _ => {}) p f e.parts }
/-- Tenant. -/
def Engine.tenant (e : Engine) (t : Nat) : Tenant := mget (fun _ => {}) t e.tenants
/-- Engine with a tenant changed. -/
def Engine.modTenant (e : Engine) (t : Nat) (f : Tenant → Tenant) : Engine := { e with tenants := mmod (fun _ => {}) t f e.tenants }
/-- Request-table entry. -/
def Engine.req (e : Engine) (i : Nat) : Request := mget (fun _ => {}) i e.reqs
/-- Engine with a request changed. -/
def Engine.modReq (e : Engine) (i : Nat) (f : Request → Request) : Engine := { e with reqs := mmod (fun _ => {}) i f e.reqs }
/-- Image-table entry. -/
def Engine.image (e : Engine) (i : Nat) : Image := mget (fun _ => {}) i e.images
/-- Engine with an image changed. -/
def Engine.modImage (e : Engine) (i : Nat) (f : Image → Image) : Engine := { e with images := mmod (fun _ => {}) i f e.images }
/-- Graph. -/
def Engine.graph (e : Engine) (g : Nat) : Graph := mget (fun _ => {}) g e.graphs
/-- Engine with a graph changed. -/
def Engine.modGraph (e : Engine) (g : Nat) (f : Graph → Graph) : Engine := { e with graphs := mmod (fun _ => {}) g f e.graphs }
/-- Zarog port. -/
def Engine.zport (e : Engine) (z : Nat) : ZPort := mget (fun _ => {}) z e.zports
/-- Engine with a Zarog port changed. -/
def Engine.modZport (e : Engine) (z : Nat) (f : ZPort → ZPort) : Engine := { e with zports := mmod (fun _ => {}) z f e.zports }
/-- Host port. -/
def Engine.hport (e : Engine) (k : Nat) : HostPort := mget (fun _ => {}) k e.ports
/-- Engine with a host port changed. -/
def Engine.modHport (e : Engine) (k : Nat) (f : HostPort → HostPort) : Engine := { e with ports := mmod (fun _ => {}) k f e.ports }
/-- Clock domain. -/
def Engine.domain (e : Engine) (d : Nat) : Domain := mget (fun _ => {}) d e.domains
/-- Engine with a clock domain changed. -/
def Engine.modDomain (e : Engine) (d : Nat) (f : Domain → Domain) : Engine := { e with domains := mmod (fun _ => {}) d f e.domains }
/-- Engine with the supervisor changed. -/
def Engine.modSup (e : Engine) (f : Supervisor → Supervisor) : Engine := { e with sup := f e.sup }
/-- Append to what the engine has sent. -/
def Engine.send (e : Engine) (x : Sent) : Engine := { e with out := x :: e.out }

/-- Thread of a tile. -/
def Tile.thread (ti : Tile) (k : Nat) : Thread := mget (fun _ => {}) k ti.threads
/-- Tile with a thread changed. -/
def Tile.modThread (ti : Tile) (k : Nat) (f : Thread → Thread) : Tile := { ti with threads := mmod (fun _ => {}) k f ti.threads }
/-- Long register i of bank b (R95). -/
def Tile.lreg (ti : Tile) (b i : Nat) : LReg := mget (fun _ => {}) (b * 128 + i) ti.lregs
/-- Tile with a long register replaced. -/
def Tile.setLreg (ti : Tile) (b i : Nat) (r : LReg) : Tile := { ti with lregs := mset (fun _ => {}) (b * 128 + i) r ti.lregs }
/-- Pending-arrival count of a bank (R98). -/
def Tile.pending (ti : Tile) (b : Nat) : Nat := mget (fun _ => 0) b ti.pend
/-- Vector register r of context c (R88). -/
def Tile.vreg (ti : Tile) (c r : Nat) : Vec := mget (fun _ => 0) (c * 32 + r) ti.vregs
/-- SP_REGION[n] (R161). -/
def Tile.reg (ti : Tile) (n : Nat) : Word := mget (fun _ => 0) n ti.region
/-- Counter 8 to 13 of Table 4.7 raised by n. -/
def Tile.count (ti : Tile) (c n : Nat) : Tile := { ti with stepCnt := mmod (fun _ => 0) c (· + n) ti.stepCnt }
/-- The instance of a task slot. -/
def Tile.instOf (ti : Tile) (slot : Nat) : Option Instance := (ti.inst.find? (fun x => x.1 == slot)).map (·.2)
/-- Tile with the instance of a slot changed. -/
def Tile.modInst (ti : Tile) (slot : Nat) (f : Instance → Instance) : Tile :=
  { ti with inst := ti.inst.map (fun x => if x.1 == slot then (slot, f x.2) else x) }
/-- Completion counter c of an instance incremented by 1 modulo 2^32 (R132). -/
def Instance.bump (i : Instance) (c : Nat) : Instance := { i with cnt := mmod (fun _ => 0) c (fun n => (n + 1) % 2 ^ 32) i.cnt }

/-- Scalar register: x0 reads 0 (R84). -/
def Thread.x (th : Thread) (i : BitVec 5) : Word := if i = 0 then 0 else mget (fun _ => 0) i.toNat th.regs
/-- Scalar register written: a write to x0 is discarded (R84). -/
def Thread.setX (th : Thread) (i : BitVec 5) (v : Word) : Thread :=
  if i = 0 then th else { th with regs := mset (fun _ => 0) i.toNat v th.regs }

/-! ### Outcomes -/

/-- The engine's part of a next state. -/
def onEng (s : State) (f : Nat → Engine → Engine) : Host.Outcome State Fault Refusal := .next { s with eng := f s.now s.eng }

/-- The same for a command whose operands name units the engine has; otherwise the command names no unit (Table 0.4). -/
def onUnit (ok : Bool) (s : State) (f : Nat → Engine → Engine) : Host.Outcome State Fault Refusal :=
  if ok then onEng s f else .fault .noSuchUnit

/-- `f` where the event can take place; otherwise it does not take place. -/
def cond {α : Type} (c : Bool) (f : α → α) (x : α) : α := if c then f x else x

/-! ### The virtual grid (R182, R279 to R282) -/

/-- Physical fields of a partition in ascending order: virtual field k is the k-th. -/
def Engine.partFields (e : Engine) (p : Nat) : List Nat := setBits (e.part p).fields 96

/-- The partition whose field set holds a physical field. -/
def Engine.partOf (e : Engine) (field : Nat) : Option Nat := (List.range 32).find? (fun p => (e.part p).fields.testBit field)

/-- DARN_MAP[v] of a field. -/
def Field.map (f : Field) (v : Nat) : BitVec 16 := mget darnMapReset v f.darnMap
/-- DARN_SITE[s] of a field. -/
def Field.site (f : Field) (s : Nat) : SiteState := mget darnSiteReset s f.darnSite
/-- The site a virtual tile of a field maps to, while VALID. -/
def Field.siteOf (f : Field) (v : Nat) : Option Nat :=
  let m := (f.map v).toNat
  if decide (v < 696) && bitAt m 15 then some (fld m 9 0) else none
/-- The virtual tile of a field that maps to a site. -/
def Field.vOf (f : Field) (s : Nat) : Option Nat :=
  if f.siteOf s = some s then some s
  else (f.darnMap.find? (fun x => f.siteOf x.1 == some s)).map (·.1)

/-- State of a site (R114). -/
def Engine.siteState (e : Engine) (t : Loc) : SiteState := (e.field t.field).site t.site
/-- Engine with a site's state written. -/
def Engine.setSite (e : Engine) (t : Loc) (x : SiteState) : Engine :=
  e.modField t.field (fun f => { f with darnSite := mset darnSiteReset t.site x f.darnSite })

/-- A virtual tile word laid out as x3 (Table 3.2). -/
def vword (vf vx vy : Nat) : Nat := vf * 65536 + vx * 256 + vy
/-- Virtual tile index of a field (R280). -/
def vindex (vx vy : Nat) : Nat := vy * 24 + vx

/-- The site that a virtual tile word of a partition names (R211), or none outside the grid or where it is not mapped. -/
def Engine.locOfV (e : Engine) (p w : Nat) : Option Loc :=
  let vx := fld w 15 8
  let vy := fld w 7 0
  if vx < 24 ∧ vy < 29 then
    match (e.partFields p)[fld w 23 16]? with
    | none => none
    | some f => ((e.field f).siteOf (vindex vx vy)).map (fun s => { field := f, site := s })
  else none

/-- Is a virtual tile word inside the partition's virtual grid? -/
def Engine.inGrid (e : Engine) (p w : Nat) : Bool :=
  decide (fld w 15 8 < 24) && decide (fld w 7 0 < 29) && decide (fld w 23 16 < (e.partFields p).length)

/-- The virtual tile word of a site of a partition (x3). -/
def Engine.vOfLoc (e : Engine) (p : Nat) (t : Loc) : Option Nat :=
  match (e.partFields p).idxOf? t.field, (e.field t.field).vOf t.site with
  | some k, some v => some (vword k (v % 24) (v / 24))
  | _, _ => none

/-- Deck of a field (R204). -/
def deckOf (field : Nat) : Nat := if field < 48 then 0 else 1
/-- Cluster of a site in its deck: CY * 48 + CX (R204). -/
def clusterOf (t : Loc) : Nat :=
  let i := t.field % 48
  let x := 24 * (i % 8) + t.site % 24
  let y := 30 * (i / 8) + t.site / 24
  (y / 5) * 48 + x / 4 + deckOf t.field * 1728
/-- Every mapped, active site of a partition. -/
def Engine.partTiles (e : Engine) (p : Nat) : List Loc :=
  (e.partFields p).flatMap (fun f => (List.range 696).filterMap (fun v => ((e.field f).siteOf v).map (fun s => { field := f, site := s })))

/-- Change every listed tile of the fields of a partition. An unlisted tile holds its reset value, which every
operation used here leaves as it is. -/
def Engine.modPartTiles (e : Engine) (p : Nat) (f : Tile → Tile) : Engine :=
  let fs := (e.part p).fields
  { e with tiles := e.tiles.foldl (fun m x => if fs.testBit (x.1 / 720) then mset (fun _ => {}) x.1 (f x.2) m else m) e.tiles }

/-! ### The chair and ledger events -/

/-- The majority value of the chair latch (R386). -/
def Supervisor.chairValue (s : Supervisor) : Chair :=
  match s.chair with
  | [a, b, c] => if a = b ∨ a = c then a else if b = c then b else .none
  | _ => .none

/-- Deck whose ledger takes the events of the supervisor, the pace unit and the pair (R413). -/
def Engine.chairDeck (e : Engine) : Nat := match e.sup.chairValue with | .deck d => d | .none => 0

/-- What an MSI-X table entry reads as before it is written: masked (log entry 14). -/
def msixReset (_ : Nat) : BitVec 128 := BitVec.ofNat 128 (2 ^ 96)

/-- HOST_HEM_CR[n] and ZAROG_HEM_CR[n] before they are written (Table 7.7). -/
def hemReset (n : Nat) : HemCr := if n = 32 then { inRate := 0x400, outRate := 0x400, burst := 0x1000 } else {}

/-- Entry n of a deck's host (0) or Zarog (1) credit table. -/
def Deck.hem (d : Deck) (table n : Nat) : HemCr := mget hemReset n (if table = 0 then d.hostCr else d.zarogCr)
/-- The entry written. -/
def Deck.setHem (d : Deck) (table n : Nat) (c : HemCr) : Deck :=
  if table = 0 then { d with hostCr := mset hemReset n c d.hostCr } else { d with zarogCr := mset hemReset n c d.zarogCr }

/-- Flits taken from an inbound bucket of a deck, where it holds them (R226). -/
def Engine.takeHem (e : Engine) (d table n flits : Nat) : Option Engine :=
  let c := (e.deck d).hem table n
  if flits ≤ c.inBucket then some (e.modDeck d (fun k => k.setHem table n { c with inBucket := c.inBucket - flits })) else none

/-- Flits that enter by a bucket that is not empty use what it holds (R226). -/
def Engine.spendHem (e : Engine) (d table n flits : Nat) : Engine :=
  let c := (e.deck d).hem table n
  e.modDeck d (fun k => k.setHem table n { c with inBucket := c.inBucket - flits })

/-- Registers of a function. -/
def fnKey : Fn → Nat
  | .pf k => k
  | .vf t => 8 + t
/-- Registers of a function. -/
def Engine.fn (e : Engine) (f : Fn) : FnState := mget (fun _ => {}) (fnKey f) e.fns
/-- Engine with a function's registers changed. -/
def Engine.modFn (e : Engine) (f : Fn) (g : FnState → FnState) : Engine := { e with fns := mmod (fun _ => {}) (fnKey f) g e.fns }

/-- VF_ASSIGN[t] as Table 11.1 resets it: ASSIGNED, PORT t div 32. -/
def vfAssignReset (t : Nat) : Word := BitVec.ofNat 64 (0x80 + t / 32 % 8)
/-- VF_ASSIGN[t]. -/
def Engine.vfWord (e : Engine) (t : Nat) : Nat := (mget vfAssignReset t e.vfAssign).toNat

/-- Port of a function: VF t responds while ASSIGNED and VF Enable is set on its port (R323). -/
def Engine.fnPort (e : Engine) : Fn → Option Nat
  | .pf k => if k < 8 then some k else none
  | .vf t =>
    let w := e.vfWord t
    let p := fld w 2 0
    if t < 256 ∧ bitAt w 7 = true ∧ (e.hport p).vfEnable = true then some p else none

/-- Is the link of a function's port up? -/
def Engine.linkUp (e : Engine) (f : Fn) : Bool := match e.fnPort f with | some p => (e.hport p).up | none => false

/-- Is the function's MSI-X entry v masked? -/
def FnState.masked (x : FnState) (v : Nat) : Bool := bitAt (mget msixReset v x.msix).toNat 96

/-- Signal an MSI-X vector of a function (R338): a masked entry, or a port whose link is down (R325), sets its bit of the PBA. -/
def Engine.msix (e : Engine) (f : Fn) (v : Nat) : Engine :=
  if (e.fn f).masked v || !e.linkUp f then e.modFn f (fun x => { x with pba := x.pba ||| 2 ^ v })
  else e.send (.msix f v)

/-- May a later occurrence be added to entry `x` (R414)? -/
def coalesces (now : Nat) (l : Ledger) (x y : LedgerEntry) : Bool :=
  decide ({ y with tick := x.tick, seq := x.seq, rep := x.rep } = x) && decide (now < x.tick + 1000) &&
    !(match l.latched with | some z => z.seq == x.seq | none => false) && decide (x.rep < 65535)

/-- The ledger with an event added: added to the newest entry, or as a new one that may overwrite the oldest (R414,
R415). The bool says whether it is a new entry. -/
def Ledger.add (now : Nat) (l : Ledger) (x : LedgerEntry) : Ledger × Bool :=
  match l.entries.getLast? with
  | some y =>
    if coalesces now l y x then
      ({ l with entries := l.entries.dropLast ++ [{ y with rep := y.rep + 1 }] }, false)
    else
      let full := decide (l.entries.length ≥ 4096)
      ({ l with
          entries := (if full then l.entries.drop 1 else l.entries) ++ [{ x with seq := l.next }]
          next := (l.next + 1) % 2 ^ 32
          lost := if full then satAdd 0xFFFFFFFF l.lost 1 else l.lost }, true)
  | none => ({ l with entries := [{ x with seq := l.next }], next := (l.next + 1) % 2 ^ 32 }, true)

/-- Sticky counter c of a deck raised (R416). -/
def Deck.stick (d : Deck) (c : Nat) : Deck := { d with sticky := mmod (fun _ => 0) c (fun n => satAdd 0xFFFFFFFF n 1) d.sticky }

/-- A severe event written to the journal while its bucket allows, else counted in STICKY[15] (R418). -/
def Engine.journal (e : Engine) (d : Nat) (x : LedgerEntry) : Engine :=
  if e.sup.bucket = 0 then e.modDeck d (fun k => k.stick 15)
  else e.modSup (fun s => { s with
    journal := (if s.journal.length ≥ 65536 then s.journal.drop 1 else s.journal) ++ [{ x with seq := s.journalNext }],
    journalNext := s.journalNext + 1, bucket := s.bucket - 1 })

/-- The ledger vector of deck d on every physical function (Table 11.7). -/
def Engine.ledgerVector (e : Engine) (d : Nat) : Engine :=
  (List.range 8).foldl (fun e k => e.msix (.pf k) (3 + d)) e

/-- Record an event of a unit of deck `unit` in the ledger of deck d: coalescing, sticky counter, journal, vector (R413 to
R418). -/
def Engine.eventIn (e : Engine) (now d unit : Nat) (x : LedgerEntry) : Engine :=
  let sev := eventSev x.code
  let y := { x with tick := now, rep := 1, sev := sev, deck := unit }
  let (l, new) := (e.deck d).ledger.add now y
  let e := e.modDeck d (fun k => ({ k with ledger := l } : Deck).stick (x.code / 256))
  let e := if sev = 3 then e.journal d y else e
  if new && (sev == 3 || l.entries.length == (e.deck d).thresh) then e.ledgerVector d else e

/-- Record an event of a unit of deck d in that deck's ledger. -/
def Engine.event (e : Engine) (now d : Nat) (x : LedgerEntry) : Engine := e.eventIn now d d x

/-- An event of a tile site with its partition. -/
def Engine.siteEvent (e : Engine) (now : Nat) (t : Loc) (code arg0 arg1 : Nat) : Engine :=
  let p := e.partOf t.field
  e.event now (deckOf t.field) { code := code, field := t.field, site := t.site, part := p.getD 0, pvalid := p.isSome, arg0 := arg0, arg1 := arg1 }

/-- Deck that governs a partition: the deck of its lowest field, deck 0 for an empty set. -/
def Engine.partDeck (e : Engine) (p : Nat) : Nat := match e.partFields p with | f :: _ => deckOf f | [] => 0

/-- An event of a partition. -/
def Engine.partEvent (e : Engine) (now p code arg0 arg1 : Nat) : Engine :=
  e.event now (e.partDeck p) { code := code, part := p, pvalid := true, arg0 := arg0, arg1 := arg1 }

/-- An event of the supervisor, the pace unit or the pair (R413). -/
def Engine.supEvent (e : Engine) (now code arg0 arg1 : Nat) : Engine :=
  e.event now e.chairDeck { code := code, arg0 := arg0, arg1 := arg1 }

/-! ### Zones and clock domains (R424, R425, Table 14.2) -/

/-- Clock domain of a field's pair. -/
def fieldDomain (f : Nat) : Nat := if f < 48 then f / 2 else 29 + (f - 48) / 2

/-- The lower-numbered field of a field-pair domain; none for the other domains. -/
def pairOf (d : Nat) : Option Nat := if d < 24 then some (2 * d) else if 29 ≤ d ∧ d ≤ 52 then some (48 + 2 * (d - 29)) else none

/-- Healthy phases of a zone (R424). -/
def Field.healthy (f : Field) : Nat := 12 - f.shed.length - bnat f.disagree

/-- Fewest healthy phases of a domain's zones. -/
def Engine.domainPhases (e : Engine) (d : Nat) : Nat := match pairOf d with | some f => min (e.field f).healthy (e.field (f + 1)).healthy | none => 12

/-- Is the domain's clock stopped for want of phases (Table 14.2)? -/
def Engine.clockStopped (e : Engine) (d : Nat) : Bool := decide (e.domainPhases d ≤ 2)

/-- Offset in mV of the read references of an NV wafer by its temperature band (Table 6.11, R197). -/
def nvReadOffset (band : Nat) : Int := if band = 0 then -24 else if band = 1 then 0 else if band = 2 then 24 else if band = 3 then 36 else 48

/-- Read reference offset of the NV wafer w of a field. -/
def Field.nvOffset (f : Field) (w : Nat) : Int := nvReadOffset (if w = 0 then f.nBand0 else f.nBand1)

/-! ### Scratchpad -/

/-- Start of the reserved area (R153). -/
def reservedBase : Nat := 0x1E0000
/-- Bank of a byte address: (r + c) mod 32 (R151). -/
def bankOf (a : Nat) : Nat := (fld a 12 8 + fld a 7 3) % 32
/-- Word address (R151). -/
def wordAddr (a : Nat) : Nat := fld a 20 3
/-- The 4 KiB granules a byte range touches. -/
def granules (a n : Nat) : List Nat := (List.range ((a + n - 1) / 4096 + 1 - a / 4096)).map (· + a / 4096)
/-- Is some granule of the range filling (R105)? -/
def Tile.fillingIn (ti : Tile) (a n : Nat) : Bool := ti.filling.any (fun g => decide (a / 4096 ≤ g) && decide (g ≤ (a + n - 1) / 4096))
/-- First filling granule of the range. -/
def Tile.firstFilling (ti : Tile) (a n : Nat) : Option Nat := (granules a n).find? (fun g => ti.filling.contains g)
/-- First uncorrectable word of the range (R167). -/
def Tile.firstBad (ti : Tile) (a n : Nat) : Option Nat :=
  (ti.badWords.filter (fun k => decide (a / 8 ≤ k) && decide (k ≤ (a + n - 1) / 8))).foldl
    (fun m k => match m with | none => some k | some j => some (min j k)) none

/-- Scratchpad bytes written; a word written whole is no longer uncorrectable, one written in part stays so (R167; DESIGN CHOICE,
log 137). -/
def Tile.store (ti : Tile) (a : Nat) (bs : List Byte) : Tile :=
  { ti with
    sp := writeBytes ti.sp a bs
    badWords := ti.badWords.filter (fun k => !(decide (a ≤ 8 * k) && decide (8 * k + 8 ≤ a + bs.length))) }

/-- Scratchpad bytes zero-filled (R165, R167). -/
def Tile.zero (ti : Tile) (a n : Nat) : Tile :=
  { ti with sp := zeroRange ti.sp a n, badWords := ti.badWords.filter (fun k => !(decide (a ≤ 8 * k) && decide (8 * k + 8 ≤ a + n))) }

/-- Is byte address a inside a region the instance claims, of the kind asked for (R161, R267)? -/
def Tile.claimed (ti : Tile) (i : Instance) (kind : Option Nat) (a : Nat) : Bool :=
  decide (a < reservedBase) && i.claims.any (fun c => regHas (ti.reg c.1) (a / 4096) && (match kind with | none => true | some k => regKind (ti.reg c.1) == k))

/-- First byte of the range outside the claim or above 0x1F_FFFF (R119). -/
def Tile.firstOutside (ti : Tile) (i : Instance) (a n : Nat) : Option Nat :=
  if !ti.claimed i none a then some a
  else ((granules a n).drop 1).findSome? (fun g => if ti.claimed i none (g * 4096) then none else some (g * 4096))

/-! ### Errors in scratchpad words (R166 to R168) -/

/-- Bank b of a tile changed. -/
def Tile.modBank (ti : Tile) (b : Nat) (f : SpBank → SpBank) : Tile := { ti with bank := mmod (fun _ => {}) b f ti.bank }

/-- A corrected error at a word address (Table 5.8). -/
def Tile.corrected (ti : Tile) (k : Nat) : Tile :=
  ti.modBank (bankOf (8 * k)) (fun b => { b with ce := satAdd 0xFFFF b.ce 1, win := satAdd 0xFF b.win 1, last := k })

/-- An uncorrectable word that rinse or a read finds: counted in UE_COUNT, reported, and left as it is (R167, R168, Table 5.8). -/
def Engine.foundBad (e : Engine) (now : Nat) (t : Loc) (k : Nat) : Engine :=
  if (e.tile t).badWords.contains k then e
  else
    let b := bankOf (8 * k)
    (e.modTile t (fun ti => ({ ti with badWords := ti.badWords ++ [k] } : Tile).modBank b (fun x => { x with ue := satAdd 0xFF x.ue 1, last := k }))).siteEvent
      now t 0x0201 k b

/-- The errors that reads of a tile's scratchpad meet, by word address: a corrected one counts, an uncorrectable one is found
(R166, R167). -/
def Engine.meets (e : Engine) (now : Nat) (t : Loc) (l : List (Nat × Bool)) : Engine :=
  l.foldl (fun e x =>
    if 262144 ≤ x.1 then e
    else if x.2 then e.foundBad now t x.1
    else e.modTile t (fun ti => ti.corrected x.1)) e

/-! ### Tile exceptions (R111, R112) -/

/-- The capture area's history record to use: that of this step, else the one with the lowest step start (R417). -/
def historySlot (sp : Memory) (start : Nat) : Nat :=
  let at' (k : Nat) : Nat := readNat sp (0x1FC400 + 16 * k + 8) 8
  match (List.range 64).find? (fun k => at' k == start && readNat sp (0x1FC400 + 16 * k) 8 != 0) with
  | some k => k
  | none => ((List.range 64).foldl (fun b k => if at' k < at' b then k else b) 0)

/-- TILE_EXC copied to the capture area with its history record (Table 13.5). -/
def Tile.capture (ti : Tile) (start : Nat) : Tile :=
  let w := ti.exc.word
  let k := historySlot ti.sp start
  { ti with sp := writeNat (writeNat (writeNat ti.sp 0x1FC000 w 8) (0x1FC400 + 16 * k) w 8) (0x1FC400 + 16 * k + 8) start 8 }

/-- Strikes written to the capture area (Table 13.5). -/
def Tile.setStrikes (ti : Tile) (l : List Nat) : Tile :=
  { ti with strikes := l, sp := writeNat ti.sp 0x1FC008 (min l.length 3 + 4 * (l.headD 0 % 2 ^ 62)) 8 }

/-- One strike against a site (R397). -/
def Engine.strike (e : Engine) (now : Nat) (t : Loc) : Engine := e.modTile t (fun ti => ti.setStrikes (ti.strikes ++ [now]))

/-- Start tick of the running step of a partition, 0 with no step. -/
def Part.stepStart (p : Part) : Nat := match p.step with | some s => s.start | none => 0

/-- The step's record of the exception (R113). -/
def Part.note (p : Part) (t : Loc) (c : Cause) (thread pc detail : Nat) : Part :=
  match p.step with
  | none => p
  | some s =>
    let up := match s.exc.cause with | none => true | some old => outranks c old
    { p with step := some { s with exc := s.exc.record c thread pc detail, excLoc := if up then some t else s.excLoc } }

/-- Every thread of an instance halted (R111). -/
def Tile.haltInst (ti : Tile) (slot : Nat) : Tile :=
  match ti.instOf slot with
  | none => ti
  | some i => i.threads.foldl (fun ti k => ti.modThread k (fun th => if th.ended then th else { th with run := .halted })) ti

/-- Taking a tile exception: TILE_EXC, the capture area, the step's record, the halt of the instance, the strike of R397
(against the site unless `blame` names a router) (R111, R112, R113, R397). -/
def Engine.raise (e : Engine) (now : Nat) (t : Loc) (thread : Nat) (pc : Nat) (slot : Option Nat) (c : Cause) (detail : Nat)
    (blame : Option Loc := none) : Engine :=
  let ti := e.tile t
  let p := match slot.bind ti.instOf with | some i => some i.part | none => e.partOf t.field
  let start := match p with | some p => (e.part p).stepStart | none => 0
  let e := e.modTile t (fun ti =>
    let ti := ({ ti with exc := ti.exc.record c thread pc detail } : Tile).capture start
    match slot with | some s => ti.haltInst s | none => ti)
  let e := match p with | some p => e.modPart p (fun q => q.note t c thread pc detail) | none => e
  if c = .residue ∨ c = .sramUncorr then e.strike now (blame.getD t) else e

end Sys2Proof.Machine
end

