-- ==== Sys2Proof/Machine/Operands.lean ====
section
/-!
DEFINITION. Operand forms of the tile instructions (R117 to R133): which fields an instruction uses, the checks of R119
in their order, scratchpad operands that wait on filling granules, and the issue of an instruction by a thread.
-/
namespace Sys2Proof.Machine

/-! ### Encoding (R117, R118) -/

/-- R118 for an instruction without an immediate form: the register fields it does not use are 0, and IMM or MOD is one
its table allows. -/
def fieldsOk (d a b c : Bool) (w : Opnd) (immOk : Bool) : Bool :=
  !w.alt && (d || w.d == 0) && (a || w.a == 0) && (b || w.b == 0) && (c || w.c == 0) && immOk

/-- IMM or MOD bits [hi:lo]. -/
def mod (w : Opnd) (hi lo : Nat) : Nat := fld w.imm.toNat hi lo
/-- One IMM or MOD bit. -/
def modBit (w : Opnd) (i : Nat) : Bool := w.imm.getLsbD i
/-- IMM sign-extended to 64 bits (R117). -/
def simm (w : Opnd) : Word := w.imm.signExtend 64

/-! ### Issue -/

/-- What an instruction does when it issues: it completes (with its result, or with the branch it takes), it waits
(R108), it raises an exception and has no effect (R111), it raises one after part of its effect (R120), or the thread ends (R133). -/
inductive Iss where
  | done (e : Engine)
  | jump (pc : Nat) (e : Engine)
  | wait (e : Engine)
  | exc (c : Cause) (detail : Nat)
  | late (e : Engine) (c : Cause) (detail : Nat)   -- a fault found after part of the operation was performed (R120)
  | ended (e : Engine)
  | queued (e : Engine)                            -- a unit took it from its queue and may have raised at once: `e` holds all of it

/-- What an instruction sees when it issues. -/
structure Ctx where
  now : Nat
  e : Engine
  h : Hart
  th : Thread
  ti : Tile
  i : Instance

/-- One check of R119: the exception if it fails, else the rest. -/
def check (ok : Bool) (c : Cause) (detail : Nat) (k : Iss) : Iss := if ok then k else .exc c detail

/-- A check whose DETAIL Table 3.9a does not give: a free value (log entry 47). -/
def Ctx.checkFree (c : Ctx) (ok : Bool) (x : Cause) (k : Iss) : Iss :=
  if ok then k else .late { c.e with freeCtr := c.e.freeCtr + 1 } x ((Config.unstatedArg c.e.freeCtr).toNat % 2 ^ 18)

/-- Such a check whose cause is CLAIM_VIOLATION. -/
def Ctx.checkOpen (c : Ctx) (ok : Bool) (k : Iss) : Iss := c.checkFree ok .claimViolation k

/-- Value of a scalar register. -/
def Ctx.x (c : Ctx) (r : BitVec 5) : Word := c.th.x r
/-- The same as a number. -/
def Ctx.xn (c : Ctx) (r : BitVec 5) : Nat := (c.th.x r).toNat

/-- Engine with the issuing thread changed. -/
def Ctx.withThread (c : Ctx) (e : Engine) (f : Thread → Thread) : Engine :=
  e.modTile c.h.loc (fun ti => ti.modThread c.h.thread f)

/-- The result written to xD. -/
def Ctx.writeX (c : Ctx) (d : BitVec 5) (v : Word) (e : Engine) : Engine := c.withThread e (fun th => th.setX d v)

/-- Engine with the issuing tile changed. -/
def Ctx.modTile (c : Ctx) (f : Tile → Tile) : Engine := c.e.modTile c.h.loc f

/-- Every byte of [a, a + n) is inside the claim (R119, fourth check); the DETAIL is the first byte's word address. -/
def Ctx.claim (c : Ctx) (a n : Nat) (k : Iss) : Iss :=
  match c.ti.firstOutside c.i a n with
  | some b => .exc .claimViolation (wordAddr b)
  | none => k

/-- No byte stored to lies in a filling granule (R105, R119). -/
def Ctx.notFilling (c : Ctx) (a n : Nat) (k : Iss) : Iss :=
  match c.ti.firstFilling a n with
  | some g => .exc .claimViolation (wordAddr (max a (g * 4096)))
  | none => k

/-- The address is a multiple of `m` (R119, third check). -/
def aligned (a m : Nat) (k : Iss) : Iss := check (a % m == 0) .misaligned (wordAddr a) k

/-- The length is a multiple of `m` (R119, third check; DETAIL 0). -/
def lenMultiple (n m : Nat) (k : Iss) : Iss := check (n % m == 0) .misaligned 0 k

/-- The length is in its range (R119, fourth check; DETAIL 0). -/
def lenRange (lo hi n : Nat) (k : Iss) : Iss := check (decide (lo ≤ n) && decide (n ≤ hi)) .claimViolation 0 k

/-- A read of [a, a + n): it waits on a filling granule (R105) and raises SRAM_UNCORR at the first uncorrectable word
(R167). -/
def Ctx.reading (c : Ctx) (a n : Nat) (k : Iss) : Iss :=
  if c.ti.fillingIn a n then .wait c.e
  else match c.ti.firstBad a n with
    | some w => .exc .sramUncorr w
    | none => k

/-- Is some byte of the range the destination of a DRD that has not completed (R146)? -/
def Tile.pendingDrd (ti : Tile) (a n : Nat) : Bool :=
  ti.dramQ.any (fun j => !j.write && decide (a < j.sp + j.len) && decide (j.sp < a + n))

/-- Bytes read from scratchpad; a byte of the destination of a DRD that has not completed is a free value (R146, log
entry 3). -/
def Ctx.bytes (c : Ctx) (a n : Nat) : List Byte :=
  if c.ti.pendingDrd a n then
    (List.range n).map (fun k => if c.ti.pendingDrd (a + k) 1 then Config.freeByte (c.e.freeCtr + a + k) else readByte c.ti.sp (a + k))
  else readBytes c.ti.sp a n

/-- The engine after a read of n bytes at a: the counter of free values moves past the addresses it could use. -/
def Ctx.afterRead (c : Ctx) (a n : Nat) : Engine :=
  if c.ti.pendingDrd a n then { c.e with freeCtr := c.e.freeCtr + 2 ^ 21 } else c.e

/-- Bytes read, with the context after the read. -/
def Ctx.take (c : Ctx) (a n : Nat) : List Byte × Ctx := (c.bytes a n, { c with e := c.afterRead a n })

/-- A thread that starts to wait or goes on waiting (R108). -/
def Thread.waitFrom (th : Thread) (now : Nat) : Thread :=
  if th.run = .waiting then th else { th with run := .waiting, since := now }

/-- The outcome of an issue written into the engine. -/
def finish (c : Ctx) : Iss → Engine
  | .done e => c.withThread e (fun th => { th with pc := th.pc + 8, run := .running, since := 0 })
  | .jump pc e => c.withThread e (fun th => { th with pc := BitVec.ofNat 21 pc, run := .running, since := 0 })
  | .wait e => c.withThread e (fun th => th.waitFrom c.now)
  | .ended e => c.withThread e (fun th => { th with ended := true, run := .running, since := 0 })
  | .queued e => e
  | .late e k detail => e.raise c.now c.h.loc c.h.thread c.th.pc.toNat (some c.th.task) k detail
  | .exc k detail => c.e.raise c.now c.h.loc c.h.thread c.th.pc.toNat (some c.th.task) k detail

/-- May this thread issue: it runs or waits, it has not ended, and its instance runs on an ACTIVE site (R84, R133)? -/
def mayIssue (e : Engine) (h : Hart) : Option Ctx :=
  let ti := e.tile h.loc
  let th := ti.thread h.thread
  if (th.run = .running ∨ th.run = .waiting) ∧ th.ended = false ∧ e.siteState h.loc = .active then
    (ti.instOf th.task).map (fun i => { now := 0, e := e, h := h, th := th, ti := ti, i := i })
  else none

/-- The instruction buffer takes the word of the instruction that issues (R87). -/
def Engine.fetched (e : Engine) (h : Hart) (pc : Nat) (word : Word) : Engine :=
  e.modTile h.loc (fun ti => { ti with ibuf := mset (fun _ => 0) pc word ti.ibuf })

/-- Issue of an instruction: the errors that its fetch and reads meet (R166, R167), the fetch, ILLEGAL_OP (R118), the vector
context (R89), then its own checks and effect. A hart that may not issue leaves the engine as it is, and so does a word whose
own GROUP and OP name another row: that row is the command. -/
def issueOn (group op : Nat) (legal vec : Bool) (h : Hart) (w : Opnd) (body : Ctx → Iss) (now : Nat) (e : Engine) : Engine :=
  match if spellsRow w then none else mayIssue e h with
  | none => e
  | some c0 =>
    let pc := c0.th.pc.toNat
    let e := (e.meets now h.loc w.ecc).fetched h pc (wordOf group op w)
    let c : Ctx := { c0 with now := now, e := e, ti := e.tile h.loc }
    finish c
      (match c.ti.firstBad pc 8 with
       | some k => .exc .sramUncorr k
       | none =>
         check (legal && w.other.isNone) .illegalOp 0
          (check (!vec || c.th.vctx.isSome) .claimViolation 0 (body c)))

/-- The command of a tile instruction. -/
def issue (group op : Nat) (legal vec : Bool) (h : Hart) (w : Opnd) (body : Ctx → Iss) (s : State) :
    Host.Outcome State Fault Refusal :=
  onUnit (hartOk h) s (issueOn group op legal vec h w body)

/-! ### Banks (R95, R98) -/

/-- Bank b is granted to the instance (R95; DETAIL 0). -/
def Ctx.granted (c : Ctx) (b : Nat) (k : Iss) : Iss := check (c.i.banks.testBit b) .claimViolation 0 k

/-- Adds into bank b issued earlier on the tile that have not completed. -/
def Tile.addsOpen (ti : Tile) (b : Nat) : Bool :=
  (ti.matQ ++ ti.matU).any (fun j => j.bank == b) || ti.attQ.any (fun j => j.attend && j.banks.contains b)

/-- A read of bank b must wait (R98). -/
def Tile.bankBusy (ti : Tile) (b : Nat) : Bool := ti.pending b != 0 || ti.addsOpen b

/-! ### Vector registers (R88) -/

/-- Register v of the issuing thread's context as a number. -/
def Ctx.v (c : Ctx) (r : BitVec 5) : Nat := (c.ti.vreg (c.th.vctx.getD 0) r.toNat).toNat

/-- Lane k of width w bits of a register. -/
def lane (w v k : Nat) : Nat := fld v (w * k + w - 1) (w * k)

/-- A register from its lanes of width w, lane 0 first. -/
def ofLanes (w : Nat) : List Nat → Nat
  | [] => 0
  | x :: r => x % 2 ^ w + 2 ^ w * ofLanes w r

/-- Register v of the issuing thread's context written. -/
def Ctx.writeV (c : Ctx) (r : BitVec 5) (v : Nat) (e : Engine) : Engine :=
  e.modTile c.h.loc (fun ti => { ti with vregs := mset (fun _ => 0) (c.th.vctx.getD 0 * 32 + r.toNat) (BitVec.ofNat 2048 v) ti.vregs })

end Sys2Proof.Machine
end

