-- ==== Sys2Proof/Machine/Access.lean ====
section
/-!
DEFINITION. Scalar scratchpad access, GROUP 0x1 OP 0x00 to 0x12 (R126, R127, Table 4.5).
-/
namespace Sys2Proof.Machine

/-- The byte address xA + IMM (R126). -/
def Ctx.addr (c : Ctx) (w : Opnd) : Nat := (c.x w.a + simm w).toNat

/-- An n-byte value extended to 64 bits. -/
def extend (n : Nat) (signed : Bool) (v : Nat) : Word := if signed then BitVec.ofInt 64 (toSigned (8 * n) v) else BitVec.ofNat 64 v

/-- A load of n bytes at xA + IMM into xD (R126). -/
def load (op n : Nat) (signed : Bool) (h : Hart) (w : Opnd) (s : State) : Host.Outcome State Fault Refusal :=
  issue 0x1 op (fieldsOk true true false false w true) false h w (fun c =>
    let a := c.addr w
    aligned a n <| c.claim a n <| c.reading a n <|
      .done (c.writeX w.d (extend n signed (leNat (c.bytes a n))) (c.afterRead a n))) s

/-- A store of the low n bytes of xB at xA + IMM (R126). -/
def store (op n : Nat) (h : Hart) (w : Opnd) (s : State) : Host.Outcome State Fault Refusal :=
  issue 0x1 op (fieldsOk false true true false w true) false h w (fun c =>
    let a := c.addr w
    aligned a n <| c.claim a n <| c.notFilling a n <|
      .done (c.modTile (fun ti => ti.store a (natBytes (c.xn w.b) n)))) s

/-- An atomic on the word at xA: xD ← old; the word becomes `f old` (R127). -/
def atomic (op : Nat) (f : Ctx → Word → Word) (h : Hart) (w : Opnd) (s : State) : Host.Outcome State Fault Refusal :=
  issue 0x1 op (fieldsOk true true true false w (w.imm == 0)) false h w (fun c =>
    let a := c.xn w.a
    aligned a 8 <| c.claim a 8 <| c.notFilling a 8 <| c.reading a 8 <|
      let old := BitVec.ofNat 64 (leNat (c.bytes a 8))
      .done (c.writeX w.d old ((c.afterRead a 8).modTile c.h.loc (fun ti => ti.store a (natBytes (f c old).toNat 8))))) s

/-- LDB (R126). -/
def execLdb (h : Hart) (w : Opnd) (s : State) := load 0x00 1 true h w s
/-- LDH (R126). -/
def execLdh (h : Hart) (w : Opnd) (s : State) := load 0x01 2 true h w s
/-- LDW (R126). -/
def execLdw (h : Hart) (w : Opnd) (s : State) := load 0x02 4 true h w s
/-- LDD (R126). -/
def execLdd (h : Hart) (w : Opnd) (s : State) := load 0x03 8 true h w s
/-- LDBU (R126). -/
def execLdbu (h : Hart) (w : Opnd) (s : State) := load 0x04 1 false h w s
/-- LDHU (R126). -/
def execLdhu (h : Hart) (w : Opnd) (s : State) := load 0x05 2 false h w s
/-- LDWU (R126). -/
def execLdwu (h : Hart) (w : Opnd) (s : State) := load 0x06 4 false h w s
/-- STB (R126). -/
def execStb (h : Hart) (w : Opnd) (s : State) := store 0x08 1 h w s
/-- STH (R126). -/
def execSth (h : Hart) (w : Opnd) (s : State) := store 0x09 2 h w s
/-- STW (R126). -/
def execStw (h : Hart) (w : Opnd) (s : State) := store 0x0A 4 h w s
/-- STD (R126). -/
def execStd (h : Hart) (w : Opnd) (s : State) := store 0x0B 8 h w s
/-- AMOADD (R127). -/
def execAmoadd (h : Hart) (w : Opnd) (s : State) := atomic 0x10 (fun c old => old + c.x w.b) h w s
/-- AMOSWAP (R127). -/
def execAmoswap (h : Hart) (w : Opnd) (s : State) := atomic 0x11 (fun c _ => c.x w.b) h w s
/-- CAS: the word becomes xB if it equals xD (R127). -/
def execCas (h : Hart) (w : Opnd) (s : State) := atomic 0x12 (fun c old => if old = c.x w.d then c.x w.b else old) h w s

end Sys2Proof.Machine
end

