-- ==== Sys2Proof/Machine/Vector.lean ====
section
/-!
DEFINITION. Vector arithmetic, GROUP 0x3 (R134 to R137, R55). A BF16 lane is computed as the FP32 pattern that holds it
and rounded once to 8 significand bits.
-/
namespace Sys2Proof.Machine

/-- BF16 lanes: FMT 0b01 (R134). -/
def isBf (w : Opnd) : Bool := mod w 31 30 == 1
/-- Significand bits of the lane format. -/
def prec (bf : Bool) : Nat := if bf then 8 else 24
/-- Lane width in bits. -/
def laneW (bf : Bool) : Nat := if bf then 16 else 32
/-- Lane count L (R134). -/
def laneN (bf : Bool) : Nat := if bf then 128 else 64
/-- A lane as an FP32 pattern. -/
def fp (bf : Bool) (v k : Nat) : Nat := if bf then bfTo32 (lane 16 v k) else lane 32 v k

/-- MOD of a vector instruction: FMT at most 0b01, SUB as allowed, all else 0 (R134, R118). -/
def vmodOk (sub : Nat) (w : Opnd) : Bool := decide (mod w 31 30 ≤ 1) && decide (mod w 29 26 ≤ sub) && mod w 25 0 == 0

/-- Which of vB and vC an instruction reads; vD and vA always. -/
def vlegal (b c : Bool) (sub : Nat) (w : Opnd) : Bool := fieldsOk true true b c w (vmodOk sub w)

/-- vD ← f lane by lane (R134). -/
def lanewise (op : Nat) (b c : Bool) (sub : Nat) (f : Ctx → Opnd → Nat → Nat) (h : Hart) (w : Opnd) (s : State) :
    Host.Outcome State Fault Refusal :=
  issue 0x3 op (vlegal b c sub w) true h w (fun x =>
    .done (x.writeV w.d (ofLanes (laneW (isBf w)) ((List.range (laneN (isBf w))).map (f x w))) x.e)) s

/-- Lane k of vA, vB, vC as FP32 patterns. -/
def la (x : Ctx) (w : Opnd) (k : Nat) : Nat := fp (isBf w) (x.v w.a) k
/-- Lane k of vB. -/
def lb (x : Ctx) (w : Opnd) (k : Nat) : Nat := fp (isBf w) (x.v w.b) k
/-- Lane k of vC. -/
def lc (x : Ctx) (w : Opnd) (k : Nat) : Nat := fp (isBf w) (x.v w.c) k
/-- Raw lane k of a register. -/
def raw (x : Ctx) (w : Opnd) (r : BitVec 5) (k : Nat) : Nat := lane (laneW (isBf w)) (x.v r) k

/-- Order with -0 below +0, as VMIN and VMAX take it (R135). -/
def fpKey (x : Nat) : Int := if fpNeg x then - (fld x 30 0 : Int) - 1 else fld x 30 0

/-- VMIN and VMAX of raw lanes r, t with FP32 patterns a, b (R135). -/
def fpPick (p : Nat) (takeLow : Bool) (a b r t : Nat) : Nat :=
  if fpNan a && fpNan b then fpNanBits p
  else if fpNan a then t
  else if fpNan b then r
  else if decide (fpKey a ≤ fpKey b) == takeLow then r else t

/-- VADD (R134). -/
def execVadd (h : Hart) (w : Opnd) (s : State) :=
  lanewise 0x00 true false 0 (fun x w k => fpAdd (prec (isBf w)) (la x w k) (lb x w k)) h w s
/-- VSUB (R134). -/
def execVsub (h : Hart) (w : Opnd) (s : State) :=
  lanewise 0x01 true false 0 (fun x w k => fpSub (prec (isBf w)) (la x w k) (lb x w k)) h w s
/-- VMUL (R134). -/
def execVmul (h : Hart) (w : Opnd) (s : State) :=
  lanewise 0x02 true false 0 (fun x w k => fpMul (prec (isBf w)) (la x w k) (lb x w k)) h w s
/-- VFMA (R134). -/
def execVfma (h : Hart) (w : Opnd) (s : State) :=
  lanewise 0x03 true true 0 (fun x w k => fpFma (prec (isBf w)) (la x w k) (lb x w k) (lc x w k)) h w s
/-- VDIV (R134). -/
def execVdiv (h : Hart) (w : Opnd) (s : State) :=
  lanewise 0x04 true false 0 (fun x w k => fpDiv (prec (isBf w)) (la x w k) (lb x w k)) h w s
/-- VSQRT (R134). -/
def execVsqrt (h : Hart) (w : Opnd) (s : State) :=
  lanewise 0x05 false false 0 (fun x w k => fpSqrt (prec (isBf w)) (la x w k)) h w s
/-- VMIN (R135). -/
def execVmin (h : Hart) (w : Opnd) (s : State) :=
  lanewise 0x06 true false 0 (fun x w k => fpPick (prec (isBf w)) true (la x w k) (lb x w k) (raw x w w.a k) (raw x w w.b k)) h w s
/-- VMAX (R135). -/
def execVmax (h : Hart) (w : Opnd) (s : State) :=
  lanewise 0x07 true false 0 (fun x w k => fpPick (prec (isBf w)) false (la x w k) (lb x w k) (raw x w w.a k) (raw x w w.b k)) h w s
/-- The sign bit of a lane. -/
def signBit (w : Opnd) : Nat := 2 ^ (laneW (isBf w) - 1)
/-- VNEG: the sign bit inverted (R134). -/
def execVneg (h : Hart) (w : Opnd) (s : State) :=
  lanewise 0x08 false false 0 (fun x w k => raw x w w.a k ^^^ signBit w) h w s
/-- VABS: the sign bit cleared (R134). -/
def execVabs (h : Hart) (w : Opnd) (s : State) :=
  lanewise 0x09 false false 0 (fun x w k => raw x w w.a k % signBit w) h w s

/-- e^x of an FP32 pattern, rounded once to p bits (R72, R136). -/
def fpExpOf (p x : Nat) : Nat :=
  if fpNan x then fpNanBits p
  else
    let d := if fpInf x then (if fpNeg x then -expLim else expLim) else clampInt (-expLim) expLim (rne (fpVal x) (2 ^ 125))
    (expRound p (expKernel d)).bits

/-- VEXP (R136). -/
def execVexp (h : Hart) (w : Opnd) (s : State) :=
  lanewise 0x0A false false 0 (fun x w k => fpExpOf (prec (isBf w)) (la x w k)) h w s

/-- VCMP predicates: 0 EQ, 1 NE, 2 LT, 3 LE, 4 UNORDERED (Table 4.8, R135). -/
def fpPred (sub a b : Nat) : Bool :=
  if fpNan a || fpNan b then sub == 1 || sub == 4
  else match sub with
    | 0 => fpEq a b
    | 1 => !fpEq a b
    | 2 => fpLt a b
    | 3 => !fpLt b a
    | _ => false

/-- VCMP (R135). -/
def execVcmp (h : Hart) (w : Opnd) (s : State) :=
  lanewise 0x0B true false 4 (fun x w k => if fpPred (mod w 29 26) (la x w k) (lb x w k) then 2 ^ laneW (isBf w) - 1 else 0) h w s
/-- VSEL (R134). -/
def execVsel (h : Hart) (w : Opnd) (s : State) :=
  lanewise 0x0C true true 0 (fun x w k => if raw x w w.c k ≠ 0 then raw x w w.a k else raw x w w.b k) h w s

/-- FP32 to signed 32-bit integer: saturating, NaN gives 0 (R137). -/
def fpToInt (x : Nat) : Nat :=
  if fpNan x then 0
  else if fpInf x then (if fpNeg x then 2 ^ 31 else 2 ^ 31 - 1)
  else ofSigned 32 (clampInt (-(2 ^ 31)) (2 ^ 31 - 1) (rne (fpVal x) (2 ^ 149)))

/-- Signed 32-bit integer to FP32 (R137). -/
def intToFp (x : Nat) : Nat := (fpRoundInt 24 false (toSigned 32 x * 2 ^ 149) 1).bits

/-- VCVT's result register by SUB (R137). -/
def vcvt (sub va vb : Nat) : Nat :=
  match sub with
  | 0 => ofLanes 16 ((List.range 128).map (fun k => fpConv 8 (if k < 64 then lane 32 va k else lane 32 vb (k - 64))))
  | 1 => ofLanes 32 ((List.range 64).map (fun k => fpConv 24 (bfTo32 (lane 16 va k))))
  | 2 => ofLanes 32 ((List.range 64).map (fun k => fpConv 24 (bfTo32 (lane 16 va (64 + k)))))
  | 3 => ofLanes 32 ((List.range 64).map (fun k => fpToInt (lane 32 va k)))
  | _ => ofLanes 32 ((List.range 64).map (fun k => intToFp (lane 32 va k)))

/-- VCVT: FMT 0b00, SUB 0 to 4; vB is used by SUB 0 only (R137). -/
def execVcvt (h : Hart) (w : Opnd) (s : State) : Host.Outcome State Fault Refusal :=
  issue 0x3 0x0D (vlegal (mod w 29 26 == 0) false 4 w && !isBf w) true h w (fun x =>
    .done (x.writeV w.d (vcvt (mod w 29 26) (x.v w.a) (x.v w.b)) x.e)) s

/-- VLOG's operation by SUB: 0 AND, 1 OR, 2 XOR (Table 4.8). -/
def logOp (sub a b : Nat) : Nat :=
  match sub with
  | 0 => a &&& b
  | 1 => a ||| b
  | _ => a ^^^ b

/-- VLOG (R134). -/
def execVlog (h : Hart) (w : Opnd) (s : State) :=
  lanewise 0x0E true false 2 (fun x w k => logOp (mod w 29 26) (raw x w w.a k) (raw x w w.b k)) h w s

/-- VBCAST: OPA names a scalar register (R134). -/
def execVbcast (h : Hart) (w : Opnd) (s : State) :=
  lanewise 0x10 false false 0 (fun x w _ => x.xn w.a % 2 ^ laneW (isBf w)) h w s

/-- VEXT: lane MOD[6:0] of vA, zero-extended, into the scalar register OPD; the index is below the lane count (R134). -/
def execVext (h : Hart) (w : Opnd) (s : State) : Host.Outcome State Fault Refusal :=
  issue 0x3 0x11 (fieldsOk true true false false w
      (decide (mod w 31 30 ≤ 1) && mod w 29 7 == 0 && decide (mod w 6 0 < laneN (isBf w)))) true h w (fun x =>
    .done (x.writeX w.d (BitVec.ofNat 64 (raw x w w.a (mod w 6 0))) x.e)) s

/-- VMOV (R134). -/
def execVmov (h : Hart) (w : Opnd) (s : State) := lanewise 0x12 false false 0 (fun x w k => raw x w w.a k) h w s
/-- VPERM: lane k ← lane (vB[k] mod L) of vA (R134). -/
def execVperm (h : Hart) (w : Opnd) (s : State) :=
  lanewise 0x13 true false 0 (fun x w k => raw x w w.a (raw x w w.b k % laneN (isBf w))) h w s

end Sys2Proof.Machine
end

