-- ==== Sys2Proof/Machine/VectorAccess.lean ====
section
/-!
DEFINITION. Vector scratchpad access, GROUP 0x1 OP 0x20 to 0x30 (Table 4.5, R128, R151, R159), and the block arrays
that block instructions read (R53, R122).
-/
namespace Sys2Proof.Machine

/-- Byte address of word k of row j of the panel at `p` (R151). -/
def rowWord (p j k : Nat) : Nat := p + 256 * j + 8 * k
/-- Byte address of word k of column j of the panel at `p` (R151). -/
def colWord (p j k : Nat) : Nat := p + 256 * k + 8 * j

/-- The first of the 32 word addresses whose bytes lie outside the claim (R119). -/
def Ctx.firstOutsideWords (c : Ctx) (addr : Nat → Nat) : Option Nat :=
  (List.range 32).findSome? (fun k => c.ti.firstOutside c.i (addr k) 8)

/-- 32 words read into vD (Table 4.5): waits on a filling granule, raises at the first uncorrectable word. -/
def loadWords (c : Ctx) (vd : BitVec 5) (addr : Nat → Nat) : Iss :=
  match c.firstOutsideWords addr with
  | some b => .exc .claimViolation (wordAddr b)
  | none =>
    if (List.range 32).any (fun k => c.ti.fillingIn (addr k) 8) then .wait c.e
    else match (List.range 32).findSome? (fun k => c.ti.firstBad (addr k) 8) with
      | some w => .exc .sramUncorr w
      | none =>
        let used := (List.range 32).any (fun k => c.ti.pendingDrd (addr k) 8)
        let e := if used then { c.e with freeCtr := c.e.freeCtr + 2 ^ 21 } else c.e
        let word (k : Nat) : Nat := leNat (c.bytes (addr k) 8)
        .done (c.writeV vd (ofLanes 64 ((List.range 32).map word)) e)

/-- 32 words of vC stored (Table 4.5). A later word of the same address wins. -/
def storeWords (c : Ctx) (vc : BitVec 5) (addr : Nat → Nat) : Iss :=
  match c.firstOutsideWords addr with
  | some b => .exc .claimViolation (wordAddr b)
  | none =>
    match (List.range 32).find? (fun k => c.ti.fillingIn (addr k) 8) with
    | some k => .exc .claimViolation (wordAddr (addr k))
    | none => .done (c.modTile (fun ti => (List.range 32).foldl (fun ti k => ti.store (addr k) (natBytes (lane 64 (c.v vc) k) 8)) ti))

/-- Panel forms: xA aligned to 8 KiB, IMM[4:0] the row or column, IMM[31:5] 0 (R126). -/
def panelLoad (op : Nat) (addr : Nat → Nat → Nat → Nat) (h : Hart) (w : Opnd) (s : State) : Host.Outcome State Fault Refusal :=
  issue 0x1 op (fieldsOk true true false false w (mod w 31 5 == 0)) true h w (fun c =>
    aligned (c.xn w.a) 8192 (loadWords c w.d (addr (c.xn w.a) (mod w 4 0)))) s

/-- Panel stores name their source in OPC. -/
def panelStore (op : Nat) (addr : Nat → Nat → Nat → Nat) (h : Hart) (w : Opnd) (s : State) : Host.Outcome State Fault Refusal :=
  issue 0x1 op (fieldsOk false true false true w (mod w 31 5 == 0)) true h w (fun c =>
    aligned (c.xn w.a) 8192 (storeWords c w.c (addr (c.xn w.a) (mod w 4 0)))) s

/-- Word k of a strided access: xA + k * xB modulo 2^64 (Table 4.5). -/
def strided (a b k : Nat) : Nat := (a + k * b) % 2 ^ 64

/-- VLDR (Table 4.5, R159). -/
def execVldr (h : Hart) (w : Opnd) (s : State) := panelLoad 0x20 rowWord h w s
/-- VLDC (Table 4.5, R159). -/
def execVldc (h : Hart) (w : Opnd) (s : State) := panelLoad 0x21 colWord h w s
/-- VLDS: xA and xB multiples of 8 (Table 4.5, R159). -/
def execVlds (h : Hart) (w : Opnd) (s : State) : Host.Outcome State Fault Refusal :=
  issue 0x1 0x22 (fieldsOk true true true false w (w.imm == 0)) true h w (fun c =>
    aligned (c.xn w.a) 8 <| c.checkFree (c.xn w.b % 8 == 0) .misaligned <| loadWords c w.d (strided (c.xn w.a) (c.xn w.b))) s
/-- VSTR (Table 4.5, R159). -/
def execVstr (h : Hart) (w : Opnd) (s : State) := panelStore 0x28 rowWord h w s
/-- VSTC (Table 4.5, R159). -/
def execVstc (h : Hart) (w : Opnd) (s : State) := panelStore 0x29 colWord h w s
/-- VSTS (Table 4.5, R159). -/
def execVsts (h : Hart) (w : Opnd) (s : State) : Host.Outcome State Fault Refusal :=
  issue 0x1 0x2A (fieldsOk false true true true w (w.imm == 0)) true h w (fun c =>
    aligned (c.xn w.a) 8 <| c.checkFree (c.xn w.b % 8 == 0) .misaligned <| storeWords c w.c (strided (c.xn w.a) (c.xn w.b))) s

/-! ### Blocks in scratchpad (R53, R93, R122, R123) -/

/-- A block format: element bits, or BF16. -/
inductive Fmt where
  | int (n : Nat)
  | bf16
deriving DecidableEq, Repr

/-- The format of a code of Table 4.3. -/
def fmtOf (code : Nat) : Option Fmt :=
  if code < 8 then some (.int (code + 1))
  else if code = 8 then some (.int 4)
  else if code = 9 then some (.int 8)
  else if code = 10 then some .bf16
  else none

/-- Element bits b (Table 4.3). -/
def Fmt.bits : Fmt → Nat
  | .int n => n
  | .bf16 => 16

/-- Bytes of one block's element field in operand form. -/
def Fmt.bytes (f : Fmt) : Nat := 8 * blockWords f.bits

/-- Bytes of a block array of n blocks (R122). -/
def arrayBytes (f : Fmt) (n : Nat) : Nat := n * f.bytes + 8 * ceilDiv n 2

/-- A block as read: its element field, and the low 20 bits of its tag slot. -/
structure RawBlock where
  field : Nat
  tag : Nat
deriving DecidableEq, Repr

/-- S12 code or BF16 marker of a block. -/
def RawBlock.code (b : RawBlock) : Nat := fld b.tag 11 0
/-- Stored residue. -/
def RawBlock.stored (b : RawBlock) : Nat := fld b.tag 19 12
/-- Elements as integers: two's complement, or the 16-bit codes of BF16 (R67, R93). -/
def RawBlock.ints (b : RawBlock) (f : Fmt) : List Int :=
  match f with
  | .int n => blockElems n b.field
  | .bf16 => (List.range 32).map (fun i => (lane 16 b.field i : Int))
/-- Computed residue (R67, R93). -/
def RawBlock.residue (b : RawBlock) (f : Fmt) : Nat := blockResidue (b.ints f) b.code
/-- Does the residue agree with the tag (R69)? -/
def RawBlock.good (b : RawBlock) (f : Fmt) : Bool := b.residue f == b.stored
/-- Is the block poisoned: scale 127, or a BF16 marker other than 0 (R51, R93)? -/
def RawBlock.poisoned (b : RawBlock) (f : Fmt) : Bool :=
  match f with
  | .int _ => scalePoison b.code
  | .bf16 => b.code != 0
/-- A block from its bytes and its tag's bytes. -/
def rawBlock (f : Fmt) (el tag : List Byte) : RawBlock :=
  { field := leNat el % 2 ^ (32 * f.bits), tag := leNat tag % 2 ^ 20 }
/-- Block j of the array whose bytes are given (R122). -/
def arrayBlock (f : Fmt) (n : Nat) (bs : List Byte) (j : Nat) : RawBlock :=
  rawBlock f ((bs.drop (j * f.bytes)).take f.bytes) ((bs.drop (n * f.bytes + 4 * j)).take 4)
/-- The blocks of an array. -/
def arrayBlocks (f : Fmt) (n : Nat) (bs : List Byte) : List RawBlock := (List.range n).map (arrayBlock f n bs)

/-- Exact FP32 pattern of element v of a block with code s (R51, R128). -/
def unpackElem (s : Nat) (v : Int) : Nat :=
  if scaleZero s then 0
  else if scalePoison s then fpNanBits 24
  else (fpRoundInt 24 false (v * (32 + scaleFrac s) * 2 ^ (scaleExp s + 81)) 1).bits

/-- VUNPK (R128). -/
def execVunpk (h : Hart) (w : Opnd) (s : State) : Host.Outcome State Fault Refusal :=
  issue 0x1 0x30 (fieldsOk true true true false w (mod w 31 5 == 0 && decide (mod w 3 0 ≤ 9))) true h w (fun c =>
    let f := (fmtOf (mod w 3 0)).getD (.int 1)
    let a := c.xn w.a
    let t := c.xn w.b
    aligned a 8 <| aligned t 4 <| c.claim a f.bytes <| c.claim t 4 <| c.reading a f.bytes <| c.reading t 4 <|
      let (el, c) := c.take a f.bytes
      let (tag, c) := c.take t 4
      let b := rawBlock f el tag
      check (b.good f) .residue (wordAddr a) <|
        let half := mod w 4 4
        let old := c.v w.d
        let new := (b.ints f).map (unpackElem b.code)
        let lanes := (List.range 64).map (fun k => if k / 32 = half then new.getD (k % 32) 0 else lane 32 old k)
        .done (c.writeV w.d (ofLanes 32 lanes) c.e)) s

end Sys2Proof.Machine
end

