-- ==== Sys2Proof/Machine/LongReg.lean ====
section
/-!
DEFINITION. Long registers, GROUP 0x5 (R138 to R141): LPLACE, emits and divide-emits with their norm-watch tallies (R64,
R81), LEXP, LCLR, LEXPECT, and FOLDS (R217 to R220).
-/
namespace Sys2Proof.Machine

/-! ### MOD (Table 4.9) -/

/-- BANK. -/
def lBank (w : Opnd) : Nat := mod w 31 30
/-- START. -/
def lStart (w : Opnd) : Nat := mod w 29 23
/-- CNT: registers minus 1. -/
def lCnt (w : Opnd) : Nat := mod w 22 16
/-- START + CNT lies within 0 to 127 (R138). -/
def lRange (w : Opnd) : Bool := decide (lStart w + lCnt w ≤ 127)
/-- The registers of the range. -/
def lIdx (w : Opnd) : List Nat := (List.range (lCnt w + 1)).map (· + lStart w)
/-- LDIV: DBANK and DIDX are 0 where the divisor is AD. -/
def ldivMod (w : Opnd) : Bool := (modBit w 13 || mod w 12 4 == 0) && mod w 3 0 == 0

/-- Registers of the range as the tile holds them. -/
def lRegs (c : Ctx) (w : Opnd) : List LReg := (lIdx w).map (c.ti.lreg (lBank w))

/-- DETAIL of a mismatch in register i of bank b (Table 3.9a). -/
def lDetail (b i : Nat) : Nat := b + 4 * i

/-- R65, R71: the first register of the range whose RES disagrees, as DETAIL. -/
def lMismatch (c : Ctx) (w : Opnd) : Option Nat :=
  ((lIdx w).find? (fun i => !(c.ti.lreg (lBank w) i).ok)).map (lDetail (lBank w))

/-- Adds applied to the long registers of bank b, in order. -/
def Tile.addAll (ti : Tile) (b : Nat) (l : List Add) : Tile :=
  l.foldl (fun ti a => ti.setLreg b a.reg ((ti.lreg b a.reg).add a).1) ti

/-- LPLACE (R56, R138). -/
def execLplace (h : Hart) (w : Opnd) (s : State) : Host.Outcome State Fault Refusal :=
  issue 0x5 0x00 (fieldsOk false true false false w (lRange w && decide (lCnt w ≤ 63) && (modBit w 15 || !modBit w 14) && mod w 12 0 == 0)) true h w
    (fun c => c.granted (lBank w) <|
      let bf := modBit w 15
      let adds := (lIdx w).map (fun i =>
        let j := i - lStart w
        placeAdd i (if bf then bfTo32 (lane 16 (c.v w.a) (64 * mod w 14 14 + j)) else lane 32 (c.v w.a) j))
      .done (c.modTile (fun ti =>
        let ti := if modBit w 13 then (lIdx w).foldl (fun ti i => ti.setLreg (lBank w) i {}) ti else ti
        ti.addAll (lBank w) adds))) s

/-! ### Outcomes and tallies (R64, R81) -/

/-- What one emit adds to a tally: the squares of its values in units of 2^-298, their number, its outcomes. -/
def Tally.plus (a b : Tally) : Tally := { sq := a.sq + b.sq, cnt := a.cnt + b.cnt, van := a.van + b.van, sat := a.sat + b.sat }

/-- The square of an emitted FP32 pattern in units of 2^-298; an infinity counts above every finite sum (log 23). -/
def squareOf (x : Nat) : Nat := if fpInf x then 2 ^ 700 else fpMag x * fpMag x

/-- Tally of a scalar emit whose result is the FP32 pattern x; a NaN (poison) adds nothing (R81). -/
def tallyScalar (x : Nat) (r : Rounded) : Tally :=
  if fpNan x then {} else { sq := squareOf x, cnt := 1, van := bnat r.van, sat := bnat r.sat }

/-- Tally of a block emit (R81). -/
def tallyBlock (b : Block) : Tally :=
  match b.outcome with
  | .poisoned => {}
  | o => { sq := ((b.elems.map (fun v => (v.natAbs * (32 + scaleFrac b.code)) ^ 2)).foldl (· + ·) 0) * 2 ^ (2 * scaleExp b.code + 162)
           cnt := 32, van := bnat (o == .vanished), sat := bnat (o == .saturated) }

/-- Key of a tally: 0 for the whole entry, 1 + n for batch entry n. -/
def tallyKey (entry sub : Nat) : Nat := entry * 4097 + sub

/-- The emit's tally added to the entry that xC names, and to the batch entry it names (R64, R81, R138). -/
def Engine.tallyAdd (e : Engine) (p : Nat) (nwe : Bool) (xc : Word) (t : Tally) : Engine :=
  if nwe then
    e.modPart p (fun q =>
      let entry := fld xc.toNat 8 0
      let be := fld xc.toNat 27 16
      let m := mmod (fun _ => {}) (tallyKey entry 0) (·.plus t) q.tally
      let n := match q.step with | some s => s.batch.length | none => 0
      { q with tally := if bitAt xc.toNat 31 && decide (be < n) then mmod (fun _ => {}) (tallyKey entry (1 + be)) (·.plus t) m else m })
  else e

/-- The outcomes counted in codes 12 and 13 (Table 4.7) and in the norm-watch tallies. -/
def Ctx.counted (c : Ctx) (w : Opnd) (t : Tally) (e : Engine) : Engine :=
  (e.modTile c.h.loc (fun ti => (ti.count 12 t.van).count 13 t.sat)).tallyAdd c.i.part (modBit w 14) (c.x w.c) t

/-! ### Emits (R61, R62, R140) -/

/-- The scalar forms: lane j of vD ← f of register j; other lanes unchanged. -/
def emitLanes (c : Ctx) (w : Opnd) (f : LReg → Rounded) : Iss :=
  let bf := modBit w 15
  let rs := (lRegs c w).map f
  let old := c.v w.d
  let lanes := (List.range (laneN bf)).map (fun k => match rs[k]? with | some r => r.bits | none => lane (laneW bf) old k)
  let t := rs.foldl (fun a r => a.plus (tallyScalar (if bf then bfTo32 r.bits else r.bits) r)) ({} : Tally)
  .done (c.counted w t (c.writeV w.d (ofLanes (laneW bf) lanes) c.e))

/-- Target checks of the block forms: elements at xA (8-aligned), tag at xB (4-aligned) (Table 4.10, R119). -/
def blockTarget (c : Ctx) (w : Opnd) (k : Iss) : Iss :=
  let n := if modBit w 15 then 16 else 32
  aligned (c.xn w.a) 8 <| aligned (c.xn w.b) 4 <| c.claim (c.xn w.a) n <| c.claim (c.xn w.b) 4 <|
    c.notFilling (c.xn w.a) n <| c.notFilling (c.xn w.b) 4 k

/-- Tag word of a block with its residue (Table 2.3, R67). -/
def tagOf (b : Block) : Nat := blockResidue b.elems b.code * 4096 + b.code

/-- A block written to xA and xB in operand form (R53). -/
def emitTo (c : Ctx) (w : Opnd) (b : Block) : Iss :=
  let bits := if modBit w 15 then 4 else 8
  let e := c.modTile (fun ti =>
    (ti.store (c.xn w.a) (natBytes (blockField bits b.elems) (8 * blockWords bits))).store (c.xn w.b) (natBytes (tagOf b) 4))
  .done (c.counted w (tallyBlock b) e)

/-- Q of the target (R62). -/
def emitQ (w : Opnd) : Nat := if modBit w 15 then 7 else 127

/-- Scalar emit of one register (R61). -/
def emitOne (w : Opnd) (r : LReg) : Rounded :=
  if r.poison then { bits := fpNanBits (prec (modBit w 15)) } else emitScalar (prec (modBit w 15)) r.n 1

/-- LEMIT.S (R61, R65, R140). OPC may name any register also where NWE is 0 (DEDUCED, log 136). -/
def execLemitS (h : Hart) (w : Opnd) (s : State) : Host.Outcome State Fault Refusal :=
  issue 0x5 0x01 (fieldsOk true false false true w (lRange w && decide (lCnt w ≤ 63) && mod w 13 0 == 0)) true h w (fun c =>
    c.granted (lBank w) <|
    if c.ti.bankBusy (lBank w) then .wait c.e
    else match lMismatch c w with
      | some d => .exc .residue d
      | none => emitLanes c w (emitOne w)) s

/-- LEMIT.B (R62, R65, R140). It names no vector register and needs no bound context (DEDUCED, log 136). -/
def execLemitB (h : Hart) (w : Opnd) (s : State) : Host.Outcome State Fault Refusal :=
  issue 0x5 0x02 (fieldsOk false true true true w (lRange w && lCnt w == 31 && mod w 13 0 == 0)) false h w (fun c =>
    c.granted (lBank w) <| blockTarget c w <|
    if c.ti.bankBusy (lBank w) then .wait c.e
    else match lMismatch c w with
      | some d => .exc .residue d
      | none =>
        if (lRegs c w).any (·.poison) then emitTo c w poisonBlock
        else emitTo c w (emitBlock (emitQ w) ((lRegs c w).map (·.n)) 1)) s

/-- The divisor: AD, or a long register (R140). -/
def divisor (c : Ctx) (w : Opnd) : LReg := if modBit w 13 then c.ti.lreg (mod w 12 11) (mod w 10 4) else c.ti.ad

/-- The divisor's bank is granted (R140). -/
def divisorGranted (c : Ctx) (w : Opnd) (k : Iss) : Iss := if modBit w 13 then c.granted (mod w 12 11) k else k

/-- The divisor must wait: its bank (R98), or an attention pass that has not ended (R140). -/
def divisorBusy (c : Ctx) (w : Opnd) : Bool := if modBit w 13 then c.ti.bankBusy (mod w 12 11) else !c.ti.attQ.isEmpty

/-- Residue checks of a divide-emit: the sources, then the divisor (R65, Table 3.9a: bit 9 for AD). -/
def ldivMismatch (c : Ctx) (w : Opnd) : Option Nat :=
  match lMismatch c w with
  | some d => some d
  | none => if (divisor c w).ok then none else some (if modBit w 13 then lDetail (mod w 12 11) (mod w 10 4) else 2 ^ 9)

/-- Can the divisor divide (R75)? -/
def divisorOk (b : LReg) : Bool := !b.poison && decide (0 < b.n)

/-- Scalar divide-emit of one register (R75). -/
def ldivOne (w : Opnd) (b r : LReg) : Rounded :=
  if r.poison || !divisorOk b then { bits := fpNanBits (prec (modBit w 15)) }
  else
    let k := recipKernel b.n.toNat
    emitScalar (prec (modBit w 15)) (divideNum r.n k.1) (divideDen k.2)

/-- LDIV.S (R75, R140). OPC as for LEMIT.S (DEDUCED, log 136). -/
def execLdivS (h : Hart) (w : Opnd) (s : State) : Host.Outcome State Fault Refusal :=
  issue 0x5 0x03 (fieldsOk true false false true w (lRange w && decide (lCnt w ≤ 63) && ldivMod w)) true h w (fun c =>
    c.granted (lBank w) <| divisorGranted c w <|
    if c.ti.bankBusy (lBank w) || divisorBusy c w then .wait c.e
    else match ldivMismatch c w with
      | some d => .exc .residue d
      | none => emitLanes c w (ldivOne w (divisor c w))) s

/-- Block divide-emit (R75). -/
def ldivBlock (q : Nat) (b : LReg) (rs : List LReg) : Block :=
  if rs.any (·.poison) || !divisorOk b then poisonBlock
  else
    let k := recipKernel b.n.toNat
    emitBlock q (rs.map (fun r => divideNum r.n k.1)) (divideDen k.2)

/-- LDIV.B (R75, R140). No bound context, as for LEMIT.B (DEDUCED, log 136). -/
def execLdivB (h : Hart) (w : Opnd) (s : State) : Host.Outcome State Fault Refusal :=
  issue 0x5 0x04 (fieldsOk false true true true w (lRange w && lCnt w == 31 && ldivMod w)) false h w (fun c =>
    c.granted (lBank w) <| divisorGranted c w <| blockTarget c w <|
    if c.ti.bankBusy (lBank w) || divisorBusy c w then .wait c.e
    else match ldivMismatch c w with
      | some d => .exc .residue d
      | none => emitTo c w (ldivBlock (emitQ w) (divisor c w) (lRegs c w))) s

/-- LEXP of one register: R73 with the clamp, the kernel, one rounding; poison gives the canonical NaN. -/
def lexpOne (p : Nat) (r : LReg) : Nat :=
  if r.poison then fpNanBits p else (expRound p (expKernel (expInput (-expLim) expLim r.n))).bits

/-- LEXP (R138, R140). -/
def execLexp (h : Hart) (w : Opnd) (s : State) : Host.Outcome State Fault Refusal :=
  issue 0x5 0x05 (fieldsOk true false false false w (lRange w && decide (lCnt w ≤ 63) && mod w 14 0 == 0)) true h w (fun c =>
    c.granted (lBank w) <|
    if c.ti.bankBusy (lBank w) then .wait c.e
    else match lMismatch c w with
      | some d => .exc .residue d
      | none =>
        let bf := modBit w 15
        let rs := (lRegs c w).map (lexpOne (prec bf))
        let old := c.v w.d
        .done (c.writeV w.d (ofLanes (laneW bf) ((List.range (laneN bf)).map (fun k => rs[k]?.getD (lane (laneW bf) old k)))) c.e)) s

/-- LCLR (R96, R139). -/
def execLclr (h : Hart) (w : Opnd) (s : State) : Host.Outcome State Fault Refusal :=
  issue 0x5 0x08 (fieldsOk false false false false w (lRange w && mod w 15 0 == 0)) false h w (fun c =>
    c.granted (lBank w) <|
    if c.ti.bankBusy (lBank w) then .wait c.e
    else .done (c.modTile (fun ti => (lIdx w).foldl (fun ti i => ti.setLreg (lBank w) i {}) ti))) s

/-- LEXPECT (R98, R139). -/
def execLexpect (h : Hart) (w : Opnd) (s : State) : Host.Outcome State Fault Refusal :=
  issue 0x5 0x09 (fieldsOk false false false false w (mod w 29 16 == 0)) false h w (fun c =>
    c.granted (lBank w) <|
    if c.ti.bankBusy (lBank w) then .wait c.e
    else .done (c.modTile (fun ti => { ti with pend := mset (fun _ => 0) (lBank w) (mod w 15 0) ti.pend }))) s

/-! ### FOLDS (R141, R217 to R220) -/

/-- A reduction descriptor's address in the reserved area (R218). -/
def redAddr (n : Nat) : Nat := 0x1E0000 + 128 * n

/-- A reduction descriptor's first 8 bytes, and its owner entries (Table 7.4). -/
structure RedDesc where
  head : Nat
  owners : List Nat
deriving DecidableEq, Repr

/-- Descriptor n of a tile. -/
def Tile.red (ti : Tile) (n : Nat) : RedDesc :=
  { head := readNat ti.sp (redAddr n) 8, owners := (List.range 30).map (fun k => readNat ti.sp (redAddr n + 8 + 4 * k) 4) }

/-- WLO. -/
def RedDesc.wlo (r : RedDesc) : Nat := fld r.head 61 59
/-- WCNT. -/
def RedDesc.wcnt (r : RedDesc) : Nat := fld r.head 58 56
/-- Partials per owner. -/
def RedDesc.per (r : RedDesc) : Nat := fld r.head 46 40 + 1
/-- VALID, with an encoding that is not reserved (R218). -/
def RedDesc.valid (r : RedDesc) : Bool := bitAt r.head 63 && r.wcnt != 0 && decide (r.wlo + r.wcnt ≤ 6)

/-- Virtual tile word of owner k (R219), or none beyond the list. -/
def RedDesc.owner (r : RedDesc) (k : Nat) : Option Nat :=
  if bitAt r.head 62 then (r.owners[k]?).map (fun x => fld x 23 0)
  else
    let nx := fld r.head 22 18 + 1
    let ny := fld r.head 17 13 + 1
    some (vword (fld r.head 39 33 + k / (nx * ny)) (fld r.head 32 28 + (k % nx) * fld r.head 12 8)
      (fld r.head 27 23 + ((k / nx) % ny) * fld r.head 7 3))

/-- Does N fit window (WLO, WCNT) (R217)? -/
def fits (wlo wcnt : Nat) (n : Int) : Bool :=
  n % 2 ^ (64 * wlo) == 0 && decide (-(2 ^ (64 * (wlo + wcnt) - 1)) ≤ n) && decide (n < 2 ^ (64 * (wlo + wcnt) - 1))

/-- What FOLDS has done so far: flits sent (newest first), the open flit with its owner and group, registers cleared,
the register whose residue disagreed. -/
structure FoldRun where
  sent : List (Nat × Flit) := []
  opened : Option (Nat × Nat × Flit) := none
  cleared : List Nat := []
  bad : Option Nat := none

/-- The open flit sent. -/
def FoldRun.close (f : FoldRun) : FoldRun :=
  match f.opened with
  | some (k, _, fl) => { f with sent := (k, fl) :: f.sent, opened := none }
  | none => f

/-- One register of a FOLDS (R220): partial j of value v. Nothing more happens after a residue mismatch (R120). -/
def foldOne (r : RedDesc) (j i : Nat) (v : LReg) (f : FoldRun) : FoldRun :=
  if f.bad.isSome then f
  else if !v.ok then { f with bad := some i }
  else
    let bank := fld r.head 55 54
    let oreg := fld r.head 53 47
    let kslots := 6 / r.wcnt
    let k := j / r.per
    let reg := oreg + j % r.per
    let g := (reg - oreg) / kslots
    let s := (reg - oreg) % kslots
    let f := match f.opened with
      | some (k', g', _) => if k' = k ∧ g' = g then f else f.close
      | none => f
    let f := { f with cleared := i :: f.cleared }
    if v.poison || fits r.wlo r.wcnt v.n then
      let base : Flit := match f.opened with
        | some (_, _, fl) => fl
        | none => { bank := bank, reg := oreg + kslots * g, wlo := r.wlo, wcnt := r.wcnt, whole := false, count := 1, slots := [] }
      let slot := if v.poison then (s, (0 : Int), 0xFF) else (s, v.n / 2 ^ (64 * r.wlo), v.res)
      { f with opened := some (k, g, { base with slots := base.slots ++ [slot] }) }
    else
      { f with sent := (k, { bank := bank, reg := reg, wlo := 0, wcnt := 6, whole := true, count := 1, slots := [(0, v.n, v.res)] }) :: f.sent }

/-- The sender's procedure over the range (R220). -/
def foldRun (c : Ctx) (w : Opnd) (r : RedDesc) : FoldRun :=
  let f := (lIdx w).foldl (fun f i => foldOne r (i - lStart w) i (c.ti.lreg (lBank w) i) f) {}
  if f.bad.isSome then f else f.close

/-- A packet injected by the router of tile t for virtual tile word v of partition p: translated, or consumed and counted
in IDLE_DROP where the virtual tile is not mapped (R211). -/
def Engine.inject (e : Engine) (t : Loc) (p v : Nat) (body : Payload) : Engine :=
  match e.locOfV p v with
  | some dst => { e with flight := e.flight ++ [{ src := t, dst := dst, part := p, sys := false, epoch := (e.part p).epoch, body := body }] }
  | none => e.modDeck (deckOf t.field) (fun d => { d with fab := mmod (fun _ => 0) 1 (fun n => satAdd 0xFFFF n 1) d.fab })

/-- FOLDS: the descriptor's checks at issue, the wait of R98, then the procedure of R220. -/
def execFolds (h : Hart) (w : Opnd) (s : State) : Host.Outcome State Fault Refusal :=
  issue 0x5 0x0A (fieldsOk false false false false w (lRange w && mod w 15 8 == 0)) false h w (fun c =>
    let n := mod w 7 0
    let r := c.ti.red n
    let owner (i : Nat) : Option Nat := r.owner ((i - lStart w) / r.per)
    c.granted (lBank w) <|
    c.checkOpen (decide (c.i.redFirst ≤ n) && decide (n < c.i.redFirst + c.i.redCnt)) <|
    match c.ti.firstBad (redAddr n) 128 with
    | some k => .exc .sramUncorr k
    | none =>
      c.checkOpen (r.valid && (lIdx w).all (fun i => match owner i with | some v => c.e.inGrid c.i.part v | none => false)) <|
      if c.ti.bankBusy (lBank w) then .wait c.e
      else
        let f := foldRun c w r
        let e := c.modTile (fun ti => f.cleared.foldl (fun ti i => ti.setLreg (lBank w) i {}) ti)
        let e := f.sent.reverse.foldl (fun e x => e.inject h.loc c.i.part ((r.owner x.1).getD 0) (.fold x.2)) e
        match f.bad with
        | some i => .late e .residue (lDetail (lBank w) i)
        | none => .done e) s

end Sys2Proof.Machine
end

