-- ==== Sys2Proof/Machine/Matrix.lean ====
section
/-!
DEFINITION. Matrix unit, GROUP 0x6 (R91 to R94, R142, R57, R59, R70).
-/
namespace Sys2Proof.Machine

/-- G of an MMA (Table 4.11). -/
def mmaG (w : Opnd) : Nat := 2 ^ mod w 29 27
/-- P = 128 / G. -/
def mmaP (w : Opnd) : Nat := 128 / mmaG w
/-- Weight format KW-1 to KW-8. -/
def mmaW (w : Opnd) : Fmt := .int (mod w 26 24 + 1)
/-- Activation format by AFMT. -/
def mmaA (w : Opnd) : Fmt := match mod w 23 22 with | 0 => .int 4 | 1 => .int 8 | _ => .bf16

/-- One product of a weight block and an activation block of integers (R59, R70): none where a zero block adds nothing. -/
def pairAdd (reg : Nat) (fw fa : Fmt) (wb ab : RawBlock) : Option Add :=
  if wb.poisoned fw || ab.poisoned fa then some { reg := reg, n := 0, res := 0, poison := true }
  else if scaleZero wb.code || scaleZero ab.code then none
  else
    let p := (32 + scaleFrac wb.code : Nat) * (32 + scaleFrac ab.code : Nat) * dot (wb.ints fw) (ab.ints fa)
    let sh := scaleExp wb.code + scaleExp ab.code + 24
    some { reg := reg, n := p * 2 ^ sh, res := (res255 p * 2 ^ (sh % 8)) % 255 }

/-- The readings of a BF16 block's elements (R57). -/
def bfElems (b : RawBlock) : List BfIn := (List.range 32).map (fun i => bfIn (lane 16 b.field i))

/-- Flushed inputs of a block's elements. -/
def bfFlushed (l : List BfIn) : Nat := (l.filter (· == .flushed)).length

/-- One product of a weight block and a BF16 activation block (R57, R59, R93): elements in units of 2^-93, a weight
element worth v * (32 + f) * 2^(e - 68), so the sum lands on units of 2^-160 after a shift of e - 1. -/
def bfAdd (reg : Nat) (fw : Fmt) (wb ab : RawBlock) : Option Add :=
  let l := bfElems ab
  if wb.poisoned fw || ab.poisoned .bf16 || l.any (· == .poison) then some { reg := reg, n := 0, res := 0, poison := true }
  else if scaleZero wb.code then none
  else
    let n := (32 + scaleFrac wb.code : Nat) * dot (wb.ints fw) (l.map (fun x => match x with | .exact v => v | _ => 0)) * 2 ^ (scaleExp wb.code - 1)
    some { reg := reg, n := n, res := res255 n }

/-- The adds of an MMA: lane g * P + p is weight block g with activation block p (R91). -/
def mmaAdds (w : Opnd) (ws acts : List RawBlock) : List Add :=
  (ws.zipIdx.flatMap (fun x => acts.zipIdx.filterMap (fun y =>
    let reg := x.2 * mmaP w + y.2
    match mmaA w with
    | .bf16 => bfAdd reg (mmaW w) x.1 y.1
    | fa => pairAdd reg (mmaW w) fa x.1 y.1)))

/-- Word address of the element field of the first block of an array whose residue disagrees. -/
def firstBadBlock (f : Fmt) (a : Nat) (bs : List RawBlock) : Option Nat :=
  (bs.zipIdx.find? (fun x => !x.1.good f)).map (fun x => wordAddr (a + x.2 * f.bytes))

/-- Flushed inputs of an MMA: once per element of each ordinary BF16 block it reads (R57). -/
def mmaFlushed (w : Opnd) (acts : List RawBlock) : Nat :=
  match mmaA w with
  | .bf16 => ((acts.filter (fun b => !b.poisoned .bf16)).map (fun b => bfFlushed (bfElems b))).foldl (· + ·) 0
  | _ => 0

/-- Cycles for which an MMA occupies the unit: the compute cycles of Table 3.3, or those of its operand bytes (R92). -/
def mmaOcc (w : Opnd) : Nat :=
  let compute := match mmaA w with | .bf16 => 4 | _ => if mod w 26 24 ≤ 3 then 1 else 2
  max compute (ceilDiv (mmaG w * ((mmaW w).bytes + 4) + mmaP w * ((mmaA w).bytes + 4)) 1024)

/-- The unit can take another MMA: each MMA that it has taken and whose adds are not complete (6 cycles after it was taken) has
freed it again (R92; log entry 130). -/
def unitFree (u : List MmaJob) : Bool := decide ((u.map (·.occ)).foldl (· + ·) 0 < 6)

/-- The unit takes MMAs from the queue in order while it is free (R92). -/
def mmaTake : List MmaJob → List MmaJob → List MmaJob × List MmaJob
  | u, [] => (u, [])
  | u, j :: q => if unitFree u then mmaTake (u ++ [j]) q else (u, j :: q)

/-- The tile after its matrix unit has taken what it can. -/
def Tile.feedUnit (ti : Tile) : Tile :=
  let r := mmaTake ti.matU ti.matQ
  { ti with matU := r.1, matQ := r.2 }

/-- MMA: checks, operand reads in program order (R109), residues before any add (R94), then the job in the queue, from which a
free unit takes it at once (R92). -/
def execMma (h : Hart) (w : Opnd) (s : State) : Host.Outcome State Fault Refusal :=
  issue 0x6 0x00 (fieldsOk false true true false w (mod w 21 0 == 0 && mod w 23 22 != 3)) false h w (fun c =>
    let wn := arrayBytes (mmaW w) (mmaG w)
    let an := arrayBytes (mmaA w) (mmaP w)
    let wa := c.xn w.a
    let aa := c.xn w.b
    c.granted (mod w 31 30) <| aligned wa 8 <| aligned aa 8 <| c.claim wa wn <| c.claim aa an <|
    if decide (c.ti.matQ.length ≥ 4) then .wait c.e
    else c.reading wa wn <| c.reading aa an <|
      let (wbs, c) := c.take wa wn
      let (abs, c) := c.take aa an
      let ws := arrayBlocks (mmaW w) (mmaG w) wbs
      let acts := arrayBlocks (mmaA w) (mmaP w) abs
      match (firstBadBlock (mmaW w) wa ws).orElse (fun _ => firstBadBlock (mmaA w) aa acts) with
      | some d => .exc .residue d
      | none => .done (c.modTile (fun ti =>
          ({ ti with matQ := ti.matQ ++ [{ thread := h.thread, slot := c.th.task, bank := mod w 31 30, adds := mmaAdds w ws acts, occ := mmaOcc w }] }
            : Tile).feedUnit.count 8 (mmaFlushed w acts)))) s

/-- The adds of the oldest MMA in the unit complete in its bank, and the unit takes the next (R92, R142). -/
def mmaDone (ti : Tile) : Tile :=
  match ti.matU with
  | [] => ti
  | j :: r => ({ ti with matU := r } : Tile).feedUnit.addAll j.bank j.adds

/-- MMA_COMPLETE (R92): with no MMA in the unit the event does not take place. -/
def execMmaComplete (t : Loc) (s : State) : Host.Outcome State Fault Refusal :=
  onUnit (locOk t) s (fun _ e => e.modTile t mmaDone)

end Sys2Proof.Machine
end

