-- ==== Sys2Proof/Machine/Pages.lean ====
section
/-!
DEFINITION. NV page contents and extents (R171 to R176, R183, Tables 6.1 to 6.3).
-/
namespace Sys2Proof.Machine

/-- Bytes of a page content (R172). -/
def pageBytes : Nat := 19426
/-- Key of byte k of page p in the slab's store. -/
def nvKey (p k : Nat) : Nat := p * 32768 + k
/-- Content of page p of a slab. -/
def Tile.page (ti : Tile) (p : Nat) : List Byte := readBytes ti.nv (nvKey p 0) pageBytes
/-- A slab with page p programmed. -/
def Tile.program (ti : Tile) (p : Nat) (bs : List Byte) : Tile := { ti with nv := writeBytes ti.nv (nvKey p 0) bs }

/-- A run of a page (Table 6.2). -/
structure Run6 where
  spillable : Bool
  width : Nat
  logg : Nat
  offset : Nat
  count : Nat
deriving DecidableEq, Repr

/-- Bytes [a, a + n) of a list as a number. -/
def bytesAt (bs : List Byte) (a n : Nat) : Nat := leNat ((bs.drop a).take n)

/-- Valid runs of a page content in directory order (R173). -/
def pageRuns (bs : List Byte) : List Run6 :=
  (List.range 8).filterMap (fun j =>
    let v := bytesAt bs (16384 + 8 * j) 8
    if bitAt v 63 && decide (fld v 61 58 < 8) then
      some { spillable := bitAt v 62, width := fld v 61 58 + 1, logg := fld v 57 55, offset := fld v 54 41, count := fld v 40 29 }
    else none)

/-- Element field of block i of a run (R174). -/
def runField (bs : List Byte) (r : Run6) (i : Nat) : Nat := bytesAt bs (r.offset + 4 * r.width * i) (4 * r.width)
/-- S12 code of block i of a run (R174). -/
def runScale (bs : List Byte) (r : Run6) (i : Nat) : Nat :=
  let base := r.offset + 4 * r.width * r.count
  (bytesAt bs (base + 12 * i / 8) 2 >>> (12 * i % 8)) % 4096
/-- Residue byte of the k-th block of the page (R172). -/
def pageResidue (bs : List Byte) (k : Nat) : Nat := bytesAt bs (16448 + k) 1

/-- One block array of G blocks from block i of a run, whose first block is the k-th of the page (R122, R175). -/
def unpackArray (bs : List Byte) (r : Run6) (i k : Nat) : List Byte :=
  let g := 2 ^ r.logg
  (List.range g).flatMap (fun j => natBytes (runField bs r (i + j)) (8 * blockWords r.width)) ++
  (List.range (2 * ceilDiv g 2)).flatMap (fun j =>
    if j < g then natBytes (pageResidue bs (k + i + j) * 4096 + runScale bs r (i + j)) 4 else natBytes 0 4)

/-- A run's block arrays. -/
def unpackRun (bs : List Byte) (r : Run6) (k : Nat) : List Byte :=
  (List.range (r.count / 2 ^ r.logg)).flatMap (fun q => unpackArray bs r (q * 2 ^ r.logg) k)

/-- Runs unpacked in directory order; k counts the blocks before. -/
def unpackRuns (bs : List Byte) : List Run6 → Nat → List Byte
  | [], _ => []
  | r :: rs, k => unpackRun bs r k ++ unpackRuns bs rs (k + r.count)

/-- The unpacked form of a page (R175). -/
def unpackPage (bs : List Byte) : List Byte := unpackRuns bs (pageRuns bs) 0

/-- Do the residues of every block of a page agree (R192)? -/
def pageGood (bs : List Byte) : Bool :=
  let check (r : Run6) (k : Nat) : Bool :=
    (List.range r.count).all (fun i => blockResidue (blockElems r.width (runField bs r i)) (runScale bs r i) == pageResidue bs (k + i))
  ((pageRuns bs).foldl (fun (x : Bool × Nat) r => (x.1 && check r x.2, x.2 + r.count)) (true, 0)).1

/-! ### Extents (R176, R183) -/

/-- NV_EXT[n] (Table 6.3). -/
def Tile.extent (ti : Tile) (n : Nat) : Nat := (mget (fun _ => 0) n ti.ext).toNat

/-- The extents of an image slot in NV_EXT order: first page and number of pages. -/
def Tile.extentsOf (ti : Tile) (img : Nat) : List (Nat × Nat) :=
  (List.range 64).filterMap (fun n =>
    let v := ti.extent n
    if bitAt v 31 && fld v 30 27 == img then some (fld v 26 16 * 32, (fld v 15 5 + 1) * 32) else none)

/-- Position of slab page p among the pages of extents. -/
def extIndex : List (Nat × Nat) → Nat → Option Nat
  | [], _ => none
  | (f, n) :: r, p => if f ≤ p ∧ p < f + n then some (p - f) else (extIndex r p).map (· + n)

/-- Slab page of position i among the pages of extents. -/
def extPage : List (Nat × Nat) → Nat → Option Nat
  | [], _ => none
  | (f, n) :: r, i => if i < n then some (f + i) else extPage r (i - n)

/-- N of an image slot (R176). -/
def Tile.residentN (ti : Tile) (img : Nat) : Nat := mget (fun _ => 0) img ti.resident

/-- Stripes as extents: runs of consecutive stripes joined (R183). -/
def joinStripes : List Nat → List (Nat × Nat)
  | [] => []
  | s :: r =>
    match joinStripes r with
    | (f, n) :: rest => if f = s + 1 then (s, n + 1) :: rest else (s, 1) :: (f, n) :: rest
    | [] => [(s, 1)]

/-- Extents in pages. -/
def stripeExtents (l : List Nat) : List (Nat × Nat) := (joinStripes l).map (fun x => (x.1 * 32, x.2 * 32))

/-- Extents an NVRD of an image is checked against: the tile's own. While the slice is served through recovery chains, those of the
repair write that will hold it; with no stripes for that yet, those of the covered site, or the lowest pages where that site never
held the slice (R402; log 141). -/
def Engine.readExtents (e : Engine) (t : Loc) (img slot : Nat) : List (Nat × Nat) :=
  match (e.tile t).recovering.find? (fun x => x.1 == slot) with
  | none => (e.tile t).extentsOf slot
  | some x =>
    match e.repairs.find? (fun r => r.img == img && r.target == t) with
    | some r => stripeExtents r.stripes
    | none =>
      let old := (e.tile x.2).extentsOf slot
      if old.isEmpty then [(0, ceilDiv ((e.tile t).residentN slot) 32 * 32)] else old

/-- Does a tile read slab page p of an image slot through a recovery chain (R402, R409)? -/
def Tile.viaChain (ti : Tile) (slot p : Nat) : Bool := ti.recovering.any (fun x => x.1 == slot) || ti.nvBad.contains p

/-- Bytewise XOR of page contents. -/
def xorPages (a b : List Byte) : List Byte := List.zipWith (· ^^^ ·) a b

/-- A page content of zeros (R180's extension). -/
def zeroPage : List Byte := List.replicate pageBytes 0

/-! ### Slices (R179 to R182) -/

/-- The site of a virtual tile word in a field set (R182, R279). -/
def Engine.locInSet (e : Engine) (fields w : Nat) : Option Loc :=
  match (setBits fields 96)[w / 65536]? with
  | none => none
  | some f => ((e.field f).siteOf (vindex (fld w 15 8) (fld w 7 0))).map (fun s => { field := f, site := s })

/-- N of a slice (R179). -/
def Slice.resident (s : Slice) : Nat := s.dataPages - s.ovf - s.spill

/-- Pages of a slice: data, then parity. -/
def Slice.pages (s : Slice) : Nat := s.dataPages + s.parityPages
/-- NV pages a slice needs (R179). -/
def Slice.nvPages (s : Slice) : Nat := s.resident + s.parityPages
/-- Stripes a slice needs. -/
def Slice.stripes (s : Slice) : Nat := ceilDiv s.nvPages 32
/-- Is slice page i in a tier? -/
def Slice.inTier (s : Slice) (i : Nat) : Bool := decide (s.resident ≤ i) && decide (i < s.dataPages)
/-- Position of an NV page among the slice's NV pages. -/
def Slice.position (s : Slice) (i : Nat) : Nat := if i < s.dataPages then i else i - s.dataPages + s.resident

/-- A page of a list of tier pages. -/
def tierPage (l : List (Nat × Nat × List Byte)) (k i : Nat) : Option (List Byte) := (l.find? (fun x => x.1 == k && x.2.1 == i)).map (·.2.2)

/-- The members of a slice's group. -/
def Image.group (im : Image) (g : Nat) : List (Nat × Slice) := (im.slices.zipIdx.filter (fun x => x.1.group == g)).map (fun x => (x.2, x.1))
/-- Member u of a group. -/
def Image.memberOf (im : Image) (g u : Nat) : Option (Nat × Slice) := (im.group g).find? (fun x => x.2.member == u)

/-- The page of member u that takes part in recovering page j of chunk c of member t (R181): the parity page of the holder,
and a data page of every other, or none beyond the member's data pages. -/
def chainPage (s : Slice) (t c j : Nat) : Option Nat :=
  let h := (t + c + 1) % 16
  if s.member = h then some (s.dataPages + j)
  else
    let i := (h + 32 - s.member - 1) % 16 * s.parityPages + j
    if i < s.dataPages then some i else none

/-- Slice page i of member t rebuilt from the other members, whose pages `f` reads (R180, R181). -/
def rebuildPage (im : Image) (s : Slice) (f : Nat → Slice → Nat → List Byte) (i : Nat) : List Byte :=
  let ms := (im.group s.group).filter (fun x => x.2.member != s.member)
  if i < s.dataPages then
    ms.foldl (fun a x => match chainPage x.2 s.member (i / s.parityPages) (i % s.parityPages) with | some p => xorPages a (f x.1 x.2 p) | none => a) zeroPage
  else
    ms.foldl (fun a x =>
      let p := (s.member + 32 - x.2.member - 1) % 16 * s.parityPages + (i - s.dataPages)
      if p < x.2.dataPages then xorPages a (f x.1 x.2 p) else a) zeroPage

/-- Page i of slice k of an image as its own placement holds it: an NV page of its tile's extents, or the content loaded for a tier
page (R201). -/
def Engine.ownPage (e : Engine) (im : Image) (k : Nat) (s : Slice) (i : Nat) : Option (List Byte) :=
  if s.inTier i then some ((tierPage im.tier k i).getD zeroPage)
  else match e.locInSet im.footprint s.vtile with
    | none => none
    | some t =>
      if (e.tile t).recovering.any (fun x => x.1 == im.slot) then none
      else match extPage ((e.tile t).extentsOf im.slot) (s.position i) with
        | some p => if (e.tile t).nvBad.contains p then none else some ((e.tile t).page p)
        | none => none

/-- A page of a slice as a read returns it: its own, or where the site is covered, the slice was never placed or the page is
uncorrectable, the one its parity group gives (R181, R402, R409). -/
def Engine.slicePage (e : Engine) (img k : Nat) (s : Slice) (i : Nat) : List Byte :=
  let im := e.image img
  match e.ownPage im k s i with
  | some bs => bs
  | none => rebuildPage im s (fun m ms p => (e.ownPage im m ms p).getD zeroPage) i

end Sys2Proof.Machine
end

