-- ==== Sys2Proof/Machine/SlabPort.lean ====
section
/-!
DEFINITION. Slab ports, GROUP 0x9: NVRD, DRD, DWR, their completions and PORT_FAULT (R103 to R106, R111, R120, R145,
R146, R175, R198).
-/
namespace Sys2Proof.Machine

/-- Usable pages of a weight slab (R171). -/
def slabPages : Nat := 58464
/-- Bytes of a KV slab (R23). -/
def kvBytes : Nat := 67338240

/-- The claimed staging window that holds the whole destination (R104, R145). -/
def Ctx.inWindow (c : Ctx) (a n : Nat) : Bool :=
  c.i.claims.any (fun x =>
    let v := c.ti.reg x.1
    regValid v && regKind v == 2 && decide (regBase v * 4096 ≤ a) && decide (a + n ≤ (regBase v + regSize v) * 4096))

/-- The image bound to the instance's partition: table index and slot. -/
def Ctx.image (c : Ctx) : Option (Nat × Nat) := (c.e.part c.i.part).image.map (fun i => (i, (c.e.image i).slot))

/-- Is every page of the range NV-resident data of the bound image (R145, R176)? -/
def Ctx.pagesOk (c : Ctx) (first count : Nat) : Bool :=
  decide (first + count ≤ slabPages) &&
  match c.image with
  | none => false
  | some (img, slot) =>
    let ex := c.e.readExtents c.h.loc img slot
    (List.range count).all (fun k => match extIndex ex (first + k) with | some i => decide (i < c.ti.residentN slot) | none => false)

/-- NV wafer of a slab page: planes 0 to 7 lie in wafer 0 (R171; log entry 133). -/
def waferOf (page : Nat) : Nat := page % 16 / 8

/-- The descriptor at the head of the NV queue takes the read offsets of the bands as they are when it gets there (R197). -/
def nvHead (f : Field) : List NvJob → List NvJob
  | [] => []
  | j :: r => (if j.offs.isNone then { j with offs := some (f.nvOffset 0, f.nvOffset 1) } else j) :: r

/-- Read offsets in mV at which the port reads a page, in their order: the band's, then its retries (R198). -/
def NvJob.tries (j : NvJob) (page : Nat) : List Int :=
  let o := j.offs.getD (0, 0)
  let b := if waferOf page = 0 then o.1 else o.2
  [b, b + 12, b - 12, b + 24, b - 24]

/-- No read of the page, retries included, can be corrected: `bad` lists the pages and offsets at which the page code cannot (R198). -/
def NvJob.fails (j : NvJob) (bad : List (Nat × Int)) (page : Nat) : Bool := (j.tries page).all (fun o => bad.contains (page, o))

/-- NVRD (R145). -/
def execNvrd (h : Hart) (w : Opnd) (s : State) : Host.Outcome State Fault Refusal :=
  issue 0x9 0x00 (fieldsOk false true true true w (mod w 31 8 == 0)) false h w (fun c =>
    let a := c.xn w.a
    let n := c.xn w.c
    aligned a 16384 <| lenMultiple n 4096 <| check (n != 0) .claimViolation 0 <| c.claim a n <|
    c.checkOpen (c.inWindow a n) <|
    c.checkOpen (c.pagesOk (c.xn w.b) (mod w 7 0 + 1)) <|
    if decide (c.ti.nvQ.length ≥ 16) then .wait c.e
    else .done (c.modTile (fun ti => { ti with
      nvQ := nvHead (c.e.field h.loc.field)
        (ti.nvQ ++ [{ thread := h.thread, slot := c.th.task, pc := c.th.pc.toNat, dst := a, len := n, first := c.xn w.b, count := mod w 7 0 + 1 }])
      filling := ti.filling ++ (granules a n).filter (fun g => !ti.filling.contains g) }))) s

/-- Filling bits of a descriptor's destination cleared (R105). -/
def Tile.unfill (ti : Tile) (a n : Nat) : Tile := { ti with filling := ti.filling.filter (fun g => !(granules a n).contains g) }

/-- What an NV descriptor writes: bytes, and how it ends. -/
inductive NvEnd where
  | complete
  | uncorr (page : Nat)
  | overrun (page : Nat)

/-- Pages read in order into at most `room` bytes; `bad` is a page no retry corrects (R145, R198). -/
def nvRead (content : Nat → List Byte) (bad : Nat → Bool) : Nat → Nat → Nat → List Byte × NvEnd
  | 0, _, _ => ([], .complete)
  | k + 1, p, room =>
    if bad p then ([], .uncorr p)
    else
      let u := unpackPage (content p)
      if u.length ≤ room then
        let r := nvRead content bad k (p + 1) (room - u.length)
        (u ++ r.1, r.2)
      else (u.take room, .overrun p)

/-- NV_DESC_COMPLETE: the descriptor at the head of the NV queue ends (R105, R106, R120, R145, R198, R409). A page of a slice
served through recovery, or known to be uncorrectable, comes from its recovery chain and does not fault (R402, R403). -/
def nvDone (t : Loc) (bad : List (Nat × Int)) (now : Nat) (e : Engine) : Engine :=
  let ti := e.tile t
  match ti.nvQ with
  | [] => e
  | j :: rest =>
    let part := match ti.instOf j.slot with | some i => i.part | none => 0
    let img := (e.part part).image
    let slot := match img with | some i => (e.image i).slot | none => 0
    let lost := ((List.range j.count).map (· + j.first)).filter (ti.viaChain slot)
    if lost.any (fun p => !ti.recv.any (fun x => x.1 == p)) then e
    else
    let page (p : Nat) : List Byte := match ti.recv.find? (fun x => x.1 == p) with | some x => x.2 | none => ti.page p
    let r := nvRead page (fun p => j.fails bad p && !lost.contains p) j.count j.first j.len
    let e := e.modTile t (fun ti => ({ ti.store j.dst r.1 with nvQ := nvHead (e.field t.field) rest, recv := ti.recv.filter (fun x => !lost.contains x.1) } : Tile).unfill j.dst j.len)
    match r.2 with
    | .complete => e.modTile t (fun ti => ti.modInst j.slot (·.bump 0))
    | .overrun p => e.raise now t j.thread j.pc (some j.slot) .claimViolation p
    | .uncorr p =>
      let e := e.raise now t j.thread j.pc (some j.slot) .nvUncorr p
      let e := e.modTile t (fun ti => { ti with nvBad := ti.nvBad ++ [p] })
      let e := match img with
        | some i => e.modImage i (fun m => if m.state = ImgState.ready then { m with state := .degraded } else m)
        | none => e
      e.siteEvent now t 0x0204 p slot

/-- NV_DESC_COMPLETE (R106). -/
def execNvDescComplete (t : Loc) (bad : List (Nat × Int)) (s : State) : Host.Outcome State Fault Refusal :=
  onUnit (locOk t) s (nvDone t bad)

/-- Checks that DRD and DWR share (R146). -/
def dramChecks (c : Ctx) (w : Opnd) (k : Iss) : Iss :=
  let a := c.xn w.a
  let b := c.xn w.b
  let n := c.xn w.c
  let slot := b / 16384
  aligned a 64 <| aligned b 64 <| lenMultiple n 64 <| lenRange 64 16384 n <| c.claim a n <|
  c.checkOpen (decide (b % 16384 + n ≤ 16384) && decide (c.ti.kvLo ≤ slot) && decide (slot ≤ c.ti.kvHi) && decide (b + n ≤ kvBytes)) <|
  if decide (c.ti.dramQ.length ≥ 32) then .wait c.e else k

/-- A descriptor in the DRAM queue. -/
def dramPush (c : Ctx) (w : Opnd) (write : Bool) (data : List Byte) : Iss :=
  .done (c.modTile (fun ti => { ti with
    dramQ := ti.dramQ ++ [{ thread := c.h.thread, slot := c.th.task, pc := c.th.pc.toNat, write := write, sp := c.xn w.a, slab := c.xn w.b, len := c.xn w.c, data := data }] }))

/-- DRD (R146). -/
def execDrd (h : Hart) (w : Opnd) (s : State) : Host.Outcome State Fault Refusal :=
  issue 0x9 0x01 (fieldsOk false true true true w (w.imm == 0)) false h w (fun c => dramChecks c w (dramPush c w false [])) s

/-- DWR: the source is read when the queue accepts the descriptor (R109, R146). -/
def execDwr (h : Hart) (w : Opnd) (s : State) : Host.Outcome State Fault Refusal :=
  issue 0x9 0x02 (fieldsOk false true true true w (w.imm == 0)) false h w (fun c =>
    dramChecks c w <| c.reading (c.xn w.a) (c.xn w.c) <|
      let (bs, c) := c.take (c.xn w.a) (c.xn w.c)
      dramPush c w true bs) s

/-- KV slot of a descriptor. -/
def DramJob.kvSlot (j : DramJob) : Nat := j.slab / 16384

/-- Has the i-th descriptor started: at most 8 in progress, no two of one slot (R106)? -/
def dramStarted (q : List DramJob) (i : Nat) : Bool :=
  decide (i < 8) && decide (i < q.length) && decide (((q.take (i + 1)).map DramJob.kvSlot).Nodup)

/-- A cache slot used at tick `now`, for the least-recently-used order (R202, R263). -/
def Tile.touch (ti : Tile) (now k : Nat) : Tile :=
  match mget (fun _ => .free) k ti.slotUse with
  | .rcache s p _ => { ti with slotUse := mset (fun _ => .free) k (.rcache s p now) ti.slotUse }
  | .kvcache g p _ => { ti with slotUse := mset (fun _ => .free) k (.kvcache g p now) ti.slotUse }
  | _ => ti

/-- A slot with an uncorrectable word, to be resolved under R410. -/
def Tile.kvUncorr (ti : Tile) (k : Nat) : Tile := { ti with kvBad := if ti.kvBad.contains k then ti.kvBad else ti.kvBad ++ [k] }

/-- DRAM_DESC_COMPLETE: a descriptor in progress ends; `bad` is an uncorrectable word of its slot (R106, R120, R146). -/
def dramDone (t : Loc) (i : Nat) (bad : Bool) (now : Nat) (e : Engine) : Engine :=
  let ti := e.tile t
  match ti.dramQ[i]? with
  | none => e
  | some j =>
    if !dramStarted ti.dramQ i then e
    else
      let e := e.modTile t (fun ti => { ti with dramQ := ti.dramQ.eraseIdx i })
      if bad || (!j.write && ti.kvBad.contains j.kvSlot) then
        (e.raise now t j.thread j.pc (some j.slot) .dramUncorr j.kvSlot).modTile t (fun ti => ti.kvUncorr j.kvSlot)
      else
        e.modTile t (fun ti =>
          let ti := ti.touch now j.kvSlot
          let ti := if j.write then { ti with kv := writeBytes ti.kv j.slab j.data } else ti.store j.sp (readBytes ti.kv j.slab j.len)
          ti.modInst j.slot (·.bump 1))

/-- DRAM_DESC_COMPLETE (R106). -/
def execDramDescComplete (t : Loc) (i : Nat) (bad : Bool) (s : State) : Host.Outcome State Fault Refusal :=
  onUnit (locOk t) s (dramDone t i bad)

end Sys2Proof.Machine
end

