-- ==== Sys2Proof/Machine/Attention.lean ====
section
/-!
DEFINITION. The attention lane, GROUP 0x7 (R100 to R102, R143, R241, R243 to R252). A pass waits in the lane's queue, is checked
when it starts, and writes its sums, its result word and its counts when it ends; its scratchpad operands are those of the moment
at which it issued (R109). Element values are integers in units of 2^-100, scores in units of 2^-200 (R246), bounds in units of
2^-24.
-/
namespace Sys2Proof.Machine

/-! ### Blocks as the lane takes them in -/

/-- A block's elements in units of 2^-100, none where it poisons, and its flushed inputs (R51, R57). -/
def laneBlock (f : Fmt) (b : RawBlock) : Option (List Int) × Nat :=
  match f with
  | .int n =>
    if scalePoison b.code then (none, 0)
    else if scaleZero b.code then (some (List.replicate 32 0), 0)
    else (some ((blockElems n b.field).map (fun v => v * (32 + scaleFrac b.code) * 2 ^ (scaleExp b.code + 32))), 0)
  | .bf16 =>
    if b.code != 0 then (none, 0)
    else
      let l := bfElems b
      (if l.any (· == .poison) then none else some (l.map (fun x => match x with | .exact v => v * 2 ^ 7 | _ => 0)), bfFlushed l)

/-- A block's stored element values in units of 2^-149, none where it is poisoned (R241). -/
def storedBlock (f : Fmt) (b : RawBlock) : Option (List Int) :=
  match f with
  | .int n =>
    if scalePoison b.code then none
    else if scaleZero b.code then some (List.replicate 32 0)
    else some ((blockElems n b.field).map (fun v => v * (32 + scaleFrac b.code) * 2 ^ (scaleExp b.code + 81)))
  | .bf16 =>
    let l := (List.range 32).map (fun i => bfTo32 (lane 16 b.field i))
    if b.code != 0 || l.any (fun x => !fpFin x) then none else some (l.map fpVal)

/-- ceil(log2 x), 0 for x at most 1. -/
def clog2 (x : Nat) : Nat := if x ≤ 1 then 0 else (x - 1).log2 + 1

/-- Norm code of segments whose element values are given: 0 for a zero sum, the smallest c with x^4 at most 2^(c - 128),
255 when there is none or a block is poisoned (R241). -/
def normCode (blocks : List (Option (List Int))) : Nat :=
  if blocks.any Option.isNone then 255
  else
    let n2 := ((blocks.filterMap id).map (fun l => (l.map (fun v => v.natAbs * v.natAbs)).foldl (· + ·) 0)).foldl (· + ·) 0
    if n2 = 0 then 0
    else
      let c := max 1 (clog2 (n2 * n2) - 468)
      if c ≤ 254 then c else 255

/-- The largest r with r^4 ≤ x, from bit n - 1 down. -/
def root4From (x : Nat) : Nat → Nat → Nat
  | 0, r => r
  | n + 1, r => if (r + 2 ^ n) ^ 4 ≤ x then root4From x n (r + 2 ^ n) else root4From x n r

/-- B(m) in units of 2^-24 (R246). -/
def boundB (m : Nat) : Nat := if m ≤ 160 then 1 else root4From (2 ^ (m - 160) - 1) 90 0 + 1

/-! ### Descriptor (Table 8.6) -/

/-- KIND: 0 ATTEND, 1 NORM, 2 SKSCORE. -/
def apKind (d : Nat) : Nat := fld d 195 194
/-- Page format. -/
def apFmt (d : Nat) : Fmt := match fld d 202 201 with | 0 => .int 4 | 1 => .int 8 | _ => .bf16
/-- Query format. -/
def apQFmt (d : Nat) : Fmt := if bitAt d 200 then .bf16 else .int 8
/-- Pages in scratchpad. -/
def apSrc (d : Nat) : Bool := bitAt d 196
/-- ROWS. -/
def apRows (d : Nat) : Nat := fld d 272 261 + 1
/-- QADDR. -/
def apQ (d : Nat) : Nat := fld d 335 315
/-- RADDR. -/
def apR (d : Nat) : Nat := fld d 314 294
/-- OADDR. -/
def apO (d : Nat) : Nat := fld d 293 273
/-- DEN_REG. -/
def apDen (d : Nat) : Nat := fld d 193 186
/-- BOUND, signed. -/
def apBound (d : Nat) : Int := toSigned 64 (fld d 511 448)

/-- d of the instruction (R143). -/
def apDim (w : Opnd) : Nat := 32 * (mod w 27 25 + 1)
/-- PAIR. -/
def apPair (w : Opnd) : Bool := modBit w 29

/-- R118 and R143 on APASS's MOD. -/
def apassModOk (w : Opnd) : Bool :=
  mod w 28 28 == 0 && mod w 24 0 == 0 && (!apPair w || mod w 31 30 == 0 || mod w 31 30 == 2) && (apPair w || decide (apDim w ≤ 128))

/-- The descriptor checks of R143 other than claims and banks. -/
def descOk (w : Opnd) (d : Nat) : Bool :=
  fld d 195 194 != 3 && fld d 202 201 != 3 && fld d 199 198 != 3 && fld d 185 0 == 0 &&
  (apDen d == 0xFF || (decide (apDim w ≤ apDen d) && decide (apDen d ≤ if apPair w then 255 else 127))) &&
  (apKind d != 1 || (apSrc d && apRows d == 1))

/-- Is slot p of the request visible to the pass (R244)? -/
def visible (d p : Nat) : Bool :=
  (decide (fld d 415 384 ≤ p) && decide (p < fld d 447 416)) ||
  (decide (fld d 383 352 ≤ p) && decide (p - fld d 383 352 < 16) && (fld d 351 336).testBit (p - fld d 383 352))

/-! ### Pages (R230 to R233, R251) -/

/-- A page as the lane reads it: bytes at an offset of its slot or image. -/
structure PageView where
  read : Nat → Nat → List Byte
  header : Nat

/-- Header field [hi:lo] (Table 8.3). -/
def PageView.f (v : PageView) (hi lo : Nat) : Nat := fld v.header hi lo
/-- C. -/
def PageView.cols (v : PageView) : Nat := v.f 150 147 + 1
/-- Segment s: first column and column count (Table 8.3). -/
def PageView.seg (v : PageView) (s : Nat) : Nat × Nat := (fld v.header (160 + 8 * s) (157 + 8 * s), fld v.header (156 + 8 * s) (153 + 8 * s) + 1)
/-- Block (p, c) (R233). -/
def PageView.block (v : PageView) (f : Fmt) (p c : Nat) : RawBlock :=
  let k := p * v.cols + c
  rawBlock f (v.read (512 + k * f.bytes) f.bytes) (v.read (512 + 64 * v.cols * f.bytes + 4 * k) 4)
/-- Mean-key block of column c (R257): KA-4, code MSCALE[c], residue MRES[c]. -/
def PageView.mean (v : PageView) (c : Nat) : RawBlock :=
  { field := leNat (v.read (320 + 16 * c) 16), tag := v.f (279 + 8 * c) (272 + 8 * c) * 4096 + v.f (379 + 12 * c) (368 + 12 * c) }

/-- A late error of a pass: cause and DETAIL. -/
abbrev LateErr := Cause × Nat

/-- `e` unless the check holds. -/
def need (ok : Bool) (c : Cause) (detail : Nat) : Except LateErr Unit := if ok then .ok () else .error (c, detail)

/-- Why a page cannot be read, or a wait on a filling granule. -/
inductive PassStop where
  | wait
  | err (x : LateErr)

/-- Page entry i of row entry r (Table 8.7). -/
def pageEntry (r i : Nat) : Nat := fld r (32 * i + 63) (32 * i + 32)

/-- Does a page ID name a slot of the issuing tile in its slot window (R231, R251)? -/
def Ctx.pageHere (c : Ctx) (id : Nat) : Bool :=
  fld id 31 30 == 0 &&
  c.e.vOfLoc c.i.part c.h.loc == some (vword (fld id 29 23) (fld id 22 18) (fld id 17 13)) &&
  decide (c.ti.kvLo ≤ fld id 12 0) && decide (fld id 12 0 ≤ c.ti.kvHi)

/-- Most columns of a page of the format (Table 8.2). -/
def Fmt.maxCols : Fmt → Nat
  | .int 4 => 12
  | .int _ => 6
  | .bf16 => 3

/-- Bytes of a page image that a pass reads from byte a on: an SKSCORE pass the first 512 (R252), another what the header's FMT and C
lay out (R233). -/
def Ctx.imageSpan (c : Ctx) (d a : Nat) : Nat :=
  if apKind d = 2 then 512
  else
    let h := leNat (c.bytes a 64)
    let e := match fld h 146 145 with | 0 => 16 | 1 => 32 | _ => 64
    if fld h 146 145 = 3 then 64 else min 16384 (512 + (fld h 150 147 + 1) * (64 * e + 256))

/-- The page an entry names, at byte `off` of its slot, checked under R251 (row index `ri`, row number `row`). -/
def Ctx.page (c : Ctx) (d ri row id off kind : Nat) : Except LateErr PageView := do
  let rd : Nat → Nat → List Byte ←
    if apSrc d then do
      need (id % 64 == 0 && (c.ti.firstOutside c.i (id + off) 64).isNone) .claimViolation ri
      let n := c.imageSpan d (id + off)
      need (c.ti.firstOutside c.i (id + off) n).isNone .claimViolation ri
      match c.ti.firstBad (id + off) n with
      | some k => .error (.sramUncorr, k)
      | none => pure (fun a n => c.bytes (id + off + a) n)
    else do
      need (c.pageHere id) .claimViolation ri
      need (!c.ti.kvBad.contains (fld id 12 0)) .dramUncorr (fld id 12 0)
      pure (fun a n => readBytes c.ti.kv (fld id 12 0 * 16384 + off + a) n)
  let v : PageView := { read := rd, header := leNat (rd 0 64) }
  need (v.f 143 128 == 0x4B50 && v.f 144 144 == kind && v.f 146 145 == fld d 202 201 && v.f 239 208 == row && decide (v.cols ≤ (apFmt d).maxCols))
    .claimViolation ri
  pure v

/-- The columns of the query's head in the key pages of a row, in page order (R245): page number and column. -/
def keyCols (d ri : Nat) (ps : List PageView) : Except LateErr (List (Nat × Nat)) :=
  ps.zipIdx.foldlM (fun acc x => do
    let s := fld d (232 + 2 * x.2) (231 + 2 * x.2)
    let (f, n) := x.1.seg s
    need (decide (s ≤ x.1.f 152 151) && decide (f + n ≤ x.1.cols)) .claimViolation ri
    pure (acc ++ (List.range n).map (fun k => (x.2, f + k)))) []

/-- The VSPAN columns of the value pages of a row, in page order (R245). -/
def valCols (d ri : Nat) (ps : List PageView) : Except LateErr (List (Nat × Nat)) :=
  ps.zipIdx.foldlM (fun acc x => do
    let b := fld d (214 + 8 * x.2) (207 + 8 * x.2)
    let f := b / 16
    let n := b % 16 + 1
    need (decide (f + n ≤ x.1.cols)) .claimViolation ri
    pure (acc ++ (List.range n).map (fun k => (x.2, f + k)))) []

/-- Blocks of position p in the given columns, each inside its page (R233, R251) and residue-checked (R69). -/
def posBlocks (f : Fmt) (ri p : Nat) (ps : List PageView) (cols : List (Nat × Nat)) : Except LateErr (List RawBlock) :=
  cols.mapM (fun c => do
    match ps[c.1]? with
    | none => .error (.claimViolation, ri)
    | some v =>
      need (decide (512 + 64 * v.cols * f.bytes + 4 * (p * v.cols + c.2 + 1) ≤ 16384)) .claimViolation ri
      let b := v.block f p c.2
      need (b.good f) .residue ri
      pure b)

/-- One visible position of a pass: its score (none where a query or key block is poisoned), its value elements by
block (none where poisoned), flushed inputs of its keys and of its values. -/
structure Pos where
  score : Option Int
  vals : List (Option (List Int))
  keyFl : Nat
  valFl : Nat

/-- Score of keys against the query (R246, R248). -/
def scoreOf (q ks : List (Option (List Int))) : Option Int :=
  if q.any Option.isNone || ks.any Option.isNone then none
  else some ((List.zipWith (fun a b => dot (a.getD []) (b.getD [])) q ks).foldl (· + ·) 0)

/-- A row of an ATTEND pass: its visible positions (R244, R245, R251). -/
def Ctx.attendRow (c : Ctx) (w : Opnd) (d : Nat) (q : List (Option (List Int))) (ri r : Nat) : Except LateErr (List Pos) := do
  let row := fld r 255 224
  let kps ← (List.range (fld d 206 205 + 1)).mapM (fun j => c.page d ri row (pageEntry r j) 0 0)
  let vps ← (List.range (fld d 204 203 + 1)).mapM (fun j => c.page d ri row (pageEntry r (3 + j)) 0 1)
  let kc ← keyCols d ri kps
  let vc ← valCols d ri vps
  need (kc.length == apDim w / 32 && vc.length == apDim w / 32) .claimViolation ri
  let f := apFmt d
  ((List.range 64).filter (fun p => visible d (64 * row + p))).mapM (fun p => do
    let ks := (← posBlocks f ri p kps kc).map (laneBlock f)
    let vs := (← posBlocks f ri p vps vc).map (laneBlock f)
    pure { score := scoreOf q (ks.map (·.1)), vals := vs.map (·.1)
           keyFl := (ks.map (·.2)).foldl (· + ·) 0, valFl := (vs.map (·.2)).foldl (· + ·) 0 })

/-! ### The sums (R248, R249) -/

/-- ceil of the largest score in units of 2^-24, none when no position was scored. -/
def smaxOf (ps : List Pos) : Option Int :=
  (ps.filterMap (·.score)).foldl (fun m s => let k := -((-s) / 2 ^ 176); match m with | none => some k | some x => some (max x k)) none

/-- One position's term under bound β: (t in units of 2^-160 or none where flushed, whether it violates the bound). -/
def termOf (beta s : Int) : Option Int × Bool :=
  let d0 := rne (s - beta * 2 ^ 176) (2 ^ 176)
  let k := expKernel (clampInt (-expLim) 0 d0)
  (if k.2 < -136 then none else some (k.1 * 2 ^ (k.2 + 229).toNat), decide (0 < d0))

/-- The exact sums of a run of the pass under β. -/
structure Sums where
  den : Int := 0
  denPoison : Bool := false
  num : List (Int × Bool)
  flushed : Nat := 0
  violations : Nat := 0

/-- Element i of a position's values, none where its block is poisoned. -/
def valAt (vs : List (Option (List Int))) (i : Nat) : Option Int := ((vs[i / 32]?).bind id).bind (fun l => l[i % 32]?)

/-- One position added to the sums. -/
def addPos (beta : Int) (p : Pos) (s : Sums) : Sums :=
  match p.score with
  | none => { s with denPoison := true, num := s.num.map (fun x => (x.1, true)) }
  | some sc =>
    let t := termOf beta sc
    let tv := t.1.getD 0
    { den := s.den + tv, denPoison := s.denPoison
      num := s.num.zipIdx.map (fun x => match valAt p.vals x.2 with | none => (x.1.1, true) | some v => (x.1.1 + tv * v / 2 ^ 100, x.1.2))
      flushed := s.flushed + bnat t.1.isNone, violations := s.violations + bnat t.2 }

/-- The sums of a run over the positions (R248). -/
def runSums (dim : Nat) (beta : Int) (ps : List Pos) : Sums := ps.foldl (fun s p => addPos beta p s) { num := List.replicate dim (0, false) }

/-- A long register with an exact sum added to a cleared one. -/
def sumReg (n : Int) (poison : Bool) : LReg := (({} : LReg).add { reg := 0, n := n, res := res255 n, poison := poison }).1

/-- The adds of the sums into the numerator registers and DEN_REG (R100). -/
def sumAdds (den : Nat) (s : Sums) : List Add :=
  s.num.zipIdx.map (fun x => { reg := x.2, n := x.1.1, res := res255 x.1.1, poison := x.1.2 }) ++
  (if den = 0xFF then [] else [{ reg := den, n := s.den, res := res255 s.den, poison := s.denPoison }])

/-- Bytes of a signed 64-bit result. A value outside the field has no stated encoding: the bytes are free (log entry 3). -/
def signed64 (free : Nat) (v : Int) : List Byte :=
  if -(2 ^ 63) ≤ v ∧ v < 2 ^ 63 then natBytes (ofSigned 64 v) 8 else (List.range 8).map (fun k => Config.freeByte (free + k))

/-- The result word (Table 8.8): bytes from the lowest. -/
def resultWord (free : Nat) (smax : Option Int) (pos : Nat) (second gap : Bool) : List Byte :=
  natBytes (pack [(24, pos), (1, bnat second), (1, bnat gap), (38, 0)]) 8 ++ signed64 free (smax.getD (-(2 ^ 63)))

/-- The bound of the first run in units of 2^-24, and whether the lane scans first (R246). -/
def passBound (d : Nat) (q : List RawBlock) (smax : Option Int) (kseg : List Nat) : Int × Bool :=
  let scan : Int × Bool := (smax.getD 0, true)
  match fld d 199 198 with
  | 1 => (apBound d, false)
  | 2 => scan
  | _ =>
    let codes := kseg.foldl (fun (x : List Nat × Nat) n => (x.1 ++ [normCode (((q.drop x.2).take n).map (storedBlock (apQFmt d)))], x.2 + n)) ([], 0)
    let pairs := codes.1.zipIdx.map (fun x => (x.1, fld d (244 + 8 * x.2) (237 + 8 * x.2)))
    if pairs.any (fun x => x.1 == 255 || x.2 == 255) then scan
    else
      let beta : Nat := (pairs.map (fun x => if x.1 = 0 ∨ x.2 = 0 then 0 else boundB (x.1 + x.2))).foldl (· + ·) 0
      ((beta : Int), false)

/-- The query's blocks, residue-checked (R69). -/
def Ctx.query (c : Ctx) (w : Opnd) (d : Nat) : Except LateErr (List RawBlock) :=
  let n := apDim w / 32
  let f := apQFmt d
  let bs := arrayBlocks f n (c.bytes (apQ d) (arrayBytes f n))
  match bs.zipIdx.find? (fun x => !x.1.good f) with
  | some x => .error (.residue, wordAddr (apQ d + x.2 * f.bytes))
  | none => .ok bs

/-- Row entries of the descriptor. -/
def Ctx.rowEntries (c : Ctx) (d : Nat) : List Nat := (List.range (apRows d)).map (fun i => leNat (c.bytes (apR d + 32 * i) 32))

/-- Columns of each key page's segment in the first row, for the query's codes. -/
def kseg (d : Nat) (c : Ctx) (rows : List Nat) : Except LateErr (List Nat) :=
  match rows with
  | [] => .ok []
  | r :: _ => (List.range (fld d 206 205 + 1)).mapM (fun j => do
      let v ← c.page d 0 (fld r 255 224) (pageEntry r j) 0 0
      pure (v.seg (fld d (232 + 2 * j) (231 + 2 * j))).2)

/-- An ATTEND pass (R248, R249). A scan of BMODE 2 takes in the keys once more and no value, a second pass both (R57; log entry
131). -/
def Ctx.attend (c : Ctx) (w : Opnd) (d : Nat) : Except LateErr AttnRun := do
  let q ← c.query w d
  let rows := c.rowEntries d
  let ql := q.map (laneBlock (apQFmt d))
  let ps := (← rows.zipIdx.mapM (fun r => c.attendRow w d (ql.map (·.1)) r.2 r.1)).flatten
  let segs ← kseg d c rows
  let smax := smaxOf ps
  let (beta, scanned) := passBound d q smax segs
  let first := runSums (apDim w) beta ps
  let gap := match smax with | some m => decide (beta - m > 80 * 2 ^ 24) | none => false
  let second := gap && bitAt d 197
  let last := if second then runSums (apDim w) (smax.getD 0) ps else first
  let kfl := (ps.map (·.keyFl)).foldl (· + ·) 0
  let vfl := (ps.map (·.valFl)).foldl (· + ·) 0
  pure { clears := List.range (apDim w) ++ (if apDen d = 0xFF then [] else [apDen d])
         adds := sumAdds (apDen d) last, ad := sumReg last.den last.denPoison
         writes := [(apO d, resultWord c.e.freeCtr smax ps.length second (gap && !second))]
         flushedIn := (ql.map (·.2)).foldl (· + ·) 0 + kfl * (1 + bnat scanned + bnat second) + vfl * (1 + bnat second)
         flushedTerms := first.flushed + if second then last.flushed else 0
         violations := first.violations + if second then last.violations else 0 }

/-- A NORM pass (R252). -/
def Ctx.norm (c : Ctx) (d : Nat) : Except LateErr AttnRun := do
  let r := (c.rowEntries d).headD 0
  let row := fld r 255 224
  let v ← c.page d 0 row (pageEntry r 0) 0 0
  let f := apFmt d
  let ps := (List.range 64).filter (fun p => decide (fld d 415 384 ≤ 64 * row + p) && decide (64 * row + p < fld d 447 416))
  let codes ← (List.range (v.f 152 151 + 1)).mapM (fun s => do
    let (first, n) := v.seg s
    need (decide (first + n ≤ v.cols)) .claimViolation 0
    ps.mapM (fun p => do
      let bs ← posBlocks f 0 p [v] ((List.range n).map (fun k => (0, first + k)))
      pure ((pageEntry r 0 + 64 + 64 * s + p, [BitVec.ofNat 8 (normCode (bs.map (storedBlock f)))]), ((bs.map (fun b => (laneBlock f b).2)).foldl (· + ·) 0))))
  let all := codes.flatten
  pure { clears := [], adds := [], ad := {}, writes := all.map (·.1) ++ [(apO d, resultWord 0 none ps.length false false)]
         flushedIn := (all.map (·.2)).foldl (· + ·) 0, flushedTerms := 0, violations := 0 }

/-- The sketch score of a row (R252), none where it scores -2^63. -/
def Ctx.sketchRow (c : Ctx) (w : Opnd) (d : Nat) (q : List (Option (List Int))) (ri r : Nat) : Except LateErr (Option Int) := do
  let row := fld r 255 224
  let kps ← (List.range (fld d 206 205 + 1)).mapM (fun j =>
    c.page d ri row (pageEntry r j) (if j = 0 ∧ bitAt r 5 then 512 * fld r 4 0 else 0) 0)
  let kc ← keyCols d ri kps
  need (kc.length == apDim w / 32) .claimViolation ri
  if kps.all (fun v => v.f 192 192 == 1) then do
    let ms ← kc.mapM (fun x => do
      match kps[x.1]? with
      | none => .error (.claimViolation, ri)
      | some v =>
        need ((v.mean x.2).good (.int 4)) .residue ri
        pure (laneBlock (.int 4) (v.mean x.2)).1)
    pure ((scoreOf q ms).map (fun s => rne s (2 ^ 176)))
  else pure none

/-- An SKSCORE pass (R252). -/
def Ctx.sketch (c : Ctx) (w : Opnd) (d : Nat) : Except LateErr AttnRun := do
  let q ← c.query w d
  let ql := q.map (laneBlock (apQFmt d))
  let rows := c.rowEntries d
  let out ← rows.zipIdx.mapM (fun r => c.sketchRow w d (ql.map (·.1)) r.2 r.1)
  let bytes := out.zipIdx.map (fun x => (apO d + 8 * x.2, signed64 (c.e.freeCtr + 8 * x.2) (x.1.getD (-(2 ^ 63)))))
  pure { clears := [], adds := [], ad := {}, writes := bytes
         flushedIn := (ql.map (·.2)).foldl (· + ·) 0, flushedTerms := 0, violations := 0 }

/-- A pass of the descriptor's KIND. -/
def Ctx.pass (c : Ctx) (w : Opnd) (d : Nat) : Except LateErr AttnRun :=
  match apKind d with
  | 0 => c.attend w d
  | 1 => c.norm d
  | _ => c.sketch w d

/-- Where element j of the numerator lies: bank and register (R100). -/
def numReg (banks : List Nat) (j : Nat) : Nat × Nat := (banks.getD (j / 128) 0, j % 128)

/-- Does some page image, the query or the row array lie in a filling granule (R105)? -/
def Ctx.passWaits (c : Ctx) (w : Opnd) (d : Nat) : Bool :=
  c.ti.fillingIn (apR d) (32 * apRows d) ||
  (apKind d != 1 && c.ti.fillingIn (apQ d) (arrayBytes (apQFmt d) (apDim w / 32))) ||
  (apSrc d && (c.rowEntries d).any (fun r => (List.range 6).any (fun j =>
    let a := pageEntry r j + if apKind d = 2 ∧ j = 0 ∧ bitAt r 5 then 512 * fld r 4 0 else 0
    (if j < 3 then decide (j ≤ if apKind d = 1 then 0 else fld d 206 205) else apKind d == 0 && decide (j - 3 ≤ fld d 204 203)) &&
      c.ti.fillingIn a (c.imageSpan d a))))

/-- The arrays that a pass's descriptor names lie inside the claim (R143). -/
def Ctx.arraysClaimed (c : Ctx) (w : Opnd) (d : Nat) : Bool :=
  let inside (x n : Nat) : Bool := (c.ti.firstOutside c.i x n).isNone
  inside (apR d) (32 * apRows d) && inside (apO d) (if apKind d = 2 then 8 * apRows d else 16) &&
    inside (apQ d) (arrayBytes (apQFmt d) (apDim w / 32))

/-- Every bank that an ATTEND pass uses is granted (R143). -/
def Ctx.banksGranted (c : Ctx) (w : Opnd) (d : Nat) : Bool :=
  apKind d != 0 || (c.i.banks.testBit (mod w 31 30) && (!apPair w || c.i.banks.testBit (mod w 31 30 + 1)))

/-- The first uncorrectable word of the descriptor, the row array or the query (R167). -/
def Ctx.passBad (c : Ctx) (w : Opnd) (a d : Nat) : Option Nat :=
  (c.ti.firstBad a 64).orElse (fun _ => (c.ti.firstBad (apR d) (32 * apRows d)).orElse (fun _ =>
    if apKind d = 1 then none else c.ti.firstBad (apQ d) (arrayBytes (apQFmt d) (apDim w / 32))))

/-- A pass as it starts: the checks of R143 on its descriptor, which lies at `a`, then the pass itself. An address that R243 asks
to be aligned and is not raises MISALIGNED (log entry 132). -/
def Ctx.startChecks (c : Ctx) (w : Opnd) (a : Nat) : Except LateErr AttnRun := do
  let d := leNat (c.bytes a 64)
  match c.ti.firstBad a 64 with
  | some k => .error (.sramUncorr, k)
  | none => pure ()
  need (descOk w d) .claimViolation (wordAddr a)
  need (apR d % 8 == 0) .misaligned (wordAddr (apR d))
  need (apO d % 8 == 0) .misaligned (wordAddr (apO d))
  need (apQ d % 8 == 0) .misaligned (wordAddr (apQ d))
  need (c.arraysClaimed w d && c.banksGranted w d) .claimViolation (wordAddr a)
  match c.passBad w a d with
  | some k => .error (.sramUncorr, k)
  | none => c.pass w d

/-- What the lane sees when a job starts: its scratchpad operands as the instruction found them (R109), the slab as it is. -/
def jobCtx (e : Engine) (t : Loc) (j : AttnJob) (i : Instance) (now : Nat) : Ctx :=
  let ti := e.tile t
  { now := now, e := e, h := { loc := t, thread := j.thread }, th := ti.thread j.thread, ti := { ti with sp := j.sp, badWords := j.badWords }, i := i }

/-- The pass at the head of the lane's queue starts if it has not: an ATTEND pass clears AD and the numerator registers it uses; a
pass that fails a check leaves the queue without any part of it performed and raises its exception at the address of its
instruction (R120, R143), and the next one starts. The queue has 2 entries. -/
def Engine.laneStart (now : Nat) (t : Loc) : Nat → Engine → Engine
  | 0, e => e
  | n + 1, e =>
    let ti := e.tile t
    match ti.attQ with
    | [] => e
    | j :: rest =>
      match j.run, ti.instOf j.slot with
      | none, some i =>
        match (jobCtx e t j i now).startChecks j.w j.addr with
        | .ok r =>
          ({ e with freeCtr := e.freeCtr + 2 ^ 21 } : Engine).modTile t (fun ti =>
            let ti := j.kvSlots.foldl (fun ti k => ti.touch now k) ti
            let ti := if j.attend then { r.clears.foldl (fun ti k => ti.setLreg (numReg j.banks k).1 (numReg j.banks k).2 {}) ti with ad := {} } else ti
            { ti with attQ := { j with run := some r } :: rest })
        | .error x =>
          ((e.modTile t (fun ti => { ti with attQ := rest })).raise now t j.thread j.pc (some j.slot) x.1 x.2).laneStart now t n
      | _, _ => e

/-- KV slots that a pass reads, in the order of its row entries: key pages, then value pages (R245, R252). -/
def Ctx.passSlots (c : Ctx) (d : Nat) : List Nat :=
  if apSrc d then []
  else (c.rowEntries d).flatMap (fun r =>
    ((List.range (fld d 206 205 + 1)) ++ (if apKind d = 0 then (List.range (fld d 204 203 + 1)).map (· + 3) else [])).map (fun j => fld (pageEntry r j) 12 0))

/-- APASS: at issue the encoding, and the alignment and the claim of the descriptor's address; a full queue or a filling granule
among its operands stalls the thread (R105, R108). The pass joins the queue and starts at once where none is before it (R143). -/
def execApass (h : Hart) (w : Opnd) (s : State) : Host.Outcome State Fault Refusal :=
  issue 0x7 0x00 (fieldsOk false true false false w (apassModOk w)) false h w (fun c =>
    let a := c.xn w.a
    aligned a 64 <| c.claim a 64 <|
    if decide (c.ti.attQ.length ≥ 2) || c.ti.fillingIn a 64 then .wait c.e
    else
      let d := leNat (c.bytes a 64)
      if descOk w d && c.passWaits w d then .wait c.e
      else
        let bank := mod w 31 30
        let j : AttnJob :=
          { thread := h.thread, slot := c.th.task, pc := c.th.pc.toNat, w := { w with ecc := [] }, addr := a, sp := c.ti.sp, badWords := c.ti.badWords
            kvSlots := c.passSlots d, attend := apKind d == 0
            banks := if apKind d = 0 then (if apPair w then [bank, bank + 1] else [bank]) else [] }
        .queued ((c.withThread c.e (fun th => { th with pc := th.pc + 8, run := .running, since := 0 })).modTile h.loc
          (fun ti => { ti with attQ := ti.attQ ++ [j] }) |>.laneStart c.now h.loc 2)) s

/-- The pass at the head of the lane's queue ends: sums, AD, result, counts, CNT_ATT (R102). -/
def passEnd (ti : Tile) : Tile :=
  match ti.attQ with
  | ⟨_, slot, _, _, _, _, _, _, banks, attend, some j⟩ :: rest =>
    let ti := j.adds.foldl (fun ti a =>
      let r := numReg banks a.reg
      ti.setLreg r.1 r.2 ((ti.lreg r.1 r.2).add a).1) ti
    let ti := if attend then { ti with ad := j.ad } else ti
    let ti := j.writes.foldl (fun ti x => ti.store x.1 x.2) ti
    let ti := ((ti.count 8 j.flushedIn).count 9 j.flushedTerms).count 10 j.violations
    ({ ti with attQ := rest } : Tile).modInst slot (·.bump 3)
  | _ => ti

/-- ATTN_PASS_END (R102): the pass that runs ends and the next in the queue starts; where none runs the event does not take
place. -/
def execAttnPassEnd (t : Loc) (s : State) : Host.Outcome State Fault Refusal :=
  onUnit (locOk t) s (fun now e => if ((e.tile t).attQ.head?.bind (·.run)).isSome then (e.modTile t passEnd).laneStart now t 2 else e)

/-- PORT_FAULT of the NV port: the pages delivered by then stay written, the descriptor leaves its queue, and DETAIL is the page
awaited (R111, R120, Table 3.9a). -/
def nvPortFault (t : Loc) (k now : Nat) (e : Engine) : Engine :=
  let ti := e.tile t
  match ti.nvQ with
  | [] => e
  | j :: rest =>
    let n := min k (j.count - 1)
    let r := nvRead ti.page (fun _ => false) n j.first j.len
    (e.modTile t (fun ti => ({ ti.store j.dst r.1 with nvQ := nvHead (e.field t.field) rest } : Tile).unfill j.dst j.len)).raise
      now t j.thread j.pc (some j.slot) .portFault (j.first + n)

/-- PORT_FAULT of the DRAM port: the k-th descriptor, where it is in progress, or page k - 32 of the pass that runs, leaves its queue,
DETAIL is the slot awaited, and the next pass starts (R106, R111, R120, Table 3.9a). -/
def dramPortFault (t : Loc) (k now : Nat) (e : Engine) : Engine :=
  let ti := e.tile t
  let gone (e : Engine) : Engine := e.modTile t (fun ti => { ti with dramFault := true })
  if k < 32 then
    match ti.dramQ[k]? with
    | some j =>
      if dramStarted ti.dramQ k then
        (gone (e.modTile t (fun ti => { ti with dramQ := ti.dramQ.eraseIdx k }))).raise now t j.thread j.pc (some j.slot) .portFault j.kvSlot
      else e
    | none => e
  else
    match ti.attQ with
    | j :: rest =>
      (match j.run, j.kvSlots[k - 32]? with
       | some _, some s => ((gone (e.modTile t (fun ti => { ti with attQ := rest }))).raise now t j.thread j.pc (some j.slot) .portFault s).laneStart now t 2
       | _, _ => e)
    | [] => e

/-- PORT_FAULT (R111). -/
def execPortFault (t : Loc) (port : SlabPort) (s : State) (k : Nat := 0) : Host.Outcome State Fault Refusal :=
  onUnit (locOk t) s (match port with | .nv => nvPortFault t k | .dram => dramPortFault t k)

end Sys2Proof.Machine
end

