-- ==== Sys2Proof/Machine/Control.lean ====
section
/-!
DEFINITION. Control and synchronisation, GROUP 0x2 (R129 to R133, R87, R499).
-/
namespace Sys2Proof.Machine

/-- PC + 8 * IMM (Table 4.6). -/
def Ctx.relative (c : Ctx) (w : Opnd) : Nat := (BitVec.ofNat 64 c.th.pc.toNat + simm w * 8).toNat

/-- A branch or jump to `t`: aligned, and inside a code region of the claim (R129). -/
def Ctx.goto (c : Ctx) (t : Nat) (e : Engine) : Iss :=
  aligned t 8 (check (c.ti.claimed c.i (some 1) t) .claimViolation (wordAddr t) (.jump t e))

/-- A conditional branch: its target is checked only when it is taken (R129). -/
def branch (op : Nat) (f : Word → Word → Bool) (h : Hart) (w : Opnd) (s : State) : Host.Outcome State Fault Refusal :=
  issue 0x2 op (fieldsOk false true true false w true) false h w (fun c =>
    if f (c.x w.a) (c.x w.b) then c.goto (c.relative w) c.e else .done c.e) s

/-- BEQ (R129). -/
def execBeq (h : Hart) (w : Opnd) (s : State) := branch 0x00 (fun a b => a == b) h w s
/-- BNE (R129). -/
def execBne (h : Hart) (w : Opnd) (s : State) := branch 0x01 (fun a b => a != b) h w s
/-- BLT (R129). -/
def execBlt (h : Hart) (w : Opnd) (s : State) := branch 0x02 (fun a b => a.slt b) h w s
/-- BGE (R129). -/
def execBge (h : Hart) (w : Opnd) (s : State) := branch 0x03 (fun a b => !a.slt b) h w s
/-- BLTU (R129). -/
def execBltu (h : Hart) (w : Opnd) (s : State) := branch 0x04 (fun a b => a.ult b) h w s
/-- BGEU (R129). -/
def execBgeu (h : Hart) (w : Opnd) (s : State) := branch 0x05 (fun a b => !a.ult b) h w s

/-- PC + 8, which JAL and JALR link. -/
def Ctx.link (c : Ctx) : Word := BitVec.ofNat 64 (c.th.pc + 8).toNat

/-- JAL (R129). -/
def execJal (h : Hart) (w : Opnd) (s : State) : Host.Outcome State Fault Refusal :=
  issue 0x2 0x08 (fieldsOk true false false false w true) false h w (fun c =>
    c.goto (c.relative w) (c.writeX w.d c.link c.e)) s

/-- JALR (R129). -/
def execJalr (h : Hart) (w : Opnd) (s : State) : Host.Outcome State Fault Refusal :=
  issue 0x2 0x09 (fieldsOk true true false false w true) false h w (fun c =>
    c.goto (c.x w.a + simm w).toNat (c.writeX w.d c.link c.e)) s

/-- Has an operation of the classes in mask, issued earlier by thread k, not yet taken effect (R130)? Stores and LPLACE
adds take effect when they issue; mover and network operands are taken at issue (R109), their completions are not. -/
def Tile.fenceOpen (ti : Tile) (k mask : Nat) : Bool :=
  (mask.testBit 1 && ti.movQ.any (·.thread == k)) || (mask.testBit 2 && ti.nvQ.any (·.thread == k)) ||
  (mask.testBit 3 && ti.dramQ.any (·.thread == k)) || (mask.testBit 4 && ti.sendQ.any (·.thread == k)) ||
  (mask.testBit 5 && (ti.matQ ++ ti.matU).any (·.thread == k)) || (mask.testBit 6 && ti.attQ.any (·.thread == k))

/-- FENCE (R130). -/
def execFence (h : Hart) (w : Opnd) (s : State) : Host.Outcome State Fault Refusal :=
  issue 0x2 0x10 (fieldsOk false false false false w (mod w 31 8 == 0)) false h w (fun c =>
    if c.ti.fenceOpen h.thread (mod w 7 0) then .wait c.e else .done c.e) s

/-- FENCE.I: the copies of the instruction buffer are discarded (R87). -/
def execFenceI (h : Hart) (w : Opnd) (s : State) : Host.Outcome State Fault Refusal :=
  issue 0x2 0x11 (fieldsOk false false false false w (w.imm == 0)) false h w (fun c =>
    .done (c.modTile (fun ti => { ti with ibuf := [] }))) s

/-- Has every other thread of the instance reached TBAR k or ended (R131)? -/
def Tile.othersAt (ti : Tile) (i : Instance) (self k : Nat) : Bool :=
  i.threads.all (fun j => j == self || (ti.thread j).ended || (ti.thread j).barrier == some k)

/-- TBAR k released for the other threads that wait at it: each goes on after its TBAR. -/
def Tile.release (ti : Tile) (i : Instance) (self k : Nat) : Tile :=
  i.threads.foldl (fun ti j =>
    if j != self && !(ti.thread j).ended && (ti.thread j).barrier == some k then
      ti.modThread j (fun th => { th with pc := th.pc + 8, run := .running, since := 0, barrier := none })
    else ti) ti

/-- TBAR (R131). -/
def execTbar (h : Hart) (w : Opnd) (s : State) : Host.Outcome State Fault Refusal :=
  issue 0x2 0x12 (fieldsOk false false false false w (mod w 31 4 == 0)) false h w (fun c =>
    let k := mod w 3 0
    if c.ti.othersAt c.i h.thread k then
      .done ((c.modTile (fun ti => (ti.release c.i h.thread k).modThread h.thread (fun th => { th with barrier := none }))))
    else .wait (c.withThread c.e (fun th => { th with barrier := some k }))) s

/-- WAITC: (counter - xA[31:0]) modulo 2^32, read as signed, at least 0 (R132). -/
def execWaitc (h : Hart) (w : Opnd) (s : State) : Host.Outcome State Fault Refusal :=
  issue 0x2 0x13 (fieldsOk false true false false w (decide (w.imm.toNat ≤ 5))) false h w (fun c =>
    let n := mget (fun _ => 0) (mod w 2 0) c.i.cnt
    let diff := BitVec.ofNat 32 n - (c.x w.a).truncate 32
    if diff.msb then .wait c.e else .done c.e) s

/-- RDPACE: PACE_NOW, never smaller than an earlier one of the thread (R499). -/
def execRdpace (h : Hart) (w : Opnd) (s : State) : Host.Outcome State Fault Refusal :=
  issue 0x2 0x18 (fieldsOk true false false false w (w.imm == 0)) false h w (fun c =>
    let v := max c.now c.th.lastPace
    .done (c.withThread c.e (fun th => { th.setX w.d (BitVec.ofNat 64 v) with lastPace := v }))) s

/-- A counter of Table 4.7 (R132). -/
def Ctx.counter (c : Ctx) (k : Nat) : Nat := if k < 8 then mget (fun _ => 0) k c.i.cnt else mget (fun _ => 0) k c.ti.stepCnt

/-- RDCNT: codes 0 to 5 and 8 to 13 (R132). -/
def execRdcnt (h : Hart) (w : Opnd) (s : State) : Host.Outcome State Fault Refusal :=
  issue 0x2 0x19 (fieldsOk true false false false w (decide (w.imm.toNat < 14) && w.imm.toNat != 6 && w.imm.toNat != 7)) false h w
    (fun c => .done (c.writeX w.d (BitVec.ofNat 64 (c.counter (mod w 3 0))) c.e)) s

/-- END: the thread ends, and counts as arrived at every later barrier (R131, R133). -/
def execEndThread (h : Hart) (w : Opnd) (s : State) : Host.Outcome State Fault Refusal :=
  issue 0x2 0x1F (fieldsOk false false false false w (w.imm == 0)) false h w (fun c =>
    .ended (c.modTile (fun ti => (List.range 16).foldl (fun ti k => if ti.othersAt c.i h.thread k then ti.release c.i h.thread k else ti) ti))) s

end Sys2Proof.Machine
end

