-- ==== Sys2Proof/Machine/Crypto.lean ====
section
/-!
DEFINITION. The digest and the signature that R177, R179 and R187 name: SHA-384 (FIPS 180-4) and ECDSA over P-384 with SHA-384
(FIPS 186-5). The constants and the steps are those of the two standards (log entry 19).
-/
namespace Sys2Proof.Machine

/-! ### SHA-384 (FIPS 180-4) -/

/-- The round constants, rounds 0 to 39. -/
def shaK1 : List (BitVec 64) :=
  [
    0x428A2F98D728AE22, 0x7137449123EF65CD, 0xB5C0FBCFEC4D3B2F, 0xE9B5DBA58189DBBC, 0x3956C25BF348B538, 0x59F111F1B605D019,
    0x923F82A4AF194F9B, 0xAB1C5ED5DA6D8118, 0xD807AA98A3030242, 0x12835B0145706FBE, 0x243185BE4EE4B28C, 0x550C7DC3D5FFB4E2,
    0x72BE5D74F27B896F, 0x80DEB1FE3B1696B1, 0x9BDC06A725C71235, 0xC19BF174CF692694, 0xE49B69C19EF14AD2, 0xEFBE4786384F25E3,
    0x0FC19DC68B8CD5B5, 0x240CA1CC77AC9C65, 0x2DE92C6F592B0275, 0x4A7484AA6EA6E483, 0x5CB0A9DCBD41FBD4, 0x76F988DA831153B5,
    0x983E5152EE66DFAB, 0xA831C66D2DB43210, 0xB00327C898FB213F, 0xBF597FC7BEEF0EE4, 0xC6E00BF33DA88FC2, 0xD5A79147930AA725,
    0x06CA6351E003826F, 0x142929670A0E6E70, 0x27B70A8546D22FFC, 0x2E1B21385C26C926, 0x4D2C6DFC5AC42AED, 0x53380D139D95B3DF,
    0x650A73548BAF63DE, 0x766A0ABB3C77B2A8, 0x81C2C92E47EDAEE6, 0x92722C851482353B]

/-- The round constants, rounds 40 to 79. -/
def shaK2 : List (BitVec 64) :=
  [
    0xA2BFE8A14CF10364, 0xA81A664BBC423001, 0xC24B8B70D0F89791, 0xC76C51A30654BE30, 0xD192E819D6EF5218, 0xD69906245565A910,
    0xF40E35855771202A, 0x106AA07032BBD1B8, 0x19A4C116B8D2D0C8, 0x1E376C085141AB53, 0x2748774CDF8EEB99, 0x34B0BCB5E19B48A8,
    0x391C0CB3C5C95A63, 0x4ED8AA4AE3418ACB, 0x5B9CCA4F7763E373, 0x682E6FF3D6B2B8A3, 0x748F82EE5DEFB2FC, 0x78A5636F43172F60,
    0x84C87814A1F0AB72, 0x8CC702081A6439EC, 0x90BEFFFA23631E28, 0xA4506CEBDE82BDE9, 0xBEF9A3F7B2C67915, 0xC67178F2E372532B,
    0xCA273ECEEA26619C, 0xD186B8C721C0C207, 0xEADA7DD6CDE0EB1E, 0xF57D4F7FEE6ED178, 0x06F067AA72176FBA, 0x0A637DC5A2C898A6,
    0x113F9804BEF90DAE, 0x1B710B35131C471B, 0x28DB77F523047D84, 0x32CAAB7B40C72493, 0x3C9EBE0A15C9BEBC, 0x431D67C49C100D4C,
    0x4CC5D4BECB3E42B6, 0x597F299CFC657E2A, 0x5FCB6FAB3AD6FAEC, 0x6C44198C4A475817]

/-- The initial hash value of SHA-384. -/
def shaInit : List (BitVec 64) :=
  [
    0xCBBB9D5DC1059ED8, 0x629A292A367CD507, 0x9159015A3070DD17, 0x152FECD8F70E5939, 0x67332667FFC00B31, 0x8EB44A8768581511,
    0xDB0C2E0D64F98FA7, 0x47B5481DBEFA4FA4]

/-- A big-endian number of bytes. -/
def beNat (bs : List Byte) : Nat := bs.foldl (fun n b => n * 256 + b.toNat) 0

/-- The n bytes of a number, the highest first. -/
def beBytes (n v : Nat) : List Byte := (natBytes v n).reverse

/-- A message padded to whole blocks of 128 bytes: a 1 bit, zeros, and its length in bits as 16 bytes. -/
def shaPad (m : List Byte) : List Byte :=
  m ++ [0x80#8] ++ List.replicate ((239 - m.length % 128) % 128) 0 ++ beBytes 16 (8 * m.length)

/-- The message schedule, extended by `n` words from the last 16, newest first. -/
def shaSchedule : Nat → List (BitVec 64) → List (BitVec 64)
  | 0, w => w
  | n + 1, w =>
    let a := w.getD 1 0
    let b := w.getD 14 0
    shaSchedule n ((w.getD 15 0 + w.getD 6 0 + ((a.rotateRight 19) ^^^ (a.rotateRight 61) ^^^ (a >>> 6)) +
      ((b.rotateRight 1) ^^^ (b.rotateRight 8) ^^^ (b >>> 7))) :: w)

/-- The eight working variables. -/
structure Sha where
  a : BitVec 64
  b : BitVec 64
  c : BitVec 64
  d : BitVec 64
  e : BitVec 64
  f : BitVec 64
  g : BitVec 64
  h : BitVec 64
deriving DecidableEq, Repr

/-- The working variables from eight words. -/
def Sha.ofList (l : List (BitVec 64)) : Sha :=
  { a := l.getD 0 0, b := l.getD 1 0, c := l.getD 2 0, d := l.getD 3 0, e := l.getD 4 0, f := l.getD 5 0, g := l.getD 6 0, h := l.getD 7 0 }

/-- The working variables as a list. -/
def Sha.toList (s : Sha) : List (BitVec 64) := [s.a, s.b, s.c, s.d, s.e, s.f, s.g, s.h]

/-- One round with constant k and schedule word w. -/
def Sha.round (s : Sha) (k w : BitVec 64) : Sha :=
  let t1 := s.h + ((s.e.rotateRight 14) ^^^ (s.e.rotateRight 18) ^^^ (s.e.rotateRight 41)) + ((s.e &&& s.f) ^^^ (~~~s.e &&& s.g)) + k + w
  let t2 := ((s.a.rotateRight 28) ^^^ (s.a.rotateRight 34) ^^^ (s.a.rotateRight 39)) + ((s.a &&& s.b) ^^^ (s.a &&& s.c) ^^^ (s.b &&& s.c))
  { a := t1 + t2, b := s.a, c := s.b, d := s.c, e := s.d + t1, f := s.e, g := s.f, h := s.g }

/-- One block of 128 bytes taken into the hash value. -/
def shaBlock (h : List (BitVec 64)) (b : List Byte) : List (BitVec 64) :=
  let w := (shaSchedule 64 ((List.range 16).map (fun i => BitVec.ofNat 64 (beNat ((b.drop (8 * i)).take 8)))).reverse).reverse
  List.zipWith (· + ·) h (((shaK1 ++ shaK2).zip w).foldl (fun s x => s.round x.1 x.2) (Sha.ofList h)).toList

/-- SHA-384 of a byte string, its first byte first. -/
def sha384 (m : List Byte) : List Byte :=
  let p := shaPad m
  (((List.range (p.length / 128)).foldl (fun h i => shaBlock h ((p.drop (128 * i)).take 128)) shaInit).flatMap (fun w => beBytes 8 w.toNat)).take 48

/-! ### ECDSA over P-384 (FIPS 186-5) -/

/-- The prime of the field. -/
def p384 : Nat := 2 ^ 384 - 2 ^ 128 - 2 ^ 96 + 2 ^ 32 - 1
/-- The order of the base point. -/
def n384 : Nat := 0xFFFFFFFFFFFFFFFFFFFFFFFFFFFFFFFFFFFFFFFFFFFFFFFFC7634D81F4372DDF581A0DB248B0A77AECEC196ACCC52973
/-- The coefficient b of y^2 = x^3 - 3x + b. -/
def b384 : Nat := 0xB3312FA7E23EE7E4988E056BE3F82D19181D9C6EFE8141120314088F5013875AC656398D8A2ED19D2A85C8EDD3EC2AEF
/-- The base point. -/
def g384 : Nat × Nat :=
  (0xAA87CA22BE8B05378EB1C71EF320AD746E1D3B628BA79B9859F741E082542A385502F25DBF55296C3A545E3872760AB7,
   0x3617DE4A96262C6F5D9E98BF9292DC29F8F41DBD289A147CE9DA3113B5F0B8C00A60B1CE1D7E819D7A431D7C90EA0E5F)

/-- a to the power of an exponent of at most `bits` bits, modulo m. -/
def powMod (m : Nat) : Nat → Nat → Nat → Nat
  | 0, _, _ => 1 % m
  | bits + 1, a, k => let r := powMod m bits (a * a % m) (k / 2); if k % 2 = 1 then a * r % m else r

/-- The inverse modulo a prime of 384 bits. -/
def invMod (m a : Nat) : Nat := powMod m 384 (a % m) (m - 2)

/-- a - b modulo m, for b below m. -/
def subMod (m a b : Nat) : Nat := (a + (m - b % m)) % m

/-- The sum of two points of the curve; none is the point at infinity. -/
def addPoint (a b : Option (Nat × Nat)) : Option (Nat × Nat) :=
  match a, b with
  | none, b => b
  | a, none => a
  | some (x, y), some (u, v) =>
    if x = u ∧ (y + v) % p384 = 0 then none
    else
      let l := if x = u then subMod p384 (3 * x * x) 3 * invMod p384 (2 * y) % p384 else subMod p384 v y * invMod p384 (subMod p384 u x) % p384
      let z := subMod p384 (l * l) (x + u)
      some (z, subMod p384 (l * subMod p384 x z) y)

/-- k times a point, for k of at most `bits` bits. -/
def mulPoint : Nat → Nat → Option (Nat × Nat) → Option (Nat × Nat)
  | 0, _, _ => none
  | bits + 1, k, a => let r := mulPoint bits (k / 2) (addPoint a a); if k % 2 = 1 then addPoint a r else r

/-- Is (x, y) a point of the curve? -/
def onCurve (q : Nat × Nat) : Bool :=
  decide (q.1 < p384) && decide (q.2 < p384) && (q.2 * q.2 % p384 == subMod p384 (q.1 * q.1 * q.1 + b384) (3 * q.1))

/-- Does the signature, r then s of 48 bytes each, verify over a message under a public key, x then y of 48 bytes each, all
little-endian (R177, R187)? A key that is no point of the curve verifies nothing. -/
def ecdsaOk (key m sig : List Byte) : Bool :=
  let q := (leNat (key.take 48), leNat ((key.drop 48).take 48))
  let r := leNat (sig.take 48)
  let s := leNat ((sig.drop 48).take 48)
  if key.length ≠ 96 ∨ sig.length ≠ 96 ∨ onCurve q = false ∨ r = 0 ∨ n384 ≤ r ∨ s = 0 ∨ n384 ≤ s then false
  else
    let w := invMod n384 s
    match addPoint (mulPoint 384 (beNat (sha384 m) * w % n384) (some g384)) (mulPoint 384 (r * w % n384) (some q)) with
    | none => false
    | some x => x.1 % n384 == r

end Sys2Proof.Machine
end

