-- ==== Sys2Proof/Machine/Links.lean ====
section
/-!
DEFINITION. What the engine sends on its Zarog ports (R354 to R357, R360, R363, R364): routes, the output queues with their arbiter and
credits, codewords, LINK flits.
-/
namespace Sys2Proof.Machine

/-- The step of a partition has a hardware fault without a tile exception (R113). -/
def Engine.stepFault (e : Engine) (p : Nat) : Engine := e.modPart p (fun q => { q with step := q.step.map (fun s => { s with hwFault := true }) })

/-- The same where something lost belonged to a step (R360, R363). -/
def Engine.faultOf (e : Engine) (part : Option Nat) : Engine := match part with | some p => e.stepFault p | none => e

/-! ### Packets (R356) -/

/-- Largest payload of a packet in bytes (Table 12.2). -/
def zpayload : Nat := 19458

/-- Virtual channel of a packet type; LINK and IDLE, on channel 0, are single flits between the two ends of a link (Table 12.3). -/
def typeVc : Nat → Option Nat
  | 0 => some 0
  | 4 => some 0
  | 1 => some 3
  | 2 => some 2
  | 3 => some 1
  | 5 => some 4
  | 6 => some 5
  | _ => none

/-- Is the packet one that Table 12.2 and Table 12.3 allow: its type, the channel of its type, its length? -/
def packetFormed (p : ZPacket) : Bool := typeVc p.type == some p.vc && p.vc != 0 && decide (p.payload.length ≤ zpayload)

/-- Flits reserved for a channel in a receive buffer of 32,768 (Table 12.3). -/
def reservedFlits (vc : Nat) : Nat := if vc = 1 then 16 else if vc = 2 then 64 else if vc = 0 ∨ 5 < vc then 0 else 1024

/-- Largest packet of a channel in flits (R356, R364): twice that much fits what the channel has reserved, which leaves a MSG, PAIR or IMP
packet of the greatest LEN, and a PACE or CTRL packet, whose layout is internal, half of the reserve (log entry 149). -/
def largestFlits (vc : Nat) : Nat := min (ceilDiv (16 + zpayload) 64) (reservedFlits vc / 2)

/-- Flits of a packet (R356): ceil((16 + LEN) / 64), where LEN of an internal layout is free, up to the channel's largest packet. -/
def zpacketFlits (p : ZPacket) : Nat :=
  if p.type = 2 ∨ p.type = 3 ∨ p.type = 5 then 1 + Config.internalLen p.type / 64 % largestFlits p.vc else ceilDiv (16 + p.payload.length) 64

/-- Flits of a packet at an output. -/
def ZWait.flits (w : ZWait) : Nat := zpacketFlits w.p

/-! ### Routes (R363) -/

/-- The ports that are UP, as a mask. -/
def Engine.upPorts (e : Engine) : Nat := ((List.range 24).filter (fun z => (e.zport z).state == .up)).foldl (fun m z => m + 2 ^ z) 0

/-- The ports that a packet may leave on: for a step that runs, those that were UP at its partition's last step boundary. -/
def Engine.openPorts (e : Engine) : Option Nat → Nat
  | some p => if (e.part p).step.isSome then (e.part p).upSet else e.upPorts
  | none => e.upPorts

/-- The change of the set of UP ports takes effect for the partition: it is at a step boundary. -/
def Engine.takePorts (e : Engine) (p : Nat) : Engine := let m := e.upPorts; e.modPart p (fun q => { q with upSet := m })

/-- The port on which a packet for another node leaves: of m open ports of its entry, number (Xs + Ys + Xd + Yd) mod m. -/
def Engine.portTo (e : Engine) (part : Option Nat) (node siteSum : Nat) : Option Nat :=
  let l := setBits (mget (fun _ => 0) node e.zroute &&& e.openPorts part) 24
  l[siteSum % l.length]?

/-! ### LINK flits (R355, R357) -/

/-- The partition stop mask of a port: the inbound hem buckets of its deck that are empty (R226, R357). -/
def Engine.ownStops (e : Engine) (z : Nat) : Nat :=
  ((List.range 32).filter (fun n => ((e.deck (z / 12)).hem 1 n).inBucket == 0)).foldl (fun m n => m + 2 ^ n) 0

/-- The flit position at which a port sends next: 3,125 flits leave it in each pace tick, idle ones where it has no other (R353). -/
def ZPort.pos (k : ZPort) (now : Nat) : Nat := max k.txPos (3125 * (now - k.since))

/-- A LINK flit goes out: the credits of what has left the receive buffer, the last codeword received in order, the port's stop mask, and
the NAK it reports. -/
def Engine.sendLink (e : Engine) (now z : Nat) (nak : Option Nat) : Engine :=
  let k := e.zport z
  (e.send (.link z { credits := k.owed, ack := (k.rxSeq + 65535) % 65536, stopMask := e.ownStops z } nak)).modZport z (fun k =>
    { k with owed := [], rxSince := 0, txPos := k.pos now + 1 })

/-- Flits of a channel leave the receive buffer of a port. -/
def Engine.owe (e : Engine) (z vc n : Nat) : Engine := e.modZport z (fun k => { k with owed := mmod (fun _ => 0) vc (· + n) k.owed })

/-- Flits in the receive buffer of a port: those of packets that wait to be forwarded. -/
def Engine.rxHeld (e : Engine) (z : Nat) : Nat :=
  (e.zports.flatMap (fun y => (y.2.queue.filter (fun w => w.via == some z)).map ZWait.flits)).foldl (· + ·) 0

/-! ### The output (R354, R357, R364) -/

/-- Does the partner's stop mask hold the packet back (R357)? -/
def ZPort.stops (k : ZPort) (w : ZWait) : Bool := w.p.type == 1 && k.stopMask.testBit w.p.dpart

/-- Credit that a packet needs: two packets of the largest size where it originates at the engine, one where it is forwarded (R364). -/
def ZWait.needs (w : ZWait) : Nat := (if w.via.isNone then 2 else 1) * largestFlits w.p.vc

/-- The next packet of a channel, if it may begin. -/
def ZPort.nextOn (k : ZPort) (vc : Nat) : Option ZWait :=
  match (k.queue.filter (fun w => w.p.vc == vc && !k.stops w)).head? with
  | some w => if w.needs ≤ mget (fun _ => 0) vc k.credits then some w else none
  | none => none

/-- The arbiter's choice: PACE, then CTRL, then the others in turn. -/
def ZPort.pick (k : ZPort) : Option ZWait :=
  ([1, 2] ++ (if k.rr = 3 then [4, 5, 3] else if k.rr = 4 then [5, 3, 4] else [3, 4, 5])).findSome? k.nextOn

/-- A packet leaves on a port: its credit is used, it takes its place in the stream of codewords, 10 flits each, and stays unacknowledged;
a forwarded one leaves the receive buffer of the port it came by. -/
def Engine.zemit (e : Engine) (now z : Nat) (w : ZWait) : Engine :=
  let e := (e.send (.zarog z w.p w.b)).modZport z (fun k =>
    let q := k.pos now + w.flits
    { k with
      queue := k.queue.erase w, credits := mmod (fun _ => 0) w.p.vc (fun n => n - w.flits) k.credits, txPos := q
      rr := if 3 ≤ w.p.vc then w.p.vc else k.rr, inFlight := k.inFlight ++ [{ w := w, flits := w.flits, last := (q - 1) / 10 % 65536 }] })
  match w.via with | some y => e.owe y w.p.vc w.flits | none => e

/-- Packets leave while one may begin. -/
def pump (now z : Nat) : Nat → Engine → Engine
  | 0, e => e
  | n + 1, e => match (e.zport z).pick with | some w => pump now z n (e.zemit now z w) | none => e

/-- The output of a port moves. -/
def Engine.zmoves (e : Engine) (now z : Nat) : Engine := pump now z (e.zport z).queue.length e

/-- A packet put at the output of a port. -/
def Engine.zput (e : Engine) (now z : Nat) (w : ZWait) : Engine := (e.modZport z (fun k => { k with queue := k.queue ++ [w] })).zmoves now z

/-- A packet of the engine's own discarded and counted; the step it belongs to has a hardware fault (R363). -/
def Engine.zlose (e : Engine) (part : Option Nat) : Engine := ({ e with zdrops := e.zdrops + 1 } : Engine).faultOf part

/-- A packet that originates at the engine leaves by its route, or is discarded (R363). -/
def Engine.zoriginate (e : Engine) (now : Nat) (w : ZWait) : Engine :=
  match e.portTo w.part w.p.dnode w.p.siteSum with
  | some z => if (e.zport z).state = .up then e.zput now z w else e.zlose w.part
  | none => e.zlose w.part

/-! ### Messages between engines -/

/-- Node of the engine. -/
def Engine.node (e : Engine) : Nat := e.engineId.toNat % 4096

/-- Node of a pair's other engine. -/
def Engine.partnerNode (e : Engine) : Nat := e.pair.partner.toNat % 4096

/-- X + Y of a site in deck coordinates (R204, R363). -/
def siteSum (t : Loc) : Nat := t.field % 48 % 8 * 24 + t.site % 24 + (t.field % 48 / 8 * 30 + t.site / 24)

/-- The header of a packet that the engine sends for partition `dpart` of the node: SNODE its own, TTL 32 (Table 12.2); system traffic
carries EPOCH 0. -/
def Engine.zheader (e : Engine) (type node dpart epoch siteSum : Nat) (sys : Bool) (bs : List Byte) : ZPacket :=
  { type := type, vc := (typeVc type).getD 0, dnode := node, snode := e.node, dpart := dpart % 32, epoch := if sys then 0 else epoch, ttl := 32, sys := sys, dvtile := 0, mbox := 0
    siteSum := siteSum, payload := bs }

/-- A CTRL message for a partition of another engine (R365, R372): system traffic, by the route to its node. -/
def Engine.ctrl (e : Engine) (now node dpart : Nat) (b : ZBody) : Engine := e.zoriginate now { p := e.zheader 2 node dpart 0 0 true [], b := b }

/-- Bytes cut into payloads of packets; no bytes are one packet. -/
def cutPayload : Nat → List Byte → List (List Byte)
  | 0, _ => []
  | n + 1, bs => if bs.length ≤ zpayload then [bs] else bs.take zpayload :: cutPayload n (bs.drop zpayload)

/-- Data of a partition's step for a part of its span on another engine (R366), in as many packets of type MSG as it needs; the last one
completes it. -/
def Engine.spanData (e : Engine) (now p : Nat) (node dpart siteSum : Nat) (bs : List Byte) (b : ZBody) : Engine :=
  let l := cutPayload (bs.length / zpayload + 1) bs
  l.zipIdx.foldl (fun e x =>
    e.zoriginate now { p := e.zheader 1 node dpart (e.part p).epoch siteSum false x.1, b := if x.2 + 1 = l.length then b else .bytes, part := some p }) e

/-- A pair message on the lowest pair-link port that is UP (R379 to R383; log entry 150). -/
def Engine.twin (e : Engine) (now p : Nat) (b : ZBody) : Engine :=
  match (setBits (e.pair.mask &&& e.upPorts) 24).head? with
  | some z => e.zput now z { p := e.zheader 5 e.partnerNode p 0 0 true [], b := b }
  | none => e.zlose none

/-- The same of a partition, by kind and value. -/
def Engine.pairMsg (e : Engine) (now p kind value : Nat) : Engine := e.twin now p (.pair p kind value)

/-- A port's PACE packet: the pace master, which is this engine unless its source is Zarog, and its hop count (R371). -/
def Engine.sendPace (e : Engine) (now z : Nat) : Engine :=
  let own := e.pace.src != 3
  e.zput now z { p := e.zheader 3 (e.zport z).pnode 0 0 0 true [], b := .pace (if own then e.node else e.pace.master) (if own then 0 else e.pace.hops) }

end Sys2Proof.Machine
end

