-- ==== Sys2Proof/Machine/Packets.lean ====
section
/-!
DEFINITION. Command packets as bytes (R342, R347, R348; Tables 11.9, 11.12, 11.13): the packet of each host command, and the command
that a packet spells. What a command reads from host memory is no part of its packet: `dataOf` gives it, and the decoder takes it
beside the packet.
-/
namespace Sys2Proof.Machine

/-! ### Packets from commands -/

/-- Bytes of a packet (R342): the header of Table 11.9 with an opcode and LENGTH, then the parameters as (offset, bytes, value). -/
def packetBytes (h : Hdr) (op len : Nat) (l : List (Nat × Nat × Nat)) : List Byte :=
  natBytes (pack [(64, h.tick), (10, 0), (1, bnat h.fence), (1, bnat h.keepAdapt), (1, bnat h.force), (1, bnat h.silent), (1, 0), (5, h.part), (12, len), (16, h.tag), (16, op)]) 16 ++
    natBytes (l.foldl (fun v x => v + x.2.2 % 256 ^ x.2.1 * 256 ^ x.1) 0) len

/-- The 56 bytes of Table 11.13 as a number. -/
def submitWord (q : SubmitParams) : Nat :=
  pack [(48, 0), (8, q.tenant), (2, 0), (6, q.image), (3, 0), (1, bnat q.retain), (1, bnat q.spec), (3, q.prio), (2, 0), (6, q.topkM1), (16, q.chunkMax),
    (32, q.eos), (32, q.topP.toNat), (32, q.temp.toNat), (64, q.deadline), (64, q.key.toNat), (32, q.maxLen), (32, q.promptLen), (64, q.promptAddr)]

/-- The packet of a host command (Table 11.12); none for a command that is no packet. -/
def packetOf : Instr → Option (List Byte)
  | .reqSubmit h q => some (packetBytes h 0x0101 56 [(0, 56, submitWord q)])
  | .reqQuery h i a => some (packetBytes h 0x0102 16 [(0, 4, i), (8, 8, a)])
  | .reqUpdate h i m q => some (packetBytes h 0x0103 64 [(0, 4, i), (4, 4, m), (8, 56, submitWord q)])
  | .reqPause h i => some (packetBytes h 0x0104 8 [(0, 4, i)])
  | .reqResume h i => some (packetBytes h 0x0105 8 [(0, 4, i)])
  | .reqCancel h i => some (packetBytes h 0x0106 8 [(0, 4, i)])
  | .reqRelease h i => some (packetBytes h 0x0107 8 [(0, 4, i)])
  | .reqAppend h i n a => some (packetBytes h 0x0108 16 [(0, 4, i), (4, 4, n), (8, 8, a)])
  | .reqDraft h i r ns => some (packetBytes h 0x0109 (8 + 8 * ns.length)
      ([(0, 4, i), (4, 4, r)] ++ ns.zipIdx.flatMap (fun x => [(8 + 8 * x.2, 4, x.1.1), (12 + 8 * x.2, 1, x.1.2)])))
  | .imgFit h m b f a => some (packetBytes h 0x0201 40 [(0, 8, m), (8, 4, b.length), (12, 12, f), (32, 8, a)])
  | .imgBegin h m b f p z => some (packetBytes h 0x0202 40 [(0, 8, m), (8, 4, b.length), (12, 12, f), (24, 1, p), (25, 1, z)])
  | .imgStream h i a fs => some (packetBytes h 0x0203 24 [(0, 4, i), (4, 4, fs.length), (8, 8, a)])
  | .imgEnd h i a => some (packetBytes h 0x0204 16 [(0, 4, i), (8, 8, a)])
  | .imgAbort h i => some (packetBytes h 0x0205 8 [(0, 4, i)])
  | .imgPatch h i x => some (packetBytes h 0x0206 16 [(0, 4, i), (8, 8, x.toNat)])
  | .imgTierLoad h i a fs r b c => some (packetBytes h 0x0207 40 [(0, 4, i), (4, 4, fs.length), (8, 8, a), (16, 8, r), (24, 8, b), (32, 2, c)])
  | .imgRelease h i => some (packetBytes h 0x0208 8 [(0, 4, i)])
  | .imgQuery h i a => some (packetBytes h 0x0209 16 [(0, 4, i), (8, 8, a)])
  | .keyEnrol h s k g => some (packetBytes h 0x020A 200 [(0, 1, s), (8, 96, leNat k), (104, 96, leNat g)])
  | .partBindFields h f i => some (packetBytes h 0x0301 16 [(0, 12, f), (12, 1, i)])
  | .partBindImage h i => some (packetBytes h 0x0302 8 [(0, 1, i)])
  | .tenantBind h t => some (packetBytes h 0x0303 8 [(0, 1, t)])
  | .partMode h m b r c => some (packetBytes h 0x0304 16 [(0, 4, m), (4, 1, b), (5, 1, r), (6, 2, c)])
  | .partPause h => some (packetBytes h 0x0305 0 [])
  | .partResume h => some (packetBytes h 0x0306 0 [])
  | .partReset h => some (packetBytes h 0x0307 0 [])
  | .tenantSet h t w m en k => some (packetBytes h 0x0308 8 [(0, 1, t), (1, 1, w), (2, 2, m), (4, 1, bnat en), (5, 1, k)])
  | .hemSet h d t n i o b => some (packetBytes h 0x0309 16 [(0, 1, d), (1, 1, t), (2, 1, n), (4, 2, i), (6, 2, o), (8, 2, b)])
  | .kvReserve h a b c l => some (packetBytes h 0x030A 24 [(0, 8, a), (8, 8, b), (16, 2, c), (18, 2, l)])
  | .graphLoad h a k i => some (packetBytes h 0x0401 24 [(0, 8, a), (8, 8, k.length), (16, 1, i)])
  | .graphUnload h g => some (packetBytes h 0x0402 8 [(0, 1, g)])
  | .graphQuery h g a => some (packetBytes h 0x0403 16 [(0, 1, g), (8, 8, a)])
  | .adaptSave h a b k => some (packetBytes h 0x0404 24 [(0, 8, a), (8, 8, b), (16, 1, k)])
  | .adaptRestore h a d k => some (packetBytes h 0x0405 24 [(0, 8, a), (8, 8, d.length), (16, 1, k)])
  | .monRead h s d p t f n a => some (packetBytes h 0x0501 24 [(0, 1, s), (1, 1, d), (2, 1, p), (4, 2, t), (6, 2, f), (8, 4, n), (16, 8, a)])
  | .nwRead h f n a => some (packetBytes h 0x0502 16 [(0, 2, f), (2, 2, n), (8, 8, a)])
  | .nwWrite h n v => some (packetBytes h 0x0503 24 [(0, 2, n), (8, 16, v.toNat)])
  | .histRead h m a => some (packetBytes h 0x0504 16 [(0, 4, m), (8, 8, a)])
  | .histClear h m => some (packetBytes h 0x0505 8 [(0, 4, m)])
  | .tenantQuery h t a => some (packetBytes h 0x0506 16 [(0, 1, t), (8, 8, a)])
  | .pwrState h t => some (packetBytes h 0x0601 8 [(0, 1, t)])
  | .pwrCap h w => some (packetBytes h 0x0602 8 [(0, 4, w)])
  | .thermQuery h a => some (packetBytes h 0x0603 16 [(8, 8, a)])
  | .throttleQuery h a => some (packetBytes h 0x0604 16 [(8, 8, a)])
  | .darnRead h f a => some (packetBytes h 0x0701 16 [(0, 1, f), (8, 8, a)])
  | .darnRemap h f s => some (packetBytes h 0x0702 8 [(0, 1, f), (2, 2, s)])
  | .rinseSet h d v => some (packetBytes h 0x0703 8 [(0, 1, d), (4, 4, v.toNat)])
  | .selfTest h s d => some (packetBytes h 0x0704 8 [(0, 1, s), (1, 1, d)])
  | .snapshot h m a b => some (packetBytes h 0x0705 24 [(0, 4, m), (8, 8, a), (16, 8, b)])
  | .restore h m a d => some (packetBytes h 0x0706 24 [(0, 4, m), (8, 8, a), (16, 8, d.length)])
  | .reset h s d f t => some (packetBytes h 0x0707 8 [(0, 1, s), (1, 1, d), (2, 1, f), (4, 2, t)])
  | .journalRead h f a => some (packetBytes h 0x0708 16 [(0, 4, f), (8, 8, a)])
  | .schedWithdraw h t => some (packetBytes h 0x0709 8 [(0, 2, t)])
  | .zportCtl h z a => some (packetBytes h 0x0801 8 [(0, 1, z), (1, 1, a)])
  | .zportQuery h z a => some (packetBytes h 0x0802 16 [(0, 1, z), (8, 8, a)])
  | .paceSrc h s z _ => some (packetBytes h 0x0803 8 [(0, 1, s), (1, 1, z)])
  | .pairCfg h m k a l => some (packetBytes h 0x0804 24 [(0, 1, m), (4, 3, k), (8, 8, a), (16, 8, l.length)])
  | .zrouteSet h p m => some (packetBytes h 0x0805 16 [(0, 8, p.toNat), (8, 3, m)])
  | .pairTakeover h => some (packetBytes h 0x0806 0 [])
  | _ => none

/-- Bytes of one imprint frame in host memory (Table 11.12). -/
def frameStride : Nat := 19520

/-- What a host command has read from host memory; a frame stands at the stride of Table 11.12. -/
def dataOf : Instr → List Byte
  | .imgFit _ _ b _ _ => b
  | .imgBegin _ _ b _ _ _ => b
  | .imgStream _ _ _ fs => fs.flatten
  | .imgTierLoad _ _ _ fs _ _ _ => fs.flatten
  | .graphLoad _ _ k _ => k
  | .adaptRestore _ _ d _ => d
  | .restore _ _ _ d => d
  | .pairCfg _ _ _ _ l => l
  | _ => []

/-! ### Commands from packets -/

/-- The header of a packet of a function. -/
def hdrOf (f : Fn) (bs : List Byte) : Hdr :=
  let w := leNat (bs.take 8)
  { fn := f, tag := fld w 31 16, tick := leNat ((bs.drop 8).take 8), part := fld w 48 44, fence := bitAt w 53, keepAdapt := bitAt w 52
    force := bitAt w 51, silent := bitAt w 50 }

/-- The parameters of Table 11.13 from their 56 bytes. -/
def submitOf (v : Nat) : SubmitParams :=
  { tenant := fld v 399 392, image := fld v 389 384, retain := bitAt v 380, spec := bitAt v 379, prio := fld v 378 376, topkM1 := fld v 373 368
    chunkMax := fld v 367 352, eos := fld v 351 320, topP := BitVec.ofNat 32 (fld v 319 288), temp := BitVec.ofNat 32 (fld v 287 256)
    deadline := fld v 255 192, key := BitVec.ofNat 64 (fld v 191 128), maxLen := fld v 127 96, promptLen := fld v 95 64, promptAddr := fld v 63 0 }

/-- Whole frames of the stride of Table 11.12. -/
def frames : Nat → List Byte → List (List Byte)
  | 0, _ => []
  | n + 1, d => d.take frameStride :: frames n (d.drop frameStride)

/-- The commands of groups 0x01xx to 0x03xx: header, opcode, LENGTH, the parameter of a byte range, and what is read from host memory. -/
def commandA (h : Hdr) (op len : Nat) (p : Nat → Nat → Nat) (d : List Byte) : Option Instr :=
  match op with
  | 0x0101 => some (.reqSubmit h (submitOf (p 0 56)))
  | 0x0102 => some (.reqQuery h (p 0 4) (p 8 8))
  | 0x0103 => some (.reqUpdate h (p 0 4) (p 4 4) (submitOf (p 8 56)))
  | 0x0104 => some (.reqPause h (p 0 4))
  | 0x0105 => some (.reqResume h (p 0 4))
  | 0x0106 => some (.reqCancel h (p 0 4))
  | 0x0107 => some (.reqRelease h (p 0 4))
  | 0x0108 => some (.reqAppend h (p 0 4) (p 4 4) (p 8 8))
  | 0x0109 => some (.reqDraft h (p 0 4) (p 4 4) ((List.range ((len - 8) / 8)).map (fun j => (p (8 + 8 * j) 4, p (12 + 8 * j) 1))))
  | 0x0201 => some (.imgFit h (p 0 8) d (p 12 12) (p 32 8))
  | 0x0202 => some (.imgBegin h (p 0 8) d (p 12 12) (p 24 1) (p 25 1))
  | 0x0203 => some (.imgStream h (p 0 4) (p 8 8) (frames (p 4 4) d))
  | 0x0204 => some (.imgEnd h (p 0 4) (p 8 8))
  | 0x0205 => some (.imgAbort h (p 0 4))
  | 0x0206 => some (.imgPatch h (p 0 4) (BitVec.ofNat 64 (p 8 8)))
  | 0x0207 => some (.imgTierLoad h (p 0 4) (p 8 8) (frames (p 4 4) d) (p 16 8) (p 24 8) (p 32 2))
  | 0x0208 => some (.imgRelease h (p 0 4))
  | 0x0209 => some (.imgQuery h (p 0 4) (p 8 8))
  | 0x020A => some (.keyEnrol h (p 0 1) (natBytes (p 8 96) 96) (natBytes (p 104 96) 96))
  | 0x0301 => some (.partBindFields h (p 0 12) (p 12 1))
  | 0x0302 => some (.partBindImage h (p 0 1))
  | 0x0303 => some (.tenantBind h (p 0 1))
  | 0x0304 => some (.partMode h (p 0 4) (p 4 1) (p 5 1) (p 6 2))
  | 0x0305 => some (.partPause h)
  | 0x0306 => some (.partResume h)
  | 0x0307 => some (.partReset h)
  | 0x0308 => some (.tenantSet h (p 0 1) (p 1 1) (p 2 2) (p 4 1 % 2 == 1) (p 5 1))
  | 0x0309 => some (.hemSet h (p 0 1) (p 1 1) (p 2 1) (p 4 2) (p 6 2) (p 8 2))
  | 0x030A => some (.kvReserve h (p 0 8) (p 8 8) (p 16 2) (p 18 2))
  | _ => none

/-- The commands of groups 0x04xx to 0x08xx. `v` is the pace source's value that PACE_SRC compares. -/
def commandB (h : Hdr) (op : Nat) (p : Nat → Nat → Nat) (d : List Byte) (v : Nat) : Option Instr :=
  match op with
  | 0x0401 => some (.graphLoad h (p 0 8) d (p 16 1))
  | 0x0402 => some (.graphUnload h (p 0 1))
  | 0x0403 => some (.graphQuery h (p 0 1) (p 8 8))
  | 0x0404 => some (.adaptSave h (p 0 8) (p 8 8) (p 16 1))
  | 0x0405 => some (.adaptRestore h (p 0 8) d (p 16 1))
  | 0x0501 => some (.monRead h (p 0 1) (p 1 1) (p 2 1) (p 4 2) (p 6 2) (p 8 4) (p 16 8))
  | 0x0502 => some (.nwRead h (p 0 2) (p 2 2) (p 8 8))
  | 0x0503 => some (.nwWrite h (p 0 2) (BitVec.ofNat 128 (p 8 16)))
  | 0x0504 => some (.histRead h (p 0 4) (p 8 8))
  | 0x0505 => some (.histClear h (p 0 4))
  | 0x0506 => some (.tenantQuery h (p 0 1) (p 8 8))
  | 0x0601 => some (.pwrState h (p 0 1))
  | 0x0602 => some (.pwrCap h (p 0 4))
  | 0x0603 => some (.thermQuery h (p 8 8))
  | 0x0604 => some (.throttleQuery h (p 8 8))
  | 0x0701 => some (.darnRead h (p 0 1) (p 8 8))
  | 0x0702 => some (.darnRemap h (p 0 1) (p 2 2))
  | 0x0703 => some (.rinseSet h (p 0 1) (BitVec.ofNat 32 (p 4 4)))
  | 0x0704 => some (.selfTest h (p 0 1) (p 1 1))
  | 0x0705 => some (.snapshot h (p 0 4) (p 8 8) (p 16 8))
  | 0x0706 => some (.restore h (p 0 4) (p 8 8) d)
  | 0x0707 => some (.reset h (p 0 1) (p 1 1) (p 2 1) (p 4 2))
  | 0x0708 => some (.journalRead h (p 0 4) (p 8 8))
  | 0x0709 => some (.schedWithdraw h (p 0 2))
  | 0x0801 => some (.zportCtl h (p 0 1) (p 1 1))
  | 0x0802 => some (.zportQuery h (p 0 1) (p 8 8))
  | 0x0803 => some (.paceSrc h (p 0 1) (p 1 1) v)
  | 0x0804 => some (.pairCfg h (p 0 1) (p 4 3) (p 8 8) d)
  | 0x0805 => some (.zrouteSet h (BitVec.ofNat 64 (p 0 8)) (p 8 3))
  | 0x0806 => some (.pairTakeover h)
  | _ => none

/-- The command that a packet of a function spells (R342, R347), with what it reads from host memory. -/
def commandOf (f : Fn) (bs d : List Byte) (v : Nat := 0) : Option Instr :=
  let w := leNat (bs.take 8)
  let p (o n : Nat) : Nat := leNat ((bs.drop (16 + o)).take n)
  match commandA (hdrOf f bs) (fld w 15 0) (fld w 43 32) p d with
  | some c => some c
  | none => commandB (hdrOf f bs) (fld w 15 0) p d v

end Sys2Proof.Machine
end

