-- ==== Sys2Proof/Machine/Opcodes.lean ====
section
/-!
DEFINITION. Status codes (R350, Table 11.14), the opcodes with what each packet may hold (R347, Tables 11.9, 11.12, 11.13), and the checks
of R343 that a packet in intake decides by itself.
-/
namespace Sys2Proof.Machine

/-! ### Status codes (Table 11.14) -/

/-- Status codes. -/
inductive Status where
  | ok | accepted
  | badOpcode | reserved | badLength | badIndex | badTick | badAddress | residue | loadCheck | badTree | badManifest
  | tableFull | tenantLimit | scheduleFull | hemCapacity | fitRefused | loadResource | kvSlots
  | reqState | tenantState | partState | imageState | graphState | fieldInUse | sessionState | cartridge | engineState
  | withdrawn | notPending
  | function | tenant | dmaWindow | strapOpen | key | licence
  | poisoned | dmaError | deckDown | timeout | internal
deriving DecidableEq, Repr

/-- The code of a status. -/
def statusCode : Status → Nat
  | .ok => 0x0000
  | .accepted => 0x0001
  | .badOpcode => 0x0101
  | .reserved => 0x0102
  | .badLength => 0x0103
  | .badIndex => 0x0104
  | .badTick => 0x0105
  | .badAddress => 0x0106
  | .residue => 0x0107
  | .loadCheck => 0x0108
  | .badTree => 0x0109
  | .badManifest => 0x010A
  | .tableFull => 0x0201
  | .tenantLimit => 0x0202
  | .scheduleFull => 0x0203
  | .hemCapacity => 0x0204
  | .fitRefused => 0x0205
  | .loadResource => 0x0206
  | .kvSlots => 0x0207
  | .reqState => 0x0301
  | .tenantState => 0x0302
  | .partState => 0x0303
  | .imageState => 0x0304
  | .graphState => 0x0305
  | .fieldInUse => 0x0306
  | .sessionState => 0x0307
  | .cartridge => 0x0308
  | .engineState => 0x0309
  | .withdrawn => 0x030A
  | .notPending => 0x030B
  | .function => 0x0401
  | .tenant => 0x0402
  | .dmaWindow => 0x0403
  | .strapOpen => 0x0404
  | .key => 0x0405
  | .licence => 0x0406
  | .poisoned => 0x0501
  | .dmaError => 0x0502
  | .deckDown => 0x0503
  | .timeout => 0x0504
  | .internal => 0x0505

/-- Lowest set bit of a number below 2^64, 64 for zero. -/
def lowBit (v : Nat) : Nat := ((List.range 64).find? (fun i => v.testBit i)).getD 64

/-! ### Packets (R329, R332, R342, R343, R347) -/

/-- Opcodes of Table 11.12: code, least and greatest LENGTH, the parameter bits the table names as (first bit, width), and
whether the header's PARTITION is used. -/
structure OpRow where
  code : Nat
  lo : Nat
  hi : Nat
  named : List (Nat × Nat)
  part : Bool := false

/-- A row of one LENGTH whose parameters are whole bytes: (first byte, bytes). -/
def opRow (code len : Nat) (bytes : List (Nat × Nat)) (part : Bool := false) : OpRow :=
  { code := code, lo := len, hi := len, named := bytes.map (fun x => (8 * x.1, 8 * x.2)), part := part }

/-- The bits of Table 11.13, from bit `b` on. -/
def submitBits (b : Nat) : List (Nat × Nat) := [(b, 374), (b + 376, 5), (b + 384, 6), (b + 392, 8)]

/-- Table 11.12, groups 0x01xx to 0x04xx. -/
def opRowsA : List OpRow :=
  [{ code := 0x0101, lo := 56, hi := 56, named := submitBits 0 },
   { code := 0x0102, lo := 16, hi := 16, named := [(0, 15), (64, 64)] },
   { code := 0x0103, lo := 64, hi := 64, named := [(0, 15), (32, 9)] ++ submitBits 64 },
   { code := 0x0104, lo := 8, hi := 8, named := [(0, 15)] }, { code := 0x0105, lo := 8, hi := 8, named := [(0, 15)] },
   { code := 0x0106, lo := 8, hi := 8, named := [(0, 15)] }, { code := 0x0107, lo := 8, hi := 8, named := [(0, 15)] },
   { code := 0x0108, lo := 16, hi := 16, named := [(0, 15), (32, 96)] },
   { code := 0x0109, lo := 16, hi := 136, named := [(0, 15), (32, 32)] ++ (List.range 16).map (fun j => (64 * (j + 1), 40)) },
   opRow 0x0201 40 [(0, 24), (32, 8)], opRow 0x0202 40 [(0, 26)], opRow 0x0203 24 [(0, 16)], opRow 0x0204 16 [(0, 4), (8, 8)], opRow 0x0205 8 [(0, 4)],
   opRow 0x0206 16 [(0, 4), (8, 8)], opRow 0x0207 40 [(0, 34)], opRow 0x0208 8 [(0, 4)], opRow 0x0209 16 [(0, 4), (8, 8)],
   opRow 0x020A 200 [(0, 1), (8, 192)],
   opRow 0x0301 16 [(0, 13)] true, opRow 0x0302 8 [(0, 1)] true, opRow 0x0303 8 [(0, 1)] true,
   { code := 0x0304, lo := 16, hi := 16, named := [(0, 5), (32, 4), (40, 24)], part := true },
   opRow 0x0305 0 [] true, opRow 0x0306 0 [] true, opRow 0x0307 0 [] true,
   { code := 0x0308, lo := 8, hi := 8, named := [(0, 33), (40, 3)], part := true }, opRow 0x0309 16 [(0, 3), (4, 6)] true, opRow 0x030A 24 [(0, 20)] true,
   opRow 0x0401 24 [(0, 17)] true, opRow 0x0402 8 [(0, 1)], opRow 0x0403 16 [(0, 1), (8, 8)], opRow 0x0404 24 [(0, 17)] true, opRow 0x0405 24 [(0, 17)] true]

/-- Table 11.12, groups 0x05xx to 0x08xx. -/
def opRowsB : List OpRow :=
  [opRow 0x0501 24 [(0, 3), (4, 8), (16, 8)], opRow 0x0502 16 [(0, 4), (8, 8)] true, opRow 0x0503 24 [(0, 2), (8, 16)] true, opRow 0x0504 16 [(0, 4), (8, 8)],
   opRow 0x0505 8 [(0, 4)], opRow 0x0506 16 [(0, 1), (8, 8)],
   opRow 0x0601 8 [(0, 1)], opRow 0x0602 8 [(0, 4)], opRow 0x0603 16 [(8, 8)], opRow 0x0604 16 [(8, 8)],
   opRow 0x0701 16 [(0, 1), (8, 8)], opRow 0x0702 8 [(0, 1), (2, 2)], opRow 0x0703 8 [(0, 1), (4, 4)], opRow 0x0704 8 [(0, 2)], opRow 0x0705 24 [(0, 4), (8, 16)],
   opRow 0x0706 24 [(0, 4), (8, 16)], opRow 0x0707 8 [(0, 3), (4, 2)], opRow 0x0708 16 [(0, 4), (8, 8)], opRow 0x0709 8 [(0, 2)],
   opRow 0x0801 8 [(0, 2)], opRow 0x0802 16 [(0, 1), (8, 8)], opRow 0x0803 8 [(0, 2)], opRow 0x0804 24 [(0, 1), (4, 3), (8, 16)], opRow 0x0805 16 [(0, 11)],
   opRow 0x0806 0 []]

/-- The row of an opcode. -/
def opFind (code : Nat) : Option OpRow := (opRowsA ++ opRowsB).find? (fun r => r.code == code)

/-- The first byte of a packet's parameters in which a bit that the row does not name is set. -/
def OpRow.unnamed (r : OpRow) (v : Nat) : Option Nat :=
  (List.range r.hi).find? (fun b => decide (b < r.hi) && (List.range 8).any (fun i => v.testBit (8 * b + i) && !r.named.any (fun x => decide (x.1 ≤ 8 * b + i) && decide (8 * b + i < x.1 + x.2))))

/-- Reserved header bits: RSV, FORCE and KEEP_ADAPT where they are not used, PARTITION where it is not used (Table 11.9). -/
def OpRow.badHeader (r : OpRow) (w : Nat) : Option Nat :=
  let mask := 0xFFC2000000000000 + (if r.part then 0 else 0x1F * 2 ^ 44) + (if r.code = 0x0303 then 0 else 2 ^ 52) + (if r.code = 0x0301 ∨ r.code = 0x0303 then 0 else 2 ^ 51)
  if w &&& mask = 0 then none else some (lowBit (w &&& mask) / 8)

/-- The checks of R343 that a packet in intake decides by itself, in order. -/
def packetCheck (x : Intake) : Option (Status × Nat) :=
  let w := leNat (x.bytes.take 8)
  let len := fld w 43 32
  let vf := match x.fn with | .vf _ => true | .pf _ => false
  if x.wordBad || x.headerBad then some (.poisoned, x.ptr)
  else match opFind (fld w 15 0) with
    | none => some (.badOpcode, 0)
    | some r =>
      if vf && fld w 15 8 != 1 && r.code != 0x0506 then some (.function, 0)
      else if len < r.lo ∨ r.hi < len ∨ len % 8 ≠ 0 ∨ x.bytes.length ≠ 16 + len then some (.badLength, if len < r.lo then r.lo else r.hi)
      else match r.badHeader w with
        | some o => some (.reserved, o)
        | none => (r.unnamed (leNat ((x.bytes.drop 16).take len))).map (fun o => (.reserved, 16 + o))

/-- Units a packet occupies (R329). -/
def packetUnits (n : Nat) : Nat := ceilDiv n 64

/-- Intake units of a packet; the LENGTH of one whose header word is bad is not known. -/
def Intake.units (x : Intake) : Nat := packetUnits (if x.headerBad then 64 else x.bytes.length)

/-- The TAG of the packet's reply: 0xFFFF where the header word is bad (R332). -/
def Intake.tag (x : Intake) : Nat := if x.headerBad then 0xFFFF else fld (leNat (x.bytes.take 8)) 31 16

/-- The cap of a PWR_CAP packet of a PF, which the supervisor copies as the packet enters intake (R393): 1,000 to 48,000 W. -/
def Intake.cap (x : Intake) : Option Nat :=
  let w := leNat ((x.bytes.drop 16).take 4)
  let pf := match x.fn with | .pf _ => true | .vf _ => false
  if pf && (packetCheck x).isNone && fld (leNat (x.bytes.take 8)) 15 0 == 0x0602 && decide (1000 ≤ w) && decide (w ≤ 48000) then some w else none

end Sys2Proof.Machine
end

