-- ==== Sys2Proof/Machine/HostOps.lean ====
section
/-!
DEFINITION. What every host command shares: functions and their windows (R322, R323, R339 to R341), replies (R346,
R350), the checks at intake (R343), the availability of the engine (R391, R448), and the schedule table (R344, R345).
-/
namespace Sys2Proof.Machine

/-! ### State codes that replies carry -/

/-- Code of a partition state (Table 10.7). -/
def partCode : PartState → Nat
  | .free => 0
  | .idle => 1
  | .stepping => 2
  | .held => 3
  | .paused => 4
  | .rebinding => 5

/-- Code of an image state (Table 6.6 order). -/
def imgCode : ImgState → Nat
  | .absent => 0
  | .imprinting => 1
  | .incomplete => 2
  | .ready => 3
  | .degraded => 4
  | .releasing => 5

/-- Code of a graph state (Table 9.15 order). -/
def graphCode : GraphState → Nat
  | .free => 0
  | .loading => 1
  | .loaded => 2
  | .bound => 3

/-! ### Functions and DMA -/

/-- Deck of a function: ports 0 to 3 are on deck 0, ports 4 to 7 on deck 1. -/
def Engine.fnDeck (e : Engine) (f : Fn) : Nat := ((e.fnPort f).getD 0) / 4

/-- FN_ID (Table 11.2). -/
def Engine.fnId (e : Engine) (f : Fn) : Nat :=
  let p := (e.fnPort f).getD 0
  p + 16 * (p / 4) + match f with | .pf _ => 8 | .vf t => 256 * t

/-- Does a window hold every byte of [a, a + n) with the permission (Table 11.8)? -/
def windowHas (w : BitVec 128) (a n : Nat) (write : Bool) : Bool :=
  let v := w.toNat
  let base := fld v 127 76 * 4096
  bitAt v 0 && bitAt v (if write then 3 else 2) && decide (base ≤ a) && decide (a + n ≤ base + (fld v 75 36 + 1) * 4096)

/-- R339: some valid window of the function holds the transfer. -/
def Engine.windowOk (e : Engine) (f : Fn) (a n : Nat) (write : Bool) : Bool :=
  n == 0 || (List.range 8).any (fun w => windowHas (mget (fun _ => 0) w (e.fn f).windows) a n write)

/-- The ledger event of a window violation (R339). -/
def Engine.windowEvent (e : Engine) (now : Nat) (f : Fn) (a : Nat) : Engine :=
  e.event now (e.fnDeck f) { code := 0x0406, arg0 := a, arg1 := e.fnId f }

/-- A DMA write of a function. While the port's link is down it waits there (R325); it is issued only where a window of the function
holds it at that moment (R339, R340). -/
def Engine.dma (e : Engine) (f : Fn) (a : Nat) (bs : List Byte) : Engine :=
  match e.fnPort f with
  | none => e
  | some p =>
    if !(e.hport p).up then e.modHport p (fun h => { h with waiting := h.waiting ++ [(f, a, bs)] })
    else if e.windowOk f a bs.length true then e.send (.dma f a bs) else e

/-! ### Replies (R342, R346) -/

/-- A reply in the status FIFO, which holds 64 (Table 11.6); where it is full the reply waits for room (log entry 146). -/
def FnState.post (x : FnState) (r : Reply) : FnState :=
  if x.status.length < 64 then { x with status := x.status ++ [r] } else { x with waitStatus := x.waitStatus ++ [r] }

/-- A status reply written to the function's status FIFO. SILENT takes the Accepted reply and the final OK reply away. -/
def Engine.reply (e : Engine) (now : Nat) (h : Hdr) (s : Status) (detail : Nat) : Engine :=
  if h.muted then e
  else e.modFn h.fn (fun f =>
    let f := { f with opened := if s = .accepted then f.opened else f.opened - 1 }
    if h.silent && (s == .ok || s == .accepted) then f else f.post { tag := h.tag, status := statusCode s, detail := detail % 2 ^ 32, tick := now })

/-- The final OK reply with DETAIL 0. -/
def Engine.okReply (e : Engine) (now : Nat) (h : Hdr) : Engine := e.reply now h .ok 0

/-! ### Intake (R343) -/

/-- An address parameter: its bytes, its byte offset in the parameters, and the windows it must lie in (R341). -/
structure AddrParam where
  addr : Nat
  bytes : Nat
  off : Nat
  write : Bool
  fn : Fn
  align : Nat := 8

/-- What a command declares about its packet and about when it applies. -/
structure Form where
  op : Nat
  usesPart : Bool := false
  flags : Bool := false                  -- FORCE is used
  keeps : Bool := false                  -- KEEP_ADAPT is used
  vf : Bool := false                     -- a VF may issue it
  length : Option Nat := none            -- expected LENGTH where it is wrong
  reserved : Option Nat := none          -- byte offset in the parameters of the first reserved value
  index : Option Nat := none             -- byte offset in the parameters of the first index out of range
  addrs : List AddrParam := []
  reads : Bool := false                  -- it reads host memory when it executes
  boundary : List Nat := []              -- the partitions whose step boundary it applies at (R33)
  later : List Nat := []                 -- the same when it carries a tick (R345)
  standby : Bool := false                -- it executes in Standby (R448)
  safeHold : Bool := false               -- it executes in Safe Hold (R391)
  atIntake : Bool := false               -- its tick is that of its effect: it is scheduled by its own rule (R372, R463)
  chair : Bool := false                  -- an engine-wide action or another chair-only one (R27, R386)
  sysIn : Bool := false                  -- it brings system traffic in through the hem of its port's deck (R226)
  spans : Bool := false                  -- for a part of a span it applies to every part (R315, R457)

/-- A value wider than its named field: byte offset of its lowest bit outside the field (R347). -/
def wide (off width v : Nat) : Option Nat := if v < 2 ^ width then none else some (off + lowBit (v / 2 ^ width * 2 ^ width) / 8)

/-- A range check: the parameter's byte offset where it fails. -/
def outside (off : Nat) (ok : Bool) : Option Nat := if ok then none else some off

/-- The first failing offset. -/
def firstOf (l : List (Option Nat)) : Option Nat := l.findSome? id

/-- Reserved header bits (Table 11.9): byte offset in the packet. -/
def Form.header (f : Form) (h : Hdr) : Option Nat :=
  if h.part != 0 && !f.usesPart then some ((44 + lowBit h.part) / 8)
  else if (h.force && !f.flags) || (h.keepAdapt && !f.keeps) then some 6
  else none

/-- The checks of R343 from the permission on, in order; the bool says that a DMA window failed at the address. -/
def Form.check (f : Form) (e : Engine) (now : Nat) (h : Hdr) : Option (Status × Nat × Option Nat) :=
  let vf := match h.fn with | .vf _ => true | .pf _ => false
  if vf && !f.vf then some (.function, 0, none)
  else match f.length with
  | some n => some (.badLength, n, none)
  | none => match (f.header h) with
  | some o => some (.reserved, o, none)
  | none => match f.reserved with
  | some o => some (.reserved, 16 + o, none)
  | none => match f.index with
  | some o => some (.badIndex, o, none)
  | none =>
    if h.tick > now + 2 ^ 40 then some (.badTick, 0, none)
    else match f.addrs.find? (fun a => a.addr % a.align != 0 || !e.windowOk a.fn a.addr a.bytes a.write) with
    | none => none
    | some a => if a.addr % a.align ≠ 0 then some (.badAddress, a.off, none) else some (.dmaWindow, a.off, some a.addr)

/-- Why an otherwise valid command does not execute now: Safe Hold, a deck latched off or held in reset, a power state
other than Ready (R390, R391, R427, R448, R456). -/
def Engine.refuses (e : Engine) (f : Form) (fn : Fn) : Option (Status × Nat) :=
  let d := e.fnDeck fn
  if e.sup.safeHold && !f.safeHold then some (.deckDown, d)
  else if (e.deck d).latchedOff || (e.deck d).ctl.heldReset then some (.deckDown, d)
  else if (e.power.state != .ready || e.power.down || e.resets.any (fun r => r.stage != 0 && (r.scope == 0 || r.deck == d))) && !f.standby && !(e.sup.safeHold && f.safeHold)
  then some (.engineState, 0)
  else none

/-! ### The intake order and the intake FIFO (R331 to R333, R344) -/

/-- One place in intake order before another: the tick of acceptance, then deck 0 before deck 1, then FIFO order (R344). -/
def turnBefore (a b : Turn) : Bool :=
  decide (a.tick < b.tick) || (a.tick == b.tick && (decide (a.deck < b.deck) || (a.deck == b.deck && decide (a.seq < b.seq))))

/-- The place in intake order of a packet that a deck accepts now. -/
def Engine.turn (e : Engine) (now d : Nat) : Turn := { tick := now, deck := d, seq := e.order }

/-- The packets of a function that wait in its deck's intake FIFO, oldest first. -/
def Engine.waitingOf (e : Engine) (f : Fn) : List Intake := (e.deck (e.fnDeck f)).intake.filter (fun x => x.fn == f)

/-- The fetch pointer of a function's CMD ring. -/
def FnState.cmdPtr (x : FnState) : Nat := (mget (fun _ => ({} : Ring)) 0 x.rings).ptr

/-- A packet leaves its deck's intake FIFO. -/
def Engine.leaveIntake (e : Engine) (x : Intake) : Engine :=
  e.modDeck (e.fnDeck x.fn) (fun d => { d with intake := d.intake.erase x })

/-- One more command of the function is open. -/
def Engine.openOne (e : Engine) (f : Fn) : Engine := e.modFn f (fun x => { x with opened := x.opened + 1 })

/-- Does the controller that would execute the function's commands restart (R390)? -/
def Engine.restarting (e : Engine) (f : Fn) : Bool := !(e.deck (e.fnDeck f)).ctl.running && !(e.deck (e.fnDeck f)).ctl.heldReset

/-- Intake units of a function, and of a deck. -/
def Deck.quota (d : Deck) (f : Option Fn) : Nat :=
  (d.intake.filter (fun x => match f with | some g => x.fn == g | none => true)).foldl (fun n x => n + x.units) 0

/-- Has the deck's intake room for n more units of the function (Table 11.6)? -/
def Engine.intakeRoom (e : Engine) (f : Fn) (n : Nat) : Bool :=
  let d := e.deck (e.fnDeck f)
  decide (d.quota none + n ≤ 4096) && decide (d.quota (some f) + n ≤ 256)

/-- Malformed packets at the front of a function's queue in intake are answered, while its status FIFO and its deck's controller let
commands proceed (R333, R343, R390). -/
def answerBad (f : Fn) (now : Nat) : Nat → Engine → Engine
  | 0, e => e
  | n + 1, e =>
    match (e.waitingOf f).head? with
    | none => e
    | some x =>
      match packetCheck x with
      | none => e
      | some (s, d) =>
        if decide (64 ≤ (e.fn f).status.length) || e.restarting f then e
        else answerBad f now n (((e.leaveIntake x).openOne f).reply now { fn := f, tag := x.tag } s d)

/-- A cap copied to the supervisor (R393). -/
def Engine.copyCap (e : Engine) : Option Nat → Engine
  | some w => e.modSup (fun s => { s with hostCap := w })
  | none => e

/-- A packet that has reached intake: it waits there with its place in intake order (R344), and a PWR_CAP packet is copied to the
supervisor (R393); a malformed one is answered when no other command of its function waits before it. -/
def Engine.packetIn (e : Engine) (now : Nat) (f : Fn) (ptr : Nat) (k : RawPacket) : Engine :=
  let d := e.fnDeck f
  let x : Intake := { fn := f, bytes := k.bytes, ptr := ptr, turn := e.turn now d, wordBad := k.wordBad, headerBad := k.headerBad }
  answerBad f now ((e.waitingOf f).length + 1) ((({ e with order := e.order + 1 } : Engine).copyCap x.cap).modDeck d (fun d => { d with intake := d.intake ++ [x] }))

/-- A launched packet enters intake once every CMD packet published before the launch has, and there is room (R337). -/
def Engine.dwTry (e : Engine) (now : Nat) (f : Fn) : Engine :=
  let x := e.fn f
  if x.dwBusy && x.dwBefore == 0 && e.intakeRoom f (packetUnits x.dwCount) then
    (e.modFn f (fun x => { x with dwBusy := false })).packetIn now f 0 { bytes := readBytes x.dw 0 x.dwCount, wordBad := x.dwWordBad, headerBad := x.dwHeaderBad }
  else e

/-- What follows when a function's commands may proceed again, or units of intake are free: malformed packets are answered, and a launched
packet that waits for room enters. -/
def Engine.intakeMoves (e : Engine) (now : Nat) (f : Fn) : Engine := (answerBad f now ((e.waitingOf f).length + 1) e).dwTry now f

/-- Does a controller that runs, or one held in reset for good, hold the chair latch, and not follow (R27, R386, R389)? -/
def Engine.chairHeld (e : Engine) : Bool := match e.sup.chairValue with | .deck d => !(e.deck d).ctl.follow | .none => false

/-- Does the function's next command wait in intake: its status FIFO is full (R333), its deck's controller restarts (R390),
FENCE holds it (Table 11.9), it reads host memory over a link that is down (R325), only the holder of the chair latch may issue it
and none does (R27; log entry 144), or the inbound bucket of system traffic is empty (R226)? -/
def Engine.intakeWaits (e : Engine) (f : Form) (h : Hdr) : Bool :=
  decide ((e.fn h.fn).status.length ≥ 64) || e.restarting h.fn ||
    (h.fence && (e.fn h.fn).opened != 0) || (f.reads && !e.linkUp h.fn) || (f.chair && !e.chairHeld && !e.sup.safeHold) ||
    (f.sysIn && ((e.deck (e.fnDeck h.fn)).hem 0 32).inBucket == 0)

/-! ### The schedule table (R33, R345) -/

/-- No step of these partitions is running and none is held for a capture: they are at a step boundary. -/
def Engine.atBoundary (e : Engine) (ps : List Nat) : Bool := ps.all (fun p => (e.part p).step.isNone && !(e.part p).capture)

/-- A boundary action of one of these partitions that is due and comes before a place in intake order, or any that is due (R33): a
command held in a schedule table, a mode epoch, a snapshot or restore. Actions of a controller that restarts are deferred and hold
nothing back (R390). -/
def Engine.earlierHeld (e : Engine) (now : Nat) (t : Option Turn) (ps : List Nat) : Bool :=
  let first (x : Turn) : Bool := match t with | some t => turnBefore x t | none => true
  (List.range 2).any (fun d => ((e.deck d).ctl.running || (e.deck d).ctl.heldReset) &&
      (e.deck d).sched.any (fun x => decide (x.hd.tick ≤ now) && first x.hd.turn && x.parts.any ps.contains)) ||
    ps.any (fun p => (e.part p).prepared.any (fun x => decide (x.msg.tick ≤ now) && first x.turn)) ||
    e.snaps.any (fun x => !x.capturing && decide (x.tick ≤ now) && first x.hd.turn && ps.any x.mask.testBit)

/-- Commands with a tick in a deck's schedule table. -/
def Deck.scheduled (d : Deck) : Nat := (d.sched.filter (fun x => x.hd.tick != 0)).length

/-- A command put into its deck's schedule table (R345). -/
def Engine.hold (e : Engine) (x : Held) : Engine := e.modDeck (e.fnDeck x.hd.fn) (fun d => { d with sched := d.sched ++ [x] })

/-- Ticks until the running steps of these partitions are expected to end (R34's measure). -/
def Engine.untilBoundary (e : Engine) (now : Nat) (ps : List Nat) : Nat :=
  ps.foldl (fun m p => match (e.part p).step with
    | some s => max m (s.start + (e.part p).lastStep / 1000 - now)
    | none => m) 0

/-- A firmware fault that the command meets: its event, and the reply with the event's ledger sequence number (Table 11.14). -/
def Engine.firmwareFault (e : Engine) (now : Nat) (h : Hdr) (code : Nat) : Engine :=
  let d := e.fnDeck h.fn
  let e := e.event now d { code := 0x0405, arg0 := code, arg1 := d }
  e.reply now h .internal (((e.deck d).ledger.entries.getLast?.map (·.seq)).getD 0)

/-- A command performed: a firmware fault or an error in a read of host memory answers it (0x0505, 0x0502); else it has its effect. -/
def Form.perform (f : Form) (run : Hdr → Bool → Nat → Engine → Engine) (h : Hdr) (acc : Bool) (now : Nat) (e : Engine) : Engine :=
  match h.fw with
  | some k => e.firmwareFault now h k
  | none => if f.reads && h.cpl != 0 then e.reply now h .dmaError h.cpl else run h acc now e

/-! ### Announce time and the other participants of an action (R372, R376) -/

/-- Announce time A in units of 0.1 us (R376, Table 12.8): 0.4 us on one deck, 1.0 us on one engine, and 0.4 us for each
metre-class hop of a pair or of a ring of the span's parts (log entry 29). -/
def Engine.announce (e : Engine) (ps : List Nat) : Nat :=
  let decks := (ps.flatMap e.partFields).map deckOf
  let hops := ps.foldl (fun m p => max m (max (if (e.part p).pair = 0 then 0 else 1) (((e.part p).spanLast + 1) / 2))) 0
  (if decks.all (· == decks.headD 0) && decks != [] && hops == 0 then 4 else 10) + 4 * hops

/-- Lead of a mode epoch or a consistent snapshot in ticks: ceil(3A) + 2 (Table 12.7). -/
def leadOf (a : Nat) : Nat := ceilDiv (3 * a) 10 + 2

/-- Lead of a broadcast: ceil(A) + 1 (Table 12.7). -/
def castLead (a : Nat) : Nat := ceilDiv a 10 + 1


/-- The engines and partitions of a span's other parts, as far as they are known (R365). -/
def Engine.spanOthers (e : Engine) (p : Nat) : List (Nat × Nat) :=
  let q := e.part p
  ((List.range (q.spanLast + 1)).filter (· != q.spanIndex)).map (fun k => let x := mget (fun _ => 0xFFF) k q.spanOf; (x % 4096, x / 4096))

/-- The other participants of a partition's epoch as (node, its partition): those of its span's other parts, and its twin (R372). -/
def Engine.others (e : Engine) (p : Nat) : List (Nat × Nat) :=
  e.spanOthers p ++ (if (e.part p).pair = 1 ∨ (e.part p).pair = 2 then [(e.partnerNode, p)] else [])

/-- A prepare message to each participant, in its own partition (R372). -/
def Engine.sendPrepare (e : Engine) (now : Nat) (m : Prepare) (ns : List (Nat × Nat)) : Engine :=
  ns.foldl (fun e n => e.ctrl now n.1 n.2 (.prepare { m with part := n.2 })) e

/-- Messages of an action that is committed in two phases: 0 prepare, 1 acknowledge, 2 refuse, 3 commit, 4 abort. -/
def Engine.epochMsg (e : Engine) (now : Nat) (ns : List (Nat × Nat)) (id phase : Nat) : Engine :=
  ns.foldl (fun e n => e.ctrl now n.1 n.2 (.epoch n.2 id phase)) e

/-- A scheduled command that is carried by its own rule taken out of the schedule tables: it applies now, or never. -/
def Engine.dropOwn (e : Engine) (t : Turn) : Engine :=
  (List.range 2).foldl (fun e d => e.modDeck d (fun k => { k with sched := k.sched.filter (fun x => !(x.own && x.hd.turn == t)) })) e

/-- The coordinator aborts a mode epoch: nobody switches, and the command is answered with the node at fault (R372). -/
def Engine.abortEpoch (e : Engine) (now p : Nat) (c : Coord) (node : Nat) : Engine :=
  let e := (e.epochMsg now c.nodes c.msg.epoch 4).modPart p (fun q => { q with prepared := none, coord := some { c with decision := some false, hd := none, nextSend := now + 100 } })
  match c.hd with | some h => (e.dropOwn h.turn).reply now h .timeout node | none => e

/-- The decision of a two-phase action kept for its resends (R373; log entry 148), and sent. -/
def Engine.decideAct (e : Engine) (now p : Nat) (a : Act) (commit : Bool) : Engine :=
  let ns := a.nodes.map (fun n => (n % 4096, n / 4096))
  (e.epochMsg now ns a.id (if commit then 3 else 4)).modPart p (fun q => { q with told := q.told ++ [(a.id, a.nodes, commit, now + 100)] })

/-! ### Pairs: commands that both engines share (R378) -/

/-- The partitions for which a pair shares the command: groups 0x01xx and 0x03xx, the latter by their PARTITION field too. -/
def Form.pairParts (f : Form) (h : Hdr) : List Nat :=
  if f.op / 256 = 1 ∨ f.op / 256 = 3 then ((f.boundary ++ f.later) ++ (if f.op / 256 = 3 then [h.part] else [])).eraseDups else []

/-- A command of groups 0x01xx and 0x03xx for a partition that is the secondary's of a pair (R378). -/
def Engine.twinRefuses (e : Engine) (f : Form) (h : Hdr) : Option Nat :=
  ((f.pairParts h).find? (fun p => (e.part p).pair == 2)).map (fun p => partCode (e.part p).state)

/-- The partition and the other engines with which the command is shared: as a two-phase action with the twin (R378), or as a broadcast
to the other parts of a span for PART_PAUSE, PART_RESUME and PART_RESET (R315, R457). -/
def Engine.sharedWith (e : Engine) (f : Form) (h : Hdr) : Option (Nat × List (Nat × Nat) × Bool) :=
  match if e.pair.alone then none else (f.pairParts h).find? (fun p => (e.part p).pair == 1) with
  | some p => some (p, [(e.partnerNode, p)], true)
  | none => if f.spans && (e.part h.part).spanLast != 0 then some (h.part, e.spanOthers h.part, false) else none

/-- A shared command announced and held for its tick, at which every engine applies it (R372, R376, R378): its ACTIVATE_TICK, or the
earliest one that its lead allows. -/
def Engine.share (e : Engine) (now : Nat) (h : Hdr) (ptr : Nat) (c : Instr) (f : Form) (p : Nat) (ns : List (Nat × Nat)) (two : Bool) : Engine :=
  if decide (now < h.tick) && decide (1024 ≤ (e.deck (e.fnDeck h.fn)).scheduled) then e.reply now h .scheduleFull 0
  else
    let a := e.announce [p]
    let t := max h.tick (now + (if two then leadOf a else castLead a))
    let m : Prepare := { part := p, epoch := e.acts, what := .command h.fn ((packetOf c).getD []), tick := t, deadline := t - ceilDiv a 10 - 1, coordinator := e.node, twoPhase := two }
    let e := ({ e with acts := e.acts + 1 } : Engine).sendPrepare now m ns
    let acc := decide (now + 100 < t)
    let act : Act := { id := m.epoch, coordinator := e.node, mine := true, nodes := ns.map (fun n => n.1 + 4096 * n.2), waiting := ns.map (fun n => n.1 + 4096 * n.2), deadline := m.deadline }
    (cond acc (fun e => e.reply now h .accepted 0) e).hold
      { hd := { h with tick := t }, cmd := c, ptr := ptr, accepted := acc, parts := (f.boundary ++ f.later ++ [p]).eraseDups, act := if two then some act else none }

/-! ### Execution (R343 to R346) -/

/-- A command that has passed intake: run now, or hold it for its tick or for the step boundary it applies at. The Accepted
reply precedes an effect more than 100 us away (R346). -/
def Engine.place (e : Engine) (now : Nat) (h : Hdr) (ptr : Nat) (c : Instr) (f : Form) (run : Hdr → Bool → Nat → Engine → Engine) : Engine :=
  let full := decide (1024 ≤ (e.deck (e.fnDeck h.fn)).scheduled)
  if f.atIntake then (if decide (now < h.tick) && full then e.reply now h .scheduleFull 0 else f.perform run h false now e)
  else match e.sharedWith f h with
  | some (p, ns, two) => e.share now h ptr c f p ns two
  | none =>
    if h.tick > now then
      if full then e.reply now h .scheduleFull 0
      else
        let acc := decide (h.tick > now + 100)
        (cond acc (fun e => e.reply now h .accepted 0) e).hold { hd := h, cmd := c, ptr := ptr, accepted := acc, parts := f.boundary ++ f.later }
    else
      let h := { h with tick := 0 }
      if f.boundary.isEmpty || (e.atBoundary f.boundary && !e.earlierHeld now (some h.turn) f.boundary) then f.perform run h false now e
      else
        let acc := decide (e.untilBoundary now f.boundary > 100)
        (cond acc (fun e => e.reply now h .accepted 0) e).hold { hd := h, cmd := c, ptr := ptr, accepted := acc, parts := f.boundary }

/-- A command that leaves intake: the checks in their order, the engine's availability, the secondary's refusal, and its effect or its
place in the schedule table. -/
def Engine.enter (e : Engine) (now : Nat) (h : Hdr) (ptr : Nat) (c : Instr) (f : Form) (run : Hdr → Bool → Nat → Engine → Engine) : Engine :=
  match f.check e now h with
  | some (s, d, bad) =>
    let e := match bad with | some a => e.windowEvent now h.fn a | none => e
    e.reply now h s d
  | none =>
    match e.refuses f h.fn with
    | some (s, d) => e.reply now h s d
    | none =>
      match e.twinRefuses f h with
      | some d => e.reply now h .partState d
      | none => e.place now h ptr c f run

/-- A host command. Where packets of its function wait in the intake FIFO, it is the first of them, and no other executes before it
(R344); else it stands for its packet's arrival too (log entry 60). -/
def Engine.command (e : Engine) (now : Nat) (h : Hdr) (c : Instr) (f : Form) (run : Hdr → Bool → Nat → Engine → Engine) : Engine :=
  if (e.fnPort h.fn).isNone || e.power.stage < 4 || e.intakeWaits f h then e
  else match (e.waitingOf h.fn).head? with
    | some x =>
      if packetOf c = some x.bytes then (((e.leaveIntake x).openOne h.fn).enter now { h with turn := x.turn } x.ptr c f run).intakeMoves now h.fn else e
    | none => (({ e with order := e.order + 1 } : Engine).openOne h.fn).enter now { h with turn := e.turn now (e.fnDeck h.fn) } ((e.fn h.fn).cmdPtr) c f run

/-- Does the engine have this function (Table 0.4)? -/
def fnOk : Fn → Bool
  | .pf k => decide (k < 8)
  | .vf t => decide (t < 256)

/-- The command of a host packet: the function it names exists. -/
def hostCmd (h : Hdr) (c : Instr) (f : Engine → Form) (run : Hdr → Bool → Nat → Engine → Engine) (s : State) :
    Host.Outcome State Fault Refusal :=
  onUnit (fnOk h.fn) s (fun now e => e.command now h c (f e) run)

/-- A final reply, and the engine unchanged otherwise. -/
def refuse (h : Hdr) (s : Status) (d : Nat) (now : Nat) (e : Engine) : Engine := e.reply now h s d

/-- The Accepted reply of a long operation, unless it has been sent (R346). -/
def Engine.accept (e : Engine) (now : Nat) (h : Hdr) (acc : Bool) (detail : Nat) : Engine :=
  if acc then e else e.reply now h .accepted detail

end Sys2Proof.Machine
end

