-- ==== Sys2Proof/Machine/KvOps.lean ====
section
/-!
DEFINITION. The KV store as the engine manages it (R230 to R239, R242, R255, R257): slots, page IDs, row units and homes,
root, continuation and list slots, allocation, commit and sealing, and freeing.
-/
namespace Sys2Proof.Machine

/-- KV slots of a slab. -/
def kvSlots : Nat := 4110

/-- What a slot holds. -/
def Tile.useOf (ti : Tile) (k : Nat) : SlotUse := mget (fun _ => .free) k ti.slotUse
/-- A slot's use written. -/
def Tile.setUse (ti : Tile) (k : Nat) (u : SlotUse) : Tile := { ti with slotUse := mset (fun _ => .free) k u ti.slotUse }
/-- Free slots, lowest first (R236). -/
def Tile.freeSlots (ti : Tile) : List Nat := (List.range kvSlots).filter (fun k => ti.useOf k == .free)

/-- Page ID of a slab page (Table 8.1). -/
def pageId (v slot : Nat) : Nat := pack [(2, 0), (7, fld v 23 16), (5, fld v 15 8), (5, fld v 7 0), (13, slot)]
/-- No page. -/
def noPage : Nat := 0xFFFFFFFF
/-- Is it the ID of a reserve page? -/
def isReserve (id : Nat) : Bool := fld id 31 30 == 1
/-- The tile and slot of a slab page ID in a partition. -/
def Engine.slabOf (e : Engine) (p id : Nat) : Option (Loc × Nat) :=
  if fld id 31 30 = 0 then (e.locOfV p (vword (fld id 29 23) (fld id 22 18) (fld id 17 13))).map (fun t => (t, fld id 12 0)) else none

/-- Number at byte `off` of a slot. -/
def Engine.kvNat (e : Engine) (x : Loc × Nat) (off n : Nat) : Nat := readNat (e.tile x.1).kv (x.2 * 16384 + off) n
/-- A number written at byte `off` of a slot. -/
def Engine.setKv (e : Engine) (x : Loc × Nat) (off v n : Nat) : Engine :=
  e.modTile x.1 (fun ti => { ti with kv := writeNat ti.kv (x.2 * 16384 + off) v n })
/-- Bytes of a slot. -/
def Engine.kvBytes (e : Engine) (x : Loc × Nat) (off n : Nat) : List Byte := readBytes (e.tile x.1).kv (x.2 * 16384 + off) n
/-- Bytes written into a slot. -/
def Engine.setKvBytes (e : Engine) (x : Loc × Nat) (off : Nat) (bs : List Byte) : Engine :=
  e.modTile x.1 (fun ti => { ti with kv := writeBytes ti.kv (x.2 * 16384 + off) bs })

/-! ### Row units (R236, R287) -/

/-- Insert into a list that rises, once. -/
def insertOnce (k : Nat) : List Nat → List Nat
  | [] => [k]
  | x :: r => if k < x then k :: x :: r else if k = x then x :: r else x :: insertOnce k r

/-- Key of a stream's row unit. -/
def unitKey (s : Stream) : Nat := s.layer * 256 + s.group
/-- Row units of a graph, in ascending layer and group. -/
def Graph.units (g : Graph) : List Nat := g.streams.foldl (fun l s => insertOnce (unitKey s) l) []
/-- Streams of a unit by index, in ascending index. -/
def Graph.unitStreams (g : Graph) (u : Nat) : List (Nat × Stream) :=
  (g.streams.zipIdx.filter (fun x => unitKey x.1 == u)).map (fun x => (x.2, x.1))
/-- Home list of a unit. -/
def Graph.homesOf (g : Graph) (u : Nat) : List Nat :=
  match g.unitStreams u with | x :: _ => g.homes.getD x.2.home [] | [] => []

/-- The first tile from home (start) mod H on that has `n` free slots (R236): its virtual tile, site and slots. -/
def Engine.homeWith (e : Engine) (p : Nat) (homes : List Nat) (start n : Nat) : Option (Nat × Loc × List Nat) :=
  (List.range homes.length).findSome? (fun k =>
    let v := homes.getD ((start + k) % homes.length) 0
    match e.locOfV p v with
    | none => none
    | some t => let f := (e.tile t).freeSlots; if n ≤ f.length then some (v, t, f.take n) else none)

/-- Element format code of a stream's pages: its press format, or in reference mode its layer's reference format (R287). -/
def Engine.streamFmt (e : Engine) (p : Nat) (s : Stream) : Nat :=
  if (e.part p).modes.res then
    (match (e.part p).image with | some i => (e.image i).refFmt.getD (s.layer - (e.image i).layerFirst) 0 | none => 0) + 1
  else s.fmt

/-- Header of a new page (Table 8.3). -/
def pageHeader (row q fmt : Nat) (s : Stream) : Nat :=
  pack [(144, 0), (96, 0), (32, 0), (32, row), (15, q), (1, 0), (7, 0), (32, if s.isValue then 0 else s.seg), (2, if s.isValue then 0 else s.nseg), (4, s.cm1), (2, fmt),
    (1, bnat s.isValue), (16, 0x4B50), (128, 0)]

/-! ### Page lists (R235) -/

/-- P0 for S streams. -/
def rootPointers (s : Nat) : Nat := (16320 - 4 * s) / 4

/-- The slot that a request's page-list head names. -/
def Engine.rootOf (e : Engine) (q : Nat) : Option (Loc × Nat) :=
  let r := e.req q
  if r.pageHead = noPage then none else e.slabOf r.part r.pageHead

/-- The continuation slot that holds pointer number c * 4,080 past P0, by the NEXT chain. -/
def Engine.contOf (e : Engine) (p : Nat) (x : Loc × Nat) : Nat → Option (Loc × Nat)
  | 0 => e.slabOf p (e.kvNat x 0 4)
  | c + 1 => match e.slabOf p (e.kvNat x 0 4) with | none => none | some y => e.contOf p y c

/-- Where pointer k of a root stands: slot and byte offset. -/
def Engine.pointerAt (e : Engine) (p : Nat) (root : Loc × Nat) (s k : Nat) : Option ((Loc × Nat) × Nat) :=
  if k < rootPointers s then some (root, 64 + 4 * s + 4 * k)
  else (e.contOf p root ((k - rootPointers s) / 4080)).map (fun x => (x, 64 + 4 * ((k - rootPointers s) % 4080)))

/-- Where entry n of a request's page list stands. -/
def Engine.entryAt (e : Engine) (q n : Nat) : Option ((Loc × Nat) × Nat) := do
  let root ← e.rootOf q
  let p := (e.req q).part
  let (x, off) ← e.pointerAt p root (e.kvNat root 4 4) (n / 4080)
  let l ← e.slabOf p (e.kvNat x off 4)
  pure (l, 64 + 4 * (n % 4080))

/-- Page ID of row r of stream σ. -/
def Engine.pageAt (e : Engine) (q s σ r : Nat) : Nat :=
  match e.entryAt q (r * s + σ) with | some (x, off) => e.kvNat x off 4 | none => noPage

/-- The slab slot of row r of stream σ, where the row is in the slab. -/
def Engine.slotAt (e : Engine) (q s σ r : Nat) : Option (Loc × Nat) :=
  let id := e.pageAt q s σ r
  if id = noPage then none else e.slabOf (e.req q).part id

/-! ### Allocation (R235 to R237) -/

/-- Homes of a request's first stream. -/
def Graph.firstHomes (g : Graph) : List Nat := match g.streams with | s :: _ => g.homes.getD s.home [] | [] => []

/-- A slot taken for a root, continuation or list slot, and its page ID. -/
def Engine.takeSlot (e : Engine) (p : Nat) (homes : List Nat) (start : Nat) (u : SlotUse) : Option (Engine × (Loc × Nat) × Nat) :=
  match e.homeWith p homes start 1 with
  | some (v, t, [k]) => some (e.modTile t (fun ti => ti.setUse k u), (t, k), pageId v k)
  | _ => none

/-- The root slot, allocated with the first row (R235). -/
def Engine.ensureRoot (e : Engine) (q : Nat) (g : Graph) : Option Engine :=
  if (e.req q).pageHead ≠ noPage then some e
  else do
    let (e, x, id) ← e.takeSlot (e.req q).part g.firstHomes q (.root q)
    let e := (e.setKv x 0 noPage 4).setKv x 4 g.streams.length 4
    pure (e.modReq q (fun r => { r with pageHead := id }))

/-- List slot k, with the continuation slot its pointer needs. -/
def Engine.addList (e : Engine) (q k : Nat) (g : Graph) : Option Engine := do
  let p := (e.req q).part
  let s := g.streams.length
  let root ← e.rootOf q
  let e ←
    if rootPointers s ≤ k ∧ (k - rootPointers s) % 4080 = 0 then do
      let c := (k - rootPointers s) / 4080
      let last ← if c = 0 then some root else e.contOf p root (c - 1)
      let (e, x, id) ← e.takeSlot p g.firstHomes q (.cont q c)
      pure ((e.setKv x 0 noPage 4).setKv last 0 id 4)
    else some e
  let (e, _, id) ← e.takeSlot p g.firstHomes q (.list q k)
  let (x, off) ← e.pointerAt p root s k
  pure (e.setKv x off id 4)

/-- One row unit of row r placed on the first home with room for all of it. -/
def Engine.placeUnit (e : Engine) (q r : Nat) (g : Graph) (u : Nat) : Option Engine :=
  let p := (e.req q).part
  let ss := g.unitStreams u
  match e.homeWith p (g.homesOf u) (r + q) ss.length with
  | none => none
  | some (v, t, slots) =>
    (ss.zip slots).foldlM (fun (e : Engine) x => do
      let e := (e.modTile t (fun ti => ti.setUse x.2 (.page q x.1.1 r))).setKv (t, x.2) 0 (pageHeader r q (e.streamFmt p x.1.2) x.1.2) 64
      let (y, off) ← e.entryAt q (r * g.streams.length + x.1.1)
      pure (e.setKv y off (pageId v x.2) 4)) e

/-- Slots lacking for a row unit on its best home (R237's event). -/
def Engine.lacking (e : Engine) (q : Nat) (g : Graph) : Nat :=
  (g.units.map (fun u =>
    let best := ((g.homesOf u).filterMap (fun v => (e.locOfV (e.req q).part v).map (fun t => (e.tile t).freeSlots.length))).foldl max 0
    (g.unitStreams u).length - best)).foldl max 0

/-- The next row of a request allocated, with its list slots. -/
def Engine.addRow (e : Engine) (q : Nat) (g : Graph) : Option Engine := do
  let e ← e.ensureRoot q g
  let r := (e.req q).rows
  let s := g.streams.length
  let have' := ceilDiv (r * s) 4080
  let e ← ((List.range (ceilDiv ((r + 1) * s) 4080 - have')).map (· + have')).foldlM (fun (e : Engine) k => e.addList q k g) e
  let e ← g.units.foldlM (fun (e : Engine) u => e.placeUnit q r g u) e
  let root ← e.rootOf q
  pure ((e.setKv root 8 (r + 1) 4).modReq q (fun x => { x with rows := r + 1 }))

/-- Rows allocated until there are `n` (R237), or none where one cannot be placed. A graph without streams needs none. -/
def Engine.addRows (q : Nat) (g : Graph) : Nat → Engine → Option Engine
  | 0, e => some e
  | n + 1, e => match e.addRow q g with | some e => Engine.addRows q g n e | none => none

/-- Rows of a request up to `n` of them. -/
def Engine.needRows (e : Engine) (q n : Nat) (g : Graph) : Option Engine :=
  if g.streams.isEmpty then some e else Engine.addRows q g (n - (e.req q).rows) e

/-! ### Freeing (R238) -/

/-- A slot freed: it is zero-filled before it returns to the free list. -/
def Tile.dropSlots (ti : Tile) (f : Nat → SlotUse → Bool) : Tile :=
  (ti.slotUse.filter (fun x => f x.1 x.2)).foldl (fun ti x => ti.setUse x.1 .zeroing) ti

/-- Stubs whose rows are freed leave their slot, which is freed with its last stub. -/
def Tile.dropStubs (ti : Tile) (f : Nat → Nat → Bool) : Tile :=
  ti.slotUse.foldl (fun ti x =>
    match x.2 with
    | .stub l =>
      let l' := l.filter (fun y => !f y.2.1 y.2.2.2)
      if l'.length = l.length then ti else ti.setUse x.1 (if l'.isEmpty then .zeroing else .stub l')
    | _ => ti) ti

/-- Reserve pages that leave a partition's cache: a slot that held one holds none. -/
def Tile.uncache (ti : Tile) (p : Nat) (f : Nat → Bool) : Tile :=
  (ti.slotUse.filter (fun x => match x.2 with | .kvcache k g _ => k == p && f g | _ => false)).foldl (fun ti x => ti.setUse x.1 (.kvcache p noPage 0)) ti

/-- Every slot of a request freed on every tile of its partition, with its reserve pages, there and in the caches, and its spills (R238). -/
def Engine.freePages (e : Engine) (q : Nat) : Engine :=
  let p := (e.req q).part
  let e := e.modPartTiles p (fun ti =>
    let ti := ti.dropSlots (fun _ u => match u with | .page r _ _ => r == q | .root r => r == q | .cont r _ => r == q | .list r _ => r == q | _ => false)
    { (ti.dropStubs (fun r _ => r == q)).uncache p (fun k => (e.part p).kvUsed.any (fun y => y.1 == k && y.2 == q)) with spills := ti.spills.filter (fun x => x.req != q) })
  (e.modPart p (fun x => { x with kvUsed := x.kvUsed.filter (fun y => y.2 != q) })).modReq q (fun r => { r with pageHead := noPage, rows := 0 })

/-- Rows from `n` on freed, with the list slots that no row uses any more (R242). -/
def Engine.freeRows (e : Engine) (q n : Nat) (g : Graph) : Engine :=
  let r := e.req q
  if r.rows ≤ n then e
  else
    let lists := ceilDiv (n * g.streams.length) 4080
    let e := e.modPartTiles r.part (fun ti =>
      (ti.dropSlots (fun _ u => match u with | .page x _ row => x == q && decide (n ≤ row) | .list x k => x == q && decide (lists ≤ k) | _ => false)).dropStubs
        (fun x row => x == q && decide (n ≤ row)))
    let e := match e.rootOf q with | some root => e.setKv root 8 n 4 | none => e
    e.modReq q (fun x => { x with rows := n })

/-! ### Commit and sealing (R255, R257) -/

/-- The page of a slot as the commit unit reads it. -/
def Engine.view (e : Engine) (x : Loc × Nat) : PageView := { read := fun off n => e.kvBytes x off n, header := e.kvNat x 0 64 }

/-- Element format of a page header. -/
def headerFmt (h : Nat) : Fmt := match fld h 146 145 with | 0 => .int 4 | 1 => .int 8 | _ => .bf16

/-- One position's bytes of a page: element field, tags, norm codes (R233, Table 8.4). -/
def Engine.position (e : Engine) (x : Loc × Nat) (p : Nat) : List Byte × List Byte × List Byte :=
  let h := e.kvNat x 0 64
  let c := fld h 150 147 + 1
  let f := headerFmt h
  (e.kvBytes x (512 + p * c * f.bytes) (c * f.bytes), e.kvBytes x (512 + 64 * c * f.bytes + 4 * p * c) (4 * c),
    (List.range (if bitAt h 144 then 0 else fld h 152 151 + 1)).flatMap (fun s => e.kvBytes x (64 + 64 * s + p) 1))

/-- A position's bytes written into a page of the same format. -/
def Engine.setPosition (e : Engine) (x : Loc × Nat) (p : Nat) (b : List Byte × List Byte × List Byte) : Engine :=
  let h := e.kvNat x 0 64
  let c := fld h 150 147 + 1
  let f := headerFmt h
  let e := (e.setKvBytes x (512 + p * c * f.bytes) b.1).setKvBytes x (512 + 64 * c * f.bytes + 4 * p * c) b.2.1
  b.2.2.zipIdx.foldl (fun e y => e.setKvBytes x (64 + 64 * y.2 + p) [y.1]) e

/-- A keep copy of R255: the entry at slot `a` to slot `b`, in every stream. -/
def Engine.copyEntry (e : Engine) (q : Nat) (g : Graph) (a b : Nat) : Engine :=
  let s := g.streams.length
  (List.range s).foldl (fun e σ =>
    match e.slotAt q s σ (a / 64), e.slotAt q s σ (b / 64) with
    | some x, some y => e.setPosition y (b % 64) (e.position x (a % 64))
    | _, _ => e) e

/-- The sketch of a full key page: the mean of each column over the 64 positions, block-emitted with Q = 7 (R257). -/
def Engine.sealPage (e : Engine) (x : Loc × Nat) : Engine :=
  let v := e.view x
  let f := headerFmt v.header
  (List.range v.cols).foldl (fun e c =>
    let bs := (List.range 64).map (fun p => storedBlock f (v.block f p c))
    let b : Block :=
      if bs.any Option.isNone then poisonBlock
      else emitBlock 7 ((List.range 32).map (fun i => ((bs.map (fun l => (l.getD []).getD i 0)).foldl (· + ·) 0) * 2 ^ 11)) 64
    let h := e.kvNat x 0 64
    let h := setFld (setFld h (379 + 12 * c) (368 + 12 * c) b.code) (279 + 8 * c) (272 + 8 * c) (blockResidue b.elems b.code)
    (e.setKv x 0 (setFld h 192 192 1) 64).setKv x (320 + 16 * c) (blockField 4 b.elems) 16) e

/-- Largest norm code of norm segment k of a page over the positions [a, b) of row r. -/
def Engine.normMax (e : Engine) (x : Loc × Nat) (k r a b : Nat) : Nat :=
  ((List.range 64).filter (fun p => decide (a ≤ 64 * r + p) && decide (64 * r + p < b))).foldl (fun m p => max m (e.kvNat x (64 + 64 * k + p) 1)) 0

/-- COMMITTED and PMAX of a key page over the positions [a, b) of row r; a full page is sealed (R255, R257). -/
def Engine.commitSlot (e : Engine) (x : Loc × Nat) (r a b : Nat) : Engine :=
  let h := e.kvNat x 0 64
  if bitAt h 144 then e
  else
    let n := min 64 (b - 64 * r)
    let e := e.setKv x 0 (setFld h 191 185 n) 64
    let e := (List.range (fld h 152 151 + 1)).foldl (fun e k =>
      let h := e.kvNat x 0 64
      e.setKv x 0 (setFld h (247 + 8 * k) (240 + 8 * k) (max (e.normMax x k r a b) (fld h (247 + 8 * k) (240 + 8 * k)))) 64) e
    if n = 64 ∧ !bitAt h 192 then e.sealPage x else e

/-- The key page of row r of stream σ committed over [a, b), and the stream's ceilings in the root (R255, R257). -/
def Engine.commitPage (e : Engine) (q σ r a b : Nat) (s : Nat) : Engine :=
  match e.slotAt q s σ r, e.rootOf q with
  | some x, some root =>
    let h := e.kvNat x 0 64
    if bitAt h 144 then e
    else
      let e := (List.range (fld h 152 151 + 1)).foldl (fun e k =>
        e.setKv root (64 + 4 * σ + k) (max (e.normMax x k r a b) (e.kvNat root (64 + 4 * σ + k) 1)) 1) e
      e.commitSlot x r a b
  | _, _ => e

/-- The length of a request advanced from n to m: COMMITTED, PMAX, ceilings and seals of the rows it passes, and the rows
left without a committed position freed, other than the row of the new length (R242, R255). -/
def Engine.advance (e : Engine) (q m : Nat) (g : Graph) : Engine :=
  let n := (e.req q).len
  let s := g.streams.length
  let rows := (List.range (m / 64 + 1)).filter (fun r => decide (n / 64 ≤ r) && decide (64 * r < m))
  let e := rows.foldl (fun e r => (List.range s).foldl (fun e σ => e.commitPage q σ r n m s) e) e
  ((e.modReq q (fun r => { r with len := m })).freeRows q (m / 64 + 1) g)

end Sys2Proof.Machine
end

