-- ==== Sys2Proof/Machine/RequestOps.lean ====
section
/-!
DEFINITION. Requests, tenants and their token packets (R295 to R312, Tables 10.1 to 10.6): records as software reads them,
packets into the token FIFO, and the ends and pauses of requests.
-/
namespace Sys2Proof.Machine

/-! ### Records -/

/-- Code of a request state (Table 10.2). -/
def reqCode : ReqState → Nat
  | .idle => 0
  | .queued => 1
  | .prefill => 2
  | .decode => 3
  | .verify => 4
  | .paused => 5
  | .cancelling => 6
  | .done => 7

/-- A request-table entry as 512 bits (Table 10.1). -/
def Request.word (r : Request) : Nat :=
  pack [(64, r.deadline), (64, r.key.toNat), (64, r.promptAddr), (32, r.pageHead), (32, r.len), (32, r.promptLen), (32, r.maxLen), (32, r.temp.toNat),
    (32, r.topP.toNat), (32, r.eos), (32, r.outCnt), (12, r.chunkMax), (6, r.topkM1), (6, r.image), (5, r.part), (8, r.tenant), (3, r.prio),
    (4, r.reason), (2, r.pauseSrc), (1, bnat r.spec), (1, bnat r.retain), (13, 0), (3, reqCode r.state)]

/-- A token packet as 512 bits (Table 10.4). -/
def TokenPacket.word (k : TokenPacket) : Nat :=
  pack ((((List.range 9).reverse).map (fun j => (32, k.tokens.getD j 0))) ++
    [(64, k.tick), (32, k.outCnt), (32, k.len), (16, k.rtag), (8, k.tenant), (15, k.req), (4, k.count), (4, k.reason), (1, bnat k.fin), (1, k.kind), (47, 0)])

/-- Is an entry in PREFILL, DECODE, VERIFY or PAUSED? -/
def ReqState.active : ReqState → Bool
  | .prefill | .decode | .verify | .paused => true
  | _ => false

/-- Indices of the entries that satisfy a test, in rising order. -/
def Engine.reqsWhere (e : Engine) (f : Request → Bool) : List Nat := (e.reqs.filter (fun x => f x.2)).map (·.1)

/-- TQ[t] (Table 10.3). -/
def Engine.tqWord (e : Engine) (t : Nat) : Nat :=
  let q := e.tenant t
  pack [(16, (e.reqsWhere (fun r => r.tenant == t && r.state.active)).length), (16, (e.reqsWhere (fun r => r.tenant == t && r.state == .queued)).length),
    (16, q.maxReq), (16, ofSigned 16 q.deficit), (8, q.weight), (5, q.part), (1, bnat q.bound), (1, bnat q.enable), (49, 0)]

/-- PART[n] (Table 10.6). -/
def Part.word (p : Part) : Nat :=
  pack [(96, p.fields), (32, p.stepNo), (32, p.lastStep), (13, p.modes.posCap), (6, p.image.getD 0), (1, bnat p.image.isSome), (6, p.graph), (8, p.modes.retrKm1),
    (1, bnat p.modes.att), (1, bnat p.modes.res), (1, bnat p.modes.spec), (1, bnat p.modes.train), (2, p.pair), (8, p.epoch), (3, partCode p.state),
    (5, 0), (8, p.rrNext), (32, 0)]

/-! ### Token packets -/

/-- Room of a token FIFO (Table 11.6). -/
def fifoDepth : Nat := 128

/-- Requests of a tenant that hold a packet. -/
def Engine.holders (e : Engine) (t : Nat) : List Nat := e.reqsWhere (fun r => r.tenant == t && !r.heldPkts.isEmpty)

/-- A packet at the write position of a tenant's token FIFO: all 8 words are there unless TOKEN_DELIVERY finds it in the writing (R334;
log entry 60). -/
def Tenant.write (t : Tenant) (k : TokenPacket) : Tenant := { t with fifo := t.fifo ++ [k], wr := none }

/-- A tenant without token packets. -/
def Tenant.noPackets (t : Tenant) : Tenant := { t with fifo := [], wr := none, fwd := 0, heldEnds := [] }

/-- Drop-remainder (R335): the packet at the write position is discarded where words of it are still to come; words already forwarded
leave their TOK unit to the next packet. -/
def Tenant.dropRemainder (t : Tenant) : Tenant :=
  if t.wr.isSome then { t with fifo := t.fifo.dropLast, wr := none, fwd := if t.fifo.length = 1 then 0 else t.fwd } else t

/-- Is a packet of the request at the write position, and words of it still to come? -/
def Tenant.writing (t : Tenant) (q : Nat) : Bool := t.wr.isSome && (match t.fifo.getLast? with | some k => k.req == q | none => false)

/-- A packet written to the tenant's token FIFO, or held where the FIFO lacks room or others wait before it (R308, R310). -/
def Engine.putPacket (e : Engine) (k : TokenPacket) : Engine :=
  let t := e.tenant k.tenant
  if t.fifo.length < fifoDepth ∧ (e.holders k.tenant).isEmpty ∧ t.heldEnds.isEmpty then e.modTenant k.tenant (fun t => t.write k)
  else if (e.req k.req).state = .idle then e.modTenant k.tenant (fun t => { t with heldEnds := t.heldEnds ++ [k] })
  else e.modReq k.req (fun r => { r with heldPkts := r.heldPkts ++ [k] })

/-- A packet of an entry as it stands (Table 10.4). -/
def Request.packet (r : Request) (q tick : Nat) (toks : List Nat) (reason : Nat) (fin : Bool) : TokenPacket :=
  { tokens := toks, tick := tick, outCnt := r.outCnt, len := r.len, rtag := r.rtag, tenant := r.tenant, req := q, count := toks.length, reason := reason, fin := fin }

/-- Tokens accepted for a request and its reason, as one packet: OUT_CNT counts them (R308). -/
def Engine.packet (e : Engine) (q tick : Nat) (toks : List Nat) (reason : Nat) (fin : Bool) : Engine :=
  let e := e.modReq q (fun r => { r with outCnt := (r.outCnt + toks.length) % 2 ^ 32, reason := reason })
  e.putPacket ((e.req q).packet q tick toks reason fin)

/-- A pause packet: COUNT 0, REASON 0x6 unless another is given (R315). -/
def Engine.pauseReq (e : Engine) (q tick src reason : Nat) : Engine :=
  let e := e.modReq q (fun r => { r with prior := if r.state = .verify then .decode else r.state, state := .paused, pauseSrc := src, tree := none, pauseReq := false })
  e.packet q tick [] reason false

/-- The losses of a request discarded (R311). -/
def Engine.dropLosses (e : Engine) (q : Nat) : Engine := e.modPart (e.req q).part (fun x => { x with losses := x.losses.filter (fun l => l.1 != q) })

/-- The entry becomes IDLE: pages freed, its losses discarded, and it reads its reset values (R44, R238, R311; log entry 26). -/
def Engine.idleReq (e : Engine) (q : Nat) : Engine := ((e.freePages q).dropLosses q).modReq q (fun _ => {})

/-- A request ends at once as IDLE with an end packet (R309, R314, R318). -/
def Engine.endReq (e : Engine) (q tick reason : Nat) : Engine :=
  let r := { e.req q with reason := reason }
  let e := e.idleReq q
  if r.silentEnd then e else e.putPacket (r.packet q tick [] reason true)

/-- A request becomes DONE with an end packet; `free` where its pages are freed at this boundary (Table 10.2). -/
def Engine.doneReq (e : Engine) (q tick reason : Nat) (free : Bool) : Engine :=
  let e := cond free (fun e => e.freePages q) e
  let e := e.modReq q (fun r => { r with state := .done, tree := none, pauseReq := false, resumeReq := false, len := if free then 0 else r.len })
  e.packet q tick [] reason true

/-- Ends of all entries that satisfy a test, in table order. -/
def Engine.endWhere (e : Engine) (tick reason : Nat) (f : Request → Bool) : Engine :=
  (e.reqsWhere f).foldl (fun e q => e.endReq q tick reason) e

/-- R315: every request in QUEUED, PREFILL, DECODE or VERIFY pauses with PAUSE_SRC 0b11; one that a REQ_PAUSE has asked to pause at
this boundary stays that command's, so that PART_RESUME does not resume it. -/
def Engine.pauseAll (e : Engine) (p tick : Nat) : Engine :=
  (e.reqsWhere (fun r => r.part == p && (r.state == .queued || r.state == .prefill || r.state == .decode || r.state == .verify))).foldl
    (fun e q => e.pauseReq q tick (if (e.req q).pauseReq then 1 else 3) 6) e

/-- A pause told to the other parts of the partition's span (R367): one that a norm watcher makes pauses them when their step ends; the
others have abandoned the step here, and do so there. PART_PAUSE is shared by its own rule (R315). -/
def Engine.tellPause (e : Engine) (p tick : Nat) (c : PauseCause) : Engine :=
  if (e.part p).spanLast = 0 ∨ c = .host ∨ (e.part p).state = .paused then e
  else e.sendPrepare tick { part := p, epoch := 0, what := .stop (c != .normWatch), tick := tick, deadline := tick, coordinator := e.node, twoPhase := false } (e.spanOthers p)

/-- A partition enters PAUSED for a cause, with its requests (R315), and with the other parts of its span (R367). One that is FREE or
REBINDING keeps its state, which Table 10.7 leaves by the end of the binding alone. -/
def Engine.pausePart (e : Engine) (p tick : Nat) (c : PauseCause) : Engine :=
  if (e.part p).state = .free ∨ (e.part p).state = .rebinding then e
  else ((e.tellPause p tick c).pauseAll p tick).modPart p (fun x => { x with
    state := .paused, pauseAfter := false, causes := if x.causes.contains c then x.causes else x.causes ++ [c] })

/-! ### Boundary (R33, Table 10.2) -/

/-- Step 2 of R33 with the boundary transitions of Table 10.2: cancellations complete, requested pauses and resumes apply. -/
def Engine.boundaryReqs (e : Engine) (p tick : Nat) : Engine :=
  (e.reqsWhere (fun r => r.part == p && r.state != .idle)).foldl (fun e q =>
    let r := e.req q
    match r.state with
    | .cancelling => e.endReq q tick 3
    | .queued | .prefill | .decode | .verify => if r.pauseReq then e.pauseReq q tick 1 6 else e
    | .paused => if r.resumeReq then e.modReq q (fun r => { r with state := r.prior, pauseSrc := 0, resumeReq := false }) else e
    | _ => e) e

/-- R45: deadlines that have passed at assembly end their requests. -/
def Engine.expire (e : Engine) (p tick : Nat) : Engine :=
  (e.reqsWhere (fun r => r.part == p && (r.state == .queued || r.state == .prefill || r.state == .decode || r.state == .verify || r.state == .paused)
    && r.deadline != 0 && decide (r.deadline < tick))).foldl (fun e q => e.doneReq q tick 4 true) e

end Sys2Proof.Machine
end

