-- ==== Sys2Proof/Machine/Requests.lean ====
section
/-!
DEFINITION. The request commands (group 0x01xx: R295 to R301, R348) and prompt fetches (R300).
-/
namespace Sys2Proof.Machine

/-! ### Checks -/

/-- TEMP is a reserved encoding: less than 0, infinite or NaN (R296). -/
def badTemp (t : BitVec 32) : Bool := !fpFin t.toNat || (fpNeg t.toNat && !fpZero t.toNat)
/-- TOP_P is a reserved encoding: not above 0 and at most 1.0 (R296). -/
def badTopP (t : BitVec 32) : Bool := !fpFin t.toNat || fpNeg t.toNat || fpZero t.toNat || decide (0x3F800000 < t.toNat)

/-- Reserved values of Table 11.13 among the fields that `f` selects by byte offset; PROMPT_LEN 0 is outside its range. -/
def submitReserved (f : Nat → Bool) (q : SubmitParams) : Option Nat :=
  firstOf [outside 8 (!f 8 || q.promptLen != 0), outside 32 (!f 32 || !badTemp q.temp), outside 36 (!f 36 || !badTopP q.topP),
    outside 44 (!f 44 || (decide (64 ≤ q.chunkMax) && decide (q.chunkMax ≤ 2048)))]

/-- Fields of Table 11.13 that do not fit their widths. -/
def submitWidths (q : SubmitParams) : Option Nat :=
  firstOf [wide 0 64 q.promptAddr, wide 8 32 q.promptLen, wide 12 32 q.maxLen, wide 24 64 q.deadline, wide 40 32 q.eos, wide 46 6 q.topkM1, wide 47 3 q.prio]

/-- The request index of a command (R347). -/
def idxReserved (off idx : Nat) : Option Nat := wide off 15 idx

/-- A function may name a request: any PF, or the VF of its tenant (R298). -/
def mayName (h : Hdr) (r : Request) : Bool := match h.fn with | .pf _ => true | .vf t => t == r.tenant

/-- A command that names a request: it waits for the boundary of its partition while that is held for a capture (R466), or
where it carries a tick (R345). -/
def reqForm (op idx : Nat) (e : Engine) : Form :=
  let p := (e.req idx).part
  { op := op, vf := true, reserved := idxReserved 0 idx, boundary := if (e.part p).capture then [p] else [], later := [p] }

/-- The body of a command that names a request: the function's right to it (R298), then `f`. -/
def onReq (idx : Nat) (f : Hdr → Request → Nat → Engine → Engine) (h : Hdr) (_ : Bool) (now : Nat) (e : Engine) : Engine :=
  let r := e.req idx
  if mayName h r then f h r now e else e.reply now h .tenant 0

/-- The request's state is not one the command is listed for (R297). -/
def badState (h : Hdr) (r : Request) (now : Nat) (e : Engine) : Engine := e.reply now h .reqState (reqCode r.state)

/-! ### REQ_SUBMIT -/

/-- Lowest free entry of a deck's half of the table. -/
def Engine.freeEntry (e : Engine) (d : Nat) : Option Nat :=
  ((List.range 16384).find? (fun i => (e.req (d * 16384 + i)).state == .idle)).map (· + d * 16384)

/-- The entry a submission writes (R297, R348). -/
def newRequest (h : Hdr) (q : SubmitParams) (part : Nat) : Request :=
  { deadline := q.deadline, key := q.key, promptAddr := q.promptAddr, promptLen := q.promptLen, maxLen := q.maxLen, temp := q.temp, topP := q.topP, eos := q.eos,
    chunkMax := q.chunkMax, topkM1 := q.topkM1, image := q.image, part := part, tenant := q.tenant, prio := q.prio, spec := q.spec, retain := q.retain,
    state := .queued, rtag := h.tag, activate := h.tick, promptEnd := q.promptLen }

/-- REQ_SUBMIT's effect (R295, R302, R348, R366). -/
def runSubmit (q : SubmitParams) (h : Hdr) (_ : Bool) (now : Nat) (e : Engine) : Engine :=
  let t := e.tenant q.tenant
  let d := e.fnDeck h.fn
  let mine := match h.fn with | .pf _ => true | .vf k => k == q.tenant
  if !mine then e.reply now h .tenant 0
  else if (e.image q.image).partIndex ≠ 0 then e.reply now h .imageState (imgCode (e.image q.image).state)
  else if !(t.enable && t.bound) then e.reply now h .tenantState 0
  else match (e.freeEntry d).orElse (fun _ => e.freeEntry (1 - d)) with
    | none => e.reply now h .tableFull 0
    | some i =>
      if t.maxReq ≠ 0 ∧ t.maxReq ≤ (e.reqsWhere (fun r => r.tenant == q.tenant && r.state != .idle)).length then e.reply now h .tenantLimit 0
      else (e.modReq i (fun _ => newRequest h q (t.nextPart.getD t.part))).reply now h .ok i

/-- REQ_SUBMIT's packet. -/
def submitForm (q : SubmitParams) (e : Engine) : Form :=
  let p := (e.tenant q.tenant).part
  { op := 0x0101, vf := true, reserved := firstOf [submitWidths q, submitReserved (fun _ => true) q],
    index := firstOf [outside 48 (decide (q.image < 64)), outside 49 (decide (q.tenant < 256))],
    addrs := [{ addr := q.promptAddr, bytes := 4 * q.promptLen, off := 0, write := false, fn := .vf q.tenant, align := 4 }],
    boundary := if (e.part p).capture then [p] else [], later := [p] }

/-- REQ_SUBMIT (R348). -/
def execReqSubmit (hd : Hdr) (q : SubmitParams) (s : State) : Host.Outcome State Fault Refusal :=
  hostCmd hd (.reqSubmit hd q) (submitForm q) (runSubmit q) s

/-! ### Commands that name a request -/

/-- REQ_QUERY's effect: the 64-byte entry (R296). -/
def runQuery (idx addr : Nat) : Hdr → Bool → Nat → Engine → Engine :=
  onReq idx (fun h r now e => (e.dma h.fn addr (natBytes r.word 64)).okReply now h)

/-- ReqQuery's packet. -/
def reqQueryForm (hd : Hdr) (idx addr : Nat) (e : Engine) : Form :=
  { reqForm 0x0102 idx e with addrs := [{ addr := addr, bytes := 64, off := 8, write := true, fn := hd.fn }] }

/-- REQ_QUERY (R296). -/
def execReqQuery (hd : Hdr) (idx addr : Nat) (s : State) : Host.Outcome State Fault Refusal :=
  hostCmd hd (.reqQuery hd idx addr)
    (reqQueryForm hd idx addr) (runQuery idx addr) s

/-- Fields of an update written into an entry: mask bits 0 DEADLINE to 8 SPEC (Table 11.12). -/
def Request.apply (r : Request) (m : Nat) (q : SubmitParams) : Request :=
  { r with
    deadline := if bitAt m 0 then q.deadline else r.deadline
    maxLen := if bitAt m 1 then q.maxLen else r.maxLen
    temp := if bitAt m 2 then q.temp else r.temp
    topP := if bitAt m 3 then q.topP else r.topP
    eos := if bitAt m 4 then q.eos else r.eos
    chunkMax := if bitAt m 5 then q.chunkMax else r.chunkMax
    topkM1 := if bitAt m 6 then q.topkM1 else r.topkM1
    prio := if bitAt m 7 then q.prio else r.prio
    spec := if bitAt m 8 then q.spec else r.spec }

/-- REQ_UPDATE's effect: at the next assembly, or at once in a DONE entry (R296, R312). -/
def runUpdate (idx mask : Nat) (q : SubmitParams) : Hdr → Bool → Nat → Engine → Engine :=
  onReq idx (fun h r now e =>
    match r.state with
    | .idle => badState h r now e
    | .done => (e.modReq idx (fun r => r.apply mask q)).okReply now h
    | _ => (e.modReq idx (fun r => { r with update := r.update ++ [(mask, q)] })).okReply now h)

/-- Byte offset in Table 11.13 of the fields that an update mask selects. -/
def updateSelects (m off : Nat) : Bool :=
  match off with | 32 => bitAt m 2 | 36 => bitAt m 3 | 44 => bitAt m 5 | _ => false

/-- ReqUpdate's packet. -/
def reqUpdateForm (idx mask : Nat) (q : SubmitParams) (e : Engine) : Form :=
  { reqForm 0x0103 idx e with
      reserved := firstOf [idxReserved 0 idx, wide 4 9 mask, (submitWidths q).map (· + 8), (submitReserved (updateSelects mask) q).map (· + 8)] }

/-- REQ_UPDATE (R296). -/
def execReqUpdate (hd : Hdr) (idx mask : Nat) (q : SubmitParams) (s : State) : Host.Outcome State Fault Refusal :=
  hostCmd hd (.reqUpdate hd idx mask q)
    (reqUpdateForm idx mask q)
    (runUpdate idx mask q) s


/-- REQ_PAUSE's effect: the request pauses at the next boundary, where a cancel requested before it discards the pause (R297, R312). -/
def runPause (idx : Nat) : Hdr → Bool → Nat → Engine → Engine :=
  onReq idx (fun h r now e =>
    match r.state with
    | .cancelling => e.okReply now h
    | .queued | .prefill | .decode | .verify => (e.modReq idx (fun r => { r with pauseReq := true })).okReply now h
    | _ => badState h r now e)

/-- REQ_PAUSE (R297). -/
def execReqPause (hd : Hdr) (idx : Nat) (s : State) : Host.Outcome State Fault Refusal :=
  hostCmd hd (.reqPause hd idx) (reqForm 0x0104 idx) (runPause idx) s

/-- REQ_RESUME's effect, at the next boundary (Table 10.2). -/
def runResume (idx : Nat) : Hdr → Bool → Nat → Engine → Engine :=
  onReq idx (fun h r now e =>
    if r.state = .paused then (e.modReq idx (fun r => { r with resumeReq := true })).okReply now h else badState h r now e)

/-- REQ_RESUME (R297). -/
def execReqResume (hd : Hdr) (idx : Nat) (s : State) : Host.Outcome State Fault Refusal :=
  hostCmd hd (.reqResume hd idx) (reqForm 0x0105 idx) (runResume idx) s

/-- A request in CANCELLING: its held packet, a packet of it still in the writing, its losses and its tree are discarded, and OUT_CNT
becomes the delivered count where a packet goes (R44, R310, R311, R335, R462). -/
def Engine.cancelReq (e : Engine) (idx : Nat) (silent : Bool) : Engine :=
  let t := (e.req idx).tenant
  let cut := (e.tenant t).writing idx
  (cond cut (fun e => e.modTenant t Tenant.dropRemainder) (e.dropLosses idx)).modReq idx (fun r => { r with
    state := .cancelling, pauseReq := false, resumeReq := false, tree := none, heldPkts := []
    outCnt := if r.heldPkts.isEmpty && !cut then r.outCnt else r.delivered
    silentEnd := r.silentEnd || silent })

/-- REQ_RELEASE's effect: a DONE entry with RETAIN 1 becomes IDLE (R297). -/
def releaseReq (idx : Nat) (h : Hdr) (r : Request) (now : Nat) (e : Engine) : Engine :=
  if r.state = .done ∧ r.retain = true then (e.idleReq idx).okReply now h else badState h r now e

/-- REQ_CANCEL's effect (R44, R297). -/
def runCancel (idx : Nat) : Hdr → Bool → Nat → Engine → Engine :=
  onReq idx (fun h r now e =>
    match r.state with
    | .idle => badState h r now e
    | .cancelling => e.okReply now h
    | .done => releaseReq idx h r now e
    | _ => (e.cancelReq idx false).okReply now h)

/-- REQ_CANCEL (R44). -/
def execReqCancel (hd : Hdr) (idx : Nat) (s : State) : Host.Outcome State Fault Refusal :=
  hostCmd hd (.reqCancel hd idx) (reqForm 0x0106 idx) (runCancel idx) s

/-- REQ_RELEASE's effect. -/
def runRelease (idx : Nat) : Hdr → Bool → Nat → Engine → Engine := onReq idx (releaseReq idx)

/-- REQ_RELEASE (R297). -/
def execReqRelease (hd : Hdr) (idx : Nat) (s : State) : Host.Outcome State Fault Refusal :=
  hostCmd hd (.reqRelease hd idx) (reqForm 0x0107 idx) (runRelease idx) s

/-- REQ_APPEND's effect: the newest accepted token heads the first new chunk (R300). -/
def runAppend (idx count addr : Nat) : Hdr → Bool → Nat → Engine → Engine :=
  onReq idx (fun h r now e =>
    if r.state = .done ∧ r.retain = true ∧ (r.newest.isSome = true ∨ count ≠ 0) then
      let lead := r.newest.toList
      (e.modReq idx (fun r => { r with
        state := .prefill, promptAddr := addr, promptLen := (r.promptLen + count) % 2 ^ 32, prompt := lead, promptBase := r.len + lead.length,
        promptEnd := r.len + lead.length + count })).okReply now h
    else badState h r now e)

/-- ReqAppend's packet. -/
def reqAppendForm (idx count addr : Nat) (e : Engine) : Form :=
  { reqForm 0x0108 idx e with
      reserved := firstOf [idxReserved 0 idx, wide 4 32 count]
      addrs := [{ addr := addr, bytes := 4 * count, off := 8, write := false, fn := .vf (e.req idx).tenant, align := 4 }] }

/-- REQ_APPEND (R300): the prompt lies in a window of the tenant's function and is 4-aligned, as Table 11.13 has it. -/
def execReqAppend (hd : Hdr) (idx count addr : Nat) (s : State) : Host.Outcome State Fault Refusal :=
  hostCmd hd (.reqAppend hd idx count addr)
    (reqAppendForm idx count addr)
    (runAppend idx count addr) s

/-- Depths of a tree's nodes in order, given depths so far (index 0 is the root), and the first bad node (R301). -/
def treeDepths : List (Nat × Nat) → List Nat → List Nat × Option Nat
  | [], ds => (ds, none)
  | (_, parent) :: r, ds =>
    if parent < ds.length ∧ ds.getD parent 0 < 8 then treeDepths r (ds ++ [ds.getD parent 0 + 1]) else (ds, some ds.length)

/-- REQ_DRAFT's effect (R301, R312). -/
def runDraft (idx root : Nat) (nodes : List (Nat × Nat)) : Hdr → Bool → Nat → Engine → Engine :=
  onReq idx (fun h r now e =>
    match (treeDepths nodes [0]).2 with
    | some j => e.reply now h .badTree j
    | none =>
      match r.state with
      | .idle => badState h r now e
      | .cancelling | .done => e.okReply now h
      | _ => (e.modReq idx (fun r => { r with tree := some (root, nodes) })).okReply now h)

/-- ReqDraft's packet. -/
def reqDraftForm (idx root : Nat) (nodes : List (Nat × Nat)) (e : Engine) : Form :=
  { reqForm 0x0109 idx e with
  length := if nodes.isEmpty then some 16 else if nodes.length > 16 then some 136 else none
  reserved := firstOf [idxReserved 0 idx, wide 4 32 root,
    nodes.zipIdx.findSome? (fun x => firstOf [wide (8 * x.2 + 8) 32 x.1.1, wide (8 * x.2 + 12) 8 x.1.2])] }

/-- REQ_DRAFT (R301): LENGTH 16 to 136. -/
def execReqDraft (hd : Hdr) (idx root : Nat) (nodes : List (Nat × Nat)) (s : State) : Host.Outcome State Fault Refusal :=
  hostCmd hd (.reqDraft hd idx root nodes)
    (reqDraftForm idx root nodes)
    (runDraft idx root nodes) s

/-! ### Prompt fetch -/

/-- PROMPT_FETCH: a DMA of the next tokens completes, or fails and ends the request with REASON 0xA (R300, R341). It is issued
while the partition's inbound bucket holds its flits (R226), and not in Safe Hold (R391). -/
def promptFetch (idx : Nat) (tokens : Option (List Nat)) (now : Nat) (e : Engine) : Engine :=
  let r := e.req idx
  let next := r.len + r.prompt.length
  let f := Fn.vf r.tenant
  let a := r.promptAddr + 4 * (next - r.promptBase)
  if e.sup.safeHold || !((r.state == .queued || r.state == .prefill) && decide (next < r.promptEnd) && e.linkUp f) then e
  else match tokens with
    | none => e.doneReq idx now 0xA false
    | some ts =>
      let ts := ts.take (r.promptEnd - next)
      if e.windowOk f a (4 * ts.length) false then
        match e.takeHem (e.fnDeck f) 0 r.part (ceilDiv (4 * ts.length) 64) with
        | some e => e.modReq idx (fun r => { r with prompt := r.prompt ++ ts.map (· % 2 ^ 32) })
        | none => e
      else (e.windowEvent now f a).doneReq idx now 0xA false

/-- PROMPT_FETCH (R300). -/
def execPromptFetch (idx : Nat) (tokens : Option (List Nat)) (s : State) : Host.Outcome State Fault Refusal :=
  onUnit (decide (idx < 32768)) s (promptFetch idx tokens)

end Sys2Proof.Machine
end

