-- ==== Sys2Proof/Machine/RingOps.lean ====
section
/-!
DEFINITION. Rings (R327 to R332, R338, Tables 11.4, 11.5): configuration fields, pointers, the write-back record, MSI-X
coalescing, and delivery of one entry into a ring.
-/
namespace Sys2Proof.Machine

/-- Ring q of a function. -/
def FnState.ring (f : FnState) (q : Nat) : Ring := mget (fun _ => {}) q f.rings
/-- Engine with a ring changed. -/
def Engine.modRing (e : Engine) (f : Fn) (q : Nat) (g : Ring → Ring) : Engine :=
  e.modFn f (fun x => { x with rings := mmod (fun _ => {}) q g x.rings })

/-- ENABLE. -/
def Ring.enabled (r : Ring) : Bool := bitAt r.cfg.toNat 63
/-- EP_EN. -/
def Ring.epEn (r : Ring) : Bool := bitAt r.cfg.toNat 62
/-- k. -/
def Ring.log2 (r : Ring) : Nat := fld r.cfg.toNat 60 56
/-- Units. -/
def Ring.units (r : Ring) : Nat := 2 ^ r.log2
/-- Modulus of pointer arithmetic (R327). -/
def Ring.modulus (r : Ring) : Nat := 2 ^ (r.log2 + 1)
/-- Entries between the host's pointer and the engine's: what the host has not taken yet. -/
def Ring.used (r : Ring) : Nat := (r.ptr + r.modulus - r.host) % r.modulus
/-- IRQ_EN. -/
def Ring.irq (r : Ring) : Bool := bitAt r.cfg.toNat 27
/-- COAL_CNT. -/
def Ring.coalCnt (r : Ring) : Nat := fld r.cfg.toNat 55 48
/-- COAL_US. -/
def Ring.coalUs (r : Ring) : Nat := fld r.cfg.toNat 47 32

/-- Bytes of one unit of ring q (R329, R330). -/
def unitBytes (q : Nat) : Nat := if q = 1 then 16 else 64

/-- The write-back record of a ring (Table 11.5). -/
def Ring.record (r : Ring) : Nat := pack [(32, r.ptr), (32, r.pslot), (32, r.pcnt), (16, r.drops), (16, r.seq)]

/-- The record written, SEQ incremented by the write (R330). -/
def Engine.writeBack (e : Engine) (f : Fn) (q : Nat) : Engine :=
  let e := e.modRing f q (fun r => { r with seq := (r.seq + 1) % 65536 })
  let r := (e.fn f).ring q
  e.dma f r.wbAddr.toNat (natBytes r.record 16)

/-- The ring's vector signalled (R338). -/
def Engine.fire (e : Engine) (f : Fn) (q : Nat) : Engine := (e.modRing f q (fun r => { r with since := 0 })).msix f q

/-- n entries of ring q have completed: the record, then the vector once COAL_CNT entries wait (R330, R338). -/
def Engine.completed (e : Engine) (now : Nat) (f : Fn) (q n : Nat) : Engine :=
  let e := e.writeBack f q
  let e := e.modRing f q (fun r => { r with firstAt := if r.since = 0 then now else r.firstAt, since := r.since + n })
  let r := (e.fn f).ring q
  if r.irq && decide (r.coalCnt ≤ r.since) then e.fire f q else e

/-- DROPS raised, saturating (R329, R330). -/
def Engine.ringDrop (e : Engine) (f : Fn) (q : Nat) : Engine := e.modRing f q (fun r => { r with drops := satAdd 0xFFFF r.drops 1 })

/-- May ring q take an entry now: the function is there, its link is up, the ring is enabled and a unit is free (R325,
R330)? -/
def Engine.ringReady (e : Engine) (f : Fn) (q : Nat) : Bool :=
  let r := (e.fn f).ring q
  e.linkUp f && r.enabled && decide (r.used < r.units)

/-- The 64-bit words of `mask` replaced by 0 (R332). -/
def blankWords (mask : Nat) (bs : List Byte) : List Byte := bs.zipIdx.map (fun x => if mask.testBit (x.2 / 8) then 0 else x.1)

/-- One entry delivered into ring q (R330, R332). `queue` is the queue's place in Table 11.6, in the event of a word that is
bad twice. -/
def Engine.toRing (e : Engine) (now : Nat) (f : Fn) (q queue : Nat) (bs : List Byte) (par : Parity) : Engine :=
  let r := (e.fn f).ring q
  let unit := r.ptr % r.units
  let a := r.base.toNat + unitBytes q * unit
  let e := match par with
    | .twice m =>
      let e := if r.epEn then e.send (.poisoned f a (blankWords m bs)) else e.dma f a (blankWords m bs)
      (e.modRing f q (fun r => { r with pslot := unit, pcnt := satAdd 0xFFFFFFFF r.pcnt 1 })).event now (e.fnDeck f)
        { code := 0x0208, arg0 := queue * 2 ^ 32 + unit, arg1 := e.fnId f }
    | _ => e.dma f a bs
  (e.modRing f q (fun r => { r with ptr := (r.ptr + 1) % r.modulus })).completed now f q 1

end Sys2Proof.Machine
end

