-- ==== Sys2Proof/Machine/HostIf.lean ====
section
/-!
DEFINITION. The host interface as hardware: rings and doorbells, intake, the direct window, the ledger registers, BAR0
writes, function level resets and links (R322 to R346, Tables 11.1 to 11.8).
-/
namespace Sys2Proof.Machine

/-! ### Replies and interrupts -/

/-- STATUS_DELIVERY: the oldest reply goes to a free STS unit, then the write-back record (R330, R332). -/
def deliverStatus (f : Fn) (par : Parity) (now : Nat) (e : Engine) : Engine :=
  match (e.fn f).status with
  | [] => e
  | k :: r =>
    let ring := (e.fn f).ring 1
    let a := ring.base.toNat + 16 * (ring.ptr % ring.units)
    if !e.ringReady f 1 then e
    else if !e.windowOk f a 16 true then e.windowEvent now f a
    else ((e.modFn f (fun x => { x with status := r ++ x.waitStatus.take 1, waitStatus := x.waitStatus.drop 1 })).toRing now f 1 2
      (natBytes (pack [(64, k.tick), (32, k.detail), (16, k.status), (16, k.tag)]) 16) par).intakeMoves now f

/-- The command of an event of a function: the function exists. -/
def onFn (f : Fn) (s : State) (g : Nat → Engine → Engine) : Host.Outcome State Fault Refusal :=
  onUnit (fnOk f) s g

/-- STATUS_DELIVERY (R330). -/
def execStatusDelivery (fn : Fn) (parity : Parity) (s : State) : Host.Outcome State Fault Refusal := onFn fn s (deliverStatus fn parity)

/-- MSIX_COALESCE_TIMEOUT: COAL_US µs have passed since the first completion not yet signalled (R338). -/
def execMsixCoalesceTimeout (fn : Fn) (q : Nat) (s : State) : Host.Outcome State Fault Refusal :=
  onFn fn s (fun now e =>
    let r := (e.fn fn).ring q
    if r.irq && r.since != 0 && r.coalUs != 0 && decide (r.firstAt + r.coalUs ≤ now) then e.fire fn q else e)

/-! ### Fetch (R329, R331, R339) -/

/-- COMMAND_FETCH: the packet between the fetch pointer and the published tail enters intake while the quota allows; one whose
LENGTH passes the tail waits for a later doorbell (R329, R331, R339). -/
def fetchCommand (f : Fn) (k : RawPacket) (now : Nat) (e : Engine) : Engine :=
  let r := (e.fn f).ring 0
  let len := if k.headerBad then 64 else 16 + fld (bytesAt k.bytes 0 8) 43 32
  let n := packetUnits len
  let avail := (r.host + r.modulus - r.ptr) % r.modulus
  if !(e.linkUp f && r.enabled && decide (0 < avail) && decide (n ≤ avail) && e.intakeRoom f n) then e
  else if !e.windowOk f r.base.toNat (64 * r.units) false then e.windowEvent now f r.base.toNat
  else
    let e := e.packetIn now f r.ptr { k with bytes := k.bytes.take len }
    let e := (e.modRing f 0 (fun r => { r with ptr := (r.ptr + n) % r.modulus })).modFn f (fun x => { x with dwBefore := x.dwBefore - n })
    (e.completed now f 0 1).dwTry now f

/-- COMMAND_FETCH (R329). -/
def execCommandFetch (fn : Fn) (pkt : RawPacket) (s : State) : Host.Outcome State Fault Refusal := onFn fn s (fetchCommand fn pkt)

/-! ### Doorbells and ring configuration -/

/-- A PF has no TOK ring. -/
def hasRing (f : Fn) (q : Nat) : Bool := match f with | .pf _ => decide (q < 2) | .vf _ => decide (q < 3)

/-- DOORBELL: the tail of CMD, the head of STS and TOK; a value out of range is ignored and counted (R329, R330). -/
def doorbellWrite (f : Fn) (q v : Nat) (e : Engine) : Engine :=
  if !hasRing f q then e
  else
    let r := (e.fn f).ring q
    let v := fld v 16 0
    let ok := if q = 0 then decide ((v + r.modulus - r.ptr) % r.modulus ≤ r.units) else decide ((v + r.modulus - r.host) % r.modulus ≤ r.used)
    if v < r.modulus ∧ ok = true then e.modRing f q (fun r => { r with host := v }) else e.ringDrop f q

/-- DOORBELL (R329). -/
def execDoorbell (fn : Fn) (q : Nat) (v : Word) (s : State) : Host.Outcome State Fault Refusal :=
  onFn fn s (fun _ e => if (e.fnPort fn).isSome then doorbellWrite fn q v.toNat e else e)

/-- A field of RING_CFG taken from a write, where the value is allowed (R15). -/
def cfgField (old new hi lo : Nat) (ok : Nat → Bool) : Nat := if ok (fld new hi lo) then setFld old hi lo (fld new hi lo) else old

/-- RING_CFG after a write, ENABLE and ERR aside: LOG2_UNITS keeps its value while the ring is enabled (R328). -/
def Ring.configure (r : Ring) (q v : Nat) : Nat :=
  let c := cfgField r.cfg.toNat v 62 62 (fun _ => true)
  let c := cfgField c v 55 48 (· != 0)
  let c := cfgField c v 47 32 (fun _ => true)
  let c := cfgField c v 31 28 (fun x => q == 2 && decide (1 ≤ x) && decide (x ≤ 8))
  let c := cfgField c v 27 27 (fun _ => true)
  cfgField c v 60 56 (fun x => !r.enabled && decide (6 ≤ x) && decide (x ≤ 16))

/-- RING_CFG: enabling checks the windows of the ring and of the write-back record and sets both pointers to 0; a disabled CMD ring
publishes nothing any more (R328). -/
def ringConfig (f : Fn) (q : Nat) (v : Word) (now : Nat) (e : Engine) : Engine :=
  if !hasRing f q || (e.fnPort f).isNone then e
  else
    let r := (e.fn f).ring q
    let c := r.configure q v.toNat
    let r1 : Ring := { r with cfg := BitVec.ofNat 64 c }
    let ok := e.windowOk f r1.base.toNat (unitBytes q * r1.units) (q != 0) && e.windowOk f r1.wbAddr.toNat 16 true
    let e := if q = 0 then e.modFn f (fun x => { x with dwBefore := 0 }) else match f with | .vf t => if q = 2 then e.modTenant t (fun x => { x with fwd := 0 }) else e | .pf _ => e
    let e :=
      if bitAt v.toNat 63 then
        if ok then e.modRing f q (fun _ => { r1 with cfg := BitVec.ofNat 64 (setFld (setFld c 63 63 1) 61 61 0), ptr := 0, host := 0 })
        else e.modRing f q (fun _ => { r1 with cfg := BitVec.ofNat 64 (setFld (setFld c 63 63 0) 61 61 1) })
      else e.modRing f q (fun _ => { r1 with cfg := BitVec.ofNat 64 (setFld c 63 63 0) })
    e.dwTry now f

/-- RING_CFG_ENABLE (R328). -/
def execRingCfgEnable (fn : Fn) (q : Nat) (v : Word) (s : State) : Host.Outcome State Fault Refusal := onFn fn s (ringConfig fn q v)

/-! ### Direct window (R337) -/

/-- DROPS of DW_STATE raised. -/
def FnState.dwDrop (x : FnState) : FnState := { x with dwDrops := satAdd 0xFFFF x.dwDrops 1 }

/-- DW_DATA_WRITE: an aligned write of 4 to 64 bytes gathers in the buffer, or is dropped while BUSY (R326, R337). -/
def dwWrite (f : Fn) (off : Nat) (bs : List Byte) (e : Engine) : Engine :=
  let n := bs.length
  if (e.fnPort f).isNone || !([4, 8, 16, 32, 64].contains n && off % n == 0 && decide (off + n ≤ 4096)) then e
  else e.modFn f (fun x => if x.dwBusy then x.dwDrop else { x with dw := writeBytes x.dw off bs })

/-- DW_DATA_WRITE (R337). -/
def execDwDataWrite (fn : Fn) (off : Nat) (bytes : List Byte) (s : State) : Host.Outcome State Fault Refusal := onFn fn s (fun _ e => dwWrite fn off bytes e)

/-- CMD units of a function that doorbells have published and that are not fetched yet. -/
def FnState.published (x : FnState) : Nat :=
  let r := x.ring 0
  if r.enabled then (r.host + r.modulus - r.ptr) % r.modulus else 0

/-- DW_LAUNCH: bytes 0 to count - 1 enter intake after every CMD packet published before; BUSY while they wait (R337). A count outside
16 to 4,096 is a reserved value (R15); one that differs from 16 + LENGTH draws 0x0103. -/
def dwLaunched (f : Fn) (v : Nat) (wordBad headerBad : Bool) (now : Nat) (e : Engine) : Engine :=
  let n := fld v 12 0
  if (e.fnPort f).isNone then e
  else if (e.fn f).dwBusy then e.modFn f FnState.dwDrop
  else if n < 16 ∨ 4096 < n then e
  else (e.modFn f (fun x => { x with dwBusy := true, dwCount := n, dwBefore := x.published, dwWordBad := wordBad, dwHeaderBad := headerBad })).dwTry now f

/-- DW_LAUNCH (R337). -/
def execDwLaunch (fn : Fn) (v : Word) (s : State) (wordBad headerBad : Bool := false) : Host.Outcome State Fault Refusal := onFn fn s (dwLaunched fn v.toNat wordBad headerBad)

/-! ### Reads of BAR0 (R14, R323, R326, R336, Tables 11.1 to 11.8) -/

/-- Four 16-bit counters as a register, counter 0 highest (Tables 7.9, 9.5). -/
def quad (m : AMap Nat) : Nat := pack ((List.range 4).map (fun k => (16, mget (fun _ => 0) k m)))

/-- Exposed fields as ENG_INFO reports them: those of the grade without the fenced ones (R5, R408). -/
def Engine.exposed (e : Engine) : Nat := e.grade - (e.fields.filter (fun x => x.2.fenced)).length

/-- PORT_STAT (Table 11.3). -/
def HostPort.stat (h : HostPort) : Nat := pack [(16, h.uncorr), (16, h.corr), (7, 0), (5, h.width), (4, h.rate)]

/-- LEDGER_CNT: unread entries and LOST. -/
def Ledger.cnt (l : Ledger) : Nat := pack [(32, l.lost), (19, 0), (13, l.entries.length)]

/-- DW_STATE: BUSY and DROPS. -/
def FnState.dwState (x : FnState) : Nat := pack [(1, bnat x.dwBusy), (15, 0), (16, x.dwDrops)]

/-- LEDGER_HEAD: the sequence number of the oldest entry. The specification states none for a ledger without entries (log entry 147). -/
def Engine.ledgerHead (e : Engine) (d : Nat) : Nat :=
  match (e.deck d).ledger.entries with | x :: _ => x.seq | [] => (Config.unstatedArg e.freeCtr).toNat % 2 ^ 32

/-- A register of a deck's ledger block (Table 11.3). -/
def Engine.ledgerRead (e : Engine) (d k : Nat) : Nat :=
  let l := (e.deck d).ledger
  match k with
  | 0x00 => l.cnt
  | 0x08 => e.ledgerHead d
  | 0x10 => bnat l.poison
  | 0x48 => (e.deck d).thresh
  | _ => if 0x20 ≤ k ∧ k < 0x40 then fld ((l.latched.map (·.word)).getD 0) (8 * (k - 0x20) + 63) (8 * (k - 0x20)) else 0

/-- The 64-bit half of a 128-bit register at an offset. -/
def halfAt (w : BitVec 128) (off : Nat) : Nat := if off % 16 = 8 then w.toNat / 2 ^ 64 else w.toNat % 2 ^ 64

/-- Tenants assigned to a port, lowest first. -/
def Engine.tenantsAt (e : Engine) (port : Nat) : List Nat := (List.range 256).filter (fun t => fld (e.vfWord t) 2 0 == port && bitAt (e.vfWord t) 7)

/-- TotalVFs of each port's SR-IOV capability. -/
def totalVfs : Nat := 256

/-- VF k of a port, counted from 1: while VF Enable is set, the tenant with the k-th lowest ID among those assigned to the port; VFs
numbered above their count do not respond (R323). -/
def Engine.vfNumber (e : Engine) (port k : Nat) : Option Fn :=
  if (e.hport port).vfEnable && decide (1 ≤ k) && decide (k ≤ totalVfs) then ((e.tenantsAt port)[k - 1]?).map Fn.vf else none

/-- What an aligned 8-byte read of a function's BAR0 returns: RO and RW registers their value; WO and RSV registers and every other access
0; nothing answers for a function that does not respond (R14, R323, R326). The clearing of an RC field is RC_COUNTER_READ, the latch of a ledger
entry LEDGER_HEAD_READ. -/
def Engine.registerRead (e : Engine) (f : Fn) (off now : Nat) : Option Nat :=
  let x := e.fn f
  let port := (e.fnPort f).getD 0
  if (e.fnPort f).isNone then none
  else if off % 8 ≠ 0 then some 0
  else if 0x100 ≤ off ∧ off < 0x1C0 then
    let r := x.ring ((off - 0x100) / 0x40)
    if !hasRing f ((off - 0x100) / 0x40) then some 0
    else match (off - 0x100) % 0x40 with
      | 0x00 => some r.base.toNat
      | 0x08 => some r.cfg.toNat
      | 0x10 => some r.wbAddr.toNat
      | 0x18 => some r.ptr
      | _ => some 0
  else if 0x2000 ≤ off ∧ off < 0x2050 then
    let k := (off - 0x2000) / 16
    some (match f with | .vf _ => if 2 < k then 0 else halfAt (mget msixReset k x.msix) off | .pf _ => halfAt (mget msixReset k x.msix) off)
  else if 0x3000 ≤ off ∧ off < 0x3080 then some (halfAt (mget (fun _ => 0) ((off - 0x3000) / 16) x.windows) off)
  else if off = 0x0000 then some (e.fnId f)
  else if off = 0x0008 then some (e.exposed + Config.engVersion % 2 ^ 24 * 2 ^ 16)
  else if off = 0x0010 then some now
  else if off = 0x2800 then some x.pba
  else if off = 0x5008 then some x.dwState
  else match f with
    | .vf _ => some 0
    | .pf _ =>
      if 0x10000 ≤ off ∧ off < 0x10800 then some (e.vfWord ((off - 0x10000) / 8))
      else if 0x20000 ≤ off ∧ off < 0x28000 then
        some (halfAt (mget (fun _ => 0) ((off - 0x20000) % 128 / 16) (e.fn (.vf ((off - 0x20000) / 128))).windows) off)
      else if 0x30000 ≤ off ∧ off < 0x32000 then some (e.ledgerRead ((off - 0x30000) / 0x1000) ((off - 0x30000) % 0x1000))
      else if off = 0x40000 then some (e.hport port).stat
      else some 0

/-! ### Ledger registers and RC fields (R14, R336) -/

/-- LEDGER_HEAD_READ: the oldest entry is latched with its parity result, and its sequence number returned. -/
def execLedgerHeadRead (port d : Nat) (poison : Bool) (s : State) : Host.Outcome State Fault Refusal :=
  onUnit (decide (port < 8) && decide (d < 2)) s (fun _ e =>
    let v := e.ledgerHead d
    match (e.deck d).ledger.entries with
    | x :: _ => (e.modDeck d (fun k => { k with ledger := { k.ledger with latched := some x, poison := poison } })).send (.read v)
    | [] => ({ e with freeCtr := e.freeCtr + 1 } : Engine).send (.read v))

/-- LEDGER_ACK: the oldest entry retires if its sequence number is the one written (R336). -/
def execLedgerAck (port d : Nat) (v : Word) (s : State) : Host.Outcome State Fault Refusal :=
  onUnit (decide (port < 8) && decide (d < 2)) s (fun _ e =>
    e.modDeck d (fun k => match k.ledger.entries with
      | x :: r => if x.seq = v.toNat % 2 ^ 32 then { k with ledger := { k.ledger with entries := r } } else k
      | [] => k))

/-- RC_COUNTER_READ: the read returns the register and clears its counters; a hardware set in the same cycle stays (R14). -/
def execRcCounterRead (c : RcCounter) (hw : Bool) (s : State) : Host.Outcome State Fault Refusal :=
  let left := bnat hw
  let full (n : Nat) : AMap Nat := if hw then (List.range n).map (fun k => (k, 1)) else []
  match c with
  | .fab d => onUnit (decide (d < 2)) s (fun _ e => (e.modDeck d (fun k => { k with fab := full 4 })).send (.read (quad (e.deck d).fab)))
  | .disp d => onUnit (decide (d < 2)) s (fun _ e => (e.modDeck d (fun k => { k with disp := full 4 })).send (.read (quad (e.deck d).disp)))
  | .lost port d => onUnit (decide (port < 8) && decide (d < 2)) s (fun _ e =>
      (e.modDeck d (fun k => { k with ledger := { k.ledger with lost := left } })).send (.read (e.deck d).ledger.cnt))
  | .drops f => onFn f s (fun _ e => (e.modFn f (fun x => { x with dwDrops := left })).send (.read (e.fn f).dwState))

/-! ### Registers (R14, R15, R323, R326, R340) -/

/-- VF_ASSIGN_WRITE: ignored unless VF Enable is 0 on the old and the new port (R323). -/
def assignVf (t : Nat) (v : Word) (e : Engine) : Engine :=
  let old := fld (e.vfWord t) 2 0
  let new := fld v.toNat 2 0
  if (e.hport old).vfEnable || (e.hport new).vfEnable then e
  else { e with vfAssign := mset vfAssignReset t (BitVec.ofNat 64 (new + 128 * fld v.toNat 7 7)) e.vfAssign }

/-- VF_ASSIGN_WRITE (R323). -/
def execVfAssignWrite (port t : Nat) (v : Word) (s : State) : Host.Outcome State Fault Refusal :=
  onUnit (decide (port < 8) && decide (t < 256)) s (fun _ e => assignVf t v e)

/-- One 64-bit half of a 128-bit register, with only the bits of `mask` writable. -/
def setHalf (w : BitVec 128) (high : Bool) (v : Word) (mask : Nat) : BitVec 128 :=
  let k := if high then 64 else 0
  let x := v.toNat <<< k
  BitVec.ofNat 128 ((w.toNat &&& (2 ^ 128 - 1 - (mask &&& ((2 ^ 64 - 1) <<< k)))) ||| (x &&& mask))

/-- Writable bits of a window (Table 11.8). -/
def windowMask : Nat := 2 ^ 128 - 2 ^ 36 + 0xD
/-- Writable bits of an MSI-X table entry: address, data, mask bit. -/
def msixMask : Nat := 2 ^ 97 - 4

/-- A window register of a function written. -/
def writeWindow (e : Engine) (f : Fn) (w : Nat) (high : Bool) (v : Word) : Engine :=
  e.modFn f (fun x => { x with windows := mset (fun _ => 0) w (setHalf (mget (fun _ => 0) w x.windows) high v windowMask) x.windows })

/-- A vector whose bit of the PBA is set goes out once its entry is not masked and the port's link is up. -/
def Engine.pendingMsix (e : Engine) (f : Fn) (v : Nat) : Engine :=
  if (e.fn f).pba.testBit v && !(e.fn f).masked v && e.linkUp f then (e.modFn f (fun x => { x with pba := x.pba - 2 ^ v })).send (.msix f v) else e

/-- Where the operand `off` of REGISTER_WRITE means the SR-IOV Control register of the port's configuration space, whose bit 0 is VF
Enable (R323; PRESUMED, log entry 14): above every offset of BAR0. -/
def sriovControl : Nat := 2 ^ 32

/-- REGISTER_WRITE: an aligned 8-byte write to a register of BAR0 that has no behaviour of its own, or to VF Enable; a write
anywhere else has no effect (R14, R323, R326, R328, R340, Tables 11.2, 11.3). -/
def registerWrite (f : Fn) (off : Nat) (v : Word) (now : Nat) (e : Engine) : Engine :=
  let pf := match f with | .pf k => some k | .vf _ => none
  let high := off % 16 == 8
  if (e.fnPort f).isNone ∨ off % 8 ≠ 0 then e
  else if 0x100 ≤ off ∧ off < 0x1C0 then
    let q := (off - 0x100) / 0x40
    let k := (off - 0x100) % 0x40
    if !hasRing f q then e
    else if k = 0 then e.modRing f q (fun r => if r.enabled then r else { r with base := BitVec.ofNat 64 (v.toNat / 4096 * 4096) })
    else if k = 0x10 then e.modRing f q (fun r => if r.enabled then r else { r with wbAddr := BitVec.ofNat 64 (v.toNat / 16 * 16) })
    else if k = 8 then ringConfig f q v now e
    else e
  else if 0x1000 ≤ off ∧ off < 0x1018 then doorbellWrite f ((off - 0x1000) / 8) v.toNat e
  else if 0x2000 ≤ off ∧ off < 0x2050 then
    let k := (off - 0x2000) / 16
    if pf.isNone && decide (2 < k) then e
    else
      let w := setHalf (mget msixReset k (e.fn f).msix) high v msixMask
      let e := e.modFn f (fun x => { x with msix := mset msixReset k w x.msix })
      e.pendingMsix f k
  else match pf with
    | none => e
    | some port =>
      if 0x3000 ≤ off ∧ off < 0x3080 then writeWindow e f ((off - 0x3000) / 16) high v
      else if 0x10000 ≤ off ∧ off < 0x10800 then assignVf ((off - 0x10000) / 8) v e
      else if 0x20000 ≤ off ∧ off < 0x28000 then
        let t := (off - 0x20000) / 128
        if bitAt (e.vfWord t) 7 ∧ fld (e.vfWord t) 2 0 = port then writeWindow e (.vf t) ((off - 0x20000) % 128 / 16) high v else e
      else if off = 0x30048 ∨ off = 0x31048 then
        let d := (off - 0x30048) / 0x1000
        let n := fld v.toNat 12 0
        if 1 ≤ n ∧ n ≤ 4096 then e.modDeck d (fun k => { k with thresh := n }) else e
      else if off = sriovControl then e.modHport port (fun h => { h with vfEnable := v.toNat.testBit 0 })
      else e

/-- REGISTER_WRITE (R14). -/
def execRegisterWrite (fn : Fn) (off : Nat) (v : Word) (s : State) : Host.Outcome State Fault Refusal := onFn fn s (registerWrite fn off v)

/-! ### Scratchpad regions as the loader writes them (R161 to R163) -/

/-- Is the entry one R162 allows as entry n beside the tile's others? -/
def Tile.regionOk (ti : Tile) (n : Nat) (v : Word) : Bool :=
  (!regValid v ||
    (decide (regBase v + regSize v ≤ 480) &&
     (List.range 64).all (fun m => m == n || !regValid (ti.reg m) || decide (regBase v + regSize v ≤ regBase (ti.reg m)) || decide (regBase (ti.reg m) + regSize (ti.reg m) ≤ regBase v)) &&
     (regKind v == 0 || regW v) && (!regRetain v || regW v) &&
     (regKind v != 2 || (regBase v % 4 == 0 && regSize v % 4 == 0 &&
       decide (((List.range 64).filter (fun m => m != n && regValid (ti.reg m) && regKind (ti.reg m) == 2)).length < 8)))))

/-- What a write of `v` leaves in a region entry: RSV reads as 0 and its written value is ignored (Table 0.3), and a reserved KIND
keeps the one the entry has (R15). -/
def regWritten (old v : Word) : Word :=
  let k := if regKind v = 3 then regKind old else regKind v
  BitVec.ofNat 64 (setFld (setFld v.toNat 31 0 0) 43 42 k)

/-- Region entry n written: granules whose membership or class changes are zero-filled first (R163). -/
def Tile.setRegion (ti : Tile) (n : Nat) (v : Word) : Tile :=
  let old := ti.reg n
  let changed := (List.range 480).filter (fun g => regHas old g != regHas v g || (regHas v g && regW old != regW v))
  let ti := changed.foldl (fun ti g => ti.zero (g * 4096) 4096) ti
  { ti with region := mset (fun _ => 0) n v ti.region }

/-- SP_REGION_WRITE: a write that breaks R162 leaves the entry as it is; entries are written while no task of the partition
runs on the tile. -/
def execSpRegionWrite (t : Loc) (n : Nat) (v : Word) (s : State) : Host.Outcome State Fault Refusal :=
  onUnit (locOk t && decide (n < 64)) s (fun _ e =>
    e.modTile t (fun ti => if ti.inst.isEmpty && ti.regionOk n (regWritten (ti.reg n) v) then ti.setRegion n (regWritten (ti.reg n) v) else ti))

/-! ### Resets and links (R324, R325) -/

/-- Is the held command a two-phase action that is committed already, or one that another engine coordinates? Its other participants
apply it whatever becomes of its function. -/
def Held.bound (x : Held) : Bool := match x.act with | some a => a.decision == some true || !a.mine | none => false

/-- A command whose replies are discarded (R324). -/
def muteFor (f : Fn) (h : Hdr) : Hdr := if h.fn = f then { h with muted := true } else h

/-- A function's commands in intake withdrawn; those in the schedule table withdrawn (VF) or, where they still apply, muted (log entry
145). -/
def Deck.withdraw (d : Deck) (f : Fn) : Deck :=
  let stay (x : Held) : Bool := match f with | .vf _ => x.hd.fn != f || x.bound | .pf _ => true
  { d with intake := d.intake.filter (fun x => x.fn != f), sched := (d.sched.filter stay).map (fun x => { x with hd := muteFor f x.hd }) }

/-- A function's two-phase actions that are not decided yet, and that its FLR withdraws, aborted. -/
def Engine.abortActs (e : Engine) (f : Fn) (now : Nat) : Engine :=
  (List.range 2).foldl (fun e d => ((e.deck d).sched.filter (fun x => x.hd.fn == f)).foldl (fun e x =>
    match x.act with
    | some a => if a.mine && a.decision.isNone then e.decideAct now (x.parts.headD 0) a false else e
    | none => e) e) e

/-- The snapshot that is being captured for the function ends without effect and without a reply (R465). -/
def Engine.dropCapture (e : Engine) (f : Fn) : Engine :=
  let mine := e.snaps.filter (fun x => x.hd.fn == f && x.capturing)
  let e := { e with snaps := e.snaps.filter (fun x => !(x.hd.fn == f && x.capturing)) }
  mine.foldl (fun e x => (setBits x.mask 32).foldl (fun e p => e.modPart p (fun q => { q with capture := false })) e) e

/-- The replies of the function's mode epochs, snapshots and restores that are scheduled discarded; they still apply (R324). -/
def Engine.muteScheduled (e : Engine) (f : Fn) : Engine :=
  { e with
    snaps := e.snaps.map (fun x => { x with hd := muteFor f x.hd })
    parts := e.parts.map (fun (x : Nat × Part) => (x.1, { x.2 with coord := x.2.coord.map (fun c => { c with hd := c.hd.map (muteFor f) }) })) }

/-- FLR of a function (R324). Of a VF: rings disabled, requests cancelled and their end packets discarded, FIFOs emptied,
commands withdrawn. Of a PF: its rings, its direct window and its commands not yet executed; those scheduled still apply. -/
def flrOf (f : Fn) (now : Nat) (e : Engine) : Engine :=
  match f with
  | .pf _ =>
    let e := (List.range 2).foldl (fun e d => e.modDeck d (fun k => k.withdraw f)) e
    ((e.modFn f (fun x => { x with rings := [], dw := [], dwBusy := false, dwBefore := 0, opened := 0 })).dropCapture f).muteScheduled f
  | .vf t =>
    let e := (List.range 2).foldl (fun e d => e.modDeck d (fun k => k.withdraw f)) (e.abortActs f now)
    let e := e.modFn f (fun x => { x with
      rings := x.rings.map (fun y => (y.1, { y.2 with cfg := BitVec.ofNat 64 (setFld y.2.cfg.toNat 63 63 0), since := 0 }))
      status := [], waitStatus := [], opened := 0, dwBusy := false, dwBefore := 0 })
    let e := (e.reqsWhere (fun r => r.tenant == t && r.state != .idle)).foldl
      (fun e q => if (e.req q).state = .done then e.idleReq q else e.cancelReq q true) e
    let e := e.modTenant t Tenant.noPackets
    (e.reqsWhere (fun r => r.tenant == t && r.state != .idle)).foldl (fun e q => e.modReq q (fun r => { r with outCnt := r.delivered })) e

/-- FLR (R324). -/
def execFlr (fn : Fn) (s : State) : Host.Outcome State Fault Refusal := onFn fn s (flrOf fn)

/-- HOT_RESET: an FLR of every function of the port (R324, R486). -/
def hotReset (port now : Nat) (e : Engine) : Engine :=
  ((List.range totalVfs).filterMap (fun k => e.vfNumber port (k + 1))).foldl (fun e f => flrOf f now e) (flrOf (.pf port) now e)

/-- HOT_RESET (R324). -/
def execHotReset (port : Nat) (s : State) : Host.Outcome State Fault Refusal := onUnit (decide (port < 8)) s (hotReset port)

/-- PCIE_LINK_DOWN: recorded; a snapshot through the port ends with 0x0504 where a reply can wait (R325, R465). -/
def linkDown (port now : Nat) (e : Engine) : Engine :=
  let h := e.hport port
  if !h.up then e
  else
    let hit := e.snaps.filter (fun x => x.capturing && e.fnPort x.hd.fn == some port)
    let e := (e.modHport port (fun h => { h with up := false })).event now (port / 4) { code := 0x0501, arg0 := h.stat, arg1 := port }
    hit.foldl (fun e x =>
      let e := ({ e with snaps := e.snaps.filter (fun y => y != x) } : Engine).reply now x.hd .timeout 0
      (setBits x.mask 32).foldl (fun e p => e.modPart p (fun q => { q with capture := false })) e) e

/-- PCIE_LINK_DOWN (R325). -/
def execPcieLinkDown (port : Nat) (s : State) : Host.Outcome State Fault Refusal := onUnit (decide (port < 8)) s (linkDown port)

/-- PCIE_LINK_UP: delivery resumes with the writes that waited, oldest first; a port whose enable is clear stays in
electrical idle (R325, R394). -/
def linkUpAgain (port rate width : Nat) (e : Engine) : Engine :=
  let h := e.hport port
  if h.up || !h.enable || decide (e.power.stage < 4) then e
  else
    let e := e.modHport port (fun h => { h with up := true, rate := rate % 16, width := width % 32, waiting := [] })
    let e := h.waiting.foldl (fun e x => e.dma x.1 x.2.1 x.2.2) e
    (.pf port :: (List.range totalVfs).filterMap (fun k => e.vfNumber port (k + 1))).foldl (fun e f => (List.range 5).foldl (fun e v => e.pendingMsix f v) e) e

/-- PCIE_LINK_UP (R325). -/
def execPcieLinkUp (port rate width : Nat) (s : State) : Host.Outcome State Fault Refusal :=
  onUnit (decide (port < 8)) s (fun _ e => linkUpAgain port rate width e)

end Sys2Proof.Machine
end

