-- ==== Sys2Proof/Machine/Partitions.lean ====
section
/-!
DEFINITION. The partition commands (group 0x03xx: R302, R313 to R320, R225, R227, R262, R457) and the stages of a field-set
re-binding (R320). PART_MODE is the coordinator's side of a mode epoch (R372).
-/
namespace Sys2Proof.Machine

/-! ### Zero-fills (Table 5.5) and bindings -/

/-- The regions of a tile that satisfy a test, zero-filled. -/
def Tile.zeroRegs (ti : Tile) (f : Word → Bool) : Tile :=
  ti.region.foldl (fun ti x => if regValid x.2 && f x.2 then ti.zero (regBase x.2 * 4096) (regSize x.2 * 4096) else ti) ti

/-- The RETAIN = 0 regions of a partition, on every tile of its field set. -/
def Engine.zeroRegions (e : Engine) (p : Nat) : Engine :=
  e.modPartTiles p (fun ti => ti.zeroRegs (fun w => regPart w == p && !regRetain w))

/-- Bytes of a slot zero-filled. -/
def Tile.zeroSlot (ti : Tile) (k : Nat) : Tile := { ti with kv := zeroRange ti.kv (k * 16384) 16384 }

/-- The adapter area of a partition zero-filled (R293). -/
def Engine.zeroAdapter (e : Engine) (p : Nat) : Engine :=
  (e.modPartTiles p (fun ti => ti.slotUse.foldl (fun ti x => if x.2 = .adapter p then ti.zeroSlot x.1 else ti) ti))

/-- The loaded graph of an image (R289). -/
def Engine.graphOf (e : Engine) (img : Nat) : Option Nat :=
  (e.graphs.find? (fun x => x.2.image == img && (x.2.state == .loaded || x.2.state == .bound))).map (·.1)

/-- The graph of a partition's bound image leaves BOUND (Table 9.15). -/
def Engine.unbindGraph (e : Engine) (p : Nat) : Engine :=
  let q := e.part p
  if q.image.isSome then e.modGraph q.graph (fun g => if g.state = .bound ∧ q.image = some g.image then { g with state := .loaded } else g) else e

/-- The partition is bound to no image. -/
def Engine.unbind (e : Engine) (p : Nat) : Engine :=
  let e := e.unbindGraph p
  e.modPart p (fun q => { q with image := none, graph := 0, spanIndex := 0, spanLast := 0, spanOf := [], causes := q.causes.filter (· != .imageLost) })

/-! ### Spans (R365, R366) -/

/-- What a part of a span announces of itself; the most bytes H of a handoff are those its LOGITS regions hold after their header, and room
for one is what its BATCH regions leave after a batch table of one entry (log entry 151). -/
def Engine.spanSelf (e : Engine) (p img : Nat) (g : Graph) : SpanPart :=
  let node := g.nodes[g.sample]?
  let decls (c : Nat) : List Decl := (g.classes.getD c {}).decls
  let sizes (role : Nat) (cs : List Nat) : List Nat := cs.flatMap (fun c => ((decls c).filter (fun d => d.role == role)).map (fun d => d.size * 4096))
  let known (k : Nat) : Bool := let n := mget (fun _ => 0xFFF) k (e.part p).spanOf % 4096; n != 0xFFF && mget (fun _ => 0) n e.zroute != 0
  { id := (e.image img).id, part := (e.image img).partIndex, node := e.node, partition := p
    knows := ((List.range 4).filter known).foldl (fun m k => m + 2 ^ k) 0
    samples := match node with | some n => n.spread.length | none => 0
    batches := (g.placed.filter (fun x => x.2.regions.any (fun r => ((decls r.1).getD r.2.1 {}).role == 1))).length
    handoff := ((match node with | some n => sizes 3 [n.cls] | none => []).foldl max 64) - 64
    room := match sizes 1 (List.range g.classes.length) with | [] => 0 | l => l.foldl min (1 <<< 21) - 192 }

/-- Do two parts of an image fit (R366): a part's SAMPLE ranks those of the next one's BATCH tiles, and the last part's those of part 0's
SAMPLE spread; H within the region that receives it? -/
def spanFits (last : Nat) (a b : SpanPart) : Bool :=
  (b.part != a.part + 1 || (a.samples == b.batches && decide (a.handoff ≤ b.room))) && (!(a.part == last && b.part == 0) || a.samples == b.samples)

/-- The announced parts of an image, other than one. -/
def Engine.heardOf (e : Engine) (id : Word) (part : Nat) : List SpanPart := e.heard.filter (fun a => a.id == id && a.part != part)

/-- A part announced to the engine of a node (R365). -/
def Engine.announceTo (e : Engine) (now : Nat) (a : SpanPart) (node : Nat) : Engine := e.ctrl now node 0 (.announce a)

/-- The parts of spans that this engine's partitions hold. -/
def Engine.ownParts (e : Engine) : List SpanPart :=
  (List.range 32).filterMap (fun p =>
    match (e.part p).image with
    | some i => if (e.part p).spanLast = 0 then none else some (e.spanSelf p i (e.graph (e.part p).graph))
    | none => none)

/-- Parts of spans that this engine holds announced to the nodes that its routes lead to and that satisfy a test: when a partition binds
one, when a route is written or a port comes UP, and when something new is heard of another part (log entry 152). -/
def Engine.announceParts (e : Engine) (now : Nat) (f : SpanPart → Bool) (to' : Nat → Nat → Bool) : Engine :=
  ((e.ownParts.filter f).flatMap (fun a => ((e.zroute.filter (fun x => x.2 != 0 && x.1 != e.node && to' x.1 x.2)).map (fun x => (a, x.1))))).foldl
    (fun e x => e.announceTo now x.1 x.2) e

/-- A partition bound to an image and its graph; a part of a span learns what it has been told of the others, and announces itself to every
engine there is a route to (R319, R365). -/
def Engine.bindImage (e : Engine) (p img now : Nat) : Engine :=
  let e := e.unbind p
  let im := e.image img
  let g := (e.graphOf img).getD 0
  let e := e.modGraph g (fun g => { g with state := .bound })
  let e := e.modPart p (fun q => { q with image := some img, graph := g, spanIndex := im.partIndex, spanLast := im.partLast })
  if im.partLast = 0 then e
  else
    let e := e.modPart p (fun q => { q with
      spanOf := (e.heardOf im.id im.partIndex).foldl (fun m a => mset (fun _ => 0xFFF) a.part (a.node + 4096 * a.partition) m) q.spanOf })
    e.announceParts now (fun a => a.partition == p) (fun _ _ => true)

/-- May a partition bind an image over these fields (R184, R289, R316, R365)? A span never trains (note N4). -/
def Engine.bindRefused (e : Engine) (p fields img : Nat) : Option (Status × Nat) :=
  let im := e.image img
  if !(im.state == .ready || im.state == .degraded) || im.footprint != fields || (im.partLast != 0 && (e.part p).pair != 0) then
    some (.imageState, imgCode im.state)
  else match e.graphOf img with
    | some g =>
      let a := e.spanSelf p img (e.graph g)
      if im.partLast != 0 && ((e.graph g).train || (e.heardOf im.id im.partIndex).any (fun b => !(spanFits im.partLast a b && spanFits im.partLast b a)))
      then some (.graphState, graphCode (e.graph g).state) else none
    | none => some (.graphState, match e.graphs.find? (fun x => x.2.image == img && x.2.state == .loading) with | some _ => 1 | none => 0)

/-- Entries of a partition or a tenant that a re-binding refuses or, with FORCE, cancels (R317). -/
def Request.holds (r : Request) : Bool := r.state == .prefill || r.state == .decode || r.state == .verify || r.state == .paused

/-- A command that acts on the header's PARTITION at its step boundary. -/
def partForm (op : Nat) (hd : Hdr) : Form := { op := op, usesPart := true, boundary := [hd.part] }

/-- The same, where it applies to every part of a span (R315, R457). -/
def spanForm (op : Nat) (hd : Hdr) : Form := { partForm op hd with spans := true }

/-- The reply that a partition's state refuses the command. -/
def Engine.badPart (e : Engine) (now : Nat) (h : Hdr) : Engine := e.reply now h .partState (partCode (e.part h.part).state)

/-! ### Field sets (R316, R320) -/

/-- A field of a set that is not free for partition p: in another partition or promised to one, or fenced (R316, R408). -/
def Engine.fieldTaken (e : Engine) (p fields : Nat) : Option Nat :=
  (setBits fields 96).find? (fun k => (e.field k).fenced ||
    e.parts.any (fun x => x.1 != p && (x.2.fields.testBit k || (match x.2.rebind with | some r => r.fields.testBit k | none => false))))

/-- Is an imprint session open whose footprint shares a field with the set (R190)? -/
def Engine.sessionOn (e : Engine) (fields : Nat) : Bool := e.session.state != .idle && (e.image e.session.image).footprint &&& fields != 0

/-- PART_BIND_FIELDS takes effect: the checks, then REBINDING; a FREE partition stays FREE until its bind completes (Table 10.7). -/
def runBindFields (fields img : Nat) (h : Hdr) (acc : Bool) (now : Nat) (e : Engine) : Engine :=
  let p := h.part
  let q := e.part p
  let down := (setBits fields 96).find? (fun k => (e.deck (deckOf k)).latchedOff)
  if down.isSome = true then e.reply now h .deckDown (deckOf (down.getD 0))
  else if q.rebind.isSome = true ∨ (e.reqsWhere (fun r => r.part == p && r.holds) ≠ [] ∧ h.force = false) ∨ e.sessionOn fields = true then e.badPart now h
  else match e.fieldTaken p fields with
    | some k => e.reply now h .fieldInUse k
    | none => match (if fields = 0 then none else e.bindRefused p fields img) with
      | some (s, d) => e.reply now h s d
      | none => (e.accept now h acc 0).modPart p (fun q => { q with
          state := if q.state = .free then .free else .rebinding
          rebind := some { old := q.fields, fields := fields, image := img, stage := .drain, hd := h } })

/-- PartBindFields's packet. -/
def partBindFieldsForm (hd : Hdr) (fields img : Nat) (_ : Engine) : Form :=
  { partForm 0x0301 hd with flags := true, reserved := wide 0 96 fields, index := outside 12 (decide (img < 64)) }

/-- PART_BIND_FIELDS (R316). -/
def execPartBindFields (hd : Hdr) (fields img : Nat) (s : State) : Host.Outcome State Fault Refusal :=
  hostCmd hd (.partBindFields hd fields img)
    (partBindFieldsForm hd fields img) (runBindFields fields img) s

/-- The reserve KV region and its cache given up (R262). -/
def Engine.dropReserve (e : Engine) (p : Nat) : Engine :=
  (e.modPartTiles p (fun ti => ti.dropSlots (fun _ u => match u with | .kvcache k _ _ => k == p | _ => false))).modPart p
    (fun q => { q with kvRegion := none, kvLow := 0, kvUsed := [] })

/-- Drain and KV release: FORCE ends the entries that hold pages with REASON 0x8, cancellations complete, and every slot of the
partition is freed; QUEUED entries stay (R320). -/
def Engine.drain (e : Engine) (p now : Nat) (force : Bool) : Engine :=
  let e := if force then e.endWhere now 8 (fun r => r.part == p && r.holds) else e
  let e := e.endWhere now 3 (fun r => r.part == p && r.state == .cancelling)
  let e := (e.reqsWhere (fun r => r.part == p && r.state == .done)).foldl (fun e q => (e.freePages q).modReq q (fun r => { r with len := 0 })) e
  e.dropReserve p

/-- Is some slot of a partition's tiles still being zero-filled? -/
def Engine.zeroing (e : Engine) (p : Nat) : Bool :=
  e.tiles.any (fun x => (e.part p).fields.testBit (x.1 / 720) && x.2.slotUse.any (fun y => y.2 == .zeroing))

/-- Tiles that leave the partition: every region of it zero-filled (Table 5.5). -/
def Engine.zeroLeft (e : Engine) (p left : Nat) : Engine :=
  { e with tiles := e.tiles.foldl (fun m x =>
      if left.testBit (x.1 / 720) then mset (fun _ => {}) x.1 (x.2.zeroRegs (fun w => regPart w == p)) m else m) e.tiles }

/-- The partition's record in the commit (R433). -/
def Engine.commitPart (e : Engine) (p : Nat) : Engine :=
  { e with commit := { e.commit with parts := mset (fun _ => {}) p (e.part p) e.commit.parts } }

/-- Why the fields of a bind that has completed leave the partition PAUSED: a virtual tile without a site, a fenced field, a zone
without its clock (R407, R408, R425). -/
def Engine.bindCauses (e : Engine) (fields : Nat) : List PauseCause :=
  let fs := setBits fields 96
  (if fs.all (fun k => (e.field k).darnMap.all (fun x => bitAt x.2.toNat 15)) then [] else [PauseCause.noSpare]) ++
    (if fs.any (fun k => (e.field k).fenced) then [PauseCause.fenced] else []) ++
    (if fs.any (fun k => e.clockStopped (fieldDomain k)) then [PauseCause.phases] else [])

/-- The end of a re-binding: FREE without fields; else the image, if it may still be bound (log entry 143), and IDLE or, for a cause,
PAUSED. -/
def Engine.endRebind (e : Engine) (p now : Nat) (r : Rebind) : Engine :=
  let e := e.modPart p (fun q => { q with rebind := none, causes := [], state := if r.fields = 0 then .free else .idle })
  if r.fields = 0 then (e.commitPart p).okReply now r.hd
  else
    let no := e.bindRefused p r.fields r.image
    let e := (e.bindCauses r.fields).foldl (fun e c => e.pausePart p now c) (if no.isSome then e else e.bindImage p r.image now)
    match no with
    | some (s, d) => (e.commitPart p).reply now r.hd s d
    | none => (e.commitPart p).okReply now r.hd

/-- FIELD_SET_REBIND_STAGE: the stage under way completes (Table 10.9). -/
def rebindStage (p now : Nat) (e : Engine) : Engine :=
  let q := e.part p
  match q.rebind with
  | none => e
  | some r =>
    let into (s : RebindStage) (e : Engine) := e.modPart p (fun q => { q with rebind := some { r with stage := s } })
    match r.stage with
    | .drain => if e.atBoundary [p] then into .kvRelease (e.drain p now r.hd.force) else e
    | .kvRelease => if e.zeroing p then e else into .route e
    | .route => into .fill ((e.unbind p).modPart p (fun q => { q with fields := r.fields }))
    | .fill => into .journal ((e.zeroLeft p (r.old - (r.old &&& r.fields))).zeroRegions p)
    | .journal => e.endRebind p now r

/-- FIELD_SET_REBIND_STAGE (R320). -/
def execFieldSetRebindStage (p : Nat) (s : State) : Host.Outcome State Fault Refusal := onUnit (decide (p < 32)) s (rebindStage p)

/-! ### Images and tenants (R318, R319) -/

/-- PART_BIND_IMAGE's effect at the boundary (R319); the zero-fill of Table 5.5 takes place for the image that is bound already, too
(DEDUCED, log 138). -/
def runBindImage (img : Nat) (h : Hdr) (_ : Bool) (now : Nat) (e : Engine) : Engine :=
  let p := h.part
  if (e.part p).rebind.isSome = true then e.badPart now h
  else match e.bindRefused p (e.part p).fields img with
    | some (s, d) => e.reply now h s d
    | none => ((e.bindImage p img now).zeroRegions p).okReply now h

/-- PartBindImage's packet. -/
def partBindImageForm (hd : Hdr) (img : Nat) (_ : Engine) : Form :=
  { partForm 0x0302 hd with index := outside 0 (decide (img < 64)) }

/-- PART_BIND_IMAGE (R319). -/
def execPartBindImage (hd : Hdr) (img : Nat) (s : State) : Host.Outcome State Fault Refusal :=
  hostCmd hd (.partBindImage hd img) (partBindImageForm hd img) (runBindImage img) s

/-- TENANT_BIND's effect at the boundary of both partitions: QUEUED entries move, FORCE ends the others with REASON 0x8, DEF
is 0, and the zero-fills of Table 5.5 and R293 are made for both. -/
def runTenantBind (t : Nat) (h : Hdr) (_ : Bool) (now : Nat) (e : Engine) : Engine :=
  let q := e.tenant t
  if e.reqsWhere (fun r => r.tenant == t && r.holds) ≠ [] ∧ h.force = false then (e.modTenant t (fun q => { q with nextPart := none })).reply now h .tenantState 0
  else
    let e := e.endWhere now 8 (fun r => r.tenant == t && r.holds)
    let e := (e.reqsWhere (fun r => r.tenant == t && r.state == .queued)).foldl (fun e k => e.modReq k (fun r => { r with part := h.part })) e
    let e := e.modTenant t (fun q => { q with part := h.part, bound := true, deficit := 0, nextPart := none })
    let ps := if q.bound then [q.part, h.part].eraseDups else [h.part]
    (ps.foldl (fun e p => let e := e.zeroRegions p; if h.keepAdapt then e else e.zeroAdapter p) e).okReply now h

/-- TENANT_BIND's packet: it applies at a boundary of both the old and the new partition (Table 10.8). -/
def tenantBindForm (hd : Hdr) (t : Nat) (e : Engine) : Form :=
  let q := e.tenant t
  { op := 0x0303, usesPart := true, flags := true, keeps := true, index := outside 0 (decide (t < 256)),
    boundary := if q.bound then [q.part, hd.part].eraseDups else [hd.part] }

/-- TENANT_BIND (R318): while the command waits for the boundary, submissions already go to the new partition. -/
def execTenantBind (hd : Hdr) (t : Nat) (s : State) : Host.Outcome State Fault Refusal :=
  onUnit (fnOk hd.fn) s (fun now e =>
    let e' := e.command now hd (.tenantBind hd t) (tenantBindForm hd t e) (runTenantBind t)
    let held (e : Engine) : Nat := (e.deck (e.fnDeck hd.fn)).sched.length
    if held e < held e' then e'.modTenant t (fun q => { q with nextPart := some hd.part }) else e')

/-- TENANT_SET's effect (R302). -/
def runTenantSet (t weight maxReq : Nat) (enable : Bool) (mask : Nat) (h : Hdr) (_ : Bool) (now : Nat) (e : Engine) : Engine :=
  (e.modTenant t (fun q => { q with
    weight := if bitAt mask 0 then weight else q.weight
    maxReq := if bitAt mask 1 then maxReq else q.maxReq
    enable := if bitAt mask 2 then enable else q.enable })).okReply now h

/-- TenantSet's packet. -/
def tenantSetForm (t weight maxReq : Nat) (mask : Nat) (_ : Engine) : Form :=
  { op := 0x0308, usesPart := true, index := outside 0 (decide (t < 256)),
                reserved := firstOf [wide 1 8 weight, outside 1 (!bitAt mask 0 || weight != 0), wide 2 16 maxReq, outside 2 (!bitAt mask 1 || decide (maxReq ≤ 32768)), wide 5 3 mask] }

/-- TENANT_SET (R302): WEIGHT 0 and a MAX_REQ above 32,768 are reserved values. -/
def execTenantSet (hd : Hdr) (t weight maxReq : Nat) (enable : Bool) (mask : Nat) (s : State) : Host.Outcome State Fault Refusal :=
  hostCmd hd (.tenantSet hd t weight maxReq enable mask)
    (tenantSetForm t weight maxReq mask)
    (runTenantSet t weight maxReq enable mask) s

/-! ### Pause, resume, reset (R315, R457) -/

/-- PART_PAUSE's effect at the boundary. -/
def runPartPause (h : Hdr) (_ : Bool) (now : Nat) (e : Engine) : Engine :=
  match (e.part h.part).state with
  | .free | .rebinding => e.badPart now h
  | .paused => e.okReply now h
  | _ => (e.pausePart h.part now .host).okReply now h

/-- PartPause's packet. -/
def partPauseForm (hd : Hdr) (_ : Engine) : Form :=
  spanForm 0x0305 hd

/-- PART_PAUSE (R315). -/
def execPartPause (hd : Hdr) (s : State) : Host.Outcome State Fault Refusal :=
  hostCmd hd (.partPause hd) (partPauseForm hd) runPartPause s

/-- Requests with PAUSE_SRC 0b11 return to the states they held before (R315). -/
def Engine.resumeAll (e : Engine) (p : Nat) : Engine :=
  (e.reqsWhere (fun r => r.part == p && r.state == .paused && r.pauseSrc == 3)).foldl
    (fun e q => e.modReq q (fun r => { r with state := r.prior, pauseSrc := 0, resumeReq := false })) e

/-- Why PART_RESUME is refused (R407, R408, R425). -/
def Engine.resumeRefused (e : Engine) (p : Nat) : Option (Status × Nat) :=
  let q := e.part p
  if q.causes.contains .imageLost then some (.imageState, imgCode (e.image (q.image.getD 0)).state)
  else if q.state == .free || q.state == .rebinding || q.causes.any (fun c => c == .noSpare || c == .fenced || c == .phases) then some (.partState, partCode q.state)
  else none

/-- PART_RESUME's effect at the boundary; on a partition that is not paused it has none. -/
def runPartResume (h : Hdr) (_ : Bool) (now : Nat) (e : Engine) : Engine :=
  match e.resumeRefused h.part with
  | some (s, d) => e.reply now h s d
  | none =>
    if (e.part h.part).state = .paused then
      ((e.resumeAll h.part).modPart h.part (fun q => { q with state := .idle, causes := [] })).okReply now h
    else e.okReply now h

/-- PartResume's packet. -/
def partResumeForm (hd : Hdr) (_ : Engine) : Form :=
  spanForm 0x0306 hd

/-- PART_RESUME (R315). -/
def execPartResume (hd : Hdr) (s : State) : Host.Outcome State Fault Refusal :=
  hostCmd hd (.partResume hd) (partResumeForm hd) runPartResume s

/-- The norm-watch table of a partition at a reset: MEAN 0 and WARMUP 0x10, the configuration kept (R454, Table 15.4). -/
def Part.coldWatch (q : Part) : Part := { q with watch := q.watch.map (fun x => (x.1, { x.2 with mean := 0, warmup := 0x10 })), tally := [] }

/-- A reset aborts a mode epoch that the partition coordinates and that is not decided yet; one that it has acknowledged elsewhere, or that
is committed, still applies (R373, Table 15.4). -/
def Engine.abortPrepare (e : Engine) (p now : Nat) : Engine :=
  match (e.part p).coord with
  | some c => if c.decision.isNone then e.abortEpoch now p c e.node else e
  | none => e

/-- The partition column of Table 15.4. Its graph leaves BOUND (Table 9.15) and stays in place, until the partition is bound to its image
again (log entry 159). -/
def Engine.resetPart (e : Engine) (p now : Nat) : Engine :=
  let e := ((e.unbindGraph p).abortPrepare p now).modPart p (fun q => { q with losses := [] })
  let e := e.endWhere now 9 (fun r => r.part == p && r.state != .idle)
  let e := e.modPartTiles p (fun ti => ti.slotUse.foldl (fun ti x => match x.2 with
    | .kvcache k _ _ => if k = p then (ti.zeroSlot x.1).setUse x.1 (.kvcache p noPage 0) else ti
    | _ => ti) ti)
  (e.zeroRegions p).modPart p (fun q =>
    let q := q.coldWatch
    let stay := q.causes.filter (fun c => c == .imageLost || c == .noSpare || c == .fenced || c == .phases)
    { q with
      kvUsed := [], heldPkts := [], causes := stay
      state := if q.state = .free ∨ q.state = .rebinding then q.state else if stay.isEmpty then .idle else .paused })

/-- PART_RESET's effect at the boundary. -/
def runPartReset (h : Hdr) (_ : Bool) (now : Nat) (e : Engine) : Engine := (e.resetPart h.part now).okReply now h

/-- PartReset's packet. -/
def partResetForm (hd : Hdr) (_ : Engine) : Form :=
  spanForm 0x0307 hd

/-- PART_RESET (R457). -/
def execPartReset (hd : Hdr) (s : State) : Host.Outcome State Fault Refusal :=
  hostCmd hd (.partReset hd) (partResetForm hd) runPartReset s

/-! ### Mode epochs: the coordinator (R372, R376) -/

/-- PART_MODE's modes: the fields that the mask names (Table 11.12). -/
def changeModes (m : Modes) (mask bits retr cap : Nat) : Modes :=
  { res := if bitAt mask 0 then bitAt bits 0 else m.res
    att := if bitAt mask 1 then bitAt bits 1 else m.att
    retrKm1 := if bitAt mask 1 then retr else m.retrKm1
    spec := if bitAt mask 2 then bitAt bits 2 else m.spec
    train := if bitAt mask 3 then bitAt bits 3 else m.train
    posCap := if bitAt mask 4 then cap else m.posCap }

/-- PART_MODE at intake: prepare to every participant. The partition itself acknowledges at once, or refuses in FREE and
REBINDING; alone, it commits at once. With a tick to come it is held in its deck's schedule table too (R345). A part of a span does not
train (note N4). -/
def runPartMode (mask bits retr cap : Nat) (h : Hdr) (acc : Bool) (now : Nat) (e : Engine) : Engine :=
  let p := h.part
  let q := e.part p
  if q.prepared.isSome || q.coord.any (fun c => c.decision.isNone) then e.badPart now h
  else if q.state = .free ∨ q.state = .rebinding then e.reply now h .timeout e.node
  else if q.spanLast ≠ 0 ∧ (changeModes q.modes mask bits retr cap).train = true then e.reply now h .graphState (graphCode (e.graph q.graph).state)
  else
    let a := e.announce [p]
    let t := max h.tick (now + leadOf a)
    let modes := changeModes q.modes mask bits retr cap
    let m : Prepare := { part := p, epoch := (q.epoch + 1) % 256, what := .modes modes, tick := t, deadline := t - ceilDiv a 10 - 1, coordinator := e.node }
    let os := e.others p
    let h' := { h with tick := 0 }
    let e := if t > now + 100 then e.accept now h acc 0 else e
    let e := cond (decide (now < h.tick)) (fun e => e.hold { hd := { h with tick := t }, cmd := .partMode h mask bits retr cap, accepted := true, own := true }) e
    (e.sendPrepare now m os).modPart p (fun q => { q with
      prepared := some { msg := m, modes := modes, turn := h.turn, decided := if os.isEmpty then some true else none }
      coord := some { msg := m, nodes := os, waiting := os.map (·.1), decision := if os.isEmpty then some true else none, hd := some h', nextSend := now + 100 } })

/-- PartMode's packet. -/
def partModeForm (hd : Hdr) (mask modes retr cap : Nat) (_ : Engine) : Form :=
  { op := 0x0304, usesPart := true, atIntake := true, later := [hd.part],
                reserved := firstOf [wide 0 5 mask, wide 4 4 modes, wide 5 8 retr, wide 6 16 cap, outside 6 (!bitAt mask 4 || (decide (1 ≤ cap) && decide (cap ≤ 4096)))] }

/-- PART_MODE (R372): POS_CAP is 1 to 4,096. -/
def execPartMode (hd : Hdr) (mask modes retr cap : Nat) (s : State) : Host.Outcome State Fault Refusal :=
  hostCmd hd (.partMode hd mask modes retr cap)
    (partModeForm hd mask modes retr cap)
    (runPartMode mask modes retr cap) s

/-! ### Hem credit and the reserve KV region (R227, R262) -/

/-- Capacity of a segment in flits a pace tick (R227). -/
def hemCapacity (table : Nat) : Nat := if table = 0 then 7500 else 37500
/-- Sum of a rate over the entries other than n. -/
def Deck.hemSum (d : Deck) (table n : Nat) (f : HemCr → Nat) : Nat := ((List.range 33).filter (· != n)).foldl (fun m k => m + f (d.hem table k)) 0

/-- HEM_SET's effect (R225, R227). -/
def runHemSet (deck table entry inRate outRate burst : Nat) (h : Hdr) (_ : Bool) (now : Nat) (e : Engine) : Engine :=
  let d := e.deck deck
  let inLeft := hemCapacity table - d.hemSum table entry HemCr.inRate
  let outLeft := hemCapacity table - d.hemSum table entry HemCr.outRate
  if inLeft < inRate then e.reply now h .hemCapacity inLeft
  else if outLeft < outRate then e.reply now h .hemCapacity outLeft
  else (e.modDeck deck (fun d => d.setHem table entry { d.hem table entry with inRate := inRate, outRate := outRate, burst := burst })).okReply now h

/-- HemSet's packet. -/
def hemSetForm (deck table entry inRate outRate burst : Nat) (_ : Engine) : Form :=
  { op := 0x0309, usesPart := true, index := firstOf [outside 0 (decide (deck < 2)), outside 2 (decide (entry ≤ 32))],
                reserved := firstOf [outside 1 (decide (table < 2)), wide 4 16 inRate, wide 6 16 outRate, wide 8 16 burst, outside 8 (decide (max inRate outRate ≤ burst))] }

/-- HEM_SET (R227): BURST is at least the larger rate (Table 7.7). -/
def execHemSet (hd : Hdr) (deck table entry inRate outRate burst : Nat) (s : State) : Host.Outcome State Fault Refusal :=
  hostCmd hd (.hemSet hd deck table entry inRate outRate burst)
    (hemSetForm deck table entry inRate outRate burst)
    (runHemSet deck table entry inRate outRate burst) s

/-- Slots of a tile that are not set aside for the tiers, caches, pools and adapters (R201, R239). -/
def Tile.openSlots (ti : Tile) : Nat :=
  kvSlots - (ti.slotUse.filter (fun x => match x.2 with | .overflow _ | .rcache _ _ _ | .kvcache _ _ _ | .pool _ | .adapter _ | .withdrawn => true | _ => false)).length

/-- Most slots by which some of the tiles would fall short of 512 with `n` more set aside on each (R201). -/
def Engine.slotDeficit (e : Engine) (ts : List Loc) (n : Loc → Nat) : Nat := ts.foldl (fun m t => max m (512 + n t - (e.tile t).openSlots)) 0

/-- The lowest free slots of a tile set aside for a use. -/
def Tile.takeSlots (ti : Tile) (n : Nat) (u : SlotUse) : Tile := (ti.freeSlots.take n).foldl (fun ti k => ti.setUse k u) ti

/-- KV_RESERVE's effect: the region, cache and low mark registered or, with 0 bytes, given up. The region keeps while rows are
spilled to it (log entry 30). -/
def runKvReserve (addr bytes cache low : Nat) (h : Hdr) (_ : Bool) (now : Nat) (e : Engine) : Engine :=
  let p := h.part
  if !(e.part p).kvUsed.isEmpty then e.badPart now h
  else
    let e0 := e
    let e := e.dropReserve p
    if bytes = 0 then e.okReply now h
    else
      let ts := e.partTiles p
      let lack := max (e.slotDeficit ts (fun _ => cache)) (ts.foldl (fun m t => max m (cache - (e.tile t).freeSlots.length)) 0)
      if lack ≠ 0 then e0.reply now h .kvSlots lack
      else
        let e := if cache = 0 then e else ts.foldl (fun e t => e.modTile t (fun ti => ti.takeSlots cache (.kvcache p noPage 0))) e
        (e.modPart p (fun q => { q with kvRegion := some (addr, bytes, h.fn), kvLow := low })).okReply now h

/-- KvReserve's packet. -/
def kvReserveForm (hd : Hdr) (addr bytes cache low : Nat) (_ : Engine) : Form :=
  { op := 0x030A, usesPart := true, later := [hd.part],
                reserved := firstOf [wide 8 64 bytes, outside 16 (decide (cache ≤ 256)), outside 18 (decide (16 ≤ low) && decide (low ≤ 1024))],
                addrs := [{ addr := addr, bytes := bytes, off := 0, write := false, fn := hd.fn }, { addr := addr, bytes := bytes, off := 0, write := true, fn := hd.fn }] }

/-- KV_RESERVE (R262). -/
def execKvReserve (hd : Hdr) (addr bytes cache low : Nat) (s : State) : Host.Outcome State Fault Refusal :=
  hostCmd hd (.kvReserve hd addr bytes cache low)
    (kvReserveForm hd addr bytes cache low)
    (runKvReserve addr bytes cache low) s

end Sys2Proof.Machine
end

