-- ==== Sys2Proof/Machine/LoadPkg.lean ====
section
/-!
DEFINITION. Load packages (R283, Tables 9.2, 9.3, 9.9 to 9.11, 9.13, 9.18) and the load checks that the package and its image
decide (R265 to R269, R287, R288, Table 9.14, checks 0x01 to 0x0A).
-/
namespace Sys2Proof.Machine

/-- A package's header and records, each record as a number. -/
structure Pkg where
  v : Nat
  flags : Nat
  id : Nat
  sample : Nat
  cap : Nat
  adapt : Nat
  mark : Nat
  cls : List Nat := []
  boxes : List Nat := []
  decls : List Nat := []
  nodes : List Nat := []
  edges : List Nat := []
  reds : List Nat := []
  blobs : List (Nat × Nat × List Byte) := []
  relocs : List Nat := []
  streams : List Nat := []
  homes : List (List Nat) := []

/-- A load check that fails: its code and the index of the failing record (R288). -/
structure LoadFail where
  code : Nat
  record : Nat
deriving DecidableEq, Repr

/-- DETAIL of a failed load check. -/
def LoadFail.detail (f : LoadFail) : Nat := f.code * 2 ^ 24 + f.record % 2 ^ 24

/-- The status class of a load check (Table 9.14). -/
def LoadFail.status (f : LoadFail) : Status :=
  if f.code = 0x0A then .graphState else if f.code = 0x0B ∨ f.code = 0x0C ∨ f.code = 0x0D then .loadResource else .loadCheck

/-! ### Reading (R283) -/

/-- Bytes of a record of a section, 0 for the sections whose records vary. -/
def recordBytes : Nat → Nat
  | 1 => 64 | 2 => 8 | 3 => 8 | 4 => 48 | 5 => 8 | 6 => 128 | 8 => 16 | 9 => 16 | _ => 0

/-- `n` records of `w` bytes. -/
def readRecords (w : Nat) : Nat → List Byte → List Nat
  | 0, _ => []
  | n + 1, bs => leNat (bs.take w) :: readRecords w n (bs.drop w)

/-- `n` blobs: declaration, offset, bytes; none where one passes the package's end. -/
def readBlobs : Nat → List Byte → Option (List (Nat × Nat × List Byte))
  | 0, _ => some []
  | n + 1, bs =>
    let len := bytesAt bs 8 4
    if bs.length < 16 + len ∨ bytesAt bs 12 4 ≠ 0 then none
    else (readBlobs n (bs.drop (16 + ceilDiv len 8 * 8))).map ((bytesAt bs 0 4, bytesAt bs 4 4, (bs.drop 16).take len) :: ·)

/-- `n` home lists, each its count word and tile words. -/
def readHomes : Nat → List Byte → Option (List (List Nat))
  | 0, _ => some []
  | n + 1, bs =>
    let c := bytesAt bs 0 4
    if bs.length < 4 + 4 * c then none else (readHomes n (bs.drop (4 + 4 * c))).map ((c :: readRecords 4 c (bs.drop 4)) :: ·)

/-- One section read into the package. -/
def readSection (bs : List Byte) (p : Pkg) (i kind off cnt : Nat) : Except LoadFail Pkg :=
  let body := bs.drop off
  let bad : Except LoadFail Pkg := .error { code := 1, record := i }
  if recordBytes kind ≠ 0 ∧ bs.length < off + recordBytes kind * cnt then bad
  else
    let rs := readRecords (recordBytes kind) cnt body
    match kind with
    | 1 => .ok { p with cls := rs }
    | 2 => .ok { p with boxes := rs }
    | 3 => .ok { p with decls := rs }
    | 4 => .ok { p with nodes := rs }
    | 5 => .ok { p with edges := rs }
    | 6 => .ok { p with reds := rs }
    | 7 => match readBlobs cnt body with | some l => .ok { p with blobs := l } | none => bad
    | 8 => .ok { p with relocs := rs }
    | 9 => .ok { p with streams := rs }
    | 10 => match readHomes cnt body with | some l => .ok { p with homes := l } | none => bad
    | _ => bad

/-- The header and every section (check 0x01). -/
def readPackage (bs : List Byte) : Except LoadFail Pkg :=
  let n := bytesAt bs 24 4
  let kind (i : Nat) := bytesAt bs (64 + 16 * i) 4
  if bs.length < 64 ∨ bytesAt bs 0 4 ≠ 0x4B475250 ∨ bytesAt bs 4 2 ≠ 1 ∨ bytesAt bs 32 32 ≠ 0 ∨ 10 < n ∨ bs.length < 64 + 16 * n then .error { code := 1, record := 0 }
  else (List.range n).foldlM (fun p i =>
      if (List.range i).any (fun j => kind j == kind i) then .error { code := 1, record := i }
      else readSection bs p i (kind i) (bytesAt bs (68 + 16 * i) 8) (bytesAt bs (76 + 16 * i) 4))
    { v := bytesAt bs 6 1, flags := bytesAt bs 7 1, id := bytesAt bs 8 8, sample := bytesAt bs 16 2, cap := bytesAt bs 18 2, adapt := bytesAt bs 20 4, mark := bytesAt bs 28 4 }

/-! ### Fields -/

/-- A record of a list, 0 past its end. -/
def rec' (l : List Nat) (i : Nat) : Nat := l.getD i 0

/-- Tile-class fields (Table 9.18): first record and count of boxes, declarations, reductions, blobs. -/
def cBoxes (c : Nat) : Nat × Nat := (fld c 511 480, fld c 479 464)
/-- Declarations of a class. -/
def cDecls (c : Nat) : Nat × Nat := (fld c 463 432, fld c 431 424)
/-- Reductions of a class. -/
def cReds (c : Nat) : Nat × Nat := (fld c 423 392, fld c 391 376)
/-- Blobs of a class. -/
def cBlobs (c : Nat) : Nat × Nat := (fld c 375 344, fld c 343 328)
/-- Pool slots of a class. -/
def cPool (c : Nat) : Nat := fld c 327 317

/-- Locator of a node record: class, first box, boxes, first edge, edges, CODE_DECL. -/
def nCls (n : Nat) : Nat := fld n 263 256
/-- Boxes of a node. -/
def nBoxes (n : Nat) : Nat × Nat := (fld n 275 264, fld n 277 276 + 1)
/-- Edges of a node. -/
def nEdges (n : Nat) : Nat × Nat := (fld n 293 278, fld n 299 294)
/-- CODE_DECL of a node. -/
def nCode (n : Nat) : Nat := fld n 305 300
/-- Claims of a node record: declaration, exclusive. -/
def nClaims (n : Nat) : List (Nat × Bool) :=
  (List.range (min 8 (fld n 85 82))).map (fun k => (fld n (86 + 7 * k + 5) (86 + 7 * k), bitAt n (86 + 7 * k + 6)))

/-- Records [a, a + n) of a list. -/
def slice {α : Type} (l : List α) (x : Nat × Nat) : List α := (l.drop x.1).take x.2
/-- Does a range of records lie in a section? -/
def inSection {α : Type} (l : List α) (x : Nat × Nat) : Bool := decide (x.1 + x.2 ≤ l.length)

/-- Declaration k of class c. -/
def Pkg.decl (p : Pkg) (c k : Nat) : Nat := rec' p.decls ((cDecls c).1 + k)
/-- Bytes of a declaration's region. -/
def declBytes (d : Nat) : Nat := (fld d 63 55 + 1) * 4096

/-- The first record that fails, under a check's code. -/
def failing {α : Type} (code : Nat) (l : List α) (f : α → Bool) : Option LoadFail :=
  (l.zipIdx.find? (fun x => f x.1)).map (fun x => { code := code, record := x.2 })

/-! ### Spreads (R266) -/

/-- Is value v one of first + k * stride for k to last? -/
def onStride (v first last stride : Nat) : Bool :=
  decide (first ≤ v) && (if stride = 0 then v == first else (v - first) % stride == 0 && decide ((v - first) / stride ≤ last))

/-- Does a box name tile k = vfield * 696 + v of the grid? -/
def boxHas (b k : Nat) : Bool :=
  let vf := k / 696
  let v := k % 696
  decide (fld b 63 57 ≤ vf) && decide (vf ≤ fld b 63 57 + fld b 56 50) && onStride (v % 24) (fld b 49 45) (fld b 44 40) (fld b 39 35) &&
    onStride (v / 24) (fld b 34 30) (fld b 29 25) (fld b 24 20)

/-- Tiles of a union of boxes as virtual tile words, in order of (vfield, vy, vx). -/
def spreadOf (v : Nat) (bs : List Nat) : List Nat :=
  ((List.range (v * 696)).filter (fun k => bs.any (fun b => boxHas b k))).map (fun k => vword (k / 696) (k % 696 % 24) (k % 696 / 24))

/-- Is a virtual tile word in a grid of class v? -/
def wordIn (v w : Nat) : Bool := decide (w / 65536 < v) && decide (fld w 15 8 < 24) && decide (fld w 7 0 < 29)

/-! ### The graph of a package -/

/-- A declaration (Table 9.10). -/
def declOf (d : Nat) : Decl := { size := fld d 63 55 + 1, wclass := bitAt d 54, kind := fld d 53 52, retain := bitAt d 51, role := fld d 50 48 }

/-- A node. -/
def nodeOf (p : Pkg) (n : Nat) : Node :=
  { cls := nCls n, spread := spreadOf p.v (slice p.boxes (nBoxes n)), thm1 := fld n 216 211, vctx := fld n 210 206, banks := fld n 205 202, pred := fld n 201 194,
    gang := fld n 181 174, redFirst := fld n 173 166, redCnt := fld n 165 158, claims := nClaims n, entry := fld n 237 217, codeDecl := nCode n,
    edges := (slice p.edges (nEdges n)).map (fun x => (fld x 63 62, fld x 61 50, fld x 39 16)), arg := BitVec.ofNat 64 (fld n 63 0) }

/-- A stream (Table 9.13). -/
def streamOf (s : Nat) : Stream :=
  { layer := fld s 127 112, group := fld s 111 104, isValue := bitAt s 103, part := fld s 102 101, cm1 := fld s 100 97, fmt := fld s 96 95, nseg := fld s 94 93,
    seg := fld s 92 61, home := fld s 60 49 }

/-- A relocation (Table 9.11). -/
def relocOf (r : Nat) : Reloc :=
  { kind := fld r 127 120, tclass := fld r 119 112, lreg := fld r 111 104, offset := fld r 103 72, field := fld r 71 64, width := fld r 63 56, arg := fld r 55 0 }

/-- The graph a package describes, before it is placed. -/
def pkgGraph (p : Pkg) (img part : Nat) : Graph :=
  { state := .loading, image := img, part := part, gridClass := p.v, train := bitAt p.flags 0, sample := p.sample, cap := p.cap, adapt := p.adapt,
    classes := p.cls.map (fun c => {
      tiles := spreadOf p.v (slice p.boxes (cBoxes c)), decls := (slice p.decls (cDecls c)).map declOf, reds := (slice p.reds (cReds c)).map (natBytes · 128),
      blobs := slice p.blobs (cBlobs c), pool := cPool c }),
    nodes := p.nodes.map (nodeOf p), relocs := p.relocs.map relocOf, streams := p.streams.map streamOf, homes := p.homes.map (·.drop 1) }

/-! ### Checks 0x01 to 0x03 -/

/-- Check 0x01 of a class record and its blobs. -/
def Pkg.badClass (p : Pkg) (c : Nat) : Bool :=
  !(inSection p.boxes (cBoxes c) && inSection p.decls (cDecls c) && inSection p.reds (cReds c) && inSection p.blobs (cBlobs c)) ||
  (slice p.blobs (cBlobs c)).any (fun b => decide ((cDecls c).2 ≤ b.1) || b.2.1 % 8 != 0 || b.2.2.length % 8 != 0 ||
    decide (declBytes (p.decl c b.1) < b.2.1 + b.2.2.length))

/-- Does a range of records lie in another? -/
def within (a b : Nat × Nat) : Bool := decide (a.1 ≤ b.1) && decide (b.1 + b.2 ≤ a.1 + a.2)

/-- Check 0x01 of a node record. -/
def Pkg.badNode (p : Pkg) (n : Nat) : Bool :=
  let c := rec' p.cls (nCls n)
  decide (p.cls.length ≤ nCls n) || !inSection p.boxes (nBoxes n) || !within (cBoxes c) (nBoxes n) || !inSection p.edges (nEdges n) || decide ((cDecls c).2 ≤ nCode n) || fld (p.decl c (nCode n)) 53 52 != 1 ||
    decide (declBytes (p.decl c (nCode n)) ≤ fld n 237 217) || (nClaims n).any (fun x => decide ((cDecls c).2 ≤ x.1)) ||
    (fld n 165 158 != 0 && decide ((cReds c).2 < fld n 173 166 + fld n 165 158))

/-- Check 0x01 of a relocation record. -/
def Pkg.badReloc (p : Pkg) (r : Nat) : Bool :=
  let c := rec' p.cls (fld r 119 112)
  let n := if fld r 127 120 = 5 then 16 else 8
  decide (p.cls.length ≤ fld r 119 112) || decide ((cDecls c).2 ≤ fld r 111 104) || decide (declBytes (p.decl c (fld r 111 104)) < fld r 103 72 + n) ||
    (fld r 127 120 == 1 && decide ((cDecls c).2 ≤ fld r 5 0))

/-- Check 0x01 of every record. -/
def Pkg.check1 (p : Pkg) : Option LoadFail :=
  (failing 1 p.cls p.badClass).orElse fun _ => (failing 1 p.nodes p.badNode).orElse fun _ =>
  (if p.nodes ≠ [] ∧ p.nodes.length ≤ p.sample then some { code := 1, record := 0 } else none).orElse fun _ =>
  (failing 1 p.edges (fun x => decide (p.nodes.length ≤ fld x 61 50))).orElse fun _ => (failing 1 p.relocs p.badReloc).orElse fun _ =>
  failing 1 p.streams (fun s => decide (p.homes.length ≤ fld s 60 49))

/-- A reserved reduction descriptor (R218). -/
def badRed (r : Nat) : Bool :=
  fld r 2 0 != 0 || fld r 58 56 == 0 || decide (6 < fld r 61 59 + fld r 58 56) || decide (127 < fld r 53 47 + fld r 46 40) ||
    (if bitAt r 62 then (List.range 30).any (fun k => fld r (64 + 32 * k + 31) (64 + 32 * k + 24) != 0) else r / 2 ^ 64 != 0)

/-- Check 0x02: reserved encodings (R15). -/
def Pkg.check2 (p : Pkg) : Option LoadFail :=
  (if 1 < p.flags ∨ p.cap = 0 ∨ 4096 < p.cap then some { code := 2, record := 0 } else none).orElse fun _ =>
  (failing 2 p.cls (fun c => fld c 316 0 != 0 || decide (1024 < cPool c) || (cBoxes c).2 == 0 || decide (4096 < (cBoxes c).2) || (cDecls c).2 == 0 || decide (64 < (cDecls c).2) ||
    decide (256 < (cReds c).2))).orElse fun _ =>
  (failing 2 p.boxes (fun b => fld b 19 0 != 0 || (fld b 39 35 == 0 && fld b 44 40 != 0) || (fld b 24 20 == 0 && fld b 29 25 != 0) || decide (23 < fld b 39 35) ||
    decide (28 < fld b 24 20))).orElse fun _ =>
  (failing 2 p.decls (fun d => fld d 47 0 != 0 || fld d 53 52 == 3 || decide (4 < fld d 50 48) || decide (479 < fld d 63 55) || (fld d 53 52 != 0 && !bitAt d 54) ||
    (bitAt d 51 && !bitAt d 54) || (fld d 53 52 == 2 && (fld d 63 55 + 1) % 4 != 0))).orElse fun _ =>
  (failing 2 p.nodes (fun n => fld n 81 64 != 0 || fld n 193 182 != 0 || fld n 157 142 != 0 || decide (16 < fld n 210 206) || decide (8 < fld n 85 82) ||
    fld n 383 306 != 0 || fld n 237 217 % 8 != 0)).orElse fun _ =>
  (failing 2 p.edges (fun x => fld x 63 62 == 3 || fld x 49 40 != 0 || fld x 15 0 != 0)).orElse fun _ =>
  (failing 2 p.reds badRed).orElse fun _ =>
  (failing 2 p.relocs (fun r => fld r 127 120 == 0 || decide (6 < fld r 127 120) || fld r 63 56 == 0 || decide (64 < fld r 63 56) || decide (64 < fld r 71 64 + fld r 63 56) ||
    fld r 103 72 % 8 != 0)).orElse fun _ =>
  (failing 2 p.streams (fun s => fld s 48 0 != 0 || fld s 102 101 == 3 || decide (1 < fld s 96 95) || decide ((if fld s 96 95 = 0 then 11 else 5) < fld s 100 97))).orElse fun _ =>
  failing 2 p.homes (fun l => l.headD 0 == 0 || decide (256 < l.headD 0) || (l.drop 1).any (fun w => decide (2 ^ 24 ≤ w)))

/-! ### Checks 0x04 to 0x09, over the graph -/

/-- Owners a descriptor names: its list, or the first vfield of its grid (R218, R219). -/
def redOwners (r : Nat) : List Nat :=
  if bitAt r 62 then (List.range 30).map (fun k => fld r (64 + 32 * k + 23) (64 + 32 * k))
  else (List.range (fld r 17 13 + 1)).flatMap (fun j => (List.range (fld r 22 18 + 1)).map (fun i => vword (fld r 39 33) (fld r 32 28 + i * fld r 12 8) (fld r 27 23 + j * fld r 7 3)))

/-- Check 0x04: the image, and every tile in the grid. -/
def Pkg.check4 (p : Pkg) (g : Graph) (im : Image) : Option LoadFail :=
  (if p.v = 0 ∨ 96 < p.v ∨ p.id ≠ im.id.toNat ∨ p.v ≠ (setBits im.footprint 96).length then some { code := 4, record := 0 } else none).orElse fun _ =>
  (failing 4 p.boxes (fun b => decide (p.v ≤ fld b 63 57 + fld b 56 50) || decide (23 < fld b 49 45 + fld b 44 40 * fld b 39 35) ||
    decide (28 < fld b 34 30 + fld b 29 25 * fld b 24 20))).orElse fun _ =>
  (failing 4 g.nodes (fun n => let ts := (g.classes.getD n.cls {}).tiles; n.spread.any (fun w => !ts.contains w))).orElse fun _ =>
  (failing 4 p.edges (fun x => fld x 63 62 == 2 && !wordIn p.v (fld x 39 16))).orElse fun _ =>
  (failing 4 p.reds (fun r => (redOwners r).any (fun w => !wordIn p.v w))).orElse fun _ =>
  failing 4 p.homes (fun l => (l.drop 1).any (fun w => !wordIn p.v w))

/-- Nodes left after removing, `fuel` times, those to which no node left has an edge. -/
def unordered (g : Graph) : Nat → List Nat → List Nat
  | 0, l => l
  | n + 1, l => unordered g n (l.filter (fun t => l.any (fun s => (g.nodes.getD s {}).edges.any (fun x => x.2.1 == t))))

/-- Check 0x05: the edges form no cycle. -/
def Graph.check5 (g : Graph) : Option LoadFail :=
  match unordered g g.nodes.length (List.range g.nodes.length) with
  | [] => none
  | t :: _ => some { code := 5, record := t }

/-- Signals that reach tile w of node t in a step (R269). -/
def Graph.signals (g : Graph) (t w : Nat) : Nat :=
  g.nodes.foldl (fun n s => s.edges.foldl (fun n x =>
    if x.2.1 ≠ t then n
    else match x.1 with
      | 0 => if s.spread.contains w then n + 1 else n
      | 1 => n + 1
      | _ => if x.2.2 = w then n + s.spread.length else n) n) 0

/-- Check 0x06: every tile of every spread receives exactly PRED signals, and no signal goes elsewhere. -/
def Graph.check6 (g : Graph) : Option LoadFail :=
  (g.nodes.zipIdx.find? (fun x => x.1.spread.any (fun w => g.signals x.2 w != x.1.pred) ||
    g.nodes.any (fun s => s.edges.any (fun y => y.1 == 2 && y.2.1 == x.2 && !x.1.spread.contains y.2.2)))).map (fun x => { code := 6, record := x.2 })

/-- Nodes that a path of at most `fuel` edges reaches from those of a list. -/
def Graph.reach (g : Graph) : Nat → List Nat → List Nat
  | 0, l => l
  | n + 1, l => g.reach n (((l.flatMap (fun i => (g.nodes.getD i {}).edges.map (·.2.1))) ++ l).eraseDups)

/-- Does the combined claim of these nodes fit one tile (R267, R268)? -/
def Graph.fits (g : Graph) (ns : List Node) : Bool :=
  let held := ns.flatMap (fun n => n.claims.map (fun c => (n.cls, c.1, c.2)))
  let regions := (held.map (fun x => (x.1, x.2.1))).eraseDups
  decide (ns.foldl (fun m n => m + n.thm1 + 1) 0 ≤ 64) && decide (ns.foldl (fun m n => m + n.vctx) 0 ≤ 16) &&
    (List.range 4).all (fun b => decide ((ns.filter (fun n => n.banks.testBit b)).length ≤ 1)) &&
    decide (regions.foldl (fun m x => m + (((g.classes.getD x.1 {}).decls.getD x.2 {}).size)) 0 ≤ 480) &&
    regions.all (fun r => let h := ns.filter (fun n => n.cls == r.1 && n.claims.any (fun c => c.1 == r.2)); decide (h.length ≤ 1) ||
      h.all (fun n => n.claims.all (fun c => c.1 != r.2 || !c.2)))

/-- Check 0x07. -/
def Graph.check7 (g : Graph) : Option LoadFail :=
  let ns := g.nodes.zipIdx
  (ns.find? (fun x =>
    let gang := ns.filter (fun y => x.1.gang != 0 && y.1.gang == x.1.gang)
    let next := x.1.edges.map (·.2.1)
    !g.fits [x.1] || gang.any (fun y => (g.reach g.nodes.length next).contains y.2) ||
      x.1.spread.any (fun w => !g.fits ((gang.filter (fun y => y.1.spread.contains w)).map (·.1) ++ (if x.1.gang = 0 then [x.1] else []))))).map
    (fun x => { code := 7, record := x.2 })

/-- Check 0x08: streams of one layer and group share their home list and number at most 3 of each kind (R287). -/
def Graph.check8 (g : Graph) : Option LoadFail :=
  if 4000 < g.streams.length then some { code := 8, record := 4000 }
  else failing 8 g.streams (fun s =>
    let u := g.streams.filter (fun x => unitKey x == unitKey s)
    u.any (fun x => x.home != s.home) || decide (3 < (u.filter (·.isValue)).length) || decide (3 < (u.filter (fun x => !x.isValue)).length))

/-- Check 0x09: A is even and the area is within 64 GB (R292, Table 9.1). -/
def Graph.check9 (g : Graph) : Option LoadFail :=
  if g.adapt % 2 ≠ 0 ∨ 64000000000 < g.adapt * 16384 * g.gridClass * 696 then some { code := 9, record := 0 } else none

/-- Check 0x0A: the image can be bound, has no graph, and its footprint is the partition's field set, which may still be empty
(R316 binds a field set only to an image with a loaded graph; log entry 31). -/
def Engine.check10 (e : Engine) (g : Graph) : Option LoadFail :=
  let im := e.image g.image
  let fs := (e.part g.part).fields
  if (im.state == .ready || im.state == .degraded) && e.graphs.all (fun x => x.2.state == .free || x.2.image != g.image) && (fs == 0 || fs == im.footprint) then none
  else some { code := 0x0A, record := 0 }

/-- Checks 0x01 to 0x0A in order; the graph where they pass. -/
def Engine.checkPackage (e : Engine) (bs : List Byte) (img part : Nat) : Except LoadFail Graph := do
  let p ← readPackage bs
  let stop (o : Option LoadFail) : Except LoadFail Unit := match o with | some f => .error f | none => .ok ()
  stop p.check1
  stop p.check2
  stop (if p.mark = 0x4B4C0001 then none else some { code := 3, record := 0 })
  let g := pkgGraph p img part
  stop (p.check4 g (e.image img))
  stop g.check5
  stop g.check6
  stop g.check7
  stop g.check8
  stop g.check9
  stop (e.check10 g)
  pure g

end Sys2Proof.Machine
end

