-- ==== Sys2Proof/Machine/Graphs.lean ====
section
/-!
DEFINITION. Placing, relocating and patching graphs (R162, R199, R284 to R286, R288 to R290), and the graph commands (group
0x04xx: R288, R289, R292, R293).
-/
namespace Sys2Proof.Machine

/-! ### Placement (R284) -/

/-- Mapped sites of a field set in order of (vfield, vy, vx). -/
def Engine.setTiles (e : Engine) (fields : Nat) : List Loc :=
  (setBits fields 96).flatMap (fun f => (List.range 696).filterMap (fun v => ((e.field f).siteOf v).map (fun s => { field := f, site := s })))

/-- What stands on a tile: (index, first granule, granules, staging window) of every region entry, and of the placements whose entries
are still to be written. -/
def Engine.regionsOn (e : Engine) (t : Loc) : List (Nat × Nat × Nat × Bool) :=
  let ti := e.tile t
  (ti.region.filter (fun x => regValid x.2)).map (fun x => (x.1, regBase x.2, regSize x.2, regKind x.2 == 2)) ++
  e.graphs.flatMap (fun g => (g.2.placed.filter (fun x => x.1 == locKey t)).flatMap (fun x =>
    (x.2.regions.filter (fun r => !regValid (ti.reg r.2.2.1))).map (fun r =>
      let d := (g.2.classes.getD r.1 {}).decls.getD r.2.1 {}
      (r.2.2.1, r.2.2.2 / 4096, d.size, d.kind == 2))))

/-- Placements of every graph on a tile. -/
def Engine.placementsOn (e : Engine) (t : Loc) : List Placement :=
  e.graphs.flatMap (fun g => (g.2.placed.filter (fun x => x.1 == locKey t)).map (·.2))

/-- A position below `total` at which `n` consecutive places are free. -/
def lowestRun (used : Nat → Bool) (total n : Nat) : Option Nat :=
  if n = 0 then some 0 else (List.range (total + 1 - n)).find? (fun a => (List.range n).all (fun i => !used (a + i)))

/-- One declaration of class c placed beside what is there (R162): the lowest region index and the lowest address. -/
def placeDecl (c : Nat) (used : List (Nat × Nat × Nat × Bool)) (k : Nat) (d : Decl) : Option ((Nat × Nat × Nat × Bool) × (Nat × Nat × Nat × Nat)) := do
  let i ← (List.range 64).find? (fun i => used.all (fun x => x.1 != i))
  let b ← (List.range (481 - d.size)).find? (fun b => (d.kind != 2 || b % 4 == 0) && used.all (fun x => decide (b + d.size ≤ x.2.1) || decide (x.2.1 + x.2.2.1 ≤ b)))
  if d.kind = 2 ∧ 8 ≤ (used.filter (fun x => x.2.2.2)).length then none
  else pure ((i, b, d.size, d.kind == 2), (c, k, i, b * 4096))

/-- The declarations of a class in order. -/
def placeDecls (c : Nat) : List (Nat × Decl) → List (Nat × Nat × Nat × Bool) → Option (List (Nat × Nat × Nat × Bool) × List (Nat × Nat × Nat × Nat))
  | [], used => some (used, [])
  | (k, d) :: r, used => do
    let (u, x) ← placeDecl c used k d
    let (used, xs) ← placeDecls c r (used ++ [u])
    pure (used, x :: xs)

/-- A class of a graph placed on a tile that virtual tile word `w` names, after the classes before it. -/
def Engine.placeClass (e : Engine) (t : Loc) (w : Nat) (g : Graph) (pl : Placement) (c : Nat) : Option Placement := do
  let cl := g.classes.getD c {}
  let others := e.placementsOn t ++ [pl]
  let used := e.regionsOn t ++ pl.regions.map (fun r => let d := (g.classes.getD r.1 {}).decls.getD r.2.1 {}; (r.2.2.1, r.2.2.2 / 4096, d.size, d.kind == 2))
  let (_, rs) ← placeDecls c (cl.decls.zipIdx.map (fun x => (x.2, x.1))) used
  let red ← lowestRun (fun i => others.any (fun q => q.reds.any (fun x => decide (x.2.1 ≤ i) && decide (i < x.2.1 + x.2.2)))) 256 cl.reds.length
  let here := (g.nodes.zipIdx.filter (fun x => x.1.cls == c && x.1.spread.contains w)).map (fun x => (x.2, x.1))
  let tasks := (List.range 768).filter (fun i => others.all (fun q => q.nodes.all (fun x => x.2 != i)))
  if tasks.length < here.length then none
  else
    let es ← here.foldlM (fun (l : List (Nat × Nat × Nat)) x => do
      let n := x.2.edges.length
      let a ← lowestRun (fun i => (others.flatMap (·.edges) ++ l).any (fun y => decide (y.2.1 ≤ i) && decide (i < y.2.1 + y.2.2))) 1024 n
      pure (l ++ [(x.1, a, n)])) []
    pure { pl with
      regions := pl.regions ++ rs, nodes := pl.nodes ++ (here.map (·.1)).zip tasks, edges := pl.edges ++ es, reds := pl.reds ++ [(c, red, cl.reds.length)] }

/-- The classes of a graph that hold a virtual tile. -/
def Graph.classesOf (g : Graph) (w : Nat) : List Nat := (g.classes.zipIdx.filter (fun x => x.1.tiles.contains w)).map (·.2)

/-- Check 0x0C: every class of a virtual tile placed, class by class. -/
def Engine.placeTile (e : Engine) (t : Loc) (w : Nat) (g : Graph) : Except LoadFail Placement :=
  (g.classesOf w).foldlM (fun pl c => match e.placeClass t w g pl c with | some pl => .ok pl | none => .error { code := 0x0C, record := c }) {}

/-- Slots of a run set to a use. -/
def Tile.setUses (ti : Tile) (a n : Nat) (u : SlotUse) : Tile := (List.range n).foldl (fun ti i => ti.setUse (a + i) u) ti

/-- Check 0x0D: the lowest free runs for the slot pools of a tile's classes, leaving 512 slots (R201, R284). -/
def Tile.placePool (ti : Tile) (h : Nat) (g : Graph) (cs : List Nat) : Option (Tile × List (Nat × Nat × Nat)) :=
  cs.foldlM (fun (x : Tile × List (Nat × Nat × Nat)) c => do
    let n := (g.classes.getD c {}).pool
    let a ← lowestRun (fun k => x.1.useOf k != .free) kvSlots n
    let ti := x.1.setUses a n (.pool h)
    if ti.openSlots < 512 then none else pure (ti, x.2 ++ [(c, a, n)])) (ti, [])

/-- Check 0x0D: the adapter area of a partition on a tile, zero-filled at its allocation and shared by its graphs (R292, R293; log entry
32). -/
def Tile.placeAdapt (ti : Tile) (p a : Nat) : Option (Tile × Nat) :=
  match (ti.slotUse.filter (fun x => x.2 == .adapter p)).map (·.1) with
  | k :: r => if a ≤ r.length + 1 then some (ti, k) else none
  | [] => do
    let k ← lowestRun (fun k => ti.useOf k != .free) kvSlots a
    let ti := ((List.range a).foldl (fun ti i => ti.zeroSlot (k + i)) ti).setUses k a (.adapter p)
    if ti.openSlots < 512 then none else pure (ti, k)

/-! ### Relocation (R199, R285, R286) -/

/-- Where declaration k of class c stands. -/
def Placement.baseOf (pl : Placement) (c k : Nat) : Nat := match pl.regions.find? (fun r => r.1 == c && r.2.1 == k) with | some r => r.2.2.2 | none => 0
/-- Region index of declaration k of class c. -/
def Placement.indexOf (pl : Placement) (c k : Nat) : Nat := match pl.regions.find? (fun r => r.1 == c && r.2.1 == k) with | some r => r.2.2.1 | none => 0
/-- Descriptor index of reduction k of class c. -/
def Placement.redOf (pl : Placement) (c k : Nat) : Option Nat := match pl.reds.find? (fun r => r.1 == c) with | some r => if k < r.2.2 then some (r.2.1 + k) else none | none => none
/-- First pool slot of class c. -/
def Placement.poolOf (pl : Placement) (c : Nat) : Nat := match pl.pool.find? (fun r => r.1 == c) with | some r => r.2.1 | none => 0

/-- The slice of a virtual tile, by index (R178). -/
def Image.sliceAt (im : Image) (w : Nat) : Option (Nat × Slice) := (im.slices.zipIdx.find? (fun x => x.1.vtile == w)).map (fun x => (x.2, x.1))

/-- A part of a weight fetch: KIND, PAGES, SOURCE, unpacked bytes. -/
structure FetchPart where
  kind : Nat
  pages : Nat
  source : Nat
  bytes : Nat

/-- NV pages merged while they are consecutive in one extent. -/
def mergeNv : List (Nat × Nat × Nat) → List FetchPart
  | [] => []
  | (x, p, n) :: r =>
    match mergeNv r, r with
    | f :: fs, (y, _, _) :: _ => if x = y then { f with pages := f.pages + 1, source := p, bytes := f.bytes + n } :: fs else { kind := 0, pages := 1, source := p, bytes := n } :: f :: fs
    | fs, _ => { kind := 0, pages := 1, source := p, bytes := n } :: fs

/-- Byte range [a, b) of tier data cut at slots of 16 KiB, with lengths in whole 64 bytes (log entry 33). -/
def tierParts (kind a b : Nat) (slotOf : Nat → Nat) : List FetchPart :=
  if b ≤ a then []
  else ((List.range (ceilDiv b 16384)).filter (fun k => decide (a / 16384 ≤ k))).map (fun k =>
    { kind := kind, pages := 1, source := slotOf k, bytes := ceilDiv (min b (16384 * (k + 1)) - max a (16384 * k)) 64 * 64 })

/-- Sum of the first n of a list. -/
def sumTake (l : List Nat) (n : Nat) : Nat := (l.take n).foldl (· + ·) 0

/-- Extent and slab page of position i of an image slot's pages on a tile. -/
def extentAt : List (Nat × Nat) → Nat → Nat → Option (Nat × Nat)
  | [], _, _ => none
  | (f, n) :: r, x, i => if i < n then some (x, f + i) else extentAt r (x + 1) (i - n)

/-- The parts of a fetch of slice pages [a, a + n) on a tile (R199), or none where a page is not in the slice. -/
def Engine.fetchParts (e : Engine) (t : Loc) (img w a n : Nat) : Option (List FetchPart) :=
  let im := e.image img
  match im.sliceAt w with
  | none => none
  | some (k, s) =>
    if s.dataPages < a + n then none
    else
      let ext := e.readExtents t img im.slot
      let ps := (List.range n).map (· + a)
      match (ps.filter (fun i => decide (i < s.resident))).mapM (fun i => (extentAt ext 0 i).map (fun x => (x.1, x.2, (unpackPage (e.slicePage img k s i)).length))) with
      | none => none
      | some nv =>
        let lens := mget (fun _ => []) k im.tierLens
        let range (lo hi : Nat) : Nat × Nat := (sumTake (lens.drop (lo - s.resident)) (max a lo - lo), sumTake (lens.drop (lo - s.resident)) (min (a + n) hi - lo))
        let ov := range s.resident (s.resident + s.ovf)
        let sp := range (s.resident + s.ovf) s.dataPages
        let slots := ((e.tile t).slotUse.filter (fun x => x.2 == .overflow im.slot)).map (·.1)
        some (mergeNv nv ++ tierParts 1 ov.1 ov.2 (fun k => slots.getD k 0) ++ tierParts 2 sp.1 sp.2 id)

/-- The words of the parts: WIN kept, DEST of the first kept, later ones after the data before, rounded up (R199). -/
def fetchWords (win : Nat) : Nat → List FetchPart → List Nat
  | _, [] => []
  | dest, f :: r =>
    let next := match r with
      | [] => 0
      | g :: _ => let al := if g.kind = 0 then 16384 else 64; ceilDiv (dest + f.bytes) al * al
    pack [(4, f.kind), (3, win), (8, f.pages - 1), (17, 0), (32, f.source), (32, dest), (32, f.bytes)] :: fetchWords win next r

/-- KIND 0xF words that follow a descriptor inside its region. -/
def spareWords (m : Memory) (a last : Nat) : Nat → Nat
  | 0 => 0
  | n + 1 => if a + 32 ≤ last ∧ readNat m (a + 16) 16 / 2 ^ 124 = 15 then spareWords m (a + 16) last n + 1 else 0

/-- Rewrite of the weight-fetch descriptor at byte a of a region that ends at `last`. -/
def Engine.rewriteFetch (e : Engine) (t : Loc) (img w : Nat) (m : Memory) (a last : Nat) : Option Memory :=
  let d := readNat m a 16
  if fld d 127 124 ≠ 0 ∨ fld d 112 96 ≠ 0 then none
  else match e.fetchParts t img w (fld d 95 64) (fld d 120 113 + 1) with
    | none => none
    | some ps =>
      let ws := fetchWords (fld d 123 121) (fld d 63 32) ps
      if spareWords m a last ws.length + 1 < ws.length then none
      else some (ws.zipIdx.foldl (fun m x => writeNat m (a + 16 * x.2) x.1 16) m)

/-- One relocation applied on a tile to the bytes loaded there, or none where its value does not fit (R285, R286). -/
def Engine.relocate (e : Engine) (t : Loc) (w : Nat) (g : Graph) (pl : Placement) (m : Memory) (r : Reloc) : Option Memory :=
  let base := pl.baseOf r.tclass r.lreg
  let a := base + r.offset
  let v := readNat m a 8
  let old := fld v (r.field + r.width - 1) r.field
  let put (x : Nat) : Option Memory := if x < 2 ^ r.width then some (writeNat m a (setFld v (r.field + r.width - 1) r.field x) 8) else none
  match r.kind with
  | 1 => put (old + pl.baseOf r.tclass (r.arg % 64))
  | 2 => (pl.redOf r.tclass (r.arg % 256)).bind put
  | 3 => put (old + pl.poolOf r.tclass)
  | 4 => put (old + pl.adapt)
  | 5 => e.rewriteFetch t g.image w m a (base + ((g.classes.getD r.tclass {}).decls.getD r.lreg {}).size * 4096)
  | _ => put (e.image g.image).slot

/-- The bytes a graph loads on a tile: its classes' blobs, relocated, and then every weight-fetch descriptor rewritten (R285); check 0x0E
where one fails. -/
def Engine.loadBytes (e : Engine) (t : Loc) (w : Nat) (g : Graph) (pl : Placement) : Except LoadFail Memory :=
  let cs := g.classesOf w
  let m := cs.foldl (fun m c => (g.classes.getD c {}).blobs.foldl (fun m b => writeBytes m (pl.baseOf c b.1 + b.2.1) b.2.2) m) []
  let rs := g.relocs.zipIdx.filter (fun x => cs.contains x.1.tclass)
  ((rs.filter (fun x => x.1.kind != 5)) ++ rs.filter (fun x => x.1.kind == 5)).foldlM (fun m x =>
    match e.relocate t w g pl m x.1 with | some m => .ok m | none => .error { code := 0x0E, record := x.2 }) m

/-! ### Writing a tile (R284, R290) -/

/-- SP_REGION of a declaration. -/
def declWord (d : Decl) (base part slot : Nat) : Word := regWord (base / 4096) d.size d.wclass d.kind d.retain part slot

/-- A node's entry on a tile (Table 9.3). -/
def nodeWord (h : Nat) (g : Graph) (pl : Placement) (i : Nat) (n : Node) : Nat :=
  let (ef, ec) := match pl.edges.find? (fun x => x.1 == i) with | some x => x.2 | none => (0, 0)
  let claims := n.claims.zipIdx.foldl (fun v x => v + (pl.indexOf n.cls x.1.1 + 64 * bnat x.1.2) * 2 ^ (7 * x.2)) 0
  let _ := g
  pack [(12, i), (6, h), (21, pl.baseOf n.cls n.codeDecl + n.entry), (6, n.thm1), (5, n.vctx), (4, n.banks), (8, n.pred), (8, 0), (4, 0), (8, n.gang),
    (8, if n.redCnt = 0 then 0 else (pl.redOf n.cls n.redFirst).getD 0), (8, n.redCnt), (10, ef), (6, ec), (56, claims), (4, n.claims.length), (18, 0), (64, n.arg.toNat)]

/-- An edge's word on a tile (Table 9.4). -/
def edgeWord (pl : Placement) (x : Nat × Nat × Nat) : Nat :=
  let idx := if x.1 = 0 then (match pl.nodes.find? (fun y => y.1 == x.2.1) with | some y => y.2 | none => 0) else 0
  pack [(2, x.1), (12, x.2.1), (10, idx), (24, if x.1 = 2 then x.2.2 else 0), (16, 0)]

/-- A graph's entries written on a tile: regions, descriptors, node entries and edge words. -/
def Tile.enter (ti : Tile) (h : Nat) (g : Graph) (pl : Placement) (slot : Nat) : Tile :=
  let ti := pl.regions.foldl (fun ti r => ti.setRegion r.2.2.1 (declWord ((g.classes.getD r.1 {}).decls.getD r.2.1 {}) r.2.2.2 g.part slot)) ti
  let ti := pl.reds.foldl (fun ti r => (g.classes.getD r.1 {}).reds.zipIdx.foldl (fun ti x => ti.store (0x1E0000 + 128 * (r.2.1 + x.2)) x.1) ti) ti
  let ti := pl.nodes.foldl (fun ti x => ti.store (0x1E8000 + 32 * x.2) (natBytes (nodeWord h g pl x.1 (g.nodes.getD x.1 {})) 32)) ti
  pl.edges.foldl (fun ti x => (g.nodes.getD x.1 {}).edges.zipIdx.foldl (fun ti y => ti.store (0x1EE000 + 8 * (x.2.1 + y.2)) (natBytes (edgeWord pl y.1) 8)) ti) ti

/-- The bytes a graph loads, on a tile. -/
def Tile.fill (ti : Tile) (m : Memory) : Tile := { ti with sp := m.foldl (fun s x => writeByte s x.1 x.2) ti.sp }

/-- A graph written on a tile. -/
def Tile.install (ti : Tile) (h : Nat) (g : Graph) (pl : Placement) (m : Memory) (slot : Nat) : Tile := (ti.enter h g pl slot).fill m

/-- The virtual tile word of a site in a field set. -/
def Engine.wordInSet (e : Engine) (fields : Nat) (t : Loc) : Option Nat :=
  match (setBits fields 96).idxOf? t.field, (e.field t.field).vOf t.site with
  | some k, some v => some (vword k (v % 24) (v / 24))
  | _, _ => none

/-- A graph installed on one of its tiles, as virtual tile w. -/
def Engine.installOn (e : Engine) (h : Nat) (t : Loc) (w : Nat) (pl : Placement) : Engine :=
  let g := e.graph h
  match e.loadBytes t w g pl with
  | .ok m => e.modTile t (fun ti => ti.install h g pl m (e.image g.image).slot)
  | .error _ => e

/-- The weight-fetch descriptors of an image's graph on a tile rewritten for new extents (R194, R199). -/
def Engine.refetch (e : Engine) (img : Nat) (t : Loc) : Engine :=
  e.graphs.foldl (fun e x =>
    if x.2.image ≠ img ∨ x.2.state = .free then e
    else match x.2.placed.find? (fun y => y.1 == locKey t), e.wordInSet (e.image img).footprint t with
      | some (_, pl), some w =>
        match e.loadBytes t w x.2 pl with
        | .error _ => e
        | .ok m =>
          let plain := (x.2.classesOf w).foldl (fun m c => (x.2.classes.getD c {}).blobs.foldl (fun m b => writeBytes m (pl.baseOf c b.1 + b.2.1) b.2.2) m) []
          (x.2.relocs.filter (fun r => r.kind == 5 && (x.2.classesOf w).contains r.tclass)).foldl (fun e r =>
            let a := pl.baseOf r.tclass r.lreg + r.offset
            let last := pl.baseOf r.tclass r.lreg + ((x.2.classes.getD r.tclass {}).decls.getD r.lreg {}).size * 4096
            e.modTile t (fun ti => ti.store a (readBytes m a (16 * (spareWords plain a last 480 + 1))))) e
      | _, _ => e) e

/-! ### GRAPH_LOAD, BLOB_TRANSFER -/

/-- Every tile of a graph placed, its slots taken and its bytes checked (checks 0x0C, 0x0D, 0x0E in order): the engine with the
slots taken, and the placements. -/
def Engine.placeGraph (e : Engine) (h : Nat) (g : Graph) : Except LoadFail (Engine × List (Nat × Placement)) := do
  let fields := (e.image g.image).footprint
  let words := ((g.classes.flatMap (·.tiles)).eraseDups)
  let session := e.sessionOn fields
  let pls ← words.mapM (fun w => match e.locInSet fields w with
    | none => .error { code := 0x0C, record := (g.classesOf w).headD 0 }
    | some t => if session && ((e.image e.session.image).footprint.testBit t.field) then .error { code := 0x0C, record := (g.classesOf w).headD 0 }
                else (e.placeTile t w g).map (fun pl => (t, w, pl)))
  let (e1, pls) ← pls.foldlM (fun (x : Engine × List (Loc × Nat × Placement)) y =>
    match (x.1.tile y.1).placePool h g (g.classesOf y.2.1) with
    | some (ti, pool) => .ok (x.1.modTile y.1 (fun _ => ti), x.2 ++ [(y.1, y.2.1, { y.2.2 with pool := pool })])
    | none => .error { code := 0x0D, record := (g.classesOf y.2.1).headD 0 }) (e, [])
  let (e2, firsts) ← (if g.adapt = 0 then [] else e.setTiles fields).foldlM (fun (x : Engine × List (Nat × Nat)) t =>
    match (x.1.tile t).placeAdapt g.part g.adapt with
    | some (ti, k) => .ok (x.1.modTile t (fun _ => ti), x.2 ++ [(locKey t, k)])
    | none => .error { code := 0x0D, record := 0 }) (e1, [])
  let out := pls.map (fun y => (y.1, y.2.1, { y.2.2 with adapt := match firsts.find? (fun z => z.1 == locKey y.1) with | some z => z.2 | none => 0 }))
  let _ ← out.mapM (fun y => e2.loadBytes y.1 y.2.1 g y.2.2)
  pure (e2, out.map (fun y => (locKey y.1, y.2.2)))

/-- The final reply of a load whose every tile is placed: LOADED (Table 9.15). -/
def Engine.finishLoad (e : Engine) (h now : Nat) : Engine :=
  let g := e.graph h
  if g.state = .loading ∧ g.blobsDue = [] then
    let e := e.modGraph h (fun g => { g with state := .loaded, hd := none })
    match g.hd with | some hd => e.reply now hd .ok h | none => e
  else e

/-- GRAPH_LOAD's effect: the checks, then LOADING with the lowest free handle; the tiles are written by BLOB_TRANSFER. -/
def runGraphLoad (pkg : List Byte) (img : Nat) (h : Hdr) (acc : Bool) (now : Nat) (e : Engine) : Engine :=
  let fail (f : LoadFail) : Engine := e.reply now h f.status f.detail
  match e.checkPackage pkg img h.part with
  | .error f => fail f
  | .ok g =>
    match (List.range 64).find? (fun k => (e.graph k).state == .free) with
    | none => fail { code := 0x0B, record := 0 }
    | some k =>
      match e.placeGraph k g with
      | .error f => fail f
      | .ok (e, pls) =>
        let e := e.accept now h acc k
        let e := if g.adapt = 0 then e else e.modPart h.part (fun q => { q with adaptSlots := max q.adaptSlots g.adapt })
        (e.modGraph k (fun _ => { g with placed := pls, entriesDue := pls.map (·.1), blobsDue := pls.map (·.1), hd := some h })).finishLoad k now

/-- GraphLoad's packet. -/
def graphLoadForm (hd : Hdr) (addr : Nat) (pkg : List Byte) (img : Nat) (_ : Engine) : Form :=
  { op := 0x0401, usesPart := true, reads := true, index := outside 16 (decide (img < 64)),
                addrs := [{ addr := addr, bytes := pkg.length, off := 0, write := false, fn := hd.fn }] }

/-- GRAPH_LOAD (R288). -/
def execGraphLoad (hd : Hdr) (addr : Nat) (pkg : List Byte) (img : Nat) (s : State) : Host.Outcome State Fault Refusal :=
  hostCmd hd (.graphLoad hd addr pkg img)
    (graphLoadForm hd addr pkg img) (runGraphLoad pkg img) s

/-- May the load unit write region entries of a partition's tiles: at a boundary, and at one boundary in 4 (R290)? -/
def Engine.loadBoundary (e : Engine) (p : Nat) : Bool :=
  e.atBoundary [p] && (match (e.part p).loadStep with
    | some n => let past := ((e.part p).stepNo + 2 ^ 32 - n) % 2 ^ 32; past == 0 || decide (4 ≤ past)
    | none => true)

/-- Does a node that runs on a tile claim a region of a placement? -/
def Tile.claimsAny (ti : Tile) (pl : Placement) : Bool := ti.inst.any (fun i => i.2.claims.any (fun c => pl.regions.any (fun r => r.2.2.1 == c.1)))

/-- BLOB_TRANSFER: on a tile of a loading graph the entries are written at a boundary of the partition; then the blobs come, also
during steps, where no running node claims their regions (R290). -/
def transferBlobs (h : Nat) (t : Loc) (now : Nat) (e : Engine) : Engine :=
  let g := e.graph h
  match g.placed.find? (fun x => x.1 == locKey t), e.wordInSet (e.image g.image).footprint t with
  | some (k, pl), some w =>
    if g.state ≠ .loading ∨ g.blobsDue.contains k = false then e
    else if g.entriesDue.contains k then
      if e.loadBoundary g.part then
        ((e.modTile t (fun ti => ti.enter h g pl (e.image g.image).slot)).modGraph h (fun g => { g with entriesDue := g.entriesDue.filter (· != k) })).modPart g.part
          (fun q => { q with loadStep := some q.stepNo })
      else e
    else if (e.tile t).claimsAny pl then e
    else match e.loadBytes t w g pl with
      | .ok m => ((e.modTile t (fun ti => ti.fill m)).modGraph h (fun g => { g with blobsDue := g.blobsDue.filter (· != k) })).finishLoad h now
      | .error _ => e
  | _, _ => e

/-- BLOB_TRANSFER (R290). -/
def execBlobTransfer (g : Nat) (t : Loc) (s : State) : Host.Outcome State Fault Refusal :=
  onUnit (locOk t && decide (g < 64)) s (transferBlobs g t)

/-! ### GRAPH_UNLOAD, GRAPH_QUERY -/

/-- A graph's placement taken off a tile: its regions zero-filled and their entries cleared, descriptors, entries, edge words
and pool slots freed (R289). -/
def Tile.remove (ti : Tile) (pl : Placement) : Tile :=
  let ti := pl.regions.foldl (fun ti r => ti.setRegion r.2.2.1 0) ti
  let ti := pl.reds.foldl (fun ti r => ti.zero (0x1E0000 + 128 * r.2.1) (128 * r.2.2)) ti
  let ti := pl.nodes.foldl (fun ti x => ti.zero (0x1E8000 + 32 * x.2) 32) ti
  let ti := pl.edges.foldl (fun ti x => ti.zero (0x1EE000 + 8 * x.2.1) (8 * x.2.2)) ti
  pl.pool.foldl (fun ti x => ti.setUses x.2.1 x.2.2 .zeroing) ti

/-- A graph taken off its tiles, and the adapter area freed with the partition's last graph that uses it. -/
def Engine.removeGraph (e : Engine) (h : Nat) : Engine :=
  let g := e.graph h
  let e := g.placed.foldl (fun e x => e.modTile (locOf x.1) (fun ti => ti.remove x.2)) e
  let e := e.modGraph h (fun _ => {})
  if g.adapt = 0 ∨ e.graphs.any (fun x => x.2.state != .free && x.2.part == g.part && x.2.adapt != 0) then e
  else
    let f (ti : Tile) : Tile := ti.dropSlots (fun _ u => u == .adapter g.part)
    ({ e with tiles := e.tiles.foldl (fun m x => mset (fun _ => {}) x.1 (f x.2) m) e.tiles } : Engine).modPart g.part (fun q => { q with adaptSlots := 0, adaptSel := 0 })

/-- GRAPH_UNLOAD's effect. -/
def runGraphUnload (g : Nat) (h : Hdr) (_ : Bool) (now : Nat) (e : Engine) : Engine :=
  if (e.graph g).state = .loaded then (e.removeGraph g).okReply now h else e.reply now h .graphState (graphCode (e.graph g).state)

/-- GraphUnload's packet. -/
def graphUnloadForm (g : Nat) (_ : Engine) : Form :=
  { op := 0x0402, index := outside 0 (decide (g < 64)) }

/-- GRAPH_UNLOAD (R289). -/
def execGraphUnload (hd : Hdr) (g : Nat) (s : State) : Host.Outcome State Fault Refusal :=
  hostCmd hd (.graphUnload hd g) (graphUnloadForm g) (runGraphUnload g) s

/-- GRAPH_QUERY's effect (Table 11.12). -/
def runGraphQuery (g addr : Nat) (h : Hdr) (_ : Bool) (now : Nat) (e : Engine) : Engine :=
  let x := e.graph g
  (e.dma h.fn addr (natBytes (pack [(32, x.placed.length - x.blobsDue.length), (8, 0), (8, x.part), (8, x.image), (8, graphCode x.state)]) 8)).okReply now h

/-- GraphQuery's packet. -/
def graphQueryForm (hd : Hdr) (g addr : Nat) (_ : Engine) : Form :=
  { op := 0x0403, index := outside 0 (decide (g < 64)), addrs := [{ addr := addr, bytes := 8, off := 8, write := true, fn := hd.fn }] }

/-- GRAPH_QUERY (R347). -/
def execGraphQuery (hd : Hdr) (g addr : Nat) (s : State) : Host.Outcome State Fault Refusal :=
  hostCmd hd (.graphQuery hd g addr)
    (graphQueryForm hd g addr) (runGraphQuery g addr) s

/-! ### The adapter area (R292, R293) -/

/-- Slots of one half of a partition's adapter area on a tile: the current one, or the other. -/
def Engine.adaptHalf (e : Engine) (p : Nat) (t : Loc) (half : Nat) : List Nat :=
  let all := ((e.tile t).slotUse.filter (fun x => x.2 == .adapter p)).map (·.1)
  let n := all.length / 2
  if (half + (e.part p).adaptSel) % 2 = 0 then all.take n else all.drop n

/-- Bytes of a half on every tile of the partition, in order of (vfield, vy, vx). -/
def Engine.adaptBytes (e : Engine) (p half : Nat) : List Byte :=
  (e.partTiles p).flatMap (fun t => (e.adaptHalf p t half).flatMap (fun k => e.kvBytes (t, k) 0 16384))

/-- Number of bytes of a half. -/
def Engine.adaptSize (e : Engine) (p half : Nat) : Nat := (e.partTiles p).foldl (fun n t => n + (e.adaptHalf p t half).length * 16384) 0

/-- A half written from bytes in the same order. -/
def Engine.setAdapt (e : Engine) (p half : Nat) (bs : List Byte) : Engine :=
  ((e.partTiles p).flatMap (fun t => (e.adaptHalf p t half).map (fun k => (t, k)))).zipIdx.foldl (fun e x => e.setKvBytes x.1 0 ((bs.drop (x.2 * 16384)).take 16384)) e

/-- ADAPT_SAVE's effect. -/
def runAdaptSave (addr bytes half : Nat) (h : Hdr) (_ : Bool) (now : Nat) (e : Engine) : Engine :=
  if (e.part h.part).state = .stepping then e.badPart now h
  else if bytes < e.adaptSize h.part half then e.reply now h .badAddress 8
  else (e.dma h.fn addr (e.adaptBytes h.part half)).okReply now h

/-- AdaptSave's packet. -/
def adaptSaveForm (hd : Hdr) (addr bytes half : Nat) (_ : Engine) : Form :=
  { op := 0x0404, usesPart := true, reserved := firstOf [wide 8 64 bytes, outside 16 (decide (half < 2))],
                addrs := [{ addr := addr, bytes := bytes, off := 0, write := true, fn := hd.fn }] }

/-- ADAPT_SAVE (R293). -/
def execAdaptSave (hd : Hdr) (addr bytes half : Nat) (s : State) : Host.Outcome State Fault Refusal :=
  hostCmd hd (.adaptSave hd addr bytes half)
    (adaptSaveForm hd addr bytes half) (runAdaptSave addr bytes half) s

/-- ADAPT_RESTORE's effect. -/
def runAdaptRestore (data : List Byte) (half : Nat) (h : Hdr) (_ : Bool) (now : Nat) (e : Engine) : Engine :=
  if (e.part h.part).state = .stepping then e.badPart now h
  else if data.length < e.adaptSize h.part half then e.reply now h .badAddress 8
  else (e.setAdapt h.part half data).okReply now h

/-- AdaptRestore's packet. -/
def adaptRestoreForm (hd : Hdr) (addr : Nat) (data : List Byte) (half : Nat) (_ : Engine) : Form :=
  { op := 0x0405, usesPart := true, reads := true, reserved := outside 16 (decide (half < 2)),
                addrs := [{ addr := addr, bytes := data.length, off := 0, write := false, fn := hd.fn }] }

/-- ADAPT_RESTORE (R293). -/
def execAdaptRestore (hd : Hdr) (addr : Nat) (data : List Byte) (half : Nat) (s : State) : Host.Outcome State Fault Refusal :=
  hostCmd hd (.adaptRestore hd addr data half)
    (adaptRestoreForm hd addr data half) (runAdaptRestore data half) s

end Sys2Proof.Machine
end

