-- ==== Sys2Proof/Machine/NvOps.lean ====
section
/-!
DEFINITION. Stripes and their allocation (R183, R188, R195), slices on their tiles (R179), parity and recovery (R180, R181),
imprint frames (R189) and the imprint session (R186, R188 to R193, R227).
-/
namespace Sys2Proof.Machine

/-- Stripes of a weight slab. -/
def slabStripes : Nat := 1827
/-- Rated endurance of a stripe in cycles (R195). -/
def endurance : Nat := 3000

/-! ### CRC-32C -/

/-- Eight steps of the reflected CRC-32C (log entry 35). -/
def crcShift : Nat → Nat → Nat
  | 0, c => c
  | n + 1, c => crcShift n (if c % 2 = 1 then (c / 2) ^^^ 0x82F63B78 else c / 2)

/-- CRC-32C of bytes. -/
def crc32c (bs : List Byte) : Nat := (bs.foldl (fun c b => crcShift 8 (c ^^^ b.toNat)) 0xFFFFFFFF) ^^^ 0xFFFFFFFF

/-! ### Stripes -/

/-- Stripe k of a tile. -/
def Tile.stripe (ti : Tile) (k : Nat) : Stripe := mget (fun _ => {}) k ti.stripes
/-- Tile with a stripe changed. -/
def Tile.modStripe (ti : Tile) (k : Nat) (f : Stripe → Stripe) : Tile := { ti with stripes := mmod (fun _ => {}) k f ti.stripes }
/-- Erase cycles a stripe has: those at delivery and those since (R195, R495). -/
def Engine.cyclesOf (e : Engine) (t : Loc) (k : Nat) : Nat := Config.shippedCycles t.field t.site k + ((e.tile t).stripe k).cycles
/-- Stripes no image holds. -/
def Engine.freeStripes (e : Engine) (t : Loc) : List Nat := (List.range slabStripes).filter (fun k => ((e.tile t).stripe k).owner.isNone)
/-- Those of them below the endurance limit. -/
def Engine.goodStripes (e : Engine) (t : Loc) : List Nat := (e.freeStripes t).filter (fun k => decide (e.cyclesOf t k < endurance))

/-- Sum of the k largest of a list. -/
def topSum : Nat → List Nat → Nat
  | 0, _ => 0
  | k + 1, l => let m := l.foldl max 0; m + topSum k (l.erase m)

/-- `need` stripes from at most k runs, lowest index first: a run is taken from its start when the rest can still be
gathered (R183). -/
def chooseRuns : List (Nat × Nat) → Nat → Nat → Option (List Nat)
  | _, _, 0 => some []
  | [], _, _ + 1 => none
  | (f, n) :: r, k, need + 1 =>
    if 0 < k ∧ need + 1 ≤ n + topSum (k - 1) (r.map (·.2)) then
      (chooseRuns r (k - 1) (need + 1 - n)).map (fun l => (List.range (min n (need + 1))).map (· + f) ++ l)
    else chooseRuns r k (need + 1)

/-- The stripes of an allocation: the least highest cycle count, then the lowest index, in at most 4 extents (R183). -/
def Engine.chooseStripes (e : Engine) (t : Loc) (need : Nat) (free : List Nat) : Option (List Nat) :=
  if need = 0 then some []
  else (List.range endurance).findSome? (fun top => chooseRuns (joinStripes (free.filter (fun k => decide (e.cyclesOf t k ≤ top)))) 4 need)

/-- Stripes allocated to an image: each erase counts a cycle, with a warning past 2,700 (R195). -/
def Engine.allocStripes (e : Engine) (now : Nat) (t : Loc) (img : Nat) (ks : List Nat) : Engine :=
  ks.foldl (fun e k =>
    let e := e.modTile t (fun ti => ti.modStripe k (fun s => { s with cycles := s.cycles + 1, owner := some img }))
    let c := e.cyclesOf t k
    if 2700 < c then e.siteEvent now t 0x0205 k c else e) e

/-- Stripes freed, for erasure at their next allocation (R185). -/
def Tile.freeStripes (ti : Tile) (ks : List Nat) : Tile := ks.foldl (fun ti k => ti.modStripe k (fun s => { s with owner := none })) ti

/-- Pages of stripes erased. -/
def Tile.erase (ti : Tile) (ks : List Nat) : Tile :=
  { ti with
    nv := ks.foldl (fun m k => mdrop (fun a => decide (nvKey (k * 32) 0 ≤ a) && decide (a < nvKey (k * 32 + 32) 0)) m) ti.nv
    nvBad := ti.nvBad.filter (fun p => !ks.contains (p / 32)), flagged := ti.flagged.filter (fun k => !ks.contains k) }

/-- Slab page of position i among the pages of stripes in order. -/
def stripePage (ks : List Nat) (i : Nat) : Option Nat := (ks[i / 32]?).map (fun k => k * 32 + i % 32)

/-! ### Images -/

/-- Is every slice of an image read from its own pages (R402, R409)? -/
def Engine.imageWhole (e : Engine) (img : Nat) : Bool :=
  let im := e.image img
  im.recovered.isEmpty && im.slices.all (fun s => match e.locInSet im.footprint s.vtile with
    | none => true
    | some t => !(e.tile t).recovering.any (fun x => x.1 == im.slot) && (e.tile t).nvBad.all (fun p => (extIndex ((e.tile t).extentsOf im.slot) p).isNone))

/-! ### Extent tables (Table 6.3) -/

/-- NV_EXT entry of an image slot from an extent in pages. -/
def extWord (slot : Nat) (x : Nat × Nat) : BitVec 32 := BitVec.ofNat 32 (pack [(1, 1), (4, slot), (11, x.1 / 32), (11, x.2 / 32 - 1), (5, 0)])

/-- The NV_EXT entries of an image slot cleared. -/
def Tile.clearExt (ti : Tile) (slot : Nat) : Tile := { ti with ext := ti.ext.filter (fun x => fld x.2.toNat 30 27 != slot) }

/-- The NV_EXT entries of an image slot replaced by those of new stripes, in the lowest free entries. -/
def Tile.writeExt (ti : Tile) (slot : Nat) (ks : List Nat) : Tile :=
  (stripeExtents ks).foldl (fun ti x =>
    match (List.range 64).find? (fun n => !bitAt (ti.extent n) 31) with
    | some n => { ti with ext := mset (fun _ => 0) n (extWord slot x) ti.ext }
    | none => ti) (ti.clearExt slot)

/-- Stripes of an image slot's extents on a tile. -/
def Tile.stripesOf (ti : Tile) (slot : Nat) : List Nat := (ti.extentsOf slot).flatMap (fun x => (List.range (x.2 / 32)).map (· + x.1 / 32))

/-! ### The session (R186, R188, R190, R227) -/

/-- Are both cartridges present and charged (R186)? -/
def Engine.cartsOk (e : Engine) : Bool := (List.range 2).all (fun k => let c := mget (fun _ => ({} : Cartridge)) k e.carts; c.present && c.charged)

/-- Entry 32's host IN_RATE of the decks of the session's ports raised to what the partition entries leave (R227). -/
def Engine.raiseHem (e : Engine) (ports : Nat) : Engine :=
  (List.range 2).foldl (fun e d =>
    if (setBits ports 8).any (fun p => p / 4 == d) then
      e.modDeck d (fun k =>
        let old := k.hem 0 32
        ({ k with savedIn := some old.inRate } : Deck).setHem 0 32 { old with inRate := hemCapacity 0 - k.hemSum 0 32 HemCr.inRate })
    else e) e

/-- The rates before the session restored. -/
def Engine.restoreHem (e : Engine) : Engine :=
  (List.range 2).foldl (fun e d => e.modDeck d (fun k => match k.savedIn with
    | some r => ({ k with savedIn := none } : Deck).setHem 0 32 { k.hem 0 32 with inRate := r }
    | none => k)) e

/-- The session returns to IDLE: the programming enable and the raised rates go. -/
def Engine.closeSession (e : Engine) : Engine := ({ e with session := {} } : Engine).restoreHem.modSup (fun s => { s with nvEnable := false })

/-- The session aborts (Table 6.7): staged frames discarded, stripes freed, the image ABSENT. A command that waits for the
session's end is answered with `why`. -/
def Engine.abortSession (e : Engine) (now : Nat) (why : Status) : Engine :=
  let s := e.session
  if s.state = .idle then e
  else
    let e := s.alloc.foldl (fun e x => e.modTile (locOf x.1) (fun ti => ti.freeStripes [x.2])) e
    let e := (e.modImage s.image (fun _ => {})).closeSession
    match s.hd with | some h => e.reply now h why 0 | none => e

/-- R188's abort where the strap opens, a cartridge is removed, or a reset comes: not a session that has FAILED. -/
def Engine.breakSession (e : Engine) (now : Nat) (why : Status) : Engine :=
  if e.session.state = .failed then e else e.abortSession now why

/-- Tile key of slice k in the session, where its virtual tile had a site (R182). -/
def Session.site (s : Session) (k : Nat) : Option Nat := (s.sites[k]?).join

/-- Stripes of slice k in the session. -/
def Session.stripesOf (s : Session) (k : Nat) : List Nat := (s.alloc.filter (fun x => s.site k == some x.1)).map (·.2)

/-- A page of slice k as the session has it. -/
def Engine.sessionPage (e : Engine) (k : Nat) (s : Slice) (i : Nat) : List Byte :=
  if s.inTier i then (tierPage e.session.tier k i).getD zeroPage
  else match e.session.site k, stripePage (e.session.stripesOf k) (s.position i) with
    | some t, some p => (e.tile (locOf t)).page p
    | _, _ => zeroPage

/-- A page of slice k written in the session: an NV page programmed, a tier page kept. -/
def Engine.putPage (e : Engine) (k : Nat) (s : Slice) (i : Nat) (bs : List Byte) : Engine :=
  let e := if s.inTier i then { e with session := { e.session with tier := e.session.tier.filter (fun x => !(x.1 == k && x.2.1 == i)) ++ [(k, i, bs)] } }
    else match e.session.site k, stripePage (e.session.stripesOf k) (s.position i) with
      | some t, some p => e.modTile (locOf t) (fun ti => ti.program p bs)
      | _, _ => e
  { e with session := { e.session with programmed := (k, i) :: e.session.programmed.filter (· != (k, i)) } }

/-- A frame's parts: PART, SLICE, PAGE, whether it is a frame of R189, and the content. -/
structure Frame where
  part : Nat
  slice : Nat
  page : Nat
  ok : Bool
  content : List Byte

/-- A frame read (Table 6.8). -/
def readFrame (bs : List Byte) : Frame :=
  let h := bytesAt bs 0 32
  let c := (bs.drop 32).take pageBytes
  { part := fld h 239 238, slice := fld h 231 200, page := fld h 199 176, content := c,
    ok := fld h 255 240 == 0x4B46 && c.length == pageBytes && crc32c c == fld h 175 144 }

/-- Does the supervisor grant the programming enable: it was requested for a session whose manifest has verified, the strap is closed,
and both cartridges are present and charged (R186)? -/
def Engine.nvGranted (e : Engine) : Bool := e.sup.nvEnable && e.sup.imprintEn && e.cartsOk

/-- The enable withdrawn where a condition of R186 no longer holds. -/
def Engine.checkEnable (e : Engine) : Engine := e.modSup (fun s => { s with nvEnable := s.nvEnable && s.imprintEn && e.cartsOk })

/-- Does slice k of the session lie on a fenced field, whose NV is not used (R5, R25)? -/
def Engine.sliceFenced (e : Engine) (k : Nat) : Bool := match e.session.site k with | some t => (e.field (t / 720)).fenced | none => false

/-- A frame of the session: forwarded to the engine of its part, staged and programmed while the supervisor's enable is given
(R186), or discarded and counted (R189, R190). -/
def Engine.takeFrame (e : Engine) (now : Nat) (bs : List Byte) : Engine :=
  let s := e.session
  let im := e.image s.image
  let f := readFrame bs
  let bad := { e with session := { s with discarded := s.discarded + 1 } }
  if s.state ≠ .streaming then e
  else if f.part ≠ im.partIndex then
    if s.zport = 0xFF then bad
    else if (e.zport s.zport).state = .up then e.zput now s.zport { p := e.zheader 6 (e.zport s.zport).pnode 0 0 0 true bs }
    else e.zlose none
  else match im.slices[f.slice]? with
    | none => bad
    | some sl =>
      if !e.nvGranted || e.sliceFenced f.slice || !f.ok || decide (sl.pages ≤ f.page) || s.programmed.contains (f.slice, f.page) || (match s.limited with | some l => !l.contains f.slice | none => false) then bad
      else e.putPage f.slice sl f.page f.content

/-! ### Verification (R192) -/

/-- Has slice k's target site left ACTIVE during the session, its field been fenced, or had its virtual tile no site (R192, R408)? -/
def Engine.sliceCovered (e : Engine) (k : Nat) : Bool :=
  match e.session.site k with | some t => e.siteState (locOf t) != .active || e.sliceFenced k | none => true

/-- Does slice k verify: every page there, every block's residue, both digests (R192)? -/
def Engine.sliceGood (e : Engine) (k : Nat) (s : Slice) : Bool :=
  let pages := (List.range s.pages).map (e.sessionPage k s)
  (List.range s.pages).all (fun i => e.session.programmed.contains (k, i)) && pages.all pageGood &&
    sha384 pages.flatten == s.digest &&
    (s.ovf + s.spill == 0 || sha384 ((pages.drop s.resident).take (s.ovf + s.spill)).flatten == s.tierDigest)

/-- Is slice k verified, or excused because its site is covered? -/
def Engine.sliceDone (e : Engine) (k : Nat) : Bool := e.session.verified.contains k || e.sliceCovered k

/-- A failed slice that is the only one of its group is rewritten once from the others and verified again (R192). -/
def Engine.recoverSlice (e : Engine) (k : Nat) : Engine :=
  let im := e.image e.session.image
  match im.slices[k]? with
  | none => e
  | some s =>
    if e.session.retried.contains k || !(im.group s.group).all (fun x => x.1 == k || e.session.verified.contains x.1) then e
    else
      let old := e
      let e := match e.session.site k with
        | some t => e.modTile (locOf t) (fun ti => (e.session.stripesOf k).foldl (fun ti q => ti.modStripe q (fun x => { x with cycles := x.cycles + 1 })) (ti.erase (e.session.stripesOf k)))
        | none => e
      let e := (List.range s.pages).foldl (fun e i => e.putPage k s i (rebuildPage im s (fun m ms p => old.sessionPage m ms p) i)) e
      let good := e.sliceGood k s
      { e with session := { e.session with
        retried := k :: e.session.retried
        verified := if good then k :: e.session.verified else e.session.verified
        failed := if good then e.session.failed.filter (· != k) else e.session.failed } }

/-- Recoveries that have become possible. -/
def Engine.recoverAll (e : Engine) : Engine := e.session.failed.foldl (fun e k => e.recoverSlice k) e

/-- The session moves on when every slice has been verified or has failed: COMMITTING, or FAILED with the list in the
completion reply (Table 6.7). -/
def Engine.settleSession (e : Engine) (now : Nat) : Engine :=
  let s := e.session
  let ks := List.range (e.image s.image).slices.length
  if s.state ≠ .verifying ∨ !ks.all (fun k => e.sliceDone k || s.failed.contains k) then e
  else
    let bad := ks.filter (fun k => !e.sliceDone k)
    if bad.isEmpty then { e with session := { s with state := .committing } }
    else
      let e := { e with session := { s with state := .failed, failed := bad, hd := none } }
      match s.hd with
      | some h => (e.dma h.fn s.endAddr (bad.flatMap (fun k => natBytes k 4))).reply now h .ok bad.length
      | none => e

end Sys2Proof.Machine
end

