-- ==== Sys2Proof/Machine/Manifest.lean ====
section
/-!
DEFINITION. Manifests (R177, R178, Tables 6.4, 6.5), the evaluation of a manifest against a footprint (R188, R200, R203,
Table 6.13).
-/
namespace Sys2Proof.Machine

/-- A manifest's header and the parts that follow it. -/
structure Manifest where
  id : Nat
  layers : Nat
  vfields : Nat
  partIndex : Nat
  partLast : Nat
  layerFirst : Nat
  keySlot : Nat
  refFmt : List Nat
  slices : List Slice

/-- A slice record (Table 6.5). -/
def readSlice (bs : List Byte) : Slice :=
  let v := leNat bs
  { digest := (bs.drop 80).take 48, tierDigest := (bs.drop 32).take 48, vtile := fld v 255 232, group := fld v 231 208, member := fld v 207 204,
    dataPages := fld v 203 186, parityPages := fld v 185 170, ovf := fld v 169 158, spill := fld v 157 145 }

/-- Byte offset of the slice table. -/
def sliceTable (bs : List Byte) : Nat := 64 + 8 * bytesAt bs 6 2

/-- Bytes a manifest has by its header (R177). -/
def manifestSize (bs : List Byte) : Nat := sliceTable bs + 128 * bytesAt bs 20 4 + 128

/-- A manifest read (R177). -/
def readManifest (bs : List Byte) : Manifest :=
  { id := bytesAt bs 8 8, layers := bytesAt bs 6 2, vfields := bytesAt bs 16 1, partIndex := bytesAt bs 17 1 % 4, partLast := bytesAt bs 17 1 / 4 % 4,
    layerFirst := bytesAt bs 18 2, keySlot := bytesAt bs 27 1, refFmt := (List.range (bytesAt bs 6 2)).map (fun i => bytesAt bs (64 + 8 * i + 7) 1 / 64),
    slices := (List.range (bytesAt bs 20 4)).map (fun i => readSlice ((bs.drop (sliceTable bs + 128 * i)).take 128)) }

/-- The first failing field of the header, in byte order (R177, R178). -/
def headerFault (bs : List Byte) : Option Nat :=
  firstOf [outside bs.length (decide (64 ≤ bs.length)), outside 0 (bytesAt bs 0 4 == 0x464D4C4B), outside 4 (bytesAt bs 4 2 == 1), outside 6 (bytesAt bs 6 2 != 0),
    outside 8 (bytesAt bs 8 8 != 0), outside 16 (decide (1 ≤ bytesAt bs 16 1) && decide (bytesAt bs 16 1 ≤ 96)),
    outside 17 (bytesAt bs 17 1 < 16 && decide (bytesAt bs 17 1 % 4 ≤ bytesAt bs 17 1 / 4)), outside 20 (bytesAt bs 20 4 == 16 * bytesAt bs 24 3),
    outside 27 (decide (bytesAt bs 27 1 ≤ 3)), ((List.range 32).find? (fun i => bytesAt bs (32 + i) 1 != 0)).map (· + 32),
    outside (min bs.length (manifestSize bs)) (bs.length == manifestSize bs)]

/-- The first failing entry of the layer table: REF_FMT 0 or 1, zero elsewhere. -/
def layerFault (bs : List Byte) : Option Nat :=
  (List.range (bytesAt bs 6 2)).findSome? (fun i =>
    let v := bytesAt bs (64 + 8 * i) 8
    if v = 0 ∨ v = 2 ^ 62 then none else some (64 + 8 * i + (if v % 2 ^ 62 = 0 then 7 else lowBit v / 8)))

/-- Virtual cluster of a virtual tile, with its field (R180). -/
def vcluster (w : Nat) : Nat × Nat × Nat := (fld w 23 16, fld w 15 8 / 4, fld w 7 0 / 5)

/-- The first failing field of a slice record at byte `a`, beside the records before it (R178, R180, R200). -/
def sliceFault (vfields groups a rsv : Nat) (before : List Slice) (s : Slice) : Option Nat :=
  let mates := before.filter (fun x => x.group == s.group)
  firstOf [if rsv = 0 then none else some (a + (if rsv % 2 ^ 64 = 0 then (if rsv % 2 ^ 128 = 0 then 16 + lowBit (rsv / 2 ^ 128) / 8 else 8 + lowBit (rsv / 2 ^ 64) / 8) else lowBit rsv / 8)),
    outside (a + 18) (decide (s.ovf + s.spill ≤ 5846) && (s.spill == 0 || s.ovf == 1169) && decide (s.ovf + s.spill ≤ s.dataPages)),
    outside (a + 19) (decide (s.ovf ≤ 1169)), outside (a + 21) (mates.all (fun x => x.parityPages == s.parityPages)),
    outside (a + 23) (decide (s.dataPages ≤ 15 * s.parityPages)), outside (a + 25) (mates.all (fun x => x.member != s.member)), outside (a + 26) (decide (s.group < groups)),
    outside (a + 29) (decide (fld s.vtile 23 16 < vfields) && decide (fld s.vtile 15 8 < 24) && decide (fld s.vtile 7 0 < 29) && before.all (fun x => x.vtile != s.vtile) &&
      mates.all (fun x => vcluster x.vtile != vcluster s.vtile)),
    outside (a + 32) (s.ovf + s.spill != 0 || s.tierDigest.all (· == 0))]

/-- The first failing field of the slice table. -/
def slicesFault (bs : List Byte) (m : Manifest) : Option Nat :=
  firstOf [m.slices.zipIdx.findSome? (fun x =>
      let a := sliceTable bs + 128 * x.2
      sliceFault m.vfields (m.slices.length / 16) a (bytesAt bs a 19 % 2 ^ 145) (m.slices.take x.2) x.1),
    outside 20 (m.slices.length == 696 * m.vfields)]

/-- The first failing field of a manifest, the signature aside (R178). -/
def manifestFault (bs : List Byte) : Option Nat :=
  match headerFault bs with
  | some o => some o
  | none => match layerFault bs with
    | some o => some o
    | none => match slicesFault bs (readManifest bs) with
      | some o => some o
      | none => ((List.range 32).find? (fun i => bytesAt bs (bs.length - 32 + i) 1 != 0)).map (· + (bs.length - 32))

/-- Why a manifest is refused: the failing field, an empty key slot, or the signature (R178, R186). -/
def Engine.manifestRefused (e : Engine) (bs : List Byte) : Option (Status × Nat) :=
  match manifestFault bs with
  | some o => some (.badManifest, o)
  | none =>
    let key := mget (fun _ => []) (bytesAt bs 27 1) e.sup.keys
    if key = [] then some (.key, 0)
    else if ecdsaOk key (bs.take (bs.length - 128)) ((bs.drop (bs.length - 128)).take 96) then none
    else some (.badManifest, 0xFFFFFFFF)

/-! ### Fit (R200, R203) -/

/-- Largest value of a list. -/
def maxOf (l : List Nat) : Nat := l.foldl max 0

/-- Largest value of a list of integers, at least 0. -/
def maxPos (l : List Int) : Nat := (l.foldl max 0).toNat

/-- Unpacked bytes of a slice's overflow (0) or reserve (1) pages (log entry 34). -/
def tierSize (i kind n : Nat) : Nat := if n = 0 then 0 else Config.tierBytes i kind

/-- What the evaluation finds: the report's fields (Table 6.13). -/
structure Fit where
  outcome : Nat
  nvShort : Nat
  fitShort : Nat
  ovfSlots : Nat
  spillSlots : Nat
  shortTotal : Nat
  spillTotal : Nat
  baseNs : Nat
  fitNs : Nat
  dramNs : Nat
  fillUs : Nat

/-- The slices of a manifest with their indices and sites. -/
def Engine.slicesOn (e : Engine) (m : Manifest) (fields : Nat) : List (Nat × Slice × Loc) :=
  m.slices.zipIdx.filterMap (fun x => (e.locInSet fields x.1.vtile).map (fun t => (x.2, x.1, t)))

/-- Program-area granules of a tile outside every valid region entry (R188). -/
def Tile.openGranules (ti : Tile) : Nat := ((List.range 480).filter (fun g => ti.region.all (fun x => !regHas x.2 g))).length

/-- Is a field of the set in a partition that is stepping (R188)? -/
def Engine.footprintSteps (e : Engine) (fields : Nat) : Bool := e.parts.any (fun x => x.2.state == .stepping && x.2.fields &&& fields != 0)

/-- Bandwidth of a host link as it has trained, in bytes a microsecond: 121 GB/s at x16 and 64 GT/s, and in proportion to the rate of
its PCI Express generation (2.5, 5, 8, 16, 32, 64 GT/s) and its width otherwise (R203, R322; log entry 34). -/
def HostPort.bandwidth (h : HostPort) : Nat :=
  if h.up then 121000 * ([0, 25, 50, 80, 160, 320, 640].getD h.rate 0) * h.width / (640 * 16) else 0

/-- Microseconds to fill `bytes` over the links among `ports` at their trained rates (R203). -/
def Engine.fillUs (e : Engine) (ports bytes : Nat) : Nat :=
  let n := ((setBits ports 8).map (fun p => (e.hport p).bandwidth)).foldl (· + ·) 0
  if n = 0 then 2 ^ 28 - 1 else ceilDiv bytes n

/-- The evaluation of a manifest against a footprint, nothing allocated (R200, R203). Refusals are found in code order, and times are
rounded up to whole units (DESIGN CHOICE, log 139). -/
def Engine.fit (e : Engine) (m : Manifest) (fields ports : Nat) : Fit :=
  let xs := e.slicesOn m fields
  let excess := xs.map (fun x => ((x.2.1.pages : Int) - (32 * (e.freeStripes x.2.2).length : Nat)))
  let lack (x : Nat × Slice × Loc) : Nat := x.2.1.pages - 32 * (e.freeStripes x.2.2).length - x.2.1.ovf - x.2.1.spill
  let ovf (x : Nat × Slice × Loc) : Nat := ceilDiv (tierSize x.1 0 x.2.1.ovf) 16384
  let spill (x : Nat × Slice × Loc) : Nat := ceilDiv (tierSize x.1 1 x.2.1.spill) 16384
  let spillTotal := (xs.map spill).foldl (· + ·) 0
  let outcome :=
    if excess.any (fun d => decide (5846 < d)) then 8
    else if xs.any (fun x => lack x != 0) then 9
    else if e.slotDeficit (xs.map (·.2.2)) (fun t => match xs.find? (fun x => x.2.2 == t) with | some x => ovf x | none => 0) != 0 then 0xA
    else if xs.any (fun x => decide ((e.goodStripes x.2.2).length < x.2.1.stripes)) then 0xB
    else if e.footprintSteps fields then 0xC
    else if xs.any (fun x => (e.chooseStripes x.2.2 x.2.1.stripes (e.goodStripes x.2.2)).isNone) then 0xD
    else if xs.any (fun x => decide ((e.tile x.2.2).openGranules < 4)) then 0xE
    else if xs.any (fun x => x.2.1.spill != 0) then 2
    else if xs.any (fun x => x.2.1.ovf != 0) then 1
    else 0
  { outcome := outcome, nvShort := maxPos excess, fitShort := maxOf (xs.map lack), ovfSlots := maxOf (xs.map ovf), spillSlots := maxOf (xs.map spill),
    shortTotal := (xs.map lack).foldl (· + ·) 0, spillTotal := spillTotal, baseNs := maxOf (xs.map (fun x => ceilDiv (16384 * x.2.1.dataPages) 60)),
    fitNs := maxOf (xs.map (fun x => ceilDiv (16384 * x.2.1.resident) 60)),
    dramNs := maxOf (xs.map (fun x => ceilDiv (tierSize x.1 0 x.2.1.ovf + tierSize x.1 1 x.2.1.spill) 64)), fillUs := e.fillUs ports (16384 * spillTotal) }

/-- The fit report (Table 6.13); a value that passes its field reads all ones. -/
def Fit.word (f : Fit) : Nat :=
  let s (w v : Nat) : Nat × Nat := (w, min v (2 ^ w - 1))
  pack [(4, f.outcome), s 20 f.nvShort, s 20 f.fitShort, s 12 f.ovfSlots, s 12 f.spillSlots, s 32 f.shortTotal, s 32 f.spillTotal, s 32 f.baseNs, s 32 f.fitNs, s 32 f.dramNs, s 28 f.fillUs]

end Sys2Proof.Machine
end

