-- ==== Sys2Proof/Machine/Images.lean ====
section
/-!
DEFINITION. The image commands (group 0x02xx: R177 to R203, R185, R187).
-/
namespace Sys2Proof.Machine

/-- Offset in the parameters of a field set that is not VFIELDS exposed fields (R5, R182). -/
def Engine.badFields (e : Engine) (manifest : List Byte) (fields : Nat) : Option Nat :=
  outside 12 ((setBits fields 96).all (fun k => !(e.field k).fenced) && (decide (manifest.length < 64) || (setBits fields 96).length == bytesAt manifest 16 1))

/-- A packet that names a manifest and a footprint. -/
def manifestForm (op : Nat) (hd : Hdr) (maddr : Nat) (manifest : List Byte) (fields : Nat) (e : Engine) : Form :=
  { op := op, reads := true, reserved := wide 12 96 fields, index := e.badFields manifest fields,
    addrs := [{ addr := maddr, bytes := manifest.length, off := 0, write := false, fn := hd.fn }] }

/-! ### IMG_FIT, IMG_BEGIN -/

/-- IMG_FIT's effect: the report, over every host link that is up (R203). -/
def runImgFit (manifest : List Byte) (fields addr : Nat) (h : Hdr) (_ : Bool) (now : Nat) (e : Engine) : Engine :=
  match e.manifestRefused manifest with
  | some (s, d) => e.reply now h s d
  | none => (e.dma h.fn addr (natBytes (e.fit (readManifest manifest) fields 0xFF).word 32)).okReply now h

/-- ImgFit's packet. -/
def imgFitForm (hd : Hdr) (maddr : Nat) (manifest : List Byte) (fields addr : Nat) (e : Engine) : Form :=
  let f := manifestForm 0x0201 hd maddr manifest fields e
  { f with addrs := f.addrs ++ [{ addr := addr, bytes := 32, off := 32, write := true, fn := hd.fn }] }

/-- IMG_FIT (R203). -/
def execImgFit (hd : Hdr) (maddr : Nat) (manifest : List Byte) (fields addr : Nat) (s : State) : Host.Outcome State Fault Refusal :=
  hostCmd hd (.imgFit hd maddr manifest fields addr)
    (imgFitForm hd maddr manifest fields addr) (runImgFit manifest fields addr) s

/-- Why no session begins (R186, R188): one is open, the strap is open, a cartridge is missing. -/
def Engine.sessionRefused (e : Engine) : Option (Status × Nat) :=
  if !e.sup.imprintEn then some (.strapOpen, 0) else if !e.cartsOk then some (.cartridge, 0) else none

/-- The free table entry and the image slot of a new image: the lowest free on every tile of the footprint (R182). -/
def Engine.newImage (e : Engine) (fields : Nat) : Option (Nat × Nat) := do
  let i ← (List.range 64).find? (fun k => (e.image k).state == .absent)
  let s ← (List.range 16).find? (fun s => e.images.all (fun x => x.2.state == .absent || x.2.slot != s || x.2.footprint &&& fields == 0))
  pure (i, s)

/-- The session opened: stripes allocated, the image IMPRINTING, the hem rate raised, the enable granted (Table 6.7). -/
def Engine.openSession (e : Engine) (now : Nat) (m : Manifest) (fields ports zport img slot : Nat) (h : Hdr) : Engine :=
  let xs := e.slicesOn m fields
  let allocs := xs.map (fun x => (x.2.2, (e.chooseStripes x.2.2 x.2.1.stripes (e.goodStripes x.2.2)).getD []))
  let e := allocs.foldl (fun e x => e.allocStripes now x.1 img x.2) e
  let e := e.modImage img (fun _ => {
    id := BitVec.ofNat 64 m.id, footprint := fields, slot := slot, state := .imprinting, slices := m.slices, refFmt := m.refFmt, layerFirst := m.layerFirst,
    partIndex := m.partIndex, partLast := m.partLast })
  ({ e with session := {
      state := .erasing, image := img, fn := h.fn, hd := some h, ports := ports, zport := zport
      alloc := allocs.flatMap (fun x => x.2.map (fun k => (locKey x.1, k)))
      sites := m.slices.map (fun s => (e.locInSet fields s.vtile).map locKey) } } : Engine).raiseHem ports
    |>.modSup (fun s => { s with nvEnable := true })

/-- IMG_BEGIN's effect (R186, R188). -/
def runImgBegin (manifest : List Byte) (fields ports zport : Nat) (h : Hdr) (acc : Bool) (now : Nat) (e : Engine) : Engine :=
  if e.session.state ≠ .idle then e.reply now h .sessionState 0
  else match e.sessionRefused with
    | some (s, d) => e.reply now h s d
    | none => match e.manifestRefused manifest with
      | some (s, d) => e.reply now h s d
      | none =>
        let m := readManifest manifest
        let f := e.fit m fields ports
        if f.outcome = 0xC then e.reply now h .partState (partCode .stepping)
        else if 8 ≤ f.outcome then e.reply now h .fitRefused (min f.shortTotal 0xFFFFFFFF)
        else match e.newImage fields with
          | none => e.reply now h .tableFull 0
          | some (img, slot) => (e.accept now h acc img).openSession now m fields ports zport img slot h

/-- ImgBegin's packet. -/
def imgBeginForm (hd : Hdr) (maddr : Nat) (manifest : List Byte) (fields ports zport : Nat) (e : Engine) : Form :=
  let f := manifestForm 0x0202 hd maddr manifest fields e
  { f with chair := true, reserved := firstOf [f.reserved, wide 24 8 ports], index := firstOf [f.index, outside 25 (decide (zport < 24) || zport == 0xFF)] }

/-- IMG_BEGIN (R188). -/
def execImgBegin (hd : Hdr) (maddr : Nat) (manifest : List Byte) (fields ports zport : Nat) (s : State) : Host.Outcome State Fault Refusal :=
  hostCmd hd (.imgBegin hd maddr manifest fields ports zport)
    (imgBeginForm hd maddr manifest fields ports zport)
    (runImgBegin manifest fields ports zport) s

/-! ### The session's commands -/

/-- A command of the open session of image `img` in one of these states; any other is 0x0307. -/
def inSession (img : Nat) (ok : Session → Bool) (run : Hdr → Bool → Nat → Engine → Engine) (h : Hdr) (acc : Bool) (now : Nat) (e : Engine) : Engine :=
  if e.session.state ≠ .idle ∧ e.session.image = img ∧ ok e.session = true then run h acc now e else e.reply now h .sessionState 0

/-- A packet whose first parameter is an image-table index. -/
def imageForm (op img : Nat) : Form := { op := op, index := outside 0 (decide (img < 64)) }

/-- Is a function the PF of a port the session names (Table 11.12)? -/
def Session.fromPort (s : Session) : Fn → Bool
  | .pf k => s.ports.testBit k
  | .vf _ => false

/-- IMG_STREAM's effect: the frames in order; DETAIL counts those discarded (R189, R190). -/
def runImgStream (frames : List (List Byte)) (h : Hdr) (_ : Bool) (now : Nat) (e : Engine) : Engine :=
  let e := e.spendHem (e.fnDeck h.fn) 0 32 (frames.length * ceilDiv (16 + 19520) 64)
  let e' := frames.foldl (fun e b => e.takeFrame now b) e
  e'.reply now h .ok (e'.session.discarded - e.session.discarded)

/-- ImgStream's packet. -/
def imgStreamForm (hd : Hdr) (img addr : Nat) (frames : List (List Byte)) : Form :=
  { imageForm 0x0203 img with
      reads := true, sysIn := true, addrs := [{ addr := addr, bytes := 19520 * frames.length, off := 8, write := false, fn := hd.fn }] }

/-- IMG_STREAM (R190). -/
def execImgStream (hd : Hdr) (img addr : Nat) (frames : List (List Byte)) (s : State) : Host.Outcome State Fault Refusal :=
  hostCmd hd (.imgStream hd img addr frames)
    (fun _ => imgStreamForm hd img addr frames)
    (inSession img (fun s => s.state == .streaming && s.fromPort hd.fn) (runImgStream frames)) s

/-- IMG_END's effect: VERIFYING; the final reply comes with the commit or the failure (Table 6.7). -/
def runImgEnd (addr : Nat) (h : Hdr) (acc : Bool) (now : Nat) (e : Engine) : Engine :=
  let e := e.accept now h acc 0
  ({ e with session := { e.session with state := .verifying, endAddr := addr, hd := some h } } : Engine).settleSession now

/-- ImgEnd's packet. -/
def imgEndForm (hd : Hdr) (img addr : Nat) (e : Engine) : Form :=
  { imageForm 0x0204 img with addrs := [{ addr := addr, bytes := 4 * (e.image img).slices.length, off := 8, write := true, fn := hd.fn }] }

/-- IMG_END (R192). -/
def execImgEnd (hd : Hdr) (img addr : Nat) (s : State) : Host.Outcome State Fault Refusal :=
  hostCmd hd (.imgEnd hd img addr)
    (imgEndForm hd img addr)
    (inSession img (fun s => s.state == .streaming) (runImgEnd addr)) s

/-- IMG_ABORT's effect. -/
def runImgAbort (h : Hdr) (_ : Bool) (now : Nat) (e : Engine) : Engine := (e.abortSession now .sessionState).okReply now h

/-- ImgAbort's packet. -/
def imgAbortForm (img : Nat) (_ : Engine) : Form :=
  imageForm 0x0205 img

/-- IMG_ABORT (R188). -/
def execImgAbort (hd : Hdr) (img : Nat) (s : State) : Host.Outcome State Fault Refusal :=
  hostCmd hd (.imgAbort hd img) (imgAbortForm img) (inSession img (fun _ => true) runImgAbort) s

/-- The listed slices of a FAILED session made ready for new frames: their stripes erased, their pages forgotten. -/
def Engine.reopenSlices (e : Engine) : Engine :=
  let s := e.session
  let e := s.failed.foldl (fun e k => match s.site k with
    | some t => e.modTile (locOf t) (fun ti => (s.stripesOf k).foldl (fun ti q => ti.modStripe q (fun x => { x with cycles := x.cycles + 1 })) (ti.erase (s.stripesOf k)))
    | none => e) e
  { e with session := { s with
      state := .streaming, limited := some s.failed, failed := [], retried := [], hd := none, endAddr := 0
      programmed := s.programmed.filter (fun x => !s.failed.contains x.1), tier := s.tier.filter (fun x => !s.failed.contains x.1) } }

/-- IMG_PATCH's effect: the strap and the cartridges as for a begin (R186). -/
def runImgPatch (h : Hdr) (_ : Bool) (now : Nat) (e : Engine) : Engine :=
  match e.sessionRefused with
  | some (s, d) => e.reply now h s d
  | none => (e.reopenSlices.modSup (fun s => { s with nvEnable := true })).okReply now h

/-- ImgPatch's packet. -/
def imgPatchForm (img : Nat) (_ : Engine) : Form :=
  { imageForm 0x0206 img with chair := true }

/-- IMG_PATCH (R188). -/
def execImgPatch (hd : Hdr) (img : Nat) (imageId : Word) (s : State) : Host.Outcome State Fault Refusal :=
  hostCmd hd (.imgPatch hd img imageId) (imgPatchForm img)
    (fun h acc now e => inSession img (fun s => s.state == .failed && (e.image img).id == imageId) runImgPatch h acc now e) s

/-! ### IMG_TIER_LOAD (R201, R202) -/

/-- Tier pages of slice k among frames, in page order, or none where one is missing. -/
def tierContents (im : Image) (fs : List Frame) (k : Nat) (s : Slice) : Option (List (List Byte)) :=
  (List.range (s.ovf + s.spill)).mapM (fun i => (fs.find? (fun f => f.ok && f.part == im.partIndex && f.slice == k && f.page == s.resident + i)).map Frame.content)

/-- A slice whose tier pages are all there and hash to its TIER_DIGEST. -/
def checkTier (im : Image) (fs : List Frame) (k : Nat) (s : Slice) : Option (Nat × Slice × List (List Byte)) :=
  (tierContents im fs k s).bind (fun ps => if sha384 ps.flatten = s.tierDigest then some (k, s, ps) else none)

/-- Those pages with their slice and slice page. -/
def tierList (ls : List (Nat × Slice × List (List Byte))) : List (Nat × Nat × List Byte) :=
  ls.flatMap (fun x => x.2.2.zipIdx.map (fun y => (x.1, x.2.1.resident + y.2, y.1)))

/-- Reserve slots of the slices before k (R202). -/
def Image.spillBefore (im : Image) (k : Nat) : Nat :=
  ((im.slices.zipIdx.take k).map (fun x => ceilDiv (((mget (fun _ => []) x.2 im.tierLens).drop x.1.ovf).foldl (· + ·) 0) 16384)).foldl (· + ·) 0

/-- Bytes in whole 16 KiB slots. -/
def padSlots (bs : List Byte) : List Byte := bs ++ List.replicate (ceilDiv bs.length 16384 * 16384 - bs.length) 0

/-- A tile's overflow slots and reserve-cache slots set aside and filled (R201, R202, R239). -/
def Tile.loadTier (ti : Tile) (slot cache : Nat) (bs : List Byte) : Tile :=
  let ks := ti.freeSlots.take (ceilDiv bs.length 16384)
  let ti := ks.zipIdx.foldl (fun ti x =>
    { ti.setUse x.1 (.overflow slot) with kv := writeBytes (zeroRange ti.kv (x.1 * 16384) 16384) (x.1 * 16384) ((bs.drop (x.2 * 16384)).take 16384) }) ti
  ti.takeSlots cache (.rcache slot noPage 0)

/-- The tier pages of the slices that have any: slice index, slice, pages; none where a page is missing or a digest differs. -/
def Image.tierPages (im : Image) (fs : List Frame) : Option (List (Nat × Slice × List (List Byte))) :=
  (im.slices.zipIdx.filter (fun x => x.1.ovf + x.1.spill != 0)).mapM (fun x => checkTier im fs x.2 x.1)

/-- The image with its tier's pages and their lengths, and its region of host memory. -/
def Image.withTier (im : Image) (ls : List (Nat × Slice × List (List Byte))) (region bytes : Nat) (f : Fn) : Image :=
  { im with tierLens := ls.map (fun x => (x.1, x.2.2.map (fun p => (unpackPage p).length))), tier := tierList ls, region := some (region, bytes, f) }

/-- Bytes of an image's reserve tier. -/
def Image.tierBytes (im : Image) : Nat := im.spillBefore im.slices.length * 16384

/-- The overflow bytes of slice k. -/
def tierOverflow (ls : List (Nat × Slice × List (List Byte))) (k : Nat) : List Byte :=
  match ls.find? (fun x => x.1 == k) with | some x => (x.2.2.take x.2.1.ovf).flatMap unpackPage | none => []

/-- The tiles of an image's slices, without those of fenced fields, whose DRAM is not used (R5, R25). -/
def Engine.sliceLocs (e : Engine) (im : Image) : List (Nat × Loc) :=
  (im.slices.zipIdx.filterMap (fun x => (e.locInSet im.footprint x.1.vtile).map (fun t => (x.2, t)))).filter (fun x => !(e.field x.2.field).fenced)

/-- Most slots by which a tile falls short of its overflow slots, its reserve-cache slots and 512 open ones (R201). -/
def Engine.tierLack (e : Engine) (im : Image) (ls : List (Nat × Slice × List (List Byte))) (cache : Nat) : Nat :=
  let need (k : Nat) : Nat := ceilDiv (tierOverflow ls k).length 16384 + cache
  (e.sliceLocs im).foldl (fun m x => max m (max (512 + need x.1 - (e.tile x.2).openSlots) (need x.1 - (e.tile x.2).freeSlots.length))) 0

/-- The overflow and reserve-cache slots set aside on the tiles. -/
def Engine.fillTier (e : Engine) (im : Image) (ls : List (Nat × Slice × List (List Byte))) (cache : Nat) : Engine :=
  (e.sliceLocs im).foldl (fun e x => e.modTile x.2 (fun ti => ti.loadTier im.slot cache (tierOverflow ls x.1))) e

/-- The reserve pages written to the region. -/
def Engine.writeTier (e : Engine) (f : Fn) (im : Image) (region : Nat) (ls : List (Nat × Slice × List (List Byte))) : Engine :=
  ls.foldl (fun e x => if x.2.1.spill = 0 then e
    else e.dma f (region + im.spillBefore x.1 * 16384) (padSlots ((x.2.2.drop x.2.1.ovf).flatMap unpackPage))) e

/-- IMG_TIER_LOAD's effect. -/
def runTierLoad (img : Nat) (frames : List (List Byte)) (region bytes cache : Nat) (h : Hdr) (acc : Bool) (now : Nat) (e : Engine) : Engine :=
  let im := e.image img
  if im.state ≠ .incomplete then e.reply now h .imageState (imgCode im.state)
  else match im.tierPages (frames.map readFrame) with
    | none => e.reply now h .imageState (imgCode im.state)
    | some ls =>
      let im' := im.withTier ls region bytes h.fn
      let lack := e.tierLack im ls cache
      if lack ≠ 0 then e.reply now h .kvSlots lack
      else if bytes < im'.tierBytes then e.reply now h .badAddress 24
      else
        (((((e.accept now h acc 0).fillTier im ls cache).writeTier h.fn im' region ls).modImage img (fun _ =>
          { im' with state := if im.recovered.isEmpty then .ready else .degraded })).okReply now h)

/-- ImgTierLoad's packet. -/
def imgTierLoadForm (hd : Hdr) (img addr : Nat) (frames : List (List Byte)) (region bytes cache : Nat) (_ : Engine) : Form :=
  { imageForm 0x0207 img with
  reads := true, reserved := firstOf [wide 24 64 bytes, outside 32 (decide (cache ≤ 1024))]
  addrs := [{ addr := addr, bytes := 19520 * frames.length, off := 8, write := false, fn := hd.fn }, { addr := region, bytes := bytes, off := 16, write := false, fn := hd.fn },
    { addr := region, bytes := bytes, off := 16, write := true, fn := hd.fn }] }

/-- IMG_TIER_LOAD (R201). -/
def execImgTierLoad (hd : Hdr) (img addr : Nat) (frames : List (List Byte)) (region bytes cache : Nat) (s : State) : Host.Outcome State Fault Refusal :=
  hostCmd hd (.imgTierLoad hd img addr frames region bytes cache)
    (imgTierLoadForm hd img addr frames region bytes cache)
    (runTierLoad img frames region bytes cache) s

/-! ### IMG_RELEASE, IMG_QUERY, KEY_ENROL -/

/-- An image's stripes, extents, slots and regions on a tile released (R185). -/
def Tile.releaseImage (ti : Tile) (img slot : Nat) : Tile :=
  let ti := ti.freeStripes ((ti.stripes.filter (fun x => x.2.owner == some img)).map (·.1))
  let ti := (ti.clearExt slot).dropSlots (fun _ u => match u with | .overflow s => s == slot | .rcache s _ _ => s == slot | _ => false)
  let ti := { ti with resident := mset (fun _ => 0) slot 0 ti.resident, recovering := ti.recovering.filter (fun x => x.1 != slot) }
  ti.zeroRegs (fun w => regImg w == slot)

/-- IMG_RELEASE's effect (R185). A graph of the image that is still LOADING is aborted: everything placed is freed, and its command ends with
its state (Table 9.15). -/
def runImgRelease (img : Nat) (h : Hdr) (_ : Bool) (now : Nat) (e : Engine) : Engine :=
  let im := e.image img
  if im.state = .absent then e.okReply now h
  else if im.state = .imprinting ∨ e.parts.any (fun x => x.2.image == some img) = true then e.reply now h .imageState (imgCode im.state)
  else
    let e := e.endWhere now 0xC (fun r => r.image == img && r.state != .idle)
    let e := (e.graphs.filter (fun x => x.2.image == img && x.2.state != .free)).foldl (fun e x =>
      let e := e.removeGraph x.1
      match x.2.hd with | some hd => e.reply now hd .graphState (graphCode .free) | none => e) e
    let e : Engine := { e with
      tiles := e.tiles.foldl (fun m (x : Nat × Tile) => if im.footprint.testBit (x.1 / 720) then mset (fun _ => {}) x.1 (x.2.releaseImage img im.slot) m else m) e.tiles
      repairs := e.repairs.filter (fun r => r.img != img)
      chains := e.chains.filter (fun c => c.img != img) }
    (e.modImage img (fun _ => {})).okReply now h

/-- ImgRelease's packet. -/
def imgReleaseForm (img : Nat) (_ : Engine) : Form :=
  imageForm 0x0208 img

/-- IMG_RELEASE (R185). -/
def execImgRelease (hd : Hdr) (img : Nat) (s : State) : Host.Outcome State Fault Refusal :=
  hostCmd hd (.imgRelease hd img) (imgReleaseForm img) (runImgRelease img) s

/-- IMG_QUERY's effect: 22 bytes, all zero for an ABSENT index (Table 11.12). -/
def runImgQuery (img addr : Nat) (h : Hdr) (_ : Bool) (now : Nat) (e : Engine) : Engine :=
  let im := e.image img
  (e.dma h.fn addr (natBytes im.id.toNat 8 ++ natBytes im.footprint 12 ++ natBytes (imgCode im.state) 1 ++ natBytes im.slot 1)).okReply now h

/-- ImgQuery's packet. -/
def imgQueryForm (hd : Hdr) (img addr : Nat) (_ : Engine) : Form :=
  { imageForm 0x0209 img with addrs := [{ addr := addr, bytes := 22, off := 8, write := true, fn := hd.fn }] }

/-- IMG_QUERY (R347). -/
def execImgQuery (hd : Hdr) (img addr : Nat) (s : State) : Host.Outcome State Fault Refusal :=
  hostCmd hd (.imgQuery hd img addr) (imgQueryForm hd img addr)
    (runImgQuery img addr) s

/-- KEY_ENROL's effect: a slot that holds a key changes only under that key's signature over bytes 0 to 103 (R187). -/
def runKeyEnrol (slot : Nat) (key sig : List Byte) (h : Hdr) (_ : Bool) (now : Nat) (e : Engine) : Engine :=
  let old := mget (fun _ => []) slot e.sup.keys
  if !e.sup.imprintEn then e.reply now h .strapOpen 0
  else if old ≠ [] ∧ ecdsaOk old (natBytes slot 8 ++ key) sig = false then e.reply now h .key 0
  else (e.modSup (fun s => { s with keys := mset (fun _ => []) slot (if key.all (· == 0) then [] else key) s.keys })).okReply now h

/-- KeyEnrol's packet. -/
def keyEnrolForm (slot : Nat) (_ : Engine) : Form :=
  { op := 0x020A, standby := true, index := outside 0 (decide (slot < 4)) }

/-- KEY_ENROL (R187). -/
def execKeyEnrol (hd : Hdr) (slot : Nat) (key sig : List Byte) (s : State) : Host.Outcome State Fault Refusal :=
  hostCmd hd (.keyEnrol hd slot key sig) (keyEnrolForm slot) (runKeyEnrol slot key sig) s

end Sys2Proof.Machine
end

