-- ==== Sys2Proof/Machine/Monitors.lean ====
section
/-!
DEFINITION. Monitors (R474 to R480): their units, bins, samples and records.
-/
namespace Sys2Proof.Machine

/-- B and s of a monitor (Table 16.4), or none for a reserved index. -/
def monitorScale (m : Nat) : Option (Nat × Nat) :=
  if m ≤ 0x1F then some (16384, 2)
  else if 0x100 ≤ m ∧ m ≤ 0x1FF then some (256, 2)
  else if 0x200 ≤ m ∧ m ≤ 0x2FF then some (65536, 1)
  else if 0x300 ≤ m ∧ m ≤ 0x31F then some (1, 1)
  else if m = 0x400 ∨ m = 0x401 then some (1, 1)
  else if 0x500 ≤ m ∧ m ≤ 0x50F ∧ m % 8 < 5 then some (64, 2)
  else if 0x600 ≤ m ∧ m ≤ 0x65F then some (64, 2)
  else if 0x700 ≤ m ∧ m ≤ 0x75F then some (1, 2)
  else if m = 0x800 ∨ m = 0x801 then some (16, 4)
  else none

/-- Setpoint of rail r in microvolts (Table 14.1). -/
def railSetpoint : Nat → Nat
  | 0 => 1200000
  | 1 => 1100000
  | 2 => 900000
  | 3 => Config.vcoreSetpoint
  | _ => 1000000

/-- The value v that the histogram records for a recorded quantity (Table 16.4). -/
def sampleValue (m : Nat) (q : Int) : Nat :=
  if 0x500 ≤ m ∧ m ≤ 0x50F then (q - railSetpoint (m % 8)).natAbs
  else if 0x600 ≤ m ∧ m ≤ 0x65F then (q - Config.vcoreSetpoint).natAbs
  else if 0x700 ≤ m ∧ m ≤ 0x75F then (1680 - q).toNat
  else q.toNat

/-- Bin of a value (R475): the largest j with v^s at least B^s * 2^j, plus 1, bin 31 above 30; bin 0 below B. -/
def binOf (b s v : Nat) : Nat :=
  if v < b then 0 else ((List.range 31).filter (fun j => decide (b ^ s * 2 ^ j ≤ v ^ s))).length

/-- A sample into a monitor: minimum, maximum, count and bin (R474, R477). -/
def Monitor.sample (x : Monitor) (m : Nat) (q : Int) : Monitor :=
  match monitorScale m with
  | none => x
  | some (b, s) =>
    { x with
      lo := min x.lo q
      hi := max x.hi q
      count := satAdd (2 ^ 64 - 1) x.count 1
      bins := mmod (fun _ => 0) (binOf b s (sampleValue m q)) (fun n => satAdd 0xFFFFFFFF n 1) x.bins }

/-- A monitor. -/
def Engine.monitor (e : Engine) (m : Nat) : Monitor := mget (fun _ => {}) m e.monitors

/-- May a monitor sample now (R476)? Fenced fields never sample; a standby secondary gives no step or queue-depth sample. -/
def Engine.samples (e : Engine) (m : Nat) : Bool :=
  let ready := e.power.state == .ready
  let on := ready || e.power.state == .standby
  if m < 0x400 then ready && !((decide (m ≤ 0x1F) || decide (0x300 ≤ m)) && e.pair.mode == 2 && (e.part (m % 0x100)).pair == 2)
  else if 0x600 ≤ m ∧ m ≤ 0x75F then on && !(e.field (m % 0x100)).fenced
  else on

/-- MONITOR_SAMPLE: one sample of the quantity a monitor records (R474). -/
def monitorSample (m : Nat) (q : Int) (e : Engine) : Engine :=
  if (monitorScale m).isSome && e.samples m then { e with monitors := mmod (fun _ => {}) m (fun x => x.sample m q) e.monitors } else e

/-- MONITOR_SAMPLE (R474). -/
def execMonitorSample (mon : Nat) (v : Int) (s : State) : Host.Outcome State Fault Refusal := onEng s (fun _ e => monitorSample mon v e)

/-- The record of a monitor (Table 16.5). -/
def Monitor.word (x : Monitor) (m : Nat) : Nat :=
  let (b, s) := (monitorScale m).getD (0, 0)
  pack ((((List.range 32).reverse).map (fun k => (32, mget (fun _ => 0) k x.bins))) ++
    [(128, 0), (32, b), (8, s), (24, 0), (32, m), (32, 0), (64, x.cleared), (64, x.count), (64, ofSigned 64 x.hi), (64, ofSigned 64 x.lo)])

/-- Every index of Table 16.4. -/
def monitorIndices : List Nat := (List.range 0x802).filter (fun m => (monitorScale m).isSome)

/-- Monitors cleared (R479, R480). -/
def Engine.clearMonitors (e : Engine) (now : Nat) (l : List Nat) : Engine :=
  { e with monitors := l.foldl (fun ms m => mset (fun _ => ({} : Monitor)) m { cleared := now } ms) e.monitors }

end Sys2Proof.Machine
end

