-- ==== Sys2Proof/Machine/Imprint.lean ====
section
/-!
DEFINITION. Imprinting and repair writes as they go on (R188 to R194, R402, R409).
-/
namespace Sys2Proof.Machine

/-- IMPRINT_ERASE_DONE: every allocated stripe is erased, the session takes frames and the begin command is answered
(Table 6.7). -/
def eraseDone (now : Nat) (e : Engine) : Engine :=
  let s := e.session
  if s.state ≠ .erasing then e
  else
    let e := s.alloc.foldl (fun e x => e.modTile (locOf x.1) (fun ti => ti.erase [x.2])) e
    let e := { e with session := { s with state := .streaming, hd := none } }
    match s.hd with | some h => e.reply now h .ok s.image | none => e

/-- IMPRINT_ERASE_DONE (R188). -/
def execImprintEraseDone (s : State) : Host.Outcome State Fault Refusal := onEng s eraseDone

/-- IMPRINT_FRAME (R189): a frame that reaches the field chain. -/
def execImprintFrame (frame : List Byte) (s : State) : Host.Outcome State Fault Refusal := onEng s (fun now e => e.takeFrame now frame)

/-- Slices of the session on a field. -/
def Session.slicesOf (s : Session) (field : Nat) : List Nat := (s.sites.zipIdx.filter (fun x => x.1.any (fun t => t / 720 == field))).map (·.2)

/-- Are the pages of a slice there that satisfy a test? -/
def Session.has (s : Session) (k : Nat) (sl : Slice) (f : Nat → Bool) : Bool :=
  ((List.range sl.pages).filter f).all (fun i => s.programmed.contains (k, i))

/-- FIELD_VERIFY: the slices of a field are read back, checked and hashed, once every NV page of theirs is programmed or the stream
has ended; `bad` are those whose pages fail the page code. While the stream goes on, a slice whose tier pages have not all arrived is
left for a later FIELD_VERIFY (DEDUCED, log 142). A single failure of a group is rewritten by recovery (R192). -/
def verifyField (field : Nat) (bad : List Nat) (now : Nat) (e : Engine) : Engine :=
  let s := e.session
  let im := e.image s.image
  let xs := (s.slicesOf field).filterMap (fun k => (im.slices[k]?).map (fun sl => (k, sl)))
  let due := xs.filter (fun x => !s.verified.contains x.1 && !s.failed.contains x.1 && !e.sliceCovered x.1 && (s.state == .verifying || s.has x.1 x.2 (fun _ => true)))
  let whole := xs.all (fun x => s.has x.1 x.2 (fun i => !x.2.inTier i))
  if !(s.state == .verifying || (s.state == .streaming && whole)) then e
  else
    let good := (due.filter (fun x => !bad.contains x.1 && e.sliceGood x.1 x.2)).map (·.1)
    let wrong := (due.filter (fun x => bad.contains x.1 || !e.sliceGood x.1 x.2)).map (·.1)
    (({ e with session := { s with verified := good ++ s.verified, failed := wrong ++ s.failed } } : Engine).recoverAll).settleSession now

/-- FIELD_VERIFY (R192). -/
def execFieldVerify (field : Nat) (bad : List Nat) (s : State) : Host.Outcome State Fault Refusal :=
  onUnit (decide (field < 96)) s (verifyField field bad)

/-- A slice that a tile serves through recovery chains because the site that should hold it, `from'`, does not: stripes are allocated
there for its repair write (R192, R402). -/
def Engine.serveByChain (e : Engine) (now img k : Nat) (s : Slice) (from' t : Loc) : Engine :=
  let slot := (e.image img).slot
  let e := e.modTile t (fun ti => { ti with recovering := ti.recovering ++ [(slot, from')], resident := mset (fun _ => 0) slot s.resident ti.resident })
  match e.chooseStripes t s.stripes (e.goodStripes t) with
  | none => e.siteEvent now t 0x0203 0 0
  | some ks => { e.allocStripes now t img ks with repairs := e.repairs ++ [{ img := img, slice := k, target := t, stripes := ks, pages := [] }] }

/-- A slice committed on its tile: extents and N. The stripes of a covered slice are freed, and where its virtual tile has a new site
already, that one serves it through its parity group (R176, R181, R188, R192). -/
def Engine.commitSlice (e : Engine) (now k : Nat) (s : Slice) : Engine :=
  let img := e.session.image
  let im := e.image img
  if e.sliceCovered k then
    let e' := match e.session.site k with | some t => e.modTile (locOf t) (fun ti => ti.freeStripes (e.session.stripesOf k)) | none => e
    let e' := e'.modImage img (fun im => { im with recovered := im.recovered ++ [k] })
    match e'.locInSet im.footprint s.vtile with
    | none => e'
    | some t =>
      if e'.siteState t != .active || (e'.field t.field).fenced then e'
      else e'.serveByChain now img k s (match e.session.site k with | some x => locOf x | none => t) t
  else match e.session.site k with
    | some t => e.modTile (locOf t) (fun ti => { ti.writeExt im.slot (e.session.stripesOf k) with resident := mset (fun _ => 0) im.slot s.resident ti.resident })
    | none => e

/-- IMPRINT_COMMIT: extent tables and the image entry written, the image INCOMPLETE, DEGRADED or READY, and the end command
answered (Table 6.7). -/
def commitImage (now : Nat) (e : Engine) : Engine :=
  let s := e.session
  if s.state ≠ .committing then e
  else
    let im := e.image s.image
    let e := im.slices.zipIdx.foldl (fun e x => e.commitSlice now x.2 x.1) e
    let e := e.modImage s.image (fun im => { im with
      state := if im.slices.any (fun x => x.ovf + x.spill != 0) then .incomplete else if im.recovered.isEmpty then .ready else .degraded })
    let e := e.closeSession
    match s.hd with | some h => e.reply now h .ok 0 | none => e

/-- IMPRINT_COMMIT (R188). -/
def execImprintCommit (s : State) : Host.Outcome State Fault Refusal := onEng s commitImage

/-! ### Repair writes (R194, R402, R409) -/

/-- Is some partition bound to an image of which two members of a group are lost (R407)? -/
def Engine.imageLost (e : Engine) (img : Nat) : Bool := e.parts.any (fun x => x.2.image == some img && x.2.causes.contains .imageLost)

/-- Has a slice on its tile something to repair: a page read through recovery, a covered site's slice, a flagged stripe
(R194, R198, R402, R409)? -/
def Engine.repairDue (e : Engine) (img k : Nat) (t : Loc) : Bool :=
  let im := e.image img
  let ti := e.tile t
  im.recovered.contains k || ti.recovering.any (fun x => x.1 == im.slot) || ti.nvBad.any (fun p => (extIndex (ti.extentsOf im.slot) p).isSome) ||
    ti.flagged.any (fun q => (ti.stripesOf im.slot).contains q)

/-- The NV pages of a slice, in the order in which they are placed. -/
def Engine.nvContents (e : Engine) (img k : Nat) (s : Slice) : List (List Byte) :=
  ((List.range s.pages).filter (fun i => !s.inTier i)).map (e.slicePage img k s)

/-- REPAIR_WRITE: the slice's pages, copied or recovered, go to new stripes of the target. It pauses while a cartridge is
absent or uncharged, and writes nothing beneath a fenced field; without free stripes the ledger records a warning (R5, R194, R402,
R409). -/
def startRepair (img k : Nat) (t : Loc) (now : Nat) (e : Engine) : Engine :=
  let im := e.image img
  match im.slices[k]? with
  | none => e
  | some s =>
    if !(im.state == .ready || im.state == .degraded || im.state == .incomplete) || e.locInSet im.footprint s.vtile != some t || !e.cartsOk || e.imageLost img || !e.repairDue img k t ||
        (e.field t.field).fenced then e
    else
      let pages := e.nvContents img k s
      if e.repairs.any (fun r => r.img == img && r.slice == k) then
        { e with repairs := e.repairs.map (fun r => if r.img = img ∧ r.slice = k ∧ r.pages = [] then { r with pages := pages } else r) }
      else match e.chooseStripes t s.stripes (e.goodStripes t) with
        | none => e.siteEvent now t 0x0203 (((e.tile t).nvBad.headD 0) / 32) 0
        | some ks =>
          let e := e.allocStripes now t img ks
          { e with repairs := e.repairs ++ [{ img := img, slice := k, target := t, stripes := ks, pages := pages }] }

/-- REPAIR_WRITE (R194). -/
def execRepairWrite (img slice : Nat) (target : Loc) (s : State) : Host.Outcome State Fault Refusal :=
  onUnit (locOk target && decide (img < 64)) s (startRepair img slice target)

/-- Has every page of a repair been written? -/
def Engine.repairFilled (e : Engine) (r : Repair) : Bool :=
  match (e.image r.img).slices[r.slice]? with | some s => r.pages.length == s.nvPages | none => false

/-- Does a rewritten slice verify against SLICE_DIGEST (R194)? -/
def Engine.repairGood (e : Engine) (r : Repair) : Bool :=
  match (e.image r.img).slices[r.slice]? with
  | none => false
  | some s =>
    let page (i : Nat) : List Byte := if s.inTier i then e.slicePage r.img r.slice s i else r.pages.getD (s.position i) zeroPage
    sha384 ((List.range s.pages).flatMap page) == s.digest

/-- A verified repair takes the place of the old stripes on its tile: extents, N, descriptors (R194, R199). -/
def Engine.finishRepair (e : Engine) (now : Nat) (r : Repair) : Engine :=
  let im := e.image r.img
  let n := match im.slices[r.slice]? with | some s => s.resident | none => 0
  let e := e.modTile r.target (fun ti =>
    let old := ti.stripesOf im.slot
    let ti := (ti.erase r.stripes).freeStripes old
    let ti := { ti with nvBad := ti.nvBad.filter (fun p => !old.contains (p / 32)), flagged := ti.flagged.filter (fun k => !old.contains k) }
    let ti := r.pages.zipIdx.foldl (fun ti x => match stripePage r.stripes x.2 with | some p => ti.program p x.1 | none => ti) ti
    let ti := ti.writeExt im.slot r.stripes
    { ti with resident := mset (fun _ => 0) im.slot n ti.resident, recovering := ti.recovering.filter (fun x => x.1 != im.slot) })
  let e := { e with repairs := e.repairs.filter (fun x => !(x.img == r.img && x.slice == r.slice)) }
  let e := (e.refetch r.img r.target).modImage r.img (fun im => { im with recovered := im.recovered.filter (· != r.slice) })
  let e := e.modImage r.img (fun im => if im.state = .degraded ∧ e.imageWhole r.img = true then { im with state := .ready } else im)
  e.siteEvent now r.target 0x0303 r.slice r.img

/-- A repair that does not verify: its stripes are freed and the previous placement stays in use (R194). -/
def Engine.dropRepair (e : Engine) (r : Repair) : Engine :=
  let e := e.modTile r.target (fun ti => ti.freeStripes r.stripes)
  { e with repairs := e.repairs.filter (fun x => !(x.img == r.img && x.slice == r.slice)) }

/-- Does no step run on a site's partition? -/
def Engine.siteIdle (e : Engine) (t : Loc) : Bool := match e.partOf t.field with | some p => e.atBoundary [p] | none => true

/-- REPAIR_WRITE_VERIFIED: the k-th repair, of a slice on its own tile, takes effect at a boundary of the partition (R194,
R409). -/
def repairVerified (k : Nat) (ok : Bool) (now : Nat) (e : Engine) : Engine :=
  match e.repairs[k]? with
  | none => e
  | some r =>
    if e.repairFilled r = false ∨ (e.tile r.target).recovering.any (fun x => x.1 == (e.image r.img).slot) = true ∨ e.cartsOk = false ∨
        (e.field r.target.field).fenced = true then e
    else if !(ok && e.repairGood r) then e.dropRepair r
    else if e.siteIdle r.target then e.finishRepair now r
    else e

/-- REPAIR_WRITE_VERIFIED (R194). -/
def execRepairWriteVerified (k : Nat) (ok : Bool) (s : State) : Host.Outcome State Fault Refusal := onEng s (repairVerified k ok)

end Sys2Proof.Machine
end

