-- ==== Sys2Proof/Machine/Tasks.lean ====
section
/-!
DEFINITION. Dispatch: task-table entries (Tables 9.3, 9.4), claims and gangs (R267, R268), the grant and the release of
instances (R85, R86, R271), and dependency signals (R269, R272 to R274).
-/
namespace Sys2Proof.Machine

/-! ### Task-table entries -/

/-- Address of node entry i. -/
def taskAddr (i : Nat) : Nat := 0x1E8000 + 32 * i
/-- Node entry i of a tile. -/
def Tile.task (ti : Tile) (i : Nat) : Nat := readNat ti.sp (taskAddr i) 32
/-- Edge word i of a tile. -/
def Tile.edge (ti : Tile) (i : Nat) : Nat := readNat ti.sp (0x1EE000 + 8 * i) 8

/-- NODE. -/
def tNode (w : Nat) : Nat := fld w 255 244
/-- GRAPH. -/
def tGraph (w : Nat) : Nat := fld w 243 238
/-- ENTRY. -/
def tEntry (w : Nat) : Nat := fld w 237 217
/-- Threads. -/
def tThreads (w : Nat) : Nat := fld w 216 211 + 1
/-- VCTX. -/
def tVctx (w : Nat) : Nat := fld w 210 206
/-- BANKS. -/
def tBanks (w : Nat) : Nat := fld w 205 202
/-- PRED. -/
def tPred (w : Nat) : Nat := fld w 201 194
/-- COUNT. -/
def tCount (w : Nat) : Nat := fld w 193 186
/-- STAG. -/
def tStag (w : Nat) : Nat := fld w 185 182
/-- GANG. -/
def tGang (w : Nat) : Nat := fld w 181 174
/-- Region claims: index, and true where exclusive. -/
def tClaims (w : Nat) : List (Nat × Bool) :=
  (List.range (min 8 (fld w 85 82))).map (fun k => (fld w (86 + 7 * k + 5) (86 + 7 * k), bitAt w (86 + 7 * k + 6)))

/-- Node entry i with COUNT and STAG written. -/
def Tile.setCount (ti : Tile) (i count stag : Nat) : Tile :=
  { ti with sp := writeNat ti.sp (taskAddr i) (setFld (setFld (ti.task i) 193 186 count) 185 182 stag) 32 }

/-- Where the bound graph of a partition stands on a tile. -/
def Engine.placement (e : Engine) (p : Nat) (t : Loc) : Option Placement :=
  ((e.graph (e.part p).graph).placed.find? (fun x => x.1 == locKey t)).map (·.2)

/-- Task-table indices of the bound graph on a tile, in rising order. -/
def Engine.taskIdx (e : Engine) (p : Nat) (t : Loc) : List Nat :=
  match e.placement p t with | some pl => pl.nodes.map (·.2) | none => []

/-- The partition whose step runs on a tile. -/
def Engine.steppingOn (e : Engine) (t : Loc) : Option Nat :=
  match e.partOf t.field with
  | none => none
  | some p =>
    match (e.part p).step with
    | some s => if !s.halted && e.siteState t == .active && ((e.field t.field).vOf t.site).isSome then some p else none
    | none => none

/-! ### Claims -/

/-- Does entry i await its grant: COUNT equals PRED and it has not been granted in this execution (R270)? -/
def Tile.eligible (ti : Tile) (i : Nat) : Bool := !ti.granted.contains i && tCount (ti.task i) == tPred (ti.task i)

/-- Free threads, lowest first. -/
def Tile.freeThreads (ti : Tile) : List Nat := (List.range 64).filter (fun k => (ti.thread k).run == .free)
/-- Free vector contexts, lowest first. -/
def Tile.freeCtxs (ti : Tile) : List Nat := (List.range 16).filter (fun c => ti.inst.all (fun x => !x.2.ctxs.contains c))

/-- Is the claim of a node entry free (R267)? -/
def Tile.claimFree (ti : Tile) (w : Nat) : Bool :=
  decide (tThreads w ≤ ti.freeThreads.length) && decide (tVctx w ≤ ti.freeCtxs.length) &&
  ti.inst.all (fun x => x.2.banks &&& tBanks w == 0) &&
  (tClaims w).all (fun c => ti.inst.all (fun x => x.2.claims.all (fun d => d.1 != c.1 || !(c.2 || d.2))))

/-- A granted vector context: its registers are zero (R88). -/
def Tile.clearCtx (ti : Tile) (c : Nat) : Tile := { ti with vregs := mdrop (fun k => k / 32 == c) ti.vregs }
/-- A granted bank: its registers cleared and its pending-arrival count 0 (R95). -/
def Tile.clearBank (ti : Tile) (b : Nat) : Tile :=
  { ti with lregs := mdrop (fun k => k / 128 == b) ti.lregs, pend := mset (fun _ => 0) b 0 ti.pend }

/-- A thread at its grant (R85, Tables 3.1, 3.2). -/
def startThread (w slot x1 x3 x5 index : Nat) (ctx : Option Nat) : Thread :=
  let v (n : Nat) : Word := BitVec.ofNat 64 n
  { pc := BitVec.ofNat 21 (tEntry w / 8 * 8), vctx := ctx, task := slot, run := .running,
    regs := [(1, v x1), (2, v (fld w 63 0)), (3, v x3), (4, v index), (5, v x5)].filter (fun x => x.2 != 0) }

/-- The grant of entry i: the lowest free threads and contexts, in order; the task slot is the entry's index (R85, R95,
R132; log entry 24). -/
def Tile.grant (ti : Tile) (p i x3 x5 : Nat) : Tile :=
  let w := ti.task i
  let ths := ti.freeThreads.take (tThreads w)
  let ctxs := ti.freeCtxs.take (tVctx w)
  let x1 := match tClaims w with | c :: _ => regBase (ti.reg c.1) * 4096 | [] => 0
  let ti := ctxs.foldl Tile.clearCtx ti
  let ti := (setBits (tBanks w) 4).foldl Tile.clearBank ti
  let ti := (ths.zipIdx).foldl (fun ti x => ti.modThread x.1 (fun _ => startThread w i x1 x3 x5 x.2 ctxs[x.2]?)) ti
  { ti with
    granted := ti.granted ++ [i]
    inst := ti.inst ++ [(i, {
      part := p, graph := tGraph w, node := tNode w, entry := i, threads := ths, ctxs := ctxs, banks := tBanks w,
      claims := tClaims w, redFirst := fld w 173 166, redCnt := fld w 165 158 })] }

/-- Grants of several entries together, or none when the combined claim is not free (R268). -/
def Tile.grantAll (ti : Tile) (p x3 x5 : Nat) : List Nat → Option Tile
  | [] => some ti
  | i :: r => if ti.claimFree (ti.task i) then (ti.grant p i x3 x5).grantAll p x3 x5 r else none

/-- The entries granted with entry i: its gang's members on the tile, or itself (R268). -/
def Tile.gangOf (ti : Tile) (idx : List Nat) (i : Nat) : List Nat :=
  if tGang (ti.task i) = 0 then [i] else idx.filter (fun j => tGang (ti.task j) == tGang (ti.task i))

/-- A counter of DISP_STAT raised by n, saturating (R273). -/
def Deck.dispCount (d : Deck) (c n : Nat) : Deck := { d with disp := mmod (fun _ => 0) c (fun k => satAdd 0xFFFF k n) d.disp }

/-- Is entry j, which is eligible, one whose claim or whose gang's combined claim is free now (R267, R268, R271)? -/
def Tile.grantable (ti : Tile) (p : Nat) (idx : List Nat) (j : Nat) : Bool :=
  (ti.gangOf idx j).all ti.eligible && (ti.grantAll p 0 0 (ti.gangOf idx j)).isSome

/-- TASK_GRANT: entry `i` of the tile, with its gang, when every one of them is eligible and the combined claim is free.
Entries are offered in ascending index: one before it whose claim is free is granted first, and an eligible one whose claim is not
free counts in PASSED (R271). A tile whose handoff has not arrived grants nothing (R366). -/
def grantTask (t : Loc) (i now : Nat) (e : Engine) : Engine :=
  let _ := now
  match e.steppingOn t with
  | none => e
  | some p =>
    let ti := e.tile t
    let idx := e.taskIdx p t
    let gang := ti.gangOf idx i
    let first := gang.foldl min i
    if !(idx.contains i && gang.all ti.eligible) || ((e.part p).step.any (fun s => s.waits.contains t)) ||
        idx.any (fun j => decide (j < first) && !gang.contains j && ti.eligible j && ti.grantable p idx j) then e
    else
      match ti.grantAll p ((e.vOfLoc p t).getD 0) (e.part p).stepStart gang with
      | none => e
      | some ti' =>
        let passed := gang.filter (fun g => idx.any (fun j => decide (j < g) && !gang.contains j && ti.eligible j &&
          (ti.grantAll p 0 0 (ti.gangOf idx j)).isNone))
        (e.modTile t (fun _ => ti')).modDeck (deckOf t.field) (fun d => d.dispCount 2 passed.length)

/-- TASK_GRANT (R271). -/
def execTaskGrant (t : Loc) (entry : Nat) (s : State) : Host.Outcome State Fault Refusal :=
  onUnit (locOk t) s (grantTask t entry)

/-! ### Release -/

/-- Work that an instance has queued and that has not completed (R133). -/
def Tile.queuedWork (ti : Tile) (slot : Nat) : Bool :=
  (ti.matQ ++ ti.matU).any (·.slot == slot) || ti.attQ.any (·.slot == slot) || ti.movQ.any (·.slot == slot) || ti.nvQ.any (·.slot == slot) ||
  ti.dramQ.any (·.slot == slot) || ti.sendQ.any (·.slot == slot)

/-- The instance's threads, contexts, banks and claim released, and its posted buffers withdrawn (R86, R148). -/
def Tile.freeInst (ti : Tile) (slot : Nat) : Tile :=
  match ti.instOf slot with
  | none => ti
  | some i =>
    let ti := i.threads.foldl (fun ti k => ti.modThread k (fun _ => {})) ti
    { ti with
      inst := ti.inst.filter (fun x => x.1 != slot), finished := ti.finished ++ [slot]
      mbox := ti.mbox.filter (fun m => m.2.slot != some slot) }

/-- Edge words of a node entry. -/
def Tile.edgesOf (ti : Tile) (w : Nat) : List Nat := (List.range (fld w 147 142)).map (fun k => ti.edge (fld w 157 148 + k))

/-- Signals that the end of an instance on tile t sends: LOCAL to the same tile where the target has an entry there, ONE to
the tile that VTILE names (Table 9.4, R269). -/
def Engine.endSignals (e : Engine) (p : Nat) (t : Loc) (w : Nat) : List Signal :=
  let ti := e.tile t
  (ti.edgesOf w).filterMap (fun x =>
    let target := fld x 61 50
    let sig (d : Loc) : Signal := { part := p, dst := d, graph := tGraph w, node := target, stag := tStag w }
    match fld x 63 62 with
    | 0 =>
      let j := fld x 49 40
      if (e.taskIdx p t).contains j && tNode (ti.task j) == target then some (sig t) else none
    | 2 => (e.locOfV p (fld x 39 16)).map sig
    | _ => none)

/-- TASK_RELEASE: every thread of the instance has ended and its queued work has completed (R86, R133). -/
def releaseTask (t : Loc) (slot now : Nat) (e : Engine) : Engine :=
  let _ := now
  match e.steppingOn t, (e.tile t).instOf slot with
  | some p, some i =>
    let ti := e.tile t
    if i.threads.all (fun k => (ti.thread k).ended) && !ti.queuedWork slot then
      let sig := e.endSignals p t (ti.task i.entry)
      { e.modTile t (fun ti => ti.freeInst slot) with signals := e.signals ++ sig }
    else e
  | _, _ => e

/-- TASK_RELEASE (R86). -/
def execTaskRelease (t : Loc) (slot : Nat) (s : State) : Host.Outcome State Fault Refusal :=
  onUnit (locOk t) s (releaseTask t slot)

/-! ### Signals -/

/-- The task-table index of a node of a graph on a tile. -/
def Engine.entryOf (e : Engine) (g : Nat) (t : Loc) (node : Nat) : Option Nat :=
  (((e.graph g).placed.find? (fun x => x.1 == locKey t)).bind (fun x => x.2.nodes.find? (fun y => y.1 == node))).map (·.2)

/-- The step of a partition treated as a graph fault (R272, R305). -/
def Part.faultStep (p : Part) : Part := { p with step := p.step.map (fun s => { s with graphFault := true }) }

/-- A signal that reaches its entry (R272). -/
def Engine.deliver (e : Engine) (g : Signal) : Engine :=
  match e.entryOf g.graph g.dst g.node with
  | none => e
  | some i =>
    let w := (e.tile g.dst).task i
    let d := deckOf g.dst.field
    if tStag w ≠ g.stag then e.modDeck d (fun k => k.dispCount 0 1)
    else if tCount w ≥ tPred w then (e.modDeck d (fun k => k.dispCount 1 1)).modPart g.part Part.faultStep
    else e.modTile g.dst (fun ti => ti.setCount i (tCount w + 1) (tStag w))

/-- DEP_SIGNAL: the k-th signal under way reaches its tile (R272). -/
def execDepSignal (k : Nat) (s : State) : Host.Outcome State Fault Refusal :=
  onEng s (fun _ e =>
    match e.signals[k]? with
    | none => e
    | some g => ({ e with signals := e.signals.eraseIdx k } : Engine).deliver g)

/-- Virtual tiles of a node's spread that are mapped, as sites. -/
def Engine.spreadLocs (e : Engine) (p : Nat) (n : Node) : List Loc := n.spread.filterMap (e.locOfV p)

/-- Has the node's instance on a tile ended in this execution? -/
def Engine.nodeEnded (e : Engine) (p node : Nat) (t : Loc) : Bool :=
  match e.entryOf (e.part p).graph t node with
  | some i => (e.tile t).finished.contains i
  | none => true

/-- ALL_SIGNAL_COMBINE: a cluster in which every instance of the node has ended reports to the root; with the last cluster's
report the root broadcasts one signal to every tile of each ALL target's spread (R274). -/
def combineAll (p node cluster now : Nat) (e : Engine) : Engine :=
  let _ := now
  match (e.part p).step, (e.graph (e.part p).graph).nodes[node]? with
  | some s, some n =>
    let locs := e.spreadLocs p n
    let mine := locs.filter (fun t => clusterOf t == cluster)
    if s.halted || mine.isEmpty || s.allEnds.contains (node, cluster) || !(mine.all (e.nodeEnded p node)) || n.edges.all (fun x => x.1 != 1) then e
    else
      let ends := s.allEnds ++ [(node, cluster)]
      let all := locs.all (fun t => ends.contains (node, clusterOf t))
      let e := e.modPart p (fun q => { q with step := some { s with allEnds := ends, allDone := if all then s.allDone ++ [node] else s.allDone } })
      if all then
        let g := (e.part p).graph
        let sig := (n.edges.filter (fun x => x.1 == 1)).flatMap (fun x =>
          match (e.graph g).nodes[x.2.1]? with
          | some m => (e.spreadLocs p m).map (fun t => ({ part := p, dst := t, graph := g, node := x.2.1, stag := (e.part p).stepNo % 16 } : Signal))
          | none => [])
        { e with signals := e.signals ++ sig }
      else e
  | _, _ => e

/-- ALL_SIGNAL_COMBINE (R274). -/
def execAllSignalCombine (part node cluster : Nat) (s : State) : Host.Outcome State Fault Refusal :=
  onUnit (decide (part < 32)) s (combineAll part node cluster)

end Sys2Proof.Machine
end

