-- ==== Sys2Proof/Machine/StepOps.lean ====
section
/-!
DEFINITION. What a step writes and clears: step inputs and row directories (R270, R276 to R278, R471), the halt of an
execution (R395), abandonment (R113, R398), and the resolution of KV slots that hold a lost word (R410, R411).
-/
namespace Sys2Proof.Machine

/-! ### Step inputs (R277, R278) -/

/-- The regions of a role that the bound graph has on a tile, one for each class of the tile that declares it: class, base and
bytes (R265, Table 9.10). -/
def Engine.roleRegions (e : Engine) (p : Nat) (t : Loc) (role : Nat) : List (Nat × Nat × Nat) :=
  let g := e.graph (e.part p).graph
  match e.placement p t with
  | none => []
  | some pl => (pl.regions.filter (fun r => ((g.classes.getD r.1 {}).decls.getD r.2.1 {}).role == role)).map (fun r =>
      (r.1, r.2.2.2, ((g.classes.getD r.1 {}).decls.getD r.2.1 {}).size * 4096))

/-- The region of a role on a tile of the SAMPLE (or LOSS) node's spread: that of the node's class (R265, R291, R305). -/
def Engine.sampleRegion (e : Engine) (p : Nat) (t : Loc) (role : Nat) : Option (Nat × Nat) :=
  let g := e.graph (e.part p).graph
  ((e.roleRegions p t role).find? (fun r => (g.nodes[g.sample]?).any (fun n => n.cls == r.1))).map (·.2)

/-- The sites on which the bound graph stands. -/
def Engine.graphTiles (e : Engine) (p : Nat) : List Loc := ((e.graph (e.part p).graph).placed).map (fun x => locOf x.1)

/-- ATT_MODE in effect: off in reference mode (note N1). -/
def Part.attOn (q : Part) : Bool := q.modes.att && !q.modes.res
/-- SPEC in effect: off in training (note N3). -/
def Part.specOn (q : Part) : Bool := q.modes.spec && !q.modes.train

/-- The mode word of the batch header (R277, R471). -/
def Part.modeWord (q : Part) : Nat :=
  q.stepNo % 16 + 16 * bnat q.modes.res + 32 * bnat q.attOn + 64 * bnat q.specOn + 128 * bnat q.modes.train + 256 * (q.modes.retrKm1 % 256) + 65536 * q.adaptSel

/-- A batch entry as 256 bits (Table 9.6). -/
def BatchEntry.word (b : BatchEntry) : Nat :=
  pack [(32, b.token), (32, b.target), (32, b.slot), (32, b.logpos), (16, b.tmask), (15, b.req), (5, b.node), (2, b.kind), (5, b.parent), (21, 0), (32, b.len), (32, 0)]

/-- The batch table (R277). -/
def Part.batchTable (q : Part) (start : Nat) (batch : List BatchEntry) : List Byte :=
  natBytes batch.length 4 ++ natBytes q.modeWord 4 ++ natBytes start 8 ++ natBytes 0 48 ++ batch.flatMap (fun b => natBytes b.word 32)

/-- The stub of a key page of a row on a tile: slot and index (R262). -/
def Tile.stubOf (ti : Tile) (q σ r : Nat) : Option (Nat × Nat) :=
  ti.slotUse.findSome? (fun x => match x.2 with
    | .stub l => (l.find? (fun y => y.2.1 == q && y.2.2.1 == σ && y.2.2.2 == r)).map (fun y => (x.1, y.1))
    | _ => none)

/-- The cache slot that holds a reserve page of a partition on a tile (R263). -/
def Tile.cachedPage (ti : Tile) (p page : Nat) : Option Nat :=
  (ti.slotUse.find? (fun x => match x.2 with | .kvcache k g _ => k == p && g == page | _ => false)).map (·.1)

/-- A row entry (Table 8.7): page IDs of key pages 0 to 2 and value pages 3 to 5. -/
def rowEntry (row : Nat) (ids : List Nat) (stub : Option Nat) : Nat :=
  pack ([(32, row)] ++ (List.range 6).map (fun i => (32, ids.getD (5 - i) noPage)) ++ [(26, 0), (1, bnat stub.isSome), (5, stub.getD 0)])

/-- Page IDs of a unit's streams in a row, in the order of Table 8.7. -/
def unitIds (ss : List (Nat × Stream)) (id : Nat → Nat) : List Nat :=
  let ks := ((ss.filter (fun x => !x.2.isValue)).map (fun x => id x.1)).take 3
  let vs := ((ss.filter (fun x => x.2.isValue)).map (fun x => id x.1)).take 3
  ks ++ List.replicate (3 - ks.length) noPage ++ vs ++ List.replicate (3 - vs.length) noPage

/-- The row entries of a request's unit on a tile, in ascending row (R278): a row in the reserve tier has one entry for the stub of each of
its key pages, for a stub entry names one stub (Table 8.7; log entry 158), and one for its cache slots. -/
def Engine.unitRows (e : Engine) (p q : Nat) (t : Loc) (w s : Nat) (ss : List (Nat × Stream)) : List Nat :=
  (List.range (e.req q).rows).flatMap (fun r =>
    let id (σ : Nat) : Nat := e.pageAt q s σ r
    match ss with
    | [] => []
    | (σ, _) :: _ =>
      if isReserve (id σ) then
        match (ss.filter (fun x => !x.2.isValue)).mapM (fun x => (e.tile t).stubOf q x.1 r) with
        | none => []
        | some stubs =>
          stubs.map (fun x => rowEntry r [pageId w x.1] (some x.2)) ++
            (match ss.mapM (fun x => (e.tile t).cachedPage p (id x.1 % 2 ^ 30)) with
             | some _ => [rowEntry r (unitIds ss (fun σ => match (e.tile t).cachedPage p (id σ % 2 ^ 30) with | some c => pageId w c | none => noPage)) none]
             | none => [])
      else if (e.slabOf p (id σ)).map (·.1) = some t then [rowEntry r (unitIds ss id) none]
      else [])

/-- The row directory of a tile (R278): one group for each request and each unit homed on it. -/
def Engine.rowDir (e : Engine) (p : Nat) (t : Loc) (batch : List BatchEntry) : List Byte :=
  let g := e.graph (e.part p).graph
  let w := (e.vOfLoc p t).getD 0
  let qs := (batch.map (·.req)).eraseDups
  let groups := qs.flatMap (fun q => (g.units.filter (fun u => (g.homesOf u).contains w)).map (fun u =>
    let rows := e.unitRows p q t w g.streams.length (g.unitStreams u)
    natBytes (pack [(200, 0), (16, rows.length), (8, u % 256), (16, u / 256), (1, 0), (15, q)]) 32 ++ rows.flatMap (fun r => natBytes r 32)))
  natBytes groups.length 4 ++ natBytes (64 + groups.flatten.length) 4 ++ natBytes 0 56 ++ groups.flatten

/-- Bytes written from an offset into every region of a role on a tile, as far as each reaches (R277, R278). -/
def Engine.toRoleAt (e : Engine) (p : Nat) (t : Loc) (role off : Nat) (bs : List Byte) : Engine :=
  (e.roleRegions p t role).foldl (fun e r => e.modTile t (fun ti => ti.store (r.2.1 + off) (bs.take (r.2.2 - off)))) e

/-- The same from the start of each region. -/
def Engine.toRole (e : Engine) (p : Nat) (t : Loc) (role : Nat) (bs : List Byte) : Engine := e.toRoleAt p t role 0 bs

/-- A tile made ready for an execution: COUNT 0 and STAG in every node entry of the graph, TILE_EXC and the step counters
cleared, nothing granted (R270, R276). -/
def Tile.readyStep (ti : Tile) (idx : List Nat) (stag : Nat) : Tile :=
  idx.foldl (fun ti i => ti.setCount i 0 stag) { ti with exc := {}, stepCnt := [], granted := [], finished := [] }

/-- The step inputs of a partition's running step written on every tile of the graph, and TILE_EXC cleared on every tile of the
partition (R112, R270, R276 to R278). -/
def Engine.writeInputs (e : Engine) (p : Nat) : Engine :=
  let q := e.part p
  match q.step with
  | none => e
  | some s =>
    (e.graphTiles p).foldl (fun e t =>
      let e := (e.toRole p t 1 (q.batchTable s.start s.batch)).toRole p t 2 (e.rowDir p t s.batch)
      e.modTile t (fun ti => ti.readyStep (e.taskIdx p t) (q.stepNo % 16))) (e.modPartTiles p (fun ti => { ti with exc := {} }))

/-! ### Halt (R395) -/

/-- A tile after the halt of its step: queued and started work discarded, filling bits and pending counts cleared, posted
buffers withdrawn, the instances gone. -/
def Tile.halt (ti : Tile) : Tile :=
  let ti := ti.inst.foldl (fun ti x => x.2.threads.foldl (fun ti k => ti.modThread k (fun _ => {})) ti) ti
  { ti with
    filling := [], pend := [], matQ := [], matU := [], attQ := [], movQ := [], nvQ := [], dramQ := [], sendQ := [], mbox := [], held := [], foldIn := [], recv := []
    inst := [], granted := [], finished := [] }

/-- A counter of FAB_STAT raised by n: 0 PART_DROP, 1 IDLE_DROP, 2 FOLD_KEEP, 3 HEM_WAIT. -/
def Deck.fabCount (d : Deck) (c n : Nat) : Deck := { d with fab := mmod (fun _ => 0) c (fun k => satAdd 0xFFFF k n) d.fab }

/-- Does the partition run no step, or one that has halted? -/
def Part.atRest (q : Part) : Bool := match q.step with | some s => s.halted | none => true

/-- An express stop disabled and recorded (R500). -/
def Engine.disableStop (e : Engine) (now field cluster : Nat) (found : Nat) : Engine :=
  (e.modField field (fun f => { f with xstop := f.xstop ||| 2 ^ cluster })).event now (deckOf field)
    { code := 0x0309, field := field, part := (e.partOf field).getD 0, pvalid := (e.partOf field).isSome, arg0 := cluster, arg1 := found }

/-- The faulty express stops disabled, once every partition is at a step boundary; no step begins or executes again before (R500). -/
def Engine.disableStops (e : Engine) (now : Nat) : Engine :=
  if (List.range 32).all (fun p => (e.part p).atRest) then
    { e.xstopDue.foldl (fun e x => e.disableStop now x.1 x.2.1 x.2.2) e with xstopDue := [] }
  else e

/-- The halted execution's tile and fabric state cleared: its packets are consumed and counted in IDLE_DROP, its signals are
discarded as stale (R395). -/
def Engine.clearStep (e : Engine) (p : Nat) : Engine :=
  let mine (k : Packet) : Bool := k.part == p && !k.sys
  let drops (d : Nat) : Nat := (e.flight.filter (fun k => mine k && deckOf k.dst.field == d)).length
  let stale (d : Nat) : Nat := (e.signals.filter (fun g => g.part == p && deckOf g.dst.field == d)).length
  let e := (List.range 2).foldl (fun e' d => e'.modDeck d (fun k => (({ k with epochHold := k.epochHold.filter (fun x => !mine x) } : Deck).fabCount 1 (drops d)).dispCount 0 (stale d))) e
  let e := { e with flight := e.flight.filter (fun k => !mine k), signals := e.signals.filter (fun g => g.part != p) }
  e.modPartTiles p Tile.halt

/-- Opcode of a step-boundary action (R33): re-bindings of tenants, images and field sets, pauses, resumes, resets. -/
def boundaryOp : Instr → Option Nat
  | .partBindFields _ _ _ => some 0x0301
  | .partBindImage _ _ => some 0x0302
  | .tenantBind _ _ => some 0x0303
  | .partPause _ => some 0x0305
  | .partResume _ => some 0x0306
  | .partReset _ => some 0x0307
  | _ => none

/-- Step-boundary actions of a partition that have a tick of their own, as (opcode, tick): commands in a schedule table, a
prepared mode epoch, snapshots and restores (R33, R372, R463). -/
def Engine.timedActions (e : Engine) (p : Nat) : List (Nat × Nat) :=
  ((List.range 2).flatMap (fun d => ((e.deck d).sched.filter (fun x => x.parts.contains p && x.hd.tick != 0)).filterMap (fun x => (boundaryOp x.cmd).map (fun o => (o, x.hd.tick))))) ++
    (match (e.part p).prepared with | some x => [(0x0304, x.msg.tick)] | none => []) ++
    ((e.snaps.filter (fun x => x.mask.testBit p && !x.capturing)).map (fun x => (if x.restore then 0x0706 else 0x0705, x.tick)))

/-- A step that began at `start` ends now: each action whose tick fell inside it is late, and the ledger says by how much (R34). -/
def Engine.recordLate (e : Engine) (now p start : Nat) : Engine :=
  ((e.timedActions p).filter (fun x => decide (start < x.2) && decide (x.2 < now))).foldl (fun e x => e.partEvent now p 0x0106 x.1 (now - x.2)) e

/-- The step is abandoned: nothing of it takes effect, the partition pauses, and the ledger says so (R113, R398). -/
def Engine.abandonStep (e : Engine) (p now : Nat) : Engine :=
  let q := e.part p
  match q.step with
  | none => e
  | some s =>
    let w := s.exc.word
    let e := e.event now (match s.excLoc with | some t => deckOf t.field | none => e.partDeck p)
      { code := 0x0103, field := (s.excLoc.map (·.field)).getD 0xFF, site := (s.excLoc.map (·.site)).getD 0x3FF, part := p, pvalid := true, arg0 := w, arg1 := q.stepNo }
    (((e.recordLate now p s.start).clearStep p).modPart p (fun q => { q with step := none, tally := [], digest := none, digestFails := 0 })).pausePart p now .graphFault

/-! ### Lost slots (R410, R411) -/

/-- Ticks of 24 hours. -/
def dayTicks : Nat := 86400000000

/-- A slot zero-filled and returned to use, or withdrawn at its second uncorrectable word within 24 hours (R411). -/
def Engine.reuseSlot (e : Engine) (now : Nat) (t : Loc) (k : Nat) : Engine :=
  let ti := e.tile t
  let last := mget (fun _ => 0) k ti.badSlots
  if last ≠ 0 ∧ now < last - 1 + dayTicks then
    let e := e.modTile t (fun ti => (ti.zeroSlot k).setUse k .withdrawn)
    e.siteEvent now t 0x0209 k (((e.tile t).slotUse.filter (fun x => x.2 == .withdrawn)).length)
  else e.modTile t (fun ti => { ti.zeroSlot k with badSlots := mset (fun _ => 0) k (now + 1) ti.badSlots })

/-- Requests whose page lists name a slot: of a page, root, continuation or list slot its owner, of a stub slot every owner. -/
def SlotUse.requests : SlotUse → List Nat
  | .page r _ _ => [r]
  | .root r => [r]
  | .cont r _ => [r]
  | .list r _ => [r]
  | .stub l => (l.map (fun x => x.2.1)).eraseDups
  | _ => []

/-- Does every entry of a page lie beyond its request's length? -/
def Engine.pageUnused (e : Engine) (u : SlotUse) : Bool := match u with | .page q _ r => decide ((e.req q).len ≤ 64 * r) | _ => false

/-- The content of an overflow slot rebuilt from the pages it holds (R180, R201, R410). -/
def Engine.overflowBytes (e : Engine) (t : Loc) (slot k : Nat) : List Byte :=
  match e.images.find? (fun x => x.2.slot == slot && x.2.state != .absent && x.2.footprint.testBit t.field) with
  | none => []
  | some (_, im) =>
    match (e.wordInSet im.footprint t).bind im.sliceAt with
    | none => []
    | some (i, s) =>
      let bs := ((List.range s.ovf).map (fun j => (tierPage im.tier i (s.resident + j)).getD [])).flatMap unpackPage
      let ks := ((e.tile t).slotUse.filter (fun x => x.2 == .overflow slot)).map (·.1)
      (bs.drop (16384 * (ks.idxOf k))).take 16384

/-- A request ended for a lost slot: REASON 0xB, and the running step goes on without it (R410). -/
def Engine.loseReq (e : Engine) (now p : Nat) (t : Loc) (k q : Nat) : Engine :=
  let e := e.siteEvent now t 0x0207 k q
  let e := e.modPart p (fun x => { x with step := x.step.map (fun s => { s with batch := s.batch.filter (fun b => b.req != q), excluded := s.excluded ++ [q] }) })
  e.doneReq q now 0xB true

/-- A slot that holds a lost word resolved in the first way of R410 that applies. -/
def Engine.resolveSlot (e : Engine) (now : Nat) (t : Loc) (k : Nat) : Engine :=
  let u := (e.tile t).useOf k
  let p := (e.partOf t.field).getD 0
  let ev (way : Nat) (e : Engine) : Engine := e.siteEvent now t 0x0206 k way
  if u == .free || u == .zeroing || e.pageUnused u then (ev 1 e).reuseSlot now t k
  else match u with
    | .overflow slot =>
      let e' := (ev 2 e).reuseSlot now t k
      e'.setKvBytes (t, k) 0 (e.overflowBytes t slot k)
    | .rcache slot _ _ => ((ev 3 e).reuseSlot now t k).modTile t (fun ti => if ti.useOf k = .withdrawn then ti else ti.setUse k (.rcache slot noPage 0))
    | .kvcache g _ _ => ((ev 3 e).reuseSlot now t k).modTile t (fun ti => if ti.useOf k = .withdrawn then ti else ti.setUse k (.kvcache g noPage 0))
    | _ =>
      if u.requests.isEmpty then (ev (match u with | .pool _ | .adapter _ => 5 | _ => 1) e).reuseSlot now t k
      else if (e.part p).pair = 1 ∨ (e.part p).pair = 2 then
        ((ev 4 e).modTile t (fun ti => { ti with badSlots := mset (fun _ => 0) k (now + 1) ti.badSlots })).pairMsg now p 4 (locKey t * 8192 + k)
      else (u.requests.foldl (fun e q => e.loseReq now p t k q) (ev 5 e)).reuseSlot now t k

/-- Every lost slot of a site resolved. -/
def Engine.resolveTile (e : Engine) (now : Nat) (t : Loc) : Engine :=
  let bad := (e.tile t).kvBad
  (bad.foldl (fun e k => e.resolveSlot now t k) e).modTile t (fun ti => { ti with kvBad := [] })

/-- Every lost slot of a partition's tiles resolved (R113, R410). -/
def Engine.resolvePart (e : Engine) (now p : Nat) : Engine :=
  ((e.tiles.filter (fun x => (e.part p).fields.testBit (x.1 / 720) && !x.2.kvBad.isEmpty)).map (fun x => locOf x.1)).foldl (fun e t => e.resolveTile now t) e

end Sys2Proof.Machine
end

