-- ==== Sys2Proof/Machine/StepHalt.lean ====
section
/-!
DEFINITION. The halt of a step that has recorded an exception, its re-execution, and its abandonment (R41, R111 to R113,
R395 to R398).
-/
namespace Sys2Proof.Machine

/-- An event of a step: at the site of its recorded exception, or of the partition where there is none (Table 13.7). -/
def Engine.stepEvent (e : Engine) (now p code arg0 arg1 : Nat) (t : Option Loc) : Engine :=
  match t with
  | some t => e.siteEvent now t code arg0 arg1
  | none => e.partEvent now p code arg0 arg1

/-- A running step halted: its tile and fabric state cleared, and it waits for its re-execution (R395). -/
def Engine.haltStep (e : Engine) (p : Nat) (f : Step → Step) : Engine :=
  (e.clearStep p).modPart p (fun q => { q with step := q.step.map (fun s => f { s with halted := true }) })

/-- A step whose recorded exception is treated as a graph fault: the event of the exception, and abandonment (R113). -/
def Engine.graphFaulted (e : Engine) (now p : Nat) (s : Step) : Engine :=
  (e.stepEvent now p 0x0101 s.exc.word 0xFFFFFFFF s.excLoc).abandonStep p now

/-- A hardware fault of a step: it halts, lost KV slots are resolved before the re-execution (R410), and a third execution's
fault abandons the step (R398). -/
def Engine.hwFaulted (e : Engine) (now p : Nat) (s : Step) : Engine :=
  let e := ((e.stepEvent now p 0x0102 s.exc.word s.exec s.excLoc).haltStep p id).resolvePart now p
  if s.exec ≥ 3 then e.abandonStep p now else e

/-- STEP_HALT: the response to the step's recorded exception (R113): hardware
above timing above graph. -/
def haltStep (p now : Nat) (e : Engine) : Engine :=
  match (e.part p).step with
  | none => e
  | some s =>
    if s.halted then e
    else match s.exc.cause with
      | none =>
        if s.hwFault then e.hwFaulted now p s else if s.graphFault then e.graphFaulted now p s else e
      | some c =>
        if causeClass c = 3 ∨ s.hwFault = true then e.hwFaulted now p s
        else if causeClass c = 1 ∨ s.graphFault = true ∨ s.timedOut = true then e.graphFaulted now p s
        else (e.stepEvent now p 0x0101 s.exc.word 0xFFFFFFFF s.excLoc).haltStep p (fun s => { s with timedOut := true })

/-- STEP_HALT (R395). -/
def execStepHalt (p : Nat) (s : State) : Host.Outcome State Fault Refusal := onUnit (decide (p < 32)) s (haltStep p)

/-- Sites of a partition's field set that raised their second live strike or a port fault and are not covered yet (R397). -/
def Engine.dueCover (e : Engine) (p : Nat) : Bool :=
  (e.partTiles p).any (fun t => e.siteState t == .active && (decide (2 ≤ (e.tile t).strikes.length) || (e.tile t).exc.cause == some .portFault))

/-- The step as its next execution begins. -/
def Step.again (s : Step) : Step :=
  { s with exec := s.exec + 1, exc := {}, excLoc := none, hwFault := false, halted := false, allEnds := [], allDone := [], drawn := false, handed := false, records := [] }

/-- STEP_REEXECUTE: the execution begins again on the tiles that the darn tables map, from the same inputs (R41, R276, R396), with the
Zarog ports that remain (R360);
norm watchers count only the execution that closes (R83). It waits for the map window of a site the fault covers. -/
def reexecute (p now : Nat) (e : Engine) : Engine :=
  let e := e.disableStops now
  let q := e.part p
  match q.step with
  | none => e
  | some s =>
    if s.halted = false ∨ q.window.isSome = true ∨ e.dueCover p = true ∨ e.xstopDue ≠ [] then e
    else (e.modPart p (fun q => { q with tally := [], step := some s.again })).takePorts p |>.writeInputs p

/-- STEP_REEXECUTE (R396). -/
def execStepReexecute (p : Nat) (s : State) : Host.Outcome State Fault Refusal := onUnit (decide (p < 32)) s (reexecute p)

end Sys2Proof.Machine
end

