-- ==== Sys2Proof/Machine/Repair.lean ====
section
/-!
DEFINITION. Sites that leave service (R114, R115, R210, R281, R397, R400 to R408): covering, the map window, the re-imprint
window, DARK sites and fenced fields.
-/
namespace Sys2Proof.Machine

/-! ### Choice of the spare (R281) -/

/-- Mesh hops between two sites of a field. -/
def meshHops (a b : Nat) : Nat := (max (a % 24) (b % 24) - min (a % 24) (b % 24)) + (max (a / 24) (b / 24) - min (a / 24) (b / 24))

/-- The SPARE site with the fewest mesh hops from a site, ties to the lower one. -/
def Field.nearestSpare (f : Field) (s : Nat) : Option Nat :=
  ((List.range 720).filter (fun k => f.site k == .spare)).foldl (fun b k => match b with
    | none => some k
    | some j => if meshHops s k < meshHops s j then some k else b) none

/-! ### Images of a covered site (R402, R407) -/

/-- Images in use whose footprint holds a site, with its virtual tile word in the footprint and its slice. -/
def Engine.imagesAt (e : Engine) (t : Loc) : List (Nat × Image × Nat × Slice) :=
  e.images.filterMap (fun x =>
    if x.2.footprint.testBit t.field && (x.2.state == .ready || x.2.state == .degraded || x.2.state == .incomplete) then
      match (e.wordInSet x.2.footprint t).bind x.2.sliceAt with
      | some (k, s) => some (x.1, x.2, k, s)
      | none => none
    else none)

/-- Is a slice's site covered, or a spare that still reads the slice through recovery? -/
def Engine.sliceLost (e : Engine) (im : Image) (s : Slice) : Bool :=
  match e.locInSet im.footprint s.vtile with
  | none => true
  | some t => e.siteState t != .active || (e.tile t).recovering.any (fun x => x.1 == im.slot)

/-- An image of which a second member of a group is lost: the partition that has it pauses (R407). -/
def Engine.loseImage (e : Engine) (now : Nat) (t : Loc) (img group : Nat) : Engine :=
  let e := e.siteEvent now t 0x0308 group img
  ((e.parts.filter (fun x => x.2.image == some img)).map (·.1)).foldl (fun e p => (e.abandonStep p now).pausePart p now .imageLost) e

/-- What covering a site does to the images on it: two lost members of a group make the image unrecoverable. -/
def Engine.checkGroups (e : Engine) (now : Nat) (t : Loc) : Engine :=
  (e.imagesAt t).foldl (fun e x =>
    let (img, im, k, s) := x
    if (im.group s.group).any (fun y => y.1 != k && e.sliceLost im y.2) then e.loseImage now t img s.group else e) e

/-- The slices of a covered site served through recovery chains by its spare, with stripes allocated there for their repair
writes (R402). The sites whose slices were on their way to the covered one stay in the list. -/
def Engine.planSlices (e : Engine) (now : Nat) (t spare : Loc) : Engine :=
  (e.imagesAt t).foldl (fun e x =>
    let (img, im, k, s) := x
    let before := (e.tile t).recovering.filter (fun y => y.1 == im.slot)
    let e := { e with repairs := e.repairs.filter (fun r => !(r.img == img && r.slice == k)) }
    let e := e.modTile spare (fun ti => { ti with recovering := ti.recovering ++ before ++ [(im.slot, t)], resident := mset (fun _ => 0) im.slot s.resident ti.resident })
    let e := e.modImage img (fun im => if im.state = .ready then { im with state := .degraded } else im)
    match e.chooseStripes spare s.stripes (e.goodStripes spare) with
    | none => e.siteEvent now spare 0x0203 0 0
    | some ks => { e.allocStripes now spare img ks with repairs := e.repairs ++ [{ img := img, slice := k, target := spare, stripes := ks, pages := [] }] }) e

/-! ### The map window (R401) -/

/-- Virtual tile word of a site for the ledger: of its partition where it has one, else of the field alone. -/
def Engine.wordOf (e : Engine) (t : Loc) (v : Nat) : Nat :=
  match e.partOf t.field with
  | some p => vword (((e.partFields p).idxOf? t.field).getD 0) (v % 24) (v / 24)
  | none => vword 0 (v % 24) (v / 24)

/-- ARG1 of SITE_COVERED: the exception's cause, 0xFF for a preventive cover. -/
def Engine.coverCode (e : Engine) (t : Loc) : Nat :=
  let ti := e.tile t
  if 2 ≤ ti.strikes.length ∨ ti.exc.cause = some .portFault then ti.exc.code else 0xFF

/-- The partition pauses for want of a spare: the virtual tile is not VALID any more (R407). -/
def Engine.noSpare (e : Engine) (now : Nat) (t : Loc) (v : Nat) : Engine :=
  let e := e.siteEvent now t 0x0306 (e.wordOf t v) 0
  let p := e.partOf t.field
  let e := e.modField t.field (fun f => { f with darnMap := mset darnMapReset v (BitVec.ofNat 16 (t.site % 1024)) f.darnMap })
  match p with | some p => (e.abandonStep p now).pausePart p now .noSpare | none => e

/-- The map window of a site of a partition begins: the spare is chosen. -/
def Engine.openWindow (e : Engine) (now p : Nat) (t : Loc) (v : Nat) (migrate : Bool) (also : List Loc) : Engine :=
  match (e.field t.field).nearestSpare t.site with
  | none => e.noSpare now t v
  | some s =>
    let code := e.coverCode t
    let spare : Loc := { field := t.field, site := s }
    let e := e.siteEvent now t 0x0301 (e.wordOf t v + s * 2 ^ 32) code
    (e.planSlices now t spare).modPart p (fun q => { q with
      window := some { covered := t, spare := spare, v := v, stage := .placement, start := now, migrate := migrate, cause := code, also := also } })

/-- A site stopped for good: its threads, registers and scratchpad are gone; the capture area stays (R115, R417, Table 5.5). -/
def Tile.stop (ti : Tile) : Tile :=
  { ti.halt.zero 0 0x1FC000 with
    threads := [], vregs := [], lregs := [], ad := {}, ibuf := [], bank := ti.bank.map (fun x => (x.1, { x.2 with guarded := false, conv := false })) }

/-- A partition's running step halts for a map window (R401): a recorded exception is answered first. -/
def Engine.haltForWindow (e : Engine) (p now : Nat) : Engine :=
  match (e.part p).step with
  | none => e
  | some s =>
    if s.halted then e
    else if s.exc.cause.isSome || s.graphFault || s.hwFault then Sys2Proof.Machine.haltStep p now e
    else e.haltStep p id

/-- A site goes out of service as `st`, COVERED or DARK, and its partition's map window begins, unless one runs or the
partition is REBINDING: then it begins later (R401, R407). -/
def Engine.takeOut (e : Engine) (now : Nat) (t : Loc) (st : SiteState) : Engine :=
  match e.partOf t.field, (e.field t.field).vOf t.site with
  | some p, some v =>
    let e := e.haltForWindow p now
    let e := (e.checkGroups now t).modTile t Tile.stop
    let e := e.setSite t st
    let e := e.modPart p (fun q => { q with step := q.step.map (fun s => { s with covered := s.covered ++ [t] }) })
    if (e.part p).rebind.isSome ∨ (e.part p).window.isSome then e else e.openWindow now p t v (st == .covered) []
  | _, _ => (e.modTile t Tile.stop).setSite t st

/-- A spare that fails in its map window: the next spare is chosen and the window begins again (R407). -/
def Engine.failSpare (e : Engine) (now p : Nat) (w : MapWindow) (st : SiteState) : Engine :=
  let e := (e.modTile w.spare (fun ti => { ti.stop with recovering := [], slotUse := [], kv := [], region := [] })).setSite w.spare st
  let e := { e with repairs := e.repairs.filter (fun r => r.target != w.spare) }
  let e := { e with graphs := e.graphs.map (fun (x : Nat × Graph) => (x.1, { x.2 with
    placed := x.2.placed.map (fun (y : Nat × Placement) => if y.1 = locKey w.spare then (locKey w.covered, y.2) else y)
    entriesDue := x.2.entriesDue.map (fun k => if k = locKey w.spare then locKey w.covered else k)
    blobsDue := x.2.blobsDue.map (fun k => if k = locKey w.spare then locKey w.covered else k) })) }
  (e.modPart p (fun q => { q with window := none })).openWindow now p w.covered w.v w.migrate (if st == SiteState.covered then w.also ++ [w.spare] else w.also)

/-- A site of a partition that is still mapped and out of service: its map window is due (R401, R407). -/
def Engine.windowDue (e : Engine) (p : Nat) : Option Loc :=
  if (e.part p).rebind.isSome || (e.part p).window.isSome then none else (e.partTiles p).find? (fun t => e.siteState t != .active)

/-- The map window that is due begins; after a re-binding there is no KV to migrate. -/
def Engine.nextWindow (e : Engine) (now p : Nat) (migrate : Bool) : Engine :=
  match e.windowDue p with
  | none => e
  | some t => match (e.field t.field).vOf t.site with
    | some v => e.openWindow now p t v (migrate && e.siteState t == .covered) []
    | none => e

/-! ### Causes (R397, R405, R406) -/

/-- GUARD_CE of a deck's SP_SCRUB_CTL (Table 5.7). -/
def Deck.guardCe (d : Deck) : Nat := fld d.scrub.toNat 15 8

/-- Does a site meet a condition of R405, or hold an uncorrectable word in the reserved area (R167)? -/
def Engine.worn (e : Engine) (t : Loc) : Bool :=
  let ti := e.tile t
  decide (4 ≤ (ti.bank.filter (fun x => x.2.guarded)).length) ||
  ti.bank.any (fun x => x.2.guarded && decide ((e.deck (deckOf t.field)).guardCe ≤ x.2.win)) ||
  decide (2 ≤ ti.bank.foldl (fun n x => n + x.2.ue) 0) ||
  decide (16 ≤ (ti.slotUse.filter (fun x => x.2 == .withdrawn)).length) ||
  ti.badWords.any (fun k => decide (reservedBase ≤ 8 * k))

/-- Does the cause stand? A preventive cover, and one that DARN_REMAP or a tile reset asks for, wait for the boundary. -/
def Engine.coverDue (e : Engine) (t : Loc) : CoverCause → Bool
  | .strikes => decide (2 ≤ (e.tile t).strikes.length)
  | .portFault => (e.tile t).exc.cause == some .portFault
  | .preventive => (e.worn t || e.siteResets.any (fun x => x.2 == t)) && e.siteIdle t
  | .remap => e.remaps.any (fun x => x.2 == t) && e.siteIdle t

/-- SITE_COVERED: a site of a partition enters COVERED, or the window of one that is COVERED already begins. Only the holder of the chair latch changes
the darn tables: with none the event comes again (R114; log entry 144). -/
def siteCovered (t : Loc) (c : CoverCause) (now : Nat) (e : Engine) : Engine :=
  if !e.chairHeld then e else
  match e.partOf t.field with
  | none => e
  | some p =>
    match e.siteState t with
    | .active => if e.coverDue t c then e.takeOut now t .covered else e
    | .covered | .dark => e.nextWindow now p false
    | .spare =>
      (match (e.part p).window with
       | some w => if w.spare = t then e.failSpare now p w .covered else e
       | none => e)
    | .retired => e

/-- SITE_COVERED (R401). -/
def execSiteCovered (t : Loc) (cause : CoverCause) (s : State) : Host.Outcome State Fault Refusal := onUnit (locOk t) s (siteCovered t cause)

/-- STRIKE_EXPIRY: strikes older than 10 s go (R397). -/
def strikeExpiry (t : Loc) (now : Nat) (e : Engine) : Engine :=
  let l := (e.tile t).strikes
  let l' := l.filter (fun x => decide (now < x + 10000000))
  if l' = l then e else e.modTile t (fun ti => ti.setStrikes l')

/-- STRIKE_EXPIRY (R397). -/
def execStrikeExpiry (t : Loc) (s : State) : Host.Outcome State Fault Refusal := onUnit (locOk t) s (strikeExpiry t)

/-! ### Retirement (R402, R406) -/

/-- A site that has been tested and reset returns as SPARE, its state cleared; its weight slab stays (R459). -/
def Tile.renewed (ti : Tile) : Tile := { nv := ti.nv, nvBad := ti.nvBad, flagged := ti.flagged, stripes := ti.stripes, hemBal := ti.hemBal }

/-- Does a site pass its test (log entry 38)? -/
def Engine.tested (e : Engine) (t : Loc) : Bool := Config.siteTest e.freeCtr (locKey t)

/-- A covered site whose slices verify elsewhere becomes RETIRED, or after a tile reset is tested and becomes SPARE or RETIRED
(R459); the commands that asked for it are answered. A DARN_REMAP for the site retires it in any case. -/
def Engine.retire (e : Engine) (now : Nat) (w new : Nat) (t : Loc) : Engine :=
  if e.siteState t ≠ .covered then e
  else
    let hs := e.remaps.filter (fun x => x.2 == t)
    let rs := e.siteResets.filter (fun x => x.2 == t)
    let good := hs.isEmpty && !rs.isEmpty && e.tested t
    let e := if rs.isEmpty then e else { e with freeCtr := e.freeCtr + 1 }
    let p := e.partOf t.field
    let e := if good then (e.modTile t Tile.renewed).setSite t .spare
      else (e.setSite t .retired).event now (deckOf t.field)
        { code := 0x0304, field := t.field, site := t.site, part := p.getD 0, pvalid := p.isSome, arg0 := w, arg1 := new }
    (hs ++ rs).foldl (fun e x => e.okReply now x.1)
      { e with remaps := e.remaps.filter (fun x => x.2 != t), siteResets := e.siteResets.filter (fun x => x.2 != t) }

/-- The sites that a spare stands in for and that nothing of it reads any more. -/
def Engine.retireAll (e : Engine) (now : Nat) (spare : Loc) (l : List Loc) : Engine :=
  let left := ((e.tile spare).recovering).map (·.2)
  let w := match (e.field spare.field).vOf spare.site with | some v => e.wordOf spare v | none => 0
  (l.filter (fun t => !left.contains t)).foldl (fun e t => e.retire now w spare.site t) e

/-! ### Stages of the window -/

/-- Every loaded graph that stands on a covered site placed on its spare (R290, R401). -/
def Engine.moveGraphs (e : Engine) (t spare : Loc) (v : Nat) : Engine :=
  let fixed (u : SlotUse) : Bool := match u with | .overflow _ | .rcache _ _ _ | .kvcache _ _ _ | .pool _ | .adapter _ => true | _ => false
  let ti := e.tile t
  let e := e.modTile spare (fun n => { n with slotUse := ti.slotUse.filter (fun x => fixed x.2), kvLo := ti.kvLo, kvHi := ti.kvHi })
  (e.graphs.filter (fun x => x.2.placed.any (fun y => y.1 == locKey t))).foldl (fun e x =>
    let fs := setBits (e.image x.2.image).footprint 96
    let w := vword ((fs.idxOf? t.field).getD 0) (v % 24) (v / 24)
    let e := e.modGraph x.1 (fun g => { g with
      placed := g.placed.map (fun y => if y.1 = locKey t then (locKey spare, y.2) else y), entriesDue := g.entriesDue.map (fun k => if k = locKey t then locKey spare else k)
      blobsDue := g.blobsDue.map (fun k => if k = locKey t then locKey spare else k) })
    match x.2.placed.find? (fun y => y.1 == locKey t) with
    | some (_, pl) => e.installOn x.1 spare w pl
    | none => e) e

/-- The used slots of a covered site on its spare under the same indices. Where they cannot be read they are lost (R401, R408,
R410); a paired partition gets their content from its twin, which is what they held (log entry 161). -/
def Engine.migrateSlots (e : Engine) (now : Nat) (w : MapWindow) : Engine :=
  let ti := e.tile w.covered
  let used := (ti.slotUse.filter (fun x => x.2 != .free && x.2 != .withdrawn && x.2 != .zeroing)).map (·.1)
  let readable := w.migrate && !ti.dramFault
  let twin := match e.partOf w.covered.field with | some p => (e.part p).pair == 1 || (e.part p).pair == 2 | none => false
  let e := e.modTile w.spare (fun n => { n with
    slotUse := (ti.slotUse.filter (fun x => x.2 != .withdrawn)).map (fun x => if x.2 = .zeroing then (x.1, .zeroing) else x)
    kv := if readable || twin then ti.kv else []
    kvBad := if readable then ti.kvBad else used
    spills := ti.spills
    hemBal := n.hemBal })
  let e := e.modTile w.covered (fun n => { n with slotUse := [], kv := [], kvBad := [], spills := [] })
  let _ := now
  match e.partOf w.covered.field with
  | some p => e.modPart p (fun q => { q with window := some { w with stage := .route, migrated := if readable then used.length else 0 } })
  | none => e

/-- The route update: the virtual tile takes the spare, the window ends, and lost slots are resolved on the new site. -/
def Engine.closeWindow (e : Engine) (now p : Nat) (w : MapWindow) : Engine :=
  let e := e.modField w.covered.field (fun f => { f with darnMap := mset darnMapReset w.v (BitVec.ofNat 16 (0x8000 + w.spare.site)) f.darnMap })
  let e := e.setSite w.spare .active
  let e := e.event now (deckOf w.covered.field) { code := 0x0302, field := w.covered.field, site := w.covered.site, part := p, pvalid := true, arg0 := w.migrated, arg1 := now - w.start }
  let e := (e.modPart p (fun q => { q with window := none })).resolveTile now w.spare
  (e.retireAll now w.spare (w.also ++ [w.covered])).nextWindow now p true

/-- MAP_WINDOW_STAGE_DONE: placement, KV migration or route update ends; with no window open, the one that is due begins. Only the holder of the chair latch changes
the darn tables: with none the event comes again (R114; log entry 144). -/
def mapStageDone (p now : Nat) (e : Engine) : Engine :=
  if !e.chairHeld then e else
  match (e.part p).window with
  | none => e.nextWindow now p false
  | some w =>
    match w.stage with
    | .cover | .placement => (e.moveGraphs w.covered w.spare w.v).modPart p (fun q => { q with window := some { w with stage := .migration } })
    | .migration => e.migrateSlots now w
    | .route => e.closeWindow now p w

/-- MAP_WINDOW_STAGE_DONE (R401). -/
def execMapWindowStageDone (p : Nat) (s : State) : Host.Outcome State Fault Refusal := onUnit (decide (p < 32)) s (mapStageDone p)

/-- SLICE_REIMPRINT_VERIFIED: the repair write of an image's slice on a spare verifies: its extents are written, and the
covered sites it stood in for are RETIRED (R402, R407). Only the holder of the chair latch changes
the darn tables: with none the event comes again (R114; log entry 144). -/
def reimprinted (t : Loc) (img now : Nat) (e : Engine) : Engine :=
  if !e.chairHeld then e else
  let slot := (e.image img).slot
  match e.repairs.find? (fun r => r.img == img && r.target == t) with
  | none => e
  | some r =>
    let from' := ((e.tile t).recovering.filter (fun x => x.1 == slot)).map (·.2)
    if from'.isEmpty ∨ e.repairFilled r = false ∨ e.siteState t ≠ .active ∨ e.siteIdle t = false ∨ e.cartsOk = false ∨ (e.field t.field).fenced = true then e
    else if e.repairGood r then (e.finishRepair now r).retireAll now t from'
    else { e with repairs := e.repairs.map (fun x => if x = r then { x with pages := [] } else x) }

/-- SLICE_REIMPRINT_VERIFIED (R402). -/
def execSliceReimprintVerified (t : Loc) (img : Nat) (s : State) : Host.Outcome State Fault Refusal :=
  onUnit (locOk t && decide (img < 64)) s (reimprinted t img)

/-! ### DARK sites (R210, R408) -/

/-- DARK sites of a field. -/
def Field.dark (f : Field) : List Nat := (f.darnSite.filter (fun x => x.2 == .dark)).map (·.1)

/-- Do a field's DARK sites break R210: two of them adjacent or in one cluster? -/
def Engine.darkBroken (e : Engine) (field : Nat) : Bool :=
  let l := (e.field field).dark
  l.any (fun a => l.any (fun b => decide (a < b) && (meshHops a b == 1 || clusterOf { field := field, site := a } == clusterOf { field := field, site := b })))

/-- A field fenced: recorded in the supervisor's NV, one field fewer, and its partition paused (R408). -/
def Engine.fence (e : Engine) (now field : Nat) : Engine :=
  if (e.field field).fenced then e
  else
    let p := e.partOf field
    let e := (e.modField field (fun f => { f with fenced := true })).event now (deckOf field)
      { code := 0x0307, field := field, part := p.getD 0, pvalid := p.isSome, arg0 := ((e.field field).dark).length }
    match p with
    | some p => ((e.abandonStep p now).pausePart p now .fenced).modPart p (fun q => { q with window := match q.window with | some w => if w.covered.field = field then none else some w | none => none })
    | none => e

/-- SITE_DARK: a site whose router fails (R408). Only the holder of the chair latch changes
the darn tables: with none the event comes again (R114; log entry 144). -/
def siteDark (t : Loc) (now : Nat) (e : Engine) : Engine :=
  if !e.chairHeld then e else
  let st := e.siteState t
  if st = .dark then e
  else
    let w := match (e.field t.field).vOf t.site with | some v => e.wordOf t v | none => 0xFFFFFF
    let e := e.siteEvent now t 0x0305 w 0
    let e := match st, (e.partOf t.field).bind (fun p => ((e.part p).window).map (fun x => (p, x))) with
      | .active, _ => e.takeOut now t .dark
      | .spare, some (p, x) => if x.spare = t then e.failSpare now p x .dark else e.setSite t .dark
      | .covered, some (p, x) =>
        if x.covered = t then (e.setSite t .dark).modPart p (fun q => { q with window := some { x with migrate := false } }) else e.setSite t .dark
      | _, _ => e.setSite t .dark
    if e.darkBroken t.field then e.fence now t.field else e

/-- SITE_DARK (R408). -/
def execSiteDark (t : Loc) (s : State) : Host.Outcome State Fault Refusal := onUnit (locOk t) s (siteDark t)

end Sys2Proof.Machine
end

