-- ==== Sys2Proof/Machine/Fabric.lean ====
section
/-!
DEFINITION. The fabric (R211, R214, R216, R221 to R226, R375, R500): packets that reach their destination, fold flits, hem
credit, faulty express stops and bridge lanes, proxy reads (R115) and recovery chains (R403).
-/
namespace Sys2Proof.Machine

/-! ### Packets -/

/-- Types of packets (Table 7.2). -/
inductive PacketType where
  | msg | fold | preq | prsp | hin | hout | ctrl
deriving DecidableEq, Repr

/-- TYPE (Table 7.2). -/
def PacketType.code : PacketType → Nat
  | .msg => 1
  | .fold => 2
  | .preq => 3
  | .prsp => 4
  | .hin => 5
  | .hout => 6
  | .ctrl => 7

/-- Virtual channel (Table 7.1). -/
def PacketType.vc : PacketType → Nat
  | .fold => 0
  | .msg => 1
  | .preq => 2
  | .prsp => 3
  | .hin => 4
  | .hout => 5
  | .ctrl => 6

/-- Flits that each input buffers of the channel (Table 7.1). -/
def PacketType.buffer : PacketType → Nat
  | .fold => 4
  | .msg => 8
  | .preq => 4
  | .prsp => 8
  | .hin => 8
  | .hout => 8
  | .ctrl => 2

/-- Type of a packet. -/
def Packet.type (k : Packet) : PacketType :=
  match k.body with
  | .fold _ => .fold
  | .msg _ _ => .msg
  | .proxy _ => .preq
  | .data _ => .prsp
  | .inbound _ => .hin
  | .outbound _ => .hout
  | .other => .ctrl

/-- Channel of a packet (Table 7.1). -/
def Packet.channel (k : Packet) : Nat := k.type.vc

/-- Flits of a packet (R215). -/
def Packet.flits (k : Packet) : Nat :=
  match k.body with
  | .msg _ bs => ceilDiv (16 + bs.length) 64
  | .data bs => ceilDiv (16 + bs.length) 64
  | .inbound bs => ceilDiv (16 + bs.length) 64
  | .outbound bs => ceilDiv (16 + bs.length) 64
  | _ => 1

/-- The ports of a COVERED site answer a proxy read with a packet of the requester's partition (R115). -/
def Engine.proxyAnswer (e : Engine) (t : Loc) (q : ProxyReq) (requester : Loc) : Engine :=
  let p := (e.partOf requester.field).getD 0
  let bs := match q with
    | .kvSlot k => readBytes (e.tile t).kv (k * 16384) 16384
    | .nvPage p => (e.tile t).page p
  { e with flight := e.flight ++ [{ src := t, dst := requester, part := p, sys := false, epoch := (e.part p).epoch, body := .data bs }] }

/-- A packet discarded for its epoch: recorded, and a hardware fault of the step (R375). -/
def Engine.epochDrop (e : Engine) (now : Nat) (k : Packet) : Engine :=
  (e.siteEvent now k.dst 0x0108 k.epoch (e.part k.part).epoch).stepFault k.part

/-- A packet handed to its tile: a message waits for its mailbox, a fold flit for the owner's adders (R148, R222). What the other types
bring takes effect with the command that names it. -/
def Engine.accepted (e : Engine) (k : Packet) : Engine :=
  match k.body with
  | .msg _ _ => e.modTile k.dst (fun ti => { ti with held := ti.held ++ [k] })
  | .fold f => e.modTile k.dst (fun ti => { ti with foldIn := ti.foldIn ++ [f] })
  | _ => e

/-- The request that a packet brings to a COVERED site: the one packet whose destination need not be ACTIVE (R115, R211). -/
def Engine.proxyAt (e : Engine) (k : Packet) : Option ProxyReq :=
  match k.body with
  | .proxy q => if e.siteState k.dst = .covered then some q else none
  | _ => none

/-- A packet at its destination router (R211, R375). -/
def Engine.arrive (e : Engine) (now : Nat) (k : Packet) : Engine :=
  let d := deckOf k.dst.field
  let epoch := (e.part k.part).epoch
  if !k.sys && e.partOf k.dst.field != some k.part then e.modDeck d (fun x => x.fabCount 0 1)
  else match e.proxyAt k with
    | some q => e.proxyAnswer k.dst q k.src
    | none =>
      if e.siteState k.dst ≠ .active then e.modDeck d (fun x => x.fabCount 1 1)
      else if k.sys || k.epoch == epoch then e.accepted k
      else if k.epoch = (epoch + 1) % 256 ∧ ((e.deck d).epochHold.map Packet.flits).foldl (· + ·) 0 + k.flits ≤ 64 then
        e.modDeck d (fun x => { x with epochHold := x.epochHold ++ [k] })
      else e.epochDrop now k

/-- Errors corrected on a packet's way, each counted by the router that corrected it (R214). -/
def Engine.correctedAt (e : Engine) (routers : List Loc) : Engine :=
  routers.foldl (fun e t => e.modTile t (fun ti => { ti with routerCorr := ti.routerCorr + 1 })) e

/-- PACKET_ARRIVAL: the k-th packet on the fabric reaches its destination router, after those of its channel that left its
source for the same site before it (R216). The routers named corrected an error each; an uncorrectable word is a hardware fault of the
step (R214). -/
def packetArrival (k : Nat) (corrected : List Loc) (uncorr : Bool) (now : Nat) (e : Engine) : Engine :=
  match e.flight[k]? with
  | none => e
  | some x =>
    if (e.flight.take k).any (fun y => y.src == x.src && y.dst == x.dst && y.channel == x.channel) then e
    else
      let e := ({ e with flight := e.flight.eraseIdx k } : Engine).correctedAt corrected
      if uncorr then e.stepFault x.part else e.arrive now x

/-- PACKET_ARRIVAL (R211). -/
def execPacketArrival (k : Nat) (uncorr : Bool) (s : State) (corrected : List Loc := []) : Host.Outcome State Fault Refusal :=
  onUnit (corrected.all locOk) s (packetArrival k corrected uncorr)

/-! ### Fold flits (R221, R222) -/

/-- Does a slot's integer agree with its SRES? A poisoned slot is not compared. -/
def slotOk (x : Nat × Int × Nat) : Bool := x.2.2 == 0xFF || res255 x.2.1 == x.2.2

/-- Present slots of a flit. -/
def Flit.smask (f : Flit) : List Nat := f.slots.map (·.1)

/-- May two fold packets be combined, leaving the window aside? -/
def combinable (x y : Packet) (f g : Flit) : Bool :=
  x.dst == y.dst && x.part == y.part && x.epoch == y.epoch && f.bank == g.bank && f.reg == g.reg && f.wlo == g.wlo && f.wcnt == g.wcnt &&
    f.smask == g.smask && !f.whole && !g.whole && decide (f.count + g.count ≤ 65535)

/-- One slot of the sum. -/
def addSlot (a b : Nat × Int × Nat) : Nat × Int × Nat :=
  if a.2.2 = 0xFF ∨ b.2.2 = 0xFF then (a.1, 0, 0xFF) else (a.1, a.2.1 + b.2.1, (a.2.2 + b.2.2) % 255)

/-- Does every slot fit the window of `wcnt` limbs? -/
def Flit.inWindow (f : Flit) : Bool := f.slots.all (fun x => decide (-(2 ^ (64 * f.wcnt - 1)) ≤ x.2.1) && decide (x.2.1 < 2 ^ (64 * f.wcnt - 1)))

/-- Two flits added at a router: a residue mismatch of either sets RFAULT there. -/
def addFlits (router : Loc) (f g : Flit) : Flit :=
  let bad := !(f.slots.all slotOk && g.slots.all slotOk)
  { f with
    rfault := f.rfault || g.rfault || bad
    rfaultAt := if bad then some router else f.rfaultAt.orElse (fun _ => g.rfaultAt)
    count := f.count + g.count
    slots := List.zipWith addSlot f.slots g.slots }

/-- FOLD_COMBINE: fold flits i, held, and j, arriving, at a router (R221). -/
def foldCombine (router : Loc) (i j now : Nat) (e : Engine) : Engine :=
  let _ := now
  match e.flight[i]?, e.flight[j]? with
  | some x, some y =>
    match x.body, y.body with
    | .fold f, .fold g =>
      if i = j ∨ combinable x y f g = false then e
      else
        let h := addFlits router f g
        if h.inWindow then { e with flight := (e.flight.set i { x with body := .fold h }).eraseIdx j }
        else e.modDeck (deckOf router.field) (fun d => d.fabCount 2 1)
    | _, _ => e
  | _, _ => e

/-- FOLD_COMBINE (R221). -/
def execFoldCombine (router : Loc) (i j : Nat) (s : State) : Host.Outcome State Fault Refusal := onUnit (locOk router) s (foldCombine router i j)

/-- The instance that holds a bank, with its lowest-numbered running thread and that thread's pc (R112). -/
def Tile.bankHolder (ti : Tile) (b : Nat) : Option (Nat × Nat × Nat) :=
  (ti.inst.find? (fun x => x.2.banks.testBit b)).map (fun x =>
    match x.2.threads.find? (fun k => !(ti.thread k).ended && (ti.thread k).run != .halted) with
    | some k => (x.1, k, (ti.thread k).pc.toNat)
    | none => (x.1, 0, 0))

/-- An exception of the owner's router, charged to the instance that holds the bank (R112). -/
def Engine.raiseBank (e : Engine) (now : Nat) (t : Loc) (b : Nat) (c : Cause) (detail : Nat) (blame : Option Loc) : Engine :=
  match (e.tile t).bankHolder b with
  | some (slot, k, pc) => e.raise now t k pc (some slot) c detail blame
  | none => e.raise now t 0 0 none c detail blame

/-- Flit slots as adds into registers REG + s (R222). -/
def Flit.adds (f : Flit) : List Add :=
  f.slots.map (fun x => { reg := f.reg + x.1, n := x.2.1 * 2 ^ (64 * f.wlo), res := if x.2.2 = 0xFF then 0 else x.2.2, poison := x.2.2 == 0xFF })

/-- FOLD_RECEIVE: the first fold flit at the owner's router (R222). Counter 11 counts each arrival of a whole partial, added or not (R217). -/
def foldReceive (t : Loc) (now : Nat) (e : Engine) : Engine :=
  match (e.tile t).foldIn with
  | [] => e
  | f :: rest =>
    let ti := e.tile t
    let e := e.modTile t (fun ti => { if f.whole then ti.count 11 1 else ti with foldIn := rest })
    let n := f.count * f.slots.length
    if ti.pending f.bank < n then e.raiseBank now t f.bank .foldUnexpected (f.bank + 4 * f.reg) none
    else if !f.slots.all slotOk || f.rfault then
      let s := match f.slots.find? (fun x => !slotOk x) with | some x => x.1 | none => (f.smask).headD 0
      e.raiseBank now t f.bank .residue (f.bank + 4 * (f.reg + s)) (if f.rfault then f.rfaultAt else none)
    else
      e.modTile t (fun ti =>
        { ti.addAll f.bank f.adds with pend := mset (fun _ => 0) f.bank (ti.pending f.bank - n) ti.pend })

/-- FOLD_RECEIVE (R222). -/
def execFoldReceive (t : Loc) (s : State) : Host.Outcome State Fault Refusal := onUnit (locOk t) s (foldReceive t)

/-! ### Hem credit (R225, R226) -/

/-- HEM_RESERVATION: a router reserves up to 64 flits of its partition's outbound bucket, or waits for credit; each pace tick in which
one of a deck waits is counted once (R229). -/
def hemReserve (t : Loc) (deck : Nat) (zarog : Bool) (flits now : Nat) (e : Engine) : Engine :=
  match e.partOf t.field with
  | none => e
  | some p =>
    let n := min flits 64
    let table := bnat zarog
    let c := (e.deck deck).hem table p
    if n ≤ c.outBucket then
      (e.modDeck deck (fun d => d.setHem table p { c with outBucket := c.outBucket - n })).modTile t
        (fun ti => { ti with hemBal := mmod (fun _ => 0) (2 * deck + table) (· + n) ti.hemBal, hemLast := now })
    else e.modDeck deck (fun d => if now < d.waitAt then d else { d.fabCount 3 1 with waitAt := now + 1 })

/-- HEM_RESERVATION (R226). -/
def execHemReservation (t : Loc) (deck : Nat) (zarog : Bool) (flits : Nat) (s : State) : Host.Outcome State Fault Refusal :=
  onUnit (locOk t && decide (deck < 2)) s (hemReserve t deck zarog flits)

/-- HEM_RESERVATION_RETURN: after 16 ticks without hem-bound traffic the unused balance goes back, up to BURST. -/
def hemReturn (t : Loc) (now : Nat) (e : Engine) : Engine :=
  let ti := e.tile t
  match e.partOf t.field with
  | none => e
  | some p =>
    if now < ti.hemLast + 16 then e
    else
      let e := ti.hemBal.foldl (fun e x => e.modDeck (x.1 / 2) (fun d =>
        let c := d.hem (x.1 % 2) p
        d.setHem (x.1 % 2) p { c with outBucket := min c.burst (c.outBucket + x.2) })) e
      e.modTile t (fun ti => { ti with hemBal := [] })

/-- HEM_RESERVATION_RETURN (R226). -/
def execHemReservationReturn (t : Loc) (s : State) : Host.Outcome State Fault Refusal := onUnit (locOk t) s (hemReturn t)

/-- One entry's buckets filled for one tick. -/
def HemCr.refill (c : HemCr) : HemCr := { c with inBucket := min c.burst (c.inBucket + c.inRate), outBucket := min c.burst (c.outBucket + c.outRate) }

/-- Both tables of a deck refilled, once in a pace tick. -/
def Deck.refill (d : Deck) (now : Nat) : Deck :=
  if now < d.fillAt then d
  else (List.range 33).foldl (fun d n => (d.setHem 0 n (d.hem 0 n).refill).setHem 1 n (d.hem 1 n).refill) { d with fillAt := now + 1 }

/-- HEM_BUCKET_REFILL (R226). -/
def execHemBucketRefill (s : State) : Host.Outcome State Fault Refusal :=
  onEng s (fun now e => (e.modDeck 0 (·.refill now)).modDeck 1 (·.refill now))

/-! ### Faulty stops and lanes (R224, R500) -/

/-- XSTOP_DISABLED: the stop is disabled at the next step boundary of every partition; the step of its field's partition that runs has a
hardware fault (R113, R500). -/
def xstopDisabled (field cluster : Nat) (selfTest : Bool) (now : Nat) (e : Engine) : Engine :=
  if (e.field field).xstop.testBit cluster || e.xstopDue.any (fun x => x.1 == field && x.2.1 == cluster) then e
  else
    let e : Engine := { e with xstopDue := e.xstopDue ++ [(field, cluster, bnat selfTest)] }
    let e := match e.partOf field with
      | some p => if (e.part p).atRest then e else e.stepFault p
      | none => e
    e.disableStops now

/-- XSTOP_DISABLED (R500). -/
def execXstopDisabled (field cluster : Nat) (selfTest : Bool) (s : State) : Host.Outcome State Fault Refusal :=
  onUnit (decide (field < 96) && decide (cluster < 36)) s (xstopDisabled field cluster selfTest)

/-- BRIDGE_LANE_DISABLED: the lane is out of use on both decks; only the routes of its cluster row change (R224). -/
def laneDisabled (lane : Nat) (e : Engine) : Engine :=
  (List.range 2).foldl (fun e d => e.modDeck d (fun x => { x with lanes := insertOnce lane x.lanes })) e

/-- BRIDGE_LANE_DISABLED (R224). -/
def execBridgeLaneDisabled (lane : Nat) (s : State) : Host.Outcome State Fault Refusal := onUnit (decide (lane < 36)) s (fun _ e => laneDisabled lane e)

/-! ### Proxy reads and recovery chains -/

/-- PROXY_READ: the ports of a COVERED site answer; a request to any other site that is not ACTIVE is consumed (R115, R211). -/
def proxyRead (t : Loc) (q : ProxyReq) (requester : Loc) (e : Engine) : Engine :=
  match e.siteState t with
  | .covered => e.proxyAnswer t q requester
  | .active => e
  | _ => e.modDeck (deckOf t.field) (fun d => d.fabCount 1 1)

/-- PROXY_READ (R115). -/
def execProxyRead (t : Loc) (q : ProxyReq) (requester : Loc) (s : State) : Host.Outcome State Fault Refusal :=
  onUnit (locOk t && locOk requester && (match q with | .kvSlot k => decide (k < kvSlots) | .nvPage p => decide (p < slabPages))) s
    (fun _ e => proxyRead t q requester e)

/-- Slab pages that the NV descriptors of a tile read through chains and that have not been asked for, in order. -/
def Engine.chainDue (e : Engine) (t : Loc) (img slot : Nat) : List Nat :=
  let ti := e.tile t
  let ext := e.readExtents t img slot
  (ti.nvQ.flatMap (fun j => (List.range j.count).map (· + j.first))).filter (fun p =>
    ti.viaChain slot p && !ti.recv.any (fun x => x.1 == p) &&
      !e.chains.any (fun c => c.dst == t && c.img == img && (match extIndex ext p with | some i => c.page == i | none => false)))

/-- The next chain that a member may begin: the first page that a tile of its group waits for (R403). -/
def Engine.newChain (e : Engine) (member : Loc) : Option Chain :=
  (e.imagesAt member).findSome? (fun x =>
    let (img, im, k, s) := x
    (im.group s.group).findSome? (fun y =>
      if y.1 = k then none
      else match e.locInSet im.footprint y.2.vtile with
        | none => none
        | some t =>
          match e.chainDue t img im.slot with
          | [] => none
          | p :: _ =>
            match extIndex (e.readExtents t img im.slot) p with
            | some i => some { img := img, slice := y.1, page := i, member := y.2.member, left := ((List.range 16).filter (· != y.2.member)), acc := zeroPage, dst := t }
            | none => none))

/-- A chain after its next member has added its page (R181, R403). -/
def Engine.chainStep (e : Engine) (c : Chain) : Chain :=
  match c.left with
  | [] => c
  | u :: r =>
    let im := e.image c.img
    let page := match im.slices[c.slice]? with
      | none => none
      | some s => (im.memberOf s.group u).bind (fun x => (chainPage x.2 c.member (c.page / s.parityPages) (c.page % s.parityPages)).map (fun p => e.slicePage c.img x.1 x.2 p))
    { c with left := r, acc := match page with | some bs => xorPages c.acc bs | none => c.acc }

/-- Is a site the next member of a chain? -/
def Engine.chainAt (e : Engine) (c : Chain) (t : Loc) : Bool :=
  let im := e.image c.img
  match c.left, im.slices[c.slice]? with
  | u :: _, some s => (im.memberOf s.group u).any (fun x => e.locInSet im.footprint x.2.vtile == some t)
  | _, _ => false

/-- RECOVERY_CHAIN_PAGE: a member adds its page to the k-th chain and forwards it; the last one sends the page to the site that
waits for it. With no k-th chain, the first member of a group begins the one that is due (R403). -/
def chainPageStep (member : Loc) (k : Nat) (e : Engine) : Engine :=
  let e := match e.chains[k]? with
    | some _ => e
    | none => match e.newChain member with
      | some c => if e.chainAt c member then { e with chains := e.chains ++ [c] } else e
      | none => e
  let k := min k (e.chains.length - 1)
  match e.chains[k]? with
  | none => e
  | some c =>
    if !e.chainAt c member then e
    else
      let c := e.chainStep c
      if c.left.isEmpty then
        let slot := (e.image c.img).slot
        let e' := { e with chains := e.chains.eraseIdx k }
        match extPage (e.readExtents c.dst c.img slot) c.page with
        | some p => e'.modTile c.dst (fun ti => { ti with recv := ti.recv ++ [(p, c.acc)] })
        | none => e'
      else { e with chains := e.chains.set k c }

/-- RECOVERY_CHAIN_PAGE (R403). -/
def execRecoveryChainPage (member : Loc) (k : Nat) (s : State) : Host.Outcome State Fault Refusal := onUnit (locOk member) s (fun _ e => chainPageStep member k e)

end Sys2Proof.Machine
end

