-- ==== Sys2Proof/Machine/Zport.lean ====
section
/-!
DEFINITION. Zarog ports (R352 to R364, R394, R487): training, codewords, LINK flits, packets, modules and connector faults.
-/
namespace Sys2Proof.Machine

/-- The engine has Zarog port z (Table 0.4). -/
def zportOk (z : Nat) : Bool := decide (z < 24)

/-- Deck of a Zarog port: 0 to 11 are on deck 0. -/
def zportDeck (z : Nat) : Nat := z / 12

/-- Code of a port state (Table 12.4). -/
def zCode : ZState → Nat
  | .disabled => 0
  | .detect => 1
  | .train => 2
  | .align => 3
  | .credit => 4
  | .up => 5
  | .backoff => 6
  | .parked => 7

/-- ZPORT_STAT (Table 12.5). -/
def ZPort.stat (k : ZPort) : Nat :=
  pack [(12, k.pnode), (5, k.pport), (15, 0), (16, k.rtt), (16, k.uncorr), (16, min 0xFFFF (k.corrRaw / 1000)), (16, k.replays), (8, 0), (4, k.reason), (5, k.attempts),
    (3, 0), (4, k.cls), (4, 0), (4, zCode k.state)]

/-- The port in a state from this tick on. -/
def Engine.zstate (e : Engine) (now z : Nat) (s : ZState) : Engine := e.modZport z (fun k => { k with state := s, since := now })

/-- A ledger event of a port: ZAROG_DOWN or ZAROG_PARKED with the low half of ZPORT_STAT. -/
def Engine.zportEvent (e : Engine) (now z code : Nat) : Engine :=
  e.event now (zportDeck z) { code := code, arg0 := (e.zport z).stat % 2 ^ 64, arg1 := z }

/-- A port leaves UP (R360): its flits that are not acknowledged, and those of packets that still wait at its output, are discarded and
counted, and each step that had some has a hardware fault. -/
def Engine.leaveUp (e : Engine) (now z : Nat) (s : ZState) (reason : Nat) : Engine :=
  let k := e.zport z
  let lost := k.inFlight.map (·.w) ++ k.queue
  let e := e.modZport z (fun k => { k with
    state := s, since := now, reason := reason, discards := k.discards + (lost.map ZWait.flits).foldl (· + ·) 0, inFlight := [], queue := [], credits := [], owed := []
    stopMask := 0, nak := none, replayTicks := [] })
  let e := lost.foldl (fun e w => e.faultOf w.part) e
  e.zportEvent now z (if s = .parked then 0x0503 else 0x0502)

/-- A port out of UP, or in any other state, to a new one. -/
def Engine.zmove (e : Engine) (now z : Nat) (s : ZState) (reason : Nat) : Engine :=
  if (e.zport z).state = .up then e.leaveUp now z s reason else (e.zstate now z s).modZport z (fun k => { k with reason := reason })

/-! ### Training (R358, R359) -/

/-- Does a port of an engine whose rails are up take part in link events? -/
def Engine.zlive (e : Engine) (z : Nat) : Bool := (e.zport z).enable && decide (4 ≤ e.power.stage) && !(e.deck (zportDeck z)).latchedOff

/-- A port event that a state and a condition allow. -/
def zevent (z : Nat) (st : ZState) (ok : Nat → ZPort → Bool) (f : Nat → Engine → Engine) (s : State) : Host.Outcome State Fault Refusal :=
  onUnit (zportOk z) s (fun now e => cond (e.zlive z && (e.zport z).state == st && ok now (e.zport z)) (f now) e)

/-- Entry to BACKOFF: ATTEMPTS counts, and the sixteenth parks the port (R359). -/
def Engine.zbackoff (e : Engine) (now z reason : Nat) : Engine :=
  let n := (e.zport z).attempts + 1
  let e := e.modZport z (fun k => { k with attempts := n })
  if 16 ≤ n then ((e.zstate now z .parked).modZport z (fun k => { k with reason := 8 })).zportEvent now z 0x0503
  else (e.zstate now z .backoff).modZport z (fun k => { k with reason := reason })

/-- Has the port been in its state for n ticks? -/
def ZPort.after (n : Nat) (now : Nat) (k : ZPort) : Bool := decide (k.since + n ≤ now)

/-- ZPORT_SIGNAL_DETECT (R358): an unpowered module's port stays in DETECT (R487). -/
def execZportSignalDetect (z : Nat) (s : State) : Host.Outcome State Fault Refusal :=
  zevent z .detect (fun _ k => k.powered) (fun now e => e.zstate now z .train) s

/-- ZPORT_TRAIN_DONE (R358). -/
def execZportTrainDone (z : Nat) (s : State) : Host.Outcome State Fault Refusal :=
  zevent z .train (fun _ _ => true) (fun now e => e.zstate now z .align) s

/-- ZPORT_TRAIN_TIMEOUT (R358): 500 ms. -/
def execZportTrainTimeout (z : Nat) (s : State) : Host.Outcome State Fault Refusal :=
  zevent z .train (ZPort.after 500000) (fun now e => e.zbackoff now z 2) s

/-- The identities that ALIGN exchanges: accepted, or the port is PARKED (R358, R362). -/
def zaligned (z : Nat) (partner : Word) (pport now : Nat) (e : Engine) : Engine :=
  let node := partner.toNat % 4096
  if partner.toNat / 4096 ≠ e.engineId.toNat / 4096 ∨ node = e.node ∨ node = 0xFFF ∨ e.node = 0xFFF then
    (e.zstate now z .parked).modZport z (fun k => { k with reason := 5 })
  else (e.zstate now z .credit).modZport z (fun k => { k with pnode := node, pport := pport % 32 })

/-- ZPORT_ALIGN_DONE (R358). -/
def execZportAlignDone (z : Nat) (partner : Word) (pport : Nat) (s : State) : Host.Outcome State Fault Refusal :=
  zevent z .align (fun _ _ => true) (zaligned z partner pport) s

/-- ZPORT_ALIGN_TIMEOUT (R358): 10 ms. -/
def execZportAlignTimeout (z : Nat) (s : State) : Host.Outcome State Fault Refusal :=
  zevent z .align (ZPort.after 10000) (fun now e => e.zbackoff now z 3) s

/-- Credits of every virtual channel at the start: the reserved flits of Table 12.3 (log entry 153). -/
def firstCredits : AMap Nat := [(1, 16), (2, 64), (3, 1024), (4, 1024), (5, 1024)]

/-- ZPORT_CREDIT_DONE: the port comes UP with its round trip, PACE packets begin (R358, R371), and the engines it leads to hear of this
engine's parts of spans (R365; log entry 152). -/
def credited (z rtt now : Nat) (e : Engine) : Engine :=
  let e := (e.zstate now z .up).modZport z (fun k => { k with
    rtt := rtt % 65536, credits := firstCredits, rxSeq := 0, txPos := 0, acked := 0, rxSince := 0, queue := [], inFlight := [], owed := [], rr := 5, nextPace := now + 64 })
  (e.sendPace now z).announceParts now (fun _ => true) (fun _ m => m.testBit z)

/-- ZPORT_CREDIT_DONE (R358). -/
def execZportCreditDone (z rtt : Nat) (s : State) : Host.Outcome State Fault Refusal :=
  zevent z .credit (fun _ _ => true) (credited z rtt) s

/-- ZPORT_CREDIT_TIMEOUT (R358): 10 ms. -/
def execZportCreditTimeout (z : Nat) (s : State) : Host.Outcome State Fault Refusal :=
  zevent z .credit (ZPort.after 10000) (fun now e => e.zbackoff now z 4) s

/-- ZPORT_LOSS_OF_SIGNAL (R360). -/
def execZportLossOfSignal (z : Nat) (s : State) : Host.Outcome State Fault Refusal :=
  zevent z .up (fun _ _ => true) (fun now e => e.leaveUp now z .detect 1) s

/-- Ticks that a port waits after attempt a (R359). -/
def backoffTicks (a : Nat) : Nat := min (2 ^ (a - 1) * 10000) 10000000

/-- ZPORT_BACKOFF_ELAPSED (R359). -/
def execZportBackoffElapsed (z : Nat) (s : State) : Host.Outcome State Fault Refusal :=
  zevent z .backoff (fun now k => ZPort.after (backoffTicks k.attempts) now k) (fun now e => e.zstate now z .detect) s

/-- ZPORT_UP_STABLE: 10 s in UP (R359). -/
def execZportUpStable (z : Nat) (s : State) : Host.Outcome State Fault Refusal :=
  zevent z .up (ZPort.after 10000000) (fun _ e => e.modZport z (fun k => { k with attempts := 0 })) s

/-! ### Codewords and LINK flits (R354 to R357) -/

/-- A codeword that the decoder has corrected, and one it could not correct (R354, Table 12.5). -/
def ZPort.counts (k : ZPort) (cw : Codeword) : ZPort :=
  if 15 < cw.errors then { k with uncorr := satAdd 0xFFFF k.uncorr 1 }
  else if cw.errors = 0 then k else { k with corrRaw := min 65535999 (k.corrRaw + 1) }

/-- A codeword at the receiver: one that is correctable and in order is accepted, and a LINK flit goes out after 32 of them; one that cannot
be corrected is discarded with a NAK for the one expected, and every later one until its replay (R355). -/
def zcodeword (z : Nat) (cw : Codeword) (now : Nat) (e : Engine) : Engine :=
  let e := e.modZport z (fun k => k.counts cw)
  let k := e.zport z
  if 15 < cw.errors then (e.modZport z (fun k => { k with nak := some k.rxSeq })).sendLink now z (some k.rxSeq)
  else if cw.seq % 65536 ≠ k.rxSeq then e
  else
    let e := e.modZport z (fun k => { k with rxSeq := (k.rxSeq + 1) % 65536, nak := none, rxSince := k.rxSince + 1 })
    if 32 ≤ (e.zport z).rxSince then e.sendLink now z none else e

/-- ZAROG_CODEWORD_RECEIVE (R355). -/
def execZarogCodewordReceive (z : Nat) (cw : Codeword) (s : State) : Host.Outcome State Fault Refusal :=
  zevent z .up (fun _ _ => true) (zcodeword z cw) s

/-- CWSEQ of the next codeword that a port begins. -/
def ZPort.txSeq (k : ZPort) (now : Nat) : Nat := ceilDiv (k.pos now) 10 % 65536

/-- A NAK: the sender replays from the codeword it names, one of the last 2,048 it sent; what precedes that codeword has arrived (R355). -/
def zreplay (z cwseq now : Nat) (e : Engine) : Engine :=
  let k := e.zport z
  if (k.txSeq now + 65536 - cwseq % 65536) % 65536 ≤ 2048 then
    (e.modZport z (fun k => { k with
      replays := satAdd 0xFFFF k.replays 1, replayTicks := k.replayTicks.filter (fun x => decide (now < x + 1000)) ++ [now], acked := (cwseq + 65535) % 65536 })).send (.replay z (cwseq % 65536))
  else e

/-- ZAROG_NAK (R355). -/
def execZarogNak (z cwseq : Nat) (s : State) : Host.Outcome State Fault Refusal :=
  zevent z .up (fun _ _ => true) (zreplay z cwseq) s

/-- ZPORT_REPLAY_LIMIT: more than 16 replays within 1 ms (R355). -/
def execZportReplayLimit (z : Nat) (s : State) : Host.Outcome State Fault Refusal :=
  zevent z .up (fun now k => decide (16 < (k.replayTicks.filter (fun x => decide (now < x + 1000))).length)) (fun now e => e.leaveUp now z .detect 6) s

/-- Is codeword a at or before b, modulo 2^16? -/
def seqLe (a b : Nat) : Bool := decide ((b + 65536 - a % 65536) % 65536 < 32768)

/-- A LINK flit: credits returned, codewords acknowledged, the stop mask (R357). -/
def ZPort.link (k : ZPort) (f : LinkFlit) : ZPort :=
  { k with
    credits := f.credits.foldl (fun m x => if x.1 = 0 ∨ 5 < x.1 then m else mmod (fun _ => 0) x.1 (fun n => min 32768 (n + x.2)) m) k.credits
    acked := f.ack % 65536
    inFlight := k.inFlight.filter (fun x => !seqLe x.last (f.ack % 65536))
    stopMask := f.stopMask % 2 ^ 32 }

/-- LINK_FLIT (R357): what it allows leaves the port. -/
def execLinkFlit (z : Nat) (f : LinkFlit) (s : State) : Host.Outcome State Fault Refusal :=
  zevent z .up (fun _ _ => true) (fun now e => (e.modZport z (fun k => k.link f)).zmoves now z) s

/-! ### Packets (R356, R363, R364) -/

/-- A packet discarded and counted at a port; its flits leave the receive buffer. -/
def Engine.zdiscard (e : Engine) (z : Nat) (p : ZPacket) : Engine := (e.modZport z (fun k => { k with discards := k.discards + 1 })).owe z p.vc (zpacketFlits p)

/-- A packet for this engine: a message goes to the virtual tile it names, within the partition's inbound credit; an imprint
frame to the session; a heartbeat to the pair. The other types are internal and have events of their own (R356, R363). A message that
lacks hem credit stays in the receive buffer: its event comes again (R226). -/
def Engine.zlocal (e : Engine) (now z : Nat) (p : ZPacket) : Engine :=
  let took (e : Engine) : Engine := e.owe z p.vc (zpacketFlits p)
  match p.type with
  | 1 =>
    match e.locOfV p.dpart p.dvtile with
    | none => e.zdiscard z p
    | some t =>
      let k : Packet := { src := t, dst := t, part := p.dpart, sys := p.sys, epoch := p.epoch, body := .msg p.mbox p.payload }
      match e.takeHem (zportDeck z) 1 (if p.sys then 32 else p.dpart) (zpacketFlits p) with
      | some e => took { e with flight := e.flight ++ [k] }
      | none => e
  | 5 => took { e with pair := { e.pair with lastBeat := now } }
  | 6 =>
    match e.takeHem (zportDeck z) 1 32 (zpacketFlits p) with
    | some e => took (e.takeFrame now p.payload)
    | none => e
  | _ => took e

/-- ZAROG_PACKET_RECEIVE: a packet is delivered locally, forwarded by its route, or discarded. One that finds no room in the receive buffer
has not been taken (R357). A packet of a reserved type, on another channel than its type's, or too long is discarded (log entry 154). -/
def zpacket (z : Nat) (p : ZPacket) (now : Nat) (e : Engine) : Engine :=
  if !packetFormed p then e.zdiscard z p
  else if p.snode = e.node then (e.zdiscard z p).leaveUp now z .parked 5
  else if p.dnode = e.node then e.zlocal now z p
  else if p.ttl ≤ 1 then e.zdiscard z p
  else match e.portTo none p.dnode p.siteSum with
    | none => e.zdiscard z p
    | some y =>
      if 32768 < e.rxHeld z + zpacketFlits p then e
      else e.zput now y { p := { p with ttl := p.ttl - 1 }, via := some z }

/-- ZAROG_PACKET_RECEIVE (R363). -/
def execZarogPacketReceive (z : Nat) (p : ZPacket) (s : State) : Host.Outcome State Fault Refusal :=
  zevent z .up (fun _ _ => true) (zpacket z p) s

/-! ### Modules and connectors (R394, R487) -/

/-- ZAROG_MODULE_INSERT (R487): a module above 30 W, or of none of the three kinds a cage accepts, is not powered. -/
def execZarogModuleInsert (z cls watts : Nat) (s : State) : Host.Outcome State Fault Refusal :=
  onUnit (zportOk z) s (fun _ e => e.modZport z (fun k => { k with cls := cls, powered := decide (watts ≤ 30) && decide (cls < 3) }))

/-- PORT_CONNECTOR_FAULT: the port's enable is cleared and it is held in electrical idle (R394). -/
def connectorFault (p : PortName) (now : Nat) (e : Engine) : Engine :=
  match p with
  | .pcie k => linkDown k now (e.modHport k (fun h => { h with enable := false }))
  | .zarog z =>
    let e := e.modZport z (fun k => { k with enable := false })
    if (e.zport z).state = .up then e.leaveUp now z .detect 1 else e

/-- PORT_CONNECTOR_FAULT (R394). -/
def execPortConnectorFault (p : PortName) (s : State) : Host.Outcome State Fault Refusal :=
  onUnit (match p with | .pcie k => decide (k < 8) | .zarog z => zportOk z) s (connectorFault p)

end Sys2Proof.Machine
end

