-- ==== Sys2Proof/Machine/PairOps.lean ====
section
/-!
DEFINITION. What pair commands share (R377 to R383): packets that wait for the twin, takeover, orphaning, handover.
-/
namespace Sys2Proof.Machine

/-- Engine with the pair changed. -/
def Engine.modPair (e : Engine) (f : Pair → Pair) : Engine := { e with pair := f e.pair }

/-- Paired partitions: PART.PAIR is not single. -/
def Engine.pairedParts (e : Engine) : List Nat := (List.range 32).filter (fun p => (e.part p).pair != 0)

/-- Token packets of step n, or of every step, released to the token FIFOs (R380, R381). -/
def Engine.releaseStep (e : Engine) (p : Nat) (f : Nat → Bool) : Engine :=
  let ks := (e.part p).heldPkts
  let e := e.modPart p (fun q => { q with heldPkts := q.heldPkts.filter (fun x => !f x.1) })
  ((ks.filter (fun x => f x.1)).flatMap (·.2)).foldl (fun e k => e.putPacket k.2) e

/-- A step that waits for a comparison computed anew (R382). -/
def Engine.redoDrawn (e : Engine) (p : Nat) : Engine :=
  match (e.part p).step with
  | some s => if s.drawn then e.haltStep p (fun s => { s with drawn := false }) else e
  | none => e

/-- The secondary becomes primary and goes on without its twin (R382). -/
def Engine.takeover (e : Engine) (now : Nat) : Engine :=
  let e := e.modPair (fun x => { x with primary := true, alone := true, handover := false })
  e.pairedParts.foldl (fun e p =>
    let e := (e.modPart p (fun q => { q with pair := 1, digest := none, digestFails := 0, unacked := [] })).redoDrawn p
    e.eventIn now e.chairDeck e.chairDeck { code := 0x0506, part := p, pvalid := true, arg0 := e.pair.partner.toNat, arg1 := (e.part p).lastAcked }) e

/-- Paired partitions orphaned: they step no more until PAIR_CFG selects single mode (R383). -/
def Engine.orphan (e : Engine) (now : Nat) : Engine :=
  let mask := e.pairedParts.foldl (fun m p => m + 2 ^ p) 0
  let e := e.pairedParts.foldl (fun e p => e.modPart p (fun q => { q with pair := 3 })) e
  e.supEvent now 0x0507 e.pair.partner.toNat mask

/-- A standby primary that hands its role over does so when no step of it runs or waits for its acknowledgement (R383). -/
def Engine.tryHandover (e : Engine) (now : Nat) : Engine :=
  if e.pair.handover && e.pairedParts.all (fun p => (e.part p).step.isNone && (e.part p).unacked.isEmpty) then
    let e := e.modPair (fun x => { x with primary := false, handover := false })
    e.pairedParts.foldl (fun e p => (e.modPart p (fun q => { q with pair := if q.pair = 1 then 2 else q.pair })).pairMsg now p 6 0) e
  else e

/-- Single mode: no partition is paired, and what waited for the twin goes on (R377, R383). -/
def Engine.unpair (e : Engine) : Engine :=
  let e := e.pairedParts.foldl (fun e p =>
    ((e.releaseStep p (fun _ => true)).redoDrawn p).modPart p (fun q => { q with pair := 0, unacked := [], digest := none, digestFails := 0, twinReady := false, selfReady := false })) e
  { e with pair := {} }

end Sys2Proof.Machine
end

