-- ==== Sys2Proof/Machine/StepAccept.lean ====
section
/-!
DEFINITION. The sampler, the accepted path, the norm watchers and acceptance (R42, R81 to R83, R255, R256, R291, R292, R305 to
R311, R380, R381, R417).
-/
namespace Sys2Proof.Machine

/-! ### The sampler's draw (R306) -/

/-- A number modulo 2^64. -/
def mod64 (x : Nat) : Nat := x % 2 ^ 64

/-- The mixing function of R306. -/
def rngMix (x : Nat) : Nat :=
  let x := mod64 (x + 0x9E3779B97F4A7C15)
  let x := mod64 ((x ^^^ (x >>> 30)) * 0xBF58476D1CE4E5B9)
  let x := mod64 ((x ^^^ (x >>> 27)) * 0x94D049BB133111EB)
  x ^^^ (x >>> 31)

/-- The counter-based generator of R306. -/
def rng (key pos : Nat) : Nat := rngMix (rngMix key ^^^ pos)

/-- Weight of a candidate: z and z0 are finite FP32 patterns or z is minus infinity; TEMP is above 0 (R306). -/
def drawWeight (temp z0 z : Nat) : Nat :=
  if fpInf z then 0
  else
    let d := max (rne ((fpVal z - fpVal z0) * 2 ^ 24) (fpMag temp)) (-expLim)
    let (m, i) := expKernel d
    if i < -136 then 0 else m * 2 ^ (i + 136).toNat

/-- Sums of the first elements of a list: the c-th is over elements 0 to c. -/
def prefixSums (l : List Nat) : List Nat := (l.foldl (fun a x => (a.1 + x, a.2 ++ [a.1 + x])) (0, ([] : List Nat))).2

/-- draw of R306 over (token, logit) candidates: a token, or none for POISON. -/
def drawToken (cs : List (Nat × Nat)) (temp topP k key pos : Nat) : Option Nat :=
  let z0 := (cs.headD (0, 0)).2
  if cs.any (fun c => fpNan c.2 || (fpInf c.2 && !fpNeg c.2)) || (fpInf z0 && fpNeg z0) then none
  else if fpZero temp then cs.head?.map (·.1)
  else
    let cs := cs.take (min k cs.length)
    let sums := prefixSums (cs.map (fun c => drawWeight temp z0 c.2))
    let total := sums.getLastD 0
    let j := (sums.findIdx? (fun s => decide (fpMag topP * total ≤ s * 2 ^ 149))).getD (sums.length - 1)
    let r := rng key pos * sums.getD j 0 / 2 ^ 64
    ((cs.zip sums).take (j + 1)).findSome? (fun (x : (Nat × Nat) × Nat) => if r < x.2 then some x.1.1 else none)

/-- The candidates stand in the order that R305 requires. -/
def ordered : List (Nat × Nat) → Bool
  | a :: b :: r => (fpLt b.2 a.2 || (fpEq a.2 b.2 && decide (a.1 < b.1))) && ordered (b :: r)
  | _ => true

/-! ### Sampler records (R305) -/

/-- Is a batch entry sampled? -/
def BatchEntry.sampled (b : BatchEntry) : Bool := b.kind == 1 || b.kind == 2 || (b.kind == 0 && b.lastOfChunk)

/-- Batch-entry indices of the sampled entries, in batch order. -/
def sampledOf (batch : List BatchEntry) : List Nat := (batch.zipIdx.filter (fun x => x.1.sampled)).map (·.2)

/-- Sites of the SAMPLE (or LOSS) node's spread in the order of R305. -/
def Engine.sampleSites (e : Engine) (p : Nat) : List Loc :=
  let g := e.graph (e.part p).graph
  match g.nodes[g.sample]? with | some n => e.spreadLocs p n | none => []

/-- The elements of a list that the tile of rank r of n owns. -/
def ownedBy (l : List Nat) (r n : Nat) : List Nat := (l.zipIdx.filter (fun x => x.2 % n == r)).map (·.1)

/-- What drawing from the records of the step gives. -/
inductive Draws where
  /-- A record or a header is not as R305 requires. -/
  | fault
  /-- The sampler read an uncorrectable word (R167). -/
  | bad (t : Loc) (word : Nat)
  /-- The token drawn for each sampled entry, by batch-entry index; none for POISON. -/
  | tokens (l : List (Nat × Option Nat))
deriving DecidableEq, Repr

/-- One record drawn, or none where it is a graph fault. -/
def Engine.drawRecord (e : Engine) (batch : List BatchEntry) (sp : Memory) (a idx : Nat) : Option (Option Nat) :=
  let w := readNat sp a 8
  let n := fld w 22 16
  let b := batch.getD idx {}
  let r := e.req b.req
  let cs := (List.range n).map (fun c => (readNat sp (a + 8 + 8 * c) 4, readNat sp (a + 12 + 8 * c) 4))
  if fld w 11 0 ≠ idx ∨ n = 0 ∨ 64 < n then none
  else match drawToken cs r.temp.toNat r.topP.toNat (r.topkM1 + 1) r.key.toNat (b.logpos + 1) with
    | none => some none
    | some t => if ordered cs then some (some t) else none

/-- The records of the tile of rank r drawn. -/
def Engine.drawTile (e : Engine) (p : Nat) (batch : List BatchEntry) (t : Loc) (owned : List Nat) : Draws :=
  match e.sampleRegion p t 3 with
  | none => if owned.isEmpty then .tokens [] else .fault
  | some (a, n) =>
    let len := 64 + 520 * owned.length
    match (e.tile t).firstBad a (min n len) with
    | some k => .bad t k
    | none =>
      if readNat (e.tile t).sp a 4 ≠ owned.length ∨ n < len then .fault
      else match (owned.zipIdx.mapM (fun x => (e.drawRecord batch (e.tile t).sp (a + 64 + 520 * x.2) x.1).map (fun d => (x.1, d)))) with
        | some l => .tokens l
        | none => .fault

/-- Draws of two tiles together: an uncorrectable word before a graph fault. -/
def Draws.join : Draws → Draws → Draws
  | .bad t k, _ => .bad t k
  | _, .bad t k => .bad t k
  | .tokens a, .tokens b => .tokens (a ++ b)
  | _, _ => .fault

/-- Every sampled entry drawn on its tile (R305, R306). -/
def Engine.drawAll (e : Engine) (p : Nat) (batch : List BatchEntry) : Draws :=
  let ts := e.sampleSites p
  let ss := sampledOf batch
  if ts.isEmpty then (if ss.isEmpty then .tokens [] else .fault)
  else ts.zipIdx.foldl (fun d x => d.join (e.drawTile p batch x.1 (ownedBy ss x.2 ts.length))) (.tokens [])

/-! ### The accepted path (R255, R307) -/

/-- What acceptance gives a request: its tokens, its new length, the keep copies as (from, to) slots, the end reason. -/
structure Accepted where
  req : Nat
  tokens : List Nat := []
  len : Nat := 0
  copies : List (Nat × Nat) := []
  path : List Nat := []                  -- nodes of the accepted path (R307)
  reason : Nat := 0
  poisoned : Bool := false
  used : Nat := 0                        -- prompt positions it passes
  final : Bool := true                   -- its item draws tokens
deriving DecidableEq, Repr

/-- The walk of R307 from node `cur`: the draws along the path and the nodes entered, or none where a POISON is met. -/
def walk (ds : List (Nat × Option Nat)) (es : List (BatchEntry × Nat)) : Nat → BatchEntry × Nat → Option (List Nat × List Nat)
  | 0, _ => some ([], [])
  | f + 1, cur =>
    match (ds.find? (fun d => d.1 == cur.2)).bind (·.2) with
    | none => none
    | some tok =>
      match es.find? (fun x => x.1.kind == 2 && x.1.parent == cur.1.node && x.1.token == tok) with
      | none => some ([tok], [])
      | some c => (walk ds es f c).map (fun r => (tok :: r.1, c.1.node :: r.2))

/-- Number of tokens kept by EOS and MAX_LEN, with the reason (R307). -/
def cutRun (r : Request) (toks : List Nat) : Nat × Nat :=
  let eos := if r.eos = 0xFFFFFFFF then none else toks.findIdx? (· == r.eos)
  let room := r.maxLen - r.outCnt
  let lim := if r.maxLen = 0 ∨ toks.length < room then none else some (max room 1 - 1)
  match eos, lim with
  | some a, some b => if a ≤ b then (a + 1, 1) else (b + 1, 2)
  | some a, none => (a + 1, 1)
  | none, some b => (b + 1, 2)
  | none, none => (toks.length, 0)

/-- The outcome of one request of the step. -/
def Engine.acceptReq (e : Engine) (batch : List BatchEntry) (ds : List (Nat × Option Nat)) (q : Nat) : Accepted :=
  let r := e.req q
  let es := batch.zipIdx.filter (fun x => x.1.req == q)
  let prompts := (es.filter (fun x => x.1.kind == 0)).length
  let n := match es with | x :: _ => x.1.len | [] => r.len
  match es.find? (fun x => x.1.kind == 1 || (x.1.kind == 0 && x.1.lastOfChunk)) with
  | none => { req := q, len := n + prompts, used := prompts, final := false }
  | some root =>
    if root.1.kind = 0 ∧ root.1.finalChunk = false then { req := q, len := n + prompts, used := prompts, final := false }
    else match walk ds es 17 root with
      | none => { req := q, len := n, poisoned := true, reason := 5 }
      | some (toks, path) =>
        let (k, why) := cutRun r toks
        let base := if prompts = 0 then 1 else prompts
        { req := q, tokens := toks.take k, len := n + base + (k - 1), reason := why, used := prompts, path := path.take (k - 1)
          copies := ((path.take (k - 1)).zipIdx.filter (fun x => x.1 != x.2 + 1)).map (fun x => (n + x.1, n + x.2 + 1)) }

/-- Requests of a step in batch order, without those that a cancel or a lost slot took out of it. -/
def Engine.stepReqs (e : Engine) (s : Step) : List Nat :=
  ((s.batch.map (·.req)).eraseDups).filter (fun q => !s.excluded.contains q && (match (e.req q).state with | .prefill | .decode | .verify => true | _ => false))

/-! ### The digest of a mirrored step (R380) -/

/-- Eight steps of the CRC-64 of ECMA-182 (log entry 35). -/
def crc64Shift : Nat → Nat → Nat
  | 0, c => c
  | n + 1, c => crc64Shift n (if c.testBit 63 then mod64 (2 * c) ^^^ 0x42F0E1EBA9EA3693 else 2 * c)

/-- CRC-64 of bytes. -/
def crc64 (bs : List Byte) : Nat := bs.foldl (fun c b => crc64Shift 8 (c ^^^ (b.toNat * 2 ^ 56))) 0

/-- The digest over each request's REQ, COUNT, tokens and REASON, as 32-bit numbers. -/
def digestOf (l : List Accepted) : Word :=
  BitVec.ofNat 64 (crc64 (l.flatMap (fun a => (a.req :: a.tokens.length :: (a.tokens ++ [a.reason])).flatMap (natBytes · 4))))

/-! ### Norm watchers (R81, R82) -/

/-- The exact comparison of a product of FP32 values with a third, as a sign: below 0 where `a * b < c`, above 0 where it is greater;
none where a value is NaN or infinity meets zero. -/
def compareProduct (a b c : Nat) : Option Int :=
  let side (s : Bool) : Int := if s then -1 else 1
  let neg := fpNeg a != fpNeg b
  if fpNan a || fpNan b || fpNan c || (fpInf a && fpZero b) || (fpZero a && fpInf b) then none
  else if fpInf a || fpInf b then (if fpInf c && fpNeg c == neg then some 0 else some (side neg))
  else if fpInf c then some (side (!fpNeg c))
  else some (fpVal a * fpVal b - fpVal c * 2 ^ 149)

/-- m > f * x, compared exactly. -/
def gtProduct (m f x : Nat) : Bool := match compareProduct f x m with | some d => decide (d < 0) | none => false

/-- m * f < x, compared exactly. -/
def ltProduct (m f x : Nat) : Bool := match compareProduct m f x with | some d => decide (d < 0) | none => false

/-- The mean square of a tally as FP32. -/
def Tally.mean (t : Tally) : Nat := (fpRound 24 false t.sq (t.cnt * 2 ^ 149)).bits

/-- The tests of R81 on a tally: the limits, and the factor against MEAN. -/
def NormWatch.fails (x : NormWatch) (t : Tally) : Bool :=
  let m := t.mean
  let f := x.factor.toNat
  (x.vanLimit != 0 && decide (x.vanLimit < t.van)) || (x.satLimit != 0 && decide (x.satLimit < t.sat)) ||
    (t.cnt != 0 && x.warmup == 0 && !fpZero x.mean.toNat &&
      ((x.dir != 2 && gtProduct m f x.mean.toNat) || (x.dir != 1 && ltProduct m f x.mean.toNat)))

/-- WARMUP and MEAN after an evaluation (R81). -/
def NormWatch.next (x : NormWatch) (t : Tally) : NormWatch :=
  let m := t.mean
  let mean := x.mean.toNat
  { x with
    warmup := x.warmup - 1
    mean := BitVec.ofNat 32 (if fpZero mean then m else fpAdd 24 mean (fpMul 24 (fpSub 24 m mean) ((127 - x.alpha) * 2 ^ 23))) }

/-- The tallies of one request under an entry: those of its batch entries together. -/
def Part.reqTally (q : Part) (batch : List BatchEntry) (entry req : Nat) : Tally :=
  (batch.zipIdx.filter (fun x => x.1.req == req)).foldl (fun t x =>
    let y := mget (fun _ => ({} : Tally)) (tallyKey entry (1 + x.2)) q.tally
    { sq := t.sq + y.sq, cnt := t.cnt + y.cnt, van := t.van + y.van, sat := t.sat + y.sat }) {}

/-- What the watchers of a step decide: the requests to pause, whether the partition pauses, whether ADAPT_SEL stays (R292). -/
structure Watched where
  pause : List Nat := []
  all : Bool := false
  keepHalf : Bool := false
deriving DecidableEq, Repr

/-- One entry evaluated (R81, R82). -/
def Engine.watchEntry (e : Engine) (now p : Nat) (batch : List BatchEntry) (qs : List Nat) (w : Watched) (entry : Nat) : Engine × Watched :=
  let q := e.part p
  let x := mget (fun _ => ({} : NormWatch)) entry q.watch
  let t := mget (fun _ => ({} : Tally)) (tallyKey entry 0) q.tally
  if !x.enable || t.cnt == 0 then (e, w)
  else
    let whole := x.fails t
    let own := if x.action = 1 then qs.filter (fun r =>
      let u := q.reqTally batch entry r
      (u.cnt != 0 || u.van != 0 || u.sat != 0) && x.fails u) else []
    let e := e.modPart p (fun q => { q with watch := mset (fun _ => {}) entry (x.next t) q.watch })
    let e := if whole || !own.isEmpty then e.partEvent now p 0x0105 (t.mean * 2 ^ 32 + x.mean.toNat) entry else e
    (e, { pause := w.pause ++ own, all := w.all || (whole && x.action == 2), keepHalf := w.keepHalf || (whole && x.kind && (x.action == 1 || x.action == 2)) })

/-- The entries that the step's emits named. -/
def Part.namedEntries (q : Part) : List Nat := ((q.tally.filter (fun x => x.1 % 4097 == 0)).map (fun x => x.1 / 4097)).filter (fun n => decide (n < 512))

/-- Every entry evaluated. -/
def Engine.watch (e : Engine) (now p : Nat) (batch : List BatchEntry) (qs : List Nat) : Engine × Watched :=
  ((e.part p).namedEntries).foldl (fun a n => a.1.watchEntry now p batch qs a.2 n) (e, {})

/-! ### Acceptance -/

/-- How the token packets of a step leave: to the FIFOs, held for the standby twin, or not at all on a mirror secondary (R380,
R381). -/
inductive Outlet where
  | fifo | held | dropped
deriving DecidableEq, Repr

/-- The outlet of a partition's packets. -/
def Engine.outlet (e : Engine) (p : Nat) : Outlet :=
  let q := e.part p
  if e.pair.alone || q.pair == 0 then .fifo
  else if e.pair.mode = 1 then (if q.pair = 2 then .dropped else .fifo)
  else if e.pair.mode = 2 then .held else .fifo

/-- One packet of a step. -/
def Engine.stepPacket (e : Engine) (o : Outlet) (p start : Nat) (a : Accepted) : Engine :=
  let fin := a.reason == 1 || a.reason == 2
  let e := e.modReq a.req (fun r => { r with outCnt := (r.outCnt + a.tokens.length) % 2 ^ 32, reason := a.reason })
  let k := (e.req a.req).packet a.req start a.tokens a.reason fin
  match o with
  | .fifo => e.putPacket k
  | .dropped => e
  | .held => e.modPart p (fun q =>
      if q.heldPkts.any (fun x => x.1 == q.stepNo) then
        { q with heldPkts := q.heldPkts.map (fun (x : Nat × List (Nat × TokenPacket)) => if x.1 = q.stepNo then (x.1, x.2 ++ [(a.req, k)]) else x) }
      else { q with heldPkts := q.heldPkts ++ [(q.stepNo, [(a.req, k)])] })

/-- Keep copies and the new length of a request (R255). -/
def Engine.keep (e : Engine) (g : Graph) (a : Accepted) : Engine :=
  ((a.copies.foldl (fun e c => e.copyEntry a.req g c.1 c.2) e).advance a.req a.len g).modReq a.req (fun r => { r with prompt := r.prompt.drop a.used })

/-- Updates that arrived during the step applied to an entry that has become DONE (R312). -/
def Engine.flushUpdates (e : Engine) (q : Nat) : Engine :=
  e.modReq q (fun r => { r.update.foldl (fun r u => r.apply u.1 u.2) r with update := [] })

/-- The poison event of each request whose logits include a poisoned value, whatever else pauses it in the step (R66). -/
def Engine.poisonEvents (e : Engine) (p now : Nat) (l : List Accepted) : Engine :=
  (l.filter (·.poisoned)).foldl (fun e a => e.partEvent now p 0x0104 0 a.req) e

/-- The state of a request after acceptance, and its packet: one whose logits include a poisoned value is paused as by a norm
watcher (R66). -/
def Engine.settle (e : Engine) (o : Outlet) (p start : Nat) (g : Graph) (a : Accepted) : Engine :=
  if a.poisoned then
    let e := e.modReq a.req (fun r => { r with prior := if r.state = .verify then .decode else r.state, state := .paused, pauseSrc := 2, tree := none, pauseReq := false })
    e.stepPacket o p start a
  else
    let e := e.keep g a
    if !a.final then e
    else
      let ended := a.reason == 1 || a.reason == 2
      let e := e.modReq a.req (fun r => { r with
        state := if ended then .done else .decode
        newest := a.tokens.getLast?
        tree := if ended then none else r.tree
        pauseReq := r.pauseReq && !ended })
      let e := cond ended (fun e => e.flushUpdates a.req) e
      e.stepPacket o p start a

/-- The loss of batch entry i: on the tile of rank i mod NS, at word i div NS of its LOSS region (log entry 40). -/
def Engine.lossOf (e : Engine) (p i : Nat) : Nat :=
  let ts := e.sampleSites p
  match ts[i % ts.length]? with
  | none => 0
  | some t => match e.sampleRegion p t 4 with | some (a, n) => if 4 * (i / ts.length) + 4 ≤ n then readNat (e.tile t).sp (a + 4 * (i / ts.length)) 4 else 0 | none => 0

/-- A training request's positions pass and its losses go to the store; the prompt's end makes it DONE (R291, R311). -/
def Engine.trainReqs (e : Engine) (p start : Nat) (batch : List BatchEntry) (g : Graph) (qs : List Nat) : Engine :=
  let ls := (batch.zipIdx.filter (fun x => qs.contains x.1.req)).map (fun x => (x.1.req, x.1.logpos, e.lossOf p x.2, start))
  let e := e.modPart p (fun q => { q with losses := q.losses ++ ls })
  qs.foldl (fun e q =>
    let es := batch.filter (fun b => b.req == q)
    let n := (e.req q).len
    let e := e.keep g { req := q, len := n + es.length, used := es.length }
    if es.any (·.finalChunk) then (e.modReq q (fun r => { r with state := .done, reason := 7, pauseReq := false })).flushUpdates q else e) e

/-- Step counters 8 to 13 of every tile added to the capture area and to the deck's sums (R417). -/
def Engine.stepCounters (e : Engine) (p : Nat) : Engine :=
  (e.graphTiles p).foldl (fun e t =>
    let ti := e.tile t
    let e := e.modTile t (fun ti => { ti with
      sp := (List.range 6).foldl (fun m k => writeNat m (0x1FC010 + 4 * k) (satAdd 0xFFFFFFFF (readNat m (0x1FC010 + 4 * k) 4) (mget (fun _ => 0) (8 + k) ti.stepCnt)) 4) ti.sp })
    e.modDeck (deckOf t.field) (fun d => { d with
      sums := (List.range 6).foldl (fun m k => mmod (fun _ => 0) k (fun x => satAdd 0xFFFFFFFF x (mget (fun _ => 0) (8 + k) ti.stepCnt)) m) d.sums })) e

/-- A step's replication (R381): the entries of its requests, the kept KV entries of each, the rows that each has left, and of a training
graph the adapter half that the step wrote, which acceptance has made the one that is read. -/
def Engine.replication (e : Engine) (p : Nat) (s : Step) (half : Bool) : Replication :=
  let g := e.graph (e.part p).graph
  let qs := (s.batch.map (·.req)).eraseDups
  { stepNo := (e.part p).stepNo, reqs := qs.map (fun q => (q, (e.req q).word)), newest := qs.filterMap (fun q => ((e.req q).newest).map (fun t => (q, t)))
    kv := qs.flatMap (fun q =>
      let n := ((s.batch.find? (fun b => b.req == q)).map (·.len)).getD 0
      (List.range ((e.req q).len - n)).flatMap (fun i => (List.range g.streams.length).filterMap (fun σ =>
        (e.slotAt q g.streams.length σ ((n + i) / 64)).map (fun x =>
          let b := e.position x ((n + i) % 64)
          { req := q, stream := σ, slotPos := n + i, elems := b.1, tags := b.2.1, norms := b.2.2 }))))
    freed := qs.map (fun q => (q, (e.req q).rows))
    adapter := if half then (e.partTiles p).map (fun t => (t, (e.adaptHalf p t 0).flatMap (fun k => e.kvBytes (t, k) 0 16384))) else [] }

/-- What a standby primary sends after each acceptance (R381). -/
def Engine.replicate (e : Engine) (now : Nat) (o : Outlet) (p : Nat) (s : Step) (half : Bool) : Engine :=
  if o = .held then (e.modPart p (fun q => { q with unacked := q.unacked ++ [q.stepNo] })).twin now p (.replicate p (e.replication p s half)) else e

/-- Part 0 of a span sends each request's accepted path to every part (R366). -/
def Engine.sendPaths (e : Engine) (now p : Nat) (l : List Accepted) : Engine :=
  let ps := l.map (fun a => (a.req, a.len, a.path))
  (e.spanOthers p).foldl (fun e n =>
    e.spanData now p n.1 n.2 0 (ps.flatMap (fun a => natBytes a.1 4 ++ natBytes a.2.1 4 ++ a.2.2.flatMap (fun c => natBytes c 4))) (.paths n.2 ps)) e

/-- The partition's step has closed: its counters, its duration, and IDLE (R417, Table 10.7), or PAUSED where another part of its span has
paused (R367). -/
def Engine.endStep (e : Engine) (p now start : Nat) : Engine :=
  let after := (e.part p).pauseAfter
  let e := ((e.recordLate now p start).stepCounters p).modPart p (fun q => { q with
    state := if q.state = .stepping then .idle else q.state, step := none, tally := [], digest := none, digestFails := 0, lastStep := (now - start) * 1000 % 2 ^ 32 })
  (cond after (fun e => e.pausePart p now .normWatch) e).tryHandover now

/-- Acceptance of a serving step whose entries have been drawn (R42, R81, R255, R307, R308). Where an entry with ACTION 0b10
triggers, every request is paused with the partition, those that failed their own tests too (DEDUCED, log 135). What
a part of the span has found counts like what this one finds (R366, R367; log entry 155). -/
def Engine.acceptServing (e : Engine) (p now : Nat) (s : Step) (ds : List (Nat × Option Nat)) : Engine :=
  let g := e.graph (e.part p).graph
  let qs := e.stepReqs s
  let far := e.part p
  let (e, w) := e.watch now p s.batch qs
  let w := { w with pause := w.pause ++ far.failed, all := w.all || far.pauseAfter }
  let o := e.outlet p
  let e := e.poisonEvents p now (qs.map (fun q => e.acceptReq s.batch ds q))
  if w.all then (((e.sendPaths now p []).pausePart p now .normWatch).replicate now o p s false).endStep p now s.start
  else
    let l := (qs.filter (fun q => !w.pause.contains q)).map (fun q => e.acceptReq s.batch ds q)
    let e := qs.foldl (fun e q =>
      if w.pause.contains q then
        let e := e.modReq q (fun r => { r with prior := if r.state = .verify then .decode else r.state, state := .paused, pauseSrc := 2, tree := none, pauseReq := false })
        e.stepPacket o p s.start { req := q, reason := 6 }
      else match l.find? (fun a => a.req == q) with
        | some a => e.settle o p s.start g a
        | none => e) e
    (((e.sendPaths now p l).replicate now o p s false).endStep p now s.start)

/-- Acceptance of a training step (R291, R292). -/
def Engine.acceptTraining (e : Engine) (p now : Nat) (s : Step) : Engine :=
  let g := e.graph (e.part p).graph
  let qs := e.stepReqs s
  let (e, w) := e.watch now p s.batch qs
  let o := e.outlet p
  let e := if w.keepHalf then e else e.modPart p (fun q => { q with adaptSel := 1 - q.adaptSel })
  if w.all then ((e.pausePart p now .normWatch).replicate now o p s (!w.keepHalf)).endStep p now s.start
  else
    let e := e.trainReqs p s.start s.batch g (qs.filter (fun q => !w.pause.contains q))
    let e := w.pause.eraseDups.foldl (fun e q => e.pauseReq q now 2 6) e
    (e.replicate now o p s (!w.keepHalf)).endStep p now s.start

/-- A mirrored partition that waits for its twin's digest before acceptance (R380). -/
def Engine.mirrored (e : Engine) (p : Nat) : Bool := e.pair.mode == 1 && !e.pair.alone && ((e.part p).pair == 1 || (e.part p).pair == 2)

/-- What the digest covers of a training step: the losses in place of tokens, and the reason of the prompt's end (note N5). -/
def Engine.lossRuns (e : Engine) (p : Nat) (s : Step) : List Accepted :=
  (e.stepReqs s).map (fun q =>
    let es := s.batch.zipIdx.filter (fun x => x.1.req == q)
    { req := q, tokens := es.map (fun x => e.lossOf p x.2), reason := if es.any (·.1.finalChunk) then 7 else 0 })

/-- The digest of the step's outcome on this engine. -/
def Engine.ownDigest (e : Engine) (p : Nat) (s : Step) (ds : List (Nat × Option Nat)) : Word :=
  if (e.graph (e.part p).graph).train then digestOf (e.lossRuns p s) else digestOf ((e.stepReqs s).map (fun q => e.acceptReq s.batch ds q))

/-- Acceptance of the partition's step (R42). -/
def Engine.acceptStep (e : Engine) (p now : Nat) (s : Step) (ds : List (Nat × Option Nat)) : Engine :=
  if (e.graph (e.part p).graph).train then e.acceptTraining p now s else e.acceptServing p now s ds

/-- The step's draws; none for a training step, whose graph has no SAMPLE node (R291). -/
def Engine.drawStep (e : Engine) (p : Nat) (s : Step) : Draws :=
  if (e.graph (e.part p).graph).train then .tokens [] else e.drawAll p s.batch

/-- Agreement or disagreement of the twins' digests (R380): the first disagreement re-executes the step, the second abandons
it. -/
def Engine.compareDigest (e : Engine) (p now : Nat) (s : Step) (ds : List (Nat × Option Nat)) (twin : Word) : Engine :=
  if twin = e.ownDigest p s ds then e.acceptStep p now s ds
  else if (e.part p).digestFails = 0 then (e.haltStep p id).modPart p (fun q => { q with digest := none, digestFails := 1 })
  else
    let d := if (e.part p).pair = 1 then e.ownDigest p s ds else twin
    (e.partEvent now p 0x0109 d.toNat (e.part p).stepNo).abandonStep p now

/-- After the draws: acceptance, or on a mirrored partition the digest sent and compared once both are there. -/
def Engine.afterDraw (e : Engine) (p now : Nat) (s : Step) (ds : List (Nat × Option Nat)) : Engine :=
  if !e.mirrored p then e.acceptStep p now s ds
  else
    let e := if s.drawn then e else (e.modPart p (fun q => { q with step := some { s with drawn := true } })).pairMsg now p 1 (e.ownDigest p s ds).toNat
    match (e.part p).digest with
    | none => e
    | some d => e.compareDigest p now s ds d

end Sys2Proof.Machine
end

