-- ==== Sys2Proof/Machine/PowerOps.lean ====
section
/-!
DEFINITION. Power, throttling and recovery as several commands share them (R391, R421 to R440, R447 to R462): clock domains and
their levels, healthy phases, steps dropped, commits, what is lost with the rails, recovery, decks that latch off.
-/
namespace Sys2Proof.Machine

/-! ### Clock domains and levels (R425, R438, R439) -/

/-- A hem domain. -/
def isHem (d : Nat) : Bool := d == 24 || d == 25 || d == 53 || d == 54

/-- Is the domain throttleable (R438)? -/
def throttleable (d : Nat) : Bool := (pairOf d).isSome || isHem d

/-- Deck of a clock domain. -/
def domainDeck (d : Nat) : Nat := if d < 29 then 0 else 1

/-- Minimum level of Table 14.2; with 2 or fewer phases the clock stops, and the level is that of the row above. -/
def phaseLevel (h : Nat) : Nat := if 10 ≤ h then 0 else if h = 9 then 2 else if h = 8 then 4 else if h = 7 then 5 else if h = 6 then 7 else if h = 5 then 8 else 9

/-- Effective level of a domain (R439). -/
def Engine.levelOf (e : Engine) (d : Nat) : Nat :=
  if !throttleable d then 0
  else
    let x := e.domain d
    max (max x.thermal (if e.sup.flowResp then 9 else 0))
      (if (pairOf d).isSome then max (max (phaseLevel (e.domainPhases d)) e.sup.capLevel) (if x.crack then 8 else 0) else 0)

/-- A power or thermal event: the ledger is that of the deck itself for its phases and zones, of the chair for what the
supervisor measures; DECK and FIELD name the unit (R447). -/
def Engine.powerEvent (e : Engine) (now : Nat) (own : Bool) (deck field code arg0 arg1 : Nat) : Engine :=
  e.eventIn now (if own then deck else e.chairDeck) deck { code := code, field := field, arg0 := arg0, arg1 := arg1 }

/-- THROTTLE for every domain whose effective level differs from what it was in `e0`; cause 0 thermal, 1 phase, 2 cap, 3 crack,
4 flow (R440, Table 14.9). -/
def Engine.throttled (e : Engine) (now cause : Nat) (e0 : Engine) : Engine :=
  ((List.range 60).filter throttleable).foldl (fun e d =>
    let a := e0.levelOf d
    let b := e.levelOf d
    if a = b then e else e.powerEvent now false (domainDeck d) 0xFF 0x0608 (d + b * 256 + a * 4096 + cause * 65536) (ofSigned 32 (e.domain d).t8)) e

/-! ### Steps dropped without effect (R391, R431, R456) -/

/-- A running step ends without any of its effects and without a ledger event (R395): its requests are where the last
acceptance left them. -/
def Engine.dropStep (e : Engine) (p : Nat) : Engine :=
  if (e.part p).step.isNone then e
  else
    let e := (e.reqsWhere (fun r => r.part == p && r.state == .verify)).foldl (fun e q => e.modReq q (fun r => { r with state := .decode })) e
    (e.clearStep p).modPart p (fun q => { q with step := none, tally := [], state := if q.state = .stepping then .idle else q.state, digest := none, digestFails := 0 })

/-- Every running step dropped. -/
def Engine.dropSteps (e : Engine) : Engine := (List.range 32).foldl (fun e p => e.dropStep p) e

/-- Partitions whose field set holds a field that satisfies a test. -/
def Engine.partsOn (e : Engine) (f : Nat → Bool) : List Nat := (List.range 32).filter (fun p => (e.partFields p).any f)

/-- A partition that loses its clock or its zone: its running step is abandoned without effect, and it pauses (R425). -/
def Engine.stopPart (e : Engine) (now p : Nat) : Engine :=
  (e.dropStep p).pausePart p now .phases

/-! ### Commits (R431, R433, R461, R462) -/

/-- Request entries that a deck holds. -/
def entryDeck (i : Nat) : Nat := i / 16384

/-- What a commit writes for the request entries that `f` selects; the others keep what they had. -/
def Engine.commitWhere (e : Engine) (now : Nat) (f : Nat → Bool) : Engine :=
  let old := e.commit.reqs.filter (fun x => !f x.1)
  { e with commit := {
      reqs := (e.reqs.filter (fun x => f x.1)).foldl (fun m x => mset (fun _ => {}) x.1 x.2 m) old
      parts := e.parts, tenants := e.tenants, tick := now } }

/-- The commit of the whole engine: the entries of a deck that is latched off stay as they were committed (R428). -/
def Engine.commitAll (e : Engine) (now : Nat) : Engine := e.commitWhere now (fun i => !(e.deck (entryDeck i)).latchedOff)

/-! ### What is lost (R428, R431, R449, Tables 15.3 to 15.5) -/

/-- A tile without its scratchpad and DRAM contents: the weight slab, the extent tables and withdrawn slots stay. -/
def Tile.bare (ti : Tile) : Tile :=
  { nv := ti.nv, nvBad := ti.nvBad, flagged := ti.flagged, stripes := ti.stripes, ext := ti.ext, resident := ti.resident, recovering := ti.recovering
    slotUse := ti.slotUse.filter (fun x => x.2 == .withdrawn) }

/-- The tiles of the fields that satisfy a test, bare. -/
def Engine.bareTiles (e : Engine) (f : Nat → Bool) : Engine :=
  { e with tiles := e.tiles.foldl (fun m x => if f (x.1 / 720) then mset (fun _ => {}) x.1 x.2.bare m else m) e.tiles }

/-- Functions on the host ports that satisfy a test back at their power-up registers (Table 15.4). -/
def Engine.dropFns (e : Engine) (f : Nat → Bool) : Engine :=
  let gone (k : Nat) : Bool := if k < 8 then f k else f (fld (e.vfWord (k - 8)) 2 0)
  { e with
    fns := e.fns.filter (fun x => !gone x.1)
    tenants := e.tenants.foldl (fun m x => if gone (8 + x.1) then mset (fun _ => {}) x.1 x.2.noPackets m else m) e.tenants }

/-- Zarog ports of the decks that satisfy a test DISABLED, at their reset values (Tables 12.4, 12.5); an UP port first discards its
unacknowledged flits (R360). The module, its power and the connector's enable stay (R394, R487). -/
def Engine.dropZports (e : Engine) (now : Nat) (f : Nat → Bool) : Engine :=
  ((List.range 24).filter (fun z => f (z / 12))).foldl (fun e z =>
    (e.zmove now z .disabled 0).modZport z (fun k => { cls := k.cls, powered := k.powered, enable := k.enable, since := now, discards := k.discards })) e

/-- Repairs of tiles that satisfy a test dropped: the previous placement stays (R194). -/
def Engine.dropRepairs (e : Engine) (f : Loc → Bool) : Engine := (e.repairs.filter (fun r => f r.target)).foldl (fun e r => e.dropRepair r) e

/-- Graphs on an image whose footprint has a field that satisfies a test, FREE (Table 15.4). -/
def Engine.dropGraphs (e : Engine) (f : Nat → Bool) : Engine :=
  (e.graphs.filter (fun x => (setBits (e.image x.2.image).footprint 96).any f)).foldl (fun e x => e.modGraph x.1 (fun _ => {})) e

/-- Images with overflow or reserve pages INCOMPLETE again where their footprint has a field that satisfies a test (R201). -/
def Engine.dropTiers (e : Engine) (f : Nat → Bool) : Engine :=
  { e with images := e.images.map (fun (x : Nat × Image) =>
      if (setBits x.2.footprint 96).any f && (x.2.state == .ready || x.2.state == .degraded) && x.2.slices.any (fun s => s.ovf + s.spill != 0)
      then (x.1, { x.2 with state := .incomplete, tier := [], region := none }) else x) }

/-- A deck that loses its controllers: ledger, counters, intake and schedule are gone; what the supervisor holds of it stays, and the rate
that a session raised is still to come back (R227). -/
def Deck.dark (d : Deck) : Deck :=
  { savedIn := d.savedIn, fillAt := d.fillAt, fwCap := d.fwCap, latchedOff := d.latchedOff, attempts := d.attempts, hostCr := d.hostCr, zarogCr := d.zarogCr, lanes := d.lanes
    rails := { vnv := false, vdram := false, vio := false, vcore := false, vctl := false }
    ctl := { running := false } }

/-- Snapshots and restores end without effect; capture holds fall (R458, R465). -/
def Engine.loseSnaps (e : Engine) : Engine :=
  { e with snaps := [], parts := e.parts.map (fun (x : Nat × Part) => (x.1, { x.2 with capture := false })) }

/-- The engine without what its rails hold up: powered down to Off (R431, Table 15.3). -/
def Engine.unpowered (e : Engine) (now : Nat) : Engine :=
  let e := ((e.dropSteps.loseSnaps).dropZports now (fun _ => true)).dropRepairs (fun _ => true)
  let e := (e.bareTiles (fun _ => true)).dropTiers (fun _ => true)
  let e := (List.range 2).foldl (fun e d => e.modDeck d Deck.dark) e
  let e := (List.range 8).foldl (fun e k => e.modHport k (fun h => { h with up := false, waiting := [] })) e
  { e with
    parts := [], reqs := [], tenants := [], graphs := [], fns := [], vfAssign := [], zroute := [], pair := {}, monitors := [], flight := [], signals := [], chains := [],
    remaps := [], siteResets := [], resets := [], xstopDue := [], heard := []
    sup := { e.sup with
      chair := [.none, .none, .none], safeHold := false, startsHeld := false, capLevel := 0, capLow := 0, voteFails := []
      flowResp := false, flowLow := none, warm := none }
    domains := e.domains.map (fun (x : Nat × Domain) => (x.1, { x.2 with thermal := 0, cool := 0, crack := false, ms := 0 })) }

/-- A session that a power loss or a reset ends: its stripes are freed and its image is ABSENT (R188, R193). -/
def Engine.endSession (e : Engine) (now : Nat) : Engine := e.abortSession now .cartridge

/-- Off (R448): nothing answers any more, and an open session's stripes are free. -/
def Engine.enterOff (e : Engine) (now : Nat) : Engine :=
  let e := (({ e with session := { e.session with hd := none } } : Engine).endSession now).unpowered now
  { e with
    power := { e.power with state := .off, stage := 0, up := false, down := false, goal := .off, hds := [] } }

/-! ### Recovery (R454, R462) -/

/-- A request entry as recovery finds it in the commit. -/
def Request.recovered (r : Request) : Request :=
  let r := { r with pageHead := noPage, rows := 0, tree := none, heldPkts := [], pauseReq := false, resumeReq := false, outCnt := r.delivered, prompt := [] }
  match r.state with
  | .idle | .cancelling => {}
  | .queued => r
  | .done => { r with len := 0 }
  | _ => { r with state := .done, len := 0, reason := 0xB, pauseSrc := 0, update := [] }

/-- Is the entry one that recovery ends with an end packet? -/
def Request.cutOff (r : Request) : Bool := r.state.active

/-- The entries that `f` selects taken from the commit, with their end packets in table order. -/
def Engine.recoverReqs (e : Engine) (now : Nat) (f : Nat → Request → Bool) : Engine :=
  let e := { e with reqs := e.reqs.filter (fun x => !f x.1 x.2) }
  let l := e.commit.reqs.filter (fun x => f x.1 x.2)
  let e := l.foldl (fun e x => e.modReq x.1 (fun _ => x.2.recovered)) e
  (l.filter (fun x => x.2.cutOff)).foldl (fun e x => e.putPacket ((e.req x.1).packet x.1 now [] 0xB true)) e

/-- A partition as recovery rebuilds it (R454); a mode epoch that it had prepared is still open (R373). -/
def Engine.recoveredPart (e : Engine) (old c : Part) : Part :=
  let fs := setBits c.fields 96
  let causes := (if fs.any (fun f => (e.field f).fenced) then [PauseCause.fenced] else []) ++ (if fs.any (fun f => e.clockStopped (fieldDomain f)) then [PauseCause.phases] else [])
  { fields := c.fields, modes := c.modes, epoch := c.epoch, watch := c.coldWatch.watch
    state := if c.fields = 0 then .free else if causes.isEmpty then .idle else .paused
    causes := causes, prepared := old.prepared, coord := old.coord }

/-- The partitions that `f` selects rebuilt from the commit. -/
def Engine.recoverParts (e : Engine) (f : Nat → Bool) : Engine :=
  ((List.range 32).filter f).foldl (fun e p => e.modPart p (fun q => e.recoveredPart q (mget (fun _ => {}) p e.commit.parts))) e

/-- A tenant as recovery rebuilds it (R454). -/
def Tenant.recovered (t : Tenant) : Tenant := { weight := t.weight, maxReq := t.maxReq, enable := t.enable, part := t.part, bound := t.bound }

/-- Stage 8 of the engine's sequence: the serving state rebuilt from the last commit (R454). The entries of a deck that is
latched off are reported by the other one (R428). -/
def Engine.recover (e : Engine) (now : Nat) : Engine :=
  let e := { e with graphs := [], tenants := e.commit.tenants.map (fun (x : Nat × Tenant) => (x.1, x.2.recovered)) }
  ((e.dropTiers (fun _ => true)).recoverParts (fun _ => true)).recoverReqs now (fun _ _ => true)

/-! ### The chair (R386) -/

/-- All three copies written. -/
def Engine.setChair (e : Engine) (c : Chair) : Engine := e.modSup (fun s => { s with chair := [c, c, c] })

/-- Does the latch go to this controller when it reaches NONE? -/
def Engine.mayHold (e : Engine) (d : Nat) : Bool := (e.deck d).ctl.running && !(e.deck d).ctl.heldReset && !(e.deck d).latchedOff

/-- The latch leaves deck d, where that holds it, for the other controller or for none; cause 0 release, 1 watchdog, 2 latch-off. -/
def Engine.passChair (e : Engine) (now d cause : Nat) : Engine :=
  if e.sup.chairValue ≠ .deck d then e
  else if e.mayHold (1 - d) then (e.setChair (.deck (1 - d))).supEvent now 0x0402 (1 - d) cause
  else e.setChair .none

/-! ### Safe Hold (R391) -/

/-- Safe Hold: running steps dropped, a commit, and no further step. Cause 0 latch, 1 controllers, 2 self-check. -/
def Engine.enterSafeHold (e : Engine) (now cause : Nat) : Engine :=
  if e.sup.safeHold then e
  else
    let e := (e.dropSteps.commitAll now).modSup (fun s => { s with safeHold := true })
    let e := e.supEvent now 0x0404 cause 0
    e.pairedParts.foldl (fun e p => e.pairMsg now p 7 0) e

/-! ### A deck that latches off (R426, R428) -/

/-- A partition with a field on a deck that has latched off: its requests end with REASON 0xB unless it is paired, and it is
FREE; its regions on tiles of the other deck are zero-filled as those tiles leave its field set (Table 5.5). -/
def Engine.losePart (e : Engine) (now p : Nat) : Engine :=
  let e := e.dropStep p
  let e := if (e.part p).pair = 0 then (e.reqsWhere (fun r => r.part == p && r.state != .idle && r.state != .done)).foldl (fun e q => e.doneReq q now 0xB true) e
    else e.pairMsg now p 7 0
  ((e.unbind p).zeroLeft p (e.part p).fields).modPart p (fun q => { watch := q.watch, modes := q.modes, epoch := q.epoch })

/-- Deck d latches off: the commit of its half, and every unit of it stops. -/
def Engine.latchDeck (e : Engine) (now d : Nat) : Engine :=
  let on (f : Nat) : Bool := deckOf f == d
  let ps := e.partsOn on
  let e := (ps.foldl (fun e p => e.dropStep p) e).commitWhere now (fun i => entryDeck i == d)
  let e := { e with reqs := e.reqs.filter (fun x => entryDeck x.1 != d) }
  let e := ps.foldl (fun e p => e.losePart now p) e
  let e := if (setBits (e.image e.session.image).footprint 96).any on then e.breakSession now .deckDown else e
  let e := (((e.dropRepairs (fun t => on t.field)).dropGraphs on).dropTiers on).bareTiles on
  let e := e.dropZports now (· == d)
  let e := ((List.range 4).map (· + 4 * d)).foldl (fun e k => (linkDown k now e).modHport k (fun h => { h with waiting := [] })) e
  let e := e.dropFns (fun k => k / 4 == d)
  let e := e.passChair now d 2
  let e := e.modDeck d (fun x => { x.dark with latchedOff := true })
  if (e.deck 0).latchedOff ∧ (e.deck 1).latchedOff then e.enterOff now else e

end Sys2Proof.Machine
end

