-- ==== Sys2Proof/Machine/PowerCmds.lean ====
section
/-!
DEFINITION. The power commands (group 0x06xx: R393, R430, R445, R446, R451, R452).
-/
namespace Sys2Proof.Machine

/-- Code of a power state (R452). -/
def pwrCode : PwrState → Nat
  | .off => 0
  | .standby => 1
  | .ready => 2

/-- The power state of a code. -/
def pwrOf (n : Nat) : PwrState := if n = 0 then .off else if n = 1 then .standby else .ready

/-- Decks running, bit d for deck d. -/
def Engine.decksRunning (e : Engine) : Nat :=
  ((List.range 2).map (fun d => if (e.deck d).latchedOff || (e.deck d).ctl.heldReset then 0 else 2 ^ d)).foldl (· + ·) 0

/-- DETAIL of a PWR_STATE reply (R452). -/
def Engine.pwrDetail (e : Engine) : Nat := pwrCode e.power.state + 4 * e.decksRunning

/-- The power sequence changed. -/
def Engine.modPower (e : Engine) (f : Power → Power) : Engine := { e with power := f e.power }

/-- The final replies of every PWR_STATE that waits (R452). -/
def Engine.pwrReplies (e : Engine) (now : Nat) : Engine :=
  (e.power.hds.foldl (fun e h => e.reply now h .ok e.pwrDetail) e).modPower (fun p => { p with hds := [] })

/-- PWR_STATE's effect: the target recorded, and the sequence begun or turned (R450 to R452). -/
def runPwrState (target : Nat) (h : Hdr) (acc : Bool) (now : Nat) (e : Engine) : Engine :=
  let t := pwrOf target
  let p := e.power
  if !p.up && !p.down && p.state == t then e.reply now h .ok e.pwrDetail
  else
    let e := (e.accept now h acc 0).modPower (fun p => { p with target := t, goal := t, hds := p.hds ++ [h] })
    if p.up || p.down then e
    else
      let up := pwrCode p.state < pwrCode t
      let e := e.modPower (fun p => { p with up := up, down := !up, since := now })
      if t = .off ∧ p.state = .standby then e.pwrReplies now else e

/-- PwrState's packet. -/
def pwrStateForm (target : Nat) (_ : Engine) : Form :=
  { op := 0x0601, chair := true, standby := true, reserved := outside 0 (decide (target < 3)) }

/-- PWR_STATE (R451). -/
def execPwrState (hd : Hdr) (target : Nat) (s : State) : Host.Outcome State Fault Refusal :=
  hostCmd hd (.pwrState hd target) (pwrStateForm target) (runPwrState target) s

/-- The input power cap in force (R393, R430). -/
def Engine.capInForce (e : Engine) : Nat := min e.sup.hostCap (min (e.deck 0).fwCap (e.deck 1).fwCap)

/-- PWR_CAP's effect (R393, R430): the cap that firmware sets is that of the packet. -/
def runPwrCap (watts : Nat) (h : Hdr) (_ : Bool) (now : Nat) (e : Engine) : Engine :=
  let e := (List.range 2).foldl (fun e d => e.modDeck d (fun x => { x with fwCap := watts })) e
  e.reply now h .ok (if watts < Config.idleDraw then Config.idleDraw else 0)

/-- PWR_CAP's packet. -/
def pwrCapForm (watts : Nat) : Form := { op := 0x0602, standby := true, reserved := outside 0 (decide (1000 ≤ watts) && decide (watts ≤ 48000)) }

/-- The cap of a packet that has not waited in intake: that of a PF's packet without a fault of its own (R393). -/
def Engine.arrivingCap (e : Engine) (now : Nat) (hd : Hdr) (watts : Nat) : Option Nat :=
  let pf := match hd.fn with | .pf _ => true | .vf _ => false
  if pf && decide (4 ≤ e.power.stage) && !e.intakeWaits (pwrCapForm watts) hd && ((pwrCapForm watts).check e now hd).isNone && (e.waitingOf hd.fn).isEmpty then some watts else none

/-- PWR_CAP (R393): the packet of a PF is copied to the supervisor as it enters intake, whenever its effect is due. -/
def execPwrCap (hd : Hdr) (watts : Nat) (s : State) : Host.Outcome State Fault Refusal :=
  onUnit (fnOk hd.fn) s (fun now e =>
    (e.copyCap (e.arrivingCap now hd watts)).command now hd (.pwrCap hd watts) (pwrCapForm watts) (runPwrCap watts))

/-- The hottest of the sensors [a, a + n) of a field. -/
def Field.hottest (f : Field) (a n : Nat) : Int := ((f.sensors.readings.drop a).take n).foldl max (-32768)

/-- A cartridge's lower estimate (R432). -/
def Cartridge.lower (c : Cartridge) : Nat := min c.coulomb c.voltage

/-- A hold-up cartridge: false is A. -/
def Engine.cart (e : Engine) (b : Bool) : Cartridge := mget (fun _ => ({} : Cartridge)) (bnat b) e.carts

/-- A 48 V feed: false is A. -/
def Engine.feed (e : Engine) (b : Bool) : Feed := mget (fun _ => ({} : Feed)) (bnat b) e.feeds

/-- Present, charged and charging of a cartridge, in bits 0 to 2. -/
def Cartridge.flags (c : Cartridge) : Nat := bnat c.present + 2 * bnat c.charged + 4 * bnat c.charging

/-- The THERM_QUERY header (Table 14.6). -/
def Engine.thermHeader (e : Engine) (now : Nat) : Nat :=
  let s := e.sup
  let status := bnat (e.deck 0).latchedOff + 2 * bnat (e.deck 1).latchedOff + 4 * bnat s.flowResp + 8 * bnat (decide (560 < s.inlet)) + 16 * bnat (e.feed false).lost + 32 * bnat (e.feed true).lost
  pack [(64, now), (16, ofSigned 16 s.inlet), (16, ofSigned 16 s.outlet), (16, s.flow), (16, (e.feed false).cv), (16, (e.feed false).amps), (16, (e.feed true).cv),
    (16, (e.feed true).amps), (16, s.inputW), (16, e.capInForce), (8, (e.cart false).lower), (8, (e.cart true).lower),
    (6, (e.cart false).flags + 8 * (e.cart true).flags), (6, s.leak), (6, status), (4, s.capLevel), (266, 0)]

/-- A THERM_QUERY field record (Table 14.7). -/
def Field.therm (f : Field) : Nat :=
  if f.fenced then 8
  else pack [(16, ofSigned 16 (f.hottest 0 36)), (16, ofSigned 16 (f.hottest 36 4)), (16, ofSigned 16 (f.hottest 40 8)), (3, f.cBand), (3, f.dBand), (3, f.nBand0), (3, f.nBand1),
    (1, 0), (3, min 7 f.sensors.failed.length)]

/-- THERM_QUERY's effect. -/
def runThermQuery (addr : Nat) (h : Hdr) (_ : Bool) (now : Nat) (e : Engine) : Engine :=
  (e.dma h.fn addr (natBytes (e.thermHeader now) 64 ++ (List.range 96).flatMap (fun k => natBytes (e.field k).therm 8))).okReply now h

/-- ThermQuery's packet. -/
def thermQueryForm (hd : Hdr) (addr : Nat) (_ : Engine) : Form :=
  { op := 0x0603, standby := true, addrs := [{ addr := addr, bytes := 832, off := 8, write := true, fn := hd.fn }] }

/-- THERM_QUERY (R445). -/
def execThermQuery (hd : Hdr) (addr : Nat) (s : State) : Host.Outcome State Fault Refusal :=
  hostCmd hd (.thermQuery hd addr) (thermQueryForm hd addr) (runThermQuery addr) s

/-- A THROTTLE_QUERY record (Table 14.8). PRED of a domain that is never throttled is a free value: R440 predicts no other (log entry
164). -/
def Engine.throttleWord (e : Engine) (d : Nat) : Nat :=
  let x := e.domain d
  let t := throttleable d
  let f := (pairOf d).isSome
  let h := (pairOf d).getD 0
  if !t then pack [(48, 0), (16, (Config.unstatedArg (e.freeCtr + d)).toNat % 2 ^ 16), (16, 0)]
  else pack [(4, e.levelOf d), (4, x.thermal), (4, if f then phaseLevel (e.domainPhases d) else 0), (1, bnat f), (1, bnat x.crack), (1, bnat e.sup.flowResp), (1, bnat (f && e.clockStopped d)),
    (4, if f then (e.field h).healthy else 0), (4, if f then (e.field (h + 1)).healthy else 0), (8, 0), (16, ofSigned 16 x.t8), (16, min 0xFFFF (x.ms / 1000))]

/-- THROTTLE_QUERY's effect. -/
def runThrottleQuery (addr : Nat) (h : Hdr) (_ : Bool) (now : Nat) (e : Engine) : Engine :=
  (({ e with freeCtr := e.freeCtr + 60 } : Engine).dma h.fn addr ((List.range 60).flatMap (fun d => natBytes (e.throttleWord d) 8))).okReply now h

/-- ThrottleQuery's packet. -/
def throttleQueryForm (hd : Hdr) (addr : Nat) (_ : Engine) : Form :=
  { op := 0x0604, standby := true, addrs := [{ addr := addr, bytes := 480, off := 8, write := true, fn := hd.fn }] }

/-- THROTTLE_QUERY (R446). -/
def execThrottleQuery (hd : Hdr) (addr : Nat) (s : State) : Host.Outcome State Fault Refusal :=
  hostCmd hd (.throttleQuery hd addr) (throttleQueryForm hd addr)
    (runThrottleQuery addr) s

end Sys2Proof.Machine
end

