-- ==== Sys2Proof/Machine/Scrub.lean ====
section
/-!
DEFINITION. Rinse and guarded banks (R166 to R170), KV rinse and refresh (R260, R261), NV patrol (R198).
-/
namespace Sys2Proof.Machine

/-- Threshold of guarded mode, window length in rinse periods (Table 5.7). -/
def Deck.guardWin (d : Deck) : Nat := fld d.scrub.toNat 7 4

/-- Is a word inside the scratchpad and outside filling granules (R168)? -/
def Tile.rinsed (ti : Tile) (k : Nat) : Bool := decide (k < 262144) && !ti.filling.contains (k / 512)

/-- RINSE_PASS: one pass over the scratchpad of a tile that is not clock-gated (R168). -/
def rinsePass (t : Loc) (corr bad : List Nat) (now : Nat) (e : Engine) : Engine :=
  if e.siteState t ≠ .active then e
  else
    let ok := (e.tile t).rinsed
    let e := e.modTile t (fun ti => { (corr.filter ok).foldl Tile.corrected ti with rinses := ti.rinses + 1 })
    (bad.filter ok).foldl (fun e k => e.foundBad now t k) e

/-- RINSE_PASS (R168). -/
def execRinsePass (t : Loc) (corrected uncorr : List Nat) (s : State) : Host.Outcome State Fault Refusal := onUnit (locOk t) s (rinsePass t corrected uncorr)

/-- BANK_GUARDED: the bank's corrected errors in the window reach GUARD_CE (R169, R170). -/
def bankGuarded (t : Loc) (b now : Nat) (e : Engine) : Engine :=
  let k := mget (fun _ => ({} : SpBank)) b (e.tile t).bank
  if k.guarded ∨ k.win < (e.deck (deckOf t.field)).guardCe ∨ e.siteState t ≠ .active then e
  else (e.modTile t (fun ti => ti.modBank b (fun x => { x with guarded := true, conv := true }))).siteEvent now t 0x0202 k.win b

/-- BANK_GUARDED (R169). -/
def execBankGuarded (t : Loc) (b : Nat) (s : State) : Host.Outcome State Fault Refusal := onUnit (locOk t && decide (b < 32)) s (bankGuarded t b)

/-- GUARD_CONVERSION_DONE: the shadow bytes of the bank are computed (R170). -/
def execGuardConversionDone (t : Loc) (b : Nat) (s : State) : Host.Outcome State Fault Refusal :=
  onUnit (locOk t && decide (b < 32)) s (fun _ e => e.modTile t (fun ti => ti.modBank b (fun x => { x with conv := false })))

/-- GUARD_WINDOW_END: after GUARD_WIN rinse periods WIN_CE restarts at 0 (R169, Table 5.8). -/
def guardWindowEnd (t : Loc) (e : Engine) : Engine :=
  if (e.tile t).rinses < (e.deck (deckOf t.field)).guardWin then e
  else e.modTile t (fun ti => (List.range 32).foldl (fun ti b => ti.modBank b (fun x => { x with win := 0 })) { ti with rinses := 0 })

/-- GUARD_WINDOW_END (R169). -/
def execGuardWindowEnd (t : Loc) (s : State) : Host.Outcome State Fault Refusal := onUnit (locOk t) s (fun _ e => guardWindowEnd t e)

/-- KV_RINSE: the slots with uncorrectable words are resolved, at the next boundary while a step runs (R261, R410). -/
def kvRinse (t : Loc) (bad : List Nat) (now : Nat) (e : Engine) : Engine :=
  let e := e.modTile t (fun ti => (bad.filter (fun k => decide (k < kvSlots))).foldl Tile.kvUncorr ti)
  if e.siteIdle t then e.resolveTile now t else e

/-- KV_RINSE (R261). -/
def execKvRinse (t : Loc) (uncorr : List Nat) (s : State) : Host.Outcome State Fault Refusal := onUnit (locOk t) s (kvRinse t uncorr)

/-- Refresh interval of a DRAM band in ticks (R260, Table 14.3). -/
def refreshTicks (band : Nat) : Nat := if band < 3 then 64000 else if band = 3 then 32000 else 16000

/-- DRAM_REFRESH: the field's DRAM wafer refreshes once its band's interval has passed (R260). -/
def dramRefresh (field now : Nat) (e : Engine) : Engine :=
  let f := e.field field
  if now < f.refresh + refreshTicks f.dBand then e else e.modField field (fun f => { f with refresh := now })

/-- DRAM_REFRESH (R260). -/
def execDramRefresh (field : Nat) (s : State) : Host.Outcome State Fault Refusal := onUnit (decide (field < 96)) s (dramRefresh field)

/-- Retries that a patrol read of a page needs under the bands as they are: the reads before the first that the page code can correct,
at most 4 (R197, R198). -/
def patrolRetries (f : Field) (bad : List (Nat × Int)) (page : Nat) : Nat :=
  let j : NvJob := { thread := 0, slot := 0, pc := 0, dst := 0, len := 0, first := page, count := 1, offs := some (f.nvOffset 0, f.nvOffset 1) }
  min 4 ((j.tries page).findIdx (fun o => !bad.contains (page, o)))

/-- NV_PATROL: `bad` lists the pages and offsets at which the page code cannot correct, `near` the pages that used more than 75 % of
its limit. A stripe with a page that needed a retry or came near the limit is flagged and reported with the most retries that one of
its pages needed; a repair write refreshes it (R198; log entry 133). -/
def nvPatrol (t : Loc) (bad : List (Nat × Int)) (near : List Nat) (now : Nat) (e : Engine) : Engine :=
  let retries := patrolRetries (e.field t.field) bad
  let pages := ((bad.map (·.1)) ++ near).filter (fun p => decide (p < slabPages) && (near.contains p || decide (0 < retries p)))
  ((pages.map (· / 32)).dedup).foldl (fun e k =>
    (e.modTile t (fun ti => { ti with flagged := insertOnce k ti.flagged })).siteEvent now t 0x0203 k
      ((pages.filter (fun p => p / 32 == k)).foldl (fun m p => max m (retries p)) 0)) e

/-- NV_PATROL (R198). -/
def execNvPatrol (t : Loc) (bad : List (Nat × Int)) (s : State) (near : List Nat := []) : Host.Outcome State Fault Refusal :=
  onUnit (locOk t) s (nvPatrol t bad near)

end Sys2Proof.Machine
end

