-- ==== Sys2Proof/Machine/Maintenance.lean ====
section
/-!
DEFINITION. The maintenance commands (group 0x07xx: R168, R280, R347, R400, R406, R419, R455 to R459); snapshots and
SCHED_WITHDRAW have files of their own.
-/
namespace Sys2Proof.Machine

/-! ### Darn tables (R280, R406, R500) -/

/-- What DARN_READ writes of a field: DARN_MAP, DARN_SITE, the mask of disabled express stops. -/
def Field.darnBytes (f : Field) : List Byte :=
  (List.range 696).flatMap (fun v => natBytes (f.map v).toNat 2) ++ (List.range 720).flatMap (fun s => natBytes (siteCode (f.site s)) 1) ++ natBytes f.xstop 8

/-- DARN_READ's effect. -/
def runDarnRead (field addr : Nat) (h : Hdr) (_ : Bool) (now : Nat) (e : Engine) : Engine := (e.dma h.fn addr (e.field field).darnBytes).okReply now h

/-- DarnRead's packet. -/
def darnReadForm (hd : Hdr) (field addr : Nat) (_ : Engine) : Form :=
  { op := 0x0701, standby := true, index := outside 0 (decide (field < 96)), addrs := [{ addr := addr, bytes := 2120, off := 8, write := true, fn := hd.fn }] }

/-- DARN_READ (R280): 1,392 + 720 + 8 bytes. -/
def execDarnRead (hd : Hdr) (field addr : Nat) (s : State) : Host.Outcome State Fault Refusal :=
  hostCmd hd (.darnRead hd field addr)
    (darnReadForm hd field addr)
    (runDarnRead field addr) s

/-- A site in a field that belongs to no partition retired at once: the nearest spare takes its virtual tile, its slices and its
graphs (R281, R406). -/
def Engine.swapSite (e : Engine) (now : Nat) (t : Loc) (v : Nat) : Engine :=
  match (e.field t.field).nearestSpare t.site with
  | none => (e.noSpare now t v).setSite t .retired
  | some s =>
    let spare : Loc := { field := t.field, site := s }
    let e := ((e.checkGroups now t).planSlices now t spare).moveGraphs t spare v
    let e := e.modField t.field (fun f => { f with darnMap := mset darnMapReset v (BitVec.ofNat 16 (0x8000 + s)) f.darnMap })
    ((e.setSite spare .active).setSite t .retired).event now (deckOf t.field) { code := 0x0304, field := t.field, site := t.site, arg0 := e.wordOf t v, arg1 := s }

/-- DARN_REMAP's effect (R406). -/
def runDarnRemap (field site : Nat) (h : Hdr) (acc : Bool) (now : Nat) (e : Engine) : Engine :=
  let t : Loc := { field := field, site := site }
  match e.siteState t, (e.field field).vOf site, e.partOf field with
  | .active, some _, some _ => let e := e.accept now h acc 0; { e with remaps := e.remaps ++ [(h, t)] }
  | .active, some v, none => ((e.accept now h acc 0).swapSite now t v).okReply now h
  | .covered, some _, _ => let e := e.accept now h acc 0; { e with remaps := e.remaps ++ [(h, t)] }
  | _, _, _ => e.reply now h .badIndex 2

/-- DarnRemap's packet. -/
def darnRemapForm (field site : Nat) (_ : Engine) : Form :=
  { op := 0x0702, chair := true, index := firstOf [outside 0 (decide (field < 96)), outside 2 (decide (site < 720))] }

/-- DARN_REMAP (R406). -/
def execDarnRemap (hd : Hdr) (field site : Nat) (s : State) : Host.Outcome State Fault Refusal :=
  hostCmd hd (.darnRemap hd field site)
    (darnRemapForm field site) (runDarnRemap field site) s

/-! ### Rinse and self-test (R168, R347, R400) -/

/-- The first reserved value of an SP_SCRUB_CTL word (Table 5.7), by byte offset in the word: RINSE_MS is 16 to 60,000, the other
two at least 1. -/
def scrubReserved (v : Nat) : Option Nat :=
  firstOf [if fld v 3 0 = 0 then none else some 0, outside 0 (fld v 7 4 != 0), outside 1 (fld v 15 8 != 0), outside 2 (decide (16 ≤ fld v 31 16) && decide (fld v 31 16 ≤ 60000))]

/-- RINSE_SET's effect. -/
def runRinseSet (deck : Nat) (v : BitVec 32) (h : Hdr) (_ : Bool) (now : Nat) (e : Engine) : Engine := (e.modDeck deck (fun d => { d with scrub := v })).okReply now h

/-- RinseSet's packet. -/
def rinseSetForm (deck : Nat) (v : BitVec 32) (_ : Engine) : Form :=
  { op := 0x0703, index := outside 0 (decide (deck < 2)), reserved := (scrubReserved v.toNat).map (· + 4) }

/-- RINSE_SET (R168). -/
def execRinseSet (hd : Hdr) (deck : Nat) (v : BitVec 32) (s : State) : Host.Outcome State Fault Refusal :=
  hostCmd hd (.rinseSet hd deck v)
    (rinseSetForm deck v) (runRinseSet deck v) s

/-- A SPARE site tested: one that fails becomes RETIRED (R400; log entry 38). -/
def Engine.testSpare (e : Engine) (now : Nat) (t : Loc) : Engine :=
  let ok := e.tested t
  let e := { e with freeCtr := e.freeCtr + 1 }
  if ok then e else (e.setSite t .retired).event now (deckOf t.field) { code := 0x0304, field := t.field, site := t.site, arg0 := 0xFFFFFF, arg1 := 0x3FF }

/-- SPARE sites of a deck that no map window uses. -/
def Engine.idleSpares (e : Engine) (d : Nat) : List Loc :=
  ((List.range 48).flatMap (fun i => (List.range 720).map (fun s => ({ field := 48 * d + i, site := s } : Loc)))).filter
    (fun t => e.siteState t == .spare && !e.parts.any (fun x => match x.2.window with | some w => w.spare == t | none => false))

/-- SELF_TEST's effect: every SPARE site of the scope tested (log entry 42). -/
def runSelfTest (scope deck : Nat) (h : Hdr) (acc : Bool) (now : Nat) (e : Engine) : Engine :=
  let ds := if scope = 0 then [0, 1] else [deck]
  ((ds.flatMap e.idleSpares).foldl (fun e t => e.testSpare now t) (e.accept now h acc 0)).okReply now h

/-- SelfTest's packet. -/
def selfTestForm (scope deck : Nat) (_ : Engine) : Form :=
  { op := 0x0704, chair := true, reserved := outside 0 (decide (scope < 2)), index := outside 1 (scope == 0 || decide (deck < 2)) }

/-- SELF_TEST (R347). -/
def execSelfTest (hd : Hdr) (scope deck : Nat) (s : State) : Host.Outcome State Fault Refusal :=
  hostCmd hd (.selfTest hd scope deck)
    (selfTestForm scope deck) (runSelfTest scope deck) s

/-! ### Resets (R455 to R459) -/

/-- A tile reset at once: threads, contexts, long registers, queues, TILE_EXC and strikes cleared, the program area zero-filled;
the capture area stays (R459, Table 13.5). -/
def Tile.cleared (ti : Tile) : Tile :=
  { (ti.halt.zero 0 reservedBase).setStrikes [] with threads := [], vregs := [], lregs := [], ad := {}, ibuf := [], exc := {} }

/-- Graphs on a site placed anew after its program area was zero-filled. -/
def Engine.replaceGraphs (e : Engine) (t : Loc) : Engine :=
  (e.graphs.filter (fun x => x.2.placed.any (fun y => y.1 == locKey t))).foldl (fun e x =>
    match x.2.placed.find? (fun y => y.1 == locKey t), (e.wordInSet (e.image x.2.image).footprint t) with
    | some (_, pl), some w => e.installOn x.1 t w pl
    | _, _ => e) e

/-- RESET with tile scope (R459). -/
def Engine.resetTile (e : Engine) (now : Nat) (h : Hdr) (acc : Bool) (t : Loc) : Engine :=
  let tested (e : Engine) (st : SiteState) : Engine :=
    let ok := e.tested t
    let e := { e.modTile t Tile.cleared with freeCtr := e.freeCtr + 1 }
    let e := if ok then e.setSite t st else (e.setSite t .retired).event now (deckOf t.field) { code := 0x0304, field := t.field, site := t.site, arg0 := 0xFFFFFF, arg1 := 0x3FF }
    e.okReply now h
  match e.siteState t, e.partOf t.field, (e.field t.field).vOf t.site with
  | .active, some _, _ => let e := e.accept now h acc 0; { e with siteResets := e.siteResets ++ [(h, t)] }
  | .active, none, some v =>
    if e.tested t then (({ e.modTile t Tile.cleared with freeCtr := e.freeCtr + 1 } : Engine).replaceGraphs t).okReply now h
    else (({ e with freeCtr := e.freeCtr + 1 } : Engine).swapSite now t v).okReply now h
  | .active, none, none => tested e .active
  | .spare, _, _ => tested e .spare
  | .covered, _, _ => tested e .covered
  | _, _, _ => e.reply now h .badIndex 4

/-- Snapshots and restores end without effect with 0x0504 (R458, R465). -/
def Engine.failSnaps (e : Engine) (now : Nat) : Engine := (e.snaps.foldl (fun e x => e.reply now x.hd .timeout 0) e).loseSnaps

/-- RESET's effect: an engine or deck reset answers first and takes effect 1 ms later (R456). -/
def runReset (scope deck field site : Nat) (h : Hdr) (acc : Bool) (now : Nat) (e : Engine) : Engine :=
  match scope with
  | 2 => e.resetTile now h acc { field := field, site := site }
  | 1 =>
    if (e.deck deck).latchedOff then e.reply now h .deckDown deck
    else let e := (e.failSnaps now).okReply now h; { e with resets := e.resets ++ [{ scope := 1, deck := deck, due := now + 1000 }] }
  | _ => let e := (e.failSnaps now).okReply now h; { e with resets := e.resets ++ [{ scope := 0, deck := 0, due := now + 1000 }] }

/-- Reset's packet. -/
def resetForm (scope deck field site : Nat) (_ : Engine) : Form :=
  { op := 0x0707, safeHold := scope == 0, chair := scope != 1, reserved := outside 0 (decide (scope < 3)),
                index := firstOf [outside 1 (scope != 1 || decide (deck < 2)), outside 2 (scope != 2 || decide (field < 96)), outside 4 (scope != 2 || decide (site < 720))] }

/-- RESET (R455). -/
def execReset (hd : Hdr) (scope deck field site : Nat) (s : State) : Host.Outcome State Fault Refusal :=
  hostCmd hd (.reset hd scope deck field site)
    (resetForm scope deck field site)
    (runReset scope deck field site) s

/-! ### The journal (R419) -/

/-- Index of the oldest journal entry held. -/
def Supervisor.journalOldest (s : Supervisor) : Nat := s.journalNext - s.journal.length

/-- Entries that JOURNAL_READ writes from a first index. -/
def Supervisor.journalFrom (s : Supervisor) (first : Nat) : List LedgerEntry := (s.journal.drop (max first s.journalOldest - s.journalOldest)).take 256

/-- The JOURNAL_READ header (Table 13.6). -/
def Engine.journalHeader (e : Engine) (first : Nat) : List Byte :=
  let sticky (d : Nat) : List Byte := (List.range 16).flatMap (fun c => natBytes (mget (fun _ => 0) c (e.deck d).sticky) 4)
  let sums (d : Nat) : List Byte := (List.range 6).flatMap (fun c => natBytes (mget (fun _ => 0) c (e.deck d).sums) 4)
  natBytes e.sup.journalOldest 4 ++ natBytes e.sup.journalNext 4 ++ natBytes (e.sup.journalFrom first).length 4 ++ natBytes 0 52 ++ sticky 0 ++ sticky 1 ++ sums 0 ++ sums 1 ++ natBytes 0 16

/-- JOURNAL_READ's effect. -/
def runJournalRead (first addr : Nat) (h : Hdr) (_ : Bool) (now : Nat) (e : Engine) : Engine :=
  (e.dma h.fn addr (e.journalHeader first ++ (e.sup.journalFrom first).flatMap (fun x => natBytes x.word 32))).okReply now h

/-- JournalRead's packet. -/
def journalReadForm (hd : Hdr) (first addr : Nat) (_ : Engine) : Form :=
  { op := 0x0708, standby := true, safeHold := true, reserved := wide 0 32 first, addrs := [{ addr := addr, bytes := 8448, off := 8, write := true, fn := hd.fn }] }

/-- JOURNAL_READ (R419): the region holds 8,448 bytes. -/
def execJournalRead (hd : Hdr) (first addr : Nat) (s : State) : Host.Outcome State Fault Refusal :=
  hostCmd hd (.journalRead hd first addr)
    (journalReadForm hd first addr)
    (runJournalRead first addr) s

end Sys2Proof.Machine
end

