-- ==== Sys2Proof/Machine/MonitorCmds.lean ====
section
/-!
DEFINITION. The monitor commands (group 0x05xx: R80, R347, R349, R478, R479).
-/
namespace Sys2Proof.Machine

/-! ### MON_READ (R349, Table 11.11) -/

/-- Entry bytes and entries of a selector. -/
def selectorOf : Nat → Option (Nat × Nat)
  | 0x01 => some (32, 32)
  | 0x02 => some (16, 256)
  | 0x03 => some (8, 1)
  | 0x04 => some (8, 32)
  | 0x05 => some (8, 64)
  | 0x06 => some (8, 1)
  | 0x07 => some (8, 1)
  | 0x08 => some (8, 1)
  | 0x09 => some (8, 33)
  | 0x0A => some (8, 33)
  | 0x0B => some (32, 768)
  | _ => none

/-- Is a selector addressed by deck? -/
def selDeck (sel : Nat) : Bool := [0x03, 0x06, 0x07, 0x09, 0x0A].contains sel
/-- Is a selector addressed by field and site? -/
def selSite (sel : Nat) : Bool := [0x04, 0x05, 0x08, 0x0B].contains sel

/-- A hem credit entry (Table 7.7). -/
def HemCr.word (c : HemCr) : Nat := pack [(16, c.inRate), (16, c.outRate), (16, c.burst), (16, 0)]

/-- Entry i of a selector. -/
def Engine.monEntry (e : Engine) (sel deck : Nat) (t : Loc) (i : Nat) : Nat :=
  let d := e.deck deck
  let ti := e.tile t
  match sel with
  | 0x01 => (e.part i).word
  | 0x02 => e.tqWord i
  | 0x03 => d.scrub.toNat
  | 0x04 => (mget (fun _ => ({} : SpBank)) i ti.bank).word
  | 0x05 => ti.extent i
  | 0x06 => quad d.fab
  | 0x07 => quad d.disp
  | 0x08 => ti.exc.word
  | 0x09 => (d.hem 0 i).word
  | 0x0A => (d.hem 1 i).word
  | 0x0B => ti.task i
  | _ => 0

/-- MON_READ's effect: the entries written, RC counters cleared (R14). -/
def runMonRead (sel deck part site first count addr : Nat) (h : Hdr) (_ : Bool) (now : Nat) (e : Engine) : Engine :=
  let bytes := ((selectorOf sel).getD (0, 0)).1
  let bs := (List.range count).flatMap (fun i => natBytes (e.monEntry sel deck { field := part, site := site } (first + i)) bytes)
  let e := if count = 0 then e else e.dma h.fn addr bs
  let e := if sel = 0x06 ∧ count ≠ 0 then e.modDeck deck (fun d => { d with fab := [] }) else if sel = 0x07 ∧ count ≠ 0 then e.modDeck deck (fun d => { d with disp := [] }) else e
  e.okReply now h

/-- MonRead's packet. -/
def monReadForm (hd : Hdr) (sel deck part site first count addr : Nat) (_ : Engine) : Form :=
  let x := (selectorOf sel).getD (0, 0)
  { op := 0x0501, safeHold := true, standby := [0x01, 0x02, 0x03, 0x09, 0x0A].contains sel, reserved := firstOf [outside 0 (selectorOf sel).isSome, wide 6 16 first, wide 8 32 count],
    index := firstOf [outside 1 (!selDeck sel || decide (deck < 2)), outside 2 (!selSite sel || decide (part < 96)), outside 4 (!selSite sel || decide (site < 720)),
      outside 6 (decide (first < x.2)), outside 8 (decide (first + count ≤ x.2))],
    addrs := [{ addr := addr, bytes := count * x.1, off := 16, write := true, fn := hd.fn }] }

/-- MON_READ (R349). -/
def execMonRead (hd : Hdr) (sel deck part site first count addr : Nat) (s : State) : Host.Outcome State Fault Refusal :=
  hostCmd hd (.monRead hd sel deck part site first count addr)
    (monReadForm hd sel deck part site first count addr)
    (runMonRead sel deck part site first count addr) s

/-! ### Norm watchers (R80, Table 2.7) -/

/-- A norm-watch entry as 128 bits. -/
def NormWatch.word (x : NormWatch) : Nat :=
  pack [(32, x.mean.toNat), (32, x.factor.toNat), (16, x.vanLimit), (16, x.satLimit), (8, x.warmup), (4, x.alpha), (2, x.action), (2, x.dir), (14, 0), (1, bnat x.kind),
    (1, bnat x.enable)]

/-- A norm-watch entry from its word. -/
def watchOf (v : Nat) : NormWatch :=
  { mean := BitVec.ofNat 32 (fld v 127 96), factor := BitVec.ofNat 32 (fld v 95 64), vanLimit := fld v 63 48, satLimit := fld v 47 32, warmup := fld v 31 24,
    alpha := fld v 23 20, action := fld v 19 18, dir := fld v 17 16, kind := bitAt v 1, enable := bitAt v 0 }

/-- Entry n of a partition's watch table. -/
def Part.watchAt (q : Part) (n : Nat) : NormWatch := mget (fun _ => {}) n q.watch

/-- Is FACTOR below 1.0 or NaN (R80)? -/
def badFactor (f : BitVec 32) : Bool := fpNan f.toNat || fpNeg f.toNat || decide (f.toNat < 0x3F800000)

/-- The first reserved value of a norm-watch entry that is written, by byte offset in the entry (R15, R80). -/
def watchReserved (v : Nat) : Option Nat :=
  let x := watchOf v
  firstOf [if fld v 15 2 = 0 then none else some (lowBit (fld v 15 2 * 4) / 8), outside 2 (x.dir != 3 && x.action != 3 && x.alpha != 0), outside 8 (!badFactor x.factor)]

/-- NW_READ's effect. -/
def runNwRead (first count addr : Nat) (h : Hdr) (_ : Bool) (now : Nat) (e : Engine) : Engine :=
  (e.dma h.fn addr ((List.range count).flatMap (fun i => natBytes ((e.part h.part).watchAt (first + i)).word 16))).okReply now h

/-- NwRead's packet. -/
def nwReadForm (hd : Hdr) (first count addr : Nat) (_ : Engine) : Form :=
  { op := 0x0502, usesPart := true, index := firstOf [outside 0 (decide (first < 512)), outside 2 (decide (1 ≤ count) && decide (first + count ≤ 512))],
                addrs := [{ addr := addr, bytes := 16 * count, off := 8, write := true, fn := hd.fn }] }

/-- NW_READ (R80). -/
def execNwRead (hd : Hdr) (first count addr : Nat) (s : State) : Host.Outcome State Fault Refusal :=
  hostCmd hd (.nwRead hd first count addr)
    (nwReadForm hd first count addr)
    (runNwRead first count addr) s

/-- NW_WRITE's effect. -/
def runNwWrite (entry : Nat) (v : BitVec 128) (h : Hdr) (_ : Bool) (now : Nat) (e : Engine) : Engine :=
  (e.modPart h.part (fun q => { q with watch := mset (fun _ => {}) entry (watchOf v.toNat) q.watch })).okReply now h

/-- NwWrite's packet. -/
def nwWriteForm (entry : Nat) (v : BitVec 128) (_ : Engine) : Form :=
  { op := 0x0503, usesPart := true, reserved := (watchReserved v.toNat).map (· + 8), index := outside 0 (decide (entry < 512)) }

/-- NW_WRITE (R80). -/
def execNwWrite (hd : Hdr) (entry : Nat) (v : BitVec 128) (s : State) : Host.Outcome State Fault Refusal :=
  hostCmd hd (.nwWrite hd entry v)
    (nwWriteForm entry v) (runNwWrite entry v) s

/-! ### Monitors and tenants -/

/-- HIST_READ's effect (R478). -/
def runHistRead (mon addr : Nat) (h : Hdr) (_ : Bool) (now : Nat) (e : Engine) : Engine :=
  (e.dma h.fn addr (natBytes ((e.monitor mon).word mon) 192)).okReply now h

/-- HistRead's packet. -/
def histReadForm (hd : Hdr) (mon addr : Nat) (_ : Engine) : Form :=
  { op := 0x0504, index := outside 0 (monitorScale mon).isSome, addrs := [{ addr := addr, bytes := 192, off := 8, write := true, fn := hd.fn }] }

/-- HIST_READ (R478). -/
def execHistRead (hd : Hdr) (mon addr : Nat) (s : State) : Host.Outcome State Fault Refusal :=
  hostCmd hd (.histRead hd mon addr)
    (histReadForm hd mon addr)
    (runHistRead mon addr) s

/-- HIST_CLEAR's effect (R479). -/
def runHistClear (mon : Nat) (h : Hdr) (_ : Bool) (now : Nat) (e : Engine) : Engine :=
  (e.clearMonitors now (if mon = 0xFFFFFFFF then monitorIndices else [mon])).okReply now h

/-- HistClear's packet. -/
def histClearForm (mon : Nat) (_ : Engine) : Form :=
  { op := 0x0505, index := outside 0 (mon == 0xFFFFFFFF || (monitorScale mon).isSome) }

/-- HIST_CLEAR (R479). -/
def execHistClear (hd : Hdr) (mon : Nat) (s : State) : Host.Outcome State Fault Refusal :=
  hostCmd hd (.histClear hd mon)
    (histClearForm mon) (runHistClear mon) s

/-- TENANT_QUERY's effect: a VF queries only itself (R347). -/
def runTenantQuery (t addr : Nat) (h : Hdr) (_ : Bool) (now : Nat) (e : Engine) : Engine :=
  if (match h.fn with | .pf _ => true | .vf k => k == t) then (e.dma h.fn addr (natBytes (e.tqWord t) 16)).okReply now h else e.reply now h .tenant 0

/-- TenantQuery's packet. -/
def tenantQueryForm (hd : Hdr) (t addr : Nat) (_ : Engine) : Form :=
  { op := 0x0506, vf := true, index := outside 0 (decide (t < 256)), addrs := [{ addr := addr, bytes := 16, off := 8, write := true, fn := hd.fn }] }

/-- TENANT_QUERY (R347). -/
def execTenantQuery (hd : Hdr) (t addr : Nat) (s : State) : Host.Outcome State Fault Refusal :=
  hostCmd hd (.tenantQuery hd t addr)
    (tenantQueryForm hd t addr)
    (runTenantQuery t addr) s

end Sys2Proof.Machine
end

