-- ==== Sys2Proof/Machine/Snapshots.lean ====
section
/-!
DEFINITION. Consistent snapshots (R463 to R468, Tables 15.6, 15.7): SNAPSHOT, its capture, RESTORE and its application.
-/
namespace Sys2Proof.Machine

/-! ### The region (R464, R467) -/

/-- A section as RESTORE reads it: its place and its contents. -/
structure Section where
  kind : Nat
  part : Nat
  off : Nat
  bytes : List Byte
  crcOk : Bool
deriving DecidableEq, Repr

/-- Number of n bytes at byte a. -/
def natAt (bs : List Byte) (a n : Nat) : Nat := leNat ((bs.drop a).take n)

/-- The sections of a region, or none where its MAGIC or a CRC fails. The map's CRC is not looked at: a RESTORE writes the map. -/
def readSections (bs : List Byte) : Option (List Section) :=
  if natAt bs 0 4 ≠ 0x4B534E50 then none
  else
    let l := (List.range (natAt bs 34 2)).map (fun i =>
      let a := 64 + 32 * i
      let c := (bs.drop (natAt bs (a + 8) 8)).take (natAt bs (a + 16) 8)
      ({ kind := natAt bs a 4, part := natAt bs (a + 4) 1, off := natAt bs (a + 8) 8, bytes := c
         crcOk := c.length == natAt bs (a + 16) 8 && (natAt bs a 4 == 6 || crc32c c == natAt bs (a + 24) 4) } : Section))
    if l.all (·.crcOk) then some l else none

/-- The contents of a section of a partition. -/
def sectionBytes (l : List Section) (p kind : Nat) : List Byte := ((l.find? (fun x => x.part == p && x.kind == kind)).map (·.bytes)).getD []

/-- Blocks of n bytes. -/
def blocksOf (n : Nat) (bs : List Byte) : List (List Byte) := (List.range (bs.length / n)).map (fun i => (bs.drop (n * i)).take n)

/-- The first committed block of a captured page whose tag does not hold its residue (R68, R233). -/
def capturedResidue (bs : List Byte) : Option Nat :=
  let h := natAt bs 0 64
  let f := headerFmt h
  let c := fld h 150 147 + 1
  if fld h 143 128 ≠ 0x4B50 then none
  else (List.range (min 64 (fld h 191 185) * c)).find? (fun k =>
    let b := rawBlock f ((bs.drop (512 + k * f.bytes)).take f.bytes) ((bs.drop (512 + 64 * c * f.bytes + 4 * k)).take 4)
    b.residue f != b.stored)

/-- The index of the first block that host software sends in a region with a residue that does not match, among the blocks of the KV
section's pages (R68; log entry 156). -/
def regionResidue (mask : Nat) (data : List Byte) : Option Nat :=
  match readSections data with
  | none => none
  | some l => (l.filter (fun s => s.kind == 4 && mask.testBit s.part)).findSome? (fun s =>
      (blocksOf 16384 s.bytes).zipIdx.findSome? (fun x =>
        (capturedResidue x.1).map (fun k => (((blocksOf 16384 s.bytes).take x.2).map (fun b => 64 * (fld (natAt b 0 64) 150 147 + 1))).foldl (· + ·) k)))

/-! ### Intake (R463) -/

/-- A masked partition that cannot take part, as a participant of an epoch refuses (R372). -/
def Engine.snapRefused (e : Engine) (mask : Nat) : Bool :=
  (setBits mask 32).any (fun p => (e.part p).state == .free || (e.part p).state == .rebinding || (e.part p).prepared.isSome)

/-- SNAPSHOT or RESTORE scheduled: T is the ACTIVATE_TICK or the earliest tick that the lead allows. It is committed as a mode epoch is:
the masked partitions acknowledge at once, or refuse, and the twin of a paired one is asked (R463). With a tick to come it is held in its
deck's schedule table too (R345). -/
def Engine.schedSnap (e : Engine) (now : Nat) (h : Hdr) (acc : Bool) (x : Snap) (c : Instr) : Engine :=
  let ps := setBits x.mask 32
  if e.snapRefused x.mask then e.reply now h .timeout e.node
  else
    let a := e.announce ps
    let t := max h.tick (now + leadOf a)
    let ns := (ps.filter (fun p => (e.part p).pair == 1 || (e.part p).pair == 2)).map (fun p => (e.partnerNode, p))
    let m : Prepare := { part := 0, epoch := e.acts, what := .snapshot, tick := t, deadline := t - ceilDiv a 10 - 1, coordinator := e.node }
    let act : Act := { id := e.acts, coordinator := e.node, mine := true, nodes := ns.map (fun n => n.1 + 4096 * n.2), waiting := ns.map (fun n => n.1 + 4096 * n.2), deadline := m.deadline }
    let e := (({ e.accept now h acc 0 with acts := e.acts + 1 } : Engine).sendPrepare now m ns)
    let e := cond (decide (now < h.tick)) (fun e => e.hold { hd := { h with tick := t }, cmd := c, accepted := true, own := true }) e
    { e with snaps := e.snaps ++ [{ x with hd := { h with tick := 0 }, tick := t, act := if ns.isEmpty then none else some act }] }

/-- SNAPSHOT's effect (R463). -/
def runSnapshot (mask addr bytes : Nat) (h : Hdr) (acc : Bool) (now : Nat) (e : Engine) : Engine :=
  e.schedSnap now h acc { hd := h, mask := mask, addr := addr, bytes := bytes, tick := 0, restore := false } (.snapshot h mask addr bytes)

/-- RESTORE's effect (R467): blocks whose residues do not match are refused (R68). -/
def runRestore (mask addr : Nat) (data : List Byte) (h : Hdr) (acc : Bool) (now : Nat) (e : Engine) : Engine :=
  match regionResidue mask data with
  | some k => e.reply now h .residue k
  | none => e.schedSnap now h acc { hd := h, mask := mask, addr := addr, bytes := data.length, tick := 0, restore := true, data := data } (.restore h mask addr data)

/-- Snapshot's packet. -/
def snapshotForm (hd : Hdr) (mask addr bytes : Nat) (_ : Engine) : Form :=
  { op := 0x0705, atIntake := true, reserved := firstOf [wide 0 32 mask, wide 16 64 bytes], addrs := [{ addr := addr, bytes := bytes, off := 8, write := true, fn := hd.fn }] }

/-- SNAPSHOT (R463): its tick is that of the capture. -/
def execSnapshot (hd : Hdr) (mask addr bytes : Nat) (s : State) : Host.Outcome State Fault Refusal :=
  hostCmd hd (.snapshot hd mask addr bytes)
    (snapshotForm hd mask addr bytes)
    (runSnapshot mask addr bytes) s

/-- Restore's packet. -/
def restoreForm (hd : Hdr) (mask addr : Nat) (data : List Byte) (_ : Engine) : Form :=
  let a (w : Bool) : AddrParam := { addr := addr, bytes := data.length, off := 8, write := w, fn := hd.fn }
  { op := 0x0706, atIntake := true, reads := true, reserved := wide 0 32 mask, addrs := [a false, a true] }

/-- RESTORE (R467): the region is read and, for the map, written. -/
def execRestore (hd : Hdr) (mask addr : Nat) (data : List Byte) (s : State) : Host.Outcome State Fault Refusal :=
  hostCmd hd (.restore hd mask addr data)
    (restoreForm hd mask addr data)
    (runRestore mask addr data) s

/-! ### Sections (R464, Table 15.7) -/

/-- n rounded up to 4 KiB. -/
def alignUp (n : Nat) : Nat := ceilDiv n 4096 * 4096

/-- MiB of n bytes, rounded up (R465). -/
def mibOf (n : Nat) : Nat := ceilDiv n (2 ^ 20)

/-- Entries of a partition that are not IDLE, in table order. -/
def Engine.liveReqs (e : Engine) (p : Nat) : List Nat := e.reqsWhere (fun r => r.part == p && r.state != .idle)

/-- The content of entry σ of row r of a request: its slab page, the cached copy of its reserve page, or bytes that only the
host's region holds; zeros where the row is not allocated. -/
def Engine.snapPage (e : Engine) (q s σ r : Nat) : List Byte :=
  let p := (e.req q).part
  let id := e.pageAt q s σ r
  if id = noPage then List.replicate 16384 0
  else match e.slabOf p id with
    | some x => e.kvBytes x 0 16384
    | none =>
      match (e.partTiles p).findSome? (fun t => ((e.tile t).cachedPage p (id % 2 ^ 30)).map (fun k => (t, k))) with
      | some x => e.kvBytes x 0 16384
      | none => (List.range 16384).map (fun i => Config.freeByte (e.freeCtr + (id % 2 ^ 30) * 16384 + i))

/-- Section 0x01. -/
def Engine.secPart (e : Engine) (p : Nat) : List Byte :=
  let q := e.part p
  natBytes q.word 32 ++ natBytes (e.image (q.image.getD 0)).id.toNat 8 ++ natBytes (e.graph q.graph).gridClass 8 ++
    (List.range 512).flatMap (fun n => natBytes (mget (fun _ => ({} : NormWatch)) n q.watch).word 16)

/-- Tenants bound to a partition. -/
def Engine.tenantsOf (e : Engine) (p : Nat) : List Nat := (e.tenants.filter (fun x => x.2.bound && x.2.part == p)).map (·.1)

/-- Section 0x02. -/
def Engine.secTenants (e : Engine) (p : Nat) : List Byte := (e.tenantsOf p).flatMap (fun t => natBytes (e.tqWord t + t) 16)

/-- Section 0x03. -/
def Engine.secReqs (e : Engine) (p : Nat) : List Byte :=
  (e.liveReqs p).flatMap (fun q => natBytes (e.req q).word 64 ++ (match (e.req q).heldPkts with | k :: _ => natBytes k.word 64 | [] => natBytes 0 64))

/-- Pages of a request of length n over S streams. -/
def snapPages (n s : Nat) : Nat := (n / 64 + 1) * s

/-- Section 0x04. -/
def Engine.secKv (e : Engine) (p : Nat) : List Byte :=
  let s := (e.graph (e.part p).graph).streams.length
  (e.liveReqs p).flatMap (fun q => (List.range (snapPages (e.req q).len s)).flatMap (fun k => e.snapPage q s (k % s) (k / s)))

/-- The sections of a partition: kind, partition, contents, record count. -/
def Engine.sectionsOf (e : Engine) (p : Nat) : List (Nat × Nat × List Byte × Nat) :=
  let n := (e.liveReqs p).length
  let ad := e.adaptBytes p 0
  [(1, p, e.secPart p, 1), (2, p, e.secTenants p, (e.tenantsOf p).length), (3, p, e.secReqs p, n), (4, p, e.secKv p, (e.secKv p).length / 16384)] ++
    (if ad.isEmpty then [] else [(5, p, ad, ad.length / 16384)]) ++ [(6, p, natBytes 0 (4 * n), n)]

/-- Bytes of the sections of a partition, without their contents. -/
def Engine.sectionSizes (e : Engine) (p : Nat) : List Nat :=
  let s := (e.graph (e.part p).graph).streams.length
  let n := (e.liveReqs p).length
  [8240, 16 * (e.tenantsOf p).length, 128 * n, ((e.liveReqs p).map (fun q => snapPages (e.req q).len s * 16384)).foldl (· + ·) 0] ++
    (if e.adaptSize p 0 = 0 then [] else [e.adaptSize p 0]) ++ [4 * n]

/-- Section offsets from a first one, each aligned to 4 KiB, and the end of the last. -/
def sectionOffsets : Nat → List Nat → List Nat × Nat
  | at', [] => ([], at')
  | at', n :: r =>
    let o := alignUp at'
    let (l, e) := sectionOffsets (o + n) r
    (o :: l, e)

/-- Bytes of the snapshot of the partitions of a mask. -/
def Engine.snapSize (e : Engine) (mask : Nat) : Nat :=
  let ns := (setBits mask 32).flatMap e.sectionSizes
  (sectionOffsets (64 + 32 * ns.length) ns).2

/-- A section record. -/
def sectionRecord (x : Nat × Nat × List Byte × Nat) (off : Nat) : List Byte :=
  natBytes x.1 4 ++ natBytes x.2.1 4 ++ natBytes off 8 ++ natBytes x.2.2.1.length 8 ++ natBytes (crc32c x.2.2.1) 4 ++ natBytes x.2.2.2 4

/-- The whole snapshot at tick t. -/
def Engine.snapBytes (e : Engine) (mask t : Nat) : List Byte :=
  let ss := (setBits mask 32).flatMap e.sectionsOf
  let (offs, size) := sectionOffsets (64 + 32 * ss.length) (ss.map (fun x => x.2.2.1.length))
  let header := pack [(64, t), (64, e.engineId.toNat), (64, size), (32, mask), (16, ss.length), (224, 0), (16, 1), (32, 0x4B534E50)]
  (ss.zip offs).foldl (fun bs x => bs ++ List.replicate (x.2 - bs.length) 0 ++ x.1.2.2.1)
    (natBytes header 64 ++ (ss.zip offs).flatMap (fun x => sectionRecord x.1 x.2))

/-! ### Capture (R464, R465) -/

/-- A snapshot taken out of the list, and out of the schedule table. -/
def Engine.dropSnap (e : Engine) (x : Snap) : Engine := ({ e with snaps := e.snaps.filter (fun y => y != x) } : Engine).dropOwn x.hd.turn

/-- What the engine keeps of a snapshot beside its bytes (R468). -/
def Engine.keepCaptured (e : Engine) (x : Snap) : Engine :=
  let ps := setBits x.mask 32
  { e with captured := { engineId := e.engineId, tick := x.tick, reqs := ps.map (fun p => (p, (e.liveReqs p).map (fun q => ((e.req q).newest, (e.req q).rtag)))) } :: e.captured }

/-- Is a two-phase action committed, where it has other participants? -/
def committed (a : Option Act) : Bool := match a with | some a => a.decision == some true | none => true

/-- May a snapshot or restore take place now: its tick has come, it is committed, every masked partition is at a boundary, and no boundary
action of theirs comes before it (R33, R463)? -/
def Engine.snapDue (e : Engine) (now : Nat) (x : Snap) : Bool :=
  !x.capturing && decide (x.tick ≤ now) && committed x.act && e.atBoundary (setBits x.mask 32) && !e.earlierHeld now (some x.hd.turn) (setBits x.mask 32)

/-- SNAPSHOT_CAPTURE: at T, with every masked partition at a boundary, the size is computed; a region that is too small ends the
command and holds nothing. -/
def snapshotCapture (now : Nat) (e : Engine) : Engine :=
  match e.snaps.find? (fun x => !x.restore && e.snapDue now x) with
  | none => e
  | some x =>
    let size := e.snapSize x.mask
    if x.bytes < size then (e.dropSnap x).reply x.tick x.hd .badAddress (mibOf size)
    else
      let y := { x with capturing := true, size := size, data := e.snapBytes x.mask x.tick }
      let e := (({ e with snaps := e.snaps.map (fun z => if z = x then y else z) } : Engine).dropOwn x.hd.turn).keepCaptured x
      (setBits x.mask 32).foldl (fun e p => e.modPart p (fun q => { q with capture := true })) e

/-- SNAPSHOT_CAPTURE (R464). -/
def execSnapshotCapture (s : State) : Host.Outcome State Fault Refusal := onEng s snapshotCapture

/-- SNAPSHOT_CAPTURE_DONE: the last page is written, then the header; the partitions go on (R464, R465). -/
def captureDone (e : Engine) : Engine :=
  match e.snaps.find? (fun x => x.capturing) with
  | none => e
  | some x =>
    let e := (e.dma x.hd.fn (x.addr + 64) (x.data.drop 64)).dma x.hd.fn x.addr (x.data.take 64)
    let e := (setBits x.mask 32).foldl (fun e p => e.modPart p (fun q => { q with capture := false })) (e.dropSnap x)
    e.reply x.tick x.hd .ok (mibOf x.size)

/-- SNAPSHOT_CAPTURE_DONE (R465). -/
def execSnapshotCaptureDone (s : State) : Host.Outcome State Fault Refusal := onEng s (fun _ e => captureDone e)

/-! ### Restore (R467) -/

/-- Request state of a code. -/
def reqStateOf (n : Nat) : ReqState :=
  match n with
  | 1 => .queued
  | 2 => .prefill
  | 3 => .decode
  | 4 => .verify
  | 5 => .paused
  | 6 => .cancelling
  | 7 => .done
  | _ => .idle

/-- A token packet from its word (Table 10.4). -/
def tokenOf (w : Nat) : TokenPacket :=
  { tokens := (List.range (fld w 56 53)).map (fun j => fld w (255 + 32 * j) (224 + 32 * j)), tick := fld w 223 160, outCnt := fld w 159 128, len := fld w 127 96
    rtag := fld w 95 80, tenant := fld w 79 72, req := fld w 71 57, count := fld w 56 53, reason := fld w 52 49, fin := bitAt w 48, kind := fld w 47 47 }

/-- A request entry from its word (Table 10.1). What the word does not hold is as the model's log entry 41 says. -/
def requestOf (w : Nat) : Request :=
  let st := reqStateOf (fld w 2 0)
  { deadline := fld w 511 448, key := BitVec.ofNat 64 (fld w 447 384), promptAddr := fld w 383 320, len := fld w 287 256, promptLen := fld w 255 224, maxLen := fld w 223 192
    temp := BitVec.ofNat 32 (fld w 191 160), topP := BitVec.ofNat 32 (fld w 159 128), eos := fld w 127 96, outCnt := fld w 95 64, chunkMax := fld w 63 52
    topkM1 := fld w 51 46, image := fld w 45 40, tenant := fld w 34 27, prio := fld w 26 24, reason := fld w 23 20, pauseSrc := fld w 19 18, spec := bitAt w 17
    retain := bitAt w 16, state := if st = .verify then .decode else st, promptEnd := fld w 255 224, delivered := fld w 95 64
    prior := if fld w 287 256 = 0 then .queued else if fld w 287 256 < fld w 255 224 then .prefill else .decode }

/-- Modes of a PART word (Table 10.6). -/
def modesOf (w : Nat) : Modes :=
  { posCap := fld w 95 83, retrKm1 := fld w 69 62, att := bitAt w 61, res := bitAt w 60, spec := bitAt w 59, train := bitAt w 58 }

/-- Why RESTORE of one partition is refused. -/
def Engine.restoreRefused (e : Engine) (l : List Section) (p : Nat) : Option (Status × Nat) :=
  let q := e.part p
  let a := sectionBytes l p 1
  let im := e.image (q.image.getD 0)
  let g := e.graph q.graph
  let used (t : List Byte) : Bool := let x := e.tenant (natAt t 0 1); x.bound && x.part == p
  if q.pair ≠ 0 ∨ e.liveReqs p ≠ [] then some (.partState, partCode q.state)
  else if q.image.isNone || im.id.toNat != natAt a 32 8 || g.state != .bound || (e.partFields p).length != natAt a 40 8 then some (.imageState, imgCode im.state)
  else if !(blocksOf 16 (sectionBytes l p 2)).all used then some (.tenantState, 0)
  else none

/-- Free entries of the request table, lowest first. -/
def Engine.freeEntries (e : Engine) : List Nat := (List.range 32768).filter (fun i => (e.req i).state == .idle)

/-- The pages of one request placed: rows under R236 with its new index, the captured contents with REQ of the header replaced,
and the stream ceilings in the root. -/
def Engine.placePages (e : Engine) (q : Nat) (g : Graph) (pages : List (List Byte)) : Option Engine :=
  let s := g.streams.length
  (e.needRows q (pages.length / s) g).map (fun e =>
    pages.zipIdx.foldl (fun e x =>
      match e.slotAt q s (x.2 % s) (x.2 / s), e.rootOf q with
      | some y, some root =>
        let e := e.setKvBytes y 0 x.1
        let h := setFld (setFld (e.kvNat y 0 64) 207 193 q) 239 208 (x.2 / s)
        let e := e.setKv y 0 h 64
        if bitAt h 144 then e
        else (List.range (fld h 152 151 + 1)).foldl (fun e k =>
          let a := 64 + 4 * (x.2 % s) + k
          e.setKv root a (max (fld h (247 + 8 * k) (240 + 8 * k)) (e.kvNat root a 1)) 1) e
      | _, _ => e) e)

/-- What the region does not hold of captured request i of a partition: its newest accepted token and its TAG. A snapshot of this engine
has left them with it; those of another engine's are free values, the same for every restore of the snapshot (log entry 41). -/
def Engine.beside (e : Engine) (id tick p i : Nat) : Option Nat × Nat :=
  match (e.captured.find? (fun c => c.engineId.toNat == id && c.tick == tick)).bind (fun c => ((c.reqs.find? (fun x => x.1 == p)).map (·.2)).bind (·[i]?)) with
  | some x => x
  | none =>
    let k := ((id * 2 ^ 64 + tick) * 32 + p) * 32768 + i
    (some (Config.restoredToken k).toNat, (Config.restoredTag k).toNat)

/-- One captured request restored under index q: its record, what the engine has beside it, and its pages. -/
def Engine.restoreReq (e : Engine) (p q : Nat) (g : Graph) (oldImage : Nat) (rec : List Byte) (by' : Option Nat × Nat) (pages : List (List Byte)) : Option Engine :=
  let r := requestOf (natAt rec 0 64)
  let held := if natAt rec 64 64 = 0 then [] else [{ tokenOf (natAt rec 64 64) with req := q }]
  let newest := if r.state = .queued ∨ r.state = .prefill then none else by'.1
  let img := (e.part p).image.getD 0
  let e := e.modReq q (fun _ => { r with part := p, image := if r.image = oldImage then img else r.image, newest := newest, rtag := by'.2, heldPkts := held })
  if g.streams.isEmpty then some e else e.placePages q g pages

/-- The requests of a partition restored: their new indices, or none where a row cannot be placed. -/
def Engine.restoreReqs (e : Engine) (p id tick : Nat) (l : List Section) : Option (Engine × List Nat) :=
  let g := e.graph (e.part p).graph
  let s := g.streams.length
  let recs := blocksOf 128 (sectionBytes l p 3)
  let old := fld (natAt (sectionBytes l p 1) 0 32) 82 77
  let kv := blocksOf 16384 (sectionBytes l p 4)
  let free := e.freeEntries
  (recs.zipIdx.foldlM (fun (a : Engine × List Nat × List (List Byte)) x =>
    let n := snapPages (fld (natAt x.1 0 64) 287 256) s
    let q := free.getD x.2 0
    (a.1.restoreReq p q g old x.1 (e.beside id tick p x.2) (a.2.2.take n)).map (fun e => (e, a.2.1 ++ [q], a.2.2.drop n))) (e, [], kv)).map (fun a => (a.1, a.2.1))

/-- Modes, tenants, norm watchers and the adapter's current half of a partition restored. -/
def Engine.restorePart (e : Engine) (p : Nat) (l : List Section) : Engine :=
  let a := sectionBytes l p 1
  let e := e.modPart p (fun q => { q with
    modes := modesOf (natAt a 0 32), epoch := (q.epoch + 1) % 256
    watch := (List.range 512).foldl (fun m n => mset (fun _ => {}) n (watchOf (natAt a (48 + 16 * n) 16)) m) [] })
  let e := (blocksOf 16 (sectionBytes l p 2)).foldl (fun e b =>
    let w := natAt b 0 16
    e.modTenant (fld w 7 0) (fun t => { t with weight := fld w 63 56, maxReq := fld w 95 80, deficit := toSigned 16 (fld w 79 64) })) e
  let ad := sectionBytes l p 5
  if ad.isEmpty then e else e.setAdapt p 0 ad

/-- Most KV slots that some tile of the partitions lacks to 512 free ones. -/
def Engine.shortOf512 (e : Engine) (ps : List Nat) : Nat := (ps.flatMap e.partTiles).foldl (fun m t => max m (512 - (e.tile t).freeSlots.length)) 0

/-- Every partition's settings and requests restored: the new indices of each partition's requests. -/
def Engine.restoreAll (e : Engine) (x : Snap) (l : List Section) : Option (Engine × List (Nat × List Nat)) :=
  let ps := setBits x.mask 32
  ps.foldlM (fun (a : Engine × List (Nat × List Nat)) p => (a.1.restoreReqs p (natAt x.data 48 8) (natAt x.data 56 8) l).map (fun b => (b.1, a.2 ++ [(p, b.2)])))
    (ps.foldl (fun e p => e.restorePart p l) (e.dropSnap x), [])

/-- The map sections written with the new indices (R467). -/
def Engine.writeMaps (e : Engine) (x : Snap) (l : List Section) (maps : List (Nat × List Nat)) : Engine :=
  maps.foldl (fun e m =>
    match l.find? (fun s => s.part == m.1 && s.kind == 6) with
    | some s => e.dma x.hd.fn (x.addr + s.off) (m.2.flatMap (natBytes · 4))
    | none => e) e

/-- Requests that the sections of the masked partitions hold. -/
def restoredCount (x : Snap) (l : List Section) : Nat :=
  ((setBits x.mask 32).map (fun p => (blocksOf 128 (sectionBytes l p 3)).length)).foldl (· + ·) 0

/-- A restore at its boundary: the checks of R467 in order, then its effects. -/
def Engine.applyRestore (e : Engine) (x : Snap) : Engine :=
  let ps := setBits x.mask 32
  let bad (s : Status) (d : Nat) : Engine := (e.dropSnap x).reply x.tick x.hd s d
  match readSections x.data with
  | none => bad .reserved 8
  | some l =>
    match ps.findSome? (fun p => e.restoreRefused l p) with
    | some (s, d) => bad s d
    | none =>
      if e.freeEntries.length < restoredCount x l then bad .tableFull 0
      else
        match e.restoreAll x l with
        | none => bad .kvSlots (e.shortOf512 ps)
        | some (e', maps) =>
          if e'.shortOf512 ps ≠ 0 then bad .kvSlots (e'.shortOf512 ps)
          else (e'.writeMaps x l maps).reply x.tick x.hd .ok 0

/-- RESTORE_APPLY: at T, with every masked partition at a boundary. -/
def restoreApply (now : Nat) (e : Engine) : Engine :=
  match e.snaps.find? (fun x => x.restore && e.snapDue now x) with
  | none => e
  | some x => e.applyRestore x

/-- RESTORE_APPLY (R467). -/
def execRestoreApply (s : State) : Host.Outcome State Fault Refusal := onEng s restoreApply

end Sys2Proof.Machine
end

