-- ==== Sys2Proof/Machine/ZarogCmds.lean ====
section
/-!
DEFINITION. The Zarog and pace commands (group 0x08xx: R358 to R370, R377, R383, R394).
-/
namespace Sys2Proof.Machine

/-! ### ZPORT_CTL, ZPORT_QUERY -/

/-- ZPORT_CTL's effect: 0 disable, 1 enable, 2 retrain (Table 12.4, R394). -/
def runZportCtl (z action : Nat) (h : Hdr) (_ : Bool) (now : Nat) (e : Engine) : Engine :=
  let k := e.zport z
  if action = 0 then (if k.state = .disabled then e else e.zmove now z .disabled 7).okReply now h
  else if !k.enable then e.reply now h .engineState z
  else
    let fresh (e : Engine) : Engine := (e.zstate now z .detect).modZport z (fun k => { k with attempts := 0 })
    (match k.state, action with
     | .disabled, 1 => fresh e
     | .parked, _ => fresh e
     | .disabled, _ => e
     | _, 2 => e.zmove now z .detect k.reason
     | _, _ => e).okReply now h

/-- ZportCtl's packet. -/
def zportCtlForm (port action : Nat) (_ : Engine) : Form :=
  { op := 0x0801, reserved := outside 1 (decide (action < 3)), index := outside 0 (zportOk port) }

/-- ZPORT_CTL (R358). -/
def execZportCtl (hd : Hdr) (port action : Nat) (s : State) : Host.Outcome State Fault Refusal :=
  hostCmd hd (.zportCtl hd port action)
    (zportCtlForm port action) (runZportCtl port action) s

/-- ZPORT_QUERY's effect (R361). -/
def runZportQuery (z addr : Nat) (h : Hdr) (_ : Bool) (now : Nat) (e : Engine) : Engine :=
  (e.dma h.fn addr (natBytes (e.zport z).stat 16)).okReply now h

/-- ZportQuery's packet. -/
def zportQueryForm (hd : Hdr) (port addr : Nat) (_ : Engine) : Form :=
  { op := 0x0802, standby := true, index := outside 0 (zportOk port), addrs := [{ addr := addr, bytes := 16, off := 8, write := true, fn := hd.fn }] }

/-- ZPORT_QUERY (R361). -/
def execZportQuery (hd : Hdr) (port addr : Nat) (s : State) : Host.Outcome State Fault Refusal :=
  hostCmd hd (.zportQuery hd port addr)
    (zportQueryForm hd port addr)
    (runZportQuery port addr) s

/-! ### PACE_SRC (R368, R370) -/

/-- Seconds of the holdover under way, 0 outside it. -/
def Pace.holdSecs (x : Pace) (now : Nat) : Nat := if x.state = 2 then min 0xFFFF ((now - x.holdSince) / 1000000) else 0

/-- DETAIL of PACE_SRC. -/
def Pace.detail (x : Pace) (now : Nat) : Nat := x.src + 8 * x.state + 65536 * x.holdSecs now

/-- PACE_SRC's effect. `value` is what the selected source shows for PACE_NOW. -/
def runPaceSrc (src port value : Nat) (h : Hdr) (_ : Bool) (now : Nat) (e : Engine) : Engine :=
  let x := e.pace
  let same := x.src == src && (src != 3 || x.port == port)
  let bound := (List.range 32).find? (fun p => (e.part p).image.isSome)
  match (if !same && (src == 2 || src == 3) && decide (1 < max value now - min value now) then bound else none) with
  | some p => e.reply now h .partState (partCode (e.part p).state)
  | none =>
    let x := if same then x
      else { x with
        src := src, port := if src = 3 then port else 0, state := if src = 4 then 2 else 1, steer := 0, lastEdge := now, lastSync := now, master := 0xFFF, hops := 0
        holdSince := if src = 4 ∧ x.state ≠ 2 then now else x.holdSince }
    ({ e with pace := x } : Engine).reply now h .ok (x.detail now)

/-- PaceSrc's packet. -/
def paceSrcForm (src port : Nat) (_ : Engine) : Form :=
  { op := 0x0803, chair := true, standby := true, reserved := outside 0 (decide (src < 5)), index := outside 1 (src != 3 || zportOk port) }

/-- PACE_SRC (R368). -/
def execPaceSrc (hd : Hdr) (src port : Nat) (value : Nat) (s : State) : Host.Outcome State Fault Refusal :=
  hostCmd hd (.paceSrc hd src port value)
    (paceSrcForm src port) (runPaceSrc src port value) s

/-! ### PAIR_CFG, PAIR_TAKEOVER -/

/-- The engine ID of the partner on a port: the engine's own system tag and the partner's node. -/
def Engine.partnerId (e : Engine) (z : Nat) : Word := BitVec.ofNat 64 (e.engineId.toNat / 4096 * 4096 + (e.zport z).pnode)

/-- Ports of the mask that are not UP to one partner: that of the lowest port that is UP. -/
def Engine.badLinks (e : Engine) (mask : Nat) : List Nat :=
  let l := setBits mask 24
  let ups := l.filter (fun z => (e.zport z).state == .up)
  match ups with
  | [] => l
  | z :: _ => l.filter (fun y => !((e.zport y).state == .up && (e.zport y).pnode == (e.zport z).pnode))

/-- PAIR_CFG's effect (R377, note N7): a grade other than K96 is refused as a missing licence is; the engine with the lower node becomes primary; the final OK waits for the other engine. -/
def runPairCfg (mode mask : Nat) (licence : List Byte) (h : Hdr) (acc : Bool) (now : Nat) (e : Engine) : Engine :=
  if mode = 0 then e.unpair.okReply now h
  else match (List.range 32).find? (fun p => (e.part p).spanLast != 0) with
    | some p => e.reply now h .partState (partCode (e.part p).state)
    | none =>
      let bad := e.badLinks mask
      let partner := e.partnerId ((setBits mask 24).headD 0)
      if bad ≠ [] then e.reply now h .engineState (bad.foldl (fun m z => m + 2 ^ z) 0)
      else if e.grade != 96 || !(Config.licenceIds licence == some (e.engineId, partner) || Config.licenceIds licence == some (partner, e.engineId)) then e.reply now h .licence 0
      else
        let e := e.unpair.accept now h acc 0
        e.modPair (fun _ => {
          mode := mode, mask := mask, primary := decide (e.node < partner.toNat % 4096), partner := partner, lastBeat := now, nextBeat := now,
          pendingCfg := some (h, now + 60000000) })

/-- PairCfg's packet. -/
def pairCfgForm (hd : Hdr) (mode mask addr : Nat) (licence : List Byte) (_ : Engine) : Form :=
  let n := (setBits mask 24).length
  { op := 0x0804, chair := true, reads := true, reserved := firstOf [outside 0 (decide (mode < 3)), wide 4 24 mask, outside 4 (mode == 0 || (decide (2 ≤ n) && decide (n ≤ 12)))]
    addrs := [{ addr := addr, bytes := licence.length, off := 8, write := false, fn := hd.fn }] }

/-- PAIR_CFG (R377): the mask names 2 to 12 ports unless the mode is single. -/
def execPairCfg (hd : Hdr) (mode mask addr : Nat) (licence : List Byte) (s : State) : Host.Outcome State Fault Refusal :=
  hostCmd hd (.pairCfg hd mode mask addr licence)
    (pairCfgForm hd mode mask addr licence)
    (runPairCfg mode mask licence) s

/-- PAIR_TAKEOVER's effect: a secondary takes over; a standby primary hands its role over (R382, R383). -/
def runPairTakeover (h : Hdr) (_ : Bool) (now : Nat) (e : Engine) : Engine :=
  if e.pair.mode = 0 ∨ (e.pair.primary = true ∧ e.pair.mode = 1) then e.reply now h .engineState 0
  else if e.pair.primary then (e.modPair (fun x => { x with handover := true })).tryHandover now |>.okReply now h
  else (e.takeover now).okReply now h

/-- PairTakeover's packet. -/
def pairTakeoverForm (_ : Engine) : Form :=
  { op := 0x0806, chair := true }

/-- PAIR_TAKEOVER (R383). -/
def execPairTakeover (hd : Hdr) (s : State) : Host.Outcome State Fault Refusal :=
  hostCmd hd (.pairTakeover hd) pairTakeoverForm runPairTakeover s

/-! ### ZROUTE_SET (R362, R363) -/

/-- ZROUTE_SET's effect: the engine's own ID, or a peer's route entry; the other engines hear of this engine's parts of spans (R365; log entry
152). -/
def runZrouteSet (peer : Word) (mask : Nat) (h : Hdr) (_ : Bool) (now : Nat) (e : Engine) : Engine :=
  if mask = 0xFFFFFF then
    if (List.range 24).all (fun z => (e.zport z).state == .disabled || (e.zport z).state == .parked) then ({ e with engineId := peer } : Engine).okReply now h
    else e.reply now h .engineState 0
  else if e.node = 0xFFF then e.reply now h .engineState 0
  else (({ e with zroute := mset (fun _ => 0) (peer.toNat % 4096) mask e.zroute } : Engine).announceParts now (fun _ => true) (fun _ _ => true)).okReply now h

/-- ZROUTE_SET's reserved values: node 0xFFF for the engine itself; another system tag in a peer's ID. -/
def zrouteReserved (peer : Word) (mask : Nat) (e : Engine) : Option Nat :=
  if mask = 0xFFFFFF then outside 0 (peer.toNat % 4096 != 0xFFF)
  else firstOf [outside 1 (e.node == 0xFFF || peer.toNat / 4096 == e.engineId.toNat / 4096), wide 8 24 mask]

/-- ZrouteSet's packet. -/
def zrouteSetForm (peer : Word) (mask : Nat) (e : Engine) : Form :=
  { op := 0x0805, reserved := zrouteReserved peer mask e }

/-- ZROUTE_SET (R363). -/
def execZrouteSet (hd : Hdr) (peer : Word) (mask : Nat) (s : State) : Host.Outcome State Fault Refusal :=
  hostCmd hd (.zrouteSet hd peer mask) (zrouteSetForm peer mask) (runZrouteSet peer mask) s

end Sys2Proof.Machine
end

