-- ==== Sys2Proof/Machine/Scheduled.lean ====
section
/-!
DEFINITION. Commands held in a schedule table (R345): how each applies, SCHEDULED_COMMAND_APPLY and SCHED_WITHDRAW.
-/
namespace Sys2Proof.Machine

/-! ### What a held command is -/

/-- A host command's packet and its effect; none for what is no host command, and for SCHED_WITHDRAW, whose effect is below. -/
def hostEffect (c : Instr) : Option ((Engine → Form) × (Hdr → Bool → Nat → Engine → Engine)) :=
  match c with
  | .reqSubmit _ q => some (submitForm q, runSubmit q)
  | .reqQuery hd idx addr => some (reqQueryForm hd idx addr, runQuery idx addr)
  | .reqUpdate _ idx mask q => some (reqUpdateForm idx mask q, runUpdate idx mask q)
  | .reqPause _ idx => some (reqForm 0x0104 idx, runPause idx)
  | .reqResume _ idx => some (reqForm 0x0105 idx, runResume idx)
  | .reqCancel _ idx => some (reqForm 0x0106 idx, runCancel idx)
  | .reqRelease _ idx => some (reqForm 0x0107 idx, runRelease idx)
  | .reqAppend _ idx count addr => some (reqAppendForm idx count addr, runAppend idx count addr)
  | .reqDraft _ idx root nodes => some (reqDraftForm idx root nodes, runDraft idx root nodes)
  | .imgFit hd maddr manifest fields addr => some (imgFitForm hd maddr manifest fields addr, runImgFit manifest fields addr)
  | .imgBegin hd maddr manifest fields ports zport => some (imgBeginForm hd maddr manifest fields ports zport, runImgBegin manifest fields ports zport)
  | .imgStream hd img addr frames => some ((fun _ => imgStreamForm hd img addr frames), inSession img (fun s => s.state == .streaming && s.fromPort hd.fn) (runImgStream frames))
  | .imgEnd hd img addr => some (imgEndForm hd img addr, inSession img (fun s => s.state == .streaming) (runImgEnd addr))
  | .imgAbort _ img => some (imgAbortForm img, inSession img (fun _ => true) runImgAbort)
  | .imgPatch _ img imageId => some (imgPatchForm img, (fun h acc now e => inSession img (fun s => s.state == .failed && (e.image img).id == imageId) runImgPatch h acc now e))
  | .imgTierLoad hd img addr frames region bytes cache => some (imgTierLoadForm hd img addr frames region bytes cache, runTierLoad img frames region bytes cache)
  | .imgRelease _ img => some (imgReleaseForm img, runImgRelease img)
  | .imgQuery hd img addr => some (imgQueryForm hd img addr, runImgQuery img addr)
  | .keyEnrol _ slot key sig => some (keyEnrolForm slot, runKeyEnrol slot key sig)
  | .partBindFields hd fields img => some (partBindFieldsForm hd fields img, runBindFields fields img)
  | .partBindImage hd img => some (partBindImageForm hd img, runBindImage img)
  | .tenantBind hd t => some (tenantBindForm hd t, runTenantBind t)
  | .partMode hd mask modes retr cap => some (partModeForm hd mask modes retr cap, runPartMode mask modes retr cap)
  | .partPause hd => some (partPauseForm hd, runPartPause)
  | .partResume hd => some (partResumeForm hd, runPartResume)
  | .partReset hd => some (partResetForm hd, runPartReset)
  | .tenantSet _ t weight maxReq enable mask => some (tenantSetForm t weight maxReq mask, runTenantSet t weight maxReq enable mask)
  | .hemSet _ deck table entry inRate outRate burst => some (hemSetForm deck table entry inRate outRate burst, runHemSet deck table entry inRate outRate burst)
  | .kvReserve hd addr bytes cache low => some (kvReserveForm hd addr bytes cache low, runKvReserve addr bytes cache low)
  | .graphLoad hd addr pkg img => some (graphLoadForm hd addr pkg img, runGraphLoad pkg img)
  | .graphUnload _ g => some (graphUnloadForm g, runGraphUnload g)
  | .graphQuery hd g addr => some (graphQueryForm hd g addr, runGraphQuery g addr)
  | .adaptSave hd addr bytes half => some (adaptSaveForm hd addr bytes half, runAdaptSave addr bytes half)
  | .adaptRestore hd addr data half => some (adaptRestoreForm hd addr data half, runAdaptRestore data half)
  | .monRead hd sel deck part site first count addr => some (monReadForm hd sel deck part site first count addr, runMonRead sel deck part site first count addr)
  | .nwRead hd first count addr => some (nwReadForm hd first count addr, runNwRead first count addr)
  | .nwWrite _ entry v => some (nwWriteForm entry v, runNwWrite entry v)
  | .histRead hd mon addr => some (histReadForm hd mon addr, runHistRead mon addr)
  | .histClear _ mon => some (histClearForm mon, runHistClear mon)
  | .tenantQuery hd t addr => some (tenantQueryForm hd t addr, runTenantQuery t addr)
  | .pwrState _ target => some (pwrStateForm target, runPwrState target)
  | .pwrCap _ watts => some ((fun _ => pwrCapForm watts), runPwrCap watts)
  | .thermQuery hd addr => some (thermQueryForm hd addr, runThermQuery addr)
  | .throttleQuery hd addr => some (throttleQueryForm hd addr, runThrottleQuery addr)
  | .darnRead hd field addr => some (darnReadForm hd field addr, runDarnRead field addr)
  | .darnRemap _ field site => some (darnRemapForm field site, runDarnRemap field site)
  | .rinseSet _ deck v => some (rinseSetForm deck v, runRinseSet deck v)
  | .selfTest _ scope deck => some (selfTestForm scope deck, runSelfTest scope deck)
  | .snapshot hd mask addr bytes => some (snapshotForm hd mask addr bytes, runSnapshot mask addr bytes)
  | .restore hd mask addr data => some (restoreForm hd mask addr data, runRestore mask addr data)
  | .reset _ scope deck field site => some (resetForm scope deck field site, runReset scope deck field site)
  | .journalRead hd first addr => some (journalReadForm hd first addr, runJournalRead first addr)
  | .zportCtl _ port action => some (zportCtlForm port action, runZportCtl port action)
  | .zportQuery hd port addr => some (zportQueryForm hd port addr, runZportQuery port addr)
  | .paceSrc _ src port value => some (paceSrcForm src port, runPaceSrc src port value)
  | .pairCfg hd mode mask addr licence => some (pairCfgForm hd mode mask addr licence, runPairCfg mode mask licence)
  | .zrouteSet _ peer mask => some (zrouteSetForm peer mask, runZrouteSet peer mask)
  | .pairTakeover _ => some (pairTakeoverForm, runPairTakeover)
  | _ => none

/-! ### The table -/

/-- A held command out of its table. The submissions of a tenant whose re-binding does not take place go to its partition
again (R318). -/
def Engine.unhold (e : Engine) (d : Nat) (x : Held) : Engine :=
  let e := e.modDeck d (fun k => { k with sched := k.sched.erase x })
  match x.cmd with | .tenantBind _ t => e.modTenant t (fun q => { q with nextPart := none }) | _ => e

/-- The first of a list in intake order. -/
def firstHeld (l : List (Nat × Held)) : Option (Nat × Held) :=
  l.foldl (fun (b : Option (Nat × Held)) x => match b with | none => some x | some y => if turnBefore x.2.hd.turn y.2.hd.turn then some x else some y) none

/-- The oldest held command of a function with a TAG that no FLR has withdrawn from it: the deck that holds it, and the command. -/
def Engine.heldWith (e : Engine) (f : Fn) (tag : Nat) : Option (Nat × Held) :=
  firstHeld ((List.range 2).flatMap (fun d => ((e.deck d).sched.filter (fun x => x.hd.fn == f && x.hd.tag == tag && !x.hd.muted)).map (fun x => (d, x))))

/-- A two-phase action that this engine coordinates withdrawn: none where the other participants have been told to commit. -/
def Engine.withdrawAct (e : Engine) (now p : Nat) (a : Option Act) : Option Engine :=
  match a with
  | none => some e
  | some a => if a.decision.isSome then none else some (e.decideAct now p a false)

/-- The mode epoch, snapshot or restore that a held entry stands for withdrawn (log entry 145). -/
def Engine.withdrawOwn (e : Engine) (now : Nat) (x : Held) : Option Engine :=
  match e.snaps.find? (fun s => s.hd.turn == x.hd.turn) with
  | some s => (e.withdrawAct now ((setBits s.mask 32).headD 0) s.act).map (fun e => e.dropSnap s)
  | none =>
    match (List.range 32).find? (fun p => (e.part p).coord.any (fun c => c.hd.any (fun h => h.turn == x.hd.turn))) with
    | none => none
    | some p =>
      match (e.part p).coord with
      | none => none
      | some c =>
        if c.decision.isSome && !c.nodes.isEmpty then none
        else some (((e.epochMsg now c.nodes c.msg.epoch 4).modPart p (fun q => { q with prepared := none, coord := some { c with decision := some false, hd := none, nextSend := now + 100 } })).dropOwn x.hd.turn)

/-- SCHED_WITHDRAW's effect: the held command is answered 0x030A. One whose commit other engines have been promised is no longer pending
(log entry 145). -/
def runSchedWithdraw (tag : Nat) (h : Hdr) (_ : Bool) (now : Nat) (e : Engine) : Engine :=
  match e.heldWith h.fn tag with
  | none => e.reply now h .notPending 0
  | some (d, x) =>
    match if x.own then e.withdrawOwn now x else (e.withdrawAct now (x.parts.headD 0) x.act).map (fun e => e.unhold d x) with
    | none => e.reply now h .notPending 0
    | some e => (e.reply now x.hd .withdrawn 0).okReply now h

/-! ### How a held command applies -/

/-- A held command applied, or answered: a word of it that fails parity (0x0501, R331, R332), Safe Hold and a controller held in reset
(R390, R391), an address parameter that lies in no window any more (R339, R340). -/
def Engine.applyHeld (e : Engine) (now d : Nat) (x : Held) (wordBad headerBad : Bool) : Engine :=
  let h := { x.hd with tick := 0 }
  let e := e.unhold d x
  if wordBad || headerBad then e.reply now { h with tag := if headerBad then 0xFFFF else h.tag } .poisoned x.ptr
  else match hostEffect x.cmd with
    | none => match x.cmd with | .schedWithdraw _ t => runSchedWithdraw t h x.accepted now e | _ => e
    | some (f, run) =>
      let f := f e
      if (e.sup.safeHold && !f.safeHold) || (e.deck d).ctl.heldReset then e.reply now h .deckDown d
      else match f.addrs.find? (fun a => !e.windowOk a.fn a.addr a.bytes a.write) with
        | some a => if h.muted then f.perform run h x.accepted now e else (e.windowEvent now h.fn a.addr).reply now h .dmaWindow a.off
        | none => f.perform run h x.accepted now e

/-! ### SCHEDULED_COMMAND_APPLY -/

/-- Does a held command wait for more than its tick and its boundary: the decision of its two-phase action, host memory over a link that is
down, a holder of the chair latch (R27, R325, R373)? -/
def Engine.heldWaits (e : Engine) (x : Held) : Bool :=
  !committed x.act || (match hostEffect x.cmd with | some (f, _) => ((f e).reads && !e.linkUp x.hd.fn) || ((f e).chair && !e.chairHeld && !e.sup.safeHold) | none => false)

/-- May a held command apply now: its tick has come, every partition it waits for is at a step boundary, no earlier boundary action
of theirs waits, nothing else does, and its deck's controller runs (R33, R345, R390)? -/
def Engine.heldDue (e : Engine) (now d : Nat) (x : Held) : Bool :=
  !x.own && decide (x.hd.tick ≤ now) && e.atBoundary x.parts && !e.earlierHeld now (some x.hd.turn) x.parts && !e.heldWaits x &&
    ((e.deck d).ctl.running || (e.deck d).ctl.heldReset)

/-- SCHEDULED_COMMAND_APPLY: entry i of a deck's schedule table. -/
def scheduledApply (d i : Nat) (wordBad headerBad : Bool) (now : Nat) (e : Engine) : Engine :=
  match (e.deck d).sched[i]? with
  | none => e
  | some x => if e.heldDue now d x then e.applyHeld now d x wordBad headerBad else e

/-- SCHEDULED_COMMAND_APPLY (R345). -/
def execScheduledCommandApply (deck i : Nat) (s : State) (wordBad headerBad : Bool := false) : Host.Outcome State Fault Refusal :=
  onUnit (decide (deck < 2)) s (scheduledApply deck i wordBad headerBad)

/-- SchedWithdraw's packet. -/
def schedWithdrawForm (tag : Nat) (_ : Engine) : Form :=
  { op := 0x0709, reserved := wide 0 16 tag }

/-- SCHED_WITHDRAW (R345). -/
def execSchedWithdraw (hd : Hdr) (tag : Nat) (s : State) : Host.Outcome State Fault Refusal :=
  hostCmd hd (.schedWithdraw hd tag) (schedWithdrawForm tag) (runSchedWithdraw tag) s

end Sys2Proof.Machine
end

