-- ==== Sys2Proof/Machine/Epochs.lean ====
section
/-!
DEFINITION. Actions announced by tick (R372 to R376): mode epochs, commands that a pair or a span shares (R315, R367, R378, R457),
snapshots (R463): prepare, acknowledge, commit or abort, and their resends. What they do applies at the step boundary of their tick, with
the other boundary actions.
-/
namespace Sys2Proof.Machine

/-- May the partition take part in an action: it refuses while a mode epoch is open on it, in REBINDING and in FREE, and after the deadline
(R372). -/
def Engine.mayPrepare (e : Engine) (m : Prepare) (now : Nat) : Bool :=
  let q := e.part m.part
  q.prepared.isNone && q.state != .free && q.state != .rebinding && decide (now ≤ m.deadline)

/-- A forwarded command held for its tick: muted, since the engine that forwarded it answers (R378). -/
def Engine.holdForwarded (e : Engine) (m : Prepare) (fn : Fn) (packet : List Byte) (c : Instr) (f : Form) (now : Nat) : Engine :=
  let act : Act := { id := m.epoch, coordinator := m.coordinator, mine := false }
  ({ e with order := e.order + 1 } : Engine).hold
    { hd := { hdrOf fn packet with tick := m.tick, muted := true, turn := e.turn now (e.fnDeck fn) }, cmd := c, accepted := true
      parts := (f.boundary ++ f.later ++ [m.part]).eraseDups, act := if m.twoPhase then some act else none }

/-- The stop of a span's step on another part (R367): a graph fault abandons the step here too; a pause is made as PART_PAUSE makes it. -/
def Engine.stopPartStep (e : Engine) (p now : Nat) (graphFault : Bool) : Engine :=
  if (e.part p).step.isSome && graphFault then e.abandonStep p now
  else if (e.part p).step.isSome then e.modPart p (fun q => { q with pauseAfter := true })
  else e.pausePart p now (if graphFault then .graphFault else .normWatch)

/-- EPOCH_PREPARE: the partition takes the action and acknowledges, or refuses (R372). A command without effect on the engine, REQ_QUERY, is
acknowledged only. -/
def epochPrepare (m : Prepare) (now : Nat) (e : Engine) : Engine :=
  let ok := e.mayPrepare m now
  let say (phase : Nat) (e : Engine) : Engine := if m.twoPhase then e.epochMsg now [(m.coordinator, m.part)] m.epoch phase else e
  match m.what with
  | .modes x =>
    if ok then say 1 (({ e with order := e.order + 1 } : Engine).modPart m.part (fun q => { q with prepared := some { msg := m, modes := x, turn := e.turn now (e.partDeck m.part) } }))
    else say 2 e
  | .snapshot => say (if ok then 1 else 2) e
  | .stop g => e.stopPartStep m.part now g
  | .failed qs => e.modPart m.part (fun q => { q with failed := if q.step.isSome then q.failed ++ qs else q.failed })
  | .command fn packet =>
    match commandOf fn packet [] with
    | none => say 2 e
    | some (.reqQuery _ _ _) => say (if ok then 1 else 2) e
    | some c =>
      match hostEffect c with
      | none => say 2 e
      | some (f, _) => if m.twoPhase && !ok then say 2 e else say 1 (e.holdForwarded m fn packet c (f e) now)

/-- EPOCH_PREPARE (R372). -/
def execEpochPrepare (m : Prepare) (s : State) : Host.Outcome State Fault Refusal := onUnit (decide (m.part < 32)) s (epochPrepare m)

/-! ### The coordinator -/

/-- EPOCH_ACK of a mode epoch: when every participant has acknowledged, COMMIT goes out; a refusal aborts (R372). -/
def Engine.ackEpoch (e : Engine) (now p : Nat) (c : Coord) (node : Nat) (ok : Bool) : Engine :=
  if c.decision.isSome || !c.waiting.contains node then e
  else if !ok then e.abortEpoch now p c node
  else
    let left := c.waiting.filter (· != node)
    if left ≠ [] then e.modPart p (fun q => { q with coord := some { c with waiting := left } })
    else
      (e.epochMsg now c.nodes c.msg.epoch 3).modPart p (fun q => { q with
        prepared := q.prepared.map (fun x => { x with decided := some true }), coord := some { c with waiting := [], decision := some true, nextSend := now + 100 } })

/-- The acknowledgement of a participant of an action taken: what is left to wait for, and the decision when nothing is. -/
def Act.acked (a : Act) (code : Nat) : Act :=
  let left := a.waiting.filter (· != code)
  { a with waiting := left, decision := if left.isEmpty then some true else a.decision }

/-- A two-phase action that this engine coordinates, by its number: a held command with its deck, or a snapshot. -/
def Engine.actHeld (e : Engine) (id : Nat) : Option (Nat × Held) :=
  ((List.range 2).flatMap (fun d => ((e.deck d).sched.filter (fun x => x.act.any (fun a => a.mine && a.id == id))).map (fun x => (d, x)))).head?

/-- A held command with its action changed. -/
def Engine.setAct (e : Engine) (d : Nat) (x : Held) (a : Act) : Engine :=
  e.modDeck d (fun k => { k with sched := k.sched.map (fun y => if y = x then { y with act := some a } else y) })

/-- A shared command aborted: nobody applies it, and it is answered with the node at fault (R372, R378). -/
def Engine.abortHeld (e : Engine) (now d : Nat) (x : Held) (a : Act) (node : Nat) : Engine :=
  ((e.unhold d x).decideAct now (x.parts.headD 0) a false).reply now x.hd .timeout node

/-- A snapshot or restore aborted (R463). -/
def Engine.abortSnap (e : Engine) (now : Nat) (x : Snap) (a : Act) (node : Nat) : Engine :=
  ((e.dropSnap x).decideAct now ((setBits x.mask 32).headD 0) a false).reply now x.hd .timeout node

/-- EPOCH_ACK of a shared command or a snapshot. -/
def Engine.ackAct (e : Engine) (now p node id : Nat) (ok : Bool) : Engine :=
  let code := node + 4096 * p
  match e.actHeld id with
  | some (d, x) =>
    (match x.act with
     | none => e
     | some a =>
       if a.decision.isSome || !a.waiting.contains code then e
       else if !ok then e.abortHeld now d x a node
       else
         let b := a.acked code
         let e := e.setAct d x b
         if b.decision.isSome then e.decideAct now (x.parts.headD 0) b true else e)
  | none =>
    match e.snaps.find? (fun s => s.act.any (fun a => a.id == id)) with
    | none => e
    | some s =>
      match s.act with
      | none => e
      | some a =>
        if a.decision.isSome || !a.waiting.contains code then e
        else if !ok then e.abortSnap now s a node
        else
          let b := a.acked code
          let e : Engine := { e with snaps := e.snaps.map (fun y => if y = s then { y with act := some b } else y) }
          if b.decision.isSome then e.decideAct now ((setBits s.mask 32).headD 0) b true else e

/-- EPOCH_ACK: a participant acknowledges or refuses the epoch or action of that number (R372). -/
def epochAck (p node epoch : Nat) (ok : Bool) (now : Nat) (e : Engine) : Engine :=
  if 256 ≤ epoch then e.ackAct now p node epoch ok
  else match (e.part p).coord with
    | some c => if c.msg.epoch = epoch then e.ackEpoch now p c node ok else e
    | none => e

/-- EPOCH_ACK (R372). -/
def execEpochAck (p node : Nat) (ok : Bool) (s : State) (epoch : Nat := 0) : Host.Outcome State Fault Refusal := onUnit (decide (p < 32)) s (epochAck p node epoch ok)

/-- Shared commands of a partition that this engine coordinates and that are not decided at their deadline. -/
def Engine.lateHeld (e : Engine) (p now : Nat) : List (Nat × Held × Act) :=
  (List.range 2).flatMap (fun d => (e.deck d).sched.filterMap (fun x =>
    match x.act with
    | some a => if a.mine && a.decision.isNone && decide (a.deadline ≤ now) && x.parts.contains p then some (d, x, a) else none
    | none => none))

/-- EPOCH_DEADLINE: at D the coordinator aborts for the first node that is missing (R372). -/
def epochDeadline (p now : Nat) (e : Engine) : Engine :=
  let e := match (e.part p).coord with
    | none => e
    | some c => if c.decision.isNone && decide (c.msg.deadline ≤ now) then e.abortEpoch now p c (c.waiting.headD 0) else e
  let e := (e.lateHeld p now).foldl (fun e x => e.abortHeld now x.1 x.2.1 x.2.2 (x.2.2.waiting.headD 0 % 4096)) e
  (e.snaps.filter (fun s => s.mask.testBit p)).foldl (fun e s =>
    match s.act with
    | some a => if a.decision.isNone && decide (a.deadline ≤ now) then e.abortSnap now s a (a.waiting.headD 0 % 4096) else e
    | none => e) e

/-- EPOCH_DEADLINE (R372). -/
def execEpochDeadline (p : Nat) (s : State) : Host.Outcome State Fault Refusal := onUnit (decide (p < 32)) s (epochDeadline p)

/-- EPOCH_DECISION_RESEND: every 100 ticks, for the last mode epoch and for every shared action decided (R373; log entry 148). -/
def decisionResend (p now : Nat) (e : Engine) : Engine :=
  let e := match (e.part p).coord with
    | none => e
    | some c =>
      match c.decision with
      | none => e
      | some d =>
        if now < c.nextSend then e
        else (e.epochMsg now c.nodes c.msg.epoch (if d then 3 else 4)).modPart p (fun q => { q with coord := some { c with nextSend := now + 100 } })
  let due := (e.part p).told.filter (fun x => decide (x.2.2.2 ≤ now))
  let e := due.foldl (fun e x => e.epochMsg now (x.2.1.map (fun n => (n % 4096, n / 4096))) x.1 (if x.2.2.1 then 3 else 4)) e
  e.modPart p (fun q => { q with told := q.told.map (fun x => if x.2.2.2 ≤ now then (x.1, x.2.1, x.2.2.1, now + 100) else x) })

/-- EPOCH_DECISION_RESEND (R373). -/
def execEpochDecisionResend (p : Nat) (s : State) : Host.Outcome State Fault Refusal := onUnit (decide (p < 32)) s (decisionResend p)

/-! ### The other participants -/

/-- COMMIT or ABORT of a shared command that another engine coordinates. -/
def Engine.decideHeld (e : Engine) (id : Nat) (commit : Bool) : Engine :=
  (List.range 2).foldl (fun e d => e.modDeck d (fun k => { k with
    sched := k.sched.filterMap (fun x =>
      match x.act with
      | some a => if !a.mine && a.id == id && a.decision.isNone then (if commit then some { x with act := some { a with decision := some true } } else none) else some x
      | none => some x) })) e

/-- EPOCH_DECISION: COMMIT or ABORT for the epoch the partition has prepared, or for a shared command (R373). -/
def epochDecision (p epoch : Nat) (commit : Bool) (e : Engine) : Engine :=
  if 256 ≤ epoch then e.decideHeld epoch commit
  else match (e.part p).prepared with
    | none => e
    | some x =>
      if x.msg.epoch ≠ epoch ∨ x.decided.isSome = true ∨ (e.part p).coord.any (fun c => c.decision.isNone) = true then e
      else e.modPart p (fun q => { q with prepared := if commit then some { x with decided := some true } else none })

/-- EPOCH_DECISION (R373). -/
def execEpochDecision (p epoch : Nat) (commit : Bool) (s : State) : Host.Outcome State Fault Refusal :=
  onUnit (decide (p < 32)) s (fun _ e => epochDecision p epoch commit e)

end Sys2Proof.Machine
end

