-- ==== Sys2Proof/Machine/KvUnit.lean ====
section
/-!
DEFINITION. The commit unit's work on KV slots: zero-fills (R238), spills to the reserve KV region (R262), and the reserve
caches (R202, R263).
-/
namespace Sys2Proof.Machine

/-- SLOT_ZERO_FILL_DONE: a freed slot is zero and free again (R238). -/
def zeroFillDone (t : Loc) (k : Nat) (e : Engine) : Engine :=
  if (e.tile t).useOf k = .zeroing then e.modTile t (fun ti => (ti.zeroSlot k).setUse k .free) else e

/-- SLOT_ZERO_FILL_DONE (R238). -/
def execSlotZeroFillDone (t : Loc) (slot : Nat) (s : State) : Host.Outcome State Fault Refusal :=
  onUnit (locOk t && decide (slot < kvSlots)) s (fun _ e => zeroFillDone t slot e)

/-! ### Spills (R262) -/

/-- A unit of a row that may be spilled from a tile: request, row, its streams with their slots. -/
structure Victim where
  req : Nat
  row : Nat
  prio : Nat
  rows : Nat
  pages : List (Nat × Stream × Nat)
deriving DecidableEq, Repr

/-- Does victim a go before victim b: lower priority, then the request with more rows, then the lower row? -/
def Victim.before (a b : Victim) : Bool :=
  decide (a.prio < b.prio) || (a.prio == b.prio && (decide (b.rows < a.rows) || (a.rows == b.rows && decide (a.row < b.row))))

/-- The units on a tile that may be spilled: sealed rows other than row 0 and the last 8 of their request. -/
def Engine.victims (e : Engine) (p : Nat) (t : Loc) : List Victim :=
  let g := e.graph (e.part p).graph
  let s := g.streams.length
  (e.reqsWhere (fun r => r.part == p && r.state != .idle && r.pageHead != noPage)).flatMap (fun q =>
    let r := e.req q
    ((List.range (r.rows - 8)).filter (fun row => row != 0 && decide (64 * (row + 1) ≤ r.len))).flatMap (fun row =>
      g.units.filterMap (fun u =>
        let ss := g.unitStreams u
        if (e.tile t).spills.any (fun x => x.req == q && x.row == row && x.pages.any (fun y => ss.any (fun z => z.1 == y.1))) then none
        else
          match ss.mapM (fun x => (e.slotAt q s x.1 row).map (fun y => (x.1, x.2, y))) with
          | some l => if l.all (fun x => x.2.2.1 == t) && !l.isEmpty then
              some { req := q, row := row, prio := r.prio, rows := r.rows, pages := l.map (fun x => (x.1, x.2.1, x.2.2.2)) } else none
          | none => none)))

/-- The first of a list of victims. -/
def firstVictim : List Victim → Option Victim
  | [] => none
  | v :: r => match firstVictim r with | some w => if w.before v then some w else some v | none => some v

/-- Lowest page of the region that no row uses. -/
def Part.freePage (q : Part) : Option Nat :=
  match q.kvRegion with
  | none => none
  | some (_, bytes, _) => (List.range (q.kvUsed.length + 1)).find? (fun k => decide ((k + 1) * 16384 ≤ bytes) && !q.kvUsed.any (fun x => x.1 == k))

/-- Room for one stub on a tile: a stub slot with a free place, else the lowest free slot. -/
def Tile.stubRoom (ti : Tile) : Option (Nat × Nat) :=
  (ti.slotUse.findSome? (fun x => match x.2 with
    | .stub l => ((List.range 32).find? (fun i => !l.any (fun y => y.1 == i))).map (fun i => (x.1, i))
    | _ => none)).orElse (fun _ => (ti.freeSlots.head?).map (fun k => (k, 0)))

/-- A key page's first 512 bytes kept as a stub. -/
def Engine.keepStub (e : Engine) (t : Loc) (q σ row slot : Nat) : Option Engine :=
  ((e.tile t).stubRoom).map (fun x =>
    let bs := e.kvBytes (t, slot) 0 512
    let e := e.modTile t (fun ti =>
      let l := match ti.useOf x.1 with | .stub l => l | _ => []
      ti.setUse x.1 (.stub (l ++ [(x.2, q, σ, row)])))
    e.setKvBytes (t, x.1) (512 * x.2) bs)

/-- One page copied to the region, with its stub where it holds keys. -/
def Engine.spillPage (e : Engine) (p : Nat) (t : Loc) (q row : Nat) (x : Nat × Stream × Nat) : Option (Engine × Nat) :=
  match (e.part p).kvRegion, (e.part p).freePage with
  | some (addr, _, fn), some k =>
    let e := (e.dma fn (addr + k * 16384) (e.kvBytes (t, x.2.2) 0 16384)).modPart p (fun y => { y with kvUsed := y.kvUsed ++ [(k, q)] })
    if x.2.1.isValue then some (e, k) else (e.keepStub t q x.1 row x.2.2).map (fun e => (e, k))
  | _, _ => none

/-- Outbound credit that a tile's router holds for a host port's deck spent, where it is enough (R226). -/
def Engine.spendReserved (e : Engine) (now : Nat) (t : Loc) (deck flits : Nat) : Option Engine :=
  if flits ≤ mget (fun _ => 0) (2 * deck) (e.tile t).hemBal then
    some (e.modTile t (fun ti => { ti with hemBal := mmod (fun _ => 0) (2 * deck) (· - flits) ti.hemBal, hemLast := now }))
  else none

/-- One victim copied out, with a reservation for all its flits. -/
def Engine.spillUnit (e : Engine) (p : Nat) (t : Loc) (v : Victim) (now : Nat) : Option Engine := do
  let (_, _, fn) ← (e.part p).kvRegion
  let e ← e.spendReserved now t (e.fnDeck fn) (256 * v.pages.length)
  (v.pages.foldlM (fun (a : Engine × List (Nat × Nat × Nat)) x => (a.1.spillPage p t v.req v.row x).map (fun y => (y.1, a.2 ++ [(x.1, x.2.2, y.2)]))) (e, [])).map
    (fun a => a.1.modTile t (fun ti => { ti with spills := ti.spills ++ [{ req := v.req, row := v.row, pages := a.2 }] }))

/-- Victims copied out until their slots restore the mark; `fuel` bounds the units. -/
def Engine.spillSome (e : Engine) (p : Nat) (t : Loc) (now : Nat) : Nat → Engine
  | 0 => e
  | n + 1 =>
    let ti := e.tile t
    if (e.part p).kvLow ≤ ti.freeSlots.length + (ti.spills.map (fun x => x.pages.length)).foldl (· + ·) 0 then e
    else match firstVictim (e.victims p t) with
      | none => e
      | some v => match e.spillUnit p t v now with
        | some e => e.spillSome p t now n
        | none => e

/-- Page ID of a reserve page (Table 8.1). -/
def reserveId (k : Nat) : Nat := 2 ^ 30 + k % 2 ^ 30

/-- List entries of a spilled unit replaced, and its slots freed. -/
def Engine.replaceUnit (e : Engine) (t : Loc) (g : Graph) (x : Spill) : Engine :=
  x.pages.foldl (fun e y =>
    let e := match e.entryAt x.req (x.row * g.streams.length + y.1) with | some (z, off) => e.setKv z off (reserveId y.2.2) 4 | none => e
    e.modTile t (fun ti => ti.setUse y.2.1 .zeroing)) e

/-- KV_SPILL: copy-out below the low mark, or the replacement of the list entries at a step boundary (R262). -/
def kvSpill (t : Loc) (stage : SpillStage) (now : Nat) (e : Engine) : Engine :=
  match e.partOf t.field with
  | none => e
  | some p =>
    let ti := e.tile t
    match stage with
    | .copyOut => if (e.part p).kvRegion.isNone ∨ (e.part p).kvLow ≤ ti.freeSlots.length then e else e.spillSome p t now 4110
    | .replace =>
      if e.atBoundary [p] then
        let g := e.graph (e.part p).graph
        (ti.spills.foldl (fun e x => e.replaceUnit t g x) e).modTile t (fun ti => { ti with spills := [] })
      else e

/-- KV_SPILL (R262). -/
def execKvSpill (t : Loc) (stage : SpillStage) (s : State) : Host.Outcome State Fault Refusal := onUnit (locOk t) s (kvSpill t stage)

/-! ### Reserve caches (R202, R263) -/

/-- The slot of a cache that a fill replaces: an empty one, else the least recently used one. Entries: slot, page, tick. -/
def lruSlot (l : List (Nat × Nat × Nat)) : Option Nat :=
  match l.find? (fun x => x.2.1 == noPage) with
  | some x => some x.1
  | none => (l.foldl (fun (b : Option (Nat × Nat × Nat)) x => match b with | none => some x | some y => if x.2.2 < y.2.2 then some x else some y) none).map (·.1)

/-- Slots of a partition's KV reserve cache on a tile. -/
def Tile.kvCacheOf (ti : Tile) (p : Nat) : List (Nat × Nat × Nat) :=
  ti.slotUse.filterMap (fun x => match x.2 with | .kvcache k g u => if k = p then some (x.1, g, u) else none | _ => none)

/-- Slots of an image's weight reserve cache on a tile. -/
def Tile.rCacheOf (ti : Tile) (slot : Nat) : List (Nat × Nat × Nat) :=
  ti.slotUse.filterMap (fun x => match x.2 with | .rcache k g u => if k = slot then some (x.1, g, u) else none | _ => none)

/-- A row fetched within a step in retrieval mode is listed at once: the tile's row directory is written again (R263, R278; log entry
158). -/
def Engine.listFetched (e : Engine) (p : Nat) (t : Loc) : Engine :=
  match (e.part p).step with
  | some s => if (e.part p).attOn && !s.halted then e.toRole p t 2 (e.rowDir p t s.batch) else e
  | none => e

/-- KV_RESERVE_FETCH: a reserve page of the partition comes into the least recently used slot of its cache (R263). The DMA reads
inside the region's window and within the partition's hem credit (R226, R339). -/
def kvFetch (t : Loc) (page slot : Nat) (data : List Byte) (now : Nat) (e : Engine) : Engine :=
  match e.partOf t.field with
  | none => e
  | some p =>
    let q := e.part p
    let c := (e.tile t).kvCacheOf p
    match q.kvRegion with
    | none => e
    | some (addr, _, fn) =>
      if e.sup.safeHold || !q.kvUsed.any (fun x => x.1 == page) || c.any (fun x => x.2.1 == page) || lruSlot c != some slot || data.length != 16384 || !e.linkUp fn then e
      else if !e.windowOk fn (addr + page * 16384) 16384 false then e.windowEvent now fn (addr + page * 16384)
      else match e.takeHem (e.fnDeck fn) 0 p 256 with
        | none => e
        | some e => ((e.modTile t (fun ti => ti.setUse slot (.kvcache p page now))).setKvBytes (t, slot) 0 data).listFetched p t

/-- KV_RESERVE_FETCH (R263). -/
def execKvReserveFetch (t : Loc) (page slot : Nat) (data : List Byte) (s : State) : Host.Outcome State Fault Refusal :=
  onUnit (locOk t && decide (slot < kvSlots)) s (kvFetch t page slot data)

/-- RESERVE_CACHE_FILL: a reserve page of an image comes into the least recently used slot of its cache on the tile, within the
partition's hem credit (R202, R226). -/
def cacheFill (t : Loc) (imgSlot page : Nat) (data : List Byte) (now : Nat) (e : Engine) : Engine :=
  let c := (e.tile t).rCacheOf imgSlot
  match e.images.find? (fun x => x.2.slot == imgSlot && x.2.state != .absent && x.2.footprint.testBit t.field), lruSlot c with
  | some (_, im), some k =>
    (match im.region with
     | none => e
     | some (addr, bytes, fn) =>
       if e.sup.safeHold || c.any (fun x => x.2.1 == page) || decide (bytes < (page + 1) * 16384) || data.length != 16384 || !e.linkUp fn then e
       else if !e.windowOk fn (addr + page * 16384) 16384 false then e.windowEvent now fn (addr + page * 16384)
       else match e.takeHem (e.fnDeck fn) 0 ((e.partOf t.field).getD 32) 256 with
         | none => e
         | some e => (e.modTile t (fun ti => ti.setUse k (.rcache imgSlot page now))).setKvBytes (t, k) 0 data)
  | _, _ => e

/-- RESERVE_CACHE_FILL (R202). -/
def execReserveCacheFill (t : Loc) (imgSlot page : Nat) (data : List Byte) (s : State) : Host.Outcome State Fault Refusal :=
  onUnit (locOk t && decide (imgSlot < 16)) s (cacheFill t imgSlot page data)

end Sys2Proof.Machine
end

