-- ==== Sys2Proof/Machine/Mover.lean ====
section
/-!
DEFINITION. Tile mover, GROUP 0x8 (R144, R160). A mover operation takes effect when its queue accepts it (R109); its
completion counts CNT_MOVE.
-/
namespace Sys2Proof.Machine

/-- Ctx after the mover's queue took an operation with this effect. -/
def moverAccept (c : Ctx) (f : Tile → Tile) : Iss :=
  .done (c.modTile (fun ti =>
    let ti := f ti
    { ti with movQ := ti.movQ ++ [{ thread := c.h.thread, slot := c.th.task }] }))

/-- A full queue stalls the thread (R108). -/
def moverFull (c : Ctx) (k : Iss) : Iss := if decide (c.ti.movQ.length ≥ 8) then .wait c.e else k

/-- n copies of an 8-byte pattern. -/
def repeatWord (v : Nat) : Nat → List Byte
  | 0 => []
  | n + 1 => natBytes v 8 ++ repeatWord v n

/-- MFILL: every word of [xA, xA + xB) becomes xC (R144). -/
def execMfill (h : Hart) (w : Opnd) (s : State) : Host.Outcome State Fault Refusal :=
  issue 0x8 0x00 (fieldsOk false true true true w (w.imm == 0)) false h w (fun c =>
    let a := c.xn w.a
    let n := c.xn w.b
    aligned a 8 <| lenMultiple n 8 <| lenRange 8 2097152 n <| c.claim a n <| c.notFilling a n <| moverFull c <|
      moverAccept c (fun ti => ti.store a (repeatWord (c.xn w.c) (n / 8)))) s

/-- MCOPY: [xB, xB + xC) copied to xA as through a separate buffer (R144). -/
def execMcopy (h : Hart) (w : Opnd) (s : State) : Host.Outcome State Fault Refusal :=
  issue 0x8 0x01 (fieldsOk false true true true w (w.imm == 0)) false h w (fun c =>
    let a := c.xn w.a
    let b := c.xn w.b
    let n := c.xn w.c
    aligned a 8 <| aligned b 8 <| lenMultiple n 8 <| lenRange 8 2097152 n <| c.claim a n <| c.claim b n <|
    c.notFilling a n <| moverFull c <| c.reading b n <|
      let (bs, c) := c.take b n
      moverAccept c (fun ti => ti.store a bs)) s

/-- The bytes of a panel transposed: word (i, j) ← word (j, i) (Table 4.12). -/
def transposed (bs : List Byte) : List Byte :=
  (List.range 32).flatMap (fun i => (List.range 32).flatMap (fun j => (bs.drop (256 * j + 8 * i)).take 8))

/-- MTRN (R144, R160): identical panels allowed, overlapping different panels not; panels are 8 KiB-aligned, so two of
them overlap only when they are identical. -/
def execMtrn (h : Hart) (w : Opnd) (s : State) : Host.Outcome State Fault Refusal :=
  issue 0x8 0x02 (fieldsOk false true true false w (w.imm == 0)) false h w (fun c =>
    let a := c.xn w.a
    let b := c.xn w.b
    aligned a 8192 <| aligned b 8192 <| c.claim a 8192 <| c.claim b 8192 <| c.notFilling a 8192 <| moverFull c <|
    c.reading b 8192 <|
      let (bs, c) := c.take b 8192
      moverAccept c (fun ti => ti.store a (transposed bs))) s

/-- The oldest mover operation completes and its instance's CNT_MOVE increments (R144). -/
def moverDone (ti : Tile) : Tile :=
  match ti.movQ with
  | [] => ti
  | j :: r => ({ ti with movQ := r } : Tile).modInst j.slot (·.bump 2)

/-- MOVER_COMPLETE (R144). -/
def execMoverComplete (t : Loc) (s : State) : Host.Outcome State Fault Refusal :=
  onUnit (locOk t) s (fun _ e => e.modTile t moverDone)

end Sys2Proof.Machine
end

