-- ==== Sys2Proof/Machine/Network.lean ====
section
/-!
DEFINITION. Network, GROUP 0xA (R147, R148).
-/
namespace Sys2Proof.Machine

/-- A destination word of SEND has no bit outside vfield, vx, vy and the mailbox (R147). -/
def sendWordOk (v : Nat) : Bool := v >>> 28 == 0

/-- SEND: the source bytes are read when the queue accepts the message (R109). -/
def execSend (h : Hart) (w : Opnd) (s : State) : Host.Outcome State Fault Refusal :=
  issue 0xA 0x00 (fieldsOk false true true true w (w.imm == 0)) false h w (fun c =>
    let a := c.xn w.a
    let v := c.xn w.b
    let n := c.xn w.c
    aligned a 8 <| lenMultiple n 8 <| lenRange 8 4096 n <|
    c.checkOpen (sendWordOk v && c.e.inGrid c.i.part v) <| c.claim a n <|
    if decide (c.ti.sendQ.length ≥ 16) then .wait c.e
    else c.reading a n <|
      let (bs, c) := c.take a n
      let dst := c.e.locOfV c.i.part v
      let pkt : Packet :=
        { src := h.loc, dst := dst.getD h.loc, part := c.i.part, sys := false, epoch := (c.e.part c.i.part).epoch
          body := if dst.isSome then .msg (fld v 27 24) bs else .other }
      let e := c.modTile (fun ti => { ti with sendQ := ti.sendQ ++ [{ thread := h.thread, slot := c.th.task, pkt := pkt }] })
      .done (if dst.isSome then e
        else e.modDeck (deckOf h.loc.field) (fun d => { d with fab := mmod (fun _ => 0) 1 (fun n => satAdd 0xFFFF n 1) d.fab }))) s

/-- SEND_COMPLETE: the oldest message's last flit leaves the router; CNT_SEND increments (R147). -/
def sendDone (t : Loc) (e : Engine) : Engine :=
  match (e.tile t).sendQ with
  | [] => e
  | j :: r =>
    let e := e.modTile t (fun ti => ({ ti with sendQ := r } : Tile).modInst j.slot (·.bump 5))
    if j.pkt.body = .other then e else { e with flight := e.flight ++ [j.pkt] }

/-- SEND_COMPLETE (R147). -/
def execSendComplete (t : Loc) (s : State) : Host.Outcome State Fault Refusal := onUnit (locOk t) s (fun _ e => sendDone t e)

/-- RECV: a buffer posted for mailbox MOD[3:0], from offset 0 (R148). -/
def execRecv (h : Hart) (w : Opnd) (s : State) : Host.Outcome State Fault Refusal :=
  issue 0xA 0x01 (fieldsOk false true true false w (mod w 31 4 == 0)) false h w (fun c =>
    let a := c.xn w.a
    let n := c.xn w.b
    aligned a 8 <| lenMultiple n 8 <| check (n != 0) .claimViolation 0 <| c.claim a n <|
      .done (c.modTile (fun ti => { ti with
        mbox := mset (fun _ => {}) (mod w 3 0) { addr := a, len := n, off := 0, thread := h.thread, slot := some c.th.task, pc := c.th.pc.toNat } ti.mbox }))) s

/-- The first held message of a mailbox, and the others. -/
def takeHeld (m : Nat) : List Packet → Option (List Byte × List Packet)
  | [] => none
  | p :: r =>
    match p.body with
    | .msg k bs => if k = m then some (bs, r) else (takeHeld m r).map (fun x => (x.1, p :: x.2))
    | _ => (takeHeld m r).map (fun x => (x.1, p :: x.2))

/-- MSG_DELIVERY: into the posted buffer with CNT_RECV, or CLAIM_VIOLATION against the thread that posted it and the
message discarded (R148, R120). Without a message or a buffer the event does not take place. -/
def deliver (t : Loc) (m now : Nat) (e : Engine) : Engine :=
  let ti := e.tile t
  let b := mget (fun _ => {}) m ti.mbox
  match takeHeld m ti.held, b.slot with
  | some (bs, rest), some slot =>
    let e := e.modTile t (fun ti => { ti with held := rest })
    if b.off + bs.length ≤ b.len then
      e.modTile t (fun ti =>
        ({ ti.store (b.addr + b.off) bs with
            mbox := mset (fun _ => {}) m { b with off := b.off + bs.length } ti.mbox } : Tile).modInst slot (·.bump 4))
    else e.raise now t b.thread b.pc (some slot) .claimViolation m
  | _, _ => e

/-- MSG_DELIVERY (R148). -/
def execMsgDelivery (t : Loc) (mbox : Nat) (s : State) : Host.Outcome State Fault Refusal :=
  onUnit (locOk t && decide (mbox < 16)) s (fun now e => deliver t mbox now e)

end Sys2Proof.Machine
end

