-- ==== Sys2Proof/Machine/PaceUnit.lean ====
section
/-!
DEFINITION. The pace unit (R368 to R371, R489). PACE_NOW itself never jumps: steering changes the length of its ticks only.
-/
namespace Sys2Proof.Machine

/-- Steering that corrects an offset of ns nanoseconds: at most 1 ns a tick (R369). -/
def steerFor (ns : Int) : Int := if ns < 0 then -1 else if 0 < ns then 1 else 0

/-- Has the selected source been lost (Table 12.6)? -/
def Engine.sourceLost (e : Engine) (now : Nat) : Bool :=
  match e.pace.src with
  | 0 => decide (e.pace.lastEdge + 2100000 ≤ now)
  | 1 => true
  | 2 => decide (e.pace.lastSync + 3000000 ≤ now)
  | 3 => (e.zport e.pace.port).state != .up
  | _ => false

/-- Holdover with its ledger event (R369). -/
def Engine.enterHoldover (e : Engine) (now : Nat) : Engine :=
  if e.pace.state = 2 then e else ({ e with pace := { e.pace with state := 2, holdSince := now, steer := 0 } } : Engine).supEvent now 0x0504 e.pace.src 0

/-- PACE_HOLDOVER (R369). -/
def execPaceHoldover (s : State) : Host.Outcome State Fault Refusal :=
  onEng s (fun now e => cond (e.sourceLost now) (fun e => e.enterHoldover now) e)

/-- PACE_LOCKED: the source has returned, or one newly selected is reached (R369). -/
def paceLocked (now : Nat) (e : Engine) : Engine :=
  if e.pace.src = 4 ∨ e.pace.state = 0 then e
  else ({ e with pace := { e.pace with state := 0 } } : Engine).supEvent now 0x0505 e.pace.src (e.pace.holdSecs now)

/-- PACE_LOCKED (R369). -/
def execPaceLocked (s : State) : Host.Outcome State Fault Refusal := onEng s paceLocked

/-- PACE_EXCHANGE, every 64 ticks: the port sends the engine's own PACE packet and records the link's delays; an engine whose source it is
steers to the partner, and a hop count above 15 or a chain that returns to the engine is a loss of the source (R371). -/
def paceExchange (z : Nat) (x : PaceInfo) (now : Nat) (e : Engine) : Engine :=
  if (e.zport z).state ≠ .up ∨ now < (e.zport z).nextPace then e
  else
    let e := (e.sendPace now z).modZport z (fun k => { k with nextPace := now + 64, delayOut := x.delayOutNs, delayIn := x.delayInNs })
    if e.pace.src ≠ 3 ∨ e.pace.port ≠ z then e
    else if 15 < x.hops ∨ x.master = e.node then e.enterHoldover now
    else { e with pace := { e.pace with steer := steerFor x.offsetNs, master := x.master, hops := x.hops + 1 } }

/-- PACE_EXCHANGE (R371). -/
def execPaceExchange (z : Nat) (x : PaceInfo) (s : State) : Host.Outcome State Fault Refusal := onUnit (zportOk z) s (paceExchange z x)

/-- PTP_MESSAGE: MGMT takes PTP messages only; a Sync of the selected source steers the unit (R368, R489). -/
def ptpMessage (isPtp : Bool) (kind : PtpKind) (value now : Nat) (e : Engine) : Engine :=
  if !isPtp || kind != .sync || e.pace.src != 2 then e
  else { e with pace := { e.pace with lastSync := now, steer := steerFor ((value : Int) - now) } }

/-- PTP_MESSAGE (R489). -/
def execPtpMessage (isPtp : Bool) (kind : PtpKind) (value : Nat) (s : State) : Host.Outcome State Fault Refusal := onEng s (ptpMessage isPtp kind value)

/-- PACE_IN_EDGE: an edge more than 1 us from its expected tick is a loss of the source; `offset` is in ns (Table 12.6). -/
def paceEdge (offset : Int) (now : Nat) (e : Engine) : Engine :=
  if e.pace.src ≠ 0 then e
  else if 1000 < offset.natAbs then e.enterHoldover now
  else { e with pace := { e.pace with lastEdge := now, steer := steerFor (-offset) } }

/-- PACE_IN_EDGE (R368). -/
def execPaceInEdge (offset : Int) (s : State) : Host.Outcome State Fault Refusal := onEng s (paceEdge offset)

/-- PACE OUT: high for 10 us from each tick that is a multiple of 1,000,000, in every state but Off (R488). -/
def State.paceOut (s : State) : Bool := s.eng.power.state != .off && decide (s.now % 1000000 < 10)

end Sys2Proof.Machine
end

