-- ==== Sys2Proof/Machine/Pairs.lean ====
section
/-!
DEFINITION. The events of an engine pair (R377 to R383): heartbeats and their loss, readiness, the mirror digest, standby
replication and its acknowledgement.
-/
namespace Sys2Proof.Machine

/-! ### Heartbeats (R379, R382, R383) -/

/-- PAIR_HEARTBEAT: every 100 ticks on every pair-link port that is UP. -/
def pairHeartbeat (now : Nat) (e : Engine) : Engine :=
  if e.pair.mode = 0 ∨ now < e.pair.nextBeat then e
  else
    (((setBits e.pair.mask 24).filter (fun z => (e.zport z).state == .up)).foldl (fun e z => e.zput now z { p := e.zheader 5 e.partnerNode 0 0 0 true [], b := .heartbeat }) e).modPair (fun x => { x with nextBeat := now + 100 })

/-- PAIR_HEARTBEAT (R379). -/
def execPairHeartbeat (s : State) : Host.Outcome State Fault Refusal := onEng s pairHeartbeat

/-- A mirror primary goes on alone: the step that awaits its twin's digest is accepted without comparison (R383). -/
def Engine.goAlone (e : Engine) (now : Nat) : Engine :=
  let e := e.modPair (fun x => { x with alone := true })
  e.pairedParts.foldl (fun e p =>
    match (e.part p).step with
    | none => e
    | some s =>
      if !s.drawn || s.halted then e
      else match e.drawStep p s with
        | .tokens ds => e.acceptStep p now s ds
        | _ => e) e

/-- The paired partitions stop stepping (R383). -/
def Engine.stopPaired (e : Engine) (now : Nat) : Engine := (e.pairedParts.foldl (fun e p => e.dropStep p) e).orphan now

/-- 5 ms without a heartbeat: a standby secondary takes over, a mirror primary goes on alone, the other two are orphaned (R382, R383). -/
def Engine.pairSilence (e : Engine) (now : Nat) : Engine :=
  let x := e.pair
  if x.mode = 0 ∨ now < x.lastBeat + 5000 ∨ x.alone = true ∨ x.pendingCfg.isSome = true ∨ !e.pairedParts.any (fun p => (e.part p).pair != 3) then e
  else match x.mode, x.primary with
    | 1, true => e.goAlone now
    | 1, false => e.stopPaired now
    | _, true => e.stopPaired now
    | _, false => e.takeover now

/-- PAIR_HEARTBEAT_LOSS: what makes a twin take over: the loss of the heartbeats, the primary's report that it is in Safe Hold or has
latched off a deck of a paired partition, and a standby primary's handover, after which both twins run (R382, R383; log entry 160). -/
def heartbeatLoss (news : PairNews) (now : Nat) (e : Engine) : Engine :=
  let secondary := e.pair.mode != 0 && !e.pair.primary && e.pair.pendingCfg.isNone && e.pairedParts.any (fun p => (e.part p).pair == 2)
  match news with
  | .silence => e.pairSilence now
  | .stopped => if secondary then e.takeover now else e
  | .handover => if secondary && e.pair.mode == 2 then (e.takeover now).modPair (fun x => { x with alone := false }) else e

/-- PAIR_HEARTBEAT_LOSS (R382). -/
def execPairHeartbeatLoss (s : State) (news : PairNews := .silence) : Host.Outcome State Fault Refusal := onEng s (heartbeatLoss news)

/-! ### Readiness (R377, R379) -/

/-- PAIR_READY: the twin reports partition p ready. Its first report also says that the twin is configured and has bound p to an
image with the same IMAGE_ID: the final reply of PAIR_CFG goes out, and the partition is paired (log entry 28). -/
def pairReady (p now : Nat) (e : Engine) : Engine :=
  if e.pair.mode = 0 then e
  else
    let e := match e.pair.pendingCfg with
      | some (h, _) => (e.modPair (fun x => { x with pendingCfg := none })).okReply now h
      | none => e
    let q := e.part p
    if q.image.isNone || q.spanLast != 0 || q.pair == 3 then e
    else e.modPart p (fun q => { q with twinReady := true, pair := if q.pair = 0 then (if e.pair.primary then 1 else 2) else q.pair })

/-- PAIR_READY (R379). -/
def execPairReady (p : Nat) (s : State) : Host.Outcome State Fault Refusal := onUnit (decide (p < 32)) s (pairReady p)

/-- PAIR_CFG_TIMEOUT: 60 s without the other engine configured (R377). -/
def pairCfgTimeout (now : Nat) (e : Engine) : Engine :=
  match e.pair.pendingCfg with
  | some (h, t) => if now < t then e else ({ e with pair := {} } : Engine).reply now h .timeout 0
  | none => e

/-- PAIR_CFG_TIMEOUT (R377). -/
def execPairCfgTimeout (s : State) : Host.Outcome State Fault Refusal := onEng s pairCfgTimeout

/-! ### Mirror (R380) -/

/-- MIRROR_DIGEST: compared where this engine's draws are known, kept for that moment otherwise. -/
def mirrorDigest (p : Nat) (digest : Word) (now : Nat) (e : Engine) : Engine :=
  match (e.part p).step with
  | none => e
  | some s =>
    if !e.mirrored p then e
    else if !s.drawn || s.halted then e.modPart p (fun q => { q with digest := some digest })
    else match e.drawStep p s with
      | .tokens ds => e.compareDigest p now s ds digest
      | _ => e

/-- MIRROR_DIGEST (R380). -/
def execMirrorDigest (p : Nat) (digest : Word) (s : State) : Host.Outcome State Fault Refusal := onUnit (decide (p < 32)) s (mirrorDigest p digest)

/-! ### Standby (R381) -/

/-- A replicated request entry: what its word holds is taken, with its newest accepted token; its pages, RTAG and prompt are those this
engine has. -/
def Engine.placeRequest (e : Engine) (p : Nat) (newest : List (Nat × Nat)) (x : Nat × Nat) : Engine :=
  let r := requestOf x.2
  if r.state = .idle then e.idleReq x.1
  else
    let old := e.req x.1
    let n := fld x.2 287 256
    e.modReq x.1 (fun _ => { r with
      part := p, pageHead := old.pageHead, rows := old.rows, len := old.len, rtag := old.rtag, image := ((e.part p).image).getD r.image
      prompt := old.prompt.drop (n - old.len), promptBase := old.promptBase, promptEnd := if old.state = .idle then r.promptEnd else old.promptEnd
      newest := ((newest.find? (fun y => y.1 == x.1)).map (·.2)).or (if r.outCnt = old.outCnt then old.newest else none) })

/-- One kept entry placed in this engine's own slots, with the row it needs (R236, R381). -/
def Engine.placeEntry (e : Engine) (g : Graph) (k : KvEntry) : Engine :=
  match e.needRows k.req (k.slotPos / 64 + 1) g with
  | none => e
  | some e =>
    match e.slotAt k.req g.streams.length k.stream (k.slotPos / 64) with
    | some x => e.setPosition x (k.slotPos % 64) (k.elems, k.tags, k.norms)
    | none => e

/-- STANDBY_REPLICATION: the secondary places the step's state, seals rows itself and acknowledges. -/
def standbyReplication (p : Nat) (rep : Replication) (now : Nat) (e : Engine) : Engine :=
  let q := e.part p
  if e.pair.mode ≠ 2 ∨ q.pair ≠ 2 then e
  else
    let g := e.graph q.graph
    let e := rep.reqs.foldl (fun e x => e.placeRequest p rep.newest x) e
    let e := rep.kv.foldl (fun e k => e.placeEntry g k) e
    let e := rep.reqs.foldl (fun e x => if (e.req x.1).state = .idle then e else e.advance x.1 (fld x.2 287 256) g) e
    let e := rep.freed.foldl (fun e x => e.freeRows x.1 x.2 g) e
    let e := rep.adapter.foldl (fun e x =>
      ((e.adaptHalf p x.1 1).zipIdx).foldl (fun e k => e.setKvBytes (x.1, k.1) 0 ((x.2.drop (k.2 * 16384)).take 16384)) e) e
    let e := e.modPart p (fun q => { q with stepNo := rep.stepNo, lastAcked := rep.stepNo, adaptSel := if rep.adapter.isEmpty then q.adaptSel else 1 - q.adaptSel })
    e.pairMsg now p 5 rep.stepNo

/-- STANDBY_REPLICATION (R381). -/
def execStandbyReplication (p : Nat) (rep : Replication) (s : State) : Host.Outcome State Fault Refusal := onUnit (decide (p < 32)) s (standbyReplication p rep)

/-- REPLICATION_ACK: the acknowledged step's packets are released (R381, R383). -/
def replicationAck (p stepNo now : Nat) (e : Engine) : Engine :=
  if !(e.part p).unacked.contains stepNo then e
  else ((e.modPart p (fun q => { q with unacked := q.unacked.filter (· != stepNo), lastAcked := stepNo })).releaseStep p (· == stepNo)).tryHandover now

/-- REPLICATION_ACK (R381). -/
def execReplicationAck (p stepNo : Nat) (s : State) : Host.Outcome State Fault Refusal := onUnit (decide (p < 32)) s (replicationAck p stepNo)

end Sys2Proof.Machine
end

