-- ==== Sys2Proof/Machine/PowerEvents.lean ====
section
/-!
DEFINITION. Power events (R384, R421 to R434, R447, R482): feeds, phases, shorts, cracked connections, the input cap, commits and
hold-up cartridges.
-/
namespace Sys2Proof.Machine

/-- Engine with a cartridge changed. -/
def Engine.modCart (e : Engine) (b : Bool) (f : Cartridge → Cartridge) : Engine := { e with carts := mmod (fun _ => {}) (bnat b) f e.carts }
/-- Engine with a feed changed. -/
def Engine.modFeed (e : Engine) (b : Bool) (f : Feed → Feed) : Engine := { e with feeds := mmod (fun _ => {}) (bnat b) f e.feeds }

/-- Are the field and memory rails of a deck up? -/
def Engine.railsUp (e : Engine) (d : Nat) : Bool := (e.deck d).rails.vcore && !(e.deck d).latchedOff

/-! ### Feeds and power loss (R421, R431, R482) -/

/-- Both feed voltages. -/
def Engine.feedVolts (e : Engine) : Nat := (e.feed false).cv % 65536 + 65536 * ((e.feed true).cv % 65536)

/-- Bits of the feeds that are lost. -/
def Engine.feedsLost (e : Engine) : Nat := bnat (e.feed false).lost + 2 * bnat (e.feed true).lost

/-- A feed's voltage below 40 V; the absence of both has a beginning (R384, R450). -/
def Engine.loseFeed (e : Engine) (now : Nat) (b : Bool) (cv : Nat) : Engine :=
  let e := e.modFeed b (fun f => { f with lost := true, cv := cv, amps := 0 })
  if (e.feed (!b)).lost then e.modSup (fun s => { s with bothAbsent := some now }) else e

/-- FEED_LOSS: POWER_LOSS is recorded without a commit (R421). -/
def feedLoss (b : Bool) (cv now : Nat) (e : Engine) : Engine :=
  if (e.feed b).lost ∨ 4000 ≤ cv then e
  else
    let e := e.loseFeed now b cv
    e.powerEvent now false e.chairDeck 0xFF 0x060A e.feedVolts e.feedsLost

/-- FEED_LOSS (R421). -/
def execFeedLoss (b : Bool) (cv : Nat) (s : State) : Host.Outcome State Fault Refusal := onEng s (feedLoss b cv)

/-- FEED_RETURN: a mated feed carries current again. An absence of both that lasted less than 5 s is forgotten (R450). -/
def feedReturn (b : Bool) (cv now : Nat) (e : Engine) : Engine :=
  if !(e.feed b).lost || !(e.feed b).mated || decide (cv < 4000) then e
  else (e.modFeed b (fun f => { f with lost := false, cv := cv })).modSup (fun s => { s with bothAbsent := s.bothAbsent.filter (fun t => decide (t + 5000000 ≤ now)) })

/-- FEED_RETURN (R421). -/
def execFeedReturn (b : Bool) (cv : Nat) (s : State) : Host.Outcome State Fault Refusal := onEng s (feedReturn b cv)

/-- FEED_SENSE_MATED (R482). -/
def execFeedSenseMated (b : Bool) (s : State) : Host.Outcome State Fault Refusal := onEng s (fun _ e => e.modFeed b (fun f => { f with mated := true }))

/-- Is there a charged cartridge (R433)? -/
def Engine.holdUp (e : Engine) : Bool := [false, true].any (fun b => (e.cart b).present && (e.cart b).charged)

/-- The engine goes Off; from stage 5 on, the commit of R431 runs first where `commit` says so (R452). -/
def Engine.fallOff (e : Engine) (now : Nat) (commit : Bool) : Engine :=
  (if commit && decide (5 ≤ e.power.stage) then e.dropSteps.commitAll now else e).enterOff now

/-- POWER_LOSS: both feeds below 40 V for 200 us. The commit runs where a cartridge is charged; its duration is an open value (log
entry 37). -/
def powerLoss (cvA cvB now : Nat) (e : Engine) : Engine :=
  if 4000 ≤ cvA ∨ 4000 ≤ cvB then e
  else
    let e := (e.loseFeed now false cvA).loseFeed now true cvB
    if e.power.stage = 0 then e
    else
      let ran := e.holdUp && decide (5 ≤ e.power.stage)
      let us := if ran then Config.commitTime e.freeCtr else 0
      let e := { e with freeCtr := e.freeCtr + 1 }
      (e.powerEvent now false e.chairDeck 0xFF 0x060A e.feedVolts (3 + 4 * bnat ran + 65536 * (us % 65536))).fallOff now ran

/-- POWER_LOSS (R431). -/
def execPowerLoss (cvA cvB : Nat) (s : State) : Host.Outcome State Fault Refusal := onEng s (powerLoss cvA cvB)

/-- LATCH_CLEAR: both feeds absent for 5 s, every leak sensor dry (R384, R426, R441, R444; log entry 45). -/
def latchClear (now : Nat) (e : Engine) : Engine :=
  if e.feedsLost = 3 ∧ e.sup.bothAbsent.any (fun t => decide (t + 5000000 ≤ now)) = true then
    ((List.range 2).foldl (fun e d => e.modDeck d (fun k => { k with latchedOff := false, attempts := 0 })) e).modSup (fun s => { s with thermLatch := false, leakLatch := false, leak := 0 })
  else e

/-- LATCH_CLEAR (R384). -/
def execLatchClear (s : State) : Host.Outcome State Fault Refusal := onEng s latchClear

/-! ### Phases (R424, R425) -/

/-- What a fall of a zone's healthy phases brings: with 2 or fewer the domain's partitions stop, with none the field is fenced. -/
def Engine.zoneFell (e : Engine) (now field : Nat) : Engine :=
  let d := fieldDomain field
  let e := if e.clockStopped d then (e.partsOn (fun f => fieldDomain f == d)).foldl (fun e p => e.stopPart now p) e else e
  if (e.field field).healthy = 0 ∧ (e.field field).fenced = false then e.fence now field else e

/-- Code of a shedding cause (Table 14.9). -/
def shedCode : ShedCause → Nat
  | .overcurrent => 0
  | .openSense => 1
  | .blind => 2
  | .selfTest => 3

/-- A phase shed, with its event, the throttling and what follows. -/
def Engine.shedPhase (e : Engine) (now field phase : Nat) (c : ShedCause) : Engine :=
  if (e.field field).shed.contains phase then e
  else
    let e0 := e
    let e := e.modField field (fun f => { f with shed := f.shed ++ [phase] })
    let h := (e.field field).healthy
    let e := e.powerEvent now true (deckOf field) field 0x0603 (phase + 16 * shedCode c + 256 * h) (if h ≤ 2 then 15 else phaseLevel h)
    (e.throttled now 1 e0).zoneFell now field

/-- PHASE_OVERCURRENT: recorded before the shedding. -/
def phaseOvercurrent (field phase amps now : Nat) (e : Engine) : Engine :=
  if !e.railsUp (deckOf field) || (e.field field).shed.contains phase then e
  else (e.powerEvent now true (deckOf field) field 0x0602 (amps % 65536 + 65536 * phase) (e.field field).healthy).shedPhase now field phase .overcurrent

/-- PHASE_OVERCURRENT (R424). -/
def execPhaseOvercurrent (field phase amps : Nat) (s : State) : Host.Outcome State Fault Refusal :=
  onUnit (decide (field < 96) && decide (phase < 12)) s (phaseOvercurrent field phase amps)

/-- PHASE_SHED (R424). -/
def execPhaseShed (field phase : Nat) (cause : ShedCause) (s : State) : Host.Outcome State Fault Refusal :=
  onUnit (decide (field < 96) && decide (phase < 12)) s (fun now e => if e.railsUp (deckOf field) then e.shedPhase now field phase cause else e)

/-- PHASE_DISAGREEMENT: the zone counts one healthy phase fewer. -/
def phaseDisagree (field now : Nat) (e : Engine) : Engine :=
  if !e.railsUp (deckOf field) || (e.field field).disagree then e
  else ((e.modField field (fun f => { f with disagree := true })).throttled now 1 e).zoneFell now field

/-- PHASE_DISAGREEMENT (R424). -/
def execPhaseDisagreement (field : Nat) (s : State) : Host.Outcome State Fault Refusal := onUnit (decide (field < 96)) s (phaseDisagree field)

/-- PHASE_DISAGREEMENT_CLEAR: the zone counts its phases in full again. -/
def phaseAgree (field now : Nat) (e : Engine) : Engine := (e.modField field (fun f => { f with disagree := false })).throttled now 1 e

/-- PHASE_DISAGREEMENT_CLEAR (R424). -/
def execPhaseDisagreementClear (field : Nat) (s : State) : Host.Outcome State Fault Refusal := onUnit (decide (field < 96)) s (phaseAgree field)

/-! ### Shorts (R426, R427) -/

/-- DECK_SHORT's event. -/
def Engine.shortEvent (e : Engine) (now deck rail attempt : Nat) (latched : Bool) : Engine :=
  e.powerEvent now false deck 0xFF 0x0604 (rail + 16 * attempt) (bnat latched)

/-- A deck latches off during soft start: its units were never up, and its part of the last commit stays. -/
def Engine.latchCold (e : Engine) (now d : Nat) : Engine :=
  let e := e.modDeck d (fun x => { x.dark with latchedOff := true })
  if (e.deck 0).latchedOff ∧ (e.deck 1).latchedOff then e.enterOff now else e

/-- Is the engine soft-starting its rails (stage 3 of Table 15.1)? -/
def Engine.softStarting (e : Engine) : Bool := e.power.up && e.power.stage == 2

/-- DECK_SHORT: in service the deck latches off; during soft start its rails go off and a retry waits. -/
def deckShort (d rail now : Nat) (e : Engine) : Engine :=
  if (e.deck d).latchedOff then e
  else if e.softStarting then
    if (e.deck d).attempts = 0 then (e.modDeck d (fun k => { k with attempts := 1 })).shortEvent now d rail 1 false else e
  else if e.railsUp d then (e.shortEvent now d rail 0 true).latchDeck now d
  else e

/-- DECK_SHORT (R426). -/
def execDeckShort (deck rail : Nat) (s : State) : Host.Outcome State Fault Refusal := onUnit (decide (deck < 2) && decide (rail < 5)) s (deckShort deck rail)

/-- SOFT_START_RETRY: the rails come up, or the next attempt has failed; the fourth latches the deck off. -/
def softStartRetry (d : Nat) (short : Option Nat) (now : Nat) (e : Engine) : Engine :=
  let n := (e.deck d).attempts
  if !e.softStarting || (e.deck d).latchedOff || n == 0 then e
  else match short with
    | none => e.modDeck d (fun k => { k with attempts := 0 })
    | some rail =>
      let e := e.modDeck d (fun k => { k with attempts := n + 1 })
      if n + 1 < 4 then e.shortEvent now d rail (n + 1) false else (e.shortEvent now d rail (n + 1) true).latchCold now d

/-- SOFT_START_RETRY (R427). -/
def execSoftStartRetry (deck : Nat) (short : Option Nat) (s : State) : Host.Outcome State Fault Refusal :=
  onUnit (decide (deck < 2) && short.all (fun r => decide (r < 5))) s (softStartRetry deck short)

/-! ### Cracked connections (R429) -/

/-- Baseline impedance of a field's zone in a band: what the last self-test recorded, before any the manufacture baseline. -/
def Engine.baseline (e : Engine) (field band : Nat) : Nat :=
  (((e.field field).base.find? (fun x => x.1 == band)).map (·.2)).getD (Config.zoneBaseline field)

/-- The zone's domain held at level 8, with its event (Table 14.9). -/
def Engine.holdCrack (e : Engine) (now field base uohm : Nat) : Engine :=
  let e0 := e
  let e := e.powerEvent now true (deckOf field) field 0x0605 (base % 65536 * 65536 + uohm % 65536) (((uohm - base) * 1000 / base) % 2 ^ 32)
  (e.modDomain (fieldDomain field) (fun x => { x with crack := true })).throttled now 3 e0

/-- CRACK_DROP: one window's impedance; the sixteenth in a row above 125 % of the baseline holds the domain. -/
def crackDrop (field amps uohm now : Nat) (e : Engine) : Engine :=
  let f := e.field field
  let b := e.baseline field f.cBand
  if !e.railsUp (deckOf field) || decide (amps < 100) then e
  else if uohm * 4 ≤ b * 5 then e.modField field (fun f => { f with highWin := 0 })
  else
    let e := e.modField field (fun f => { f with highWin := min 16 (f.highWin + 1) })
    if f.highWin = 15 then e.holdCrack now field b uohm else e

/-- CRACK_DROP (R429). -/
def execCrackDrop (field amps uohm : Nat) (s : State) : Host.Outcome State Fault Refusal := onUnit (decide (field < 96)) s (crackDrop field amps uohm)

/-! ### The input cap (R430) -/

/-- CAP_DECISION: input power in W and both feed currents in units of 0.1 A, each feed's limit 1,050 A. -/
def capDecision (watts a b now : Nat) (e : Engine) : Engine :=
  let cap := e.capInForce
  let above := decide (cap < watts) || decide (10500 < a) || decide (10500 < b)
  let low := decide (watts * 100 ≤ cap * 98) && decide (a * 100 ≤ 10500 * 98) && decide (b * 100 ≤ 10500 * 98)
  let n := if low then min 10 (e.sup.capLow + 1) else 0
  let old := e.sup.capLevel
  let level := if above then min 9 (old + 1) else if n = 10 then old - 1 else old
  let e' := (e.modFeed false (fun f => { f with amps := a })).modFeed true (fun f => { f with amps := b })
  (e'.modSup (fun s => { s with
    inputW := watts, capLow := n, capLevel := level, startsHeld := decide (cap < watts) && (s.startsHeld || old == 9) })).throttled now 2 e

/-- CAP_DECISION (R430). -/
def execCapDecision (watts ampsA ampsB : Nat) (s : State) : Host.Outcome State Fault Refusal := onEng s (capDecision watts ampsA ampsB)

/-! ### Commits and cartridges (R432 to R434) -/

/-- Commit period in ticks. -/
def Engine.commitPeriod (e : Engine) : Nat := if [false, true].all (fun b => (e.cart b).present && (e.cart b).charged) then 1000000 else 10000

/-- PERIODIC_COMMIT (R433). -/
def execPeriodicCommit (s : State) : Host.Outcome State Fault Refusal :=
  onEng s (fun now e => if e.power.stage = 8 ∧ e.commit.tick + e.commitPeriod ≤ now then e.commitAll now else e)

/-- CARTRIDGE's event: 0 removed, 1 inserted, 2 charged, 3 charging stopped, 4 end of life, 5 estimates disagree. -/
def Engine.cartEvent (e : Engine) (now : Nat) (b : Bool) (code : Nat) : Engine :=
  let c := e.cart b
  e.powerEvent now false e.chairDeck 0xFF 0x0609 (bnat b + 16 * code + 256 * (c.coulomb % 256) + 65536 * (c.voltage % 256)) (c.joules % 2 ^ 32)

/-- CARTRIDGE_REMOVAL: charging stops, and an imprint session aborts (R193, R434). -/
def cartridgeRemoval (b : Bool) (now : Nat) (e : Engine) : Engine :=
  let c := e.cart b
  if !c.present then e
  else
    let e := (e.modCart b (fun c => { c with present := false, charged := false, charging := false })).cartEvent now b 0
    let e := if c.charging then e.cartEvent now b 3 else e
    (e.breakSession now .cartridge).checkEnable

/-- CARTRIDGE_REMOVAL (R434). -/
def execCartridgeRemoval (b : Bool) (s : State) : Host.Outcome State Fault Refusal := onEng s (cartridgeRemoval b)

/-- CARTRIDGE_INSERTION: the cartridge begins charging; what its gauge reads is open (log entry 17). -/
def cartridgeInsertion (b : Bool) (now : Nat) (e : Engine) : Engine :=
  if (e.cart b).present then e
  else
    let g := Config.gauge e.freeCtr
    let e := { e with freeCtr := e.freeCtr + 1 }
    (e.modCart b (fun c => { c with
      present := true, charged := false, charging := e.power.stage != 0, coulomb := g.1.toNat, voltage := g.2.1.toNat, joules := g.2.2.toNat, eol := false })).cartEvent now b 1

/-- CARTRIDGE_INSERTION (R432). -/
def execCartridgeInsertion (b : Bool) (s : State) : Host.Outcome State Fault Refusal := onEng s (cartridgeInsertion b)

/-- CARTRIDGE_CHARGED: the lower estimate has reached 90 %. -/
def cartridgeCharged (b : Bool) (coulomb voltage now : Nat) (e : Engine) : Engine :=
  if !(e.cart b).present || decide (min coulomb voltage < 90) then e
  else (e.modCart b (fun c => { c with charged := true, coulomb := coulomb, voltage := voltage })).cartEvent now b 2

/-- CARTRIDGE_CHARGED (R432). Estimates above 100 % are taken as they are (log entry 140). -/
def execCartridgeCharged (b : Bool) (coulomb voltage : Nat) (s : State) : Host.Outcome State Fault Refusal := onEng s (cartridgeCharged b coulomb voltage)

/-- CARTRIDGE_ESTIMATES_DISAGREE: it counts as charged by the lower estimate. -/
def cartridgeDisagree (b : Bool) (coulomb voltage now : Nat) (e : Engine) : Engine :=
  if !(e.cart b).present || decide (max coulomb voltage ≤ min coulomb voltage + 20) then e
  else
    ((e.modCart b (fun c => { c with
      coulomb := coulomb, voltage := voltage, charged := c.charged && decide (90 ≤ min coulomb voltage) })).cartEvent now b 5).checkEnable

/-- CARTRIDGE_ESTIMATES_DISAGREE (R432): estimates above 100 % are taken as they are (log entry 140). The NV enable goes with the
charge (R186). -/
def execCartridgeEstimatesDisagree (b : Bool) (coulomb voltage : Nat) (s : State) : Host.Outcome State Fault Refusal := onEng s (cartridgeDisagree b coulomb voltage)

/-- CARTRIDGE_END_OF_LIFE (R432): full capacity has fallen below 50 J. -/
def execCartridgeEndOfLife (b : Bool) (joules : Nat) (s : State) : Host.Outcome State Fault Refusal :=
  onEng s (fun now e =>
    if !(e.cart b).present || (e.cart b).eol || decide (50 ≤ joules) then e
    else (e.modCart b (fun c => { c with eol := true, joules := joules })).cartEvent now b 4)

end Sys2Proof.Machine
end

