-- ==== Sys2Proof/Machine/Residue.lean ====
section
/-!
DEFINITION. Residue instructions, GROUP 0xB (R149), and WAIT_TIMEOUT (R108).
-/
namespace Sys2Proof.Machine

/-- RCHK: RESIDUE on the first block of the array whose residue differs from its tag (R149). -/
def execRchk (h : Hart) (w : Opnd) (s : State) : Host.Outcome State Fault Refusal :=
  issue 0xB 0x00 (fieldsOk false true false false w (decide (mod w 3 0 ≤ 10) && mod w 7 4 == 0 && mod w 31 13 == 0)) false h w (fun c =>
    let f := (fmtOf (mod w 3 0)).getD (.int 1)
    let n := mod w 12 8 + 1
    let a := c.xn w.a
    aligned a 8 <| c.claim a (arrayBytes f n) <| c.reading a (arrayBytes f n) <|
      let (bs, c) := c.take a (arrayBytes f n)
      match firstBadBlock f a (arrayBlocks f n bs) with
      | some d => .exc .residue d
      | none => .done c.e) s

/-- RGET: computed residue in xD[7:0], stored residue in xD[15:8] (R149). -/
def execRget (h : Hart) (w : Opnd) (s : State) : Host.Outcome State Fault Refusal :=
  issue 0xB 0x01 (fieldsOk true true true false w (decide (mod w 3 0 ≤ 10) && mod w 31 4 == 0)) false h w (fun c =>
    let f := (fmtOf (mod w 3 0)).getD (.int 1)
    let a := c.xn w.a
    let t := c.xn w.b
    aligned a 8 <| aligned t 4 <| c.claim a f.bytes <| c.claim t 4 <| c.reading a f.bytes <| c.reading t 4 <|
      let (el, c) := c.take a f.bytes
      let (tag, c) := c.take t 4
      let b := rawBlock f el tag
      .done (c.writeX w.d (BitVec.ofNat 64 (b.residue f + 256 * b.stored)) c.e)) s

/-- WAIT_TIMEOUT: a thread that has waited 1,000 pace ticks raises it (R108, R111). -/
def waitExpired (h : Hart) (now : Nat) (e : Engine) : Engine :=
  let th := (e.tile h.loc).thread h.thread
  if th.run = .waiting ∧ th.since + 1000 ≤ now then e.raise now h.loc h.thread th.pc.toNat (some th.task) .waitTimeout 0 else e

/-- WAIT_TIMEOUT (R108). -/
def execWaitTimeout (h : Hart) (s : State) : Host.Outcome State Fault Refusal := onUnit (hartOk h) s (waitExpired h)

end Sys2Proof.Machine
end

