-- ==== Sys2Proof/Machine/Scalar.lean ====
section
/-!
DEFINITION. Scalar ALU, GROUP 0x0 (R124, R125).
-/
namespace Sys2Proof.Machine

/-- Operand y: xB, or the sign-extended IMM in the immediate form (R124). -/
def aluY (c : Ctx) (w : Opnd) : Word := if w.alt then simm w else c.x w.b

/-- R118 for OP 0x00 to 0x17: OPC is 0; IMM is 0 in the register form; OPB is 0 in the immediate form. -/
def aluLegal (w : Opnd) : Bool := w.c == 0 && (if w.alt then w.b == 0 else w.imm == 0)

/-- xD ← xA op y (R124). -/
def alu (op : Nat) (f : Word → Word → Word) (h : Hart) (w : Opnd) (s : State) : Host.Outcome State Fault Refusal :=
  issue 0x0 op (aluLegal w) false h w (fun c => .done (c.writeX w.d (f (c.x w.a) (aluY c w)) c.e)) s

/-- xD ← op xA, OPB and IMM 0 (R124). -/
def alu1 (op : Nat) (f : Word → Word) (h : Hart) (w : Opnd) (s : State) : Host.Outcome State Fault Refusal :=
  issue 0x0 op (fieldsOk true true false false w (w.imm == 0)) false h w (fun c => .done (c.writeX w.d (f (c.x w.a)) c.e)) s

/-- 1 or 0. -/
def boolWord (b : Bool) : Word := if b then 1 else 0

/-- Signed quotient truncated toward zero; all ones by zero; -2^63 by -1 is -2^63 (R125). -/
def divS (a b : Word) : Word := if b = 0 then BitVec.ofNat 64 (2 ^ 64 - 1) else BitVec.ofInt 64 (a.toInt.tdiv b.toInt)
/-- Signed remainder with the sign of xA; xA by zero (R125). -/
def remS (a b : Word) : Word := if b = 0 then a else BitVec.ofInt 64 (a.toInt.tmod b.toInt)
/-- Unsigned quotient; all ones by zero (R125). -/
def divU (a b : Word) : Word := if b = 0 then BitVec.ofNat 64 (2 ^ 64 - 1) else BitVec.ofNat 64 (a.toNat / b.toNat)
/-- Unsigned remainder; xA by zero (R125). -/
def remU (a b : Word) : Word := if b = 0 then a else BitVec.ofNat 64 (a.toNat % b.toNat)

/-- Leading zero bits of the low n bits. -/
def clzFrom (v : Nat) : Nat → Nat
  | 0 => 0
  | n + 1 => if v.testBit n then 0 else 1 + clzFrom v n
/-- Trailing zero bits, at most n. -/
def ctzFrom (v : Nat) : Nat → Nat
  | 0 => 0
  | n + 1 => if v % 2 = 1 then 0 else 1 + ctzFrom (v / 2) n
/-- One bits among the low n. -/
def popFrom (v : Nat) : Nat → Nat
  | 0 => 0
  | n + 1 => bnat (v.testBit n) + popFrom v n

/-- Shift amount y[5:0]. -/
def shamt (y : Word) : Nat := y.toNat % 64

/-- ADD (R124). -/
def execAdd (h : Hart) (w : Opnd) (s : State) := alu 0x00 (fun a y => a + y) h w s
/-- SUB (R124). -/
def execSub (h : Hart) (w : Opnd) (s : State) := alu 0x01 (fun a y => a - y) h w s
/-- AND (R124). -/
def execAnd (h : Hart) (w : Opnd) (s : State) := alu 0x02 (fun a y => a &&& y) h w s
/-- OR (R124). -/
def execOr (h : Hart) (w : Opnd) (s : State) := alu 0x03 (fun a y => a ||| y) h w s
/-- XOR (R124). -/
def execXor (h : Hart) (w : Opnd) (s : State) := alu 0x04 (fun a y => a ^^^ y) h w s
/-- SLL (R124). -/
def execSll (h : Hart) (w : Opnd) (s : State) := alu 0x05 (fun a y => a <<< shamt y) h w s
/-- SRL (R124). -/
def execSrl (h : Hart) (w : Opnd) (s : State) := alu 0x06 (fun a y => a >>> shamt y) h w s
/-- SRA (R124). -/
def execSra (h : Hart) (w : Opnd) (s : State) := alu 0x07 (fun a y => a.sshiftRight (shamt y)) h w s
/-- SLT (R124). -/
def execSlt (h : Hart) (w : Opnd) (s : State) := alu 0x08 (fun a y => boolWord (a.slt y)) h w s
/-- SLTU (R124). -/
def execSltu (h : Hart) (w : Opnd) (s : State) := alu 0x09 (fun a y => boolWord (a.ult y)) h w s
/-- MIN (R124). -/
def execMin (h : Hart) (w : Opnd) (s : State) := alu 0x0A (fun a y => if a.slt y then a else y) h w s
/-- MAX (R124). -/
def execMax (h : Hart) (w : Opnd) (s : State) := alu 0x0B (fun a y => if a.slt y then y else a) h w s
/-- MINU (R124). -/
def execMinu (h : Hart) (w : Opnd) (s : State) := alu 0x0C (fun a y => if a.ult y then a else y) h w s
/-- MAXU (R124). -/
def execMaxu (h : Hart) (w : Opnd) (s : State) := alu 0x0D (fun a y => if a.ult y then y else a) h w s
/-- MUL (R124). -/
def execMul (h : Hart) (w : Opnd) (s : State) := alu 0x10 (fun a y => a * y) h w s
/-- MULH (R124). -/
def execMulh (h : Hart) (w : Opnd) (s : State) := alu 0x11 (fun a y => BitVec.ofInt 64 (a.toInt * y.toInt / 2 ^ 64)) h w s
/-- MULHU (R124). -/
def execMulhu (h : Hart) (w : Opnd) (s : State) := alu 0x12 (fun a y => BitVec.ofNat 64 (a.toNat * y.toNat / 2 ^ 64)) h w s
/-- DIV (R125). -/
def execDiv (h : Hart) (w : Opnd) (s : State) := alu 0x14 divS h w s
/-- DIVU (R125). -/
def execDivu (h : Hart) (w : Opnd) (s : State) := alu 0x15 divU h w s
/-- REM (R125). -/
def execRem (h : Hart) (w : Opnd) (s : State) := alu 0x16 remS h w s
/-- REMU (R125). -/
def execRemu (h : Hart) (w : Opnd) (s : State) := alu 0x17 remU h w s
/-- CLZ (R124). -/
def execClz (h : Hart) (w : Opnd) (s : State) := alu1 0x18 (fun a => BitVec.ofNat 64 (clzFrom a.toNat 64)) h w s
/-- CTZ (R124). -/
def execCtz (h : Hart) (w : Opnd) (s : State) := alu1 0x19 (fun a => BitVec.ofNat 64 (ctzFrom a.toNat 64)) h w s
/-- POPC (R124). -/
def execPopc (h : Hart) (w : Opnd) (s : State) := alu1 0x1A (fun a => BitVec.ofNat 64 (popFrom a.toNat 64)) h w s
/-- LIH: xA[31:0] + IMM * 2^32, IMM unsigned; OPB 0 (R124). -/
def execLih (h : Hart) (w : Opnd) (s : State) : Host.Outcome State Fault Refusal :=
  issue 0x0 0x1B (fieldsOk true true false false w true) false h w
    (fun c => .done (c.writeX w.d (BitVec.ofNat 64 ((c.xn w.a) % 2 ^ 32 + w.imm.toNat * 2 ^ 32)) c.e)) s

end Sys2Proof.Machine
end

