-- ==== Sys2Proof/Machine/Thermal.lean ====
section
/-!
DEFINITION. Temperature sensing, throttling and coolant (R435 to R444), and the INTLK contacts (R490, R491). Temperatures are in
units of 1/16 °C.
-/
namespace Sys2Proof.Machine

/-! ### Sensors and bands (R435, R436) -/

/-- Sensors on the same wafer beside sensor k of a field: in the 6 by 6 mesh of clusters of the compute wafer (0 to 35), the other
three of a memory wafer (36 to 39 DRAM, 40 to 43 NV0, 44 to 47 NV1). -/
def sensorNeighbours (k : Nat) : List Nat :=
  if k < 36 then
    (if k % 6 = 0 then [] else [k - 1]) ++ (if k % 6 = 5 then [] else [k + 1]) ++ (if k < 6 then [] else [k - 6]) ++ (if 30 ≤ k then [] else [k + 6])
  else (List.range 4).filterMap (fun i => let j := (k / 4) * 4 + i; if j = k then none else some j)

/-- A reading that no working sensor gives: below 0 °C or above 150 °C. -/
def outOfRange (r : Int) : Bool := decide (r < 0) || decide (2400 < r)

/-- Does sensor k's reading differ by more than 15 °C from the mean of its neighbours, those marked failed apart? -/
def strays (r : Nat → Int) (failed : List Nat) (k : Nat) : Bool :=
  let ns := (sensorNeighbours k).filter (fun j => !failed.contains j)
  let n : Int := ns.length
  let d := n * r k - (ns.map r).foldl (· + ·) 0
  !ns.isEmpty && (decide (240 * n < d) || decide (d < -(240 * n)))

/-- Sensors that a sample marks failed beside those already marked. -/
def newlyFailed (r : Nat → Int) (failed : List Nat) : List Nat :=
  let bad := ((List.range 48).filter (fun k => outOfRange (r k))) ++ failed
  (List.range 48).filter (fun k => !failed.contains k && (outOfRange (r k) || strays r bad k))

/-- What sensor k reads as: a failed compute sensor as the hottest of its working neighbours plus 5 °C; with no working neighbour
its value is `open'` (log entry 46). -/
def readsAs (r : Nat → Int) (failed : List Nat) (open' : Int) (k : Nat) : Int :=
  if k < 36 ∧ failed.contains k then
    match ((sensorNeighbours k).filter (fun j => !failed.contains j)).map r with
    | [] => open'
    | x :: xs => xs.foldl max x + 80
  else r k

/-- Lower limit of band b (Table 14.3): 45, 65 and 85 °C belong to the band above, 95 °C to T3. -/
def bandLimit (b : Nat) : Int := if b = 1 then 720 else if b = 2 then 1040 else if b = 3 then 1360 else 1521

/-- Band after a reading: it rises across a limit and falls 2 °C below it (R436). -/
def nextBand (b : Nat) (h : Int) : Nat :=
  let up := ([1, 2, 3, 4].filter (fun k => decide (bandLimit k ≤ h))).length
  let stay := ([1, 2, 3, 4].filter (fun k => decide ((if k = 4 then 1520 else bandLimit k) - 32 < h))).length
  if b < up then up else min b stay

/-- Band of a memory wafer whose sensors are [a, a + 4): with all four failed it is T4 (R435). -/
def waferBand (x : Sensors) (a b : Nat) : Nat :=
  match ((List.range 4).map (· + a)).filter (fun k => !x.failed.contains k) with
  | [] => 4
  | k :: ks => nextBand b (ks.foldl (fun m j => max m (x.readings.getD j 0)) (x.readings.getD k 0))

/-- Consecutive samples at 105 °C or more of each sensor; a failed memory sensor takes no part. -/
def tripCounts (x : Sensors) : AMap Nat :=
  (List.range 48).foldl (fun m k =>
    let hot := decide (1680 ≤ x.readings.getD k 0) && (decide (k < 36) || !x.failed.contains k)
    mset (fun _ => 0) k (if hot then min 3 (mget (fun _ => 0) k x.trip + 1) else 0) m) []

/-- A field with a sample of its 48 sensors taken. -/
def Field.sampled (f : Field) (rs : List Int) (open' : Int) : Field :=
  let r (k : Nat) : Int := rs.getD k 0
  let failed := f.sensors.failed ++ newlyFailed r f.sensors.failed
  let x : Sensors := { readings := (List.range 48).map (readsAs r failed open'), failed := failed, trip := f.sensors.trip }
  let y := { x with trip := tripCounts x }
  { f with
    sensors := y, cBand := nextBand f.cBand ((y.readings.take 36).foldl max (-32768))
    dBand := waferBand y 36 f.dBand, nBand0 := waferBand y 40 f.nBand0, nBand1 := waferBand y 44 f.nBand1 }

/-- An event that a rule asks for and Table 13.7 does not list: its code and arguments are open (log entry 44). -/
def Engine.unlistedEvent (e : Engine) (now d field k : Nat) : Engine :=
  let a := Config.unstatedArg e.freeCtr
  let b := Config.unstatedArg (e.freeCtr + 1)
  ({ e with freeCtr := e.freeCtr + 2 } : Engine).eventIn now d d { code := (Config.unstatedCode k).toNat, field := field, arg0 := a.toNat, arg1 := b.toNat % 2 ^ 32 }

/-- SENSOR_SAMPLE: the 48 sensors of a field. -/
def sensorSample (field : Nat) (rs : List Int) (now : Nat) (e : Engine) : Engine :=
  let open' := toSigned 16 (Config.unstatedArg e.freeCtr).toNat
  let n := (newlyFailed (fun k => rs.getD k 0) (e.field field).sensors.failed).length
  let e := ({ e with freeCtr := e.freeCtr + 1 } : Engine).modField field (fun f => f.sampled rs open')
  (List.range n).foldl (fun e _ => e.unlistedEvent now (deckOf field) field 0) e

/-- SENSOR_SAMPLE (R435). -/
def execSensorSample (field : Nat) (readings : List Int) (s : State) : Host.Outcome State Fault Refusal :=
  onUnit (decide (field < 96) && readings.length == 48) s (sensorSample field readings)

/-! ### Prediction and thermal levels (R440) -/

/-- Fields of a throttleable domain: its pair, the fields along the host or back edges of its deck for a hem domain (log entry
18). -/
def domainFields (d : Nat) : List Nat :=
  match pairOf d with
  | some f => [f, f + 1]
  | none =>
    let on (g : Nat → Bool) : List Nat := ((List.range 48).filter g).map (· + (if d < 29 then 0 else 48))
    if d = 24 ∨ d = 53 then on (fun i => i / 8 == 0 || i % 8 == 0 || i % 8 == 7) else if isHem d then on (fun i => i / 8 == 5) else []

/-- The hottest working sensor of a field, failed compute sensors by what they read as. -/
def Field.hot (f : Field) : Int :=
  ((List.range 48).filter (fun k => k < 36 || !f.sensors.failed.contains k)).foldl (fun m k => max m (f.sensors.readings.getD k 0)) (-32768)

/-- T8 of a domain: its load in W and the coolant temperature at it. -/
def Engine.predict (e : Engine) (d watts : Nat) (coolant : Int) : Int :=
  let ts := (domainFields d).foldl (fun m f => max m (e.field f).hot) (-32768)
  let tss := coolant + ((Config.rth d * watts / 4096 : Nat) : Int)
  ts + (tss - ts) * (Config.decay d : Int) / 65536

/-- A domain's prediction taken: consecutive decisions below 90 °C, and the time spent throttled. -/
def Engine.takeT8 (e : Engine) (x : Nat × Nat × Int) : Engine :=
  let d := x.1
  let t := e.predict d x.2.1 x.2.2
  let hot := decide (0 < e.levelOf d)
  e.modDomain d (fun y => { y with t8 := t, cool := if t < 1440 then min 10 (y.cool + 1) else 0, ms := y.ms + bnat hot })

/-- The domain with the highest T8 above 95 °C, the lower CD number of equals. -/
def Engine.hottestDomain (e : Engine) (ds : List Nat) : Option Nat :=
  (ds.filter (fun d => decide (1520 < (e.domain d).t8))).foldl
    (fun (b : Option Nat) d => match b with
      | none => some d
      | some c => if (e.domain c).t8 < (e.domain d).t8 ∨ ((e.domain c).t8 = (e.domain d).t8 ∧ d < c) then some d else some c) none

/-- Throttleable domains of decks whose rails are up. -/
def Engine.ruled (e : Engine) (d : Nat) : Bool := throttleable d && e.railsUp (domainDeck d)

/-- THERMAL_DECISION: one domain's level rises, those long below 90 °C fall. -/
def thermalDecision (loads : List (Nat × Nat × Int)) (now : Nat) (e : Engine) : Engine :=
  let xs := loads.filter (fun x => e.ruled x.1)
  let ds := xs.map (·.1)
  let e1 := xs.foldl Engine.takeT8 e
  let up := e1.hottestDomain ds
  let e2 := ds.foldl (fun e d => e.modDomain d (fun y => { y with
    thermal := if up = some d then min 9 (y.thermal + 1) else if y.cool = 10 then y.thermal - 1 else y.thermal })) e1
  e2.throttled now 0 e1

/-- THERMAL_DECISION (R440): the load in W of each domain and the coolant temperature at it. -/
def execThermalDecision (loads : List (Nat × Nat × Int)) (s : State) : Host.Outcome State Fault Refusal :=
  onUnit (loads.all (fun x => decide (x.1 < 60))) s (thermalDecision loads)

/-! ### The trip (R441) -/

/-- Index of a wafer's sensor: 0 compute, 1 DRAM, 2 NV0, 3 NV1. -/
def sensorIndex (wafer sensor : Nat) : Nat := if wafer = 0 then sensor else 32 + 4 * wafer + sensor

/-- THERMAL_TRIP: after three samples at 105 °C the rails fall, with the commit from the cartridges, and the trip is latched. -/
def thermalTrip (field wafer sensor now : Nat) (e : Engine) : Engine :=
  let k := sensorIndex wafer sensor
  let x := (e.field field).sensors
  if mget (fun _ => 0) k x.trip < 3 ∨ e.sup.thermLatch then e
  else
    let e := e.powerEvent now false (deckOf field) field 0x0601 (ofSigned 16 (x.readings.getD k 0) + 65536 * sensor + 16777216 * wafer) (fieldDomain field)
    (e.fallOff now e.holdUp).modSup (fun s => { s with thermLatch := true })

/-- THERMAL_TRIP (R441). -/
def execThermalTrip (field wafer sensor : Nat) (s : State) : Host.Outcome State Fault Refusal :=
  onUnit (decide (field < 96) && decide (wafer < 4) && decide (sensor < if wafer = 0 then 36 else 4)) s (thermalTrip field wafer sensor)

/-! ### Coolant (R443) -/

/-- COOLANT_FLOW's event. -/
def Engine.flowEvent (e : Engine) (now stage : Nat) : Engine :=
  e.powerEvent now false e.chairDeck 0xFF 0x0606 (e.sup.flow % 65536 + 65536 * ofSigned 16 e.sup.inlet) stage

/-- The flow response ends where neither the flow nor the inlet asks for it any more (R439, R443). -/
def Engine.flowEases (e : Engine) : Engine := e.modSup (fun s => { s with flowResp := s.flowResp && (s.flowLow.isSome || s.warm.isSome) })

/-- Flow of at least 80 L/min within 5 s of the loss. -/
def Engine.flowBack (e : Engine) (now : Nat) : Engine :=
  match e.sup.flowLow with
  | none => e
  | some t => if 800 ≤ e.sup.flow ∧ now < t + 5000000 then (e.modSup (fun s => { s with flowLow := none })).flowEases.flowEvent now 1 else e

/-- Flow below 70 L/min: every throttleable domain goes to level 9. -/
def Engine.flowFalls (e : Engine) (now : Nat) : Engine :=
  if e.sup.flow < 700 ∧ e.sup.flowLow = none then (e.modSup (fun s => { s with flowLow := some now, flowResp := true })).flowEvent now 0 else e

/-- The inlet's temperature after `old`: the warnings, and above 40 °C for 1 s the flow response. -/
def Engine.inletMoves (e : Engine) (now : Nat) (old : Int) : Engine :=
  let t := e.sup.inlet
  let e := if old ≤ 560 ∧ 560 < t then e.flowEvent now 3 else e
  let e := if 288 ≤ old ∧ t < 288 then e.flowEvent now 4 else e
  if t ≤ 640 then (e.modSup (fun s => { s with warm := none })).flowEases
  else match e.sup.warm with
    | none => e.modSup (fun s => { s with warm := some now })
    | some w => if w + 1000000 ≤ now ∧ e.sup.flowResp = false then (e.modSup (fun s => { s with flowResp := true })).flowEvent now 5 else e

/-- COOLANT_FLOW: flow in 0.1 L/min and inlet temperature. The responses are those of an engine that is not Off (R485); what the
outlet reads is open (log entry 10). -/
def coolantFlow (flow : Nat) (inlet : Int) (now : Nat) (e : Engine) : Engine :=
  let old := e.sup.inlet
  let out := toSigned 16 (Config.unstatedArg e.freeCtr).toNat
  let e1 := ({ e with freeCtr := e.freeCtr + 1 } : Engine).modSup (fun s => { s with flow := flow, inlet := inlet, outlet := out })
  if e.power.stage = 0 then e1 else (((e1.flowBack now).flowFalls now).inletMoves now old).throttled now 4 e

/-- COOLANT_FLOW (R443). -/
def execCoolantFlow (flow : Nat) (inlet : Int) (s : State) : Host.Outcome State Fault Refusal := onEng s (coolantFlow flow inlet)

/-- FLOW_RESTORE_TIMEOUT: 5 s of low flow power the engine down to Off through the commit. -/
def flowTimeout (now : Nat) (e : Engine) : Engine :=
  match e.sup.flowLow with
  | none => e
  | some t => if now < t + 5000000 then e else (e.flowEvent now 2).fallOff now true

/-- FLOW_RESTORE_TIMEOUT (R443). -/
def execFlowRestoreTimeout (s : State) : Host.Outcome State Fault Refusal := onEng s flowTimeout

/-- COOLANT_FLOW_RESTORED: the flow response ends where the inlet does not hold it. -/
def flowRestored (flow now : Nat) (e : Engine) : Engine :=
  if flow < 800 then e else ((e.modSup (fun s => { s with flow := flow })).flowBack now).throttled now 4 e

/-- COOLANT_FLOW_RESTORED (R443). -/
def execCoolantFlowRestored (flow : Nat) (s : State) : Host.Outcome State Fault Refusal := onEng s (flowRestored flow)

/-! ### Leaks (R444) -/

/-- LEAK: a wet sensor powers the engine down to Off; one that reads open is recorded. -/
def leakSeen (k : Nat) (opened : Bool) (now : Nat) (e : Engine) : Engine :=
  if opened then e.powerEvent now false e.chairDeck 0xFF 0x0607 (2 ^ k) 1
  else
    let e := (e.modSup (fun s => { s with leak := s.leak ||| 2 ^ k })).powerEvent now false e.chairDeck 0xFF 0x0607 (e.sup.leak ||| 2 ^ k) 0
    (e.fallOff now true).modSup (fun s => { s with leakLatch := true })

/-- LEAK (R444). -/
def execLeak (sensor : Nat) (opened : Bool) (s : State) : Host.Outcome State Fault Refusal := onUnit (decide (sensor < 6)) s (leakSeen sensor opened)

/-! ### INTLK (R490, R491) -/

/-- A new state of the IMPRINT_EN strap: opened, it ends an imprint session and the programming enable (R186, R491). -/
def Engine.takeStrap (e : Engine) (now : Nat) (closed : Bool) : Engine :=
  let e := e.modSup (fun s => { s with imprintEn := closed, imprintRun := 0, nvEnable := s.nvEnable && closed })
  if closed then e else e.breakSession now .strapOpen

/-- A new state of the PWR_ON contact: a closure counts again only after the contact was open for 100 ms (R491). -/
def Supervisor.takePwrOn (s : Supervisor) (now : Nat) (closed : Bool) : Supervisor :=
  { s with
    pwrOn := closed, pwrRun := 0, pwrSince := now, pwrUsed := s.pwrUsed && !(closed && decide (s.pwrSince + 100000 ≤ now)) }

/-- INTLK_SAMPLE: a state is taken after 10 samples in a row agree on it. -/
def intlkSample (imprint pwrOn : Bool) (now : Nat) (e : Engine) : Engine :=
  let s := e.sup
  let n := if imprint = s.imprintEn then 0 else s.imprintRun + 1
  let m := if pwrOn = s.pwrOn then 0 else s.pwrRun + 1
  let e := if n < 10 then e.modSup (fun s => { s with imprintRun := n }) else e.takeStrap now imprint
  e.modSup (fun s => if m < 10 then { s with pwrRun := m } else s.takePwrOn now pwrOn)

/-- INTLK_SAMPLE (R490). -/
def execIntlkSample (imprint pwrOn : Bool) (s : State) : Host.Outcome State Fault Refusal := onEng s (intlkSample imprint pwrOn)

/-- FAULT_OUT closed: a latch, a deck latched off or Safe Hold holds (Table 17.3). -/
def Engine.faultOut (e : Engine) : Bool := e.sup.thermLatch || e.sup.leakLatch || (e.deck 0).latchedOff || (e.deck 1).latchedOff || e.sup.safeHold

/-- LEAK_OUT closed: a leak sensor reads wet (Table 17.3). -/
def Engine.leakOut (e : Engine) : Bool := e.sup.leak != 0

end Sys2Proof.Machine
end

