-- ==== Sys2Proof/Machine/Supervisor.lean ====
section
/-!
DEFINITION. The supervisor's own commands (R385 to R391, R418): the chair latch, the watchdogs, Safe Hold, the journal's bucket.
-/
namespace Sys2Proof.Machine

/-- Engine with a deck controller changed. -/
def Engine.modCtl (e : Engine) (d : Nat) (f : Controller → Controller) : Engine := e.modDeck d (fun k => { k with ctl := f k.ctl })

/-! ### The chair latch (R386 to R389) -/

/-- CHAIR_REQUEST: granted only while the latch reads NONE; a release passes it on. -/
def chairRequest (d : Nat) (take : Bool) (now : Nat) (e : Engine) : Engine :=
  if take then (if e.mayHold d && e.sup.chairValue == .none then e.setChair (.deck d) else e) else e.passChair now d 0

/-- CHAIR_REQUEST (R386). -/
def execChairRequest (deck : Nat) (take : Bool) (s : State) : Host.Outcome State Fault Refusal := onUnit (decide (deck < 2)) s (chairRequest deck take)

/-- Do the units that a chair-only write names exist? -/
def chairWriteOk : ChairWrite → Bool
  | .darnMap f v _ => decide (f < 96) && decide (v < 696)
  | .darnSite f s _ => decide (f < 96) && decide (s < 720)
  | _ => true

/-- What a chair-only write does: the darn tables (R280), an engine-wide action, which leaves the state to the commands that carry
it out (R27), the programming enable under its conditions (R186). -/
def Engine.chairWrite (e : Engine) : ChairWrite → Engine
  | .darnMap f v value => e.modField f (fun k => { k with darnMap := mset darnMapReset v (value &&& 0x83FF#16) k.darnMap })
  | .darnSite f s st => e.setSite { field := f, site := s } st
  | .engineAction _ => e
  | .nvEnable on => e.modSup (fun s => { s with nvEnable := on && s.imprintEn && e.cartsOk && e.session.state != .idle })

/-- CHAIR_ONLY_WRITE: passed for the holder, discarded and recorded for any other; the address a register has is open (log entry
44). -/
def chairOnlyWrite (d : Nat) (cw : ChairWrite) (now : Nat) (e : Engine) : Engine :=
  if e.sup.chairValue = .deck d ∧ (e.deck d).ctl.follow = false then e.chairWrite cw
  else
    let a := Config.unstatedArg e.freeCtr
    ({ e with freeCtr := e.freeCtr + 1 } : Engine).supEvent now 0x010A a.toNat d

/-- CHAIR_ONLY_WRITE (R386). -/
def execChairOnlyWrite (deck : Nat) (cw : ChairWrite) (s : State) : Host.Outcome State Fault Refusal :=
  onUnit (decide (deck < 2) && chairWriteOk cw) s (chairOnlyWrite deck cw)

/-- The copy that the majority outvotes. -/
def outvoted : List Chair → Option Nat
  | [a, b, c] => if a = b ∧ b = c then none else if b = c then some 0 else if a = c then some 1 else if a = b then some 2 else none
  | _ => none

/-- Three copies with three values (R389). -/
def threeWays : List Chair → Bool
  | [a, b, c] => decide (a ≠ b) && decide (b ≠ c) && decide (a ≠ c)
  | _ => false

/-- A latch fault: Safe Hold, once there are controllers to hold. -/
def Engine.latchFault (e : Engine) (now : Nat) : Engine := if 4 ≤ e.power.stage then e.enterSafeHold now 0 else e

/-- CHAIR_VOTE: an outvoted copy is rewritten; two failed votes of one copy within 1 s, or three values, are a latch fault. `flip`
is the upset of a copy since the last vote. -/
def chairVote (flip : Option (Nat × Chair)) (now : Nat) (e : Engine) : Engine :=
  let e := match flip with | none => e | some (k, c) => e.modSup (fun s => { s with chair := s.chair.set k c })
  if threeWays e.sup.chair then e.latchFault now
  else match outvoted e.sup.chair with
    | none => e
    | some k =>
      let again := e.sup.voteFails.any (fun x => x.1 == k && decide (now ≤ x.2 + 1000000))
      let e := (e.setChair e.sup.chairValue).modSup (fun s => { s with voteFails := s.voteFails.filter (fun x => x.1 != k) ++ [(k, now)] })
      let e := e.unlistedEvent now e.chairDeck 0xFF 1
      if again then e.latchFault now else e

/-- The value names a deck there is. -/
def chairOk : Chair → Bool
  | .none => true
  | .deck d => decide (d < 2)

/-- CHAIR_VOTE (R387, R389). -/
def execChairVote (flip : Option (Nat × Chair)) (s : State) : Host.Outcome State Fault Refusal :=
  onUnit (flip.all (fun x => decide (x.1 < 3) && chairOk x.2)) s (chairVote flip)

/-- One controller's claim sampled: at the tenth false claim in a row it follows, and the ledger has the conflict. -/
def Engine.sampleClaim (e : Engine) (now d : Nat) (claim : Bool) : Engine :=
  let v := e.sup.chairValue
  let n := if claim && v != .deck d then (e.deck d).ctl.claims + 1 else 0
  let e' := e.modCtl d (fun c => { c with claims := min 10 n, follow := (c.follow && claim) || decide (10 ≤ n) })
  if (e.deck d).ctl.follow || decide (n < 10) then e'
  else
    let a := Config.unstatedArg e.freeCtr
    ({ e' with freeCtr := e.freeCtr + 1 } : Engine).supEvent now 0x0401 d (match v with | .deck h => h | .none => a.toNat % 2 ^ 32)

/-- CHAIR_CLAIM_SAMPLE (R388). -/
def execChairClaimSample (c0 c1 : Bool) (s : State) : Host.Outcome State Fault Refusal :=
  onEng s (fun now e => (e.sampleClaim now 0 c0).sampleClaim now 1 c1)

/-! ### Watchdogs (R390) -/

/-- WATCHDOG_WRITE (R390). -/
def execWatchdogWrite (deck : Nat) (s : State) : Host.Outcome State Fault Refusal :=
  onUnit (decide (deck < 2)) s (fun now e => if (e.deck deck).ctl.running then e.modCtl deck (fun c => { c with lastWatchdog := now }) else e)

/-- Have both controllers been down for more than 2 s, or are both held in reset? -/
def Engine.bothDown (e : Engine) (now : Nat) : Bool :=
  let gone (d : Nat) : Bool := (e.deck d).ctl.heldReset || (!(e.deck d).ctl.running && (match (e.deck d).ctl.restarts.getLast? with | some t => decide (t + 2000000 < now) | none => false))
  gone 0 && gone 1

/-- R391's second cause. -/
def Engine.checkControllers (e : Engine) (now : Nat) : Engine := if e.bothDown now then e.enterSafeHold now 1 else e

/-- Restarts of a controller in the hour before now. -/
def Controller.recent (c : Controller) (now : Nat) : List Nat := c.restarts.filter (fun t => decide (now < t + 3600000000))

/-- WATCHDOG_RESTART: 200 ms without a write. After three restarts within an hour the controller is held in reset; the chair, where
it had it, passes (R386). -/
def watchdogRestart (d now : Nat) (e : Engine) : Engine :=
  let c := (e.deck d).ctl
  if e.power.stage < 4 then e
  else if !c.running then e.checkControllers now
  else if now < c.lastWatchdog + 200000 then e
  else
    let l := c.recent now
    if 3 ≤ l.length then
      ((e.modCtl d (fun c => { c with running := false, heldReset := true, claims := 0, follow := false })).passChair now d 1).checkControllers now
    else
      let e := e.modCtl d (fun c => { c with running := false, restarts := l ++ [now], claims := 0, follow := false })
      (e.supEvent now 0x0403 (l.length + 1) d).passChair now d 1

/-- WATCHDOG_RESTART (R390). -/
def execWatchdogRestart (deck : Nat) (s : State) : Host.Outcome State Fault Refusal := onUnit (decide (deck < 2)) s (watchdogRestart deck)

/-- Held step-boundary actions of a deck that a restart of its controller has kept back (R390). -/
def Engine.keptBack (e : Engine) (now d : Nat) : List (Nat × Held) :=
  (e.deck d).sched.filterMap (fun x =>
    if x.hd.tick ≠ 0 ∧ x.hd.tick < now ∧ e.atBoundary x.parts then (boundaryOp x.cmd).map (fun o => (o, x)) else none)

/-- CONTROLLER_RESTART_DONE: the controller runs again; what it kept back is recorded as R34 records a deferral, and goes on. -/
def restartDone (d now : Nat) (e : Engine) : Engine :=
  let c := (e.deck d).ctl
  if e.power.stage < 4 ∨ c.running ∨ c.heldReset ∨ (e.deck d).latchedOff then e
  else
    let e := (e.keptBack now d).foldl (fun e x => e.partEvent now (x.2.parts.headD 0) 0x0106 x.1 (now - x.2.hd.tick)) e
    let e := e.modCtl d (fun c => { c with running := true, lastWatchdog := now })
    (((e.deck d).intake.map (·.fn)).eraseDups).foldl (fun e f => e.intakeMoves now f) e

/-- CONTROLLER_RESTART_DONE (R390). -/
def execControllerRestartDone (deck : Nat) (s : State) : Host.Outcome State Fault Refusal := onUnit (decide (deck < 2)) s (restartDone deck)

/-! ### Self-check and bucket (R391, R418) -/

/-- SUPERVISOR_SELF_CHECK (R391). -/
def execSupervisorSelfCheck (ok : Bool) (s : State) : Host.Outcome State Fault Refusal :=
  onEng s (fun now e => if ok || decide (e.power.stage < 4) then e else e.enterSafeHold now 2)

/-- The journal's bucket gains one write every 1/64 s, 15,625 ticks (R418). -/
def Supervisor.refill (s : Supervisor) (now : Nat) : Supervisor :=
  if now < s.bucketAt then s else { s with bucket := min 64 (s.bucket + 1), bucketAt := now + 15625 }

/-- JOURNAL_BUCKET_REFILL (R418). -/
def execJournalBucketRefill (s : State) : Host.Outcome State Fault Refusal := onEng s (fun now e => e.modSup (fun s => s.refill now))

end Sys2Proof.Machine
end

