-- ==== Sys2Proof/Machine/Sequencing.lean ====
section
/-!
DEFINITION. Power sequencing and resets (R448 to R460, R480): power-up and power-down stages, on requests, engine and deck resets.
-/
namespace Sys2Proof.Machine

/-! ### Where a sequence goes (R451, R452) -/

/-- Last stage of a power state: 0 Off, 4 Standby, 8 Ready. -/
def goalStage : PwrState → Nat
  | .off => 0
  | .standby => 4
  | .ready => 8

/-- A stage is completed or undone: the sequence ends at its goal, and otherwise goes on, turned around where the goal lies the other
way. A power-down above Standby first goes on to Standby. -/
def Engine.atStage (e : Engine) (now n : Nat) : Engine :=
  let g := goalStage e.power.goal
  let e1 := e.modPower (fun p => { p with stage := n, since := now })
  if e.power.down ∧ 4 < n then e1
  else if n = g then (e1.modPower (fun p => { p with up := false, down := false })).pwrReplies now
  else e1.modPower (fun p => { p with up := decide (n < g), down := decide (g < n) })

/-- Does a latch, a leak or the latch-off of both decks keep the engine in stage 1 (R450)? -/
def Engine.keptOff (e : Engine) : Bool := e.sup.thermLatch || e.sup.leakLatch || e.sup.leak != 0 || ((e.deck 0).latchedOff && (e.deck 1).latchedOff)

/-- Does some feed carry current? -/
def Engine.fed (e : Engine) : Bool := [false, true].any (fun b => !(e.feed b).lost && (e.feed b).mated)

/-- The state to go to, from Off or while a sequence runs; in a settled Standby or Ready nothing follows (R450, R452). -/
def Engine.askFor (e : Engine) (now : Nat) (t : PwrState) : Engine :=
  let p := e.power
  if e.keptOff || !e.fed then e
  else if p.up || p.down then e.modPower (fun p => { p with goal := t })
  else if p.stage = 0 then e.modPower (fun p => { p with goal := t, up := true, since := now })
  else e

/-- PWR_ON_REQUEST: the contact closed for 100 ms, once for each closure, or the feeds back after an absence of both for 5 s. -/
def pwrOnRequest (feeds : Bool) (now : Nat) (e : Engine) : Engine :=
  let s := e.sup
  if feeds then
    if s.bothAbsent.isNone || !e.fed then e
    else
      let e := e.modSup (fun s => { s with bothAbsent := none })
      if e.power.target = .off ∨ e.power.stage ≠ 0 ∨ e.power.up then e else e.askFor now e.power.target
  else if s.pwrOn && !s.pwrUsed && decide (s.pwrSince + 100000 ≤ now) then
    (e.modSup (fun s => { s with pwrUsed := true })).askFor now .ready
  else e

/-- PWR_ON_REQUEST (R450, R491). -/
def execPwrOnRequest (feeds : Bool) (s : State) : Host.Outcome State Fault Refusal := onEng s (pwrOnRequest feeds)

/-! ### Stages 1 to 4 (R449, R370) -/

/-- Decks that are not latched off. -/
def Engine.liveDecks (e : Engine) : List Nat := [0, 1].filter (fun d => !(e.deck d).latchedOff)
/-- Decks that complete the stages after stage 4 (R453). -/
def Engine.ableDecks (e : Engine) : List Nat := e.liveDecks.filter (fun d => !(e.deck d).ctl.heldReset)

/-- Does stage n complete now (Table 15.1)? -/
def Engine.stageDone (e : Engine) (now n : Nat) (rep : StageReport) : Bool :=
  match n with
  | 1 => rep.ok && !e.keptOff
  | 2 => [false, true].all (fun b => !(e.cart b).present || (e.cart b).charged) || decide (e.power.since + 120000000 ≤ now)
  | 3 => e.liveDecks.all (fun d => (e.deck d).attempts == 0)
  | _ => true

/-- Cartridges begin to charge. -/
def Engine.charge (e : Engine) : Engine := [false, true].foldl (fun e b => e.modCart b (fun c => { c with charging := c.present && !c.charged })) e

/-- VNV, VDRAM, VIO and VCORE up on the decks not latched off. -/
def Engine.railsOn (e : Engine) : Engine :=
  e.liveDecks.foldl (fun e d => e.modDeck d (fun k => { k with rails := { vnv := true, vdram := true, vio := true, vcore := true, vctl := k.rails.vctl } })) e

/-- A tick of the old count as one of the new count, as far before its present. -/
def shiftTick (old new t : Nat) : Nat := new - (old - t)

/-- Every tick the engine keeps for a timer of its own, moved to a new count (R370). -/
def Engine.rebase (e : Engine) (old new : Nat) : Engine :=
  let f := shiftTick old new
  let e := e.modSup (fun s => { s with
    flowLow := s.flowLow.map f, warm := s.warm.map f, bothAbsent := s.bothAbsent.map f, pwrSince := f s.pwrSince
    voteFails := s.voteFails.map (fun (x : Nat × Nat) => (x.1, f x.2)), bucketAt := new + (s.bucketAt - old) })
  { e with
    decks := e.decks.map (fun (x : Nat × Deck) => (x.1, { x.2 with fillAt := new + (x.2.fillAt - old), waitAt := new + (x.2.waitAt - old) }))
    power := { e.power with since := f e.power.since }
    commit := { e.commit with tick := f e.commit.tick }
    pace := { e.pace with holdSince := f e.pace.holdSince, lastEdge := f e.pace.lastEdge, lastSync := f e.pace.lastSync }
    zports := e.zports.map (fun (x : Nat × ZPort) => (x.1, { x.2 with since := f x.2.since, replayTicks := [] }))
    fields := e.fields.map (fun (x : Nat × Field) => (x.1, { x.2 with refresh := new })) }

/-- Stage 4: controllers boot, the latch is granted, the host ports train on the decks that `f` selects; held in reset no longer. -/
def Engine.bootDecks (e : Engine) (now : Nat) (f : Nat → Bool) : Engine :=
  let ds := e.liveDecks.filter f
  let e := ds.foldl (fun e d => e.modDeck d (fun k => { k with
    rails := { k.rails with vctl := true }, ctl := { k.ctl with running := true, heldReset := false, lastWatchdog := now, claims := 0, follow := false } })) e
  ds.foldl (fun e d => ((List.range 4).map (· + 4 * d)).foldl (fun e k => e.modHport k (fun h => { h with up := h.enable })) e) e

/-- Stage 4 of the engine's sequence. -/
def Engine.stageFour (e : Engine) (now : Nat) : Engine :=
  let e := (e.bootDecks now (fun _ => true)).clearMonitors now monitorIndices
  (e.setChair (.deck (e.liveDecks.headD 0))).modPower (fun p => { p with state := .standby })

/-! ### Stage 6 (R400, R424, R429, R435, R500) -/

/-- A site that has failed the self-test. -/
def Engine.failSite (e : Engine) (now : Nat) (t : Loc) : Engine :=
  let gone (e : Engine) : Engine := (e.setSite t .retired).event now (deckOf t.field) { code := 0x0304, field := t.field, site := t.site, arg0 := 0xFFFFFF, arg1 := 0x3FF }
  match e.siteState t with
  | .active => match (e.field t.field).vOf t.site with | some v => e.swapSite now t v | none => gone e
  | .spare => gone e
  | _ => e

/-- A zone's baseline recorded, for each temperature band; above 125 % of the manufacture baseline the domain is held again. -/
def Engine.recordBaseline (e : Engine) (now field uohm : Nat) : Engine :=
  let b := Config.zoneBaseline field
  let e := e.modField field (fun f => { f with base := (List.range 5).map (fun k => (k, uohm)), highWin := 0 })
  if b * 5 < uohm * 4 then e.holdCrack now field b uohm else e

/-- Stage 6 on the decks that `on` selects: stores zero-filled, sites, stops, phases and sensors tested, baselines recorded. -/
def Engine.selfTestAll (e : Engine) (now : Nat) (on : Nat → Bool) (rep : StageReport) : Engine :=
  let mine (f : Nat) : Bool := decide (f < 96) && on (deckOf f)
  let e := e.bareTiles mine
  let e := (rep.failedSites.filter (fun t => mine t.field && decide (t.site < 720))).foldl (fun e t => e.failSite now t) e
  let e := (rep.failedStops.filter (fun x => mine x.1 && decide (x.2 < 36) && !(e.field x.1).xstop.testBit x.2)).foldl (fun e x => e.disableStop now x.1 x.2 1) e
  let e0 := e
  let e := ((List.range 96).filter mine).foldl (fun e f => e.modField f (fun k => { k with shed := [], disagree := false, sensors := { k.sensors with failed := [], trip := [] } })) e
  let e := e.throttled now 1 e0
  let e := (rep.failedPhases.filter (fun x => mine x.1 && decide (x.2 < 12))).foldl (fun e x => e.shedPhase now x.1 x.2 .selfTest) e
  (rep.baselines.filter (fun x => mine x.1)).foldl (fun e x => e.recordBaseline now x.1 x.2) e

/-! ### Stage 8 (R454) -/

/-- Stage 8 of the engine's sequence. -/
def Engine.stageEight (e : Engine) (now : Nat) : Engine :=
  ({ e.recover now with resets := e.resets.filter (fun r => r.scope != 0) } : Engine).modPower (fun p => { p with state := .ready })

/-- What stage n of the engine's sequence does once it is complete. -/
def Engine.upStage (e : Engine) (now n : Nat) (rep : StageReport) : Engine :=
  match n with
  | 1 => e.charge
  | 3 => e.railsOn
  | 4 => e.stageFour now
  | 5 => ({ e with session := { e.session with hd := none } } : Engine).endSession now
  | 6 => e.selfTestAll now (fun d => e.ableDecks.contains d) rep
  | 8 => e.stageEight now
  | _ => e

/-! ### Deck resets (R456, R480) -/

/-- A partition with a field on a deck. -/
def Engine.onDeck (e : Engine) (d p : Nat) : Bool := (e.partFields p).any (fun f => deckOf f == d)

/-- Stage 8 of a deck's sequence: the partitions with a field on it, their tenants and requests, rebuilt from the commit. -/
def Engine.recoverDeck (e : Engine) (now d : Nat) : Engine :=
  let mine (p : Nat) : Bool := e.onDeck d p
  let e := e.dropTiers (fun f => deckOf f == d)
  let e := { e with tenants := e.tenants.map (fun (x : Nat × Tenant) => (x.1, if mine x.2.part then { x.2 with deficit := 0 } else x.2)) }
  (e.recoverParts mine).recoverReqs now (fun _ r => mine r.part)

/-- What stage n of a deck's sequence does. -/
def Engine.deckStage (e : Engine) (now d n : Nat) (rep : StageReport) : Engine :=
  match n with
  | 4 => e.bootDecks now (· == d)
  | 6 => e.selfTestAll now (· == d) rep
  | 8 => e.recoverDeck now d
  | _ => e

/-- The reset that runs. -/
def Engine.runningReset (e : Engine) : Option PendingReset := e.resets.find? (fun r => r.stage != 0)

/-- The next stage of a deck reset that runs. -/
def deckResetStage (rep : StageReport) (now : Nat) (e : Engine) : Engine :=
  match e.runningReset with
  | none => e
  | some r =>
    if r.scope ≠ 1 then e
    else
      let n := r.stage + 1
      let e := e.deckStage now r.deck n rep
      let rest := e.resets.filter (· != r)
      { e with resets := if n = 8 then rest else { r with stage := n } :: rest }

/-! ### POWER_UP_STAGE -/

/-- `PACE_NOW` as stage 4 sets it: the time of PTP or of the Zarog partner, 0 for the other sources; a reset leaves it (R370, R455). -/
def Engine.paceAt (e : Engine) (now : Nat) (rep : StageReport) : Nat :=
  if e.power.up ∧ e.power.stage = 3 ∧ e.resets = [] then (if e.pace.src = 2 ∨ e.pace.src = 3 then rep.paceValue % 2 ^ 64 else 0) else now

/-- POWER_UP_STAGE: the next stage of the engine's sequence, or of a deck reset, is complete. -/
def powerUpStage (rep : StageReport) (now : Nat) (e : Engine) : Engine :=
  if e.power.up then
    let n := e.power.stage + 1
    if e.stageDone now n rep then (e.upStage now n rep).atStage now n else e
  else deckResetStage rep now e

/-- POWER_UP_STAGE (R449, R370). -/
def execPowerUpStage (rep : StageReport) (s : State) : Host.Outcome State Fault Refusal :=
  let t := s.eng.paceAt s.now rep
  .next { s with now := t, eng := powerUpStage rep t (if t = s.now then s.eng else s.eng.rebase s.now t) }

/-! ### POWER_DOWN_STAGE (R451, Table 15.3) -/

/-- Every held command, snapshot and restore, remap and preventive cover that waits is answered 0x0309. -/
def Engine.dropWaiting (e : Engine) (now : Nat) : Engine :=
  let xs := (List.range 2).flatMap (fun d => ((e.deck d).sched).map (fun x => (d, x)))
  let e := xs.foldl (fun e x => (e.unhold x.1 x.2).reply now x.2.hd .engineState 0) e
  let e := (e.snaps.foldl (fun e x => e.reply now x.hd .engineState 0) e).loseSnaps
  let e := (e.remaps ++ e.siteResets).foldl (fun e x => e.reply now x.1 .engineState 0) e
  { e with remaps := [], siteResets := [], resets := [] }

/-- D8: nothing serves any more, 50 ms after the command at the latest. -/
def Engine.downEight (e : Engine) (now : Nat) : Engine := ((e.dropSteps).breakSession now .engineState).dropWaiting now

/-- D7's end: token FIFOs that are still full lose what they hold; delivered counts apply (R460). -/
def Engine.downSeven (e : Engine) : Engine :=
  let e := { e with tenants := e.tenants.map (fun (x : Nat × Tenant) => (x.1, x.2.noPackets)) }
  (e.reqsWhere (fun r => r.heldPkts != [])).foldl (fun e q => e.modReq q (fun r => { r with heldPkts := [], outCnt := r.delivered })) e

/-- Are the token and status FIFOs delivered? -/
def Engine.fifosEmpty (e : Engine) : Bool := e.tenants.all (fun x => x.2.fifo.isEmpty && x.2.heldEnds.isEmpty) && e.fns.all (fun x => x.2.status.isEmpty)

/-- D6: the commit; with the goal Off the final reply is written on entry to Standby. -/
def Engine.downSix (e : Engine) (now : Nat) : Engine :=
  let e := (e.commitAll now).modPower (fun p => { p with state := .standby })
  if e.power.goal = .off then e.pwrReplies now else e

/-- D4: controllers stop, host ports go down, VCTL off. -/
def Engine.downFour (e : Engine) : Engine :=
  let e := (List.range 2).foldl (fun e d => e.modDeck d (fun k => { k with rails := { k.rails with vctl := false }, ctl := { running := false }, intake := [], sched := [] })) e
  let e := (List.range 8).foldl (fun e k => e.modHport k (fun h => { h with up := false, waiting := [] })) e
  ({ e with fns := [], vfAssign := [] } : Engine).setChair .none

/-- D2: charging stops; Off, or up again where the goal has turned. -/
def Engine.downTwo (e : Engine) (now : Nat) : Engine :=
  let e := [false, true].foldl (fun e b => if (e.cart b).charging then (e.modCart b (fun c => { c with charging := false })).cartEvent now b 3 else e) e
  if e.power.goal = .off then e.enterOff now else e.atStage now 1

/-- POWER_DOWN_STAGE: the stage in progress is complete. -/
def powerDownStage (now : Nat) (e : Engine) : Engine :=
  let p := e.power
  if !p.down then e
  else match p.stage with
    | 8 => if e.parts.all (fun x => x.2.step.isNone) ∨ p.since + 50000 ≤ now then (e.downEight now).atStage now 7 else e
    | 7 | 6 => if e.fifosEmpty || decide (p.since + 100000 ≤ now) then e.downSeven.atStage now 5 else e
    | 5 => (e.downSix now).atStage now 4
    | 4 => if p.since + 10000 ≤ now then e.downFour.atStage now 3 else e
    | 3 => (e.unpowered now).atStage now 2
    | _ => e.downTwo now

/-- POWER_DOWN_STAGE (R451). -/
def execPowerDownStage (s : State) : Host.Outcome State Fault Refusal := onEng s powerDownStage

/-! ### RESET_TAKE_EFFECT (R456, R480, Tables 15.4 and 15.5) -/

/-- What a partition was in the middle of is gone, but for a mode epoch that has been prepared: it is decided, and applies, when the
partition has rejoined (R373). -/
def Part.settled (q : Part) : Part :=
  { q with window := none, rebind := none, coord := q.coord.map (fun c => { c with hd := none }), heldPkts := [], unacked := [], capture := false }

/-- An engine reset takes effect: the commit, and stages 4 to 8 to run with the rails up. -/
def Engine.resetEngine (e : Engine) (now : Nat) (r : PendingReset) : Engine :=
  let e := (e.dropSteps.commitAll now).loseSnaps
  let e := (({ e with session := { e.session with hd := none } } : Engine).breakSession now .engineState).dropRepairs (fun _ => true)
  let e := e.dropZports now (fun _ => true)
  let e := (List.range 24).foldl (fun e z => e.modZport z (fun k => { k with enable := true })) e
  let e := (List.range 8).foldl (fun e k => e.modHport k (fun h => { h with up := false, waiting := [], enable := true })) e
  let e := (List.range 2).foldl (fun e d => e.modDeck d (fun k => { k with intake := [], sched := [], epochHold := [] })) e
  let e := e.clearMonitors now monitorIndices
  { e with
    graphs := [], fns := [], vfAssign := [], zroute := [], pair := {}, flight := [], signals := [], chains := [], remaps := [], siteResets := []
    parts := e.parts.map (fun (x : Nat × Part) => (x.1, x.2.settled))
    tenants := e.tenants.map (fun (x : Nat × Tenant) => (x.1, { x.2.noPackets with nextPart := none }))
    sup := { e.sup with safeHold := false, startsHeld := false, voteFails := [] }
    power := { e.power with state := .standby, stage := 3, up := true, down := false, goal := .ready, since := now }
    resets := [{ r with stage := 3 }] }

/-- Monitors that a deck reset clears (R480): the deck's intake and rails, its fields' zones and temperatures, the step latency and
queue depth of the partitions with a field on it. -/
def Engine.deckMonitors (e : Engine) (d : Nat) : List Nat :=
  [0x400 + d] ++ (List.range 5).map (0x500 + 8 * d + ·) ++ (List.range 48).flatMap (fun i => [0x600 + 48 * d + i, 0x700 + 48 * d + i]) ++
    ((List.range 32).filter (e.onDeck d)).flatMap (fun p => [p, 0x300 + p])

/-- A deck reset takes effect. -/
def Engine.resetDeck (e : Engine) (now : Nat) (r : PendingReset) : Engine :=
  let d := r.deck
  let on (f : Nat) : Bool := deckOf f == d
  let ps := (List.range 32).filter (e.onDeck d)
  let es := ((e.reqs ++ e.commit.reqs).filter (fun x => ps.contains x.2.part)).map (·.1)
  let e := ((ps.foldl (fun e p => e.dropStep p) e).commitWhere now es.contains).failSnaps now
  let e := if (setBits (e.image e.session.image).footprint 96).any on then e.breakSession now .engineState else e
  let e := ((e.dropRepairs (fun t => on t.field)).dropGraphs on).dropZports now (· == d)
  let e := e.dropFns (fun k => k / 4 == d)
  let e := ((List.range 4).map (· + 4 * d)).foldl (fun e k => e.modHport k (fun h => { h with up := false, waiting := [] })) e
  let e := ps.foldl (fun e p => e.modPart p Part.settled) e
  let e := (e.modDeck d (fun k => { k with intake := [], sched := [], epochHold := [] })).clearMonitors now (e.deckMonitors d)
  { e with
    remaps := e.remaps.filter (fun x => !on x.2.field), siteResets := e.siteResets.filter (fun x => !on x.2.field)
    resets := { r with stage := 3 } :: e.resets.filter (· != r) }

/-- RESET_TAKE_EFFECT: the oldest reset that is due, one at a time (R456, R458). -/
def resetTakeEffect (now : Nat) (e : Engine) : Engine :=
  if e.power.up || e.power.down || e.runningReset.isSome then e
  else match e.resets.find? (fun r => decide (r.due ≤ now) && (r.scope == 0 || (e.power.stage == 8 && !e.sup.safeHold && !(e.deck r.deck).latchedOff))) with
    | none => e
    | some r => if r.scope = 0 then e.resetEngine now r else e.resetDeck now r

/-- RESET_TAKE_EFFECT (R456). -/
def execResetTakeEffect (s : State) : Host.Outcome State Fault Refusal := onEng s resetTakeEffect

end Sys2Proof.Machine
end

