-- ==== Sys2Proof/Machine/Assembly.lean ====
section
/-!
DEFINITION. The assembly of a batch (R35 to R38, R237, R253, R254, R277, R278, R291, R299, R301, R303, R304, R311).
-/
namespace Sys2Proof.Machine

/-! ### Eligible requests and items -/

/-- Prompt positions still to process. -/
def Request.promptLeft (r : Request) : Nat := r.promptEnd - r.len

/-- Is it a request whose item is a prompt chunk? -/
def Request.prompting (r : Request) : Bool := r.state == .queued || r.state == .prefill

/-- May a request of partition p join assembly (R291, R299, R310, R311)? -/
def Engine.eligible (e : Engine) (p now q : Nat) : Bool :=
  let r := e.req q
  let x := e.part p
  r.part == p && decide (r.activate ≤ now) && x.image == some r.image && r.heldPkts.isEmpty && !x.losses.any (fun l => l.1 == q) &&
    (if r.prompting then r.promptLeft != 0 && decide (min r.promptLeft r.chunkMax ≤ r.prompt.length) else r.state == .decode && !x.modes.train)

/-- A tree that this assembly cannot use is discarded (R301). -/
def Engine.pruneTree (e : Engine) (p q : Nat) : Engine :=
  let r := e.req q
  match r.tree with
  | some (root, _) => if (e.part p).specOn && r.spec && root == r.len then e else e.modReq q (fun r => { r with tree := none })
  | none => e

/-- An assembly under way: the engine, the batch, the positions used, the last tenant that added an item, the eligible requests
without an item, whether it has stopped. -/
structure Asm where
  e : Engine
  batch : List BatchEntry := []
  used : Nat := 0
  last : Option Nat := none
  left : List Nat := []
  done : Bool := false
deriving DecidableEq, Repr

/-- Chunk length of a prompt item under `room` (R303). -/
def Request.chunk (r : Request) (room : Nat) : Nat := min (min r.promptLeft r.chunkMax) room

/-- Cost of an item in positions, where it fits under `room` (R36, R37, R303). -/
def Request.cost (r : Request) (room : Nat) : Option Nat :=
  if r.prompting then
    let l := r.chunk room
    if l != 0 && (decide (64 ≤ l) || l == r.promptLeft) then some l else none
  else
    let c := 1 + (match r.tree with | some (_, ns) => ns.length | none => 0)
    if c ≤ room then some c else none

/-- Is request a's item taken before b's within a tenant: DEADLINE ascending with 0 last, then table index (R303)? -/
def Engine.sooner (e : Engine) (a b : Nat) : Bool :=
  let x := (e.req a).deadline
  let y := (e.req b).deadline
  if x = y then decide (a < b) else if x = 0 then false else if y = 0 then true else decide (x < y)

/-- A tenant's first item of a group and priority. -/
def Asm.first (a : Asm) (prompts : Bool) (prio t : Nat) : Option Nat :=
  (a.left.filter (fun q => (a.e.req q).tenant == t && (a.e.req q).prompting == prompts && (a.e.req q).prio == prio)).foldl
    (fun (b : Option Nat) q => match b with | none => some q | some x => if a.e.sooner q x then some q else some x) none

/-! ### The entries of an item -/

/-- Batch entries of a prompt chunk of `l` positions; training targets are free values (log entry 25). -/
def chunkEntries (q : Nat) (r : Request) (l : Nat) (train : Bool) (ctr : Nat) : List BatchEntry :=
  (List.range l).map (fun j =>
    { token := r.prompt.getD j 0, target := if train then (Config.trainTarget (ctr + j)).toNat else 0xFFFFFFFF, slot := r.len + j, logpos := r.len + j, req := q, kind := 0, len := r.len
      lastOfChunk := j + 1 == l, finalChunk := l == r.promptLeft })

/-- Ancestor masks of a tree's nodes in order, given those so far (R254). -/
def treeMasks : List (Nat × Nat) → List Nat → List Nat
  | [], ms => ms
  | (_, parent) :: r, ms => treeMasks r (ms ++ [ms.getD parent 0 + 2 ^ (ms.length - 1)])

/-- Batch entries of a decode position and its tree (R36, R253). -/
def decodeEntries (q : Nat) (r : Request) : List BatchEntry :=
  let root : BatchEntry := { token := r.newest.getD 0, slot := r.len, logpos := r.len, req := q, kind := 1, len := r.len }
  match r.tree with
  | none => [root]
  | some (_, ns) =>
    let ds := (treeDepths ns [0]).1
    let ms := treeMasks ns [0]
    root :: ns.zipIdx.map (fun (x : (Nat × Nat) × Nat) =>
      { token := x.1.1, slot := r.len + x.2 + 1, logpos := r.len + ds.getD (x.2 + 1) 0, tmask := ms.getD (x.2 + 1) 0, req := q, node := x.2 + 1, kind := 2, parent := x.1.2, len := r.len })

/-- Rows that an item writes: those up to its last slot, and to slot n + 16 with speculation on (R237). -/
def Engine.itemRows (e : Engine) (p q l : Nat) : Nat :=
  let r := e.req q
  if r.prompting then (r.len + l - 1) / 64 + 1 else (r.len + if (e.part p).specOn then 16 else 0) / 64 + 1

/-- Does the batch fit the BATCH region, and every row directory the ROWDIR region, of every tile that has one (R278)? -/
def Engine.regionsHold (e : Engine) (p : Nat) (batch : List BatchEntry) : Bool :=
  (e.graphTiles p).all (fun t =>
    (e.roleRegions p t 1).all (fun r => decide (64 + 32 * batch.length ≤ r.2.2)) && (e.roleRegions p t 2).all (fun r => decide ((e.rowDir p t batch).length ≤ r.2.2)))

/-- A request left out of this batch with the event of R237, R278. -/
def Asm.skip (a : Asm) (now p q lack : Nat) : Asm := { a with e := a.e.partEvent now p 0x0107 lack q, left := a.left.filter (· != q) }

/-- An item added: its rows allocated, its entries in the batch, its cost charged to the tenant (R304). -/
def Asm.add (a : Asm) (now p t q cost : Nat) : Asm :=
  let e := a.e
  let r := e.req q
  let g := e.graph (e.part p).graph
  match e.needRows q (e.itemRows p q cost) g with
  | none => a.skip now p q (e.lacking q g)
  | some e' =>
    let train := (e.part p).modes.train
    let es := if r.prompting then chunkEntries q r cost train e.freeCtr else decodeEntries q r
    if !e'.regionsHold p (a.batch ++ es) then a.skip now p q 0
    else
      let e := e'.modTenant t (fun x => { x with deficit := max (x.deficit - cost) (-32768) })
      let e := { e with freeCtr := if train then e.freeCtr + cost else e.freeCtr }
      let e := e.modReq q (fun x => { x with state := if x.prompting then .prefill else if x.tree.isSome then .verify else .decode, tree := none })
      { a with e := e, batch := a.batch ++ es, used := a.used + cost, last := some t, left := a.left.filter (· != q) }

/-! ### The procedure of R304 -/

/-- Does the tenant's deficit still stand above 0? -/
def Asm.owed (a : Asm) (t : Nat) : Bool := decide (0 < (a.e.tenant t).deficit)

/-- The items of one visit: at most `fuel` of them. -/
def Asm.serve (now p cap : Nat) (prompts : Bool) (prio t : Nat) : Nat → Asm → Asm
  | 0, a => a
  | n + 1, a =>
    if !a.owed t then a
    else match a.first prompts prio t with
      | none => a
      | some q => match (a.e.req q).cost (cap - a.used) with
        | none => { a with done := true }
        | some c => Asm.serve now p cap prompts prio t n (a.add now p t q c)

/-- One visit of a tenant: nothing where assembly has stopped or its first item does not fit; else its quantum, then its items. -/
def Asm.visit (now p cap : Nat) (prompts : Bool) (prio : Nat) (a : Asm) (t : Nat) : Asm :=
  if a.done then a
  else match a.first prompts prio t with
    | none => a
    | some q => match (a.e.req q).cost (cap - a.used) with
      | none => { a with done := true }
      | some _ =>
        let a := { a with e := a.e.modTenant t (fun x => { x with deficit := min (x.deficit + x.weight * 64) 32767 }) }
        Asm.serve now p cap prompts prio t (a.left.length + 1) a

/-- Rounds over the tenants that still have items, in ring order. -/
def Asm.rounds (now p cap : Nat) (prompts : Bool) (prio : Nat) (ring : List Nat) : Nat → Asm → Asm
  | 0, a => a
  | n + 1, a =>
    let ts := ring.filter (fun t => (a.first prompts prio t).isSome)
    if a.done || ts.isEmpty then a else Asm.rounds now p cap prompts prio ring n (ts.foldl (Asm.visit now p cap prompts prio) a)

/-- Tenants bound to a partition, in ascending ID. -/
def Engine.ring (e : Engine) (p : Nat) : List Nat := (e.tenants.filter (fun x => x.2.bound && x.2.part == p)).map (·.1)

/-- A ring from its first member at or after `k`. -/
def ringFrom (l : List Nat) (k : Nat) : List Nat := l.filter (fun t => decide (k ≤ t)) ++ l.filter (fun t => decide (t < k))

/-- The position cap of a step (R304). -/
def Engine.stepCap (e : Engine) (p : Nat) : Nat := min (e.part p).modes.posCap (e.graph (e.part p).graph).cap

/-- Assembly of a partition's batch. A tenant that owes 32,768 positions is out of debt after 513 quanta, which bounds the
rounds. -/
def Engine.assemble (e : Engine) (p now : Nat) : Engine × List BatchEntry :=
  let live := e.reqsWhere (fun r => r.part == p && r.state != .idle)
  let e := (live.filter (fun q => e.eligible p now q)).foldl (fun e q => e.pruneTree p q) e
  let left := live.filter (fun q => e.eligible p now q)
  let ring := e.ring p
  let order := ringFrom ring (e.part p).rrNext
  let cap := e.stepCap p
  let levels := [false, true].flatMap (fun g => [7, 6, 5, 4, 3, 2, 1, 0].map (fun k => (g, k)))
  let a := levels.foldl (fun a x => Asm.rounds now p cap x.1 x.2 order (600 * (left.length + 1)) a) { e := e, left := left }
  let e := match a.last with
    | some t => a.e.modPart p (fun q => { q with rrNext := (ringFrom ring (t + 1)).headD 0 })
    | none => a.e
  let e := ring.foldl (fun e t => if a.left.any (fun q => (e.req q).tenant == t) then e else e.modTenant t (fun x => { x with deficit := min x.deficit 0 })) e
  (e, a.batch)

end Sys2Proof.Machine
end

