-- ==== Sys2Proof/Machine/StepBegin.lean ====
section
/-!
DEFINITION. The step boundary (R33, R374, R375) and the beginning of a step (R32 to R38, R263, R366, R379, R472), and the hold
before a scheduled action (R34).
-/
namespace Sys2Proof.Machine

/-! ### Boundary actions (R33, R372 to R375) -/

/-- Held commands that are due at the boundary of a partition, with their decks. -/
def Engine.dueHeld (e : Engine) (now p : Nat) : List (Nat × Held) :=
  (List.range 2).flatMap (fun d => ((e.deck d).sched.filter (fun x =>
    x.parts.contains p && e.heldDue now d x)).map (fun x => (d, x)))


/-- A committed mode epoch that is due. -/
def Engine.dueEpoch (e : Engine) (now p : Nat) : Option Prepared :=
  match (e.part p).prepared with
  | some x => if x.decided = some true ∧ x.msg.tick ≤ now then some x else none
  | none => none

/-- A mode epoch applies: the modes, the packets held for it, which arrived before those still on the fabric (R216), the command's final reply (R373 to R375). -/
def Engine.applyEpoch (e : Engine) (now p : Nat) (x : Prepared) : Engine :=
  let mine (k : Packet) : Bool := k.part == p && k.epoch == x.msg.epoch
  let ks := (List.range 2).flatMap (fun d => (e.deck d).epochHold.filter mine)
  let e := (List.range 2).foldl (fun e d => e.modDeck d (fun k => { k with epochHold := k.epochHold.filter (fun y => !mine y) })) e
  let e := { e with flight := ks ++ e.flight }
  let hd := ((e.part p).coord.filter (fun c => c.msg.epoch == x.msg.epoch)).bind (·.hd)
  let e := e.modPart p (fun q => { q with modes := x.modes, epoch := x.msg.epoch, prepared := none, coord := q.coord.map (fun c => { c with hd := none }) })
  match hd with | some h => (e.dropOwn h.turn).okReply now h | none => e

/-- The boundary actions of a partition that are due, in intake order; at most `fuel` of them. One that others precede which wait, a
snapshot whose capture is still to come or a mode epoch whose decision is, waits with them (R33, R373, R463). -/
def boundaryActs (now p : Nat) : Nat → Engine → Engine
  | 0, e => e
  | n + 1, e =>
    match firstHeld (e.dueHeld now p), (e.dueEpoch now p).filter (fun y => !e.earlierHeld now (some y.turn) [p]) with
    | none, none => e
    | some (d, x), none => boundaryActs now p n (e.applyHeld now d x false false)
    | none, some y => boundaryActs now p n (e.applyEpoch now p y)
    | some (d, x), some y => boundaryActs now p n (if turnBefore x.hd.turn y.turn then e.applyHeld now d x false false else e.applyEpoch now p y)

/-- Steps 1 and 2 of R33 at tick `now`, with the pauses and resumes that wait for the boundary (R297) and the KV slots with a lost
word (R410). Step 2 follows the last action of step 1. -/
def Engine.boundary (e : Engine) (p now : Nat) : Engine :=
  let n := ((List.range 2).map (fun d => (e.deck d).sched.length)).foldl (· + ·) 1
  let e := (boundaryActs now p n e).resolvePart now p
  if e.earlierHeld now none [p] then e else e.boundaryReqs p now

/-- What a batch assembly makes of the request table before it begins: updates take effect, and deadlines that have passed end their
requests (R45, R296). -/
def Engine.preAssemble (e : Engine) (p now : Nat) : Engine :=
  ((e.reqsWhere (fun r => r.part == p && r.update != [])).foldl (fun e q => e.flushUpdates q) e).expire p now

/-! ### May a step begin? -/

/-- Would the partition's projected next step cross a scheduled action's tick (R34)? -/
def Engine.crosses (e : Engine) (now p : Nat) : Bool :=
  (e.timedActions p).any (fun x => decide (now < x.2) && decide (x.2 * 100000 < now * 100000 + (e.part p).lastStep * 101))

/-- The partition's span has formed: every other part is known and has a route here, and knows the others and has routes to them
(R365). -/
def Engine.spanFormed (e : Engine) (p : Nat) : Bool :=
  let q := e.part p
  let ks := List.range (q.spanLast + 1)
  let id := match q.image with | some i => (e.image i).id | none => 0
  (ks.filter (· != q.spanIndex)).all (fun k =>
    let n := mget (fun _ => 0xFFF) k q.spanOf
    n % 4096 != 0xFFF && mget (fun _ => 0) (n % 4096) e.zroute != 0 &&
      e.heard.any (fun a => a.id == id && a.part == k && a.node == n % 4096 && (ks.filter (· != k)).all a.knows.testBit))

/-- What the engine as a whole and the decks of the partition must be for a step to begin (R390, R391, R430, R448, R451, R456). -/
def Engine.mayServe (e : Engine) (p : Nat) : Bool :=
  let ds := (e.partFields p).map deckOf
  e.power.state == .ready && e.power.stage == 8 && !e.power.down && !e.sup.safeHold && !e.sup.startsHeld && e.xstopDue.isEmpty && decide (Config.idleDraw ≤ e.capInForce) &&
    ds.all (fun d => !(e.deck d).latchedOff && !(e.deck d).ctl.heldReset) && !e.resets.any (fun r => r.stage != 0 && (r.scope == 0 || ds.contains r.deck))

/-- Is the partition's pair role one that steps (R379 to R383)? A mirror twin's readiness is a matter of its own. -/
def Engine.pairSteps (e : Engine) (p : Nat) : Bool :=
  let q := e.part p
  match q.pair with
  | 0 => true
  | 1 => e.pair.mode != 2 || e.pair.alone || (decide (q.unacked.length < 2) && !e.pair.handover)
  | 2 => e.pair.mode == 1
  | _ => false

/-- Does nothing of the partition itself forbid a step: its state, image and graph, modes, open epochs and snapshots, covers, and
losses (R190, R311, R373, R401, R405, R463, R472)? -/
def Engine.partReady (e : Engine) (p now : Nat) : Bool :=
  let q := e.part p
  let g := e.graph q.graph
  (q.state == .idle || q.state == .held) && q.step.isNone && !q.capture && !(e.partFields p).any (fun k => (e.field k).fenced) &&
    (match q.image with | some i => (e.image i).state == .ready || (e.image i).state == .degraded | none => false) &&
    g.state == .bound && q.image == some g.image && g.blobsDue.isEmpty && g.train == q.modes.train && !(q.modes.train && decide (4096 < q.losses.length)) &&
    !e.earlierHeld now none [p] && !e.snaps.any (fun x => x.mask.testBit p && decide (x.tick ≤ now)) &&
    !e.sessionOn q.fields && q.window.isNone && (e.windowDue p).isNone && !(e.partTiles p).any (fun t => e.coverDue t .preventive || e.coverDue t .remap)

/-- May the partition begin a step now? The parts of a span other than part 0 begin theirs with the batch table (R366). -/
def Engine.mayStep (e : Engine) (p now : Nat) : Bool :=
  e.partReady p now && (e.part p).spanIndex == 0 && ((e.part p).spanLast == 0 || e.spanFormed p) && e.mayServe p && e.pairSteps p && !e.crosses now p

/-! ### The step -/

/-- Does a reserve row of a request lack a page in the reserve cache of its tile (R263)? -/
def Engine.uncached (e : Engine) (p q : Nat) : Bool :=
  let g := e.graph (e.part p).graph
  let s := g.streams.length
  (List.range (e.req q).rows).any (fun r => g.units.any (fun u =>
    let ss := g.unitStreams u
    ss.any (fun x => isReserve (e.pageAt q s x.1 r)) &&
      !((g.homesOf u).filterMap (e.locOfV p)).any (fun t => ss.all (fun x =>
        ((e.tile t).cachedPage p (e.pageAt q s x.1 r % 2 ^ 30)).isSome && (x.2.isValue || ((e.tile t).stubOf q x.1 r).isSome)))))

/-- Words of RETAIN regions that hold an uncorrectable value loaded again from the graph's package (R167). -/
def Engine.reloadRetained (e : Engine) (p : Nat) : Engine :=
  let h := (e.part p).graph
  let g := e.graph h
  g.placed.foldl (fun e x =>
    let t := locOf x.1
    let due := (e.tile t).badWords.filter (fun k => (List.range 64).any (fun n => let w := (e.tile t).reg n; regRetain w && regHas w (k / 512)))
    if due.isEmpty then e
    else match e.wordInSet (e.image g.image).footprint t with
      | none => e
      | some w => match e.loadBytes t w g x.2 with
        | .ok m => e.modTile t (fun ti => due.foldl (fun ti k => ti.store (8 * k) (readBytes m (8 * k) 8)) ti)
        | .error _ => e) e

/-- A mirrored partition tells its twin that it is ready to begin (R379). -/
def Engine.sayReady (e : Engine) (p now : Nat) : Engine :=
  if (e.part p).selfReady then e else (e.modPart p (fun q => { q with selfReady := true })).pairMsg now p 0 0

/-- The row directories of the partition's running step, by the tiles of the graph that have one (R278, R366). -/
def Engine.rowDirs (e : Engine) (p : Nat) : List (Loc × List Byte) :=
  match (e.part p).step with
  | some s => ((e.graphTiles p).filter (fun t => !(e.roleRegions p t 2).isEmpty)).map (fun t => (t, e.rowDir p t s.batch))
  | none => []

/-- The step begins with its batch: its number, its inputs, and at a span's part 0 the batch table for the other parts (R270,
R277, R366). -/
def Engine.beginStep (e : Engine) (p now : Nat) (batch : List BatchEntry) : Engine :=
  let e := (e.modPart p (fun q => { q with
    stepNo := (q.stepNo + 1) % 2 ^ 32, state := .stepping, step := some { start := now, batch := batch }, tally := [], failed := [], pauseAfter := false, twinReady := false, selfReady := false
    digest := none, digestFails := 0 })).reloadRetained p
  let e := (e.takePorts p).writeInputs p
  let q := e.part p
  let table := q.batchTable now batch
  let dirs := e.rowDirs p
  (e.spanOthers p).foldl (fun e n => e.spanData now p n.1 n.2 0 (table ++ dirs.flatMap (·.2)) (.batch n.2 table dirs)) e

/-- The batch assembled, and the step begun where there is one and nothing waits for it: the rows of requests that attend in exact mode, in
retrieval mode those with prompt positions (R258), are cached first (R263). -/
def Engine.tryStep (e : Engine) (p now : Nat) : Engine :=
  let e := e.preAssemble p now
  let (e', batch) := e.assemble p now
  if batch.isEmpty then e'
  else if (((batch.filter (fun b => !(e'.part p).attOn || b.kind == 0)).map (·.req)).eraseDups).any (e'.uncached p) then e
  else if e'.mirrored p && !(e'.part p).twinReady then e.sayReady p now
  else (if e'.mirrored p then e'.sayReady p now else e').beginStep p now batch

/-- Are boundary actions taken now: the engine serves (R391, R448)? -/
def Engine.serving (e : Engine) : Bool := e.power.state == .ready && !e.sup.safeHold

/-- STEP_BEGIN: at a pace tick at which no step of the partition runs, the actions of the boundary and, where the partition may
step, its next step. -/
def stepBegin (p now : Nat) (e : Engine) : Engine :=
  if (e.part p).step.isSome || (e.part p).capture || !e.serving then e
  else
    let e := (e.disableStops now).boundary p now
    let e := e.modPart p (fun q => { q with state := if q.state = .held && !e.crosses now p then .idle else q.state })
    if e.mayStep p now then e.tryStep p now else e

/-- STEP_BEGIN (R33). -/
def execStepBegin (p : Nat) (s : State) : Host.Outcome State Fault Refusal := onUnit (decide (p < 32)) s (stepBegin p)

/-- SCHEDULED_ACTION_HOLD: an idle partition whose next step would cross a scheduled action's tick is HELD; at the tick the
action applies and the partition is IDLE (R34, Table 10.7). -/
def actionHold (p now : Nat) (e : Engine) : Engine :=
  let q := e.part p
  if q.step.isSome || q.capture || !e.serving then e
  else
    match q.state with
    | .idle => if e.crosses now p then e.modPart p (fun q => { q with state := .held }) else e
    | .held => if e.crosses now p then e else (e.boundary p now).modPart p (fun q => { q with state := if q.state = .held then .idle else q.state })
    | _ => e

/-- SCHEDULED_ACTION_HOLD (R34). -/
def execScheduledActionHold (p : Nat) (s : State) : Host.Outcome State Fault Refusal := onUnit (decide (p < 32)) s (actionHold p)

end Sys2Proof.Machine
end

