-- ==== Sys2Proof/Machine/StepClose.lean ====
section
/-!
DEFINITION. The end of a step's sweep (R42, R270, R305 to R308, R366, R375) and what the parts of a span hand on.
-/
namespace Sys2Proof.Machine

/-- Has every node of the partition's graph ended on its whole spread, with no instance left (R270)? -/
def Engine.sweepDone (e : Engine) (p : Nat) : Bool :=
  let g := e.graph (e.part p).graph
  g.nodes.zipIdx.all (fun x => (e.spreadLocs p x.1).all (e.nodeEnded p x.2)) &&
    (e.partTiles p).all (fun t => (e.tile t).inst.all (fun i => i.2.part != p))

/-- Packets of a partition that still wait for an epoch when its step ends: discarded, and the step has a hardware fault
(R375). -/
def Engine.dropEarly (e : Engine) (now p : Nat) : Option Engine :=
  let mine := (List.range 2).flatMap (fun d => (e.deck d).epochHold.filter (fun k => k.part == p))
  if mine.isEmpty then none
  else
    let e := (List.range 2).foldl (fun e d => e.modDeck d (fun k => { k with epochHold := k.epochHold.filter (fun x => x.part != p) })) e
    let e := mine.foldl (fun e k => e.partEvent now p 0x0108 k.epoch (e.part p).epoch) e
    some (e.stepFault p)

/-- The step treated as a graph fault (R305). -/
def Engine.graphFaultStep (e : Engine) (p : Nat) : Engine := e.modPart p Part.faultStep

/-- What a tile of the SAMPLE spread leaves for another engine: a handoff, whose header gives its bytes, or the last part's
sampler records (R366). -/
def Engine.leftOn (e : Engine) (p : Nat) (t : Loc) (records : Bool) : Option (List Byte) :=
  match e.sampleRegion p t 3 with
  | none => none
  | some (a, n) =>
    let c := readNat (e.tile t).sp a 4
    let len := 64 + (if records then 520 * c else c)
    if n < len then none else some (readBytes (e.tile t).sp a len)

/-- Handoffs or records sent, by rank; a region that cannot hold what its header says is a graph fault of the step. -/
def Engine.handOn (e : Engine) (now p : Nat) (records : Bool) : Engine :=
  match (e.sampleSites p).mapM (fun t => e.leftOn p t records) with
  | none => e.graphFaultStep p
  | some l =>
    let next := mget (fun _ => 0xFFF) (if records then 0 else (e.part p).spanIndex + 1) (e.part p).spanOf
    let ts := e.sampleSites p
    (l.zipIdx.foldl (fun e x =>
      e.spanData now p (next % 4096) (next / 4096) (match ts[x.2]? with | some t => siteSum t | none => 0) x.1
        (if records then .records (next / 4096) x.2 x.1 else .handoff (next / 4096) x.2 x.1)) e).modPart p (fun q => { q with step := q.step.map (fun s => { s with handed := true }) })

/-- What the norm watchers of a part other than part 0 will find when the step's acceptance is decided, told to the parts that it pauses
before then; the events and MEAN wait for the accepted paths (R82, R83, R366, R367; log entry 155). -/
def Engine.tellWatch (e : Engine) (now p : Nat) (s : Step) : Engine :=
  let w := (e.watch now p s.batch ((s.batch.map (·.req)).eraseDups)).2
  let first := mget (fun _ => 0xFFF) 0 (e.part p).spanOf
  let e := if w.pause.isEmpty then e
    else e.sendPrepare now { part := p, epoch := 0, what := .failed w.pause, tick := now, deadline := now, coordinator := e.node, twoPhase := false } [(first % 4096, first / 4096)]
  if w.all then (e.tellPause p now .normWatch).modPart p (fun q => { q with pauseAfter := true }) else e

/-- The draws of the step and what follows them. -/
def Engine.drawAndAccept (e : Engine) (p now : Nat) (s : Step) : Engine :=
  match e.drawStep p s with
  | .fault => e.graphFaultStep p
  | .bad t k => e.raise now t 0 0 none .sramUncorr k
  | .tokens ds => e.afterDraw p now s ds

/-- STEP_CLOSE: the sweep has ended. A partition that holds a part of a span hands on; part 0 draws when the last part's records
have come back, and the other parts end their step with the accepted paths (R366). -/
def closeStep (p now : Nat) (e : Engine) : Engine :=
  let q := e.part p
  match q.step with
  | none => e
  | some s =>
    if s.halted || s.exc.cause.isSome || s.hwFault || s.graphFault || !e.sweepDone p then e
    else match e.dropEarly now p with
      | some e => e
      | none =>
        if q.spanLast = 0 then e.drawAndAccept p now s
        else if !s.handed then
          let e := e.handOn now p (q.spanIndex == q.spanLast)
          if q.spanIndex = 0 then e else e.tellWatch now p s
        else if q.spanIndex = 0 ∧ (List.range (e.sampleSites p).length).all s.records.contains then e.drawAndAccept p now s
        else e

/-- STEP_CLOSE (R42). -/
def execStepClose (p : Nat) (s : State) : Host.Outcome State Fault Refusal := onUnit (decide (p < 32)) s (closeStep p)

end Sys2Proof.Machine
end

