-- ==== Sys2Proof/Machine/Spans.lean ====
section
/-!
DEFINITION. The parts of a span (R365, R366): announcements, and what a part receives from the engines of the others in a step.
-/
namespace Sys2Proof.Machine

/-! ### SPAN_ANNOUNCE -/

/-- An announcement as it is kept. -/
def heardPart (a : SpanPart) : SpanPart := { a with node := a.node % 4096, partition := a.partition % 32 }

/-- SPAN_ANNOUNCE: the engine that holds a part of an image is kept, for partitions that bind another part later, and becomes known to those
that hold one; where that is news, this engine's own parts of the image are announced again (R365; log entry 152). -/
def spanAnnounce (a : SpanPart) (now : Nat) (e : Engine) : Engine :=
  let a := heardPart a
  let news := !e.heard.contains a
  let e := { e with heard := e.heard.filter (fun b => !(b.id == a.id && b.part == a.part)) ++ [a] }
  let e := ((List.range 32).filter (fun p =>
    let q := e.part p
    q.spanLast != 0 && decide (a.part ≤ q.spanLast) && a.part != q.spanIndex && (match q.image with | some i => (e.image i).id == a.id | none => false))).foldl
    (fun e p => e.modPart p (fun q => { q with spanOf := mset (fun _ => 0xFFF) a.part (a.node + 4096 * a.partition) q.spanOf })) e
  if news then e.announceParts now (fun b => b.id == a.id) (fun _ _ => true) else e

/-- SPAN_ANNOUNCE (R365). -/
def execSpanAnnounce (imageId : Word) (part node : Nat) (s : State) (partition knows samples batches handoff room : Nat := 0) :
    Host.Outcome State Fault Refusal :=
  onUnit (decide (part < 4)) s (spanAnnounce
    { id := imageId, part := part, node := node, partition := partition, knows := knows, samples := samples, batches := batches, handoff := handoff, room := room })

/-! ### SPAN_BATCH_RECEIVE -/

/-- Order of a virtual tile word by (vfield, vy, vx). -/
def vorder (w : Nat) : Nat := fld w 23 16 * 65536 + fld w 7 0 * 256 + fld w 15 8

/-- Insert a tile by its order. -/
def insertTile (x : Nat × Loc) : List (Nat × Loc) → List (Nat × Loc)
  | [] => [x]
  | y :: r => if x.1 < y.1 then x :: y :: r else y :: insertTile x r

/-- Tiles of the bound graph whose class declares BATCH, in the order of R305. -/
def Engine.batchTiles (e : Engine) (p : Nat) : List Loc :=
  (((e.graphTiles p).filter (fun t => !(e.roleRegions p t 1).isEmpty)).foldl (fun l t => insertTile (vorder ((e.vOfLoc p t).getD 0), t) l) []).map (·.2)

/-- A batch entry from its word (Table 9.6). -/
def entryOf (w : Nat) : BatchEntry :=
  { token := fld w 255 224, target := fld w 223 192, slot := fld w 191 160, logpos := fld w 159 128, tmask := fld w 127 112, req := fld w 111 97, node := fld w 96 92
    kind := fld w 91 90, parent := fld w 89 85, len := fld w 63 32 }

/-- The entries of a batch table. -/
def entriesOf (bs : List Byte) : List BatchEntry := (List.range (natAt bs 0 4)).map (fun i => entryOf (natAt bs (64 + 32 * i) 32))

/-- May a part other than part 0 begin the step that its batch table announces? -/
def Engine.mayFollow (e : Engine) (p now : Nat) : Bool :=
  (e.part p).spanIndex != 0 && e.spanFormed p && e.mayServe p && e.partReady p now && !e.crosses now p

/-- The part's step begins: the batch table and the row directories written, and its BATCH tiles wait for their handoffs. -/
def Engine.followStep (e : Engine) (p now : Nat) (batch : List Byte) (dirs : List (Loc × List Byte)) : Engine :=
  let e := (e.modPart p (fun q => { q with
    stepNo := (q.stepNo + 1) % 2 ^ 32, state := .stepping, tally := [], failed := [], pauseAfter := false
    step := some { start := now, batch := entriesOf batch, waits := e.batchTiles p } })).reloadRetained p |>.takePorts p
  let e := (e.graphTiles p).foldl (fun e t => (e.toRole p t 1 batch).modTile t (fun ti => ti.readyStep (e.taskIdx p t) ((e.part p).stepNo % 16))) e
  dirs.foldl (fun e x => e.toRole p x.1 2 x.2) e

/-- SPAN_BATCH_RECEIVE: at a boundary of the part, with the actions that are due there (R33, R366). -/
def spanBatch (p : Nat) (batch : List Byte) (dirs : List (Loc × List Byte)) (now : Nat) (e : Engine) : Engine :=
  if (e.part p).step.isSome || (e.part p).capture || !e.serving then e
  else
    let e := (e.disableStops now).boundary p now
    if e.mayFollow p now then e.followStep p now batch dirs else e

/-- SPAN_BATCH_RECEIVE (R366). -/
def execSpanBatchReceive (p : Nat) (batch : List Byte) (dirs : List (Loc × List Byte)) (s : State) : Host.Outcome State Fault Refusal :=
  onUnit (decide (p < 32) && dirs.all (fun x => locOk x.1)) s (spanBatch p batch dirs)

/-! ### SPAN_HANDOFF, SPAN_RECORDS_RETURN -/

/-- Bytes written into the LOGITS region of a tile of the SAMPLE spread, as far as it reaches. -/
def Engine.toSample (e : Engine) (p : Nat) (t : Loc) (bs : List Byte) : Engine :=
  match e.sampleRegion p t 3 with | some (a, n) => e.modTile t (fun ti => ti.store a (bs.take n)) | none => e


/-- SPAN_HANDOFF: written at the first 64-byte boundary after the batch table of the tile of its rank, whose step inputs are then
complete (R366). -/
def spanHandoff (p rank : Nat) (data : List Byte) (e : Engine) : Engine :=
  match (e.part p).step, (e.batchTiles p)[rank]? with
  | some s, some t =>
    if !s.waits.contains t then e
    else
      (e.toRoleAt p t 1 (ceilDiv (64 + 32 * s.batch.length) 64 * 64) data).modPart p (fun q => { q with step := q.step.map (fun s => { s with waits := s.waits.filter (· != t) }) })
  | _, _ => e

/-- SPAN_HANDOFF (R366). -/
def execSpanHandoff (p rank : Nat) (data : List Byte) (s : State) : Host.Outcome State Fault Refusal := onUnit (decide (p < 32)) s (fun _ e => spanHandoff p rank data e)

/-- SPAN_RECORDS_RETURN: the last part's sampler records in the LOGITS region of the tile of the same rank at part 0, once its own
handoffs have left (R366). -/
def spanRecords (p rank : Nat) (data : List Byte) (e : Engine) : Engine :=
  match (e.part p).step, (e.sampleSites p)[rank]? with
  | some s, some t =>
    if (e.part p).spanIndex ≠ 0 ∨ s.handed = false ∨ s.records.contains rank = true then e
    else (e.toSample p t data).modPart p (fun q => { q with step := q.step.map (fun s => { s with records := s.records ++ [rank] }) })
  | _, _ => e

/-- SPAN_RECORDS_RETURN (R366). -/
def execSpanRecordsReturn (p rank : Nat) (data : List Byte) (s : State) : Host.Outcome State Fault Refusal := onUnit (decide (p < 32)) s (fun _ e => spanRecords p rank data e)

/-! ### SPAN_ACCEPTED_PATH -/

/-- Row groups of a directory in scratchpad from byte `off` on: (request, unit, row, page IDs). -/
def dirRows (m : Memory) : Nat → Nat → List (Nat × Nat × Nat × List Nat)
  | 0, _ => []
  | n + 1, off =>
    let h := readNat m off 32
    let k := fld h 55 40
    ((List.range k).map (fun i =>
      let w := readNat m (off + 32 + 32 * i) 32
      (fld h 14 0, fld h 31 16 * 256 + fld h 39 32, fld w 255 224, if bitAt w 5 then [] else (List.range 6).map (fun j => fld w (63 + 32 * j) (32 + 32 * j))))) ++ dirRows m n (off + 32 + 32 * k)

/-- Every page of the part's row directories: (request, unit, row, place in the row entry), and its slot. -/
def Engine.dirPages (e : Engine) (p : Nat) : List ((Nat × Nat × Nat × Nat) × (Loc × Nat)) :=
  (e.graphTiles p).flatMap (fun t =>
    match e.roleRegions p t 2 with
    | [] => []
    | (_, a, n) :: _ =>
      let m := (e.tile t).sp
      (dirRows m (min (readNat m a 4) (n / 32)) (a + 64)).flatMap (fun r => (r.2.2.2.zipIdx.filter (fun x => x.1 != noPage && !isReserve x.1)).map (fun x => ((r.1, r.2.1, r.2.2.1, x.2), (t, fld x.1 12 0)))))

/-- Keep copies, COMMITTED, PMAX and seals of one request's accepted path in the part's own slots (R255): its length at the step's
start, its new length, and the nodes of the path. -/
def Engine.applyPath (e : Engine) (pages : List ((Nat × Nat × Nat × Nat) × (Loc × Nat))) (q n m : Nat) (path : List Nat) : Engine :=
  let mine := pages.filter (fun x => x.1.1 == q)
  let at' (u row j : Nat) : Option (Loc × Nat) := (mine.find? (fun x => x.1 == (q, u, row, j))).map (·.2)
  let moves := (path.zipIdx.filter (fun x => x.1 != x.2 + 1)).map (fun x => (n + x.1, n + x.2 + 1))
  let e := moves.foldl (fun e c =>
    (mine.filter (fun x => x.1.2.2.1 == c.1 / 64)).foldl (fun e x =>
      match at' x.1.2.1 (c.2 / 64) x.1.2.2.2 with
      | some y => e.setPosition y (c.2 % 64) (e.position x.2 (c.1 % 64))
      | none => e) e) e
  (mine.filter (fun x => decide (n / 64 ≤ x.1.2.2.1) && decide (64 * x.1.2.2.1 < m))).foldl (fun e x => e.commitSlot x.2 x.1.2.2.1 n m) e

/-- SPAN_ACCEPTED_PATH: the accepted paths, each a request, its new length and the path's nodes; the part's norm watchers are evaluated,
and its step ends (R81, R366). -/
def spanPaths (p : Nat) (paths : List (Nat × Nat × List Nat)) (now : Nat) (e : Engine) : Engine :=
  match (e.part p).step with
  | none => e
  | some s =>
    if (e.part p).spanIndex = 0 ∨ s.handed = false then e
    else
      let pages := e.dirPages p
      let e := paths.foldl (fun e x => e.applyPath pages x.1 (((s.batch.find? (fun b => b.req == x.1)).map (·.len)).getD x.2.1) x.2.1 x.2.2) e
      let e := (e.watch now p s.batch ((s.batch.map (·.req)).eraseDups)).1
      e.endStep p now s.start

/-- SPAN_ACCEPTED_PATH (R366). -/
def execSpanAcceptedPath (p : Nat) (paths : List (Nat × Nat × List Nat)) (s : State) : Host.Outcome State Fault Refusal := onUnit (decide (p < 32)) s (spanPaths p paths)

end Sys2Proof.Machine
end

