-- ==== Sys2Proof/Machine/Tokens.lean ====
section
/-!
DEFINITION. Held token packets (R310), the loss store (R311) and delivery of token packets (R330, R332, R334, R462).
-/
namespace Sys2Proof.Machine

/-- The tenant whose packets entry `idx` holds: the entry's own, or, where that is IDLE again, the one its end packet names. -/
def Engine.heldBy (e : Engine) (idx : Nat) : Nat :=
  match e.tenants.find? (fun x => x.2.heldEnds.any (fun k => k.req == idx)) with
  | some x => x.1
  | none => (e.req idx).tenant

/-- HELD_PACKET_WRITE: the oldest held packet of entry `idx` goes into the tenant's token FIFO when that has room and no entry before it
in the table holds one, an entry that is IDLE again counting with its end packet (R310). -/
def writeHeld (idx now : Nat) (e : Engine) : Engine :=
  let _ := now
  let t := e.heldBy idx
  let q := e.tenant t
  if q.fifo.length ≥ fifoDepth ∨ (e.holders t ++ q.heldEnds.map (·.req)).any (fun i => decide (i < idx)) = true then e
  else match q.heldEnds.find? (fun k => k.req == idx) with
    | some k => e.modTenant t (fun x => { x.write k with heldEnds := x.heldEnds.erase k })
    | none =>
      match (e.req idx).heldPkts with
      | [] => e
      | k :: r => (e.modReq idx (fun x => { x with heldPkts := r })).modTenant t (fun x => x.write k)

/-- HELD_PACKET_WRITE (R310). -/
def execHeldPacketWrite (idx : Nat) (s : State) : Host.Outcome State Fault Refusal :=
  onUnit (decide (idx < 32768)) s (writeHeld idx)

/-- The losses at the front of a store that go into one packet: up to 9 consecutive positions of one request (R311). -/
def lossRun : List (Nat × Nat × Nat × Nat) → List (Nat × Nat × Nat × Nat)
  | [] => []
  | x :: r => x :: ((r.take 8).zipIdx.takeWhile (fun y => y.1.1 == x.1 && y.1.2.1 == x.2.1 + y.2 + 1)).map (·.1)

/-- LOSS_STORE_DRAIN: one KIND 1 packet from the front of the store when the tenant's FIFO has room. The request's last one
carries END and REASON 0x7 once the request is DONE (R291, R308, R311; log entry 27). -/
def drainLosses (p now : Nat) (e : Engine) : Engine :=
  let _ := now
  match lossRun (e.part p).losses with
  | [] => e
  | x :: r =>
    let n := r.length + 1
    let q := x.1
    let t := (e.req q).tenant
    if (e.tenant t).fifo.length ≥ fifoDepth ∨ !(e.holders t).isEmpty ∨ !(e.tenant t).heldEnds.isEmpty then e
    else
      let rest := (e.part p).losses.drop n
      let last := (e.req q).state == .done && (e.req q).reason == 7 && !rest.any (fun y => y.1 == q)
      let e := (e.modPart p (fun s => { s with losses := rest })).modReq q (fun r => { r with outCnt := (r.outCnt + n) % 2 ^ 32 })
      let k := (e.req q).packet q x.2.2.2 ((x :: r).map (·.2.2.1)) (if last then 7 else 0) last
      e.modTenant t (fun s => s.write { k with kind := 1, len := x.2.1 })

/-- LOSS_STORE_DRAIN (R311). -/
def execLossStoreDrain (p : Nat) (s : State) : Host.Outcome State Fault Refusal := onUnit (decide (p < 32)) s (drainLosses p)

/-- What a delivered packet changes in its entry: the delivered count, and with the end packet of a DONE entry with RETAIN 0
the entry becomes IDLE (R309, R462). -/
def Engine.delivered (e : Engine) (k : TokenPacket) : Engine :=
  let r := e.req k.req
  if r.state = .idle ∨ r.tenant ≠ k.tenant ∨ r.rtag ≠ k.rtag then e
  else if k.fin = true ∧ r.state = .done ∧ r.retain = false then e.idleReq k.req
  else e.modReq k.req (fun r => { r with delivered := k.outCnt })

/-- CT_WORDS. -/
def Ring.ctWords (r : Ring) : Nat := fld r.cfg.toNat 31 28

/-- Words of the oldest packet of a token FIFO that are present: all of one that others follow, those the request engine has written of
the one at the write position. -/
def Tenant.present (t : Tenant) (words : Nat) : Nat := if t.fifo.length = 1 then min 8 (max words t.fwd) else 8

/-- TOKEN_DELIVERY: the packet at the head of the token FIFO goes to a free TOK unit. Once CT_WORDS words of it are present, those not
forwarded yet are written; the write-back record names the unit when all 8 have been (R330, R334). A word that fails parity once makes
the packet begin again in the same unit (R332, R335). A packet whose unit lies in no window any more is not sent (R339). In Safe Hold
DMA runs for status replies and the ledger only (R391). -/
def deliverToken (t : Nat) (par : Parity) (words now : Nat) (e : Engine) : Engine :=
  let f := Fn.vf t
  let x := e.tenant t
  match x.fifo with
  | [] => e
  | k :: r =>
    let ring := (e.fn f).ring 2
    let a := ring.base.toNat + 64 * (ring.ptr % ring.units)
    let n := x.present words
    if e.sup.safeHold || !e.ringReady f 2 then e
    else if !e.windowOk f a 64 true then e.windowEvent now f a
    else if n < 8 then
      let e := e.modTenant t (fun x => { x with wr := some n })
      if n < ring.ctWords ∨ n ≤ x.fwd then e
      else (e.modTenant t (fun x => { x with fwd := n })).dma f (a + 8 * x.fwd) (((natBytes k.word 64).take (8 * n)).drop (8 * x.fwd))
    else
      ((e.modTenant t (fun x => { x with fifo := r, fwd := 0, wr := if r = [] then none else x.wr })).toRing now f 2 3 (natBytes k.word 64) par).delivered k

/-- TOKEN_DELIVERY (R334). -/
def execTokenDelivery (t : Nat) (parity : Parity) (s : State) (words : Nat := 8) : Host.Outcome State Fault Refusal :=
  onUnit (decide (t < 256)) s (deliverToken t parity words)

end Sys2Proof.Machine
end

