-- ==== Sys2Proof/Machine/Dispatch.lean ====
section
/-!
DEFINITION. One arm per command: each calls its meaning.
-/
namespace Sys2Proof.Machine

/-- The effect of a command on everything but the queue. -/
def exec (i : Instr) (s : State) : Host.Outcome State Fault Refusal :=
  match i with
  | .add h w => Sys2Proof.Machine.execAdd h w s
  | .sub h w => Sys2Proof.Machine.execSub h w s
  | .and h w => Sys2Proof.Machine.execAnd h w s
  | .or h w => Sys2Proof.Machine.execOr h w s
  | .xor h w => Sys2Proof.Machine.execXor h w s
  | .sll h w => Sys2Proof.Machine.execSll h w s
  | .srl h w => Sys2Proof.Machine.execSrl h w s
  | .sra h w => Sys2Proof.Machine.execSra h w s
  | .slt h w => Sys2Proof.Machine.execSlt h w s
  | .sltu h w => Sys2Proof.Machine.execSltu h w s
  | .min h w => Sys2Proof.Machine.execMin h w s
  | .max h w => Sys2Proof.Machine.execMax h w s
  | .minu h w => Sys2Proof.Machine.execMinu h w s
  | .maxu h w => Sys2Proof.Machine.execMaxu h w s
  | .mul h w => Sys2Proof.Machine.execMul h w s
  | .mulh h w => Sys2Proof.Machine.execMulh h w s
  | .mulhu h w => Sys2Proof.Machine.execMulhu h w s
  | .div h w => Sys2Proof.Machine.execDiv h w s
  | .divu h w => Sys2Proof.Machine.execDivu h w s
  | .rem h w => Sys2Proof.Machine.execRem h w s
  | .remu h w => Sys2Proof.Machine.execRemu h w s
  | .clz h w => Sys2Proof.Machine.execClz h w s
  | .ctz h w => Sys2Proof.Machine.execCtz h w s
  | .popc h w => Sys2Proof.Machine.execPopc h w s
  | .lih h w => Sys2Proof.Machine.execLih h w s
  | .ldb h w => Sys2Proof.Machine.execLdb h w s
  | .ldh h w => Sys2Proof.Machine.execLdh h w s
  | .ldw h w => Sys2Proof.Machine.execLdw h w s
  | .ldd h w => Sys2Proof.Machine.execLdd h w s
  | .ldbu h w => Sys2Proof.Machine.execLdbu h w s
  | .ldhu h w => Sys2Proof.Machine.execLdhu h w s
  | .ldwu h w => Sys2Proof.Machine.execLdwu h w s
  | .stb h w => Sys2Proof.Machine.execStb h w s
  | .sth h w => Sys2Proof.Machine.execSth h w s
  | .stw h w => Sys2Proof.Machine.execStw h w s
  | .std h w => Sys2Proof.Machine.execStd h w s
  | .amoadd h w => Sys2Proof.Machine.execAmoadd h w s
  | .amoswap h w => Sys2Proof.Machine.execAmoswap h w s
  | .cas h w => Sys2Proof.Machine.execCas h w s
  | .vldr h w => Sys2Proof.Machine.execVldr h w s
  | .vldc h w => Sys2Proof.Machine.execVldc h w s
  | .vlds h w => Sys2Proof.Machine.execVlds h w s
  | .vstr h w => Sys2Proof.Machine.execVstr h w s
  | .vstc h w => Sys2Proof.Machine.execVstc h w s
  | .vsts h w => Sys2Proof.Machine.execVsts h w s
  | .vunpk h w => Sys2Proof.Machine.execVunpk h w s
  | .beq h w => Sys2Proof.Machine.execBeq h w s
  | .bne h w => Sys2Proof.Machine.execBne h w s
  | .blt h w => Sys2Proof.Machine.execBlt h w s
  | .bge h w => Sys2Proof.Machine.execBge h w s
  | .bltu h w => Sys2Proof.Machine.execBltu h w s
  | .bgeu h w => Sys2Proof.Machine.execBgeu h w s
  | .jal h w => Sys2Proof.Machine.execJal h w s
  | .jalr h w => Sys2Proof.Machine.execJalr h w s
  | .fence h w => Sys2Proof.Machine.execFence h w s
  | .fenceI h w => Sys2Proof.Machine.execFenceI h w s
  | .tbar h w => Sys2Proof.Machine.execTbar h w s
  | .waitc h w => Sys2Proof.Machine.execWaitc h w s
  | .rdpace h w => Sys2Proof.Machine.execRdpace h w s
  | .rdcnt h w => Sys2Proof.Machine.execRdcnt h w s
  | .endThread h w => Sys2Proof.Machine.execEndThread h w s
  | .vadd h w => Sys2Proof.Machine.execVadd h w s
  | .vsub h w => Sys2Proof.Machine.execVsub h w s
  | .vmul h w => Sys2Proof.Machine.execVmul h w s
  | .vfma h w => Sys2Proof.Machine.execVfma h w s
  | .vdiv h w => Sys2Proof.Machine.execVdiv h w s
  | .vsqrt h w => Sys2Proof.Machine.execVsqrt h w s
  | .vmin h w => Sys2Proof.Machine.execVmin h w s
  | .vmax h w => Sys2Proof.Machine.execVmax h w s
  | .vneg h w => Sys2Proof.Machine.execVneg h w s
  | .vabs h w => Sys2Proof.Machine.execVabs h w s
  | .vexp h w => Sys2Proof.Machine.execVexp h w s
  | .vcmp h w => Sys2Proof.Machine.execVcmp h w s
  | .vsel h w => Sys2Proof.Machine.execVsel h w s
  | .vcvt h w => Sys2Proof.Machine.execVcvt h w s
  | .vlog h w => Sys2Proof.Machine.execVlog h w s
  | .vbcast h w => Sys2Proof.Machine.execVbcast h w s
  | .vext h w => Sys2Proof.Machine.execVext h w s
  | .vmov h w => Sys2Proof.Machine.execVmov h w s
  | .vperm h w => Sys2Proof.Machine.execVperm h w s
  | .lplace h w => Sys2Proof.Machine.execLplace h w s
  | .lemitS h w => Sys2Proof.Machine.execLemitS h w s
  | .lemitB h w => Sys2Proof.Machine.execLemitB h w s
  | .ldivS h w => Sys2Proof.Machine.execLdivS h w s
  | .ldivB h w => Sys2Proof.Machine.execLdivB h w s
  | .lexp h w => Sys2Proof.Machine.execLexp h w s
  | .lclr h w => Sys2Proof.Machine.execLclr h w s
  | .lexpect h w => Sys2Proof.Machine.execLexpect h w s
  | .folds h w => Sys2Proof.Machine.execFolds h w s
  | .mma h w => Sys2Proof.Machine.execMma h w s
  | .mmaComplete t => Sys2Proof.Machine.execMmaComplete t s
  | .apass h w => Sys2Proof.Machine.execApass h w s
  | .attnPassEnd t => Sys2Proof.Machine.execAttnPassEnd t s
  | .mfill h w => Sys2Proof.Machine.execMfill h w s
  | .mcopy h w => Sys2Proof.Machine.execMcopy h w s
  | .mtrn h w => Sys2Proof.Machine.execMtrn h w s
  | .moverComplete t => Sys2Proof.Machine.execMoverComplete t s
  | .nvrd h w => Sys2Proof.Machine.execNvrd h w s
  | .nvDescComplete t bad => Sys2Proof.Machine.execNvDescComplete t bad s
  | .drd h w => Sys2Proof.Machine.execDrd h w s
  | .dwr h w => Sys2Proof.Machine.execDwr h w s
  | .dramDescComplete t index bad => Sys2Proof.Machine.execDramDescComplete t index bad s
  | .portFault t port k => Sys2Proof.Machine.execPortFault t port s k
  | .send h w => Sys2Proof.Machine.execSend h w s
  | .sendComplete t => Sys2Proof.Machine.execSendComplete t s
  | .recv h w => Sys2Proof.Machine.execRecv h w s
  | .msgDelivery t mbox => Sys2Proof.Machine.execMsgDelivery t mbox s
  | .rchk h w => Sys2Proof.Machine.execRchk h w s
  | .rget h w => Sys2Proof.Machine.execRget h w s
  | .waitTimeout h => Sys2Proof.Machine.execWaitTimeout h s
  | .taskGrant t entry => Sys2Proof.Machine.execTaskGrant t entry s
  | .taskRelease t slot => Sys2Proof.Machine.execTaskRelease t slot s
  | .depSignal k => Sys2Proof.Machine.execDepSignal k s
  | .allSignalCombine part node cluster => Sys2Proof.Machine.execAllSignalCombine part node cluster s
  | .stepBegin p => Sys2Proof.Machine.execStepBegin p s
  | .scheduledActionHold p => Sys2Proof.Machine.execScheduledActionHold p s
  | .stepClose p => Sys2Proof.Machine.execStepClose p s
  | .stepHalt p => Sys2Proof.Machine.execStepHalt p s
  | .stepReexecute p => Sys2Proof.Machine.execStepReexecute p s
  | .promptFetch idx tokens => Sys2Proof.Machine.execPromptFetch idx tokens s
  | .heldPacketWrite idx => Sys2Proof.Machine.execHeldPacketWrite idx s
  | .lossStoreDrain p => Sys2Proof.Machine.execLossStoreDrain p s
  | .tokenDelivery t parity words => Sys2Proof.Machine.execTokenDelivery t parity s words
  | .statusDelivery fn parity => Sys2Proof.Machine.execStatusDelivery fn parity s
  | .msixCoalesceTimeout fn q => Sys2Proof.Machine.execMsixCoalesceTimeout fn q s
  | .commandFetch fn pkt => Sys2Proof.Machine.execCommandFetch fn pkt s
  | .scheduledCommandApply deck index wordBad headerBad => Sys2Proof.Machine.execScheduledCommandApply deck index s wordBad headerBad
  | .doorbell fn q v => Sys2Proof.Machine.execDoorbell fn q v s
  | .ringCfgEnable fn q v => Sys2Proof.Machine.execRingCfgEnable fn q v s
  | .dwDataWrite fn off bytes => Sys2Proof.Machine.execDwDataWrite fn off bytes s
  | .dwLaunch fn v wordBad headerBad => Sys2Proof.Machine.execDwLaunch fn v s wordBad headerBad
  | .ledgerHeadRead port d poison => Sys2Proof.Machine.execLedgerHeadRead port d poison s
  | .ledgerAck port d v => Sys2Proof.Machine.execLedgerAck port d v s
  | .rcCounterRead c hw => Sys2Proof.Machine.execRcCounterRead c hw s
  | .vfAssignWrite port t v => Sys2Proof.Machine.execVfAssignWrite port t v s
  | .spRegionWrite t n v => Sys2Proof.Machine.execSpRegionWrite t n v s
  | .registerWrite fn off v => Sys2Proof.Machine.execRegisterWrite fn off v s
  | .flr fn => Sys2Proof.Machine.execFlr fn s
  | .pcieLinkDown port => Sys2Proof.Machine.execPcieLinkDown port s
  | .pcieLinkUp port rate width => Sys2Proof.Machine.execPcieLinkUp port rate width s
  | .hotReset port => Sys2Proof.Machine.execHotReset port s
  | .reqSubmit hd q => Sys2Proof.Machine.execReqSubmit hd q s
  | .reqQuery hd idx addr => Sys2Proof.Machine.execReqQuery hd idx addr s
  | .reqUpdate hd idx mask q => Sys2Proof.Machine.execReqUpdate hd idx mask q s
  | .reqPause hd idx => Sys2Proof.Machine.execReqPause hd idx s
  | .reqResume hd idx => Sys2Proof.Machine.execReqResume hd idx s
  | .reqCancel hd idx => Sys2Proof.Machine.execReqCancel hd idx s
  | .reqRelease hd idx => Sys2Proof.Machine.execReqRelease hd idx s
  | .reqAppend hd idx count addr => Sys2Proof.Machine.execReqAppend hd idx count addr s
  | .reqDraft hd idx root nodes => Sys2Proof.Machine.execReqDraft hd idx root nodes s
  | .imgFit hd maddr manifest fields addr => Sys2Proof.Machine.execImgFit hd maddr manifest fields addr s
  | .imgBegin hd maddr manifest fields ports zport => Sys2Proof.Machine.execImgBegin hd maddr manifest fields ports zport s
  | .imgStream hd img addr frames => Sys2Proof.Machine.execImgStream hd img addr frames s
  | .imgEnd hd img addr => Sys2Proof.Machine.execImgEnd hd img addr s
  | .imgAbort hd img => Sys2Proof.Machine.execImgAbort hd img s
  | .imgPatch hd img imageId => Sys2Proof.Machine.execImgPatch hd img imageId s
  | .imgTierLoad hd img addr frames region bytes cache => Sys2Proof.Machine.execImgTierLoad hd img addr frames region bytes cache s
  | .imgRelease hd img => Sys2Proof.Machine.execImgRelease hd img s
  | .imgQuery hd img addr => Sys2Proof.Machine.execImgQuery hd img addr s
  | .keyEnrol hd slot key sig => Sys2Proof.Machine.execKeyEnrol hd slot key sig s
  | .partBindFields hd fields img => Sys2Proof.Machine.execPartBindFields hd fields img s
  | .partBindImage hd img => Sys2Proof.Machine.execPartBindImage hd img s
  | .tenantBind hd t => Sys2Proof.Machine.execTenantBind hd t s
  | .partMode hd mask modes retr cap => Sys2Proof.Machine.execPartMode hd mask modes retr cap s
  | .partPause hd => Sys2Proof.Machine.execPartPause hd s
  | .partResume hd => Sys2Proof.Machine.execPartResume hd s
  | .partReset hd => Sys2Proof.Machine.execPartReset hd s
  | .tenantSet hd t weight maxReq enable mask => Sys2Proof.Machine.execTenantSet hd t weight maxReq enable mask s
  | .hemSet hd deck table entry inRate outRate burst => Sys2Proof.Machine.execHemSet hd deck table entry inRate outRate burst s
  | .kvReserve hd addr bytes cache low => Sys2Proof.Machine.execKvReserve hd addr bytes cache low s
  | .graphLoad hd addr pkg img => Sys2Proof.Machine.execGraphLoad hd addr pkg img s
  | .graphUnload hd g => Sys2Proof.Machine.execGraphUnload hd g s
  | .graphQuery hd g addr => Sys2Proof.Machine.execGraphQuery hd g addr s
  | .adaptSave hd addr bytes half => Sys2Proof.Machine.execAdaptSave hd addr bytes half s
  | .adaptRestore hd addr data half => Sys2Proof.Machine.execAdaptRestore hd addr data half s
  | .monRead hd sel deck part site first count addr => Sys2Proof.Machine.execMonRead hd sel deck part site first count addr s
  | .nwRead hd first count addr => Sys2Proof.Machine.execNwRead hd first count addr s
  | .nwWrite hd entry v => Sys2Proof.Machine.execNwWrite hd entry v s
  | .histRead hd mon addr => Sys2Proof.Machine.execHistRead hd mon addr s
  | .histClear hd mon => Sys2Proof.Machine.execHistClear hd mon s
  | .tenantQuery hd t addr => Sys2Proof.Machine.execTenantQuery hd t addr s
  | .pwrState hd target => Sys2Proof.Machine.execPwrState hd target s
  | .pwrCap hd watts => Sys2Proof.Machine.execPwrCap hd watts s
  | .thermQuery hd addr => Sys2Proof.Machine.execThermQuery hd addr s
  | .throttleQuery hd addr => Sys2Proof.Machine.execThrottleQuery hd addr s
  | .darnRead hd field addr => Sys2Proof.Machine.execDarnRead hd field addr s
  | .darnRemap hd field site => Sys2Proof.Machine.execDarnRemap hd field site s
  | .rinseSet hd deck v => Sys2Proof.Machine.execRinseSet hd deck v s
  | .selfTest hd scope deck => Sys2Proof.Machine.execSelfTest hd scope deck s
  | .snapshot hd mask addr bytes => Sys2Proof.Machine.execSnapshot hd mask addr bytes s
  | .restore hd mask addr data => Sys2Proof.Machine.execRestore hd mask addr data s
  | .reset hd scope deck field site => Sys2Proof.Machine.execReset hd scope deck field site s
  | .journalRead hd first addr => Sys2Proof.Machine.execJournalRead hd first addr s
  | .schedWithdraw hd tag => Sys2Proof.Machine.execSchedWithdraw hd tag s
  | .zportCtl hd port action => Sys2Proof.Machine.execZportCtl hd port action s
  | .zportQuery hd port addr => Sys2Proof.Machine.execZportQuery hd port addr s
  | .paceSrc hd src port value => Sys2Proof.Machine.execPaceSrc hd src port value s
  | .pairCfg hd mode mask addr licence => Sys2Proof.Machine.execPairCfg hd mode mask addr licence s
  | .zrouteSet hd peer mask => Sys2Proof.Machine.execZrouteSet hd peer mask s
  | .pairTakeover hd => Sys2Proof.Machine.execPairTakeover hd s
  | .packetArrival k uncorr corrected => Sys2Proof.Machine.execPacketArrival k uncorr s corrected
  | .foldCombine router index j => Sys2Proof.Machine.execFoldCombine router index j s
  | .foldReceive t => Sys2Proof.Machine.execFoldReceive t s
  | .hemReservation t deck zarog flits => Sys2Proof.Machine.execHemReservation t deck zarog flits s
  | .hemReservationReturn t => Sys2Proof.Machine.execHemReservationReturn t s
  | .hemBucketRefill => Sys2Proof.Machine.execHemBucketRefill s
  | .xstopDisabled field cluster selfTest => Sys2Proof.Machine.execXstopDisabled field cluster selfTest s
  | .proxyRead t q requester => Sys2Proof.Machine.execProxyRead t q requester s
  | .recoveryChainPage member k => Sys2Proof.Machine.execRecoveryChainPage member k s
  | .rinsePass t corrected uncorr => Sys2Proof.Machine.execRinsePass t corrected uncorr s
  | .bankGuarded t b => Sys2Proof.Machine.execBankGuarded t b s
  | .guardConversionDone t b => Sys2Proof.Machine.execGuardConversionDone t b s
  | .guardWindowEnd t => Sys2Proof.Machine.execGuardWindowEnd t s
  | .kvRinse t uncorr => Sys2Proof.Machine.execKvRinse t uncorr s
  | .dramRefresh field => Sys2Proof.Machine.execDramRefresh field s
  | .nvPatrol t bad near => Sys2Proof.Machine.execNvPatrol t bad s near
  | .slotZeroFillDone t slot => Sys2Proof.Machine.execSlotZeroFillDone t slot s
  | .kvSpill t stage => Sys2Proof.Machine.execKvSpill t stage s
  | .kvReserveFetch t page slot data => Sys2Proof.Machine.execKvReserveFetch t page slot data s
  | .reserveCacheFill t imgSlot page data => Sys2Proof.Machine.execReserveCacheFill t imgSlot page data s
  | .blobTransfer g t => Sys2Proof.Machine.execBlobTransfer g t s
  | .imprintEraseDone => Sys2Proof.Machine.execImprintEraseDone s
  | .imprintFrame frame => Sys2Proof.Machine.execImprintFrame frame s
  | .fieldVerify field bad => Sys2Proof.Machine.execFieldVerify field bad s
  | .imprintCommit => Sys2Proof.Machine.execImprintCommit s
  | .repairWrite img slice target => Sys2Proof.Machine.execRepairWrite img slice target s
  | .repairWriteVerified k ok => Sys2Proof.Machine.execRepairWriteVerified k ok s
  | .siteCovered t cause => Sys2Proof.Machine.execSiteCovered t cause s
  | .strikeExpiry t => Sys2Proof.Machine.execStrikeExpiry t s
  | .mapWindowStageDone p => Sys2Proof.Machine.execMapWindowStageDone p s
  | .sliceReimprintVerified t img => Sys2Proof.Machine.execSliceReimprintVerified t img s
  | .siteDark t => Sys2Proof.Machine.execSiteDark t s
  | .fieldSetRebindStage p => Sys2Proof.Machine.execFieldSetRebindStage p s
  | .zportSignalDetect z => Sys2Proof.Machine.execZportSignalDetect z s
  | .zportTrainDone z => Sys2Proof.Machine.execZportTrainDone z s
  | .zportTrainTimeout z => Sys2Proof.Machine.execZportTrainTimeout z s
  | .zportAlignDone z partner pport => Sys2Proof.Machine.execZportAlignDone z partner pport s
  | .zportAlignTimeout z => Sys2Proof.Machine.execZportAlignTimeout z s
  | .zportCreditDone z rtt => Sys2Proof.Machine.execZportCreditDone z rtt s
  | .zportCreditTimeout z => Sys2Proof.Machine.execZportCreditTimeout z s
  | .zportLossOfSignal z => Sys2Proof.Machine.execZportLossOfSignal z s
  | .zportBackoffElapsed z => Sys2Proof.Machine.execZportBackoffElapsed z s
  | .zportUpStable z => Sys2Proof.Machine.execZportUpStable z s
  | .zarogCodewordReceive z cw => Sys2Proof.Machine.execZarogCodewordReceive z cw s
  | .zarogNak z cwseq => Sys2Proof.Machine.execZarogNak z cwseq s
  | .zportReplayLimit z => Sys2Proof.Machine.execZportReplayLimit z s
  | .linkFlit z f => Sys2Proof.Machine.execLinkFlit z f s
  | .zarogPacketReceive z p => Sys2Proof.Machine.execZarogPacketReceive z p s
  | .zarogModuleInsert z cls watts => Sys2Proof.Machine.execZarogModuleInsert z cls watts s
  | .portConnectorFault p => Sys2Proof.Machine.execPortConnectorFault p s
  | .paceExchange z x => Sys2Proof.Machine.execPaceExchange z x s
  | .paceHoldover => Sys2Proof.Machine.execPaceHoldover s
  | .paceLocked => Sys2Proof.Machine.execPaceLocked s
  | .epochPrepare m => Sys2Proof.Machine.execEpochPrepare m s
  | .epochAck p node ok epoch => Sys2Proof.Machine.execEpochAck p node ok s epoch
  | .epochDecision p epoch commit => Sys2Proof.Machine.execEpochDecision p epoch commit s
  | .epochDeadline p => Sys2Proof.Machine.execEpochDeadline p s
  | .epochDecisionResend p => Sys2Proof.Machine.execEpochDecisionResend p s
  | .spanAnnounce imageId part node partition knows samples batches handoff room => Sys2Proof.Machine.execSpanAnnounce imageId part node s partition knows samples batches handoff room
  | .spanBatchReceive p batch dirs => Sys2Proof.Machine.execSpanBatchReceive p batch dirs s
  | .spanHandoff p rank data => Sys2Proof.Machine.execSpanHandoff p rank data s
  | .spanRecordsReturn p rank data => Sys2Proof.Machine.execSpanRecordsReturn p rank data s
  | .spanAcceptedPath p paths => Sys2Proof.Machine.execSpanAcceptedPath p paths s
  | .pairHeartbeat => Sys2Proof.Machine.execPairHeartbeat s
  | .pairHeartbeatLoss news => Sys2Proof.Machine.execPairHeartbeatLoss s news
  | .pairReady p => Sys2Proof.Machine.execPairReady p s
  | .mirrorDigest p digest => Sys2Proof.Machine.execMirrorDigest p digest s
  | .standbyReplication p rep => Sys2Proof.Machine.execStandbyReplication p rep s
  | .replicationAck p stepNo => Sys2Proof.Machine.execReplicationAck p stepNo s
  | .chairRequest deck take => Sys2Proof.Machine.execChairRequest deck take s
  | .chairOnlyWrite deck cw => Sys2Proof.Machine.execChairOnlyWrite deck cw s
  | .chairVote flip => Sys2Proof.Machine.execChairVote flip s
  | .chairClaimSample c0 c1 => Sys2Proof.Machine.execChairClaimSample c0 c1 s
  | .watchdogWrite deck => Sys2Proof.Machine.execWatchdogWrite deck s
  | .watchdogRestart deck => Sys2Proof.Machine.execWatchdogRestart deck s
  | .controllerRestartDone deck => Sys2Proof.Machine.execControllerRestartDone deck s
  | .supervisorSelfCheck ok => Sys2Proof.Machine.execSupervisorSelfCheck ok s
  | .journalBucketRefill => Sys2Proof.Machine.execJournalBucketRefill s
  | .feedLoss b cv => Sys2Proof.Machine.execFeedLoss b cv s
  | .feedSenseMated b => Sys2Proof.Machine.execFeedSenseMated b s
  | .powerLoss cvA cvB => Sys2Proof.Machine.execPowerLoss cvA cvB s
  | .latchClear => Sys2Proof.Machine.execLatchClear s
  | .phaseOvercurrent field phase amps => Sys2Proof.Machine.execPhaseOvercurrent field phase amps s
  | .phaseShed field phase cause => Sys2Proof.Machine.execPhaseShed field phase cause s
  | .phaseDisagreement field => Sys2Proof.Machine.execPhaseDisagreement field s
  | .deckShort deck rail => Sys2Proof.Machine.execDeckShort deck rail s
  | .softStartRetry deck short => Sys2Proof.Machine.execSoftStartRetry deck short s
  | .crackDrop field amps uohm => Sys2Proof.Machine.execCrackDrop field amps uohm s
  | .capDecision watts ampsA ampsB => Sys2Proof.Machine.execCapDecision watts ampsA ampsB s
  | .periodicCommit => Sys2Proof.Machine.execPeriodicCommit s
  | .cartridgeRemoval b => Sys2Proof.Machine.execCartridgeRemoval b s
  | .cartridgeInsertion b => Sys2Proof.Machine.execCartridgeInsertion b s
  | .cartridgeCharged b coulomb voltage => Sys2Proof.Machine.execCartridgeCharged b coulomb voltage s
  | .cartridgeEstimatesDisagree b coulomb voltage => Sys2Proof.Machine.execCartridgeEstimatesDisagree b coulomb voltage s
  | .sensorSample field readings => Sys2Proof.Machine.execSensorSample field readings s
  | .thermalDecision loads => Sys2Proof.Machine.execThermalDecision loads s
  | .thermalTrip field wafer sensor => Sys2Proof.Machine.execThermalTrip field wafer sensor s
  | .coolantFlow flow inlet => Sys2Proof.Machine.execCoolantFlow flow inlet s
  | .flowRestoreTimeout => Sys2Proof.Machine.execFlowRestoreTimeout s
  | .leak sensor openCircuit => Sys2Proof.Machine.execLeak sensor openCircuit s
  | .intlkSample imprint pwrOn => Sys2Proof.Machine.execIntlkSample imprint pwrOn s
  | .pwrOnRequest feeds => Sys2Proof.Machine.execPwrOnRequest feeds s
  | .powerUpStage rep => Sys2Proof.Machine.execPowerUpStage rep s
  | .powerDownStage => Sys2Proof.Machine.execPowerDownStage s
  | .resetTakeEffect => Sys2Proof.Machine.execResetTakeEffect s
  | .snapshotCapture => Sys2Proof.Machine.execSnapshotCapture s
  | .snapshotCaptureDone => Sys2Proof.Machine.execSnapshotCaptureDone s
  | .restoreApply => Sys2Proof.Machine.execRestoreApply s
  | .monitorSample mon v => Sys2Proof.Machine.execMonitorSample mon v s
  | .feedReturn b cv => Sys2Proof.Machine.execFeedReturn b cv s
  | .coolantFlowRestored flow => Sys2Proof.Machine.execCoolantFlowRestored flow s
  | .bridgeLaneDisabled lane => Sys2Proof.Machine.execBridgeLaneDisabled lane s
  | .cartridgeEndOfLife b joules => Sys2Proof.Machine.execCartridgeEndOfLife b joules s
  | .phaseDisagreementClear field => Sys2Proof.Machine.execPhaseDisagreementClear field s
  | .ptpMessage isPtp kind value => Sys2Proof.Machine.execPtpMessage isPtp kind value s
  | .paceInEdge offset => Sys2Proof.Machine.execPaceInEdge offset s
  | .pairCfgTimeout => Sys2Proof.Machine.execPairCfgTimeout s

end Sys2Proof.Machine
end

