-- ==== Sys2Proof/Machine/Step.lean ====
section
/-!
DEFINITION. One step: the command at the front of the queue, or on an empty queue one pace tick (R18, R28; log entry 2).
-/
namespace Sys2Proof.Machine

/-- The state after one idle pace tick: PACE_NOW counts while the engine is powered (R28, R449). -/
def idle (s : State) : State := if s.eng.power.state = .off then s else { s with now := (s.now + 1) % 2 ^ 64 }

/-- The command at the front of the queue, run on the state with the queue's rest; on an empty queue the block idles. -/
def step (s : State) : Host.Outcome State Fault Refusal :=
  match s.pending with
  | [] => .next (idle s)
  | i :: rest => exec i { s with pending := rest }

/-- The state with the command a word spells put at the front of its queue. -/
def State.withFetchWord (s : State) (nbits w : Nat) : State :=
  match decodeTableWord nbits w with
  | some i => { s with pending := i :: s.pending }
  | none => s

end Sys2Proof.Machine
end

