-- ==== Sys2Proof/Safety.lean ====
section
/-!
DEFINITION. The terms claims use: the canonical form of the byte stores, what a tile instruction may issue on, what it
leaves unchanged, and when a host command goes through intake.
-/
namespace Sys2Proof.Safety

open Sys2Proof.Machine

/-! ### Canonical form -/

/-- A tile's byte stores are in canonical form. -/
def tileWf (t : Tile) : Bool := t.sp.wf && t.kv.wf && t.nv.wf

/-- Every tile's byte stores are in canonical form, and PACE_NOW fits its 64 bits. -/
def stateWf (s : State) : Bool := s.eng.tiles.all (fun x => tileWf x.2) && decide (s.now < 2 ^ 64)

/-! ### Tile instructions -/

/-- The thread of a hart. -/
def thr (s : State) (h : Hart) : Thread := (s.eng.tile h.loc).thread h.thread

/-- What an instruction sees when a hart issues it: the engine whose instruction buffer holds its word (R87). -/
def seen (s : State) (h : Hart) (word : Word) : Ctx :=
  let th := thr s h
  let e := s.eng.fetched h th.pc.toNat word
  { now := s.now, e := e, h := h, th := th, ti := e.tile h.loc, i := ((s.eng.tile h.loc).instOf th.task).getD {} }

/-- The hart exists, its thread runs or waits and has not ended (R84, R133), its instance runs on an ACTIVE site, and no word of the
fetch is known as uncorrectable (R167). -/
def mayRun (s : State) (h : Hart) : Bool :=
  let th := thr s h
  hartOk h && (th.run == .running || th.run == .waiting) && !th.ended && s.eng.siteState h.loc == .active &&
    ((s.eng.tile h.loc).instOf th.task).isSome && ((s.eng.tile h.loc).firstBad th.pc.toNat 8).isNone

/-- The hart may run, the instruction's row is that of its own GROUP and OP (R118), and its fetch and reads meet no error (R166, R167;
InstructionWords says what an error does). -/
def issues (s : State) (h : Hart) (w : Opnd) : Bool := mayRun s h && w.other.isNone && w.ecc.isEmpty

/-- The same for an instruction that names a vector register: its thread has a vector context (R89). -/
def issuesVec (s : State) (h : Hart) (w : Opnd) : Bool := issues s h w && (thr s h).vctx.isSome

/-- The engine after a thread's instruction has completed: the thread goes on at PC + 8 (R84). -/
def advance (h : Hart) (e : Engine) : Engine :=
  e.modTile h.loc (fun ti => ti.modThread h.thread (fun th => { th with pc := th.pc + 8, run := .running, since := 0 }))

/-- The engine after a thread has found that it must wait (R108). -/
def stalled (s : State) (h : Hart) (e : Engine) : Engine :=
  e.modTile h.loc (fun ti => ti.modThread h.thread (fun th => th.waitFrom s.now))

/-- The engine after an instruction has raised an exception at its own PC without any effect (R111, R119). -/
def raised (s : State) (h : Hart) (word : Word) (c : Cause) (detail : Nat) : Engine :=
  (seen s h word).e.raise s.now h.loc h.thread (thr s h).pc.toNat (some (thr s h).task) c detail

/-- Nothing but one tile, and the model's counter of free values, differs. -/
structure OnlyTile (s t : State) (loc : Loc) : Prop where
  now : t.now = s.now
  pending : t.pending = s.pending
  engine : { t.eng with tiles := s.eng.tiles, freeCtr := s.eng.freeCtr } = s.eng
  tiles : ∀ k : Nat, k ≠ locKey loc → mget (fun _ => ({} : Tile)) k t.eng.tiles = mget (fun _ => ({} : Tile)) k s.eng.tiles

/-- Nothing but the hart's thread, and the instruction buffer's copy of its word, differs. -/
structure OnlyThread (s t : State) (h : Hart) : Prop where
  only : OnlyTile s t h.loc
  tile : { t.eng.tile h.loc with threads := (s.eng.tile h.loc).threads, ibuf := (s.eng.tile h.loc).ibuf } = s.eng.tile h.loc
  threads : ∀ k : Nat, k ≠ h.thread → (t.eng.tile h.loc).thread k = (s.eng.tile h.loc).thread k
  ibuf : ∀ a : Nat, a ≠ (thr s h).pc.toNat →
    mget (fun _ => (0 : Word)) a (t.eng.tile h.loc).ibuf = mget (fun _ => (0 : Word)) a (s.eng.tile h.loc).ibuf

/-- The thread goes on at `pc`, and nothing of it but its scalar registers differs. -/
structure WentTo (s t : State) (h : Hart) (pc : BitVec 21) : Prop where
  pc : (thr t h).pc = pc
  run : (thr t h).run = .running
  since : (thr t h).since = 0
  rest : { thr t h with pc := (thr s h).pc, run := (thr s h).run, since := (thr s h).since, regs := (thr s h).regs } = thr s h

/-- Scalar register `d` holds `v` (x0 still reads 0, R84), every other register what it held. -/
structure WroteX (s t : State) (h : Hart) (d : BitVec 5) (v : Word) : Prop where
  result : (thr t h).x d = if d = 0 then 0 else v
  others : ∀ r : BitVec 5, r ≠ d → (thr t h).x r = (thr s h).x r

/-- An instruction whose only result is a scalar register. -/
structure RegResult (s t : State) (h : Hart) (d : BitVec 5) (v : Word) : Prop where
  frame : OnlyThread s t h
  goes : WentTo s t h ((thr s h).pc + 8)
  reg : WroteX s t h d v

/-- A tile instruction has issued and its thread goes on at PC + 8: nothing differs but its thread, the instruction buffer's copy of its
word, and what `keep` takes back from the tile as it was. -/
structure Issued (s t : State) (h : Hart) (keep : Tile → Tile → Tile) : Prop where
  only : OnlyTile s t h.loc
  tile : keep { t.eng.tile h.loc with threads := (s.eng.tile h.loc).threads, ibuf := (s.eng.tile h.loc).ibuf } (s.eng.tile h.loc) = s.eng.tile h.loc
  threads : ∀ k : Nat, k ≠ h.thread → (t.eng.tile h.loc).thread k = (s.eng.tile h.loc).thread k
  ibuf : ∀ a : Nat, a ≠ (thr s h).pc.toNat →
    mget (fun _ => (0 : Word)) a (t.eng.tile h.loc).ibuf = mget (fun _ => (0 : Word)) a (s.eng.tile h.loc).ibuf
  goes : WentTo s t h ((thr s h).pc + 8)
  regs : ∀ r : BitVec 5, (thr t h).x r = (thr s h).x r

/-- Scratchpad bytes [a, a + n) of a tile hold `bs`, every other byte what it held; a word stored to whole is no longer
uncorrectable (R167). -/
structure Stored (s t : State) (loc : Loc) (a n : Nat) (bs : Nat → Byte) : Prop where
  inside : ∀ k : Nat, k < n → readByte (t.eng.tile loc).sp (a + k) = bs k
  outside : ∀ b : Nat, b < a ∨ a + n ≤ b → readByte (t.eng.tile loc).sp b = readByte (s.eng.tile loc).sp b
  words : ∀ k : Nat, k ∈ (t.eng.tile loc).badWords ↔ k ∈ (s.eng.tile loc).badWords ∧ ¬ (a ≤ 8 * k ∧ 8 * k + 8 ≤ a + n)

/-- An instruction whose only results are a store and a scalar register (`d` 0 where it has none). -/
structure StoreResult (s t : State) (h : Hart) (a n : Nat) (bs : Nat → Byte) (d : BitVec 5) (v : Word) : Prop where
  only : OnlyTile s t h.loc
  tile : { t.eng.tile h.loc with threads := (s.eng.tile h.loc).threads, ibuf := (s.eng.tile h.loc).ibuf,
                                 sp := (s.eng.tile h.loc).sp, badWords := (s.eng.tile h.loc).badWords } = s.eng.tile h.loc
  threads : ∀ k : Nat, k ≠ h.thread → (t.eng.tile h.loc).thread k = (s.eng.tile h.loc).thread k
  ibuf : ∀ a : Nat, a ≠ (thr s h).pc.toNat →
    mget (fun _ => (0 : Word)) a (t.eng.tile h.loc).ibuf = mget (fun _ => (0 : Word)) a (s.eng.tile h.loc).ibuf
  stored : Stored s t h.loc a n bs
  goes : WentTo s t h ((thr s h).pc + 8)
  reg : WroteX s t h d v

/-- An instruction whose only result is vector register `d` of the thread's context. -/
structure VecResult (s t : State) (h : Hart) (d : BitVec 5) (v : Vec) : Prop where
  only : OnlyTile s t h.loc
  tile : { t.eng.tile h.loc with threads := (s.eng.tile h.loc).threads, ibuf := (s.eng.tile h.loc).ibuf,
                                 vregs := (s.eng.tile h.loc).vregs } = s.eng.tile h.loc
  threads : ∀ k : Nat, k ≠ h.thread → (t.eng.tile h.loc).thread k = (s.eng.tile h.loc).thread k
  ibuf : ∀ a : Nat, a ≠ (thr s h).pc.toNat →
    mget (fun _ => (0 : Word)) a (t.eng.tile h.loc).ibuf = mget (fun _ => (0 : Word)) a (s.eng.tile h.loc).ibuf
  result : (t.eng.tile h.loc).vreg ((thr s h).vctx.getD 0) d.toNat = v
  others : ∀ c r : Nat, c * 32 + r ≠ (thr s h).vctx.getD 0 * 32 + d.toNat → (t.eng.tile h.loc).vreg c r = (s.eng.tile h.loc).vreg c r
  goes : WentTo s t h ((thr s h).pc + 8)
  regs : ∀ r : BitVec 5, (thr t h).x r = (thr s h).x r

/-! ### Host commands -/

/-- The packet of the command's function that waits first in the intake FIFO. -/
def first (s : State) (h : Hdr) : Option Intake := (s.eng.waitingOf h.fn).head?

/-- The engine once a host command has left its intake FIFO, or has arrived while no packet of its function waits there, and counts as
open (R331, R344, Table 11.9). -/
def taken (s : State) (h : Hdr) : Engine :=
  match first s h with
  | some x => (s.eng.leaveIntake x).openOne h.fn
  | none => ({ s.eng with order := s.eng.order + 1 } : Engine).openOne h.fn

/-- The command's header with its place in intake order (R344). -/
def placed (s : State) (h : Hdr) : Hdr :=
  { h with turn := match first s h with | some x => x.turn | none => s.eng.turn s.now (s.eng.fnDeck h.fn) }

/-- What follows in intake once the command has left it: packets that waited behind it move (R333, R337). -/
def after (s : State) (h : Hdr) (e : Engine) : Engine :=
  match first s h with | some _ => e.intakeMoves s.now h.fn | none => e

/-- The engine takes the command from intake: its function answers, the engine is past power-up stage 3, nothing makes it wait
(R27, R323, R325, R333, R390), and no packet of its function waits before it (R344). -/
def arrives (s : State) (h : Hdr) (c : Instr) (f : Form) : Bool :=
  fnOk h.fn && (s.eng.fnPort h.fn).isSome && decide (4 ≤ s.eng.power.stage) && !s.eng.intakeWaits f h &&
    (match first s h with | some x => packetOf c == some x.bytes | none => true)

/-- A command that arrives and passes every check of R343, R391 and R378. -/
def accepted (s : State) (h : Hdr) (c : Instr) (f : Form) : Bool :=
  arrives s h c f && (f.check (taken s h) s.now (placed s h)).isNone && ((taken s h).refuses f h.fn).isNone &&
    ((taken s h).twinRefuses f (placed s h)).isNone

/-- A command that is accepted and executed at once: it is shared with no other engine (R372), it has no tick of the future and no step
boundary to wait for (R33, R345), and it meets neither a firmware fault nor an error of a host read (Table 11.14). PART_MODE, SNAPSHOT and
RESTORE act at intake whatever their tick, where the schedule table has room for it. -/
def goes (s : State) (h : Hdr) (c : Instr) (f : Form) : Bool :=
  accepted s h c f && h.fw.isNone && (!f.reads || h.cpl == 0) &&
    (if f.atIntake then decide (h.tick ≤ s.now) || decide (((taken s h).deck ((taken s h).fnDeck h.fn)).scheduled < 1024)
     else ((taken s h).sharedWith f (placed s h)).isNone && decide (h.tick ≤ s.now) &&
      (f.boundary.isEmpty || ((taken s h).atBoundary f.boundary && !(taken s h).earlierHeld s.now (some (placed s h).turn) f.boundary)))

/-- The header that a command's effect and final reply use: its tick has come. -/
def due (s : State) (h : Hdr) : Hdr := { placed s h with tick := 0 }

/-- The outcomes of a step. -/
abbrev Outcome := Host.Outcome State Fault Refusal

/-- The state with another engine. -/
def withEng (s : State) (e : Engine) : State := { s with eng := e }

/-- The outcome of a command that goes through intake and has the effect `g`, its replies among it. -/
def took (s : State) (h : Hdr) (g : Engine → Engine) : Outcome := .next (withEng s (after s h (g (taken s h))))

/-- The outcome of a command that goes through intake, has the effect `g` and ends with the OK reply. -/
def tookOk (s : State) (h : Hdr) (g : Engine → Engine) : Outcome := took s h (fun e => (g e).okReply s.now (due s h))

/-- The outcome of a command that goes through intake and is only answered. -/
def tookReply (s : State) (h : Hdr) (c : Status) (d : Nat) : Outcome := took s h (fun e => e.reply s.now (due s h) c d)

end Sys2Proof.Safety
end

