-- ==== Sys2Proof/Certificates/Slice0/Obligations.lean ====
section
/-!
DEFINITION. The statements: what the rules of the specification say a command does, in terms of `exec` and `step`.
-/

open Sys2Proof Sys2Proof.Machine Sys2Proof.Safety

/-- A step takes the command at the front of the queue and is `exec` of it on the state with the queue's rest; on an empty queue one pace
tick passes while the engine is powered (R18, R28; the idle tick is the model's choice, log entry 2). -/
def Obligations.StepRunsTheFrontCommand : Prop :=
  (∀ (c : Instr) (s : State) (rest : List Instr), step { s with pending := c :: rest } = exec c { s with pending := rest }) ∧
  (∀ (s : State), s.pending = [] → s.eng.power.state ≠ .off → step s = .next { s with now := (s.now + 1) % 2 ^ 64 }) ∧
  (∀ (s : State), s.pending = [] → s.eng.power.state = .off → step s = .next s) ∧
  ∀ nbits w : Nat, decodeTableWord nbits w = none

/-- Every command whose units exist completes in every state and leaves the queue as it is; a command that names a unit the engine does
not have changes nothing and stops with that fault (R17, Table 0.4); nothing is refused. -/
def Obligations.EveryNamedCommandCompletes : Prop :=
  ∀ (i : Instr) (s : State),
    (i.named = true → ∃ t, exec i s = .next t ∧ t.pending = s.pending) ∧ (i.named = false → exec i s = .fault .noSuchUnit)

/-- PACE_NOW never jumps (R369, R370): the only command that changes it is the completion of power-up stage 4, outside a reset, which sets
it to the time of PTP or of the Zarog partner, or to 0; an idle step counts one tick; it always fits its 64 bits (R18). -/
def Obligations.PaceNowNeverJumps : Prop :=
  (∀ (i : Instr) (s t : State), exec i s = .next t →
    t.now = s.now ∨ ∃ rep, i = .powerUpStage rep ∧ s.eng.power.up = true ∧ s.eng.power.stage = 3 ∧ s.eng.resets = [] ∧
      t.now = if s.eng.pace.src = 2 ∨ s.eng.pace.src = 3 then rep.paceValue % 2 ^ 64 else 0) ∧
  ∀ (s t : State), s.now < 2 ^ 64 → step s = .next t → t.now < 2 ^ 64

/-- Every step keeps the canonical form of every tile's scratchpad, KV slab and weight slab, so that equal contents are equal data. -/
def Obligations.CanonicalFormKept : Prop :=
  ∀ (s t : State), stateWf s = true → step s = .next t → stateWf t = true

/-- State.reset: the values that Tables 2.8, 5.7, 7.7, 11.4, 12.4 and 13.4 and R84, R111, R161, R178, R358, R416 and R495 give, and the
invariant of CanonicalFormKept. Ready rather than Off, and PACE_NOW 0, are the model's choice (log entries 1 and 5). -/
def Obligations.ResetState : Prop :=
  let e := State.reset.eng
  stateWf State.reset = true ∧ State.reset.pending = [] ∧ State.reset.now = 0 ∧ e.power.state = .ready ∧ e.power.target = .ready ∧
  (∀ u : Loc, (e.tile u).exc.cause = none ∧ (e.tile u).strikes = [] ∧ (∀ n, (e.tile u).reg n = 0) ∧ (∀ k, ((e.tile u).thread k).run = .free) ∧
    ∀ k (r : BitVec 5), ((e.tile u).thread k).x r = 0) ∧
  (∀ d, (e.deck d).scrub = 0x03E80840 ∧ (e.deck d).thresh = 1 ∧ (e.deck d).ledger.entries = [] ∧ (e.deck d).sticky = [] ∧ (e.deck d).hem 0 32 =
    { inRate := 0x400, outRate := 0x400, burst := 0x1000 } ∧ ∀ n, n ≠ 32 → (e.deck d).hem 1 n = {}) ∧
  (∀ z, (e.zport z).state = .disabled ∧ (e.zport z).enable = true) ∧ (∀ i, (e.image i).state = .absent) ∧ (∀ q, (e.req q).state = .idle) ∧
  (∀ p, (e.part p).state = .free) ∧ (∀ f q, ((e.fn f).ring q).enabled = false) ∧ e.sup.keys = [] ∧ e.sup.safeHold = false ∧
  e.engineId = BitVec.allOnes 64

/-- A tile instruction reaches its own tile only (R2, R24, R211): no other tile, no request, tenant, image, graph, link, supervisor or
power state changes; outside its tile it may put a packet on the fabric, record an exception or a tally with its step, and count or
report an event. -/
def Obligations.TileInstructionsStayLocal : Prop :=
  ∀ (i : Instr) (h : Hart) (s t : State), i.hart = some h → exec i s = .next t →
    t.now = s.now ∧ t.pending = s.pending ∧ (∀ u : Loc, locKey u ≠ locKey h.loc → t.eng.tile u = s.eng.tile u) ∧
    { t.eng with tiles := s.eng.tiles, parts := s.eng.parts, decks := s.eng.decks, fns := s.eng.fns, sup := s.eng.sup, flight := s.eng.flight,
                 out := s.eng.out, freeCtr := s.eng.freeCtr } = s.eng ∧
    { t.eng.sup with journal := s.eng.sup.journal, journalNext := s.eng.sup.journalNext, bucket := s.eng.sup.bucket } = s.eng.sup ∧
    (∀ p, { t.eng.part p with step := (s.eng.part p).step, tally := (s.eng.part p).tally } = s.eng.part p) ∧
    ∃ l, t.eng.flight = s.eng.flight ++ l

/-- What a scalar ALU instruction may raise (R125): a form that Table 4.4 does not give raises ILLEGAL_OP and has no other effect; every
other form completes without an exception, at the corners of division too. -/
def Obligations.ScalarExceptions : Prop :=
  ∀ (s : State) (h : Hart) (w : Opnd), issues s h w = true →
    (∀ p ∈ ([(.add h w, 0x00), (.sub h w, 0x01), (.and h w, 0x02), (.or h w, 0x03), (.xor h w, 0x04), (.sll h w, 0x05), (.srl h w, 0x06), (.sra h w, 0x07),
        (.slt h w, 0x08), (.sltu h w, 0x09), (.min h w, 0x0A), (.max h w, 0x0B), (.minu h w, 0x0C), (.maxu h w, 0x0D), (.mul h w, 0x10), (.mulh h w, 0x11),
        (.mulhu h w, 0x12), (.div h w, 0x14), (.divu h w, 0x15), (.rem h w, 0x16), (.remu h w, 0x17)] : List (Instr × Nat)),
      (aluLegal w = false → exec p.1 s = .next (withEng s (raised s h (wordOf 0 p.2 w) .illegalOp 0))) ∧
      (aluLegal w = true → ∃ t, exec p.1 s = .next t ∧ (t.eng.tile h.loc).exc = (s.eng.tile h.loc).exc ∧ (thr t h).run = .running)) ∧
    (∀ p ∈ ([(.clz h w, 0x18, w.imm == 0), (.ctz h w, 0x19, w.imm == 0), (.popc h w, 0x1A, w.imm == 0), (.lih h w, 0x1B, true)] : List (Instr × Nat × Bool)),
      (fieldsOk true true false false w p.2.2 = false → exec p.1 s = .next (withEng s (raised s h (wordOf 0 p.2.1 w) .illegalOp 0))) ∧
      (fieldsOk true true false false w p.2.2 = true → ∃ t, exec p.1 s = .next t ∧ (t.eng.tile h.loc).exc = (s.eng.tile h.loc).exc ∧ (thr t h).run = .running)) ∧
    (aluLegal w = true →
      let a := (thr s h).x w.a
      let y := if w.alt then w.imm.signExtend 64 else (thr s h).x w.b
      (y = 0 → (∀ i ∈ ([.div h w, .divu h w] : List Instr), ∃ t, exec i s = .next t ∧ RegResult s t h w.d (BitVec.allOnes 64)) ∧
        ∀ i ∈ ([.rem h w, .remu h w] : List Instr), ∃ t, exec i s = .next t ∧ RegResult s t h w.d a) ∧
      (a = BitVec.intMin 64 → y = BitVec.allOnes 64 → (∃ t, exec (.div h w) s = .next t ∧ RegResult s t h w.d (BitVec.intMin 64)) ∧
        ∃ t, exec (.rem h w) s = .next t ∧ RegResult s t h w.d 0))

/-- Bins of the monitors (R475): a sample falls in bin 0 below B, and otherwise in the bin k whose bounds B^s * 2^(k - 1) and B^s * 2^k
hold its v^s, 31 for everything above bin 30; only that bin counts it. For step latency, bin 30 ends at 536,870,912 ns. -/
def Obligations.HistogramBins : Prop :=
  (∀ (s : State) (m b r : Nat) (q : Int), monitorScale m = some (b, r) → s.eng.samples m = true →
    let v := sampleValue m q
    ∃ t k, exec (.monitorSample m q) s = .next t ∧ k ≤ 31 ∧ (k = 0 ↔ v < b) ∧ (1 ≤ k → b ^ r * 2 ^ (k - 1) ≤ v ^ r) ∧ (1 ≤ k → k ≤ 30 → v ^ r < b ^ r * 2 ^ k) ∧
      ∀ i, mget (fun _ => 0) i (t.eng.monitor m).bins =
        if i = k then min 0xFFFFFFFF (mget (fun _ => 0) i (s.eng.monitor m).bins + 1) else mget (fun _ => 0) i (s.eng.monitor m).bins) ∧
  (∀ m < 32, monitorScale m = some (16384, 2)) ∧ binOf 16384 2 536870911 = 30 ∧ binOf 16384 2 536870912 = 31

/-- NaNs and zeros (R135): VMIN and VMAX take -0 as less than +0, answer the other operand where one is a NaN and the canonical NaN of the
lane format where both are; VCMP is false for a NaN operand but for NE and UNORDERED, and UNORDERED is false without one. -/
def Obligations.NanRules : Prop :=
  ∀ (s : State) (h : Hart) (w : Opnd) (k : Nat), issuesVec s h w = true → k < laneN (isBf w) →
    let x := seen s h 0
    let m := if isBf w then 7 else 23
    let nan := fun r : Nat => decide (r / 2 ^ m % 256 = 255) && decide (r % 2 ^ m ≠ 0)
    let a := raw x w w.a k
    let b := raw x w w.b k
    let negZero := 2 ^ (laneW (isBf w) - 1)
    (vlegal true false 0 w = true → ∀ p ∈ ([(.vmin h w, negZero), (.vmax h w, 0)] : List (Instr × Nat)),
      ∃ t v, exec p.1 s = .next t ∧ VecResult s t h w.d v ∧
        (nan a = true → nan b = false → lane (laneW (isBf w)) v.toNat k = b) ∧ (nan a = false → nan b = true → lane (laneW (isBf w)) v.toNat k = a) ∧
        (nan a = true → nan b = true → lane (laneW (isBf w)) v.toNat k = if isBf w then 0x7FC0 else 0x7FC00000) ∧
        ((a = negZero ∧ b = 0) ∨ (a = 0 ∧ b = negZero) → lane (laneW (isBf w)) v.toNat k = p.2)) ∧
    (vlegal true false 4 w = true → ∃ t v, exec (.vcmp h w) s = .next t ∧ VecResult s t h w.d v ∧
      (nan a = true ∨ nan b = true → lane (laneW (isBf w)) v.toNat k =
        if mod w 29 26 = 1 ∨ mod w 29 26 = 4 then 2 ^ laneW (isBf w) - 1 else 0) ∧
      (nan a = false → nan b = false → mod w 29 26 = 4 → lane (laneW (isBf w)) v.toNat k = 0))

/-- ADD to REMU (R124, R125): every form with an operand y writes xD from xA and y, where y is xB or the sign-extended IMM, and
goes on at PC + 8; nothing else changes. Division by zero and the overflowing division do not trap.

CLZ, CTZ, POPC and LIH (R124). -/
def Obligations.ScalarResults : Prop :=
  (
  ∀ (s : State) (h : Hart) (w : Opnd), issues s h w = true → aluLegal w = true →
    let a := (thr s h).x w.a
    let y := if w.alt then w.imm.signExtend 64 else (thr s h).x w.b
    ∀ p ∈ ([(.add h w, a + y), (.sub h w, a - y), (.and h w, a &&& y), (.or h w, a ||| y), (.xor h w, a ^^^ y),
        (.sll h w, a <<< (y.extractLsb' 0 6).toNat), (.srl h w, a >>> (y.extractLsb' 0 6).toNat),
        (.sra h w, a.sshiftRight (y.extractLsb' 0 6).toNat),
        (.slt h w, if a.toInt < y.toInt then 1 else 0), (.sltu h w, if a.toNat < y.toNat then 1 else 0),
        (.min h w, if a.toInt < y.toInt then a else y), (.max h w, if a.toInt < y.toInt then y else a),
        (.minu h w, if a.toNat < y.toNat then a else y), (.maxu h w, if a.toNat < y.toNat then y else a),
        (.mul h w, a * y), (.mulh h w, (a.signExtend 128 * y.signExtend 128).extractLsb' 64 64),
        (.mulhu h w, (a.zeroExtend 128 * y.zeroExtend 128).extractLsb' 64 64),
        (.div h w, if y = 0 then BitVec.allOnes 64 else a.sdiv y), (.divu h w, if y = 0 then BitVec.allOnes 64 else a / y),
        (.rem h w, if y = 0 then a else a.srem y), (.remu h w, if y = 0 then a else a % y)] : List (Instr × Word)),
      ∃ t, exec p.1 s = .next t ∧ RegResult s t h w.d p.2) ∧
  (
  ∀ (s : State) (h : Hart) (w : Opnd), issues s h w = true →
    let a := (thr s h).x w.a
    (fieldsOk true true false false w (w.imm == 0) = true →
      (∃ t n, exec (.clz h w) s = .next t ∧ RegResult s t h w.d (BitVec.ofNat 64 n) ∧ n ≤ 64 ∧
        (∀ i < n, a.getMsbD i = false) ∧ (n < 64 → a.getMsbD n = true)) ∧
      (∃ t n, exec (.ctz h w) s = .next t ∧ RegResult s t h w.d (BitVec.ofNat 64 n) ∧ n ≤ 64 ∧
        (∀ i < n, a.getLsbD i = false) ∧ (n < 64 → a.getLsbD n = true)) ∧
      (∃ t, exec (.popc h w) s = .next t ∧ RegResult s t h w.d (BitVec.ofNat 64 ((List.range 64).countP (fun i => a.getLsbD i))))) ∧
    (fieldsOk true true false false w true = true →
      ∃ t, exec (.lih h w) s = .next t ∧ RegResult s t h w.d (w.imm ++ a.extractLsb' 0 32)))

/-- Loads (R126): an aligned load inside the claim, of bytes that are neither filling nor uncorrectable, writes xD from the
bytes, lowest address first; a byte that a DRD still has to write is a free value (R146, log entry 3).

Stores (R126): the low bytes of xB, lowest first, at xA + IMM; every byte outside keeps what it held (R118, R119).

AMOADD, AMOSWAP and CAS (R127): xD takes the word at xA; the word becomes the new value. -/
def Obligations.ScratchpadResults : Prop :=
  (
  ∀ (s : State) (h : Hart) (w : Opnd), issues s h w = true → fieldsOk true true false false w true = true →
    let a := ((thr s h).x w.a + w.imm.signExtend 64).toNat
    let c := seen s h 0
    ∀ p ∈ ([(.ldb h w, 1, true), (.ldh h w, 2, true), (.ldw h w, 4, true), (.ldd h w, 8, true), (.ldbu h w, 1, false),
        (.ldhu h w, 2, false), (.ldwu h w, 4, false)] : List (Instr × Nat × Bool)),
      a % p.2.1 = 0 → c.ti.firstOutside c.i a p.2.1 = none → c.ti.fillingIn a p.2.1 = false → c.ti.firstBad a p.2.1 = none →
      let v := BitVec.ofNat (8 * p.2.1) (leNat (c.bytes a p.2.1))
      ∃ t, exec p.1 s = .next t ∧ RegResult s t h w.d (if p.2.2 then v.signExtend 64 else v.zeroExtend 64)) ∧
  (
  ∀ (s : State) (h : Hart) (w : Opnd), issues s h w = true → fieldsOk false true true false w true = true →
    let a := ((thr s h).x w.a + w.imm.signExtend 64).toNat
    let c := seen s h 0
    ∀ p ∈ ([(.stb h w, 1), (.sth h w, 2), (.stw h w, 4), (.std h w, 8)] : List (Instr × Nat)),
      a % p.2 = 0 → c.ti.firstOutside c.i a p.2 = none → c.ti.firstFilling a p.2 = none →
      ∃ t, exec p.1 s = .next t ∧ StoreResult s t h a p.2 (fun k => ((thr s h).x w.b).extractLsb' (8 * k) 8) 0 0) ∧
  (
  ∀ (s : State) (h : Hart) (w : Opnd), issues s h w = true → fieldsOk true true true false w (w.imm == 0) = true →
    let a := ((thr s h).x w.a).toNat
    let c := seen s h 0
    a % 8 = 0 → c.ti.firstOutside c.i a 8 = none → c.ti.firstFilling a 8 = none → c.ti.firstBad a 8 = none →
    let old := BitVec.ofNat 64 (leNat (c.bytes a 8))
    ∀ p ∈ ([(.amoadd h w, old + (thr s h).x w.b), (.amoswap h w, (thr s h).x w.b),
        (.cas h w, if old = (thr s h).x w.d then (thr s h).x w.b else old)] : List (Instr × Word)),
      ∃ t, exec p.1 s = .next t ∧ StoreResult s t h a 8 (fun k => p.2.extractLsb' (8 * k) 8) w.d old)

/-- VLDR, VLDC and VLDS (Table 4.5, R159): lane pair k of vD takes word k of the row, of the column, or of the stride.

VSTR, VSTC and VSTS (Table 4.5, R159): word k of vC at its address, where no later word has the same address; every byte
outside the words, every register and all else of the tile keep what they held; a word stored is no longer uncorrectable (R167).

VUNPK (R128): a block whose residue agrees unpacks to the half of vD that MOD names; the other half keeps its lanes. A byte
that a DRD still has to write is a free value (R146). -/
def Obligations.VectorScratchpadResults : Prop :=
  (
  ∀ (s : State) (h : Hart) (w : Opnd), issuesVec s h w = true →
    let c := seen s h 0
    let a := ((thr s h).x w.a).toNat
    let b := ((thr s h).x w.b).toNat
    let j := (w.imm.extractLsb' 0 5).toNat
    ∀ p ∈ ([(.vldr h w, fun k => a + 256 * j + 8 * k, fieldsOk true true false false w (w.imm.toNat < 32) && a % 8192 == 0),
        (.vldc h w, fun k => a + 256 * k + 8 * j, fieldsOk true true false false w (w.imm.toNat < 32) && a % 8192 == 0),
        (.vlds h w, fun k => (a + k * b) % 2 ^ 64, fieldsOk true true true false w (w.imm == 0) && a % 8 == 0 && b % 8 == 0)] :
        List (Instr × (Nat → Nat) × Bool)),
      p.2.2 = true → (∀ k < 32, c.ti.firstOutside c.i (p.2.1 k) 8 = none ∧ c.ti.fillingIn (p.2.1 k) 8 = false ∧ c.ti.firstBad (p.2.1 k) 8 = none) →
      ∃ t v, exec p.1 s = .next t ∧ VecResult s t h w.d v ∧
        ∀ k < 32, v.extractLsb' (64 * k) 64 = BitVec.ofNat 64 (leNat (c.bytes (p.2.1 k) 8))) ∧
  (
  ∀ (s : State) (h : Hart) (w : Opnd), issuesVec s h w = true →
    let c := seen s h 0
    let a := ((thr s h).x w.a).toNat
    let b := ((thr s h).x w.b).toNat
    let j := (w.imm.extractLsb' 0 5).toNat
    ∀ p ∈ ([(.vstr h w, fun k => a + 256 * j + 8 * k, fieldsOk false true false true w (w.imm.toNat < 32) && a % 8192 == 0),
        (.vstc h w, fun k => a + 256 * k + 8 * j, fieldsOk false true false true w (w.imm.toNat < 32) && a % 8192 == 0),
        (.vsts h w, fun k => (a + k * b) % 2 ^ 64, fieldsOk false true true true w (w.imm == 0) && a % 8 == 0 && b % 8 == 0)] :
        List (Instr × (Nat → Nat) × Bool)),
      p.2.2 = true → (∀ k < 32, c.ti.firstOutside c.i (p.2.1 k) 8 = none ∧ c.ti.fillingIn (p.2.1 k) 8 = false) →
      ∃ t, exec p.1 s = .next t ∧ Issued s t h (fun a b => { a with sp := b.sp, badWords := b.badWords }) ∧
        (∀ k < 32, (∀ m < 32, k < m → p.2.1 m ≠ p.2.1 k) → ∀ n < 8,
          readByte (t.eng.tile h.loc).sp (p.2.1 k + n) = BitVec.ofNat 8 (c.v w.c / 2 ^ (64 * k + 8 * n))) ∧
        (∀ x, (∀ k < 32, x < p.2.1 k ∨ p.2.1 k + 8 ≤ x) → readByte (t.eng.tile h.loc).sp x = readByte (s.eng.tile h.loc).sp x) ∧
        ∀ x, x ∈ (t.eng.tile h.loc).badWords ↔ x ∈ (s.eng.tile h.loc).badWords ∧ ∀ k < 32, p.2.1 k ≠ 8 * x) ∧
  (
  ∀ (s : State) (h : Hart) (w : Opnd), issuesVec s h w = true →
    fieldsOk true true true false w (decide (w.imm.toNat < 32) && decide (mod w 3 0 ≤ 9)) = true →
    let c := seen s h (wordOf 1 0x30 w)
    let f := (fmtOf (mod w 3 0)).getD (.int 1)
    let a := ((thr s h).x w.a).toNat
    let b := ((thr s h).x w.b).toNat
    a % 8 = 0 → b % 4 = 0 → c.ti.firstOutside c.i a f.bytes = none → c.ti.firstOutside c.i b 4 = none →
    c.ti.fillingIn a f.bytes = false → c.ti.firstBad a f.bytes = none → c.ti.fillingIn b 4 = false → c.ti.firstBad b 4 = none →
    let blk := rawBlock f (c.take a f.bytes).1 ((c.take a f.bytes).2.take b 4).1
    blk.good f = true →
    ∃ t v, exec (.vunpk h w) s = .next t ∧ VecResult s t h w.d v ∧
      ∀ k < 64, v.extractLsb' (32 * k) 32 =
        BitVec.ofNat 32 (if k / 32 = mod w 4 4 then ((blk.ints f).map (unpackElem blk.code)).getD (k % 32) 0 else lane 32 (c.v w.d) k))

/-- Branches and jumps (R129): a branch that is not taken goes on at PC + 8 whatever its target; a taken one, JAL and JALR go on at
an 8-aligned target inside a code region of the claim; JAL and JALR link PC + 8.

FENCE, FENCE.I, WAITC, RDPACE and RDCNT (R87, R130, R132, R499): the condition holds and the thread goes on with the result,
or it waits. -/
def Obligations.ControlResults : Prop :=
  (
  ∀ (s : State) (h : Hart) (w : Opnd), issues s h w = true →
    let c := seen s h 0
    let a := (thr s h).x w.a
    let b := (thr s h).x w.b
    let rel := (BitVec.ofNat 64 (thr s h).pc.toNat + w.imm.signExtend 64 * 8).toNat
    (fieldsOk false true true false w true = true →
      ∀ p ∈ ([(.beq h w, decide (a = b)), (.bne h w, decide (a ≠ b)), (.blt h w, decide (a.toInt < b.toInt)),
          (.bge h w, decide (b.toInt ≤ a.toInt)), (.bltu h w, decide (a.toNat < b.toNat)), (.bgeu h w, decide (b.toNat ≤ a.toNat))] :
          List (Instr × Bool)),
        (p.2 = false → ∃ t, exec p.1 s = .next t ∧ RegResult s t h 0 0) ∧
        (p.2 = true → rel % 8 = 0 → c.ti.claimed c.i (some 1) rel = true →
          ∃ t, exec p.1 s = .next t ∧ OnlyThread s t h ∧ WentTo s t h (BitVec.ofNat 21 rel) ∧ WroteX s t h 0 0)) ∧
    (fieldsOk true false false false w true = true → rel % 8 = 0 → c.ti.claimed c.i (some 1) rel = true →
      ∃ t, exec (.jal h w) s = .next t ∧ OnlyThread s t h ∧ WentTo s t h (BitVec.ofNat 21 rel) ∧
        WroteX s t h w.d (((thr s h).pc + 8).zeroExtend 64)) ∧
    (fieldsOk true true false false w true = true →
      let tgt := (a + w.imm.signExtend 64).toNat
      tgt % 8 = 0 → c.ti.claimed c.i (some 1) tgt = true →
      ∃ t, exec (.jalr h w) s = .next t ∧ OnlyThread s t h ∧ WentTo s t h (BitVec.ofNat 21 tgt) ∧
        WroteX s t h w.d (((thr s h).pc + 8).zeroExtend 64))) ∧
  (
  ∀ (s : State) (h : Hart) (w : Opnd), issues s h w = true →
    let c := seen s h 0
    (fieldsOk false false false false w (decide (w.imm.toNat < 256)) = true →
      (c.ti.fenceOpen h.thread w.imm.toNat = false → ∃ t, exec (.fence h w) s = .next t ∧ RegResult s t h 0 0) ∧
      (c.ti.fenceOpen h.thread w.imm.toNat = true →
        exec (.fence h w) s = .next (withEng s (stalled s h (seen s h (wordOf 2 0x10 w)).e)))) ∧
    (fieldsOk false false false false w (w.imm == 0) = true →
      ∃ t, exec (.fenceI h w) s = .next t ∧ OnlyTile s t h.loc ∧ (t.eng.tile h.loc).ibuf = [] ∧
        { t.eng.tile h.loc with threads := (s.eng.tile h.loc).threads, ibuf := (s.eng.tile h.loc).ibuf } = s.eng.tile h.loc ∧
        WentTo s t h ((thr s h).pc + 8) ∧ WroteX s t h 0 0 ∧
        ∀ k : Nat, k ≠ h.thread → (t.eng.tile h.loc).thread k = (s.eng.tile h.loc).thread k) ∧
    (fieldsOk false true false false w (decide (w.imm.toNat ≤ 5)) = true →
      let n := mget (fun _ => 0) w.imm.toNat c.i.cnt
      let ahead := (BitVec.ofNat 32 n - ((thr s h).x w.a).extractLsb' 0 32).toInt
      (0 ≤ ahead → ∃ t, exec (.waitc h w) s = .next t ∧ RegResult s t h 0 0) ∧
      (ahead < 0 → exec (.waitc h w) s = .next (withEng s (stalled s h (seen s h (wordOf 2 0x13 w)).e)))) ∧
    (fieldsOk true false false false w (w.imm == 0) = true →
      ∃ t, exec (.rdpace h w) s = .next t ∧ OnlyThread s t h ∧ WroteX s t h w.d (BitVec.ofNat 64 (max s.now (thr s h).lastPace)) ∧
        { thr t h with regs := (thr s h).regs } =
          { thr s h with pc := (thr s h).pc + 8, run := .running, since := 0, lastPace := max s.now (thr s h).lastPace }) ∧
    (fieldsOk true false false false w (w.imm.toNat < 6 || (decide (8 ≤ w.imm.toNat) && decide (w.imm.toNat ≤ 13))) = true →
      ∃ t, exec (.rdcnt h w) s = .next t ∧ RegResult s t h w.d
        (BitVec.ofNat 64 (mget (fun _ => 0) w.imm.toNat (if w.imm.toNat < 8 then c.i.cnt else (s.eng.tile h.loc).stepCnt)))))

/-- TBAR and END (R131, R133): the last thread to arrive goes on and releases every thread that waits at the barrier; an earlier one waits;
a thread that ends counts as arrived, and releases every barrier at which all the other threads that have not ended wait. Nothing else of
the tile changes. -/
def Obligations.BarrierResults : Prop :=
  ∀ (s : State) (h : Hart) (w : Opnd), issues s h w = true →
    let c := seen s h 0
    let released (th : Thread) : Thread := { th with pc := th.pc + 8, run := .running, since := 0, barrier := none }
    let threadsOnly (t : State) : Prop := OnlyTile s t h.loc ∧
      { t.eng.tile h.loc with threads := (s.eng.tile h.loc).threads, ibuf := (s.eng.tile h.loc).ibuf } = s.eng.tile h.loc ∧
      ∀ a : Nat, a ≠ (thr s h).pc.toNat → mget (fun _ => (0 : Word)) a (t.eng.tile h.loc).ibuf = mget (fun _ => (0 : Word)) a (s.eng.tile h.loc).ibuf
    let allAt (k : Nat) : Prop := ∀ j ∈ c.i.threads, j = h.thread ∨ (c.ti.thread j).ended = true ∨ (c.ti.thread j).barrier = some k
    (fieldsOk false false false false w (decide (w.imm.toNat < 16)) = true →
      let k := w.imm.toNat
      (allAt k → ∃ t, exec (.tbar h w) s = .next t ∧ threadsOnly t ∧ thr t h = released (thr s h) ∧
        ∀ j, j ≠ h.thread → (t.eng.tile h.loc).thread j =
          if j ∈ c.i.threads ∧ (c.ti.thread j).ended = false ∧ (c.ti.thread j).barrier = some k then released (c.ti.thread j) else c.ti.thread j) ∧
      (¬ allAt k → ∃ t, exec (.tbar h w) s = .next t ∧ OnlyThread s t h ∧
        thr t h = { thr s h with barrier := some k, run := .waiting, since := if (thr s h).run = .waiting then (thr s h).since else s.now })) ∧
    (fieldsOk false false false false w (w.imm == 0) = true →
      ∃ t, exec (.endThread h w) s = .next t ∧ threadsOnly t ∧ thr t h = { thr s h with ended := true, run := .running, since := 0 } ∧
        ∀ j, j ≠ h.thread →
          (∀ k < 16, j ∈ c.i.threads → (c.ti.thread j).ended = false → (c.ti.thread j).barrier = some k → allAt k →
            (t.eng.tile h.loc).thread j = released (c.ti.thread j)) ∧
          ((∀ k < 16, j ∈ c.i.threads → (c.ti.thread j).ended = false → (c.ti.thread j).barrier = some k → ¬ allAt k) →
            (t.eng.tile h.loc).thread j = c.ti.thread j))

/-- Lane-wise vector instructions (R134 to R137): every lane of vD is the operation's result on the lanes of the sources, in the
lane format that FMT names.

VCVT and VEXT (R134, R136): a whole register converted; one lane, zero-extended, in xD. -/
def Obligations.LaneResults : Prop :=
  (
  ∀ (s : State) (h : Hart) (w : Opnd), issuesVec s h w = true →
    let x := seen s h 0
    let bf := isBf w
    let q := prec bf
    ∀ p ∈ ([(.vadd h w, vlegal true false 0 w, fun k => fpAdd q (la x w k) (lb x w k)),
        (.vsub h w, vlegal true false 0 w, fun k => fpSub q (la x w k) (lb x w k)),
        (.vmul h w, vlegal true false 0 w, fun k => fpMul q (la x w k) (lb x w k)),
        (.vfma h w, vlegal true true 0 w, fun k => fpFma q (la x w k) (lb x w k) (lc x w k)),
        (.vdiv h w, vlegal true false 0 w, fun k => fpDiv q (la x w k) (lb x w k)),
        (.vsqrt h w, vlegal false false 0 w, fun k => fpSqrt q (la x w k)),
        (.vmin h w, vlegal true false 0 w, fun k => fpPick q true (la x w k) (lb x w k) (raw x w w.a k) (raw x w w.b k)),
        (.vmax h w, vlegal true false 0 w, fun k => fpPick q false (la x w k) (lb x w k) (raw x w w.a k) (raw x w w.b k)),
        (.vneg h w, vlegal false false 0 w, fun k => raw x w w.a k ^^^ 2 ^ (laneW bf - 1)),
        (.vabs h w, vlegal false false 0 w, fun k => raw x w w.a k % 2 ^ (laneW bf - 1)),
        (.vexp h w, vlegal false false 0 w, fun k => fpExpOf q (la x w k)),
        (.vcmp h w, vlegal true false 4 w, fun k => if fpPred (mod w 29 26) (la x w k) (lb x w k) then 2 ^ laneW bf - 1 else 0),
        (.vsel h w, vlegal true true 0 w, fun k => if raw x w w.c k ≠ 0 then raw x w w.a k else raw x w w.b k),
        (.vlog h w, vlegal true false 2 w, fun k => logOp (mod w 29 26) (raw x w w.a k) (raw x w w.b k)),
        (.vbcast h w, vlegal false false 0 w, fun _ => ((thr s h).x w.a).toNat),
        (.vmov h w, vlegal false false 0 w, fun k => raw x w w.a k),
        (.vperm h w, vlegal true false 0 w, fun k => raw x w w.a (raw x w w.b k % laneN bf))] : List (Instr × Bool × (Nat → Nat))),
      p.2.1 = true → ∃ t v, exec p.1 s = .next t ∧ VecResult s t h w.d v ∧
        ∀ k < laneN bf, lane (laneW bf) v.toNat k = p.2.2 k % 2 ^ laneW bf) ∧
  (
  ∀ (s : State) (h : Hart) (w : Opnd), issuesVec s h w = true →
    let x := seen s h 0
    ((vlegal (mod w 29 26 == 0) false 4 w && !isBf w) = true →
      ∃ t, exec (.vcvt h w) s = .next t ∧ VecResult s t h w.d (BitVec.ofNat 2048 (vcvt (mod w 29 26) (x.v w.a) (x.v w.b)))) ∧
    (fieldsOk true true false false w (decide (mod w 31 30 ≤ 1) && mod w 29 7 == 0 && decide (mod w 6 0 < laneN (isBf w))) = true →
      ∃ t, exec (.vext h w) s = .next t ∧ RegResult s t h w.d (BitVec.ofNat 64 (raw x w w.a (mod w 6 0)))))

/-- LPLACE, LCLR, LEXPECT and LEXP (R56, R96, R98, R138 to R140): what each writes; no other long register, count, vector lane or part of
the tile changes. LCLR, LEXP and LEXPECT wait while the bank still owes adds or arrivals; LEXPECT sets the pending-arrival count of a
granted bank that owes nothing (R98, R139). -/
def Obligations.LongRegisterResults : Prop :=
  (∀ (s : State) (h : Hart) (w : Opnd), issues s h w = true →
    let c := seen s h 0
    let b := lBank w
    c.i.banks.testBit b = true → lRange w = true →
    let old := (s.eng.tile h.loc).lreg b
    let others (t : State) : Prop := ∀ x : Nat, (x < 128 * b + lStart w ∨ 128 * b + lStart w + lCnt w < x) →
      mget (fun _ => ({} : LReg)) x (t.eng.tile h.loc).lregs = mget (fun _ => ({} : LReg)) x (s.eng.tile h.loc).lregs
    (fieldsOk false true false false w (decide (lCnt w ≤ 63) && (modBit w 15 || !modBit w 14) && mod w 12 0 == 0) = true →
      (thr s h).vctx.isSome = true →
      ∃ t, exec (.lplace h w) s = .next t ∧ Issued s t h (fun x y => { x with lregs := y.lregs }) ∧ others t ∧
        ∀ j ≤ lCnt w, (t.eng.tile h.loc).lreg b (lStart w + j) =
          ((if modBit w 13 then ({} : LReg) else old (lStart w + j)).add (placeAdd (lStart w + j)
            (if modBit w 15 then bfTo32 (lane 16 (c.v w.a) (64 * mod w 14 14 + j)) else lane 32 (c.v w.a) j))).1) ∧
    (fieldsOk false false false false w (mod w 15 0 == 0) = true →
      (c.ti.bankBusy b = false → ∃ t, exec (.lclr h w) s = .next t ∧ Issued s t h (fun x y => { x with lregs := y.lregs }) ∧ others t ∧
        ∀ j ≤ lCnt w, (t.eng.tile h.loc).lreg b (lStart w + j) = {}) ∧
      (c.ti.bankBusy b = true → exec (.lclr h w) s = .next (withEng s (stalled s h (seen s h (wordOf 5 0x08 w)).e)))) ∧
    (fieldsOk true false false false w (decide (lCnt w ≤ 63) && mod w 14 0 == 0) = true → (thr s h).vctx.isSome = true →
      (c.ti.bankBusy b = false → lMismatch c w = none →
        ∃ t v, exec (.lexp h w) s = .next t ∧ VecResult s t h w.d v ∧
          ∀ k < laneN (modBit w 15), lane (laneW (modBit w 15)) v.toNat k =
            if k ≤ lCnt w then lexpOne (prec (modBit w 15)) (old (lStart w + k)) % 2 ^ laneW (modBit w 15)
            else lane (laneW (modBit w 15)) (c.v w.d) k) ∧
      (c.ti.bankBusy b = true → exec (.lexp h w) s = .next (withEng s (stalled s h (seen s h (wordOf 5 0x05 w)).e))))) ∧
  ∀ (s : State) (h : Hart) (w : Opnd), issues s h w = true → fieldsOk false false false false w (mod w 29 16 == 0) = true →
    let c := seen s h 0
    c.i.banks.testBit (lBank w) = true →
    (c.ti.bankBusy (lBank w) = false →
      ∃ t, exec (.lexpect h w) s = .next t ∧ Issued s t h (fun x y => { x with pend := y.pend }) ∧
        ∀ b, (t.eng.tile h.loc).pending b = if b = lBank w then mod w 15 0 else (s.eng.tile h.loc).pending b) ∧
    (c.ti.bankBusy (lBank w) = true →
      exec (.lexpect h w) s = .next (withEng s (stalled s h (seen s h (wordOf 5 0x09 w)).e)))

/-- LEMIT.S and LDIV.S (R61, R75, R140): lane j of vD takes the rounded value of register START + j; the outcomes are counted; the
long registers are left as they are.

LEMIT.B and LDIV.B (R62, R75, R140): a block in operand form, its elements at xA and its tag word at xB; poisoned or undividable
registers give the poison block. -/
def Obligations.EmitResults : Prop :=
  (
  ∀ (s : State) (h : Hart) (w : Opnd), issuesVec s h w = true → ∀ (op : Nat) (i : Instr) (f : LReg → Rounded) (ok busy : Bool),
    let c := seen s h (wordOf 5 op w)
    ((i = .lemitS h w ∧ op = 0x01 ∧ f = emitOne w ∧ ok = ((mod w 13 0 == 0) && (lMismatch c w).isNone) ∧ busy = false) ∨
     (i = .ldivS h w ∧ op = 0x03 ∧ f = ldivOne w (divisor c w) ∧ busy = divisorBusy c w ∧
       ok = (ldivMod w && (ldivMismatch c w).isNone && (!modBit w 13 || c.i.banks.testBit (mod w 12 11))))) →
    ok = true → fieldsOk true false false true w (lRange w && decide (lCnt w ≤ 63)) = true → c.i.banks.testBit (lBank w) = true →
    c.ti.bankBusy (lBank w) = false → busy = false →
    ∃ v tally, exec i s = .next (withEng s (advance h (c.counted w tally (c.writeV w.d v c.e)))) ∧
      tally = ((lRegs c w).map f).foldl (fun a r => a.plus (tallyScalar (if modBit w 15 then bfTo32 r.bits else r.bits) r)) {} ∧
      ∀ k < laneN (modBit w 15), lane (laneW (modBit w 15)) v k =
        if k ≤ lCnt w then (f (c.ti.lreg (lBank w) (lStart w + k))).bits % 2 ^ laneW (modBit w 15)
        else lane (laneW (modBit w 15)) (c.v w.d) k) ∧
  (
  ∀ (s : State) (h : Hart) (w : Opnd), issues s h w = true → ∀ (op : Nat) (i : Instr) (b : Block) (ok busy : Bool),
    let c := seen s h (wordOf 5 op w)
    let a := ((thr s h).x w.a).toNat
    let g := ((thr s h).x w.b).toNat
    let n := if modBit w 15 then 16 else 32
    ((i = .lemitB h w ∧ op = 0x02 ∧ ok = ((mod w 13 0 == 0) && (lMismatch c w).isNone) ∧ busy = false ∧
       b = if (lRegs c w).any (·.poison) then poisonBlock else emitBlock (emitQ w) ((lRegs c w).map (·.n)) 1) ∨
     (i = .ldivB h w ∧ op = 0x04 ∧ busy = divisorBusy c w ∧ b = ldivBlock (emitQ w) (divisor c w) (lRegs c w) ∧
       ok = (ldivMod w && (ldivMismatch c w).isNone && (!modBit w 13 || c.i.banks.testBit (mod w 12 11))))) →
    ok = true → fieldsOk false true true true w (lRange w && lCnt w == 31) = true → c.i.banks.testBit (lBank w) = true →
    c.ti.bankBusy (lBank w) = false → busy = false → a % 8 = 0 → g % 4 = 0 →
    c.ti.firstOutside c.i a n = none → c.ti.firstOutside c.i g 4 = none → c.ti.firstFilling a n = none → c.ti.firstFilling g 4 = none →
    exec i s = .next (withEng s (advance h (c.counted w (tallyBlock b) (c.modTile (fun ti =>
      (ti.store a (natBytes (blockField (if modBit w 15 then 4 else 8) b.elems) n)).store g (natBytes (tagOf b) 4)))))))

/-- FOLDS (R141, R217 to R220): with a valid descriptor of the instance and owners inside the grid, the registers whose residues
agree are sent and cleared; a register whose residue disagrees ends the instruction with RESIDUE after what it sent (R120). -/
def Obligations.FoldSendResults : Prop :=
  ∀ (s : State) (h : Hart) (w : Opnd), issues s h w = true → fieldsOk false false false false w (lRange w && mod w 15 8 == 0) = true →
    let c := seen s h (wordOf 5 0x0A w)
    let n := mod w 7 0
    let r := c.ti.red n
    c.i.banks.testBit (lBank w) = true → c.i.redFirst ≤ n → n < c.i.redFirst + c.i.redCnt → c.ti.firstBad (redAddr n) 128 = none →
    r.valid = true → (∀ i ∈ lIdx w, ∃ v, r.owner ((i - lStart w) / r.per) = some v ∧ c.e.inGrid c.i.part v = true) →
    c.ti.bankBusy (lBank w) = false →
    let f := foldRun c w r
    let e := f.sent.reverse.foldl (fun e x => e.inject h.loc c.i.part ((r.owner x.1).getD 0) (.fold x.2))
      (c.modTile (fun ti => f.cleared.foldl (fun ti i => ti.setLreg (lBank w) i {}) ti))
    (f.bad = none → exec (.folds h w) s = .next (withEng s (advance h e))) ∧
    (∀ i, f.bad = some i → exec (.folds h w) s =
      .next (withEng s (e.raise s.now h.loc h.thread (thr s h).pc.toNat (some (thr s h).task) .residue (lBank w + 4 * i))))

/-- MMA (R91 to R94, R142): the operands are read when the queue accepts the instruction, their residues agree, and the products join the
queue, from which the unit takes them in order while it is free; a full queue makes the thread wait (R92). MMA_COMPLETE adds the products of
the oldest MMA in the unit into its bank, and the unit takes the next. -/
def Obligations.MatrixResults : Prop :=
  (∀ (s : State) (h : Hart) (w : Opnd), issues s h w = true →
    fieldsOk false true true false w (mod w 21 0 == 0 && mod w 23 22 != 3) = true →
    let c := seen s h (wordOf 6 0 w)
    let wa := ((thr s h).x w.a).toNat
    let aa := ((thr s h).x w.b).toNat
    let wn := arrayBytes (mmaW w) (mmaG w)
    let an := arrayBytes (mmaA w) (mmaP w)
    c.i.banks.testBit (mod w 31 30) = true → wa % 8 = 0 → aa % 8 = 0 → c.ti.firstOutside c.i wa wn = none → c.ti.firstOutside c.i aa an = none →
    (4 ≤ c.ti.matQ.length → exec (.mma h w) s = .next (withEng s (stalled s h c.e))) ∧
    (c.ti.matQ.length < 4 → c.ti.fillingIn wa wn = false → c.ti.firstBad wa wn = none → c.ti.fillingIn aa an = false →
      c.ti.firstBad aa an = none →
      let c1 := (c.take wa wn).2
      let c2 := (c1.take aa an).2
      let ws := arrayBlocks (mmaW w) (mmaG w) (c.take wa wn).1
      let acts := arrayBlocks (mmaA w) (mmaP w) (c1.take aa an).1
      let job : MmaJob := { thread := h.thread, slot := (thr s h).task, bank := mod w 31 30, adds := mmaAdds w ws acts, occ := mmaOcc w }
      ((∀ x ∈ ws, x.good (mmaW w) = true) → (∀ x ∈ acts, x.good (mmaA w) = true) →
        exec (.mma h w) s = .next (withEng s (advance h (c2.modTile (fun ti =>
          ({ ti with matQ := ti.matQ ++ [job] } : Tile).feedUnit.count 8 (mmaFlushed w acts)))))) ∧
      (∀ d, (firstBadBlock (mmaW w) wa ws).orElse (fun _ => firstBadBlock (mmaA w) aa acts) = some d →
        exec (.mma h w) s = .next (withEng s (raised s h (wordOf 6 0 w) .residue d))))) ∧
  (∀ (s : State) (u : Loc) (j : MmaJob) (r : List MmaJob), locOk u = true → (s.eng.tile u).matU = j :: r →
    exec (.mmaComplete u) s = .next (withEng s (s.eng.modTile u (fun ti => ({ ti with matU := r } : Tile).feedUnit.addAll j.bank j.adds)))) ∧
  (∀ (s : State) (u : Loc), locOk u = true → (s.eng.tile u).matU = [] → exec (.mmaComplete u) s = .next (withEng s (s.eng.modTile u id))) ∧
  ∀ ti : Tile, ∃ n ≤ ti.matQ.length, ti.feedUnit = { ti with matU := ti.matU ++ ti.matQ.take n, matQ := ti.matQ.drop n } ∧
    (n < ti.matQ.length → unitFree (ti.matU ++ ti.matQ.take n) = false) ∧ ∀ k < n, unitFree (ti.matU ++ ti.matQ.take k) = true

/-- APASS and ATTN_PASS_END (R102, R109, R119, R120, R143): at issue an aligned, claimed descriptor puts the pass into the lane's queue with
its operands as they are then, and the thread goes on; a full queue, or a filling granule among its operands, makes the thread wait. With no
pass before it, it starts at once: where its checks hold it clears the registers of an ATTEND pass and computes what it will write; where one
fails, it leaves the queue and raises that exception at its instruction's address. The end of the pass that runs writes its results and sums,
counts them, raises CNT_ATT and starts the next. -/
def Obligations.AttentionResults : Prop :=
  (∀ (s : State) (h : Hart) (w : Opnd), issues s h w = true → fieldsOk false true false false w (apassModOk w) = true →
    let c := seen s h (wordOf 7 0 w)
    let a := ((thr s h).x w.a).toNat
    let d := leNat (c.bytes a 64)
    a % 64 = 0 → c.ti.firstOutside c.i a 64 = none →
    let j : AttnJob :=
      { thread := h.thread, slot := (thr s h).task, pc := (thr s h).pc.toNat, w := w, addr := a, sp := (s.eng.tile h.loc).sp
        badWords := (s.eng.tile h.loc).badWords, kvSlots := c.passSlots d, attend := apKind d == 0
        banks := if apKind d = 0 then (if apPair w then [mod w 31 30, mod w 31 30 + 1] else [mod w 31 30]) else [] }
    let e := (advance h c.e).modTile h.loc (fun ti => { ti with attQ := ti.attQ ++ [j] })
    ((2 ≤ c.ti.attQ.length ∨ c.ti.fillingIn a 64 = true ∨ (descOk w d = true ∧ c.passWaits w d = true)) →
      exec (.apass h w) s = .next (withEng s (stalled s h c.e))) ∧
    (c.ti.fillingIn a 64 = false → (descOk w d = true → c.passWaits w d = false) →
      (∀ x, c.ti.attQ = [x] → x.run.isSome = true → exec (.apass h w) s = .next (withEng s e)) ∧
      (c.ti.attQ = [] →
        (∀ r, (jobCtx e h.loc j c.i s.now).startChecks w a = .ok r → exec (.apass h w) s = .next (withEng s
          (({ e with freeCtr := e.freeCtr + 2 ^ 21 } : Engine).modTile h.loc (fun ti =>
            let ti := j.kvSlots.foldl (fun ti k => ti.touch s.now k) ti
            let ti := if j.attend then { r.clears.foldl (fun ti k => ti.setLreg (numReg j.banks k).1 (numReg j.banks k).2 {}) ti with ad := {} } else ti
            { ti with attQ := [{ j with run := some r }] })))) ∧
        (∀ x, (jobCtx e h.loc j c.i s.now).startChecks w a = .error x → exec (.apass h w) s = .next (withEng s
          ((e.modTile h.loc (fun ti => { ti with attQ := [] })).raise s.now h.loc h.thread (thr s h).pc.toNat (some (thr s h).task) x.1 x.2)))))) ∧
  ∀ (s : State) (u : Loc), locOk u = true →
    (((s.eng.tile u).attQ.head?.bind (·.run)).isSome = false → exec (.attnPassEnd u) s = .next s) ∧
    ∀ (j : AttnJob) (r : AttnRun) (rest : List AttnJob), (s.eng.tile u).attQ = j :: rest → j.run = some r →
      let ti := s.eng.tile u
      let done := passEnd ti
      exec (.attnPassEnd u) s = .next (withEng s ((s.eng.modTile u (fun _ => done)).laneStart s.now u 2)) ∧
      (rest = [] → exec (.attnPassEnd u) s = .next (withEng s (s.eng.modTile u (fun _ => done)))) ∧
      done.attQ = rest ∧ done.inst = (ti.modInst j.slot (·.bump 3)).inst ∧ done.sp = (r.writes.foldl (fun ti x => ti.store x.1 x.2) ti).sp ∧
      done.ad = (if j.attend then r.ad else ti.ad) ∧
      done.lregs = (r.adds.foldl (fun ti a => ti.setLreg (numReg j.banks a.reg).1 (numReg j.banks a.reg).2
        ((ti.lreg (numReg j.banks a.reg).1 (numReg j.banks a.reg).2).add a).1) ti).lregs ∧
      done.stepCnt = (((ti.count 8 r.flushedIn).count 9 r.flushedTerms).count 10 r.violations).stepCnt ∧
      { done with attQ := ti.attQ, inst := ti.inst, sp := ti.sp, badWords := ti.badWords, ad := ti.ad, lregs := ti.lregs, stepCnt := ti.stepCnt } = ti

/-- MFILL, MCOPY and MTRN (R109, R144, R160): the queue accepts the operation, whose bytes are then in place; every byte outside the
destination and all else of the tile keep what they held; a full queue makes the thread wait (R108). MOVER_COMPLETE takes the oldest operation
from the queue and raises CNT_MOVE of its instance. -/
def Obligations.MoverResults : Prop :=
  (∀ (s : State) (h : Hart) (w : Opnd), issues s h w = true →
    let c := seen s h 0
    let a := ((thr s h).x w.a).toNat
    let b := ((thr s h).x w.b).toNat
    let n := ((thr s h).x w.c).toNat
    let placed (i : Instr) (op len : Nat) (bs : Nat → Byte) : Prop :=
      (c.ti.movQ.length < 8 → ∃ t, exec i s = .next t ∧
        Issued s t h (fun x y => { x with sp := y.sp, badWords := y.badWords, movQ := y.movQ }) ∧ Stored s t h.loc a len bs ∧
        (t.eng.tile h.loc).movQ = (s.eng.tile h.loc).movQ ++ [{ thread := h.thread, slot := (thr s h).task }]) ∧
      (8 ≤ c.ti.movQ.length → exec i s = .next (withEng s (stalled s h (seen s h (wordOf 8 op w)).e)))
    (fieldsOk false true true true w (w.imm == 0) = true → a % 8 = 0 → b % 8 = 0 → 8 ≤ b → b ≤ 2097152 →
      c.ti.firstOutside c.i a b = none → c.ti.firstFilling a b = none →
      placed (.mfill h w) 0 b (fun k => ((thr s h).x w.c).extractLsb' (8 * (k % 8)) 8)) ∧
    (fieldsOk false true true true w (w.imm == 0) = true → a % 8 = 0 → b % 8 = 0 → n % 8 = 0 → 8 ≤ n → n ≤ 2097152 →
      c.ti.firstOutside c.i a n = none → c.ti.firstOutside c.i b n = none → c.ti.firstFilling a n = none → c.ti.fillingIn b n = false →
      c.ti.firstBad b n = none → c.ti.pendingDrd b n = false →
      placed (.mcopy h w) 1 n (fun k => readByte (s.eng.tile h.loc).sp (b + k))) ∧
    (fieldsOk false true true false w (w.imm == 0) = true → a % 8192 = 0 → b % 8192 = 0 →
      c.ti.firstOutside c.i a 8192 = none → c.ti.firstOutside c.i b 8192 = none → c.ti.firstFilling a 8192 = none →
      c.ti.fillingIn b 8192 = false → c.ti.firstBad b 8192 = none → c.ti.pendingDrd b 8192 = false →
      placed (.mtrn h w) 2 8192 (fun k => readByte (s.eng.tile h.loc).sp (b + 256 * (k / 8 % 32) + 8 * (k / 256) + k % 8)))) ∧
  ∀ (s : State) (u : Loc), locOk u = true →
    (∀ (j : MoverJob) (r : List MoverJob), (s.eng.tile u).movQ = j :: r →
      exec (.moverComplete u) s = .next (withEng s (s.eng.modTile u (fun ti => ({ ti with movQ := r } : Tile).modInst j.slot (·.bump 2))))) ∧
    ((s.eng.tile u).movQ = [] → exec (.moverComplete u) s = .next (withEng s (s.eng.modTile u id)))

/-- NVRD and NV_DESC_COMPLETE (R103 to R106, R120, R145, R197, R198): the descriptor joins the queue and its destination fills; a completion
writes the pages' bytes, ends the filling and raises CNT_NV; a page that no retry corrects raises NV_UNCORR after the pages before it, and a
page that the destination does not hold raises CLAIM_VIOLATION. A full queue makes the thread wait.

DRD, DWR and DRAM_DESC_COMPLETE (R106, R109, R120, R146): a descriptor of one KV slot joins the queue; its completion moves the bytes and
raises CNT_DRAM; an uncorrectable slot raises DRAM_UNCORR. Nothing else of the tile changes. -/
def Obligations.SlabPortResults : Prop :=
  (
  (∀ (s : State) (h : Hart) (w : Opnd), issues s h w = true → fieldsOk false true true true w (mod w 31 8 == 0) = true →
    let c := seen s h (wordOf 9 0 w)
    let a := ((thr s h).x w.a).toNat
    let n := ((thr s h).x w.c).toNat
    a % 16384 = 0 → n % 4096 = 0 → n ≠ 0 → c.ti.firstOutside c.i a n = none → c.inWindow a n = true →
    c.pagesOk ((thr s h).x w.b).toNat (mod w 7 0 + 1) = true →
    (16 ≤ c.ti.nvQ.length → exec (.nvrd h w) s = .next (withEng s (stalled s h c.e))) ∧
    (c.ti.nvQ.length < 16 → ∃ t, exec (.nvrd h w) s = .next t ∧ Issued s t h (fun x y => { x with nvQ := y.nvQ, filling := y.filling }) ∧
      (t.eng.tile h.loc).nvQ = nvHead (s.eng.field h.loc.field) ((s.eng.tile h.loc).nvQ ++ [{
        thread := h.thread, slot := (thr s h).task, pc := (thr s h).pc.toNat, dst := a, len := n, first := ((thr s h).x w.b).toNat, count := mod w 7 0 + 1 }]) ∧
      ∀ g, g ∈ (t.eng.tile h.loc).filling ↔ g ∈ (s.eng.tile h.loc).filling ∨ (a / 4096 ≤ g ∧ g < (a + n) / 4096))) ∧
  (∀ (f : Field) (q : List NvJob), (nvHead f q).length = q.length ∧ (nvHead f q).tail = q.tail ∧
    ∀ j r, q = j :: r → (nvHead f q).head? = some { j with offs := some (j.offs.getD (f.nvOffset 0, f.nvOffset 1)) }) ∧
  ∀ (s : State) (u : Loc) (bad : List (Nat × Int)) (j : NvJob) (r : List NvJob), locOk u = true → (s.eng.tile u).nvQ = j :: r →
    let img := (s.eng.part (match (s.eng.tile u).instOf j.slot with | some i => i.part | none => 0)).image
    let slot := match img with | some i => (s.eng.image i).slot | none => 0
    (∀ k, (s.eng.tile u).viaChain slot k = false) → (s.eng.tile u).recv = [] →
    let p := nvRead (s.eng.tile u).page (j.fails bad) j.count j.first j.len
    let e := s.eng.modTile u (fun ti => ({ ti.store j.dst p.1 with nvQ := nvHead (s.eng.field u.field) r } : Tile).unfill j.dst j.len)
    (p.2 = .complete → exec (.nvDescComplete u bad) s = .next (withEng s (e.modTile u (fun ti => ti.modInst j.slot (·.bump 0)))) ∧
      ∃ t, exec (.nvDescComplete u bad) s = .next t ∧ OnlyTile s t u ∧ Stored s t u j.dst p.1.length (fun k => p.1.getD k 0) ∧
        ∀ g, g ∈ (t.eng.tile u).filling ↔ g ∈ (s.eng.tile u).filling ∧ g ∉ granules j.dst j.len) ∧
    (∀ k, p.2 = .overrun k → exec (.nvDescComplete u bad) s = .next (withEng s (e.raise s.now u j.thread j.pc (some j.slot) .claimViolation k))) ∧
    ∀ k, p.2 = .uncorr k →
      let a := (e.raise s.now u j.thread j.pc (some j.slot) .nvUncorr k).modTile u (fun ti => { ti with nvBad := ti.nvBad ++ [k] })
      exec (.nvDescComplete u bad) s = .next (withEng s ((match img with
        | some i => a.modImage i (fun m => if m.state = ImgState.ready then { m with state := .degraded } else m)
        | none => a).siteEvent s.now u 0x0204 k slot))) ∧
  (
  (∀ (s : State) (h : Hart) (w : Opnd), issues s h w = true → fieldsOk false true true true w (w.imm == 0) = true →
    let c := seen s h 0
    let a := ((thr s h).x w.a).toNat
    let b := ((thr s h).x w.b).toNat
    let n := ((thr s h).x w.c).toNat
    a % 64 = 0 → b % 64 = 0 → n % 64 = 0 → 64 ≤ n → n ≤ 16384 → c.ti.firstOutside c.i a n = none → b % 16384 + n ≤ 16384 →
    c.ti.kvLo ≤ b / 16384 → b / 16384 ≤ c.ti.kvHi → b + n ≤ kvBytes →
    let job (write : Bool) (data : List Byte) : DramJob :=
      { thread := h.thread, slot := (thr s h).task, pc := (thr s h).pc.toNat, write := write, sp := a, slab := b, len := n, data := data }
    (c.ti.dramQ.length < 32 →
      (∃ t, exec (.drd h w) s = .next t ∧ Issued s t h (fun x y => { x with dramQ := y.dramQ }) ∧
        (t.eng.tile h.loc).dramQ = (s.eng.tile h.loc).dramQ ++ [job false []]) ∧
      (c.ti.fillingIn a n = false → c.ti.firstBad a n = none →
        ∃ t, exec (.dwr h w) s = .next t ∧ Issued s t h (fun x y => { x with dramQ := y.dramQ }) ∧
          (t.eng.tile h.loc).dramQ = (s.eng.tile h.loc).dramQ ++ [job true (c.bytes a n)])) ∧
    (32 ≤ c.ti.dramQ.length → exec (.drd h w) s = .next (withEng s (stalled s h (seen s h (wordOf 9 1 w)).e)) ∧
      exec (.dwr h w) s = .next (withEng s (stalled s h (seen s h (wordOf 9 2 w)).e)))) ∧
  ∀ (s : State) (u : Loc) (i : Nat) (j : DramJob), locOk u = true → (s.eng.tile u).dramQ[i]? = some j →
    (dramStarted (s.eng.tile u).dramQ i = false → ∀ bad, exec (.dramDescComplete u i bad) s = .next s) ∧
    (dramStarted (s.eng.tile u).dramQ i = true →
      (j.write = true ∨ (s.eng.tile u).kvBad.contains j.kvSlot = false →
        ∃ t, exec (.dramDescComplete u i false) s = .next t ∧ OnlyTile s t u ∧
          { t.eng.tile u with dramQ := (s.eng.tile u).dramQ, inst := (s.eng.tile u).inst, slotUse := (s.eng.tile u).slotUse,
                              kv := (s.eng.tile u).kv, sp := (s.eng.tile u).sp, badWords := (s.eng.tile u).badWords } = s.eng.tile u ∧
          (t.eng.tile u).dramQ = (s.eng.tile u).dramQ.eraseIdx i ∧ (t.eng.tile u).inst = ((s.eng.tile u).modInst j.slot (·.bump 1)).inst ∧
          (t.eng.tile u).slotUse = ((s.eng.tile u).touch s.now j.kvSlot).slotUse ∧
          (j.write = true → (t.eng.tile u).kv = writeBytes (s.eng.tile u).kv j.slab j.data ∧ (t.eng.tile u).sp = (s.eng.tile u).sp ∧
            (t.eng.tile u).badWords = (s.eng.tile u).badWords) ∧
          (j.write = false → (t.eng.tile u).kv = (s.eng.tile u).kv ∧
            Stored s t u j.sp j.len (fun k => readByte (s.eng.tile u).kv (j.slab + k)))) ∧
      ∀ bad, (bad = true ∨ (j.write = false ∧ (s.eng.tile u).kvBad.contains j.kvSlot = true)) → exec (.dramDescComplete u i bad) s = .next (withEng s
        (((s.eng.modTile u (fun ti => { ti with dramQ := ti.dramQ.eraseIdx i })).raise s.now u j.thread j.pc (some j.slot) .dramUncorr j.kvSlot).modTile u
          (fun ti => ti.kvUncorr j.kvSlot)))))

/-- SEND, SEND_COMPLETE, RECV and MSG_DELIVERY (R147, R148): a message joins the send queue with the bytes it had at issue, and a full
queue makes the thread wait; a message to a virtual tile that no site serves is dropped and counted in FAB_STAT; the last flit puts a
message on the fabric and raises CNT_SEND; a posted buffer takes the next held message of its mailbox and raises CNT_RECV, and one that
has no room for it gives CLAIM_VIOLATION at the RECV that posted it. -/
def Obligations.MessageResults : Prop :=
  (∀ (s : State) (h : Hart) (w : Opnd), issues s h w = true → fieldsOk false true true true w (w.imm == 0) = true →
    let c := seen s h (wordOf 0xA 0 w)
    let a := ((thr s h).x w.a).toNat
    let v := ((thr s h).x w.b).toNat
    let n := ((thr s h).x w.c).toNat
    a % 8 = 0 → n % 8 = 0 → 8 ≤ n → n ≤ 4096 → v < 2 ^ 28 → c.e.inGrid c.i.part v = true → c.ti.firstOutside c.i a n = none →
    (16 ≤ c.ti.sendQ.length → exec (.send h w) s = .next (withEng s (stalled s h c.e))) ∧
    (c.ti.sendQ.length < 16 → c.ti.fillingIn a n = false → c.ti.firstBad a n = none →
      let sent (t : State) (p : Packet) : Prop := Issued s t h (fun x y => { x with sendQ := y.sendQ }) ∧
        (t.eng.tile h.loc).sendQ = (s.eng.tile h.loc).sendQ ++ [{ thread := h.thread, slot := (thr s h).task, pkt := p }]
      (∀ dst, c.e.locOfV c.i.part v = some dst → ∃ t, exec (.send h w) s = .next t ∧ sent t {
        src := h.loc, dst := dst, part := c.i.part, sys := false, epoch := (s.eng.part c.i.part).epoch, body := .msg (fld v 27 24) (c.bytes a n) }) ∧
      (c.e.locOfV c.i.part v = none → ∃ t, sent t {
          src := h.loc, dst := h.loc, part := c.i.part, sys := false, epoch := (s.eng.part c.i.part).epoch, body := .other } ∧
        exec (.send h w) s = .next (withEng t (t.eng.modDeck (deckOf h.loc.field) (fun d =>
          { d with fab := mmod (fun _ => 0) 1 (fun k => satAdd 0xFFFF k 1) d.fab })))))) ∧
  (∀ (s : State) (u : Loc), locOk u = true →
    (∀ (j : SendJob) (r : List SendJob), (s.eng.tile u).sendQ = j :: r →
      let e := s.eng.modTile u (fun ti => ({ ti with sendQ := r } : Tile).modInst j.slot (·.bump 5))
      exec (.sendComplete u) s = .next (withEng s (if j.pkt.body = .other then e else { e with flight := s.eng.flight ++ [j.pkt] }))) ∧
    ((s.eng.tile u).sendQ = [] → exec (.sendComplete u) s = .next s)) ∧
  (∀ (s : State) (h : Hart) (w : Opnd), issues s h w = true → fieldsOk false true true false w (decide (w.imm.toNat < 16)) = true →
    let a := ((thr s h).x w.a).toNat
    let n := ((thr s h).x w.b).toNat
    a % 8 = 0 → n % 8 = 0 → n ≠ 0 → (seen s h 0).ti.firstOutside (seen s h 0).i a n = none →
    ∃ t, exec (.recv h w) s = .next t ∧ Issued s t h (fun x y => { x with mbox := y.mbox }) ∧
      ∀ m, mget (fun _ => {}) m (t.eng.tile h.loc).mbox = if m = w.imm.toNat then {
        addr := a, len := n, off := 0, thread := h.thread, slot := some (thr s h).task, pc := (thr s h).pc.toNat } else mget (fun _ => {}) m (s.eng.tile h.loc).mbox) ∧
  ∀ (s : State) (u : Loc) (m slot : Nat) (bs : List Byte) (rest : List Packet), locOk u = true → m < 16 →
    takeHeld m (s.eng.tile u).held = some (bs, rest) → (mget (fun _ => ({} : Mailbox)) m (s.eng.tile u).mbox).slot = some slot →
    let b := mget (fun _ => ({} : Mailbox)) m (s.eng.tile u).mbox
    (b.off + bs.length ≤ b.len →
      ∃ t, exec (.msgDelivery u m) s = .next t ∧ OnlyTile s t u ∧ (t.eng.tile u).held = rest ∧
        Stored s t u (b.addr + b.off) bs.length (fun k => bs.getD k 0) ∧
        (∀ k, mget (fun _ => ({} : Mailbox)) k (t.eng.tile u).mbox =
          if k = m then { b with off := b.off + bs.length } else mget (fun _ => ({} : Mailbox)) k (s.eng.tile u).mbox) ∧
        (t.eng.tile u).inst = ((s.eng.tile u).modInst slot (·.bump 4)).inst ∧
        { t.eng.tile u with held := (s.eng.tile u).held, sp := (s.eng.tile u).sp, badWords := (s.eng.tile u).badWords,
                            mbox := (s.eng.tile u).mbox, inst := (s.eng.tile u).inst } = s.eng.tile u) ∧
    (b.len < b.off + bs.length → exec (.msgDelivery u m) s = .next (withEng s
      ((s.eng.modTile u (fun ti => { ti with held := rest })).raise s.now u b.thread b.pc (some slot) .claimViolation m)))

/-- RCHK and RGET (R149): blocks whose residues agree let the thread go on; a block's computed and stored residues in xD. -/
def Obligations.ResidueResults : Prop :=
  ∀ (s : State) (h : Hart) (w : Opnd), issues s h w = true →
    let c := seen s h (wordOf 0xB 0 w)
    let f := (fmtOf (mod w 3 0)).getD (.int 1)
    let n := mod w 12 8 + 1
    let a := ((thr s h).x w.a).toNat
    let b := ((thr s h).x w.b).toNat
    a % 8 = 0 →
    (fieldsOk false true false false w (decide (mod w 3 0 ≤ 10) && mod w 7 4 == 0 && mod w 31 13 == 0) = true →
      c.ti.firstOutside c.i a (arrayBytes f n) = none → c.ti.fillingIn a (arrayBytes f n) = false → c.ti.firstBad a (arrayBytes f n) = none →
      let blocks := arrayBlocks f n (c.bytes a (arrayBytes f n))
      ((∀ x ∈ blocks, x.good f = true) → ∃ t, exec (.rchk h w) s = .next t ∧ RegResult s t h 0 0) ∧
      (∀ d, firstBadBlock f a blocks = some d → exec (.rchk h w) s = .next (withEng s (raised s h (wordOf 0xB 0 w) .residue d)))) ∧
    (fieldsOk true true true false w (decide (mod w 3 0 ≤ 10) && mod w 31 4 == 0) = true → b % 4 = 0 →
      c.ti.firstOutside c.i a f.bytes = none → c.ti.firstOutside c.i b 4 = none → c.ti.fillingIn a f.bytes = false →
      c.ti.firstBad a f.bytes = none → c.ti.fillingIn b 4 = false → c.ti.firstBad b 4 = none →
      let blk := rawBlock f (c.take a f.bytes).1 ((c.take a f.bytes).2.take b 4).1
      ∃ t, exec (.rget h w) s = .next t ∧ RegResult s t h w.d (BitVec.ofNat 64 (blk.residue f + 256 * blk.stored)))

/-- Taking a tile exception: TILE_EXC records it, the instance's threads halt, and nothing is written to the instruction's
destination (R111, R112). Shown for ILLEGAL_OP of the scalar and control groups and for the checks of loads, stores and atomics, in the
order of R119: encoding, alignment, claim, filling bytes, uncorrectable words.

WAIT_TIMEOUT and PORT_FAULT (R108, R111): a thread that has waited 1,000 ticks takes WAIT_TIMEOUT, and no sooner; an NV
port's fault leaves the pages delivered by then and ends the descriptor at the head of its queue, with the page awaited as DETAIL; a DRAM
port's ends a descriptor in progress, or the attention pass that runs, with the slot awaited. -/
def Obligations.TileExceptions : Prop :=
  (
  ∀ (s : State) (h : Hart) (w : Opnd), issues s h w = true →
    let a := ((thr s h).x w.a + w.imm.signExtend 64).toNat
    let ti := s.eng.tile h.loc
    let i := (ti.instOf (thr s h).task).getD {}
    (aluLegal w = false → exec (.add h w) s = .next (withEng s (raised s h (wordOf 0 0x00 w) .illegalOp 0))) ∧
    (fieldsOk true true false false w true = false → exec (.ldd h w) s = .next (withEng s (raised s h (wordOf 1 0x03 w) .illegalOp 0))) ∧
    (fieldsOk true true false false w true = true → a % 8 ≠ 0 →
      exec (.ldd h w) s = .next (withEng s (raised s h (wordOf 1 0x03 w) .misaligned (a % 2 ^ 21 / 8)))) ∧
    (∀ b, fieldsOk true true false false w true = true → a % 8 = 0 → ti.firstOutside i a 8 = some b →
      exec (.ldd h w) s = .next (withEng s (raised s h (wordOf 1 0x03 w) .claimViolation (b % 2 ^ 21 / 8)))) ∧
    (fieldsOk true true false false w true = true → a % 8 = 0 → ti.firstOutside i a 8 = none → ti.fillingIn a 8 = true →
      exec (.ldd h w) s = .next (withEng s (stalled s h (seen s h (wordOf 1 0x03 w)).e))) ∧
    (∀ k, fieldsOk true true false false w true = true → a % 8 = 0 → ti.firstOutside i a 8 = none → ti.fillingIn a 8 = false →
      ti.firstBad a 8 = some k → exec (.ldd h w) s = .next (withEng s (raised s h (wordOf 1 0x03 w) .sramUncorr k))) ∧
    (fieldsOk false true true false w true = true → a % 8 ≠ 0 →
      exec (.std h w) s = .next (withEng s (raised s h (wordOf 1 0x0B w) .misaligned (a % 2 ^ 21 / 8)))) ∧
    (∀ g, fieldsOk false true true false w true = true → a % 8 = 0 → ti.firstOutside i a 8 = none → ti.firstFilling a 8 = some g →
      exec (.std h w) s = .next (withEng s (raised s h (wordOf 1 0x0B w) .claimViolation (max a (g * 4096) % 2 ^ 21 / 8))))) ∧
  (
  (∀ (s : State) (h : Hart), hartOk h = true → (thr s h).run = .waiting →
    ((thr s h).since + 1000 ≤ s.now → exec (.waitTimeout h) s =
      .next (withEng s (s.eng.raise s.now h.loc h.thread (thr s h).pc.toNat (some (thr s h).task) .waitTimeout 0))) ∧
    (s.now < (thr s h).since + 1000 → exec (.waitTimeout h) s = .next s)) ∧
  (∀ (s : State) (u : Loc) (k : Nat), locOk u = true →
    let ti := s.eng.tile u
    (∀ (j : NvJob) (r : List NvJob), ti.nvQ = j :: r →
      let n := min k (j.count - 1)
      exec (.portFault u .nv k) s = .next (withEng s ((s.eng.modTile u (fun x =>
        ({ x.store j.dst (nvRead ti.page (fun _ => false) n j.first j.len).1 with nvQ := nvHead (s.eng.field u.field) r } : Tile).unfill j.dst j.len)).raise
          s.now u j.thread j.pc (some j.slot) .portFault (j.first + n)))) ∧
    (ti.nvQ = [] → exec (.portFault u .nv k) s = .next s)) ∧
  ∀ (s : State) (u : Loc), locOk u = true →
    let ti := s.eng.tile u
    (∀ (k : Nat) (j : DramJob), k < 32 → ti.dramQ[k]? = some j → dramStarted ti.dramQ k = true →
      exec (.portFault u .dram k) s = .next (withEng s
        (((s.eng.modTile u (fun x => { x with dramQ := ti.dramQ.eraseIdx k })).modTile u (fun x => { x with dramFault := true })).raise
          s.now u j.thread j.pc (some j.slot) .portFault (j.slab / 16384)))) ∧
    (∀ k : Nat, k < 32 → dramStarted ti.dramQ k = false → exec (.portFault u .dram k) s = .next s) ∧
    ∀ (i n : Nat) (j : AttnJob) (r : List AttnJob), ti.attQ = j :: r → j.run.isSome = true → j.kvSlots[i]? = some n →
      exec (.portFault u .dram (32 + i)) s = .next (withEng s
        ((((s.eng.modTile u (fun x => { x with attQ := r })).modTile u (fun x => { x with dramFault := true })).raise
          s.now u j.thread j.pc (some j.slot) .portFault n).laneStart s.now u 2)))

/-- The words of the tile instructions (R117, R118, R124, R166, R167): the command that a row's word spells is that row with the word's
fields, the immediate form among them, whatever the fields; a word whose GROUP and OP no table lists raises ILLEGAL_OP and has no other
effect. An instruction whose fetch finds an uncorrectable word raises SRAM_UNCORR; the errors that its fetch and its reads meet are counted
and reported before it runs, and it runs on the tile as they leave it. -/
def Obligations.InstructionWords : Prop :=
  (∀ (h : Hart), ∀ x ∈ opLines, ∀ (w : Opnd), w.other = none → w.ecc = [] → (w.alt = true → hasImmForm x.1 x.2.1 = true) →
    instrOf h (wordOf x.1 x.2.1 w) = x.2.2 h w) ∧
  (∀ (h : Hart) (v : Word), lineOf (v.extractLsb' 52 12).toNat = none → ∃ w, instrOf h v = .add h w ∧ wordOf 0 0 w = v ∧ spellsRow w = false) ∧
  ∀ (s : State) (h : Hart), ∀ x ∈ opLines, ∀ (w : Opnd),
    let i : Instr := x.2.2 h w
    (hartOk h = true → spellsRow w = true → exec i s = .next s) ∧
    (mayRun s h = true → spellsRow w = false → w.other.isSome = true → w.ecc = [] →
      exec i s = .next (withEng s (raised s h (wordOf 0 0 w) .illegalOp 0))) ∧
    (mayRun s h = true → spellsRow w = false → exec i s = exec (x.2.2 h { w with ecc := [] }) (withEng s (s.eng.meets s.now h.loc w.ecc))) ∧
    (∀ k, hartOk h = true → ((thr s h).run = .running ∨ (thr s h).run = .waiting) → (thr s h).ended = false → s.eng.siteState h.loc = .active →
      ((s.eng.tile h.loc).instOf (thr s h).task).isSome = true → (s.eng.tile h.loc).firstBad (thr s h).pc.toNat 8 = some k → w.other = none → w.ecc = [] →
      exec i s = .next (withEng s (raised s h (wordOf x.1 x.2.1 w) .sramUncorr k)))

/-- TASK_GRANT, TASK_RELEASE, DEP_SIGNAL and ALL_SIGNAL_COMBINE (R85, R86, R268 to R274): an eligible gang whose combined claim is free
is granted together, on the lowest free threads and contexts, entries being offered in ascending index; an instance whose threads have ended and whose work has completed is
freed, and its signals go out; a signal raises COUNT, or counts as stale, or makes the step a graph fault. -/
def Obligations.DispatchResults : Prop :=
  (∀ (s : State) (u : Loc) (i p : Nat) (ti : Tile), locOk u = true → s.eng.steppingOn u = some p → i ∈ s.eng.taskIdx p u →
    let o := s.eng.tile u
    let idx := s.eng.taskIdx p u
    let gang := o.gangOf idx i
    let low := gang.foldl min i
    (∀ j ∈ gang, o.eligible j = true) → (∀ st, (s.eng.part p).step = some st → u ∉ st.waits) →
    ((∀ j ∈ idx, j < low → j ∉ gang → o.eligible j = true → o.grantable p idx j = false) →
      (o.grantAll p ((s.eng.vOfLoc p u).getD 0) (s.eng.part p).stepStart gang = some ti →
        ∃ n, exec (.taskGrant u i) s =
            .next (withEng s ((s.eng.modTile u (fun _ => ti)).modDeck (deckOf u.field) (fun d => d.dispCount 2 n))) ∧
          n = (gang.filter (fun g => idx.any (fun j => decide (j < g) && !gang.contains j && o.eligible j &&
            (o.grantAll p 0 0 (o.gangOf idx j)).isNone))).length) ∧
      (o.grantAll p ((s.eng.vOfLoc p u).getD 0) (s.eng.part p).stepStart gang = none → exec (.taskGrant u i) s = .next s)) ∧
    ((∃ j ∈ idx, j < low ∧ j ∉ gang ∧ o.eligible j = true ∧ o.grantable p idx j = true) → exec (.taskGrant u i) s = .next s)) ∧
  (∀ (ti : Tile) (p i x3 x5 k : Nat),
    let w := ti.task i
    let th := ti.freeThreads.take (tThreads w)
    let v := (ti.grant p i x3 x5).thread k
    (k ∉ th → v = ti.thread k) ∧
    (∀ n, th[n]? = some k → v.run = .running ∧ v.task = i ∧ v.pc = BitVec.ofNat 21 (tEntry w / 8 * 8) ∧ v.x 2 = BitVec.ofNat 64 (fld w 63 0) ∧
      v.x 3 = BitVec.ofNat 64 x3 ∧ v.x 4 = BitVec.ofNat 64 n ∧ v.x 5 = BitVec.ofNat 64 x5 ∧ v.vctx = (ti.freeCtxs.take (tVctx w))[n]? ∧
      ∀ r : BitVec 5, 5 < r.toNat → v.x r = 0)) ∧
  (∀ (s : State) (u : Loc) (slot p : Nat) (i : Instance), locOk u = true → s.eng.steppingOn u = some p → (s.eng.tile u).instOf slot = some i →
    (((∀ k ∈ i.threads, ((s.eng.tile u).thread k).ended = true) ∧ (s.eng.tile u).queuedWork slot = false) →
      let v := (s.eng.tile u).freeInst slot
      exec (.taskRelease u slot) s = .next (withEng s { s.eng.modTile u (fun _ => v) with
        signals := s.eng.signals ++ s.eng.endSignals p u ((s.eng.tile u).task i.entry) }) ∧
        v.instOf slot = none ∧ (∀ k ∈ i.threads, v.thread k = {}) ∧ (∀ k, k ∉ i.threads → v.thread k = (s.eng.tile u).thread k) ∧
        v.finished = (s.eng.tile u).finished ++ [slot] ∧
        { v with threads := (s.eng.tile u).threads, inst := (s.eng.tile u).inst, finished := (s.eng.tile u).finished,
                 mbox := (s.eng.tile u).mbox } = s.eng.tile u) ∧
    (((∃ k ∈ i.threads, ((s.eng.tile u).thread k).ended = false) ∨ (s.eng.tile u).queuedWork slot = true) → exec (.taskRelease u slot) s = .next s)) ∧
  (∀ (s : State) (k i : Nat) (g : Signal), s.eng.signals[k]? = some g → s.eng.entryOf g.graph g.dst g.node = some i →
    let w := (s.eng.tile g.dst).task i
    let e : Engine := { s.eng with signals := s.eng.signals.eraseIdx k }
    (tStag w = g.stag → tCount w < tPred w →
      exec (.depSignal k) s = .next (withEng s (e.modTile g.dst (fun ti => ti.setCount i (tCount w + 1) (tStag w))))) ∧
    (tStag w = g.stag → tPred w ≤ tCount w →
      exec (.depSignal k) s = .next (withEng s ((e.modDeck (deckOf g.dst.field) (fun d => d.dispCount 1 1)).modPart g.part Part.faultStep))) ∧
    (tStag w ≠ g.stag → exec (.depSignal k) s = .next (withEng s (e.modDeck (deckOf g.dst.field) (fun d => d.dispCount 0 1))))) ∧
  ∀ (s : State) (p node cl : Nat) (st : Step) (n : Node), p < 32 → (s.eng.part p).step = some st →
    (s.eng.graph (s.eng.part p).graph).nodes[node]? = some n → st.halted = false → (node, cl) ∉ st.allEnds → (∃ x ∈ n.edges, x.1 = 1) →
    let locs := s.eng.spreadLocs p n
    (∃ u ∈ locs, clusterOf u = cl) → (∀ u ∈ locs, clusterOf u = cl → s.eng.nodeEnded p node u = true) →
    let last := ∀ u ∈ locs, clusterOf u = cl ∨ (node, clusterOf u) ∈ st.allEnds
    ∃ t st', exec (.allSignalCombine p node cl) s = .next t ∧ st'.allEnds = st.allEnds ++ [(node, cl)] ∧
      t = withEng s { s.eng.modPart p (fun q => { q with step := some st' }) with signals := t.eng.signals } ∧
      { st' with allEnds := st.allEnds, allDone := st.allDone } = st ∧
      (¬ last → t.eng.signals = s.eng.signals ∧ st'.allDone = st.allDone) ∧
      (last → st'.allDone = st.allDone ++ [node] ∧ t.eng.signals = s.eng.signals ++ ((n.edges.filter (fun x => x.1 == 1)).flatMap (fun x =>
        match (s.eng.graph (s.eng.part p).graph).nodes[x.2.1]? with
        | some m => (s.eng.spreadLocs p m).map (fun u =>
            ({ part := p, dst := u, graph := (s.eng.part p).graph, node := x.2.1, stag := (s.eng.part p).stepNo % 16 } : Signal))
        | none => [])))

/-- STEP_BEGIN, SCHEDULED_ACTION_HOLD, STEP_CLOSE, STEP_HALT and STEP_REEXECUTE (R33, R34, R41, R42, R113, R395 to R398): the boundary's
actions come first, then the step where the partition may step; a step closes when its sweep is done; a halted step executes again from
the same inputs, and the third hardware fault abandons it. -/
def Obligations.StepCommands : Prop :=
  ∀ (s : State) (p : Nat), p < 32 →
    let q := s.eng.part p
    let b := (s.eng.disableStops s.now).boundary p s.now
    let e := b.modPart p (fun q => { q with state := if q.state = .held && !b.crosses s.now p then .idle else q.state })
    let a := (e.preAssemble p s.now).assemble p s.now
    (q.step.isSome = true ∨ q.capture = true ∨ s.eng.serving = false → exec (.stepBegin p) s = .next s) ∧
    (q.step = none → q.capture = false → s.eng.serving = true →
      (e.mayStep p s.now = false → exec (.stepBegin p) s = .next (withEng s e)) ∧
      (e.mayStep p s.now = true → a.2 = [] → exec (.stepBegin p) s = .next (withEng s a.1)) ∧
      (e.mayStep p s.now = true → a.2 ≠ [] →
        (∀ x ∈ a.2, ((a.1.part p).attOn = true ∧ x.kind ≠ 0) ∨ a.1.uncached p x.req = false) → a.1.mirrored p = false →
        exec (.stepBegin p) s = .next (withEng s (a.1.beginStep p s.now a.2))) ∧
      (e.mayStep p s.now = true → (∃ x ∈ a.2, ((a.1.part p).attOn = false ∨ x.kind = 0) ∧ a.1.uncached p x.req = true) →
        exec (.stepBegin p) s = .next (withEng s (e.preAssemble p s.now))) ∧
      (q.state = .idle → s.eng.crosses s.now p = true →
        exec (.scheduledActionHold p) s = .next (withEng s (s.eng.modPart p (fun q => { q with state := .held })))) ∧
      (q.state = .held → s.eng.crosses s.now p = true → exec (.scheduledActionHold p) s = .next s) ∧
      (q.state = .held → s.eng.crosses s.now p = false → exec (.scheduledActionHold p) s =
        .next (withEng s ((s.eng.boundary p s.now).modPart p (fun q => { q with state := if q.state = .held then .idle else q.state }))))) ∧
    ∀ st, q.step = some st →
      (st.halted = false → st.exc.cause = none → st.hwFault = false → st.graphFault = false →
        (s.eng.sweepDone p = false → exec (.stepClose p) s = .next s) ∧
        (s.eng.sweepDone p = true → s.eng.dropEarly s.now p = none → q.spanLast = 0 →
          (∀ ds, s.eng.drawStep p st = .tokens ds → exec (.stepClose p) s = .next (withEng s (s.eng.afterDraw p s.now st ds))) ∧
          (s.eng.drawStep p st = .fault → exec (.stepClose p) s = .next (withEng s (s.eng.modPart p Part.faultStep)))) ∧
        exec (.stepHalt p) s = .next s) ∧
      (∀ c, st.halted = false → st.exc.cause = some c →
        exec (.stepClose p) s = .next s ∧
        (causeClass c = 3 → st.exec < 3 → exec (.stepHalt p) s = .next (withEng s
          (((s.eng.stepEvent s.now p 0x0102 st.exc.word st.exec st.excLoc).haltStep p id).resolvePart s.now p))) ∧
        (causeClass c = 3 → 3 ≤ st.exec → exec (.stepHalt p) s = .next (withEng s
          ((((s.eng.stepEvent s.now p 0x0102 st.exc.word st.exec st.excLoc).haltStep p id).resolvePart s.now p).abandonStep p s.now))) ∧
        (causeClass c = 1 → st.hwFault = false → exec (.stepHalt p) s =
          .next (withEng s ((s.eng.stepEvent s.now p 0x0101 st.exc.word 0xFFFFFFFF st.excLoc).abandonStep p s.now))) ∧
        (causeClass c = 2 → st.hwFault = false → st.graphFault = false → st.timedOut = false → exec (.stepHalt p) s =
          .next (withEng s ((s.eng.stepEvent s.now p 0x0101 st.exc.word 0xFFFFFFFF st.excLoc).haltStep p (fun x => { x with timedOut := true }))))) ∧
      (s.eng.xstopDue = [] →
        ((st.halted = false ∨ q.window.isSome = true ∨ s.eng.dueCover p = true) → exec (.stepReexecute p) s = .next s) ∧
        (st.halted = true → q.window = none → s.eng.dueCover p = false → exec (.stepReexecute p) s =
          .next (withEng s (((s.eng.modPart p (fun q => { q with tally := [], step := some st.again })).takePorts p).writeInputs p)))) ∧
      (s.eng.xstopDue ≠ [] → (∃ k < 32, (s.eng.part k).atRest = false) → exec (.stepReexecute p) s = .next s)

/-- PACKET_ARRIVAL, FOLD_COMBINE, FOLD_RECEIVE, PROXY_READ and RECOVERY_CHAIN_PAGE (R112, R115, R211 to R222, R375, R403): a packet that
follows another of its channel for the same site waits; one of another partition, for a site out of service, or of another epoch is
dropped and counted; flits add slot by slot, and the owner checks count and residues before it adds. -/
def Obligations.FabricResults : Prop :=
  (∀ (s : State) (k : Nat) (x : Packet) (at' : List Loc), s.eng.flight[k]? = some x → (∀ u ∈ at', locOk u = true) →
    let first := ∀ y ∈ s.eng.flight.take k, ¬ (y.src = x.src ∧ y.dst = x.dst ∧ y.channel = x.channel)
    let e := ({ s.eng with flight := s.eng.flight.eraseIdx k } : Engine).correctedAt at'
    let d := deckOf x.dst.field
    let here := s.eng.partOf x.dst.field = some x.part
    (¬ first → ∀ b, exec (.packetArrival k b at') s = .next s) ∧
    (first → exec (.packetArrival k true at') s = .next (withEng s (e.stepFault x.part))) ∧
    (first → x.sys = false → ¬ here → exec (.packetArrival k false at') s = .next (withEng s (e.modDeck d (fun y => y.fabCount 0 1)))) ∧
    (first → (x.sys = true ∨ here) → s.eng.siteState x.dst ≠ .active → s.eng.proxyAt x = none →
      exec (.packetArrival k false at') s = .next (withEng s (e.modDeck d (fun y => y.fabCount 1 1)))) ∧
    (first → (x.sys = true ∨ here) → ∀ q, s.eng.siteState x.dst = .covered → x.body = .proxy q →
      exec (.packetArrival k false at') s = .next (withEng s (e.proxyAnswer x.dst q x.src))) ∧
    (first → here → s.eng.siteState x.dst = .active → x.epoch = (s.eng.part x.part).epoch →
      (∀ m bs, x.body = .msg m bs → exec (.packetArrival k false at') s = .next (withEng s (e.modTile x.dst (fun ti => { ti with held := ti.held ++ [x] })))) ∧
      (∀ f, x.body = .fold f → exec (.packetArrival k false at') s = .next (withEng s (e.modTile x.dst (fun ti => { ti with foldIn := ti.foldIn ++ [f] })))))) ∧
  (∀ (e : Engine) (u v : Loc) (l : List Loc), ((e.correctedAt l).tile v).routerCorr = (e.tile v).routerCorr + (l.filter (fun r => locKey r == locKey v)).length ∧
    (e.correctedAt (u :: l)) = (e.modTile u (fun ti => { ti with routerCorr := ti.routerCorr + 1 })).correctedAt l) ∧
  (∀ (s : State) (r : Loc) (i j : Nat) (x y : Packet) (f g : Flit), locOk r = true → i ≠ j → s.eng.flight[i]? = some x → s.eng.flight[j]? = some y →
    x.body = .fold f → y.body = .fold g →
    (combinable x y f g = true → (addFlits r f g).inWindow = true → exec (.foldCombine r i j) s =
      .next (withEng s { s.eng with flight := (s.eng.flight.set i { x with body := .fold (addFlits r f g) }).eraseIdx j })) ∧
    (combinable x y f g = true → (addFlits r f g).inWindow = false →
      exec (.foldCombine r i j) s = .next (withEng s (s.eng.modDeck (deckOf r.field) (fun d => d.fabCount 2 1)))) ∧
    (combinable x y f g = false → exec (.foldCombine r i j) s = .next s)) ∧
  (∀ (s : State) (u : Loc) (f : Flit) (r : List Flit), locOk u = true → (s.eng.tile u).foldIn = f :: r →
    let n := f.count * f.slots.length
    let e := s.eng.modTile u (fun ti => { if f.whole then ti.count 11 1 else ti with foldIn := r })
    ((s.eng.tile u).pending f.bank < n →
      exec (.foldReceive u) s = .next (withEng s (e.raiseBank s.now u f.bank .foldUnexpected (f.bank + 4 * f.reg) none))) ∧
    (∀ x, n ≤ (s.eng.tile u).pending f.bank → f.slots.find? (fun y => !slotOk y) = some x →
      exec (.foldReceive u) s = .next (withEng s (e.raiseBank s.now u f.bank .residue (f.bank + 4 * (f.reg + x.1)) (if f.rfault then f.rfaultAt else none)))) ∧
    (n ≤ (s.eng.tile u).pending f.bank → f.rfault = false → (∀ x ∈ f.slots, slotOk x = true) →
      ∃ t, exec (.foldReceive u) s = .next t ∧ OnlyTile s t u ∧ (t.eng.tile u).foldIn = r ∧
        (∀ b, (t.eng.tile u).pending b = if b = f.bank then (s.eng.tile u).pending f.bank - n else (s.eng.tile u).pending b) ∧
        (t.eng.tile u).lregs = ((s.eng.tile u).addAll f.bank f.adds).lregs ∧
        { t.eng.tile u with foldIn := (s.eng.tile u).foldIn, lregs := (s.eng.tile u).lregs, pend := (s.eng.tile u).pend,
                            stepCnt := (s.eng.tile u).stepCnt } = s.eng.tile u ∧
        (t.eng.tile u).stepCnt = if f.whole then ((s.eng.tile u).count 11 1).stepCnt else (s.eng.tile u).stepCnt)) ∧
  (∀ (s : State) (u v : Loc), locOk u = true → locOk v = true →
    let p := (s.eng.partOf v.field).getD 0
    let answered (bs : List Byte) : State := withEng s { s.eng with flight := s.eng.flight ++
      [{ src := u, dst := v, part := p, sys := false, epoch := (s.eng.part p).epoch, body := .data bs }] }
    (s.eng.siteState u = .covered →
      (∀ k < kvSlots, exec (.proxyRead u (.kvSlot k) v) s = .next (answered (readBytes (s.eng.tile u).kv (k * 16384) 16384))) ∧
      (∀ k < slabPages, exec (.proxyRead u (.nvPage k) v) s = .next (answered ((s.eng.tile u).page k)))) ∧
    (s.eng.siteState u = .active → ∀ k < kvSlots, exec (.proxyRead u (.kvSlot k) v) s = .next s) ∧
    (s.eng.siteState u ≠ .covered → s.eng.siteState u ≠ .active → ∀ k < kvSlots, exec (.proxyRead u (.kvSlot k) v) s =
      .next (withEng s (s.eng.modDeck (deckOf u.field) (fun d => d.fabCount 1 1))))) ∧
  ∀ (s : State) (u : Loc) (k : Nat) (c : Chain), locOk u = true → s.eng.chains[k]? = some c →
    (s.eng.chainAt c u = false → exec (.recoveryChainPage u k) s = .next s) ∧
    (s.eng.chainAt c u = true → (s.eng.chainStep c).left ≠ [] →
      exec (.recoveryChainPage u k) s = .next (withEng s { s.eng with chains := s.eng.chains.set k (s.eng.chainStep c) })) ∧
    (∀ pg, s.eng.chainAt c u = true → (s.eng.chainStep c).left = [] → extPage (s.eng.readExtents c.dst c.img (s.eng.image c.img).slot) c.page = some pg →
      exec (.recoveryChainPage u k) s = .next (withEng s
        (({ s.eng with chains := s.eng.chains.eraseIdx k } : Engine).modTile c.dst (fun ti => { ti with recv := ti.recv ++ [(pg, (s.eng.chainStep c).acc)] })))) ∧
    (s.eng.chainAt c u = true → (s.eng.chainStep c).left = [] → extPage (s.eng.readExtents c.dst c.img (s.eng.image c.img).slot) c.page = none →
      exec (.recoveryChainPage u k) s = .next (withEng s { s.eng with chains := s.eng.chains.eraseIdx k }))

/-- Hem credit and faulty links (R224 to R226, R229, R500): a reservation takes at most 64 flits where the bucket holds them, and each
pace tick in which one waits is counted once; unused credit returns after 16 idle ticks, up to BURST; a refill adds one tick's rate up to
BURST, once in a tick; a faulty stop is disabled when every partition is at a step boundary, and the step of its field's partition that
runs has a hardware fault; a faulty lane is out of use on both decks. -/
def Obligations.CreditAndLinkResults : Prop :=
  (∀ (s : State) (u : Loc) (d p flits : Nat) (z : Bool), locOk u = true → d < 2 → s.eng.partOf u.field = some p →
    let n := min flits 64
    let c := (s.eng.deck d).hem (bnat z) p
    (n ≤ c.outBucket → ∃ t, exec (.hemReservation u d z flits) s = .next t ∧
      t = withEng s { s.eng with decks := t.eng.decks, tiles := t.eng.tiles } ∧
      (∀ k, t.eng.deck k = if k = d then (s.eng.deck d).setHem (bnat z) p { c with outBucket := c.outBucket - n } else s.eng.deck k) ∧
      ((t.eng.deck d).hem (bnat z) p) = { c with outBucket := c.outBucket - n } ∧
      (∀ v, locKey v ≠ locKey u → t.eng.tile v = s.eng.tile v) ∧
      { t.eng.tile u with hemBal := (s.eng.tile u).hemBal, hemLast := (s.eng.tile u).hemLast } = s.eng.tile u ∧
      (∀ m, mget (fun _ => 0) m (t.eng.tile u).hemBal = mget (fun _ => 0) m (s.eng.tile u).hemBal + (if m = 2 * d + bnat z then n else 0)) ∧
      (t.eng.tile u).hemLast = s.now) ∧
    (c.outBucket < n → exec (.hemReservation u d z flits) s = .next (withEng s (s.eng.modDeck d (fun x =>
      if s.now < x.waitAt then x else { x.fabCount 3 1 with waitAt := s.now + 1 }))))) ∧
  (∀ (s : State) (u : Loc) (p : Nat), locOk u = true → s.eng.partOf u.field = some p →
    (s.now < (s.eng.tile u).hemLast + 16 → exec (.hemReservationReturn u) s = .next s) ∧
    ((s.eng.tile u).hemLast + 16 ≤ s.now → ∃ t, exec (.hemReservationReturn u) s = .next t ∧
      t = withEng s { s.eng with decks := t.eng.decks, tiles := t.eng.tiles } ∧
      (∀ v, t.eng.tile v = if locKey v = locKey u then { s.eng.tile u with hemBal := [] } else s.eng.tile v) ∧
      ((s.eng.tile u).hemBal = [] → ∀ k, t.eng.deck k = s.eng.deck k) ∧
      ∀ k n, (s.eng.tile u).hemBal = [(k, n)] → k < 4 →
        (∀ d, d ≠ k / 2 → t.eng.deck d = s.eng.deck d) ∧
        t.eng.deck (k / 2) = (s.eng.deck (k / 2)).setHem (k % 2) p ((t.eng.deck (k / 2)).hem (k % 2) p) ∧
        (t.eng.deck (k / 2)).hem (k % 2) p = { (s.eng.deck (k / 2)).hem (k % 2) p with
          outBucket := min ((s.eng.deck (k / 2)).hem (k % 2) p).burst (((s.eng.deck (k / 2)).hem (k % 2) p).outBucket + n) })) ∧
  (∀ (s : State), ∃ t, exec .hemBucketRefill s = .next t ∧ t = withEng s { s.eng with decks := t.eng.decks } ∧
    ∀ d < 2,
      { t.eng.deck d with hostCr := (s.eng.deck d).hostCr, zarogCr := (s.eng.deck d).zarogCr, fillAt := (s.eng.deck d).fillAt } = s.eng.deck d ∧
      (s.now < (s.eng.deck d).fillAt → t.eng.deck d = s.eng.deck d) ∧
      ((s.eng.deck d).fillAt ≤ s.now → (t.eng.deck d).fillAt = s.now + 1 ∧ ∀ n < 33, ∀ table < 2, ((t.eng.deck d).hem table n) =
        { (s.eng.deck d).hem table n with
          inBucket := min ((s.eng.deck d).hem table n).burst (((s.eng.deck d).hem table n).inBucket + ((s.eng.deck d).hem table n).inRate)
          outBucket := min ((s.eng.deck d).hem table n).burst (((s.eng.deck d).hem table n).outBucket + ((s.eng.deck d).hem table n).outRate) })) ∧
  (∀ (s : State) (f c : Nat) (b : Bool), f < 96 → c < 36 →
    let known := (s.eng.field f).xstop.testBit c = true ∨ ∃ x ∈ s.eng.xstopDue, x.1 = f ∧ x.2.1 = c
    let e : Engine := { s.eng with xstopDue := s.eng.xstopDue ++ [(f, c, bnat b)] }
    (known → exec (.xstopDisabled f c b) s = .next s) ∧
    (¬ known →
      ((∃ k < 32, (s.eng.part k).atRest = false) →
        (∀ p, s.eng.partOf f = some p → (s.eng.part p).atRest = false → exec (.xstopDisabled f c b) s = .next (withEng s (e.stepFault p))) ∧
        ((∀ p, s.eng.partOf f = some p → (s.eng.part p).atRest = true) → exec (.xstopDisabled f c b) s = .next (withEng s e))) ∧
      ((∀ k < 32, (s.eng.part k).atRest = true) → ∃ t, exec (.xstopDisabled f c b) s = .next t ∧
        t = withEng s { e.xstopDue.foldl (fun e x => e.disableStop s.now x.1 x.2.1 x.2.2) e with xstopDue := [] } ∧
        (t.eng.field f).xstop.testBit c = true ∧ t.eng.tiles = s.eng.tiles ∧ t.eng.parts = s.eng.parts ∧
        ∀ k, k ≠ c → (∀ x ∈ s.eng.xstopDue, x.1 = f → x.2.1 ≠ k) → (t.eng.field f).xstop.testBit k = (s.eng.field f).xstop.testBit k))) ∧
  ∀ (s : State) (l : Nat), l < 36 → ∃ t, exec (.bridgeLaneDisabled l) s = .next t ∧ t = withEng s { s.eng with decks := t.eng.decks } ∧
    ∀ d < 2, { t.eng.deck d with lanes := (s.eng.deck d).lanes } = s.eng.deck d ∧ l ∈ (t.eng.deck d).lanes ∧
      ∀ k, k ≠ l → (k ∈ (t.eng.deck d).lanes ↔ k ∈ (s.eng.deck d).lanes)

/-- Rinse, guarded banks, KV rinse, refresh and NV patrol (R166 to R170, R198, R260, R261): counters and flags as the pass finds them,
each only where its condition holds; no byte of scratchpad changes.

SLOT_ZERO_FILL_DONE, KV_SPILL, KV_RESERVE_FETCH and RESERVE_CACHE_FILL (R202, R238, R262, R263): a freed slot is free again with all
its bytes zero; a spill copies out below the low mark only, within the outbound credit that the tile has reserved, and replaces entries at a boundary
only; a reserve page comes into the least recently used slot, inside its window and within its credit. -/
def Obligations.UpkeepResults : Prop :=
  (
  (∀ (s : State) (u : Loc), locOk u = true →
    (∀ c b, s.eng.siteState u ≠ .active → exec (.rinsePass u c b) s = .next s) ∧
    (s.eng.siteState u = .active → ∀ k, k < 262144 → k / 512 ∉ (s.eng.tile u).filling → ∃ t, exec (.rinsePass u [k] []) s = .next t ∧ OnlyTile s t u ∧
      { t.eng.tile u with bank := (s.eng.tile u).bank, rinses := (s.eng.tile u).rinses } = s.eng.tile u ∧
      (t.eng.tile u).sp = (s.eng.tile u).sp ∧ (t.eng.tile u).rinses = (s.eng.tile u).rinses + 1 ∧
      ∀ m, mget (fun _ => ({} : SpBank)) m (t.eng.tile u).bank =
        (let o := mget (fun _ => ({} : SpBank)) m (s.eng.tile u).bank
         if m = bankOf (8 * k) then { o with ce := satAdd 0xFFFF o.ce 1, win := satAdd 0xFF o.win 1, last := k } else o)) ∧
    (s.eng.siteState u = .active → ∀ k, k < 262144 → k / 512 ∉ (s.eng.tile u).filling → k ∉ (s.eng.tile u).badWords →
      exec (.rinsePass u [] [k]) s = .next (withEng s (((s.eng.modTile u (fun ti => { ti with rinses := ti.rinses + 1 })).modTile u (fun ti =>
        ({ ti with badWords := ti.badWords ++ [k] } : Tile).modBank (bankOf (8 * k)) (fun x => { x with ue := satAdd 0xFF x.ue 1, last := k }))).siteEvent
          s.now u 0x0201 k (bankOf (8 * k))))) ∧
    (∀ b, b < 32 →
      let k := mget (fun _ => ({} : SpBank)) b (s.eng.tile u).bank
      (k.guarded = false → (s.eng.deck (deckOf u.field)).guardCe ≤ k.win → s.eng.siteState u = .active →
        exec (.bankGuarded u b) s = .next (withEng s
          ((s.eng.modTile u (fun ti => ti.modBank b (fun x => { x with guarded := true, conv := true }))).siteEvent s.now u 0x0202 k.win b))) ∧
      ((k.guarded = true ∨ k.win < (s.eng.deck (deckOf u.field)).guardCe) → exec (.bankGuarded u b) s = .next s) ∧
      (∃ t, exec (.guardConversionDone u b) s = .next t ∧ OnlyTile s t u ∧ { t.eng.tile u with bank := (s.eng.tile u).bank } = s.eng.tile u ∧
        ∀ m, mget (fun _ => ({} : SpBank)) m (t.eng.tile u).bank =
          (let o := mget (fun _ => ({} : SpBank)) m (s.eng.tile u).bank
           if m = b then { o with conv := false } else o))) ∧
    ((s.eng.tile u).rinses < (s.eng.deck (deckOf u.field)).guardWin → exec (.guardWindowEnd u) s = .next s) ∧
    ((s.eng.deck (deckOf u.field)).guardWin ≤ (s.eng.tile u).rinses → ∃ t, exec (.guardWindowEnd u) s = .next t ∧ OnlyTile s t u ∧
      { t.eng.tile u with bank := (s.eng.tile u).bank, rinses := (s.eng.tile u).rinses } = s.eng.tile u ∧
      (t.eng.tile u).rinses = 0 ∧ ∀ b, mget (fun _ => ({} : SpBank)) b (t.eng.tile u).bank =
        (let o := mget (fun _ => ({} : SpBank)) b (s.eng.tile u).bank
         if b < 32 then { o with win := 0 } else o)) ∧
    (∀ bad, let e := s.eng.modTile u (fun ti => (bad.filter (fun k => decide (k < kvSlots))).foldl Tile.kvUncorr ti)
      (e.siteIdle u = true → exec (.kvRinse u bad) s = .next (withEng s (e.resolveTile s.now u))) ∧
      (e.siteIdle u = false → exec (.kvRinse u bad) s = .next (withEng s e))) ∧
    exec (.nvPatrol u [] []) s = .next s ∧
    ∀ bad k, k < slabPages → (∀ x ∈ bad, x.1 = k) →
      let b := (s.eng.field u.field).nvOffset (waferOf k)
      let n := min 4 (([b, b + 12, b - 12, b + 24, b - 24] : List Int).findIdx (fun o => !bad.contains (k, o)))
      let flagged := withEng s ((s.eng.modTile u (fun ti => { ti with flagged := insertOnce (k / 32) ti.flagged })).siteEvent s.now u 0x0203 (k / 32) n)
      (n = 0 → exec (.nvPatrol u bad []) s = .next s) ∧
      (0 < n → exec (.nvPatrol u bad []) s = .next flagged) ∧
      exec (.nvPatrol u bad [k]) s = .next flagged) ∧
  ∀ (s : State) (f : Nat), f < 96 →
    let n := if (s.eng.field f).dBand < 3 then 64000 else if (s.eng.field f).dBand = 3 then 32000 else 16000
    (s.now < (s.eng.field f).refresh + n → exec (.dramRefresh f) s = .next s) ∧
    ((s.eng.field f).refresh + n ≤ s.now → exec (.dramRefresh f) s = .next (withEng s (s.eng.modField f (fun x => { x with refresh := s.now }))))) ∧
  (
  (∀ (s : State) (u : Loc) (k : Nat), locOk u = true → k < kvSlots →
    ((s.eng.tile u).useOf k = .zeroing → ∃ t, exec (.slotZeroFillDone u k) s = .next t ∧ OnlyTile s t u ∧ (t.eng.tile u).useOf k = .free ∧
      { t.eng.tile u with kv := (s.eng.tile u).kv, slotUse := (s.eng.tile u).slotUse } = s.eng.tile u ∧
      (∀ a, k * 16384 ≤ a → a < (k + 1) * 16384 → readByte (t.eng.tile u).kv a = 0) ∧
      (∀ a, a < k * 16384 ∨ (k + 1) * 16384 ≤ a → readByte (t.eng.tile u).kv a = readByte (s.eng.tile u).kv a) ∧
      ∀ j, j ≠ k → (t.eng.tile u).useOf j = (s.eng.tile u).useOf j) ∧
    ((s.eng.tile u).useOf k ≠ .zeroing → exec (.slotZeroFillDone u k) s = .next s)) ∧
  (∀ (s : State) (u : Loc) (p : Nat), locOk u = true → s.eng.partOf u.field = some p →
    (((s.eng.part p).kvRegion = none ∨ (s.eng.part p).kvLow ≤ (s.eng.tile u).freeSlots.length) → exec (.kvSpill u .copyOut) s = .next s) ∧
    (∀ r, (s.eng.part p).kvRegion = some r → (s.eng.tile u).freeSlots.length < (s.eng.part p).kvLow →
      exec (.kvSpill u .copyOut) s = .next (withEng s (s.eng.spillSome p u s.now 4110))) ∧
    (s.eng.atBoundary [p] = false → exec (.kvSpill u .replace) s = .next s) ∧
    (s.eng.atBoundary [p] = true → exec (.kvSpill u .replace) s = .next (withEng s
      (((s.eng.tile u).spills.foldl (fun e x => e.replaceUnit u (s.eng.graph (s.eng.part p).graph) x) s.eng).modTile u (fun ti => { ti with spills := [] }))))) ∧
  (∀ (e : Engine) (p n : Nat) (u : Loc) (v : Victim) (addr bytes : Nat) (fn : Fn), (e.part p).kvRegion = some (addr, bytes, fn) →
    mget (fun _ => 0) (2 * e.fnDeck fn) (e.tile u).hemBal < 256 * v.pages.length → e.spillUnit p u v n = none) ∧
  (∀ (s : State) (u : Loc) (p page slot addr bytes : Nat) (fn : Fn) (data : List Byte) (e : Engine), locOk u = true → slot < kvSlots →
    s.eng.partOf u.field = some p → (s.eng.part p).kvRegion = some (addr, bytes, fn) → s.eng.sup.safeHold = false →
    (∃ r, (page, r) ∈ (s.eng.part p).kvUsed) → (∀ x ∈ (s.eng.tile u).kvCacheOf p, x.2.1 ≠ page) →
    lruSlot ((s.eng.tile u).kvCacheOf p) = some slot → data.length = 16384 → s.eng.linkUp fn = true →
    (s.eng.windowOk fn (addr + page * 16384) 16384 false = false →
      exec (.kvReserveFetch u page slot data) s = .next (withEng s (s.eng.windowEvent s.now fn (addr + page * 16384)))) ∧
    (s.eng.windowOk fn (addr + page * 16384) 16384 false = true → s.eng.takeHem (s.eng.fnDeck fn) 0 p 256 = none →
      exec (.kvReserveFetch u page slot data) s = .next s) ∧
    (s.eng.windowOk fn (addr + page * 16384) 16384 false = true → s.eng.takeHem (s.eng.fnDeck fn) 0 p 256 = some e →
      exec (.kvReserveFetch u page slot data) s = .next (withEng s
        (((e.modTile u (fun ti => ti.setUse slot (.kvcache p page s.now))).setKvBytes (u, slot) 0 data).listFetched p u)))) ∧
  ∀ (s : State) (u : Loc) (sl page k addr bytes : Nat) (fn : Fn) (im : Nat × Image) (data : List Byte) (e : Engine), locOk u = true → sl < 16 →
    s.eng.images.find? (fun x => x.2.slot == sl && x.2.state != .absent && x.2.footprint.testBit u.field) = some im →
    im.2.region = some (addr, bytes, fn) → lruSlot ((s.eng.tile u).rCacheOf sl) = some k → s.eng.sup.safeHold = false →
    (∀ x ∈ (s.eng.tile u).rCacheOf sl, x.2.1 ≠ page) → (page + 1) * 16384 ≤ bytes → data.length = 16384 → s.eng.linkUp fn = true →
    let p := (s.eng.partOf u.field).getD 32
    (s.eng.windowOk fn (addr + page * 16384) 16384 false = true → s.eng.takeHem (s.eng.fnDeck fn) 0 p 256 = some e →
      exec (.reserveCacheFill u sl page data) s = .next (withEng s ((e.modTile u (fun ti => ti.setUse k (.rcache sl page s.now))).setKvBytes (u, k) 0 data))) ∧
    (s.eng.windowOk fn (addr + page * 16384) 16384 false = true → s.eng.takeHem (s.eng.fnDeck fn) 0 p 256 = none →
      exec (.reserveCacheFill u sl page data) s = .next s) ∧
    (s.eng.windowOk fn (addr + page * 16384) 16384 false = false → exec (.reserveCacheFill u sl page data) s =
      .next (withEng s (s.eng.windowEvent s.now fn (addr + page * 16384)))))

/-- REQ_SUBMIT (R295, R297, R348): a function that may submit for an enabled, bound tenant below its limit gets the lowest free entry,
of its own deck's half first: QUEUED, with the packet's parameters, and DETAIL the entry's index.

The refusals of REQ_SUBMIT, in order: another tenant's VF, an image of a span's later rank, a tenant not enabled or not bound, no
free entry, the tenant's limit (R302, R348, R366). Nothing is submitted. -/
def Obligations.SubmitResults : Prop :=
  (
  ∀ (s : State) (hd : Hdr) (q : SubmitParams) (i : Nat), goes s hd (.reqSubmit hd q) (submitForm q s.eng) = true →
    let e := taken s hd
    let t := e.tenant q.tenant
    (∀ k, hd.fn = .vf k → k = q.tenant) → (e.image q.image).partIndex = 0 → t.enable = true → t.bound = true →
    (e.freeEntry (e.fnDeck hd.fn) = some i ∨ (e.freeEntry (e.fnDeck hd.fn) = none ∧ e.freeEntry (1 - e.fnDeck hd.fn) = some i)) →
    (t.maxReq = 0 ∨ (e.reqsWhere (fun r => r.tenant == q.tenant && r.state != .idle)).length < t.maxReq) →
    exec (.reqSubmit hd q) s = took s hd (fun e => (e.modReq i (fun _ =>
      { deadline := q.deadline, key := q.key, promptAddr := q.promptAddr, promptLen := q.promptLen, maxLen := q.maxLen, temp := q.temp,
        topP := q.topP, eos := q.eos, chunkMax := q.chunkMax, topkM1 := q.topkM1, image := q.image, part := t.nextPart.getD t.part,
        tenant := q.tenant, prio := q.prio, spec := q.spec, retain := q.retain, state := .queued, rtag := hd.tag, promptEnd := q.promptLen })).reply
      s.now (due s hd) .ok i)) ∧
  (
  ∀ (s : State) (hd : Hdr) (q : SubmitParams), goes s hd (.reqSubmit hd q) (submitForm q s.eng) = true →
    let e := taken s hd
    let t := e.tenant q.tenant
    let mine := ∀ k, hd.fn = .vf k → k = q.tenant
    let answer (c : Status) (d : Nat) : Prop := exec (.reqSubmit hd q) s = tookReply s hd c d
    (¬ mine → answer .tenant 0) ∧
    (mine → (e.image q.image).partIndex ≠ 0 → answer .imageState (imgCode (e.image q.image).state)) ∧
    (mine → (e.image q.image).partIndex = 0 → (t.enable && t.bound) = false → answer .tenantState 0) ∧
    (mine → (e.image q.image).partIndex = 0 → (t.enable && t.bound) = true →
      ((∀ i < 32768, (e.req i).state ≠ .idle) → e.fnDeck hd.fn < 2 → answer .tableFull 0) ∧
      ((∃ d < 2, e.freeEntry d ≠ none) → e.fnDeck hd.fn < 2 → t.maxReq ≠ 0 →
        t.maxReq ≤ (e.reqsWhere (fun r => r.tenant == q.tenant && r.state != .idle)).length → answer .tenantLimit 0)))

/-- The commands that name a request (R296 to R301, R312, Table 10.2): in a state the command is listed for, its effect and the OK
reply; in another, the status with the state's code.

A pause that takes effect (R297, R315): the entry is PAUSED and remembers the state it held (DECODE for VERIFY), its tree is
dropped, and a packet with COUNT 0 and the reason goes out; every other entry keeps its state. -/
def Obligations.RequestCommands : Prop :=
  (
  ∀ (s : State) (hd : Hdr) (idx : Nat),
    let r := (taken s hd).req idx
    let may (c : Instr) (f : Form) : Prop := goes s hd c f = true ∧ mayName hd r = true
    let bad (c : Instr) : Prop := exec c s = tookReply s hd .reqState (reqCode r.state)
    let live := r.state = .queued ∨ r.state = .prefill ∨ r.state = .decode ∨ r.state = .verify
    (∀ addr, may (.reqQuery hd idx addr) (reqQueryForm hd idx addr s.eng) →
      exec (.reqQuery hd idx addr) s = tookOk s hd (fun e => e.dma hd.fn addr (natBytes r.word 64))) ∧
    (∀ mask q, may (.reqUpdate hd idx mask q) (reqUpdateForm idx mask q s.eng) →
      (r.state = .idle → bad (.reqUpdate hd idx mask q)) ∧
      (r.state = .done → exec (.reqUpdate hd idx mask q) s = tookOk s hd (fun e => e.modReq idx (fun r => r.apply mask q))) ∧
      (r.state ≠ .done → r.state ≠ .idle →
        exec (.reqUpdate hd idx mask q) s = tookOk s hd (fun e => e.modReq idx (fun r => { r with update := r.update ++ [(mask, q)] })))) ∧
    (may (.reqPause hd idx) (reqForm 0x0104 idx s.eng) →
      (live → exec (.reqPause hd idx) s = tookOk s hd (fun e => e.modReq idx (fun r => { r with pauseReq := true }))) ∧
      (r.state = .cancelling → exec (.reqPause hd idx) s = tookOk s hd id) ∧
      (r.state = .idle ∨ r.state = .paused ∨ r.state = .done → bad (.reqPause hd idx))) ∧
    (may (.reqResume hd idx) (reqForm 0x0105 idx s.eng) →
      (r.state = .paused → exec (.reqResume hd idx) s = tookOk s hd (fun e => e.modReq idx (fun r => { r with resumeReq := true }))) ∧
      (r.state ≠ .paused → bad (.reqResume hd idx))) ∧
    (may (.reqCancel hd idx) (reqForm 0x0106 idx s.eng) →
      (live ∨ r.state = .paused → exec (.reqCancel hd idx) s = tookOk s hd (fun e => e.cancelReq idx false)) ∧
      (r.state = .cancelling → exec (.reqCancel hd idx) s = tookOk s hd id) ∧
      (r.state = .idle → bad (.reqCancel hd idx))) ∧
    (may (.reqRelease hd idx) (reqForm 0x0107 idx s.eng) →
      (r.state = .done ∧ r.retain = true → exec (.reqRelease hd idx) s = tookOk s hd (fun e => e.idleReq idx)) ∧
      (¬ (r.state = .done ∧ r.retain = true) → bad (.reqRelease hd idx))) ∧
    (∀ count addr, may (.reqAppend hd idx count addr) (reqAppendForm idx count addr s.eng) →
      let ok := r.state = .done ∧ r.retain = true ∧ (r.newest.isSome = true ∨ count ≠ 0)
      (ok → exec (.reqAppend hd idx count addr) s = tookOk s hd (fun e => e.modReq idx (fun r =>
        { r with
            state := .prefill, promptAddr := addr, promptLen := (r.promptLen + count) % 2 ^ 32, prompt := r.newest.toList,
            promptBase := r.len + r.newest.toList.length, promptEnd := r.len + r.newest.toList.length + count }))) ∧
      (¬ ok → bad (.reqAppend hd idx count addr))) ∧
    (∀ root nodes, may (.reqDraft hd idx root nodes) (reqDraftForm idx root nodes s.eng) →
      (∀ j, (treeDepths nodes [0]).2 = some j → exec (.reqDraft hd idx root nodes) s = tookReply s hd .badTree j) ∧
      ((treeDepths nodes [0]).2 = none →
        (live ∨ r.state = .paused → exec (.reqDraft hd idx root nodes) s = tookOk s hd (fun e => e.modReq idx (fun r => { r with tree := some (root, nodes) }))) ∧
        (r.state = .cancelling ∨ r.state = .done → exec (.reqDraft hd idx root nodes) s = tookOk s hd id) ∧
        (r.state = .idle → bad (.reqDraft hd idx root nodes))))) ∧
  (
  ∀ (e : Engine) (q tick src reason : Nat),
    ((e.pauseReq q tick src reason).req q).state = .paused ∧ ((e.pauseReq q tick src reason).req q).pauseSrc = src ∧
    ((e.pauseReq q tick src reason).req q).tree = none ∧
    ((e.pauseReq q tick src reason).req q).prior = (if (e.req q).state = .verify then .decode else (e.req q).state) ∧
    ∀ j, j ≠ q → (e.pauseReq q tick src reason).req j = e.req j)

/-- PROMPT_FETCH (R300, R341): the tokens that have arrived follow those the request holds; a DMA that fails ends it with REASON 0xA.

HELD_PACKET_WRITE, LOSS_STORE_DRAIN and TOKEN_DELIVERY (R310, R311, R330, R334): a packet moves one place along its way, only where
the next place has room, held ones in request-table order; a packet is forwarded word by word once CT_WORDS words are present, and its
unit completes with the eighth. -/
def Obligations.PacketResults : Prop :=
  (
  ∀ (s : State) (idx : Nat), idx < 32768 →
    let r := s.eng.req idx
    let next := r.len + r.prompt.length
    let may := s.eng.sup.safeHold = false ∧ (r.state = .queued ∨ r.state = .prefill) ∧ next < r.promptEnd ∧ s.eng.linkUp (.vf r.tenant) = true
    (¬ may → ∀ x, exec (.promptFetch idx x) s = .next s) ∧
    (may → (exec (.promptFetch idx none) s = .next (withEng s (s.eng.doneReq idx s.now 0xA false))) ∧
      ∀ ts,
        let ts' := ts.take (r.promptEnd - next)
        let a := r.promptAddr + 4 * (next - r.promptBase)
        (s.eng.windowOk (.vf r.tenant) a (4 * ts'.length) false = true →
          (∀ e, s.eng.takeHem (s.eng.fnDeck (.vf r.tenant)) 0 r.part (ceilDiv (4 * ts'.length) 64) = some e →
            exec (.promptFetch idx (some ts)) s = .next (withEng s (e.modReq idx (fun x => { x with prompt := x.prompt ++ ts'.map (· % 2 ^ 32) })))) ∧
          (s.eng.takeHem (s.eng.fnDeck (.vf r.tenant)) 0 r.part (ceilDiv (4 * ts'.length) 64) = none → exec (.promptFetch idx (some ts)) s = .next s)) ∧
        (s.eng.windowOk (.vf r.tenant) a (4 * ts'.length) false = false →
          exec (.promptFetch idx (some ts)) s = .next (withEng s ((s.eng.windowEvent s.now (.vf r.tenant) a).doneReq idx s.now 0xA false))))) ∧
  (
  (∀ (s : State) (idx : Nat), idx < 32768 →
    let t := s.eng.heldBy idx
    let q := s.eng.tenant t
    let first := ∀ i ∈ s.eng.holders t ++ q.heldEnds.map (·.req), idx ≤ i
    (128 ≤ q.fifo.length ∨ ¬ first → exec (.heldPacketWrite idx) s = .next s) ∧
    (q.fifo.length < 128 → first →
      (∀ k, q.heldEnds.find? (fun k => k.req == idx) = some k → exec (.heldPacketWrite idx) s =
        .next (withEng s (s.eng.modTenant t (fun x => { x with fifo := x.fifo ++ [k], wr := none, heldEnds := x.heldEnds.erase k })))) ∧
      (∀ k r, q.heldEnds.find? (fun k => k.req == idx) = none → (s.eng.req idx).heldPkts = k :: r → exec (.heldPacketWrite idx) s =
        .next (withEng s ((s.eng.modReq idx (fun x => { x with heldPkts := r })).modTenant t (fun x => { x with fifo := x.fifo ++ [k], wr := none })))))) ∧
  (∀ (s : State) (p : Nat) (x : Nat × Nat × Nat × Nat) (r : List (Nat × Nat × Nat × Nat)), p < 32 → lossRun (s.eng.part p).losses = x :: r →
    let q := s.eng.req x.1
    let n := r.length + 1
    let rest := (s.eng.part p).losses.drop n
    let room := (s.eng.tenant q.tenant).fifo.length < 128 ∧ s.eng.holders q.tenant = [] ∧ (s.eng.tenant q.tenant).heldEnds = []
    (¬ room → exec (.lossStoreDrain p) s = .next s) ∧
    (room → ∃ k, exec (.lossStoreDrain p) s = .next (withEng s (((s.eng.modPart p (fun y => { y with losses := rest })).modReq x.1
        (fun y => { y with outCnt := (y.outCnt + n) % 2 ^ 32 })).modTenant q.tenant (fun y => { y with fifo := y.fifo ++ [k], wr := none }))) ∧
      k.kind = 1 ∧ k.len = x.2.1 ∧ k.tokens = (x :: r).map (fun y => y.2.2.1) ∧ k.req = x.1 ∧ k.count = n ∧ k.tick = x.2.2.2 ∧
      k.tenant = q.tenant ∧ k.rtag = q.rtag ∧ k.outCnt = (q.outCnt + n) % 2 ^ 32 ∧
      k.fin = (q.state == .done && q.reason == 7 && !rest.any (fun y => y.1 == x.1)) ∧ k.reason = if k.fin then 7 else 0)) ∧
  ∀ (s : State) (t words : Nat) (par : Parity) (k : TokenPacket) (r : List TokenPacket), t < 256 → (s.eng.tenant t).fifo = k :: r →
    let x := s.eng.tenant t
    let ring := (s.eng.fn (.vf t)).ring 2
    let a := ring.base.toNat + 64 * (ring.ptr % ring.units)
    let n := if r = [] then min 8 (max words x.fwd) else 8
    (s.eng.sup.safeHold = true ∨ s.eng.ringReady (.vf t) 2 = false → exec (.tokenDelivery t par words) s = .next s) ∧
    (s.eng.sup.safeHold = false → s.eng.ringReady (.vf t) 2 = true →
      (s.eng.windowOk (.vf t) a 64 true = false → exec (.tokenDelivery t par words) s = .next (withEng s (s.eng.windowEvent s.now (.vf t) a))) ∧
      (s.eng.windowOk (.vf t) a 64 true = true →
        (n = 8 → exec (.tokenDelivery t par words) s = .next (withEng s
          (((s.eng.modTenant t (fun x => { x with fifo := r, fwd := 0, wr := if r = [] then none else x.wr })).toRing s.now (.vf t) 2 3
            (natBytes k.word 64) par).delivered k))) ∧
        (n < 8 → (n < ring.ctWords ∨ n ≤ x.fwd) →
          exec (.tokenDelivery t par words) s = .next (withEng s (s.eng.modTenant t (fun x => { x with wr := some n })))) ∧
        (n < 8 → ring.ctWords ≤ n → x.fwd < n → exec (.tokenDelivery t par words) s = .next (withEng s
          (((s.eng.modTenant t (fun x => { x with wr := some n })).modTenant t (fun x => { x with fwd := n })).dma (.vf t) (a + 8 * x.fwd)
            (((natBytes k.word 64).take (8 * n)).drop (8 * x.fwd))))))))

/-- STATUS_DELIVERY and MSIX_COALESCE_TIMEOUT (R330, R338): the oldest reply goes to the ring's next unit with its write-back record;
the vector fires COAL_US after the first completion not yet signalled, and not before.

COMMAND_FETCH, DOORBELL and RING_CFG_ENABLE (R328, R329, R331): what the rings take and what they turn away. -/
def Obligations.RingResults : Prop :=
  (
  (∀ (s : State) (f : Fn) (par : Parity) (k : Reply) (r : List Reply), fnOk f = true → (s.eng.fn f).status = k :: r →
    let ring := (s.eng.fn f).ring 1
    let a := ring.base.toNat + 16 * (ring.ptr % ring.units)
    (s.eng.ringReady f 1 = false → exec (.statusDelivery f par) s = .next s) ∧
    (s.eng.ringReady f 1 = true → s.eng.windowOk f a 16 true = false → exec (.statusDelivery f par) s = .next (withEng s (s.eng.windowEvent s.now f a))) ∧
    (s.eng.ringReady f 1 = true → s.eng.windowOk f a 16 true = true → exec (.statusDelivery f par) s = .next (withEng s
      (((s.eng.modFn f (fun x => { x with status := r ++ x.waitStatus.take 1, waitStatus := x.waitStatus.drop 1 })).toRing s.now f 1 2
        (natBytes (pack [(64, k.tick), (32, k.detail), (16, k.status), (16, k.tag)]) 16) par).intakeMoves s.now f)))) ∧
  ∀ (s : State) (f : Fn) (q : Nat), fnOk f = true →
    let r := (s.eng.fn f).ring q
    r.irq = true → r.since ≠ 0 → r.coalUs ≠ 0 →
    (r.firstAt + r.coalUs ≤ s.now → exec (.msixCoalesceTimeout f q) s = .next (withEng s (s.eng.fire f q))) ∧
    (s.now < r.firstAt + r.coalUs → exec (.msixCoalesceTimeout f q) s = .next s)) ∧
  (
  (∀ (s : State) (f : Fn) (k : RawPacket), fnOk f = true →
    let r := (s.eng.fn f).ring 0
    let len := if k.headerBad then 64 else 16 + fld (bytesAt k.bytes 0 8) 43 32
    let n := packetUnits len
    let avail := (r.host + r.modulus - r.ptr) % r.modulus
    let ready := s.eng.linkUp f = true ∧ r.enabled = true ∧ 0 < avail ∧ n ≤ avail ∧ s.eng.intakeRoom f n = true
    let window := s.eng.windowOk f r.base.toNat (64 * r.units) false
    (¬ ready → exec (.commandFetch f k) s = .next s) ∧
    (ready → window = false → exec (.commandFetch f k) s = .next (withEng s (s.eng.windowEvent s.now f r.base.toNat))) ∧
    (ready → window = true → exec (.commandFetch f k) s = .next (withEng s
      (((((s.eng.packetIn s.now f r.ptr { k with bytes := k.bytes.take len }).modRing f 0 (fun r => { r with ptr := (r.ptr + n) % r.modulus })).modFn f
        (fun x => { x with dwBefore := x.dwBefore - n })).completed s.now f 0 1).dwTry s.now f)))) ∧
  (∀ (s : State) (f : Fn) (q : Nat) (v : Word), fnOk f = true → (s.eng.fnPort f).isSome = true →
    let r := (s.eng.fn f).ring q
    let x := v.toNat % 2 ^ 17
    let ok := x < r.modulus ∧ (if q = 0 then (x + r.modulus - r.ptr) % r.modulus ≤ r.units else (x + r.modulus - r.host) % r.modulus ≤ r.used)
    (hasRing f q = false → exec (.doorbell f q v) s = .next s) ∧
    (hasRing f q = true → ok → exec (.doorbell f q v) s = .next (withEng s (s.eng.modRing f q (fun r => { r with host := x })))) ∧
    (hasRing f q = true → ¬ ok → exec (.doorbell f q v) s = .next (withEng s (s.eng.modRing f q (fun r => { r with drops := min 0xFFFF (r.drops + 1) }))))) ∧
  ∀ (s : State) (f : Fn) (q : Nat) (v : Word), fnOk f = true → (s.eng.fnPort f).isSome = true →
    let r := (s.eng.fn f).ring q
    let c := r.configure q v.toNat
    let units : Nat := 2 ^ fld (BitVec.ofNat 64 c).toNat 60 56
    let windows := s.eng.windowOk f r.base.toNat (unitBytes q * units) (q != 0) && s.eng.windowOk f r.wbAddr.toNat 16 true
    let written (e : Engine) (x : Ring) : State := withEng s ((e.modRing f q (fun _ => x)).dwTry s.now f)
    let cleared : Engine := match f, q with
      | _, 0 => s.eng.modFn f (fun x => { x with dwBefore := 0 })
      | .vf t, 2 => s.eng.modTenant t (fun x => { x with fwd := 0 })
      | _, _ => s.eng
    (hasRing f q = false → exec (.ringCfgEnable f q v) s = .next s) ∧
    (hasRing f q = true →
      (bitAt v.toNat 63 = true → windows = true → exec (.ringCfgEnable f q v) s = .next (written cleared
        { r with cfg := BitVec.ofNat 64 (setFld (setFld c 63 63 1) 61 61 0), ptr := 0, host := 0 })) ∧
      (bitAt v.toNat 63 = true → windows = false → exec (.ringCfgEnable f q v) s = .next (written cleared
        { r with cfg := BitVec.ofNat 64 (setFld (setFld c 63 63 0) 61 61 1) })) ∧
      (bitAt v.toNat 63 = false → exec (.ringCfgEnable f q v) s = .next (written cleared { r with cfg := BitVec.ofNat 64 (setFld c 63 63 0) }))))

/-- DW_DATA_WRITE and DW_LAUNCH (R326, R337): bytes gather in the buffer unless it is BUSY; a launch enters intake after the CMD packets
published before it and once there is room, and BUSY stands until then. -/
def Obligations.DirectWindowResults : Prop :=
  ∀ (s : State) (f : Fn), fnOk f = true → (s.eng.fnPort f).isSome = true →
    let x := s.eng.fn f
    (∀ off bytes,
      let fits := ([4, 8, 16, 32, 64] : List Nat).contains bytes.length = true ∧ off % bytes.length = 0 ∧ off + bytes.length ≤ 4096
      (fits → x.dwBusy = false → ∃ t, exec (.dwDataWrite f off bytes) s = .next t ∧
        t = withEng s { s.eng with fns := t.eng.fns } ∧ (∀ g, fnKey g ≠ fnKey f → t.eng.fn g = s.eng.fn g) ∧
        { t.eng.fn f with dw := x.dw } = x ∧
        (∀ k < bytes.length, readByte (t.eng.fn f).dw (off + k) = bytes.getD k 0) ∧
        (∀ b, b < off ∨ off + bytes.length ≤ b → readByte (t.eng.fn f).dw b = readByte x.dw b)) ∧
      (fits → x.dwBusy = true → exec (.dwDataWrite f off bytes) s = .next (withEng s (s.eng.modFn f FnState.dwDrop))) ∧
      (¬ fits → exec (.dwDataWrite f off bytes) s = .next s)) ∧
    (∀ (v : Word) (wb hb : Bool),
      let n := v.toNat % 2 ^ 13
      let e := s.eng.modFn f (fun x => { x with dwBusy := true, dwCount := n, dwBefore := x.published, dwWordBad := wb, dwHeaderBad := hb })
      (x.dwBusy = true → exec (.dwLaunch f v wb hb) s = .next (withEng s (s.eng.modFn f FnState.dwDrop))) ∧
      (x.dwBusy = false → (n < 16 ∨ 4096 < n) → exec (.dwLaunch f v wb hb) s = .next s) ∧
      (x.dwBusy = false → 16 ≤ n → n ≤ 4096 →
        (x.published = 0 → s.eng.intakeRoom f (packetUnits n) = true → exec (.dwLaunch f v wb hb) s = .next (withEng s
          ((e.modFn f (fun x => { x with dwBusy := false })).packetIn s.now f 0 { bytes := readBytes x.dw 0 n, wordBad := wb, headerBad := hb }))) ∧
        ((x.published ≠ 0 ∨ s.eng.intakeRoom f (packetUnits n) = false) → exec (.dwLaunch f v wb hb) s = .next (withEng s e))))

/-- Ledger registers and read-clear counters (R14, R336): a head read latches the oldest entry, an acknowledge of its sequence number
retires it and any other number leaves it; a read-clear counter answers with what it holds and clears. The value of a head read of an empty
ledger is a free value (log entry 147).

VF_ASSIGN_WRITE, REGISTER_WRITE and SP_REGION_WRITE (R14, R15, R161 to R163, R323, R328, R340): the registers with no behaviour of their
own keep what is written; an enabled ring keeps its base; a region entry that breaks R162 keeps its value, and the granules whose region or
class changes are zero-filled. That REGISTER_WRITE reaches VF Enable at `sriovControl` is the model's choice (log entry 14). -/
def Obligations.RegisterResults : Prop :=
  (
  ∀ (s : State) (port d : Nat), port < 8 → d < 2 →
    let l := (s.eng.deck d).ledger
    (∀ (x : LedgerEntry) (r : List LedgerEntry), l.entries = x :: r →
      (∀ poison, exec (.ledgerHeadRead port d poison) s = .next (withEng s
        ((s.eng.modDeck d (fun k => { k with ledger := { k.ledger with latched := some x, poison := poison } })).send (.read x.seq)))) ∧
      (∀ v : Word, v.toNat % 2 ^ 32 = x.seq → exec (.ledgerAck port d v) s =
        .next (withEng s (s.eng.modDeck d (fun k => { k with ledger := { k.ledger with entries := r } })))) ∧
      (∀ v : Word, v.toNat % 2 ^ 32 ≠ x.seq → exec (.ledgerAck port d v) s = .next (withEng s (s.eng.modDeck d id)))) ∧
    (l.entries = [] → ∀ poison, ∃ v, exec (.ledgerHeadRead port d poison) s =
      .next (withEng s (({ s.eng with freeCtr := s.eng.freeCtr + 1 } : Engine).send (.read v)))) ∧
    (∀ hw, exec (.rcCounterRead (.lost port d) hw) s = .next (withEng s
      ((s.eng.modDeck d (fun k => { k with ledger := { k.ledger with lost := if hw then 1 else 0 } })).send (.read (l.lost % 2 ^ 32 * 2 ^ 32 + l.entries.length % 2 ^ 13))))) ∧
    (exec (.rcCounterRead (.fab d) false) s = .next (withEng s ((s.eng.modDeck d (fun k => { k with fab := [] })).send (.read (quad (s.eng.deck d).fab))))) ∧
    (exec (.rcCounterRead (.disp d) false) s = .next (withEng s ((s.eng.modDeck d (fun k => { k with disp := [] })).send (.read (quad (s.eng.deck d).disp))))) ∧
    (exec (.rcCounterRead (.disp d) true) s = .next (withEng s
      ((s.eng.modDeck d (fun k => { k with disp := [(0, 1), (1, 1), (2, 1), (3, 1)] })).send (.read (quad (s.eng.deck d).disp))))) ∧
    (∀ f, fnOk f = true → ∀ hw, exec (.rcCounterRead (.drops f) hw) s = .next (withEng s
      ((s.eng.modFn f (fun x => { x with dwDrops := if hw then 1 else 0 })).send (.read (s.eng.fn f).dwState))))) ∧
  (
  (∀ (s : State) (port t : Nat) (v : Word), port < 8 → t < 256 →
    let old := s.eng.vfWord t % 8
    let new := v.toNat % 8
    ((s.eng.hport old).vfEnable = false → (s.eng.hport new).vfEnable = false →
      ∃ u, exec (.vfAssignWrite port t v) s = .next u ∧ u = withEng s { s.eng with vfAssign := u.eng.vfAssign } ∧
        u.eng.vfWord t = new + 128 * (v.toNat / 128 % 2) ∧ ∀ k, k ≠ t → u.eng.vfWord k = s.eng.vfWord k) ∧
    (((s.eng.hport old).vfEnable || (s.eng.hport new).vfEnable) = true → exec (.vfAssignWrite port t v) s = .next s)) ∧
  (∀ (s : State) (k : Nat) (v : Word), k < 8 →
    (∀ q < 2, exec (.registerWrite (.pf k) (0x100 + 0x40 * q) v) s = .next (withEng s (s.eng.modRing (.pf k) q (fun r =>
      if r.enabled then r else { r with base := BitVec.ofNat 64 (v.toNat / 4096 * 4096) })))) ∧
    (∀ q < 2, exec (.registerWrite (.pf k) (0x110 + 0x40 * q) v) s = .next (withEng s (s.eng.modRing (.pf k) q (fun r =>
      if r.enabled then r else { r with wbAddr := BitVec.ofNat 64 (v.toNat / 16 * 16) })))) ∧
    (∀ d < 2, let n := v.toNat % 2 ^ 13
      (1 ≤ n → n ≤ 4096 → exec (.registerWrite (.pf k) (0x30048 + 0x1000 * d) v) s = .next (withEng s (s.eng.modDeck d (fun x => { x with thresh := n })))) ∧
      ((n = 0 ∨ 4096 < n) → exec (.registerWrite (.pf k) (0x30048 + 0x1000 * d) v) s = .next s)) ∧
    (∀ t < 256, ∀ off, off < 128 → off % 8 = 0 → (s.eng.vfWord t).testBit 7 = true → s.eng.vfWord t % 8 = k →
      exec (.registerWrite (.pf k) (0x20000 + 128 * t + off) v) s = .next (withEng s (writeWindow s.eng (.vf t) (off / 16) (off % 16 == 8) v))) ∧
    exec (.registerWrite (.pf k) sriovControl v) s = .next (withEng s (s.eng.modHport k (fun h => { h with vfEnable := v.toNat.testBit 0 }))) ∧
    (∀ off, off % 8 ≠ 0 → exec (.registerWrite (.pf k) off v) s = .next s)) ∧
  (∀ (e : Engine) (f : Fn) (off now : Nat),
    (e.fnPort f = none → e.registerRead f off now = none) ∧
    ((e.fnPort f).isSome = true → (off % 8 ≠ 0 → e.registerRead f off now = some 0) ∧ e.registerRead f 0x10 now = some now ∧
      e.registerRead f 0x2800 now = some (e.fn f).pba ∧ e.registerRead f 0x118 now = some ((e.fn f).ring 0).ptr ∧
      e.registerRead f 0x5008 now = some (e.fn f).dwState ∧ e.registerRead f 0x1000 now = some 0)) ∧
  ∀ (s : State) (u : Loc) (n : Nat) (v : Word), locOk u = true → n < 64 →
    let ti := s.eng.tile u
    let w := regWritten (ti.reg n) v
    let moved (g : Nat) : Prop := g < 480 ∧ (regHas (ti.reg n) g ≠ regHas w g ∨ (regHas w g = true ∧ regW (ti.reg n) ≠ regW w))
    (w.toNat % 2 ^ 32 = 0) ∧
    (ti.inst = [] → ti.regionOk n w = true → ∃ t, exec (.spRegionWrite u n v) s = .next t ∧ OnlyTile s t u ∧
      { t.eng.tile u with region := ti.region, sp := ti.sp, badWords := ti.badWords } = ti ∧
      (∀ m, (t.eng.tile u).reg m = if m = n then w else ti.reg m) ∧
      (∀ a, moved (a / 4096) → readByte (t.eng.tile u).sp a = 0) ∧
      (∀ a, ¬ moved (a / 4096) → readByte (t.eng.tile u).sp a = readByte ti.sp a) ∧
      ∀ k, k ∈ (t.eng.tile u).badWords ↔ k ∈ ti.badWords ∧ ¬ moved (k / 512)) ∧
    ((ti.inst ≠ [] ∨ ti.regionOk n w = false) → exec (.spRegionWrite u n v) s = .next (withEng s (s.eng.modTile u id))))

/-- FLR and HOT_RESET (R324, R486): a VF's token and status FIFOs empty, its rings are disabled and its requests are cancelled without an
end packet; a PF's rings, direct window and commands not yet executed are gone, and those scheduled apply without a reply; a hot reset does
it for every function of the port.

PCIE_LINK_DOWN and PCIE_LINK_UP (R325, R394): a link goes down with its event; DMA writes wait and go out, oldest first, when it
comes up again; a link that is already in the state asked for changes nothing. -/
def Obligations.FunctionResets : Prop :=
  (
  (∀ (s : State) (t : Nat), t < 256 → mwf (fun _ => ({} : Request)) s.eng.reqs = true →
    let e := s.eng.abortActs (.vf t) s.now
    let mine (i : Nat) : Prop := (s.eng.req i).tenant = t ∧ (s.eng.req i).state ≠ .idle
    ∃ u, exec (.flr (.vf t)) s = .next u ∧
      u = withEng s { e with decks := u.eng.decks, fns := u.eng.fns, reqs := u.eng.reqs, tenants := u.eng.tenants, parts := u.eng.parts, tiles := u.eng.tiles } ∧
      (∀ d, u.eng.deck d = if d < 2 then (e.deck d).withdraw (.vf t) else e.deck d) ∧
      (∀ g, fnKey g ≠ fnKey (.vf t) → u.eng.fn g = e.fn g) ∧
      u.eng.fn (.vf t) = { e.fn (.vf t) with
        rings := (e.fn (.vf t)).rings.map (fun y => (y.1, { y.2 with cfg := BitVec.ofNat 64 (setFld y.2.cfg.toNat 63 63 0), since := 0 }))
        status := [], waitStatus := [], opened := 0, dwBusy := false, dwBefore := 0 } ∧
      (∀ k, u.eng.tenant k = if k = t then { e.tenant t with fifo := [], wr := none, fwd := 0, heldEnds := [] } else e.tenant k) ∧
      (∀ i, (¬ mine i → u.eng.req i = s.eng.req i) ∧ (mine i → (s.eng.req i).state = .done → u.eng.req i = {}) ∧
        (mine i → (s.eng.req i).state ≠ .done → u.eng.req i = { s.eng.req i with
          state := .cancelling, pauseReq := false, resumeReq := false, tree := none, heldPkts := [], outCnt := (s.eng.req i).delivered, silentEnd := true })) ∧
      (∀ p, (∀ i, mine i → (s.eng.req i).part ≠ p) → u.eng.part p = e.part p) ∧
      ∀ v, locOk v = true → (∀ i, mine i → (s.eng.req i).state = .done → (s.eng.part (s.eng.req i).part).fields.testBit v.field = false) →
        u.eng.tile v = s.eng.tile v) ∧
  (∀ (s : State) (k : Nat), k < 8 → ∃ u, exec (.flr (.pf k)) s = .next u ∧
    u = withEng s (((((s.eng.modDeck 0 (fun d => d.withdraw (.pf k))).modDeck 1 (fun d => d.withdraw (.pf k))).modFn (.pf k) (fun x =>
      { x with rings := [], dw := [], dwBusy := false, dwBefore := 0, opened := 0 })).dropCapture (.pf k)).muteScheduled (.pf k)) ∧
    (u.eng.fn (.pf k)).rings = [] ∧ (u.eng.fn (.pf k)).dwBusy = false ∧ (u.eng.fn (.pf k)).opened = 0 ∧
    (u.eng.fn (.pf k)).status = (s.eng.fn (.pf k)).status ∧ u.eng.reqs = s.eng.reqs ∧ u.eng.tenants = s.eng.tenants ∧ u.eng.tiles = s.eng.tiles ∧
    (∀ x ∈ u.eng.snaps, x.hd.fn = .pf k → x.capturing = false ∧ x.hd.muted = true) ∧
    ∀ d < 2, (∀ x ∈ (u.eng.deck d).intake, x.fn ≠ .pf k) ∧ (u.eng.deck d).sched = (s.eng.deck d).sched.map (fun x => { x with hd := muteFor (.pf k) x.hd })) ∧
  ∀ (s : State) (k : Nat), k < 8 → ∃ u, exec (.hotReset k) s = .next u ∧
    u = withEng s (((List.range 256).filterMap (fun i => s.eng.vfNumber k (i + 1))).foldl (fun e f => flrOf f s.now e) (flrOf (.pf k) s.now s.eng)) ∧
    (u.eng.fn (.pf k)).rings = [] ∧
    ((s.eng.hport k).vfEnable = true → ∀ t < 256, s.eng.vfWord t % 8 = k → bitAt (s.eng.vfWord t) 7 = true →
      (u.eng.tenant t).fifo = [] ∧ (u.eng.fn (.vf t)).status = [])) ∧
  (
  ∀ (s : State) (p : Nat), p < 8 →
    ((s.eng.hport p).up = true → (∀ x ∈ s.eng.snaps, x.capturing = false ∨ s.eng.fnPort x.hd.fn ≠ some p) → exec (.pcieLinkDown p) s =
      .next (withEng s ((s.eng.modHport p (fun h => { h with up := false })).event s.now (p / 4) { code := 0x0501, arg0 := (s.eng.hport p).stat, arg1 := p }))) ∧
    ((s.eng.hport p).up = false → exec (.pcieLinkDown p) s = .next s) ∧
    (∀ rate width,
      let may := (s.eng.hport p).up = false ∧ (s.eng.hport p).enable = true ∧ 4 ≤ s.eng.power.stage
      let w := (s.eng.hport p).waiting
      (¬ may → exec (.pcieLinkUp p rate width) s = .next s) ∧
      (may → ∃ t, exec (.pcieLinkUp p rate width) s = .next t ∧
        t = withEng s ((.pf p :: (List.range 256).filterMap (fun k => s.eng.vfNumber p (k + 1))).foldl (fun e f => (List.range 5).foldl (fun e v => e.pendingMsix f v) e)
          (w.foldl (fun e x => e.dma x.1 x.2.1 x.2.2)
            (s.eng.modHport p (fun h => { h with up := true, rate := rate % 16, width := width % 32, waiting := [] })))) ∧
        (t.eng.hport p).up = true ∧ (t.eng.hport p).waiting = [] ∧ (t.eng.hport p).rate = rate % 16 ∧ (t.eng.hport p).width = width % 32 ∧
        ((∀ x ∈ w, s.eng.fnPort x.1 = some p ∧ s.eng.windowOk x.1 x.2.1 x.2.2.length true = true) → (∀ f, (s.eng.fn f).pba = 0) →
          t.eng.out = (w.reverse.map (fun x => Sent.dma x.1 x.2.1 x.2.2)) ++ s.eng.out))))

/-- SCHEDULED_COMMAND_APPLY and SCHED_WITHDRAW (R33, R345): a held command whose tick and boundary have come leaves the table and has
the effect it would have had at intake; before that nothing happens; a withdrawn one is answered 0x030A, and one whose commit other
engines have been promised is no longer pending (the model's choice, log entry 145).

A packet that reaches intake waits there with its place in intake order (R344), and is answered when it is malformed (R343). A command that
fails a check of intake (R343, R347): the reply that names the check and the place, no effect but that reply and the window's event; a
command that the engine cannot execute now is answered so (R391, R448); one with a tick of the future is held (R345). Stated for
REQ_CANCEL, PART_PAUSE and GRAPH_QUERY, a command of each kind of form. -/
def Obligations.IntakeResults : Prop :=
  (
  (∀ (s : State) (d i : Nat) (x : Held), d < 2 → (s.eng.deck d).sched[i]? = some x →
    let h : Hdr := { x.hd with tick := 0 }
    let e := s.eng.unhold d x
    (s.eng.heldDue s.now d x = false → ∀ wb hb, exec (.scheduledCommandApply d i wb hb) s = .next s) ∧
    (s.eng.heldDue s.now d x = true →
      (∀ hb, exec (.scheduledCommandApply d i true hb) s = .next (withEng s (e.reply s.now { h with tag := if hb then 0xFFFF else h.tag } .poisoned x.ptr))) ∧
      ∀ f run, hostEffect x.cmd = some (f, run) →
        let down := (e.sup.safeHold && !(f e).safeHold) || (e.deck d).ctl.heldReset
        let bad := (f e).addrs.find? (fun a => !e.windowOk a.fn a.addr a.bytes a.write)
        (down = true → exec (.scheduledCommandApply d i false false) s = .next (withEng s (e.reply s.now h .deckDown d))) ∧
        (∀ a, down = false → bad = some a → h.muted = false → exec (.scheduledCommandApply d i false false) s =
          .next (withEng s ((e.windowEvent s.now h.fn a.addr).reply s.now h .dmaWindow a.off))) ∧
        (down = false → bad = none → h.fw = none → ((f e).reads = false ∨ h.cpl = 0) → exec (.scheduledCommandApply d i false false) s =
          .next (withEng s (run h x.accepted s.now e))))) ∧
  ∀ (s : State) (hd : Hdr) (tag : Nat), goes s hd (.schedWithdraw hd tag) (schedWithdrawForm tag s.eng) = true →
    let e := taken s hd
    (e.heldWith hd.fn tag = none → exec (.schedWithdraw hd tag) s = tookReply s hd .notPending 0) ∧
    (∀ d x, e.heldWith hd.fn tag = some (d, x) →
      (x.own = false → x.act = none → exec (.schedWithdraw hd tag) s =
        tookOk s hd (fun e => (e.unhold d x).reply s.now x.hd .withdrawn 0)) ∧
      (∀ a, x.own = false → x.act = some a → a.decision.isSome = true → exec (.schedWithdraw hd tag) s = tookReply s hd .notPending 0) ∧
      (∀ a, x.own = false → x.act = some a → a.decision = none → exec (.schedWithdraw hd tag) s =
        tookOk s hd (fun e => ((e.decideAct s.now (x.parts.headD 0) a false).unhold d x).reply s.now x.hd .withdrawn 0)) ∧
      (∀ e', x.own = true → e.withdrawOwn s.now x = some e' → exec (.schedWithdraw hd tag) s =
        tookOk s hd (fun _ => e'.reply s.now x.hd .withdrawn 0)) ∧
      (x.own = true → e.withdrawOwn s.now x = none → exec (.schedWithdraw hd tag) s = tookReply s hd .notPending 0))) ∧
  (∀ (e : Engine) (now ptr : Nat) (f : Fn) (k : RawPacket), e.waitingOf f = [] →
    let x : Intake := { fn := f, bytes := k.bytes, ptr := ptr, turn := { tick := now, deck := e.fnDeck f, seq := e.order }, wordBad := k.wordBad, headerBad := k.headerBad }
    let e' := (({ e with order := e.order + 1 } : Engine).copyCap x.cap).modDeck (e.fnDeck f) (fun d => { d with intake := d.intake ++ [x] })
    (packetCheck x = none → e.packetIn now f ptr k = e') ∧
    (∀ c d, packetCheck x = some (c, d) → (e.fn f).status.length < 64 → e.restarting f = false →
      e.packetIn now f ptr k = ((e'.leaveIntake x).openOne f).reply now { fn := f, tag := x.tag } c d)) ∧
  (
  ∀ (s : State) (hd : Hdr), ∀ p ∈ ([(.reqCancel hd 5, reqForm 0x0106 5 s.eng), (.partPause hd, partPauseForm hd s.eng),
      (.graphQuery hd 3 64, graphQueryForm hd 3 64 s.eng)] : List (Instr × Form)),
    let e := taken s hd
    let h := placed s hd
    let ptr := match first s hd with | some x => x.ptr | none => (s.eng.fn hd.fn).cmdPtr
    (fnOk hd.fn = true → arrives s hd p.1 p.2 = false → exec p.1 s = .next s) ∧
    (arrives s hd p.1 p.2 = true →
      (∀ c d, p.2.check e s.now h = some (c, d, none) → exec p.1 s = took s hd (fun e => e.reply s.now h c d)) ∧
      (∀ c d a, p.2.check e s.now h = some (c, d, some a) → exec p.1 s = took s hd (fun e => (e.windowEvent s.now hd.fn a).reply s.now h c d)) ∧
      (p.2.check e s.now h = none → ∀ c d, e.refuses p.2 hd.fn = some (c, d) → exec p.1 s = took s hd (fun e => e.reply s.now h c d)) ∧
      (p.2.check e s.now h = none → e.refuses p.2 hd.fn = none → ∀ d, e.twinRefuses p.2 h = some d →
        exec p.1 s = took s hd (fun e => e.reply s.now h .partState d))) ∧
    (accepted s hd p.1 p.2 = true → e.sharedWith p.2 h = none → s.now < hd.tick →
      (1024 ≤ (e.deck (e.fnDeck hd.fn)).scheduled → exec p.1 s = took s hd (fun e => e.reply s.now h .scheduleFull 0)) ∧
      ((e.deck (e.fnDeck hd.fn)).scheduled < 1024 → exec p.1 s = took s hd (fun e =>
        (cond (decide (s.now + 100 < hd.tick)) (fun e => e.reply s.now h .accepted 0) e).hold
          { hd := h, cmd := p.1, ptr := ptr, accepted := decide (s.now + 100 < hd.tick), parts := p.2.boundary ++ p.2.later }))))

/-- Binding field sets, images and tenants (R316 to R320): a set whose fields are free makes a bound partition REBINDING, and a FREE one
binds without leaving FREE; an image and a graph that match are bound and every RETAIN = 0 region is zero-filled; the refusals answer with
the code they name.

FIELD_SET_REBIND_STAGE (R320): the stages of a re-binding in their order, each only when its own condition holds. -/
def Obligations.BindingCommands : Prop :=
  (
  ∀ (s : State) (hd : Hdr),
    let e := taken s hd
    (∀ fields img, goes s hd (.partBindFields hd fields img) (partBindFieldsForm hd fields img s.eng) = true →
      (∀ k ∈ setBits fields 96, (e.deck (deckOf k)).latchedOff = false) →
      let free := (e.part hd.part).rebind = none ∧ (hd.force = true ∨ e.reqsWhere (fun r => r.part == hd.part && r.holds) = []) ∧ e.sessionOn fields = false
      (¬ free → exec (.partBindFields hd fields img) s = tookReply s hd .partState (partCode (e.part hd.part).state)) ∧
      (free →
        (∀ k, e.fieldTaken hd.part fields = some k → exec (.partBindFields hd fields img) s = tookReply s hd .fieldInUse k) ∧
        (∀ c d, e.fieldTaken hd.part fields = none → fields ≠ 0 → e.bindRefused hd.part fields img = some (c, d) →
          exec (.partBindFields hd fields img) s = tookReply s hd c d) ∧
        (e.fieldTaken hd.part fields = none → (fields = 0 ∨ e.bindRefused hd.part fields img = none) →
          exec (.partBindFields hd fields img) s = took s hd (fun e => (e.reply s.now (due s hd) .accepted 0).modPart hd.part (fun q =>
            { q with state := if q.state = .free then .free else .rebinding,
                     rebind := some { old := q.fields, fields := fields, image := img, stage := .drain, hd := due s hd } }))))) ∧
    (∀ img, goes s hd (.partBindImage hd img) (partBindImageForm hd img s.eng) = true →
      ((e.part hd.part).rebind.isSome = true → exec (.partBindImage hd img) s = tookReply s hd .partState (partCode (e.part hd.part).state)) ∧
      ((e.part hd.part).rebind = none →
        (e.bindRefused hd.part (e.part hd.part).fields img = none →
          exec (.partBindImage hd img) s = tookOk s hd (fun e => (e.bindImage hd.part img s.now).zeroRegions hd.part)) ∧
        (∀ c d, e.bindRefused hd.part (e.part hd.part).fields img = some (c, d) → exec (.partBindImage hd img) s = tookReply s hd c d))) ∧
    (∀ t, goes s hd (.tenantBind hd t) (tenantBindForm hd t s.eng) = true →
      let none' := e.reqsWhere (fun r => r.tenant == t && r.holds) = []
      (¬ none' → hd.force = false → exec (.tenantBind hd t) s = took s hd (fun e =>
        (e.modTenant t (fun q => { q with nextPart := none })).reply s.now (due s hd) .tenantState 0)) ∧
      (none' ∨ hd.force = true → exec (.tenantBind hd t) s = tookOk s hd (fun e =>
        let q := e.tenant t
        let e := e.endWhere s.now 8 (fun r => r.tenant == t && r.holds)
        let e := (e.reqsWhere (fun r => r.tenant == t && r.state == .queued)).foldl (fun e k => e.modReq k (fun r => { r with part := hd.part })) e
        (if q.bound then [q.part, hd.part].eraseDups else [hd.part]).foldl (fun e p => if hd.keepAdapt then e.zeroRegions p else (e.zeroRegions p).zeroAdapter p)
          (e.modTenant t (fun q => { q with part := hd.part, bound := true, deficit := 0, nextPart := none })))) ∧
      (none' → mwf (fun _ => ({} : Request)) s.eng.reqs = true →
        ∃ u, exec (.tenantBind hd t) s = .next u ∧ (u.eng.tenant t).part = hd.part ∧ (u.eng.tenant t).bound = true ∧
          (u.eng.tenant t).deficit = 0 ∧ (∀ k, k ≠ t → u.eng.tenant k = s.eng.tenant k) ∧
          ∀ i, u.eng.req i = if (s.eng.req i).tenant = t ∧ (s.eng.req i).state = .queued then { s.eng.req i with part := hd.part } else s.eng.req i))) ∧
  (
  ∀ (s : State) (p : Nat) (r : Rebind), p < 32 → (s.eng.part p).rebind = some r →
    let into (g : RebindStage) (e : Engine) : Outcome := .next (withEng s (e.modPart p (fun q => { q with rebind := some { r with stage := g } })))
    (r.stage = .drain → (s.eng.atBoundary [p] = true → exec (.fieldSetRebindStage p) s = into .kvRelease (s.eng.drain p s.now r.hd.force)) ∧
      (s.eng.atBoundary [p] = false → exec (.fieldSetRebindStage p) s = .next s)) ∧
    (r.stage = .kvRelease → (s.eng.zeroing p = false → exec (.fieldSetRebindStage p) s = into .route s.eng) ∧
      (s.eng.zeroing p = true → exec (.fieldSetRebindStage p) s = .next s)) ∧
    (r.stage = .route → exec (.fieldSetRebindStage p) s = into .fill ((s.eng.unbind p).modPart p (fun q => { q with fields := r.fields }))) ∧
    (r.stage = .fill → exec (.fieldSetRebindStage p) s = into .journal ((s.eng.zeroLeft p (r.old - (r.old &&& r.fields))).zeroRegions p)) ∧
    (r.stage = .journal → r.fields = 0 → exec (.fieldSetRebindStage p) s = .next (withEng s (((s.eng.modPart p (fun q =>
      { q with rebind := none, state := .free, causes := [] })).commitPart p).okReply s.now r.hd))) ∧
    (r.stage = .journal → r.fields ≠ 0 →
      let e := s.eng.modPart p (fun q => { q with rebind := none, state := .idle, causes := [] })
      let paused (e' : Engine) : Engine := ((e.bindCauses r.fields).foldl (fun e c => e.pausePart p s.now c) e').commitPart p
      (e.bindRefused p r.fields r.image = none → exec (.fieldSetRebindStage p) s = .next (withEng s ((paused (e.bindImage p r.image s.now)).okReply s.now r.hd))) ∧
      ∀ c d, e.bindRefused p r.fields r.image = some (c, d) → exec (.fieldSetRebindStage p) s = .next (withEng s ((paused e).reply s.now r.hd c d))))

/-- PART_PAUSE, PART_RESUME, PART_RESET, TENANT_SET (R302, R315, R457): the states and the fields that each writes.

HEM_SET, KV_RESERVE and PART_MODE (R225, R227, R262, R372): a rate that the segment's capacity holds is written and one it does not
hold is answered with what is left; a reserve region registers with its cache; a mode change is prepared with every participant, and decided
at once where the engine is alone with it. -/
def Obligations.PartitionCommands : Prop :=
  (
  ∀ (s : State) (hd : Hdr),
    let e := taken s hd
    let st := (e.part hd.part).state
    (goes s hd (.partPause hd) (partPauseForm hd s.eng) = true →
      ((st = .idle ∨ st = .stepping ∨ st = .held) → exec (.partPause hd) s = tookOk s hd (fun e => e.pausePart hd.part s.now .host)) ∧
      (st = .paused → exec (.partPause hd) s = tookOk s hd id) ∧
      ((st = .free ∨ st = .rebinding) → exec (.partPause hd) s = tookReply s hd .partState (partCode st))) ∧
    (goes s hd (.partResume hd) (partResumeForm hd s.eng) = true →
      (e.resumeRefused hd.part = none → st = .paused → exec (.partResume hd) s = tookOk s hd (fun e =>
        (e.resumeAll hd.part).modPart hd.part (fun q => { q with state := .idle, causes := [] }))) ∧
      (e.resumeRefused hd.part = none → st ≠ .paused → exec (.partResume hd) s = tookOk s hd id) ∧
      (∀ c d, e.resumeRefused hd.part = some (c, d) → exec (.partResume hd) s = tookReply s hd c d)) ∧
    (goes s hd (.partReset hd) (partResetForm hd s.eng) = true → exec (.partReset hd) s = tookOk s hd (fun e => e.resetPart hd.part s.now)) ∧
    (∀ t weight maxReq enable mask, goes s hd (.tenantSet hd t weight maxReq enable mask) (tenantSetForm t weight maxReq mask s.eng) = true →
      exec (.tenantSet hd t weight maxReq enable mask) s = tookOk s hd (fun e => e.modTenant t (fun q =>
        { q with
            weight := if mask.testBit 0 then weight else q.weight
            maxReq := if mask.testBit 1 then maxReq else q.maxReq
            enable := if mask.testBit 2 then enable else q.enable })))) ∧
  (
  ∀ (s : State) (hd : Hdr),
    let e := taken s hd
    let p := hd.part
    (∀ deck table entry i o b,
      let left (g : HemCr → Nat) : Nat := (if table = 0 then 7500 else 37500) - (e.deck deck).hemSum table entry g
      goes s hd (.hemSet hd deck table entry i o b) (hemSetForm deck table entry i o b s.eng) = true →
      (left HemCr.inRate < i → exec (.hemSet hd deck table entry i o b) s = tookReply s hd .hemCapacity (left HemCr.inRate)) ∧
      (i ≤ left HemCr.inRate → left HemCr.outRate < o → exec (.hemSet hd deck table entry i o b) s = tookReply s hd .hemCapacity (left HemCr.outRate)) ∧
      (i ≤ left HemCr.inRate → o ≤ left HemCr.outRate → exec (.hemSet hd deck table entry i o b) s = tookOk s hd (fun e =>
        e.modDeck deck (fun d => d.setHem table entry { d.hem table entry with inRate := i, outRate := o, burst := b })))) ∧
    (∀ addr bytes cache low, goes s hd (.kvReserve hd addr bytes cache low) (kvReserveForm hd addr bytes cache low s.eng) = true →
      let e1 := e.dropReserve p
      let ts := e1.partTiles p
      let fit := ∀ t ∈ ts, 512 + cache ≤ (e1.tile t).openSlots ∧ cache ≤ (e1.tile t).freeSlots.length
      ((e.part p).kvUsed ≠ [] → exec (.kvReserve hd addr bytes cache low) s = tookReply s hd .partState (partCode (e.part p).state)) ∧
      ((e.part p).kvUsed = [] → bytes = 0 → exec (.kvReserve hd addr bytes cache low) s = tookOk s hd (fun e => e.dropReserve p)) ∧
      ((e.part p).kvUsed = [] → bytes ≠ 0 → fit → exec (.kvReserve hd addr bytes cache low) s = tookOk s hd (fun _ =>
        (if cache = 0 then e1 else ts.foldl (fun e t => e.modTile t (fun ti => ti.takeSlots cache (.kvcache p noPage 0))) e1).modPart p
          (fun q => { q with kvRegion := some (addr, bytes, hd.fn), kvLow := low }))) ∧
      ((e.part p).kvUsed = [] → bytes ≠ 0 → ¬ fit → ∃ n, n ≠ 0 ∧ exec (.kvReserve hd addr bytes cache low) s = tookReply s hd .kvSlots n)) ∧
    (∀ mask modes retr cap, goes s hd (.partMode hd mask modes retr cap) (partModeForm hd mask modes retr cap s.eng) = true →
      let q := e.part p
      let new := changeModes q.modes mask modes retr cap
      let a := e.announce [p]
      let t := max hd.tick (s.now + leadOf a)
      let os := e.others p
      let m : Prepare := { part := p, epoch := (q.epoch + 1) % 256, what := .modes new, tick := t, deadline := t - ceilDiv a 10 - 1, coordinator := e.node }
      let h := placed s hd
      let busy := q.prepared.isSome = true ∨ ∃ c, q.coord = some c ∧ c.decision = none
      s.now < t ∧
      (busy → exec (.partMode hd mask modes retr cap) s = took s hd (fun e => e.reply s.now h .partState (partCode q.state))) ∧
      (¬ busy → (q.state = .free ∨ q.state = .rebinding) → exec (.partMode hd mask modes retr cap) s = took s hd (fun e => e.reply s.now h .timeout e.node)) ∧
      (¬ busy → q.state ≠ .free → q.state ≠ .rebinding → q.spanLast ≠ 0 → new.train = true →
        exec (.partMode hd mask modes retr cap) s = took s hd (fun e => e.reply s.now h .graphState (graphCode (e.graph q.graph).state))) ∧
      (¬ busy → q.state ≠ .free → q.state ≠ .rebinding → (q.spanLast = 0 ∨ new.train = false) →
        exec (.partMode hd mask modes retr cap) s = took s hd (fun e =>
          let e := if s.now + 100 < t then e.reply s.now h .accepted 0 else e
          let e := if s.now < hd.tick then e.hold { hd := { h with tick := t }, cmd := .partMode h mask modes retr cap, accepted := true, own := true } else e
          (e.sendPrepare s.now m os).modPart p (fun q =>
            { q with
                prepared := some { msg := m, modes := new, turn := h.turn, decided := if os = [] then some true else none }
                coord := some { msg := m, nodes := os, waiting := os.map (·.1), decision := if os = [] then some true else none,
                                hd := some { h with tick := 0 }, nextSend := s.now + 100 } })))))

/-- The graph commands (R283 to R293): a package that passes its checks takes the lowest free handle; one that fails draws the status
of its failure and changes nothing; a tile's entries are written at a step boundary, one in 4, and its blobs come then, where no running
node claims their regions; unloading frees what the graph placed. -/
def Obligations.GraphCommands : Prop :=
  ∀ (s : State) (hd : Hdr),
    let e := taken s hd
    (∀ addr pkg img, goes s hd (.graphLoad hd addr pkg img) (graphLoadForm hd addr pkg img s.eng) = true →
      let k := (List.range 64).find? (fun k => (e.graph k).state == .free)
      (∀ x, e.checkPackage pkg img hd.part = .error x → exec (.graphLoad hd addr pkg img) s = tookReply s hd x.status x.detail) ∧
      (∀ g, e.checkPackage pkg img hd.part = .ok g → k = none →
        exec (.graphLoad hd addr pkg img) s = tookReply s hd ({ code := 0x0B, record := 0 } : LoadFail).status ({ code := 0x0B, record := 0 } : LoadFail).detail) ∧
      (∀ g k' x, e.checkPackage pkg img hd.part = .ok g → k = some k' → e.placeGraph k' g = .error x →
        exec (.graphLoad hd addr pkg img) s = tookReply s hd x.status x.detail) ∧
      (∀ g k' e' pls, e.checkPackage pkg img hd.part = .ok g → k = some k' → e.placeGraph k' g = .ok (e', pls) →
        exec (.graphLoad hd addr pkg img) s = took s hd (fun _ =>
          let e1 := e'.reply s.now (due s hd) .accepted k'
          ((if g.adapt = 0 then e1 else e1.modPart hd.part (fun q => { q with adaptSlots := max q.adaptSlots g.adapt })).modGraph k' (fun _ =>
            { g with placed := pls, entriesDue := pls.map (·.1), blobsDue := pls.map (·.1), hd := some (due s hd) })).finishLoad k' s.now))) ∧
    (∀ g u pl w, g < 64 → locOk u = true → ((s.eng.graph g).placed.find? (fun x => x.1 == locKey u)) = some (locKey u, pl) →
      s.eng.wordInSet (s.eng.image (s.eng.graph g).image).footprint u = some w → (s.eng.graph g).state = .loading →
      (s.eng.graph g).blobsDue.contains (locKey u) = true →
      let x := s.eng.graph g
      (x.entriesDue.contains (locKey u) = true →
        (s.eng.loadBoundary x.part = true → exec (.blobTransfer g u) s = .next (withEng s
          (((s.eng.modTile u (fun ti => ti.enter g x pl (s.eng.image x.image).slot)).modGraph g (fun y =>
            { y with entriesDue := y.entriesDue.filter (· != locKey u) })).modPart x.part (fun q => { q with loadStep := some q.stepNo })))) ∧
        (s.eng.loadBoundary x.part = false → exec (.blobTransfer g u) s = .next s)) ∧
      (x.entriesDue.contains (locKey u) = false →
        ((s.eng.tile u).claimsAny pl = true → exec (.blobTransfer g u) s = .next s) ∧
        (∀ m, (s.eng.tile u).claimsAny pl = false → s.eng.loadBytes u w x pl = .ok m → exec (.blobTransfer g u) s = .next (withEng s
          (((s.eng.modTile u (fun ti => ti.fill m)).modGraph g (fun y => { y with blobsDue := y.blobsDue.filter (· != locKey u) })).finishLoad g s.now))))) ∧
    (∀ e p, Engine.loadBoundary e p = true → e.atBoundary [p] = true) ∧
    (∀ g, goes s hd (.graphUnload hd g) (graphUnloadForm g s.eng) = true →
      let st := (e.graph g).state
      (st = .loaded → exec (.graphUnload hd g) s = tookOk s hd (fun e => e.removeGraph g)) ∧
      (st ≠ .loaded → exec (.graphUnload hd g) s = tookReply s hd .graphState (graphCode st))) ∧
    (∀ g addr, goes s hd (.graphQuery hd g addr) (graphQueryForm hd g addr s.eng) = true →
      let x := e.graph g
      exec (.graphQuery hd g addr) s = tookOk s hd (fun e => e.dma hd.fn addr
        (natBytes (pack [(32, x.placed.length - x.blobsDue.length), (8, 0), (8, x.part), (8, x.image), (8, graphCode x.state)]) 8))) ∧
    (∀ addr bytes half, goes s hd (.adaptSave hd addr bytes half) (adaptSaveForm hd addr bytes half s.eng) = true →
      ((e.part hd.part).state = .stepping → exec (.adaptSave hd addr bytes half) s = tookReply s hd .partState (partCode (e.part hd.part).state)) ∧
      ((e.part hd.part).state ≠ .stepping → bytes < e.adaptSize hd.part half → exec (.adaptSave hd addr bytes half) s = tookReply s hd .badAddress 8) ∧
      ((e.part hd.part).state ≠ .stepping → e.adaptSize hd.part half ≤ bytes →
        exec (.adaptSave hd addr bytes half) s = tookOk s hd (fun e => e.dma hd.fn addr (e.adaptBytes hd.part half)))) ∧
    (∀ addr data half, goes s hd (.adaptRestore hd addr data half) (adaptRestoreForm hd addr data half s.eng) = true →
      ((e.part hd.part).state = .stepping → exec (.adaptRestore hd addr data half) s = tookReply s hd .partState (partCode (e.part hd.part).state)) ∧
      ((e.part hd.part).state ≠ .stepping → data.length < e.adaptSize hd.part half → exec (.adaptRestore hd addr data half) s = tookReply s hd .badAddress 8) ∧
      ((e.part hd.part).state ≠ .stepping → e.adaptSize hd.part half ≤ data.length →
        exec (.adaptRestore hd addr data half) s = tookOk s hd (fun e => e.setAdapt hd.part half data)))

/-- The image commands that open, feed and close an imprint session (R186 to R192, Table 6.7), and their refusals: no session, no
strap, no cartridge, a manifest refused, no room.

The other image commands (R185, R187, R201): loading a tier, releasing, querying, enrolling a key. -/
def Obligations.ImageCommands : Prop :=
  (
  ∀ (s : State) (hd : Hdr),
    let e := taken s hd
    (∀ maddr manifest fields addr, goes s hd (.imgFit hd maddr manifest fields addr) (imgFitForm hd maddr manifest fields addr s.eng) = true →
      (e.manifestRefused manifest = none → exec (.imgFit hd maddr manifest fields addr) s = tookOk s hd (fun e =>
        e.dma hd.fn addr (natBytes (e.fit (readManifest manifest) fields 0xFF).word 32))) ∧
      (∀ c d, e.manifestRefused manifest = some (c, d) → exec (.imgFit hd maddr manifest fields addr) s = tookReply s hd c d)) ∧
    (∀ maddr manifest fields ports zport,
      goes s hd (.imgBegin hd maddr manifest fields ports zport) (imgBeginForm hd maddr manifest fields ports zport s.eng) = true →
      let c : Instr := .imgBegin hd maddr manifest fields ports zport
      let o := (e.fit (readManifest manifest) fields ports).outcome
      (e.session.state ≠ .idle → exec c s = tookReply s hd .sessionState 0) ∧
      (e.session.state = .idle → e.sup.imprintEn = false → exec c s = tookReply s hd .strapOpen 0) ∧
      (e.session.state = .idle → e.sup.imprintEn = true → e.cartsOk = false → exec c s = tookReply s hd .cartridge 0) ∧
      (e.session.state = .idle → e.sup.imprintEn = true → e.cartsOk = true →
        (∀ x d, e.manifestRefused manifest = some (x, d) → exec c s = tookReply s hd x d) ∧
        (e.manifestRefused manifest = none →
          (o = 0xC → exec c s = tookReply s hd .partState (partCode .stepping)) ∧
          (o ≠ 0xC → 8 ≤ o → exec c s = tookReply s hd .fitRefused (min (e.fit (readManifest manifest) fields ports).shortTotal 0xFFFFFFFF)) ∧
          (o < 8 → e.newImage fields = none → exec c s = tookReply s hd .tableFull 0) ∧
          (∀ img slot, o < 8 → e.newImage fields = some (img, slot) → exec c s = took s hd (fun e =>
            (e.reply s.now (due s hd) .accepted img).openSession s.now (readManifest manifest) fields ports zport img slot (due s hd)))))) ∧
    (∀ img addr frames, goes s hd (.imgStream hd img addr frames) (imgStreamForm hd img addr frames) = true →
      (e.session.state = .streaming → e.session.image = img → e.session.fromPort hd.fn = true →
        exec (.imgStream hd img addr frames) s = took s hd (fun e =>
          let e := e.spendHem (e.fnDeck hd.fn) 0 32 (306 * frames.length)
          let e' := frames.foldl (fun e b => e.takeFrame s.now b) e
          e'.reply s.now (due s hd) .ok (e'.session.discarded - e.session.discarded))) ∧
      ((e.session.state ≠ .streaming ∨ e.session.image ≠ img ∨ e.session.fromPort hd.fn = false) →
        exec (.imgStream hd img addr frames) s = tookReply s hd .sessionState 0)) ∧
    (∀ img addr, goes s hd (.imgEnd hd img addr) (imgEndForm hd img addr s.eng) = true →
      (e.session.state = .streaming → e.session.image = img → exec (.imgEnd hd img addr) s = took s hd (fun e =>
        let a := e.reply s.now (due s hd) .accepted 0
        ({ a with session := { a.session with state := .verifying, endAddr := addr, hd := some (due s hd) } } : Engine).settleSession s.now)) ∧
      ((e.session.state ≠ .streaming ∨ e.session.image ≠ img) → exec (.imgEnd hd img addr) s = tookReply s hd .sessionState 0)) ∧
    (∀ img, goes s hd (.imgAbort hd img) (imgAbortForm img s.eng) = true →
      (e.session.state ≠ .idle → e.session.image = img → exec (.imgAbort hd img) s = tookOk s hd (fun e => e.abortSession s.now .sessionState)) ∧
      ((e.session.state = .idle ∨ e.session.image ≠ img) → exec (.imgAbort hd img) s = tookReply s hd .sessionState 0)) ∧
    (∀ img id, goes s hd (.imgPatch hd img id) (imgPatchForm img s.eng) = true →
      let open' := e.session.state = .failed ∧ e.session.image = img ∧ (e.image img).id = id
      (¬ open' → exec (.imgPatch hd img id) s = tookReply s hd .sessionState 0) ∧
      (open' → e.sup.imprintEn = false → exec (.imgPatch hd img id) s = tookReply s hd .strapOpen 0) ∧
      (open' → e.sup.imprintEn = true → e.cartsOk = false → exec (.imgPatch hd img id) s = tookReply s hd .cartridge 0) ∧
      (open' → e.sup.imprintEn = true → e.cartsOk = true →
        exec (.imgPatch hd img id) s = tookOk s hd (fun e => e.reopenSlices.modSup (fun x => { x with nvEnable := true }))))) ∧
  (
  ∀ (s : State) (hd : Hdr),
    let e := taken s hd
    (∀ img addr frames region bytes cache,
      goes s hd (.imgTierLoad hd img addr frames region bytes cache) (imgTierLoadForm hd img addr frames region bytes cache s.eng) = true →
      let c : Instr := .imgTierLoad hd img addr frames region bytes cache
      let im := e.image img
      (im.state ≠ .incomplete → exec c s = tookReply s hd .imageState (imgCode im.state)) ∧
      (im.state = .incomplete → im.tierPages (frames.map readFrame) = none → exec c s = tookReply s hd .imageState (imgCode im.state)) ∧
      (∀ ls, im.state = .incomplete → im.tierPages (frames.map readFrame) = some ls →
        (e.tierLack im ls cache ≠ 0 → exec c s = tookReply s hd .kvSlots (e.tierLack im ls cache)) ∧
        (e.tierLack im ls cache = 0 → bytes < (im.withTier ls region bytes hd.fn).tierBytes → exec c s = tookReply s hd .badAddress 24) ∧
        (e.tierLack im ls cache = 0 → (im.withTier ls region bytes hd.fn).tierBytes ≤ bytes → exec c s = tookOk s hd (fun e =>
          ((((e.reply s.now (due s hd) .accepted 0).fillTier im ls cache).writeTier hd.fn (im.withTier ls region bytes hd.fn) region ls).modImage img
            (fun _ => { im.withTier ls region bytes hd.fn with state := if im.recovered.isEmpty then .ready else .degraded })))))) ∧
    (∀ img, goes s hd (.imgRelease hd img) (imgReleaseForm img s.eng) = true →
      let im := e.image img
      let busy := im.state = .imprinting ∨ ∃ x ∈ e.parts, x.2.image = some img
      (im.state = .absent → exec (.imgRelease hd img) s = tookOk s hd id) ∧
      (im.state ≠ .absent → busy → exec (.imgRelease hd img) s = tookReply s hd .imageState (imgCode im.state)) ∧
      (im.state ≠ .absent → ¬ busy → exec (.imgRelease hd img) s = tookOk s hd (fun e =>
        let e1 := e.endWhere s.now 0xC (fun r => r.image == img && r.state != .idle)
        let e2 := (e1.graphs.filter (fun x => x.2.image == img && x.2.state != .free)).foldl (fun e x =>
          match x.2.hd with | some h => (e.removeGraph x.1).reply s.now h .graphState (graphCode .free) | none => e.removeGraph x.1) e1
        ({ e2 with
            tiles := e2.tiles.foldl (fun m x =>
              if im.footprint.testBit (x.1 / 720) then mset (fun _ => {}) x.1 (x.2.releaseImage img im.slot) m else m) e2.tiles
            repairs := e2.repairs.filter (fun r => r.img != img)
            chains := e2.chains.filter (fun c => c.img != img) } : Engine).modImage img (fun _ => {})))) ∧
    (∀ img addr, goes s hd (.imgQuery hd img addr) (imgQueryForm hd img addr s.eng) = true →
      let im := e.image img
      exec (.imgQuery hd img addr) s = tookOk s hd (fun e =>
        e.dma hd.fn addr (natBytes im.id.toNat 8 ++ natBytes im.footprint 12 ++ natBytes (imgCode im.state) 1 ++ natBytes im.slot 1))) ∧
    (∀ slot key sig, goes s hd (.keyEnrol hd slot key sig) (keyEnrolForm slot s.eng) = true →
      let old := mget (fun _ => []) slot e.sup.keys
      (e.sup.imprintEn = false → exec (.keyEnrol hd slot key sig) s = tookReply s hd .strapOpen 0) ∧
      (e.sup.imprintEn = true → old ≠ [] → ecdsaOk old (natBytes slot 8 ++ key) sig = false →
        exec (.keyEnrol hd slot key sig) s = tookReply s hd .key 0) ∧
      (e.sup.imprintEn = true → (old = [] ∨ ecdsaOk old (natBytes slot 8 ++ key) sig = true) →
        exec (.keyEnrol hd slot key sig) s = tookOk s hd (fun e => e.modSup (fun x => { x with
          keys := mset (fun _ => []) slot (if key.all (· == 0) then [] else key) x.keys })))))

/-- The commands that read and write monitors and watch tables (R80, R349, R474 to R479): what goes to host memory, what clears, what a
sample changes. -/
def Obligations.MonitorCommands : Prop :=
  (∀ (s : State) (hd : Hdr),
    (∀ sel deck part site first count addr,
      goes s hd (.monRead hd sel deck part site first count addr) (monReadForm hd sel deck part site first count addr s.eng) = true →
      (count = 0 → exec (.monRead hd sel deck part site first count addr) s = tookOk s hd id) ∧
      (count ≠ 0 → exec (.monRead hd sel deck part site first count addr) s = tookOk s hd (fun e =>
        let a := e.dma hd.fn addr ((List.range count).flatMap (fun i =>
          natBytes (e.monEntry sel deck { field := part, site := site } (first + i)) ((selectorOf sel).getD (0, 0)).1))
        if sel = 0x06 then a.modDeck deck (fun d => { d with fab := [] }) else if sel = 0x07 then a.modDeck deck (fun d => { d with disp := [] }) else a))) ∧
    (∀ first count addr, goes s hd (.nwRead hd first count addr) (nwReadForm hd first count addr s.eng) = true →
      exec (.nwRead hd first count addr) s = tookOk s hd (fun e =>
        e.dma hd.fn addr ((List.range count).flatMap (fun i => natBytes ((e.part hd.part).watchAt (first + i)).word 16)))) ∧
    (∀ entry v, goes s hd (.nwWrite hd entry v) (nwWriteForm entry v s.eng) = true →
      exec (.nwWrite hd entry v) s = tookOk s hd (fun e =>
        e.modPart hd.part (fun q => { q with watch := mset (fun _ => {}) entry (watchOf v.toNat) q.watch })) ∧ (watchOf v.toNat).word = v.toNat) ∧
    (∀ mon addr, goes s hd (.histRead hd mon addr) (histReadForm hd mon addr s.eng) = true →
      exec (.histRead hd mon addr) s = tookOk s hd (fun e => e.dma hd.fn addr (natBytes ((e.monitor mon).word mon) 192))) ∧
    (∀ mon, goes s hd (.histClear hd mon) (histClearForm mon s.eng) = true →
      (mon ≠ 0xFFFFFFFF → exec (.histClear hd mon) s = tookOk s hd (fun e =>
        { e with monitors := mset (fun _ => ({} : Monitor)) mon { cleared := s.now } e.monitors })) ∧
      (mon = 0xFFFFFFFF → exec (.histClear hd mon) s = tookOk s hd (fun e =>
        { e with monitors := monitorIndices.foldl (fun ms m => mset (fun _ => ({} : Monitor)) m { cleared := s.now } ms) e.monitors }))) ∧
    (∀ k addr, goes s hd (.tenantQuery hd k addr) (tenantQueryForm hd k addr s.eng) = true →
      ((∀ v, hd.fn = .vf v → v = k) → exec (.tenantQuery hd k addr) s = tookOk s hd (fun e => e.dma hd.fn addr (natBytes (e.tqWord k) 16))) ∧
      (∀ v, hd.fn = .vf v → v ≠ k → exec (.tenantQuery hd k addr) s = tookReply s hd .tenant 0))) ∧
  (∀ (ms : List (Nat × Monitor)) (k m : Nat) (x : Monitor),
    mget (fun _ => ({} : Monitor)) k (mset (fun _ => ({} : Monitor)) m x ms) = if k = m then x else mget (fun _ => ({} : Monitor)) k ms) ∧
  ∀ (s : State) (m : Nat) (v : Int),
    ((monitorScale m = none ∨ s.eng.samples m = false) → exec (.monitorSample m v) s = .next s) ∧
    (∀ b sc, monitorScale m = some (b, sc) → s.eng.samples m = true → ∃ ms, exec (.monitorSample m v) s = .next (withEng s { s.eng with monitors := ms }) ∧
      let x := s.eng.monitor m
      mget (fun _ => {}) m ms = { x with
        lo := min x.lo v, hi := max x.hi v, count := min (2 ^ 64 - 1) (x.count + 1)
        bins := mmod (fun _ => 0) (binOf b sc (sampleValue m v)) (fun n => min 0xFFFFFFFF (n + 1)) x.bins } ∧
      ∀ k, k ≠ m → mget (fun _ => {}) k ms = s.eng.monitor k)

/-- A word written by NW_WRITE reads back as it was written wherever its reserved bits are 0 (R80, Table 2.7). -/
def Obligations.WatchWordRoundTrip : Prop :=
  ∀ v : Nat, v < 2 ^ 128 → fld v 15 2 = 0 → (watchOf v).word = v

/-- The power commands (R393, R430, R445, R446, R450 to R452): a sequence begins towards the target or turns, or the state is confirmed; a
cap reaches the supervisor and both decks; the two queries write their records. -/
def Obligations.PowerCommands : Prop :=
  ∀ (s : State) (hd : Hdr),
    let e := taken s hd
    (∀ target, goes s hd (.pwrState hd target) (pwrStateForm target s.eng) = true →
      let p := e.power
      let t := pwrOf target
      (p.up = false → p.down = false → p.state = t → exec (.pwrState hd target) s = tookReply s hd .ok e.pwrDetail) ∧
      (p.up = false → p.down = false → p.state ≠ t → exec (.pwrState hd target) s = took s hd (fun e =>
        let e := (e.reply s.now (due s hd) .accepted 0).modPower (fun p =>
          { p with
              target := t, goal := t, hds := p.hds ++ [due s hd], since := s.now
              up := decide (pwrCode p.state < pwrCode t), down := !decide (pwrCode p.state < pwrCode t) })
        if t = .off ∧ p.state = .standby then e.pwrReplies s.now else e)) ∧
      ((p.up = true ∨ p.down = true) → exec (.pwrState hd target) s = took s hd (fun e =>
        (e.reply s.now (due s hd) .accepted 0).modPower (fun p => { p with target := t, goal := t, hds := p.hds ++ [due s hd] })))) ∧
    (∀ watts,
      let s' := withEng s (s.eng.copyCap (s.eng.arrivingCap s.now hd watts))
      goes s' hd (.pwrCap hd watts) (pwrCapForm watts) = true →
        exec (.pwrCap hd watts) s = took s' hd (fun e => ((e.modDeck 0 (fun x => { x with fwCap := watts })).modDeck 1 (fun x => { x with
          fwCap := watts })).reply s.now (due s' hd) .ok (if watts < Config.idleDraw then Config.idleDraw else 0))) ∧
    (∀ (e : Engine) (w : Nat), e.copyCap (some w) = e.modSup (fun x => { x with hostCap := w }) ∧ e.copyCap none = e) ∧
    (∀ k watts, hd.fn = .pf k → 4 ≤ s.eng.power.stage → s.eng.intakeWaits (pwrCapForm watts) hd = false →
      (pwrCapForm watts).check s.eng s.now hd = none → first s hd = none → s.eng.arrivingCap s.now hd watts = some watts) ∧
    (∀ addr, goes s hd (.thermQuery hd addr) (thermQueryForm hd addr s.eng) = true →
      exec (.thermQuery hd addr) s = tookOk s hd (fun e => e.dma hd.fn addr
        (natBytes (e.thermHeader s.now) 64 ++ (List.range 96).flatMap (fun k => natBytes (e.field k).therm 8)))) ∧
    (∀ addr, goes s hd (.throttleQuery hd addr) (throttleQueryForm hd addr s.eng) = true →
      exec (.throttleQuery hd addr) s = tookOk s hd (fun e => ({ e with freeCtr := e.freeCtr + 60 } : Engine).dma hd.fn addr
        ((List.range 60).flatMap (fun d => natBytes (e.throttleWord d) 8))))

/-- The maintenance commands (R168, R280, R406, R419, R455 to R459): reads go to host memory; a scrub word is written; a remap of an
active site of a partition, and a reset of such a tile, wait for their cover, one in a field of no partition is done at once; an engine or
a deck reset answers first. -/
def Obligations.MaintenanceCommands : Prop :=
  ∀ (s : State) (hd : Hdr),
    let e := taken s hd
    (∀ field addr, goes s hd (.darnRead hd field addr) (darnReadForm hd field addr s.eng) = true →
      exec (.darnRead hd field addr) s = tookOk s hd (fun e => e.dma hd.fn addr
        ((List.range 696).flatMap (fun v => natBytes ((e.field field).map v).toNat 2) ++
          (List.range 720).flatMap (fun k => natBytes (siteCode ((e.field field).site k)) 1) ++ natBytes (e.field field).xstop 8))) ∧
    (∀ field site, goes s hd (.darnRemap hd field site) (darnRemapForm field site s.eng) = true →
      let u : Loc := { field := field, site := site }
      let wait := took s hd (fun e => { e.reply s.now (due s hd) .accepted 0 with remaps := e.remaps ++ [(due s hd, u)] })
      (∀ v p, e.siteState u = .active → (e.field field).vOf site = some v → e.partOf field = some p → exec (.darnRemap hd field site) s = wait) ∧
      (∀ v, e.siteState u = .covered → (e.field field).vOf site = some v → exec (.darnRemap hd field site) s = wait) ∧
      (∀ v, e.siteState u = .active → (e.field field).vOf site = some v → e.partOf field = none →
        exec (.darnRemap hd field site) s = tookOk s hd (fun e => (e.reply s.now (due s hd) .accepted 0).swapSite s.now u v)) ∧
      (((e.siteState u ≠ .active ∧ e.siteState u ≠ .covered) ∨ (e.field field).vOf site = none) →
        exec (.darnRemap hd field site) s = tookReply s hd .badIndex 2)) ∧
    (∀ deck v, goes s hd (.rinseSet hd deck v) (rinseSetForm deck v s.eng) = true →
      exec (.rinseSet hd deck v) s = tookOk s hd (fun e => e.modDeck deck (fun d => { d with scrub := v }))) ∧
    (∀ scope deck, goes s hd (.selfTest hd scope deck) (selfTestForm scope deck s.eng) = true →
      exec (.selfTest hd scope deck) s = tookOk s hd (fun e =>
        ((if scope = 0 then [0, 1] else [deck]).flatMap e.idleSpares).foldl (fun e u => e.testSpare s.now u) (e.reply s.now (due s hd) .accepted 0))) ∧
    (∀ deck field site, goes s hd (.reset hd 1 deck field site) (resetForm 1 deck field site s.eng) = true →
      ((e.deck deck).latchedOff = true → exec (.reset hd 1 deck field site) s = tookReply s hd .deckDown deck) ∧
      ((e.deck deck).latchedOff = false → exec (.reset hd 1 deck field site) s = took s hd (fun e =>
        let e := (e.failSnaps s.now).okReply s.now (due s hd)
        { e with resets := e.resets ++ [{ scope := 1, deck := deck, due := s.now + 1000 }] }))) ∧
    (∀ deck field site, goes s hd (.reset hd 0 deck field site) (resetForm 0 deck field site s.eng) = true →
      exec (.reset hd 0 deck field site) s = took s hd (fun e =>
        let e := (e.failSnaps s.now).okReply s.now (due s hd)
        { e with resets := e.resets ++ [{ scope := 0, deck := 0, due := s.now + 1000 }] })) ∧
    (∀ deck field site, goes s hd (.reset hd 2 deck field site) (resetForm 2 deck field site s.eng) = true →
      let u : Loc := { field := field, site := site }
      let c : Instr := .reset hd 2 deck field site
      let cleared (e : Engine) : Engine := { e.modTile u Tile.cleared with freeCtr := e.freeCtr + 1 }
      let tested (st : SiteState) : Outcome := tookOk s hd (fun e =>
        if e.tested u then (cleared e).setSite u st else ((cleared e).setSite u .retired).event s.now (deckOf field)
          { code := 0x0304, field := field, site := site, arg0 := 0xFFFFFF, arg1 := 0x3FF })
      (∀ p, e.siteState u = .active → e.partOf field = some p → exec c s =
        took s hd (fun e => { e.reply s.now (due s hd) .accepted 0 with siteResets := e.siteResets ++ [(due s hd, u)] })) ∧
      (∀ v, e.siteState u = .active → e.partOf field = none → (e.field field).vOf site = some v → exec c s = tookOk s hd (fun e =>
        if e.tested u then (cleared e).replaceGraphs u else ({ e with freeCtr := e.freeCtr + 1 } : Engine).swapSite s.now u v)) ∧
      (e.siteState u = .active → e.partOf field = none → (e.field field).vOf site = none → exec c s = tested .active) ∧
      (e.siteState u = .spare → exec c s = tested .spare) ∧ (e.siteState u = .covered → exec c s = tested .covered) ∧
      (e.siteState u ≠ .active → e.siteState u ≠ .spare → e.siteState u ≠ .covered → exec c s = tookReply s hd .badIndex 4)) ∧
    (∀ first addr, goes s hd (.journalRead hd first addr) (journalReadForm hd first addr s.eng) = true →
      exec (.journalRead hd first addr) s = tookOk s hd (fun e => e.dma hd.fn addr
        (e.journalHeader first ++ (e.sup.journalFrom first).flatMap (fun x => natBytes x.word 32))))

/-- Snapshots and restores (R68, R463 to R467): scheduled at the tick or the earliest the lead allows, with the twin of a paired partition
asked; a region whose blocks fail their residues is refused; a capture of a region that is too small ends the command and holds nothing;
its completion writes the header last and lets the partitions go; a restore checks first and changes nothing where it refuses. -/
def Obligations.SnapshotResults : Prop :=
  (∀ (s : State) (hd : Hdr) (mask addr bytes : Nat) (data : List Byte),
    let e := taken s hd
    let h := placed s hd
    let sched (x : Snap) (c : Instr) : Outcome :=
      let ps := setBits mask 32
      let lead := leadOf (e.announce ps)
      let t := max hd.tick (s.now + lead)
      let ns := (ps.filter (fun p => (e.part p).pair == 1 || (e.part p).pair == 2)).map (fun p => (e.partnerNode, p))
      let d := t - ceilDiv (e.announce ps) 10 - 1
      let m : Prepare := { part := 0, epoch := e.acts, what := .snapshot, tick := t, deadline := d, coordinator := e.node }
      let keys := ns.map (fun n => n.1 + 4096 * n.2)
      let act : Act := { id := e.acts, coordinator := e.node, mine := true, nodes := keys, waiting := keys, deadline := d }
      took s hd (fun e =>
        let e := ({ e.reply s.now h .accepted 0 with acts := e.acts + 1 } : Engine).sendPrepare s.now m ns
        let e := if s.now < hd.tick then e.hold { hd := { h with tick := t }, cmd := c, accepted := true, own := true } else e
        { e with snaps := e.snaps ++ [{ x with hd := due s hd, tick := t, act := if ns = [] then none else some act }] })
    let refused := (setBits mask 32).any (fun p => (e.part p).state == .free || (e.part p).state == .rebinding || (e.part p).prepared.isSome)
    (goes s hd (.snapshot hd mask addr bytes) (snapshotForm hd mask addr bytes s.eng) = true →
      (refused = false → exec (.snapshot hd mask addr bytes) s =
        sched { hd := h, mask := mask, addr := addr, bytes := bytes, tick := 0, restore := false } (.snapshot h mask addr bytes)) ∧
      (refused = true → exec (.snapshot hd mask addr bytes) s = took s hd (fun e => e.reply s.now h .timeout e.node))) ∧
    (goes s hd (.restore hd mask addr data) (restoreForm hd mask addr data s.eng) = true →
      (∀ k, regionResidue mask data = some k → exec (.restore hd mask addr data) s = took s hd (fun e => e.reply s.now h .residue k)) ∧
      (regionResidue mask data = none → refused = false → exec (.restore hd mask addr data) s =
        sched { hd := h, mask := mask, addr := addr, bytes := data.length, tick := 0, restore := true, data := data } (.restore h mask addr data)) ∧
      (regionResidue mask data = none → refused = true → exec (.restore hd mask addr data) s = took s hd (fun e => e.reply s.now h .timeout e.node)))) ∧
  (∀ (s : State), s.eng.snaps.find? (fun x => !x.restore && s.eng.snapDue s.now x) = none → exec .snapshotCapture s = .next s) ∧
  (∀ (s : State) (x : Snap), s.eng.snaps.find? (fun x => !x.restore && s.eng.snapDue s.now x) = some x →
    (x.capturing = false ∧ x.tick ≤ s.now ∧ (∀ a, x.act = some a → a.decision = some true) ∧ s.eng.atBoundary (setBits x.mask 32) = true) ∧
    (x.bytes < s.eng.snapSize x.mask → exec .snapshotCapture s =
      .next (withEng s ((s.eng.dropSnap x).reply x.tick x.hd .badAddress (mibOf (s.eng.snapSize x.mask))))) ∧
    (s.eng.snapSize x.mask ≤ x.bytes →
      let y : Snap := { x with capturing := true, size := s.eng.snapSize x.mask, data := s.eng.snapBytes x.mask x.tick }
      exec .snapshotCapture s = .next (withEng s ((setBits x.mask 32).foldl (fun e p => e.modPart p (fun q => { q with capture := true }))
        ((({ s.eng with snaps := s.eng.snaps.map (fun z => if z = x then y else z) } : Engine).dropOwn x.hd.turn).keepCaptured x))))) ∧
  (∀ (s : State), s.eng.snaps.find? (fun x => x.capturing) = none → exec .snapshotCaptureDone s = .next s) ∧
  (∀ (s : State) (x : Snap), s.eng.snaps.find? (fun x => x.capturing) = some x →
    exec .snapshotCaptureDone s = .next (withEng s (((setBits x.mask 32).foldl (fun e p => e.modPart p (fun q => { q with capture := false }))
      (((s.eng.dma x.hd.fn (x.addr + 64) (x.data.drop 64)).dma x.hd.fn x.addr (x.data.take 64)).dropSnap x)).reply x.tick x.hd .ok (mibOf x.size)))) ∧
  (∀ (s : State), s.eng.snaps.find? (fun x => x.restore && s.eng.snapDue s.now x) = none → exec .restoreApply s = .next s) ∧
  ∀ (s : State) (x : Snap), s.eng.snaps.find? (fun x => x.restore && s.eng.snapDue s.now x) = some x →
    let answer (c : Status) (d : Nat) : Outcome := .next (withEng s ((s.eng.dropSnap x).reply x.tick x.hd c d))
    (readSections x.data = none → exec .restoreApply s = answer .reserved 8) ∧
    (∀ l, readSections x.data = some l →
      (∀ c d, (setBits x.mask 32).findSome? (fun p => s.eng.restoreRefused l p) = some (c, d) → exec .restoreApply s = answer c d) ∧
      ((setBits x.mask 32).findSome? (fun p => s.eng.restoreRefused l p) = none →
        (s.eng.freeEntries.length < restoredCount x l → exec .restoreApply s = answer .tableFull 0) ∧
        (restoredCount x l ≤ s.eng.freeEntries.length → s.eng.restoreAll x l = none →
          exec .restoreApply s = answer .kvSlots (s.eng.shortOf512 (setBits x.mask 32))) ∧
        (∀ e maps, restoredCount x l ≤ s.eng.freeEntries.length → s.eng.restoreAll x l = some (e, maps) →
          (e.shortOf512 (setBits x.mask 32) ≠ 0 → exec .restoreApply s = answer .kvSlots (e.shortOf512 (setBits x.mask 32))) ∧
          (e.shortOf512 (setBits x.mask 32) = 0 → exec .restoreApply s = .next (withEng s ((e.writeMaps x l maps).reply x.tick x.hd .ok 0))))))

/-- The commands to Zarog ports, the pace unit and the pair (R358, R361 to R363, R365, R368, R377, R382, R383): what each sets, and what it
answers where the rule refuses. -/
def Obligations.ZarogCommands : Prop :=
  ∀ (s : State) (hd : Hdr),
    let e := taken s hd
    (∀ z action, goes s hd (.zportCtl hd z action) (zportCtlForm z action s.eng) = true →
      let k := e.zport z
      let fresh := tookOk s hd (fun e => (e.zstate s.now z .detect).modZport z (fun k => { k with attempts := 0 }))
      (action = 0 → k.state ≠ .disabled → exec (.zportCtl hd z action) s = tookOk s hd (fun e => e.zmove s.now z .disabled 7)) ∧
      (action = 0 → k.state = .disabled → exec (.zportCtl hd z action) s = tookOk s hd id) ∧
      (action ≠ 0 → k.enable = false → exec (.zportCtl hd z action) s = tookReply s hd .engineState z) ∧
      (action = 1 → k.enable = true → (k.state = .disabled ∨ k.state = .parked) → exec (.zportCtl hd z action) s = fresh) ∧
      (action = 1 → k.enable = true → k.state ≠ .disabled → k.state ≠ .parked → exec (.zportCtl hd z action) s = tookOk s hd id) ∧
      (action = 2 → k.enable = true → k.state = .parked → exec (.zportCtl hd z action) s = fresh) ∧
      (action = 2 → k.enable = true → k.state = .disabled → exec (.zportCtl hd z action) s = tookOk s hd id) ∧
      (action = 2 → k.enable = true → k.state ≠ .disabled → k.state ≠ .parked →
        exec (.zportCtl hd z action) s = tookOk s hd (fun e => e.zmove s.now z .detect k.reason))) ∧
    (∀ z addr, goes s hd (.zportQuery hd z addr) (zportQueryForm hd z addr s.eng) = true →
      exec (.zportQuery hd z addr) s = tookOk s hd (fun e => e.dma hd.fn addr (natBytes (e.zport z).stat 16))) ∧
    (∀ src port value, goes s hd (.paceSrc hd src port value) (paceSrcForm src port s.eng) = true →
      let x := e.pace
      let same := x.src = src ∧ (src = 3 → x.port = port)
      let jumps := (src = 2 ∨ src = 3) ∧ (value + 1 < s.now ∨ s.now + 1 < value)
      (same → exec (.paceSrc hd src port value) s = tookReply s hd .ok (x.detail s.now)) ∧
      (∀ p, ¬ same → jumps → (List.range 32).find? (fun p => (e.part p).image.isSome) = some p →
        exec (.paceSrc hd src port value) s = tookReply s hd .partState (partCode (e.part p).state)) ∧
      (¬ same → (¬ jumps ∨ ∀ p, p < 32 → (e.part p).image = none) → exec (.paceSrc hd src port value) s = took s hd (fun e =>
        let y : Pace := { x with
          src := src, port := if src = 3 then port else 0, state := if src = 4 then 2 else 1, steer := 0, lastEdge := s.now, lastSync := s.now, master := 0xFFF, hops := 0
          holdSince := if src = 4 ∧ x.state ≠ 2 then s.now else x.holdSince }
        ({ e with pace := y } : Engine).reply s.now (due s hd) .ok (y.detail s.now)))) ∧
    (∀ mask addr licence, goes s hd (.pairCfg hd 0 mask addr licence) (pairCfgForm hd 0 mask addr licence s.eng) = true →
      exec (.pairCfg hd 0 mask addr licence) s = tookOk s hd Engine.unpair) ∧
    (∀ mode mask addr licence, goes s hd (.pairCfg hd mode mask addr licence) (pairCfgForm hd mode mask addr licence s.eng) = true → mode ≠ 0 →
      let c : Instr := .pairCfg hd mode mask addr licence
      let partner := e.partnerId ((setBits mask 24).headD 0)
      let licensed := e.grade = 96 ∧ (Config.licenceIds licence = some (e.engineId, partner) ∨ Config.licenceIds licence = some (partner, e.engineId))
      (∀ p, (List.range 32).find? (fun p => (e.part p).spanLast != 0) = some p → exec c s = tookReply s hd .partState (partCode (e.part p).state)) ∧
      ((∀ p, p < 32 → (e.part p).spanLast = 0) →
        (e.badLinks mask ≠ [] → exec c s = tookReply s hd .engineState ((e.badLinks mask).foldl (fun m z => m + 2 ^ z) 0)) ∧
        (e.badLinks mask = [] → ¬ licensed → exec c s = tookReply s hd .licence 0) ∧
        (e.badLinks mask = [] → licensed → exec c s = took s hd (fun e => (e.unpair.reply s.now (due s hd) .accepted 0).modPair (fun _ =>
          { mode := mode, mask := mask, primary := decide (e.node < partner.toNat % 4096), partner := partner, lastBeat := s.now, nextBeat := s.now,
            pendingCfg := some (due s hd, s.now + 60000000) }))))) ∧
    (goes s hd (.pairTakeover hd) (pairTakeoverForm s.eng) = true →
      let p := e.pair
      ((p.mode = 0 ∨ (p.primary = true ∧ p.mode = 1)) → exec (.pairTakeover hd) s = tookReply s hd .engineState 0) ∧
      (p.mode ≠ 0 → p.primary = false → exec (.pairTakeover hd) s = tookOk s hd (fun e => e.takeover s.now)) ∧
      (p.mode ≠ 0 → p.mode ≠ 1 → p.primary = true → exec (.pairTakeover hd) s =
        tookOk s hd (fun e => (e.modPair (fun x => { x with handover := true })).tryHandover s.now))) ∧
    (∀ peer mask, goes s hd (.zrouteSet hd peer mask) (zrouteSetForm peer mask s.eng) = true →
      let still := ∀ z, z < 24 → (e.zport z).state = .disabled ∨ (e.zport z).state = .parked
      (mask = 0xFFFFFF → still → exec (.zrouteSet hd peer mask) s = tookOk s hd (fun e => { e with engineId := peer })) ∧
      (mask = 0xFFFFFF → ¬ still → exec (.zrouteSet hd peer mask) s = tookReply s hd .engineState 0) ∧
      (mask ≠ 0xFFFFFF → e.node = 0xFFF → exec (.zrouteSet hd peer mask) s = tookReply s hd .engineState 0) ∧
      (mask ≠ 0xFFFFFF → e.node ≠ 0xFFF → exec (.zrouteSet hd peer mask) s = tookOk s hd (fun e =>
        ({ e with zroute := mset (fun _ => 0) (peer.toNat % 4096) mask e.zroute } : Engine).announceParts s.now (fun _ => true) (fun _ _ => true))))

/-- Imprinting as it goes on, and repair writes (R5, R186, R188 to R194, R402, R409): each event has its effect in its own state of the
session only; a repair takes the place of the old stripes when it verifies, and is dropped when it does not.

Covering a site (R114, R397, R401, R402, R406 to R408): SITE_COVERED takes an ACTIVE site out of service where its cause stands, and
only there; strikes older than 10 s go; the map window's stages follow in order, the last one maps the spare; a verified re-imprint ends
recovery; a DARK site is recorded and leaves service; none of it happens while no deck holds the chair (the model's log entry 144). -/
def Obligations.ImprintResults : Prop :=
  (
  (∀ (s : State),
    let ss := s.eng.session
    (ss.state ≠ .erasing → exec .imprintEraseDone s = .next s) ∧
    (ss.state = .erasing →
      let e : Engine := { ss.alloc.foldl (fun e x => e.modTile (locOf x.1) (fun ti => ti.erase [x.2])) s.eng with session := { ss with state := .streaming, hd := none } }
      (ss.hd = none → exec .imprintEraseDone s = .next (withEng s e)) ∧
      (∀ h, ss.hd = some h → exec .imprintEraseDone s = .next (withEng s (e.reply s.now h .ok ss.image)))) ∧
    (ss.state ≠ .committing → exec .imprintCommit s = .next s) ∧
    (ss.state = .committing →
      let e := (((s.eng.image ss.image).slices.zipIdx.foldl (fun e x => e.commitSlice s.now x.2 x.1) s.eng).modImage ss.image (fun im =>
        { im with state := if im.slices.any (fun x => x.ovf + x.spill != 0) then .incomplete else if im.recovered.isEmpty then .ready else .degraded })).closeSession
      (ss.hd = none → exec .imprintCommit s = .next (withEng s e)) ∧
      (∀ h, ss.hd = some h → exec .imprintCommit s = .next (withEng s (e.reply s.now h .ok 0)))) ∧
    (∀ bs, ss.state ≠ .streaming → exec (.imprintFrame bs) s = .next s) ∧
    (∀ bs, ss.state = .streaming →
      let f := readFrame bs
      let im := s.eng.image ss.image
      let bad : Outcome := .next (withEng s { s.eng with session := { ss with discarded := ss.discarded + 1 } })
      (f.part ≠ im.partIndex → ss.zport = 0xFF → exec (.imprintFrame bs) s = bad) ∧
      (f.part ≠ im.partIndex → ss.zport ≠ 0xFF → (s.eng.zport ss.zport).state = .up → exec (.imprintFrame bs) s =
        .next (withEng s (s.eng.zput s.now ss.zport { p := s.eng.zheader 6 (s.eng.zport ss.zport).pnode 0 0 0 true bs }))) ∧
      (f.part ≠ im.partIndex → ss.zport ≠ 0xFF → (s.eng.zport ss.zport).state ≠ .up → exec (.imprintFrame bs) s = .next (withEng s (s.eng.zlose none))) ∧
      (f.part = im.partIndex → im.slices[f.slice]? = none → exec (.imprintFrame bs) s = bad) ∧
      (∀ sl, f.part = im.partIndex → im.slices[f.slice]? = some sl →
        let refused := s.eng.nvGranted = false ∨ s.eng.sliceFenced f.slice = true ∨ f.ok = false ∨ sl.pages ≤ f.page ∨ (f.slice, f.page) ∈ ss.programmed ∨
          ∃ l, ss.limited = some l ∧ f.slice ∉ l
        (refused → exec (.imprintFrame bs) s = bad) ∧
        (¬ refused → exec (.imprintFrame bs) s = .next (withEng s (s.eng.putPage f.slice sl f.page f.content))))) ∧
    (∀ f bad, f < 96 →
      let xs := (ss.slicesOf f).filterMap (fun k => ((s.eng.image ss.image).slices[k]?).map (fun x => (k, x)))
      let whole := ∀ x ∈ xs, ∀ i, i < x.2.pages → x.2.inTier i = false → (x.1, i) ∈ ss.programmed
      ((ss.state ≠ .verifying ∧ (ss.state ≠ .streaming ∨ ¬ whole)) → exec (.fieldVerify f bad) s = .next s) ∧
      ((ss.state = .verifying ∨ (ss.state = .streaming ∧ whole)) →
        let due := xs.filter (fun x => !ss.verified.contains x.1 && !ss.failed.contains x.1 && !s.eng.sliceCovered x.1 &&
          (ss.state == .verifying || (List.range x.2.pages).all (fun i => ss.programmed.contains (x.1, i))))
        let good (x : Nat × Slice) : Bool := !bad.contains x.1 && s.eng.sliceGood x.1 x.2
        exec (.fieldVerify f bad) s = .next (withEng s ((({ s.eng with session := { ss with
          verified := (due.filter good).map (·.1) ++ ss.verified
          failed := (due.filter (fun x => !good x)).map (·.1) ++ ss.failed } } : Engine).recoverAll).settleSession s.now))))) ∧
  (∀ (s : State) (img k : Nat) (u : Loc), locOk u = true → img < 64 →
    let im := s.eng.image img
    let some' := ∃ r ∈ s.eng.repairs, r.img = img ∧ r.slice = k
    (im.slices[k]? = none → exec (.repairWrite img k u) s = .next s) ∧
    (∀ sl, im.slices[k]? = some sl →
      let may := (im.state = .ready ∨ im.state = .degraded ∨ im.state = .incomplete) ∧ s.eng.locInSet im.footprint sl.vtile = some u ∧ s.eng.cartsOk = true ∧
        s.eng.imageLost img = false ∧ s.eng.repairDue img k u = true ∧ (s.eng.field u.field).fenced = false
      (¬ may → exec (.repairWrite img k u) s = .next s) ∧
      (may → some' → exec (.repairWrite img k u) s = .next (withEng s { s.eng with repairs := s.eng.repairs.map (fun r =>
        if r.img = img ∧ r.slice = k ∧ r.pages = [] then { r with pages := s.eng.nvContents img k sl } else r) })) ∧
      (may → ¬ some' → s.eng.chooseStripes u sl.stripes (s.eng.goodStripes u) = none → exec (.repairWrite img k u) s =
        .next (withEng s (s.eng.siteEvent s.now u 0x0203 (((s.eng.tile u).nvBad.headD 0) / 32) 0))) ∧
      (∀ ks, may → ¬ some' → s.eng.chooseStripes u sl.stripes (s.eng.goodStripes u) = some ks →
        let e := s.eng.allocStripes s.now u img ks
        exec (.repairWrite img k u) s = .next (withEng s { e with repairs := e.repairs ++ [{
          img := img, slice := k, target := u, stripes := ks, pages := s.eng.nvContents img k sl }] })))) ∧
  ∀ (s : State) (k : Nat) (ok : Bool),
    (s.eng.repairs[k]? = none → exec (.repairWriteVerified k ok) s = .next s) ∧
    ∀ r, s.eng.repairs[k]? = some r →
      let may := s.eng.cartsOk = true ∧ s.eng.repairFilled r = true ∧ (s.eng.field r.target.field).fenced = false ∧
        ∀ x ∈ (s.eng.tile r.target).recovering, x.1 ≠ (s.eng.image r.img).slot
      (¬ may → exec (.repairWriteVerified k ok) s = .next s) ∧
      (may → (ok = false ∨ s.eng.repairGood r = false) → exec (.repairWriteVerified k ok) s = .next (withEng s (s.eng.dropRepair r))) ∧
      (may → ok = true → s.eng.repairGood r = true → s.eng.siteIdle r.target = true →
        exec (.repairWriteVerified k ok) s = .next (withEng s (s.eng.finishRepair s.now r))) ∧
      (may → ok = true → s.eng.repairGood r = true → s.eng.siteIdle r.target = false → exec (.repairWriteVerified k ok) s = .next s)) ∧
  (
  (∀ (s : State) (u : Loc) (c : CoverCause), locOk u = true →
    ((s.eng.chairHeld = false ∨ s.eng.partOf u.field = none ∨ s.eng.siteState u = .retired) → exec (.siteCovered u c) s = .next s) ∧
    (∀ p, s.eng.chairHeld = true → s.eng.partOf u.field = some p →
      (s.eng.siteState u = .active → s.eng.coverDue u c = false → exec (.siteCovered u c) s = .next s) ∧
      (s.eng.siteState u = .active → s.eng.coverDue u c = true → exec (.siteCovered u c) s = .next (withEng s (s.eng.takeOut s.now u .covered))) ∧
      ((s.eng.siteState u = .covered ∨ s.eng.siteState u = .dark) → exec (.siteCovered u c) s = .next (withEng s (s.eng.nextWindow s.now p false))) ∧
      (s.eng.siteState u = .spare →
        (∀ w, (s.eng.part p).window = some w → w.spare = u → exec (.siteCovered u c) s = .next (withEng s (s.eng.failSpare s.now p w .covered))) ∧
        ((∀ w, (s.eng.part p).window = some w → w.spare ≠ u) → exec (.siteCovered u c) s = .next s)))) ∧
  (∀ (s : State) (u : Loc), locOk u = true →
    let l := (s.eng.tile u).strikes.filter (fun x => decide (s.now < x + 10000000))
    ((s.eng.tile u).strikes = l → exec (.strikeExpiry u) s = .next s) ∧
    ((s.eng.tile u).strikes ≠ l → exec (.strikeExpiry u) s = .next (withEng s (s.eng.modTile u (fun ti => ti.setStrikes l))) ∧
      ((s.eng.tile u).setStrikes l).strikes = l ∧
      ∀ a, a < 0x1FC008 ∨ 0x1FC010 ≤ a → readByte ((s.eng.tile u).setStrikes l).sp a = readByte (s.eng.tile u).sp a)) ∧
  (∀ (s : State) (p : Nat), p < 32 →
    (s.eng.chairHeld = false → exec (.mapWindowStageDone p) s = .next s) ∧
    (s.eng.chairHeld = true →
      ((s.eng.part p).window = none → exec (.mapWindowStageDone p) s = .next (withEng s (s.eng.nextWindow s.now p false))) ∧
      (∀ w, (s.eng.part p).window = some w →
        ((w.stage = .cover ∨ w.stage = .placement) → exec (.mapWindowStageDone p) s = .next (withEng s
          ((s.eng.moveGraphs w.covered w.spare w.v).modPart p (fun q => { q with window := some { w with stage := .migration } })))) ∧
        (w.stage = .migration → exec (.mapWindowStageDone p) s = .next (withEng s (s.eng.migrateSlots s.now w))) ∧
        (w.stage = .route → exec (.mapWindowStageDone p) s = .next (withEng s (s.eng.closeWindow s.now p w)))))) ∧
  (∀ (e : Engine) (now p : Nat), e.windowDue p = none → e.nextWindow now p false = e) ∧
  (∀ (s : State) (u : Loc) (img : Nat), locOk u = true → img < 64 →
    ((s.eng.chairHeld = false ∨ s.eng.repairs.find? (fun r => r.img == img && r.target == u) = none) → exec (.sliceReimprintVerified u img) s = .next s) ∧
    (∀ r, s.eng.chairHeld = true → s.eng.repairs.find? (fun r => r.img == img && r.target == u) = some r →
      let l := ((s.eng.tile u).recovering.filter (fun x => x.1 == (s.eng.image img).slot)).map (·.2)
      let may := l ≠ [] ∧ s.eng.repairFilled r = true ∧ s.eng.siteState u = .active ∧ s.eng.siteIdle u = true ∧ s.eng.cartsOk = true ∧ (s.eng.field u.field).fenced = false
      (¬ may → exec (.sliceReimprintVerified u img) s = .next s) ∧
      (may → s.eng.repairGood r = true → exec (.sliceReimprintVerified u img) s = .next (withEng s ((s.eng.finishRepair s.now r).retireAll s.now u l))) ∧
      (may → s.eng.repairGood r = false → exec (.sliceReimprintVerified u img) s =
        .next (withEng s { s.eng with repairs := s.eng.repairs.map (fun x => if x = r then { x with pages := [] } else x) })))) ∧
  ∀ (s : State) (u : Loc), locOk u = true →
    ((s.eng.chairHeld = false ∨ s.eng.siteState u = .dark) → exec (.siteDark u) s = .next s) ∧
    (s.eng.chairHeld = true → s.eng.siteState u ≠ .dark →
      let w := match (s.eng.field u.field).vOf u.site with | some v => s.eng.wordOf u v | none => 0xFFFFFF
      let e := s.eng.siteEvent s.now u 0x0305 w 0
      let window := (e.partOf u.field).bind (fun p => ((e.part p).window).map (fun x => (p, x)))
      let dark (e : Engine) : Outcome := .next (withEng s (if e.darkBroken u.field then e.fence s.now u.field else e))
      (s.eng.siteState u = .active → exec (.siteDark u) s = dark (e.takeOut s.now u .dark)) ∧
      (∀ p x, window = some (p, x) → s.eng.siteState u = .spare → x.spare = u → exec (.siteDark u) s = dark (e.failSpare s.now p x .dark)) ∧
      (∀ p x, window = some (p, x) → s.eng.siteState u = .covered → x.covered = u → exec (.siteDark u) s =
        dark ((e.setSite u .dark).modPart p (fun q => { q with window := some { x with migrate := false } }))) ∧
      (s.eng.siteState u ≠ .active → (∀ p x, window = some (p, x) → (s.eng.siteState u = .spare → x.spare ≠ u) ∧ (s.eng.siteState u = .covered → x.covered ≠ u)) →
        exec (.siteDark u) s = dark (e.setSite u .dark))))

/-- Training of a Zarog port (R358 to R360): every event moves a port only from the state it belongs to, and only when its time has
come; the sixteenth attempt parks the port; a partner of another fleet or with this engine's own number parks it at once; a port that
comes UP has its first credits (the model's log entry 153) and sends its PACE packet; one that leaves UP discards and counts what is not
acknowledged, and the steps that had some take the hardware fault. -/
def Obligations.PortTraining : Prop :=
  ∀ (s : State) (z : Nat), z < 24 →
    (s.eng.zlive z = false → ∀ w pp rtt, ∀ i ∈ ([.zportSignalDetect z, .zportTrainDone z, .zportTrainTimeout z, .zportAlignDone z w pp, .zportAlignTimeout z,
      .zportCreditDone z rtt, .zportCreditTimeout z, .zportLossOfSignal z, .zportBackoffElapsed z, .zportUpStable z] : List Instr), exec i s = .next s) ∧
    (s.eng.zlive z = true →
    let k := s.eng.zport z
    let into (f : ZPort → ZPort) : Outcome := .next (withEng s (s.eng.modZport z f))
    let tried (r : Nat) (i : Instr) : Prop :=
      (k.attempts + 1 < 16 → exec i s = into (fun k => { k with attempts := k.attempts + 1, state := .backoff, since := s.now, reason := r })) ∧
      (16 ≤ k.attempts + 1 → exec i s = .next (withEng s ((s.eng.modZport z (fun k =>
        { k with attempts := k.attempts + 1, state := .parked, since := s.now, reason := 8 })).zportEvent s.now z 0x0503)))
    (k.state = .detect → k.powered = true → exec (.zportSignalDetect z) s = into (fun k => { k with state := .train, since := s.now })) ∧
    ((k.state ≠ .detect ∨ k.powered = false) → exec (.zportSignalDetect z) s = .next s) ∧
    (k.state = .train → exec (.zportTrainDone z) s = into (fun k => { k with state := .align, since := s.now })) ∧
    (k.state ≠ .train → exec (.zportTrainDone z) s = .next s ∧ exec (.zportTrainTimeout z) s = .next s) ∧
    (k.state = .train → k.since + 500000 ≤ s.now → tried 2 (.zportTrainTimeout z)) ∧
    (s.now < k.since + 500000 → exec (.zportTrainTimeout z) s = .next s) ∧
    (k.state ≠ .align → ∀ w pp, exec (.zportAlignDone z w pp) s = .next s ∧ exec (.zportAlignTimeout z) s = .next s) ∧
    (k.state = .align → k.since + 10000 ≤ s.now → tried 3 (.zportAlignTimeout z)) ∧
    (k.state ≠ .credit → ∀ rtt, exec (.zportCreditDone z rtt) s = .next s ∧ exec (.zportCreditTimeout z) s = .next s) ∧
    (k.state = .credit → k.since + 10000 ≤ s.now → tried 4 (.zportCreditTimeout z)) ∧
    (s.now < k.since + 10000 → ∀ i ∈ ([.zportAlignTimeout z, .zportCreditTimeout z] : List Instr), exec i s = .next s) ∧
    (∀ w pp, k.state = .align →
      let n := w.toNat % 4096
      (w.toNat / 4096 = s.eng.engineId.toNat / 4096 → n ≠ s.eng.node → n ≠ 0xFFF → s.eng.node ≠ 0xFFF → exec (.zportAlignDone z w pp) s =
        into (fun k => { k with state := .credit, since := s.now, pnode := n, pport := pp % 32 })) ∧
      ((w.toNat / 4096 ≠ s.eng.engineId.toNat / 4096 ∨ n = s.eng.node ∨ n = 0xFFF ∨ s.eng.node = 0xFFF) → exec (.zportAlignDone z w pp) s =
        into (fun k => { k with state := .parked, since := s.now, reason := 5 }))) ∧
    (∀ rtt, k.state = .credit → exec (.zportCreditDone z rtt) s = .next (withEng s (((s.eng.modZport z (fun k => { k with
      state := .up, since := s.now, rtt := rtt % 65536, credits := [(1, 16), (2, 64), (3, 1024), (4, 1024), (5, 1024)], rxSeq := 0, txPos := 0, acked := 0
      rxSince := 0, queue := [], inFlight := [], owed := [], rr := 5, nextPace := s.now + 64 })).sendPace s.now z).announceParts s.now
        (fun _ => true) (fun _ m => m.testBit z)))) ∧
    (k.state = .up →
      let lost := k.inFlight.map (·.w) ++ k.queue
      exec (.zportLossOfSignal z) s = .next (withEng s ((lost.foldl (fun e w => e.faultOf w.part) (s.eng.modZport z (fun k => { k with
        state := .detect, since := s.now, reason := 1, discards := k.discards + (lost.map ZWait.flits).foldl (· + ·) 0, inFlight := [], queue := []
        credits := [], owed := [], stopMask := 0, nak := none, replayTicks := [] }))).zportEvent s.now z 0x0502))) ∧
    (k.state ≠ .up → exec (.zportLossOfSignal z) s = .next s ∧ exec (.zportUpStable z) s = .next s) ∧
    (k.state = .backoff → k.since + min (2 ^ (k.attempts - 1) * 10000) 10000000 ≤ s.now →
      exec (.zportBackoffElapsed z) s = into (fun k => { k with state := .detect, since := s.now })) ∧
    ((k.state ≠ .backoff ∨ s.now < k.since + min (2 ^ (k.attempts - 1) * 10000) 10000000) → exec (.zportBackoffElapsed z) s = .next s) ∧
    (k.state = .up → k.since + 10000000 ≤ s.now → exec (.zportUpStable z) s = into (fun k => { k with attempts := 0 })) ∧
    (s.now < k.since + 10000000 → exec (.zportUpStable z) s = .next s))

/-- What an UP port receives (R354 to R357, R363, R364, R394, R487): codewords in order and correctable ones only, with a LINK flit back
after 32 of them and a NAK for one that cannot be corrected; a NAK starts a replay and more than 16 within 1 ms take the port down; a LINK
flit returns credit and acknowledges; a packet is delivered, forwarded with TTL one less, or discarded and counted. -/
def Obligations.PortTraffic : Prop :=
  (∀ (s : State) (z : Nat), z < 24 →
    ((s.eng.zlive z = false ∨ (s.eng.zport z).state ≠ .up) → ∀ cw n f p, ∀ i ∈ ([.zarogCodewordReceive z cw, .zarogNak z n, .zportReplayLimit z, .linkFlit z f,
      .zarogPacketReceive z p] : List Instr), exec i s = .next s) ∧
    (s.eng.zlive z = true → (s.eng.zport z).state = .up →
    let k := s.eng.zport z
    let into (f : ZPort → ZPort) : Outcome := .next (withEng s (s.eng.modZport z f))

    (∀ cw : Codeword,
      (15 < cw.errors → exec (.zarogCodewordReceive z cw) s = .next (withEng s ((s.eng.modZport z (fun k =>
        { k with uncorr := min 0xFFFF (k.uncorr + 1), nak := some k.rxSeq })).sendLink s.now z (some k.rxSeq)))) ∧
      (cw.errors ≤ 15 →
        let n := if cw.errors = 0 then k.corrRaw else min 65535999 (k.corrRaw + 1)
        let ok (k : ZPort) : ZPort := { k with corrRaw := n, rxSeq := (k.rxSeq + 1) % 65536, nak := none, rxSince := k.rxSince + 1 }
        (cw.seq % 65536 ≠ k.rxSeq → exec (.zarogCodewordReceive z cw) s = into (fun k => { k with corrRaw := n })) ∧
        (cw.seq % 65536 = k.rxSeq → k.rxSince + 1 < 32 → exec (.zarogCodewordReceive z cw) s = into ok) ∧
        (cw.seq % 65536 = k.rxSeq → 32 ≤ k.rxSince + 1 → exec (.zarogCodewordReceive z cw) s =
          .next (withEng s ((s.eng.modZport z ok).sendLink s.now z none))))) ∧
    (∀ n, let near := (k.txSeq s.now + 65536 - n % 65536) % 65536
      (near ≤ 2048 → exec (.zarogNak z n) s = .next (withEng s ((s.eng.modZport z (fun k => { k with
        replays := min 0xFFFF (k.replays + 1), replayTicks := k.replayTicks.filter (fun x => decide (s.now < x + 1000)) ++ [s.now]
        acked := (n + 65535) % 65536 })).send (.replay z (n % 65536))))) ∧
      (2048 < near → exec (.zarogNak z n) s = .next s)) ∧
    ((k.replayTicks.filter (fun x => decide (s.now < x + 1000))).length ≤ 16 → exec (.zportReplayLimit z) s = .next s) ∧
    (16 < (k.replayTicks.filter (fun x => decide (s.now < x + 1000))).length → exec (.zportReplayLimit z) s =
      .next (withEng s (s.eng.leaveUp s.now z .detect 6))) ∧
    (∀ f : LinkFlit, exec (.linkFlit z f) s = .next (withEng s ((s.eng.modZport z (fun k => { k with
      credits := f.credits.foldl (fun m x => if x.1 = 0 ∨ 5 < x.1 then m else mmod (fun _ => 0) x.1 (fun n => min 32768 (n + x.2)) m) k.credits
      acked := f.ack % 65536, inFlight := k.inFlight.filter (fun x => !seqLe x.last (f.ack % 65536)), stopMask := f.stopMask % 2 ^ 32 })).zmoves s.now z))) ∧
    (∀ p : ZPacket,
      let n := zpacketFlits p
      let drop : Outcome := .next (withEng s ((s.eng.modZport z (fun k => { k with discards := k.discards + 1 })).owe z p.vc n))
      let mine := packetFormed p = true ∧ p.snode ≠ s.eng.node ∧ p.dnode = s.eng.node
      let on := packetFormed p = true ∧ p.snode ≠ s.eng.node ∧ p.dnode ≠ s.eng.node ∧ 1 < p.ttl
      (packetFormed p = false → exec (.zarogPacketReceive z p) s = drop) ∧
      (packetFormed p = true → p.snode = s.eng.node → exec (.zarogPacketReceive z p) s =
        .next (withEng s (((s.eng.modZport z (fun k => { k with discards := k.discards + 1 })).owe z p.vc n).leaveUp s.now z .parked 5))) ∧
      (packetFormed p = true → p.snode ≠ s.eng.node → p.dnode ≠ s.eng.node → p.ttl ≤ 1 → exec (.zarogPacketReceive z p) s = drop) ∧
      (on → s.eng.portTo none p.dnode p.siteSum = none → exec (.zarogPacketReceive z p) s = drop) ∧
      (∀ y, on → s.eng.portTo none p.dnode p.siteSum = some y →
        (32768 < s.eng.rxHeld z + n → exec (.zarogPacketReceive z p) s = .next s) ∧
        (s.eng.rxHeld z + n ≤ 32768 → exec (.zarogPacketReceive z p) s =
          .next (withEng s (s.eng.zput s.now y { p := { p with ttl := p.ttl - 1 }, via := some z })))) ∧
      (mine → p.type = 1 → s.eng.locOfV p.dpart p.dvtile = none → exec (.zarogPacketReceive z p) s = drop) ∧
      (∀ u, mine → p.type = 1 → s.eng.locOfV p.dpart p.dvtile = some u →
        (s.eng.takeHem (z / 12) 1 (if p.sys then 32 else p.dpart) n = none → exec (.zarogPacketReceive z p) s = .next s) ∧
        (∀ e, s.eng.takeHem (z / 12) 1 (if p.sys then 32 else p.dpart) n = some e → exec (.zarogPacketReceive z p) s =
          .next (withEng s (({ e with flight := e.flight ++ [{
            src := u, dst := u, part := p.dpart, sys := p.sys, epoch := p.epoch, body := .msg p.mbox p.payload }] } : Engine).owe z p.vc n)))) ∧
      (mine → p.type = 5 → exec (.zarogPacketReceive z p) s =
        .next (withEng s (({ s.eng with pair := { s.eng.pair with lastBeat := s.now } } : Engine).owe z p.vc n))) ∧
      (mine → p.type = 6 →
        (s.eng.takeHem (z / 12) 1 32 n = none → exec (.zarogPacketReceive z p) s = .next s) ∧
        (∀ e, s.eng.takeHem (z / 12) 1 32 n = some e → exec (.zarogPacketReceive z p) s = .next (withEng s ((e.takeFrame s.now p.payload).owe z p.vc n)))) ∧
      (mine → (p.type = 2 ∨ p.type = 3) → exec (.zarogPacketReceive z p) s = .next (withEng s (s.eng.owe z p.vc n)))))) ∧
  (∀ (s : State) (z c w : Nat), z < 24 → exec (.zarogModuleInsert z c w) s =
    .next (withEng s (s.eng.modZport z (fun k => { k with cls := c, powered := decide (w ≤ 30) && decide (c < 3) })))) ∧
  (∀ (s : State) (z : Nat), z < 24 →
    let e := s.eng.modZport z (fun k => { k with enable := false })
    exec (.portConnectorFault (.zarog z)) s = .next (withEng s (if (s.eng.zport z).state = .up then e.leaveUp s.now z .detect 1 else e))) ∧
  ∀ (s : State) (k : Nat), k < 8 →
    exec (.portConnectorFault (.pcie k)) s = .next (withEng s (linkDown k s.now (s.eng.modHport k (fun h => { h with enable := false }))))

/-- The pace unit (R368, R369, R371, R489): the source's loss begins holdover with its event, its return ends it; a Sync, an edge or a
PACE packet of the selected source steers by at most 1 ns a tick; MGMT takes PTP messages only. -/
def Obligations.PaceResults : Prop :=
  (∀ s : State,
    let p := s.eng.pace
    let lost (e : Engine) : Engine := if p.state = 2 then e else ({ e with pace := { p with state := 2, holdSince := s.now, steer := 0 } } : Engine).supEvent s.now 0x0504 p.src 0
    let steer (o : Int) : Int := if o < 0 then -1 else if 0 < o then 1 else 0
    (s.eng.sourceLost s.now = false → exec .paceHoldover s = .next s) ∧
    (s.eng.sourceLost s.now = true → exec .paceHoldover s = .next (withEng s (lost s.eng))) ∧
    ((p.src = 4 ∨ p.state = 0) → exec .paceLocked s = .next s) ∧
    (p.src ≠ 4 → p.state ≠ 0 → exec .paceLocked s =
      .next (withEng s (({ s.eng with pace := { p with state := 0 } } : Engine).supEvent s.now 0x0505 p.src
        (if p.state = 2 then min 0xFFFF ((s.now - p.holdSince) / 1000000) else 0)))) ∧
    (∀ z x, z < 24 →
      let k := s.eng.zport z
      let e := (s.eng.sendPace s.now z).modZport z (fun k => { k with nextPace := s.now + 64, delayOut := x.delayOutNs, delayIn := x.delayInNs })
      ((k.state ≠ .up ∨ s.now < k.nextPace) → exec (.paceExchange z x) s = .next s) ∧
      (k.state = .up → k.nextPace ≤ s.now → (p.src ≠ 3 ∨ p.port ≠ z) → exec (.paceExchange z x) s = .next (withEng s e)) ∧
      (k.state = .up → k.nextPace ≤ s.now → p.src = 3 → p.port = z → (15 < x.hops ∨ x.master = s.eng.node) →
        exec (.paceExchange z x) s = .next (withEng s (lost e))) ∧
      (k.state = .up → k.nextPace ≤ s.now → p.src = 3 → p.port = z → x.hops ≤ 15 → x.master ≠ s.eng.node → exec (.paceExchange z x) s =
        .next (withEng s { e with pace := { p with steer := steer x.offsetNs, master := x.master, hops := x.hops + 1 } }))) ∧
    (∀ isPtp kind v, (isPtp = false ∨ kind ≠ .sync ∨ p.src ≠ 2) → exec (.ptpMessage isPtp kind v) s = .next s) ∧
    (∀ v, p.src = 2 → exec (.ptpMessage true .sync v) s =
      .next (withEng s { s.eng with pace := { p with lastSync := s.now, steer := steer ((v : Int) - s.now) } })) ∧
    (∀ o, (p.src ≠ 0 → exec (.paceInEdge o) s = .next s) ∧
      (p.src = 0 → o.natAbs ≤ 1000 → exec (.paceInEdge o) s = .next (withEng s { s.eng with pace := { p with lastEdge := s.now, steer := steer (-o) } })) ∧
      (p.src = 0 → 1000 < o.natAbs → exec (.paceInEdge o) s = .next (withEng s (lost s.eng))))) ∧
  ∀ (e : Engine) (now : Nat),
    let p := e.pace
    (p.src = 0 → (e.sourceLost now = true ↔ p.lastEdge + 2100000 ≤ now)) ∧ (p.src = 2 → (e.sourceLost now = true ↔ p.lastSync + 3000000 ≤ now)) ∧
    (p.src = 3 → (e.sourceLost now = true ↔ (e.zport p.port).state ≠ .up)) ∧ (p.src = 4 → e.sourceLost now = false)

/-- Actions announced by tick (R315, R367, R372, R373, R378): a prepare is acknowledged unless another epoch is open, the partition is FREE
or REBINDING, or the deadline has passed; the last acknowledgement commits, a refusal or the deadline aborts; the decision goes out again
every 100 ticks (for a shared command as long as the model's log entry 148 says).

The parts of a span (R365, R366): an announcement makes an engine known to the partitions with another part; a part's step begins
with the batch table, its tiles wait for their handoffs, the records come back once, and the accepted paths end the step. -/
def Obligations.SpanResults : Prop :=
  (
  (∀ (s : State) (m : Prepare), m.part < 32 →
    let q := s.eng.part m.part
    let ok := q.prepared = none ∧ q.state ≠ .free ∧ q.state ≠ .rebinding ∧ s.now ≤ m.deadline
    let say (phase : Nat) (e : Engine) : Outcome :=
      .next (withEng s (if m.twoPhase = true then e.ctrl s.now m.coordinator m.part (.epoch m.part m.epoch phase) else e))
    (∀ x, m.what = .modes x →
      (¬ ok → exec (.epochPrepare m) s = say 2 s.eng) ∧
      (ok → exec (.epochPrepare m) s = say 1 (({ s.eng with order := s.eng.order + 1 } : Engine).modPart m.part (fun q => { q with
        prepared := some { msg := m, modes := x, turn := { tick := s.now, deck := s.eng.partDeck m.part, seq := s.eng.order } } })))) ∧
    (m.what = .snapshot → (¬ ok → exec (.epochPrepare m) s = say 2 s.eng) ∧ (ok → exec (.epochPrepare m) s = say 1 s.eng)) ∧
    (∀ g, m.what = .stop g →
      (q.step ≠ none → g = true → exec (.epochPrepare m) s = .next (withEng s (s.eng.abandonStep m.part s.now))) ∧
      (q.step ≠ none → g = false → exec (.epochPrepare m) s = .next (withEng s (s.eng.modPart m.part (fun q => { q with pauseAfter := true })))) ∧
      (q.step = none → exec (.epochPrepare m) s = .next (withEng s (s.eng.pausePart m.part s.now (if g then .graphFault else .normWatch))))) ∧
    (∀ l, m.what = .failed l → exec (.epochPrepare m) s = .next (withEng s (s.eng.modPart m.part (fun q =>
      { q with failed := if q.step.isSome then q.failed ++ l else q.failed })))) ∧
    (∀ fn bs, m.what = .command fn bs →
      (commandOf fn bs [] = none → exec (.epochPrepare m) s = say 2 s.eng) ∧
      (∀ c f run, commandOf fn bs [] = some c → (∀ h k a, c ≠ .reqQuery h k a) → hostEffect c = some (f, run) →
        (m.twoPhase = true → ¬ ok → exec (.epochPrepare m) s = say 2 s.eng) ∧
        ((m.twoPhase = false ∨ ok) → exec (.epochPrepare m) s = say 1 (s.eng.holdForwarded m fn bs c (f s.eng) s.now))))) ∧
  (∀ (s : State) (p n k : Nat) (c : Coord), p < 32 → k < 256 → (s.eng.part p).coord = some c →
    ((c.msg.epoch ≠ k ∨ c.decision ≠ none ∨ n ∉ c.waiting) → ∀ ok, exec (.epochAck p n ok k) s = .next s) ∧
    (c.msg.epoch = k → c.decision = none → n ∈ c.waiting →
      (exec (.epochAck p n false k) s = .next (withEng s (s.eng.abortEpoch s.now p c n))) ∧
      ((∃ j ∈ c.waiting, j ≠ n) → exec (.epochAck p n true k) s = .next (withEng s (s.eng.modPart p (fun q =>
        { q with coord := some { c with waiting := c.waiting.filter (· != n) } })))) ∧
      ((∀ j ∈ c.waiting, j = n) → exec (.epochAck p n true k) s = .next (withEng s ((s.eng.epochMsg s.now c.nodes c.msg.epoch 3).modPart p (fun q =>
        { q with
            prepared := q.prepared.map (fun x => { x with decided := some true })
            coord := some { c with waiting := [], decision := some true, nextSend := s.now + 100 } })))))) ∧
  (∀ (s : State) (p n k : Nat) (ok : Bool), p < 32 → k < 256 → (s.eng.part p).coord = none → exec (.epochAck p n ok k) s = .next s) ∧
  (∀ (s : State) (p n k d : Nat) (x : Held) (a : Act), p < 32 → 256 ≤ k → s.eng.actHeld k = some (d, x) → x.act = some a →
    let code := n + 4096 * p
    let b := a.acked code
    ((a.decision ≠ none ∨ code ∉ a.waiting) → ∀ ok, exec (.epochAck p n ok k) s = .next s) ∧
    (a.decision = none → code ∈ a.waiting →
      exec (.epochAck p n false k) s = .next (withEng s (((s.eng.unhold d x).decideAct s.now (x.parts.headD 0) a false).reply s.now x.hd .timeout n)) ∧
      ((∃ j ∈ a.waiting, j ≠ code) → exec (.epochAck p n true k) s = .next (withEng s (s.eng.setAct d x b))) ∧
      ((∀ j ∈ a.waiting, j = code) → exec (.epochAck p n true k) s = .next (withEng s ((s.eng.setAct d x b).decideAct s.now (x.parts.headD 0) b true))))) ∧
  (∀ (s : State) (p : Nat), p < 32 →
    let e1 := match (s.eng.part p).coord with
      | some c => if c.decision = none ∧ c.msg.deadline ≤ s.now then s.eng.abortEpoch s.now p c (c.waiting.headD 0) else s.eng
      | none => s.eng
    let e2 := (e1.lateHeld p s.now).foldl (fun e x =>
      ((e.unhold x.1 x.2.1).decideAct s.now (x.2.1.parts.headD 0) x.2.2 false).reply s.now x.2.1.hd .timeout (x.2.2.waiting.headD 0 % 4096)) e1
    exec (.epochDeadline p) s = .next (withEng s ((e2.snaps.filter (fun x => x.mask.testBit p)).foldl (fun e x =>
      match x.act with
      | some a => if a.decision = none ∧ a.deadline ≤ s.now then e.abortSnap s.now x a (a.waiting.headD 0 % 4096) else e
      | none => e) e2))) ∧
  (∀ (s : State) (p : Nat), p < 32 →
    let e1 := match (s.eng.part p).coord with
      | some c => (match c.decision with
        | some d => if s.now < c.nextSend then s.eng
          else (s.eng.epochMsg s.now c.nodes c.msg.epoch (if d then 3 else 4)).modPart p (fun q => { q with coord := some { c with nextSend := s.now + 100 } })
        | none => s.eng)
      | none => s.eng
    exec (.epochDecisionResend p) s = .next (withEng s
      ((((e1.part p).told.filter (fun x => decide (x.2.2.2 ≤ s.now))).foldl (fun e x =>
        e.epochMsg s.now (x.2.1.map (fun n => (n % 4096, n / 4096))) x.1 (if x.2.2.1 then 3 else 4)) e1).modPart p (fun q =>
          { q with told := q.told.map (fun x => if x.2.2.2 ≤ s.now then (x.1, x.2.1, x.2.2.1, s.now + 100) else x) })))) ∧
  ∀ (s : State) (p n : Nat) (b : Bool), p < 32 →
    (256 ≤ n → exec (.epochDecision p n b) s = .next (withEng s (s.eng.decideHeld n b))) ∧
    (n < 256 → (s.eng.part p).prepared = none → exec (.epochDecision p n b) s = .next s) ∧
    (∀ x, n < 256 → (s.eng.part p).prepared = some x →
      let leads := ∃ c, (s.eng.part p).coord = some c ∧ c.decision = none
      ((x.msg.epoch ≠ n ∨ x.decided ≠ none ∨ leads) → exec (.epochDecision p n b) s = .next s) ∧
      (x.msg.epoch = n → x.decided = none → ¬ leads → exec (.epochDecision p n b) s =
        .next (withEng s (s.eng.modPart p (fun q => { q with prepared := if b then some { x with decided := some true } else none })))))) ∧
  (
  (∀ (s : State) (a : SpanPart), a.part < 4 →
    let b := heardPart a
    let e1 : Engine := { s.eng with heard := s.eng.heard.filter (fun y => !(y.id == a.id && y.part == a.part)) ++ [b] }
    ∃ e2 : Engine, e2 = { e1 with parts := e2.parts } ∧
      (∀ p, let q := s.eng.part p
        let on := p < 32 ∧ q.spanLast ≠ 0 ∧ a.part ≤ q.spanLast ∧ a.part ≠ q.spanIndex ∧ ∃ i, q.image = some i ∧ (s.eng.image i).id = a.id
        (on → e2.part p = { q with spanOf := mset (fun _ => 0xFFF) a.part (a.node % 4096 + 4096 * (a.partition % 32)) q.spanOf }) ∧ (¬ on → e2.part p = q)) ∧
      (b ∈ s.eng.heard → exec (.spanAnnounce a.id a.part a.node a.partition a.knows a.samples a.batches a.handoff a.room) s = .next (withEng s e2)) ∧
      (b ∉ s.eng.heard → exec (.spanAnnounce a.id a.part a.node a.partition a.knows a.samples a.batches a.handoff a.room) s = .next (withEng s (e2.announceParts s.now (fun y => y.id == a.id) (fun _ _ => true))))) ∧
  (∀ (s : State) (p : Nat) (batch : List Byte) (dirs : List (Loc × List Byte)), p < 32 → (∀ x ∈ dirs, locOk x.1 = true) →
    let e := (s.eng.disableStops s.now).boundary p s.now
    (((s.eng.part p).step.isSome = true ∨ (s.eng.part p).capture = true ∨ s.eng.serving = false) → exec (.spanBatchReceive p batch dirs) s = .next s) ∧
    ((s.eng.part p).step = none → (s.eng.part p).capture = false → s.eng.serving = true →
      (e.mayFollow p s.now = false → exec (.spanBatchReceive p batch dirs) s = .next (withEng s e)) ∧
      (e.mayFollow p s.now = true → exec (.spanBatchReceive p batch dirs) s = .next (withEng s (e.followStep p s.now batch dirs))))) ∧
  (∀ (s : State) (p r : Nat) (data : List Byte), p < 32 → (s.eng.part p).step = none →
    (∀ i ∈ ([.spanHandoff p r data, .spanRecordsReturn p r data, .spanAcceptedPath p []] : List Instr), exec i s = .next s)) ∧
  ∀ (s : State) (p : Nat) (st : Step), p < 32 → (s.eng.part p).step = some st →
    (∀ r data, (s.eng.batchTiles p)[r]? = none → exec (.spanHandoff p r data) s = .next s) ∧
    (∀ r u data, (s.eng.batchTiles p)[r]? = some u →
      (u ∉ st.waits → exec (.spanHandoff p r data) s = .next s) ∧
      (u ∈ st.waits → exec (.spanHandoff p r data) s = .next (withEng s ((s.eng.toRoleAt p u 1 (ceilDiv (64 + 32 * st.batch.length) 64 * 64) data).modPart p (fun q =>
        { q with step := q.step.map (fun x => { x with waits := x.waits.filter (· != u) }) }))))) ∧
    (∀ r data, (s.eng.sampleSites p)[r]? = none → exec (.spanRecordsReturn p r data) s = .next s) ∧
    (∀ r u data, (s.eng.sampleSites p)[r]? = some u →
      (((s.eng.part p).spanIndex ≠ 0 ∨ st.handed = false ∨ r ∈ st.records) → exec (.spanRecordsReturn p r data) s = .next s) ∧
      ((s.eng.part p).spanIndex = 0 → st.handed = true → r ∉ st.records → exec (.spanRecordsReturn p r data) s =
        .next (withEng s ((s.eng.toSample p u data).modPart p (fun q => { q with step := q.step.map (fun x => { x with records := x.records ++ [r] }) }))))) ∧
    (∀ paths, ((s.eng.part p).spanIndex = 0 ∨ st.handed = false) → exec (.spanAcceptedPath p paths) s = .next s) ∧
    (∀ paths, (s.eng.part p).spanIndex ≠ 0 → st.handed = true →
      let e := paths.foldl (fun e x => e.applyPath (s.eng.dirPages p) x.1 (((st.batch.find? (fun b => b.req == x.1)).map (·.len)).getD x.2.1) x.2.1 x.2.2) s.eng
      exec (.spanAcceptedPath p paths) s = .next (withEng s ((e.watch s.now p st.batch ((st.batch.map (·.req)).eraseDups)).1.endStep p s.now st.start))))

/-- The pair (R377 to R383): heartbeats every 100 ticks; 5 ms without one makes a standby secondary primary and orphans the others but a
mirror primary; PAIR_CFG ends with the twin's first report or after 60 s; digests are compared when both are there; a step's state is placed
and acknowledged, and the acknowledged step's packets are released. The primary's report of its stop and the handover come by the row of the
heartbeat's loss (the model's log entry 160). -/
def Obligations.PairResults : Prop :=
  (∀ (s : State),
    let x := s.eng.pair
    ((x.mode = 0 ∨ s.now < x.nextBeat) → exec .pairHeartbeat s = .next s) ∧
    (x.mode ≠ 0 → x.nextBeat ≤ s.now → exec .pairHeartbeat s = .next (withEng s
      ((((setBits x.mask 24).filter (fun z => (s.eng.zport z).state == .up)).foldl (fun e z =>
        e.zput s.now z { p := e.zheader 5 e.partnerNode 0 0 0 true [], b := .heartbeat }) s.eng).modPair (fun y => { y with nextBeat := s.now + 100 })))) ∧
    (let paired := ∃ p ∈ s.eng.pairedParts, (s.eng.part p).pair ≠ 3
     let dead := x.mode ≠ 0 ∧ x.lastBeat + 5000 ≤ s.now ∧ x.alone = false ∧ x.pendingCfg = none ∧ paired
     (¬ dead → exec (.pairHeartbeatLoss .silence) s = .next s) ∧
     (dead → x.mode = 1 → x.primary = true → exec (.pairHeartbeatLoss .silence) s = .next (withEng s (s.eng.goAlone s.now))) ∧
     (dead → x.mode = 1 → x.primary = false → exec (.pairHeartbeatLoss .silence) s = .next (withEng s (s.eng.stopPaired s.now))) ∧
     (dead → x.mode ≠ 1 → x.primary = true → exec (.pairHeartbeatLoss .silence) s = .next (withEng s (s.eng.stopPaired s.now))) ∧
     (dead → x.mode ≠ 1 → x.primary = false → exec (.pairHeartbeatLoss .silence) s = .next (withEng s (s.eng.takeover s.now)))) ∧
    (let second := x.mode ≠ 0 ∧ x.primary = false ∧ x.pendingCfg = none ∧ ∃ p ∈ s.eng.pairedParts, (s.eng.part p).pair = 2
     (¬ second → ∀ n ∈ ([.stopped, .handover] : List PairNews), exec (.pairHeartbeatLoss n) s = .next s) ∧
     (second → exec (.pairHeartbeatLoss .stopped) s = .next (withEng s (s.eng.takeover s.now))) ∧
     (second → x.mode ≠ 2 → exec (.pairHeartbeatLoss .handover) s = .next s) ∧
     (second → x.mode = 2 → exec (.pairHeartbeatLoss .handover) s =
       .next (withEng s ((s.eng.takeover s.now).modPair (fun y => { y with alone := false }))))) ∧
    (x.pendingCfg = none → exec .pairCfgTimeout s = .next s) ∧
    (∀ h n, x.pendingCfg = some (h, n) → (s.now < n → exec .pairCfgTimeout s = .next s) ∧
      (n ≤ s.now → exec .pairCfgTimeout s = .next (withEng s (({ s.eng with pair := {} } : Engine).reply s.now h .timeout 0))))) ∧
  (∀ (s : State) (p : Nat), p < 32 →
    (s.eng.pair.mode = 0 → exec (.pairReady p) s = .next s) ∧
    (s.eng.pair.mode ≠ 0 →
      let e := match s.eng.pair.pendingCfg with
        | some (h, _) => ({ s.eng with pair := { s.eng.pair with pendingCfg := none } } : Engine).okReply s.now h
        | none => s.eng
      let able := (e.part p).image.isSome = true ∧ (e.part p).spanLast = 0 ∧ (e.part p).pair ≠ 3
      (¬ able → exec (.pairReady p) s = .next (withEng s e)) ∧
      (able → exec (.pairReady p) s = .next (withEng s (e.modPart p (fun q =>
        { q with twinReady := true, pair := if q.pair = 0 then (if e.pair.primary then 1 else 2) else q.pair }))))) ∧
    (∀ d, ((s.eng.part p).step = none ∨ s.eng.mirrored p = false) → exec (.mirrorDigest p d) s = .next s) ∧
    (∀ d st, (s.eng.part p).step = some st → s.eng.mirrored p = true →
      ((st.drawn = false ∨ st.halted = true) → exec (.mirrorDigest p d) s = .next (withEng s (s.eng.modPart p (fun q => { q with digest := some d })))) ∧
      (∀ ds, st.drawn = true → st.halted = false → s.eng.drawStep p st = .tokens ds →
        exec (.mirrorDigest p d) s = .next (withEng s (s.eng.compareDigest p s.now st ds d))) ∧
      (st.drawn = true → st.halted = false → (∀ ds, s.eng.drawStep p st ≠ .tokens ds) → exec (.mirrorDigest p d) s = .next s)) ∧
    (∀ rep, (s.eng.pair.mode ≠ 2 ∨ (s.eng.part p).pair ≠ 2) → exec (.standbyReplication p rep) s = .next s) ∧
    (∀ rep, s.eng.pair.mode = 2 → (s.eng.part p).pair = 2 →
      let g := s.eng.graph (s.eng.part p).graph
      let e := rep.reqs.foldl (fun e x => e.placeRequest p rep.newest x) s.eng
      let e := rep.kv.foldl (fun e k => e.placeEntry g k) e
      let e := rep.reqs.foldl (fun e x => if (e.req x.1).state = .idle then e else e.advance x.1 (fld x.2 287 256) g) e
      let e := rep.freed.foldl (fun e x => e.freeRows x.1 x.2 g) e
      let e := rep.adapter.foldl (fun e x =>
        ((e.adaptHalf p x.1 1).zipIdx).foldl (fun e k => e.setKvBytes (x.1, k.1) 0 ((x.2.drop (k.2 * 16384)).take 16384)) e) e
      exec (.standbyReplication p rep) s = .next (withEng s ((e.modPart p (fun q => { q with
        stepNo := rep.stepNo, lastAcked := rep.stepNo, adaptSel := if rep.adapter = [] then q.adaptSel else 1 - q.adaptSel })).pairMsg s.now p 5 rep.stepNo))) ∧
    (∀ n, n ∉ (s.eng.part p).unacked → exec (.replicationAck p n) s = .next s) ∧
    (∀ n, n ∈ (s.eng.part p).unacked → exec (.replicationAck p n) s = .next (withEng s
      (((s.eng.modPart p (fun q => { q with unacked := q.unacked.filter (· != n), lastAcked := n })).releaseStep p (· == n)).tryHandover s.now))))

/-- The chair latch, the watchdogs and Safe Hold (R386 to R391, R418): a request is granted only at NONE; a write by any but the holder is
discarded and recorded; one outvoted copy is rewritten, two in a row of one copy or three values are a fault; a controller silent for 200
ms restarts and after three restarts in an hour is held; Safe Hold drops the steps, commits and tells the twin. The arguments of events
that the spec does not give (log entry 44) are free values. -/
def Obligations.SupervisorResults : Prop :=
  (∀ (s : State) (d : Nat), d < 2 →
    let k := s.eng.deck d
    let v := s.eng.sup.chairValue
    (s.eng.mayHold d = true → v = .none → exec (.chairRequest d true) s = .next (withEng s (s.eng.setChair (.deck d)))) ∧
    ((s.eng.mayHold d = false ∨ v ≠ .none) → exec (.chairRequest d true) s = .next s) ∧
    (v ≠ .deck d → exec (.chairRequest d false) s = .next s) ∧
    (v = .deck d → s.eng.mayHold (1 - d) = true → exec (.chairRequest d false) s =
      .next (withEng s ((s.eng.setChair (.deck (1 - d))).supEvent s.now 0x0402 (1 - d) 0))) ∧
    (v = .deck d → s.eng.mayHold (1 - d) = false → exec (.chairRequest d false) s = .next (withEng s (s.eng.setChair .none))) ∧
    (∀ cw, chairWriteOk cw = true →
      let holds := v = .deck d ∧ k.ctl.follow = false
      (¬ holds → exec (.chairOnlyWrite d cw) s = .next (withEng s
        (({ s.eng with freeCtr := s.eng.freeCtr + 1 } : Engine).supEvent s.now 0x010A (Config.unstatedArg s.eng.freeCtr).toNat d))) ∧
      (∀ f i x, cw = .darnMap f i x → holds → exec (.chairOnlyWrite d cw) s = .next (withEng s (s.eng.modField f (fun y =>
        { y with darnMap := mset darnMapReset i (x &&& 0x83FF#16) y.darnMap })))) ∧
      (∀ f i st, cw = .darnSite f i st → holds → exec (.chairOnlyWrite d cw) s = .next (withEng s (s.eng.setSite { field := f, site := i } st))) ∧
      (∀ n, cw = .engineAction n → holds → exec (.chairOnlyWrite d cw) s = .next s) ∧
      (∀ on, cw = .nvEnable on → holds → exec (.chairOnlyWrite d cw) s = .next (withEng s (s.eng.modSup (fun x => { x with
        nvEnable := on && x.imprintEn && s.eng.cartsOk && s.eng.session.state != .idle }))))) ∧
    (k.ctl.running = true → exec (.watchdogWrite d) s =
      .next (withEng s (s.eng.modDeck d (fun k => { k with ctl := { k.ctl with lastWatchdog := s.now } })))) ∧
    (k.ctl.running = false → exec (.watchdogWrite d) s = .next s) ∧
    (s.eng.power.stage < 4 → exec (.watchdogRestart d) s = .next s) ∧
    (4 ≤ s.eng.power.stage → k.ctl.running = false → exec (.watchdogRestart d) s =
      .next (withEng s (if s.eng.bothDown s.now then s.eng.enterSafeHold s.now 1 else s.eng))) ∧
    (4 ≤ s.eng.power.stage → k.ctl.running = true → s.now < k.ctl.lastWatchdog + 200000 → exec (.watchdogRestart d) s = .next s) ∧
    (4 ≤ s.eng.power.stage → k.ctl.running = true → k.ctl.lastWatchdog + 200000 ≤ s.now →
      let l := k.ctl.restarts.filter (fun t => decide (s.now < t + 3600000000))
      (l.length < 3 → exec (.watchdogRestart d) s = .next (withEng s (((s.eng.modDeck d (fun k => { k with ctl := { k.ctl with
        running := false, restarts := l ++ [s.now], claims := 0, follow := false } })).supEvent s.now 0x0403 (l.length + 1) d).passChair s.now d 1))) ∧
      (3 ≤ l.length →
        let e := (s.eng.modDeck d (fun k => { k with ctl := { k.ctl with running := false, heldReset := true, claims := 0, follow := false } })).passChair s.now d 1
        exec (.watchdogRestart d) s = .next (withEng s (if e.bothDown s.now then e.enterSafeHold s.now 1 else e)))) ∧
    (4 ≤ s.eng.power.stage → k.ctl.running = false → k.ctl.heldReset = false → k.latchedOff = false →
      let e := (s.eng.keptBack s.now d).foldl (fun e x => e.partEvent s.now (x.2.parts.headD 0) 0x0106 x.1 (s.now - x.2.hd.tick)) s.eng
      let e := e.modDeck d (fun k => { k with ctl := { k.ctl with running := true, lastWatchdog := s.now } })
      exec (.controllerRestartDone d) s = .next (withEng s ((((e.deck d).intake.map (·.fn)).eraseDups).foldl (fun e f => e.intakeMoves s.now f) e))) ∧
    ((s.eng.power.stage < 4 ∨ k.ctl.running = true ∨ k.ctl.heldReset = true ∨ k.latchedOff = true) → exec (.controllerRestartDone d) s = .next s)) ∧
  (∀ (s : State) (flip : Option (Nat × Chair)), (∀ k x, flip = some (k, x) → k < 3 ∧ chairOk x = true) →
    let e := match flip with | none => s.eng | some (k, x) => s.eng.modSup (fun y => { y with chair := y.chair.set k x })
    let fault (e : Engine) : Engine := if 4 ≤ e.power.stage then e.enterSafeHold s.now 0 else e
    (threeWays e.sup.chair = true → exec (.chairVote flip) s = .next (withEng s (fault e))) ∧
    (threeWays e.sup.chair = false → outvoted e.sup.chair = none → exec (.chairVote flip) s = .next (withEng s e)) ∧
    (∀ k, threeWays e.sup.chair = false → outvoted e.sup.chair = some k →
      let e1 := (e.setChair e.sup.chairValue).modSup (fun y => { y with voteFails := y.voteFails.filter (fun x => x.1 != k) ++ [(k, s.now)] })
      let e2 := e1.unlistedEvent s.now e1.chairDeck 0xFF 1
      ((∀ t, (k, t) ∈ e.sup.voteFails → t + 1000000 < s.now) → exec (.chairVote flip) s = .next (withEng s e2)) ∧
      ((∃ t, (k, t) ∈ e.sup.voteFails ∧ s.now ≤ t + 1000000) → exec (.chairVote flip) s = .next (withEng s (fault e2))))) ∧
  (∀ a b c : Chair, (threeWays [a, b, c] = true ↔ a ≠ b ∧ b ≠ c ∧ a ≠ c) ∧ (outvoted [a, b, c] = some 0 ↔ a ≠ b ∧ b = c) ∧
    (outvoted [a, b, c] = some 1 ↔ a ≠ b ∧ a = c) ∧ (outvoted [a, b, c] = some 2 ↔ a = b ∧ b ≠ c)) ∧
  (∀ (s : State) (c0 c1 : Bool), exec (.chairClaimSample c0 c1) s = .next (withEng s ((s.eng.sampleClaim s.now 0 c0).sampleClaim s.now 1 c1))) ∧
  (∀ (e : Engine) (now d : Nat) (claim : Bool),
    let v := e.sup.chairValue
    let n := if claim = true ∧ v ≠ .deck d then (e.deck d).ctl.claims + 1 else 0
    let e' := e.modDeck d (fun k => { k with ctl := { k.ctl with claims := min 10 n, follow := (k.ctl.follow && claim) || decide (10 ≤ n) } })
    (((e.deck d).ctl.follow = true ∨ n < 10) → e.sampleClaim now d claim = e') ∧
    ((e.deck d).ctl.follow = false → 10 ≤ n → e.sampleClaim now d claim = ({ e' with freeCtr := e.freeCtr + 1 } : Engine).supEvent now 0x0401 d
      (match v with | .deck h => h | .none => (Config.unstatedArg e.freeCtr).toNat % 2 ^ 32))) ∧
  (∀ (e : Engine) (now c : Nat), (e.sup.safeHold = true → e.enterSafeHold now c = e) ∧
    (e.sup.safeHold = false → e.enterSafeHold now c =
      let e := ((e.dropSteps.commitAll now).modSup (fun x => { x with safeHold := true })).supEvent now 0x0404 c 0
      e.pairedParts.foldl (fun e p => e.pairMsg now p 7 0) e)) ∧
  ∀ (s : State),
    exec (.supervisorSelfCheck true) s = .next s ∧
    (s.eng.power.stage < 4 → exec (.supervisorSelfCheck false) s = .next s) ∧
    (4 ≤ s.eng.power.stage → exec (.supervisorSelfCheck false) s = .next (withEng s (s.eng.enterSafeHold s.now 2))) ∧
    (s.now < s.eng.sup.bucketAt → exec .journalBucketRefill s = .next s) ∧
    (s.eng.sup.bucketAt ≤ s.now → exec .journalBucketRefill s =
      .next (withEng s (s.eng.modSup (fun x => { x with bucket := min 64 (x.bucket + 1), bucketAt := s.now + 15625 }))))

/-- Feeds, phases and shorts (R384, R421 to R427, R431, R433, R482): a feed below 40 V is lost; the loss of both takes the engine Off
through the commit where a cartridge is charged (its duration is a free value, log entry 37); a phase is shed once; a short in service
latches its deck off and during soft start is tried three more times. -/
def Obligations.FeedAndPhaseResults : Prop :=
  (∀ (s : State) (b : Bool),
    (∀ cv, ((s.eng.feed b).lost = true ∨ 4000 ≤ cv) → exec (.feedLoss b cv) s = .next s) ∧
    (∀ cv, (s.eng.feed b).lost = false → cv < 4000 →
      let e := s.eng.modFeed b (fun f => { f with lost := true, cv := cv, amps := 0 })
      let e := if (e.feed (!b)).lost then e.modSup (fun x => { x with bothAbsent := some s.now }) else e
      exec (.feedLoss b cv) s = .next (withEng s (e.powerEvent s.now false e.chairDeck 0xFF 0x060A e.feedVolts e.feedsLost))) ∧
    (∀ cv, (s.eng.feed b).lost = true → (s.eng.feed b).mated = true → 4000 ≤ cv → exec (.feedReturn b cv) s =
      .next (withEng s ((s.eng.modFeed b (fun f => { f with lost := false, cv := cv })).modSup (fun x =>
        { x with bothAbsent := x.bothAbsent.filter (fun t => decide (t + 5000000 ≤ s.now)) })))) ∧
    (∀ cv, ((s.eng.feed b).lost = false ∨ (s.eng.feed b).mated = false ∨ cv < 4000) → exec (.feedReturn b cv) s = .next s) ∧
    exec (.feedSenseMated b) s = .next (withEng s (s.eng.modFeed b (fun f => { f with mated := true }))) ∧
    (∀ x y, (4000 ≤ x ∨ 4000 ≤ y) → exec (.powerLoss x y) s = .next s) ∧
    (∀ x y, x < 4000 → y < 4000 →
      let e := (s.eng.loseFeed s.now false x).loseFeed s.now true y
      (e.power.stage = 0 → exec (.powerLoss x y) s = .next (withEng s e)) ∧
      (e.power.stage ≠ 0 →
        let ran := e.holdUp && decide (5 ≤ e.power.stage)
        let us := if ran then Config.commitTime e.freeCtr else 0
        let e' := ({ e with freeCtr := e.freeCtr + 1 } : Engine).powerEvent s.now false e.chairDeck 0xFF 0x060A e.feedVolts (3 + 4 * bnat ran + 65536 * (us % 65536))
        exec (.powerLoss x y) s = .next (withEng s (e'.fallOff s.now ran)))) ∧
    (let dark := s.eng.feedsLost = 3 ∧ ∃ a, s.eng.sup.bothAbsent = some a ∧ a + 5000000 ≤ s.now
     (dark → exec .latchClear s = .next (withEng s (((s.eng.modDeck 0 (fun k => { k with latchedOff := false, attempts := 0 })).modDeck 1 (fun k =>
       { k with latchedOff := false, attempts := 0 })).modSup (fun x => { x with thermLatch := false, leakLatch := false, leak := 0 })))) ∧
     (¬ dark → exec .latchClear s = .next s))) ∧
  (∀ (e : Engine) (now : Nat), (e.fallOff now true).power.state = .off ∧ (e.fallOff now false).power.stage = 0 ∧ (e.fallOff now true).reqs = [] ∧
    (e.fallOff now false).parts = []) ∧
  (∀ (s : State) (f : Nat), f < 96 →
    let up := s.eng.railsUp (deckOf f)
    (∀ k amps, k < 12 → (up = false ∨ k ∈ (s.eng.field f).shed) → exec (.phaseOvercurrent f k amps) s = .next s) ∧
    (∀ k amps, k < 12 → up = true → k ∉ (s.eng.field f).shed → exec (.phaseOvercurrent f k amps) s = .next (withEng s
      ((s.eng.powerEvent s.now true (deckOf f) f 0x0602 (amps % 65536 + 65536 * k) (s.eng.field f).healthy).shedPhase s.now f k .overcurrent))) ∧
    (∀ k c, k < 12 → up = true → k ∉ (s.eng.field f).shed →
      let e := s.eng.modField f (fun x => { x with shed := x.shed ++ [k] })
      let n := (e.field f).healthy
      exec (.phaseShed f k c) s = .next (withEng s (((e.powerEvent s.now true (deckOf f) f 0x0603 (k + 16 * shedCode c + 256 * n)
        (if n ≤ 2 then 15 else phaseLevel n)).throttled s.now 1 s.eng).zoneFell s.now f))) ∧
    (∀ k c, k < 12 → (up = false ∨ k ∈ (s.eng.field f).shed) → exec (.phaseShed f k c) s = .next s) ∧
    (up = true → (s.eng.field f).disagree = false → exec (.phaseDisagreement f) s = .next (withEng s
      (((s.eng.modField f (fun x => { x with disagree := true })).throttled s.now 1 s.eng).zoneFell s.now f))) ∧
    ((up = false ∨ (s.eng.field f).disagree = true) → exec (.phaseDisagreement f) s = .next s) ∧
    exec (.phaseDisagreementClear f) s = .next (withEng s ((s.eng.modField f (fun x => { x with disagree := false })).throttled s.now 1 s.eng))) ∧
  ∀ (s : State) (d : Nat), d < 2 →
    let n := (s.eng.deck d).attempts
    (∀ r, r < 5 →
      ((s.eng.deck d).latchedOff = true → exec (.deckShort d r) s = .next s) ∧
      ((s.eng.deck d).latchedOff = false → s.eng.softStarting = false → s.eng.railsUp d = true →
        exec (.deckShort d r) s = .next (withEng s ((s.eng.shortEvent s.now d r 0 true).latchDeck s.now d))) ∧
      (s.eng.softStarting = false → s.eng.railsUp d = false → exec (.deckShort d r) s = .next s) ∧
      ((s.eng.deck d).latchedOff = false → s.eng.softStarting = true → n = 0 → exec (.deckShort d r) s = .next (withEng s
        ((s.eng.modDeck d (fun k => { k with attempts := 1 })).shortEvent s.now d r 1 false))) ∧
      (s.eng.softStarting = true → n ≠ 0 → exec (.deckShort d r) s = .next s)) ∧
    ((s.eng.softStarting = false ∨ (s.eng.deck d).latchedOff = true ∨ n = 0) → ∀ r, (∀ k, r = some k → k < 5) → exec (.softStartRetry d r) s = .next s) ∧
    ((s.eng.deck d).latchedOff = false → s.eng.softStarting = true → n ≠ 0 →
      exec (.softStartRetry d none) s = .next (withEng s (s.eng.modDeck d (fun k => { k with attempts := 0 }))) ∧
      ∀ r, r < 5 →
        (n < 3 → exec (.softStartRetry d (some r)) s = .next (withEng s ((s.eng.modDeck d (fun k => { k with attempts := n + 1 })).shortEvent s.now d r (n + 1) false))) ∧
        (3 ≤ n →
          let e := ((s.eng.modDeck d (fun k => { k with attempts := n + 1 })).shortEvent s.now d r (n + 1) true).modDeck d (fun k => { k.dark with latchedOff := true })
          exec (.softStartRetry d (some r)) s = .next (withEng s (if (e.deck 0).latchedOff ∧ (e.deck 1).latchedOff then e.enterOff s.now else e))))

/-- Cracked connections, the input cap, commits and cartridges (R429, R430, R432 to R434): the sixteenth high window in a row holds the
domain; above the cap the level rises by one, after ten decisions at 98 % or less it falls by one; a commit comes every second, or every
10 ms without both cartridges; a cartridge counts as charged by its lower estimate from 90 %. What a new cartridge's gauge reads is a free
value (log entry 17). -/
def Obligations.CapAndCartridgeResults : Prop :=
  (∀ (s : State) (f amps uohm : Nat), f < 96 →
    let b := s.eng.baseline f (s.eng.field f).cBand
    let e := s.eng.modField f (fun x => { x with highWin := min 16 (x.highWin + 1) })
    ((s.eng.railsUp (deckOf f) = false ∨ amps < 100) → exec (.crackDrop f amps uohm) s = .next s) ∧
    (s.eng.railsUp (deckOf f) = true → 100 ≤ amps →
      (uohm * 4 ≤ b * 5 → exec (.crackDrop f amps uohm) s = .next (withEng s (s.eng.modField f (fun x => { x with highWin := 0 })))) ∧
      (b * 5 < uohm * 4 → (s.eng.field f).highWin ≠ 15 → exec (.crackDrop f amps uohm) s = .next (withEng s e)) ∧
      (b * 5 < uohm * 4 → (s.eng.field f).highWin = 15 → exec (.crackDrop f amps uohm) s = .next (withEng s
        (((e.powerEvent s.now true (deckOf f) f 0x0605 (b % 65536 * 65536 + uohm % 65536) (((uohm - b) * 1000 / b) % 2 ^ 32)).modDomain (fieldDomain f) (fun x =>
          { x with crack := true })).throttled s.now 3 e))))) ∧
  (∀ (s : State) (w a b : Nat),
    let cap := s.eng.capInForce
    let above := cap < w ∨ 10500 < a ∨ 10500 < b
    let low := w * 100 ≤ cap * 98 ∧ a * 100 ≤ 10500 * 98 ∧ b * 100 ≤ 10500 * 98
    ∃ n level, (low → n = min 10 (s.eng.sup.capLow + 1)) ∧ (¬ low → n = 0) ∧
      (above → level = min 9 (s.eng.sup.capLevel + 1)) ∧ (¬ above → n = 10 → level = s.eng.sup.capLevel - 1) ∧ (¬ above → n ≠ 10 → level = s.eng.sup.capLevel) ∧
      exec (.capDecision w a b) s = .next (withEng s ((((s.eng.modFeed false (fun f => { f with amps := a })).modFeed true (fun f => { f with amps := b })).modSup (fun x =>
        { x with inputW := w, capLow := n, capLevel := level, startsHeld := decide (cap < w) && (x.startsHeld || s.eng.sup.capLevel == 9) })).throttled s.now 2 s.eng))) ∧
  (∀ (s : State),
    let n := if (∀ b : Bool, (s.eng.cart b).present = true ∧ (s.eng.cart b).charged = true) then 1000000 else 10000
    ((s.eng.power.stage ≠ 8 ∨ s.now < s.eng.commit.tick + n) → exec .periodicCommit s = .next s) ∧
    (s.eng.power.stage = 8 → s.eng.commit.tick + n ≤ s.now → ∃ c, exec .periodicCommit s = .next (withEng s { s.eng with commit := c }) ∧
      c.tick = s.now ∧ c.parts = s.eng.parts ∧ c.tenants = s.eng.tenants ∧
      (mwf (fun _ => ({} : Request)) s.eng.reqs = true → ∀ i, mget (fun _ => {}) i c.reqs =
        if (s.eng.deck (i / 16384)).latchedOff then mget (fun _ => {}) i s.eng.commit.reqs else s.eng.req i))) ∧
  ∀ (s : State) (b : Bool),
    let c := s.eng.cart b
    (c.present = false →
      exec (.cartridgeRemoval b) s = .next s ∧ (∀ x y, exec (.cartridgeCharged b x y) s = .next s ∧ exec (.cartridgeEstimatesDisagree b x y) s = .next s) ∧
      (∀ j, exec (.cartridgeEndOfLife b j) s = .next s) ∧
      exec (.cartridgeInsertion b) s = .next (withEng s ((({ s.eng with freeCtr := s.eng.freeCtr + 1 } : Engine).modCart b (fun c =>
        let g := Config.gauge s.eng.freeCtr
        { c with present := true, charged := false, charging := s.eng.power.stage != 0, coulomb := g.1.toNat, voltage := g.2.1.toNat, joules := g.2.2.toNat, eol := false })).cartEvent
          s.now b 1))) ∧
    (c.present = true →
      exec (.cartridgeInsertion b) s = .next s ∧
      (let e := (s.eng.modCart b (fun c => { c with present := false, charged := false, charging := false })).cartEvent s.now b 0
       let e := if c.charging then e.cartEvent s.now b 3 else e
       exec (.cartridgeRemoval b) s = .next (withEng s ((e.breakSession s.now .cartridge).checkEnable))) ∧
      (∀ x y, min x y < 90 → exec (.cartridgeCharged b x y) s = .next s) ∧
      (∀ x y, 90 ≤ min x y → exec (.cartridgeCharged b x y) s =
        .next (withEng s ((s.eng.modCart b (fun c => { c with charged := true, coulomb := x, voltage := y })).cartEvent s.now b 2))) ∧
      (∀ x y, max x y ≤ min x y + 20 → exec (.cartridgeEstimatesDisagree b x y) s = .next s) ∧
      (∀ x y, min x y + 20 < max x y → exec (.cartridgeEstimatesDisagree b x y) s = .next (withEng s (((s.eng.modCart b (fun c =>
        { c with coulomb := x, voltage := y, charged := c.charged && decide (90 ≤ min x y) })).cartEvent s.now b 5).checkEnable))) ∧
      (∀ j, (c.eol = true ∨ 50 ≤ j) → exec (.cartridgeEndOfLife b j) s = .next s) ∧
      (∀ j, c.eol = false → j < 50 → exec (.cartridgeEndOfLife b j) s =
        .next (withEng s ((s.eng.modCart b (fun c => { c with eol := true, joules := j })).cartEvent s.now b 4))))

/-- Temperatures and coolant (R435, R436, R440 to R444, R490, R491): a sample sets readings and bands; the hottest domain above 95 °C
rises one level in a decision; three samples at 105 °C or a wet leak sensor take the engine Off and latch; flow below 70 L/min puts every
throttleable domain at level 9 and after 5 s takes the engine Off; a contact is taken after ten samples. The readings that the spec leaves
open (log entries 10, 44 and 46) are free values. -/
def Obligations.HeatResults : Prop :=
  (∀ (s : State) (f : Nat) (rs : List Int), f < 96 → rs.length = 48 →
    let n := (newlyFailed (fun k => rs.getD k 0) (s.eng.field f).sensors.failed).length
    let e := ({ s.eng with freeCtr := s.eng.freeCtr + 1 } : Engine).modField f (fun x => x.sampled rs (toSigned 16 (Config.unstatedArg s.eng.freeCtr).toNat))
    exec (.sensorSample f rs) s = .next (withEng s ((List.range n).foldl (fun e _ => e.unlistedEvent s.now (deckOf f) f 0) e)) ∧
      ((s.eng.field f).sensors.failed = [] → (∀ r ∈ rs, (0 : Int) ≤ r ∧ r < 720) → (∀ r ∈ rs, ∀ q ∈ rs, r - q ≤ 240) → (s.eng.field f).cBand = 0 →
        (e.field f).sensors.readings = rs ∧ (e.field f).sensors.failed = [] ∧ (e.field f).cBand = 0 ∧ n = 0)) ∧
  (∀ (s : State) (loads : List (Nat × Nat × Int)), (∀ x ∈ loads, x.1 < 60) →
    let xs := loads.filter (fun x => s.eng.ruled x.1)
    let e1 := xs.foldl (fun e x =>
      let t := e.predict x.1 x.2.1 x.2.2
      e.modDomain x.1 (fun y => { y with t8 := t, cool := if t < 1440 then min 10 (y.cool + 1) else 0, ms := y.ms + bnat (decide (0 < e.levelOf x.1)) })) s.eng
    let up := e1.hottestDomain (xs.map (·.1))
    exec (.thermalDecision loads) s = .next (withEng s (((xs.map (·.1)).foldl (fun e d => e.modDomain d (fun y => { y with
      thermal := if up = some d then min 9 (y.thermal + 1) else if y.cool = 10 then y.thermal - 1 else y.thermal })) e1).throttled s.now 0 e1))) ∧
  (∀ (e : Engine) (ds : List Nat), (∀ d ∈ ds, (e.domain d).t8 ≤ 1520) → e.hottestDomain ds = none) ∧
  (∀ (e : Engine) (ds : List Nat) (d : Nat), e.hottestDomain ds = some d → d ∈ ds ∧ 1520 < (e.domain d).t8 ∧
    ∀ k ∈ ds, (e.domain k).t8 < (e.domain d).t8 ∨ ((e.domain k).t8 = (e.domain d).t8 ∧ d ≤ k)) ∧
  (∀ (s : State) (f w k : Nat), f < 96 → w < 4 → k < (if w = 0 then 36 else 4) →
    let i := if w = 0 then k else 32 + 4 * w + k
    let n := mget (fun _ => 0) i (s.eng.field f).sensors.trip
    ((n < 3 ∨ s.eng.sup.thermLatch = true) → exec (.thermalTrip f w k) s = .next s) ∧
    (3 ≤ n → s.eng.sup.thermLatch = false →
      let e := s.eng.powerEvent s.now false (deckOf f) f 0x0601 (ofSigned 16 ((s.eng.field f).sensors.readings.getD i 0) + 65536 * k + 16777216 * w) (fieldDomain f)
      exec (.thermalTrip f w k) s = .next (withEng s ((e.fallOff s.now e.holdUp).modSup (fun x => { x with thermLatch := true }))))) ∧
  (∀ (s : State),
    (∀ fl inl,
      let e1 := ({ s.eng with freeCtr := s.eng.freeCtr + 1 } : Engine).modSup (fun x => { x with flow := fl, inlet := inl, outlet := toSigned 16 (Config.unstatedArg s.eng.freeCtr).toNat })
      (s.eng.power.stage = 0 → exec (.coolantFlow fl inl) s = .next (withEng s e1)) ∧
      (s.eng.power.stage ≠ 0 → exec (.coolantFlow fl inl) s =
        .next (withEng s ((((e1.flowBack s.now).flowFalls s.now).inletMoves s.now s.eng.sup.inlet).throttled s.now 4 s.eng)))) ∧
    (s.eng.sup.flowLow = none → exec .flowRestoreTimeout s = .next s) ∧
    (∀ a, s.eng.sup.flowLow = some a → (s.now < a + 5000000 → exec .flowRestoreTimeout s = .next s) ∧
      (a + 5000000 ≤ s.now → exec .flowRestoreTimeout s = .next (withEng s ((s.eng.flowEvent s.now 2).fallOff s.now true)))) ∧
    (∀ fl, fl < 800 → exec (.coolantFlowRestored fl) s = .next s) ∧
    (∀ fl, 800 ≤ fl → exec (.coolantFlowRestored fl) s =
      .next (withEng s (((s.eng.modSup (fun x => { x with flow := fl })).flowBack s.now).throttled s.now 4 s.eng))) ∧
    (∀ k, k < 6 →
      let e := (s.eng.modSup (fun x => { x with leak := x.leak ||| 2 ^ k })).powerEvent s.now false s.eng.chairDeck 0xFF 0x0607 (s.eng.sup.leak ||| 2 ^ k) 0
      exec (.leak k false) s = .next (withEng s ((e.fallOff s.now true).modSup (fun x => { x with leakLatch := true }))) ∧
      exec (.leak k true) s = .next (withEng s (s.eng.powerEvent s.now false s.eng.chairDeck 0xFF 0x0607 (2 ^ k) 1)))) ∧
  (∀ (e : Engine) (now : Nat),
    (e.sup.flow < 700 → e.sup.flowLow = none →
      e.flowFalls now = (e.modSup (fun x => { x with flowLow := some now, flowResp := true })).flowEvent now 0 ∧ ∀ d, throttleable d = true → 9 ≤ (e.flowFalls now).levelOf d) ∧
    ((700 ≤ e.sup.flow ∨ e.sup.flowLow ≠ none) → e.flowFalls now = e) ∧
    (∀ a, e.sup.flowLow = some a → 800 ≤ e.sup.flow → now < a + 5000000 →
      e.flowBack now = (e.modSup (fun x => { x with flowLow := none, flowResp := x.flowResp && x.warm.isSome })).flowEvent now 1) ∧
    (∀ a, e.sup.flowLow = some a → (e.sup.flow < 800 ∨ a + 5000000 ≤ now) → e.flowBack now = e)) ∧
  ∀ (s : State) (i p : Bool),
    let n := if i = s.eng.sup.imprintEn then 0 else s.eng.sup.imprintRun + 1
    let m := if p = s.eng.sup.pwrOn then 0 else s.eng.sup.pwrRun + 1
    let e1 := if n < 10 then s.eng.modSup (fun x => { x with imprintRun := n })
      else
        let e := s.eng.modSup (fun x => { x with imprintEn := i, imprintRun := 0, nvEnable := x.nvEnable && i })
        if i then e else e.breakSession s.now .strapOpen
    (m < 10 → exec (.intlkSample i p) s = .next (withEng s (e1.modSup (fun x => { x with pwrRun := m })))) ∧
    (10 ≤ m → exec (.intlkSample i p) s = .next (withEng s (e1.modSup (fun x => { x with
      pwrOn := p, pwrRun := 0, pwrSince := s.now, pwrUsed := x.pwrUsed && !(p && decide (x.pwrSince + 100000 ≤ s.now)) }))))

/-- Power-up, power-down and resets (R370, R448 to R456, R480): a request begins a sequence from Off only where nothing keeps the engine
off and a feed carries current; a stage ends only when it is complete; the stages follow in order and the last one makes the engine
Ready or Off; a reset takes effect when it is due and no sequence runs. -/
def Obligations.SequencingResults : Prop :=
  (∀ s : State,
    let p := s.eng.power
    let su := s.eng.sup
    let able := su.pwrOn = true ∧ su.pwrUsed = false ∧ su.pwrSince + 100000 ≤ s.now
    (¬ able → exec (.pwrOnRequest false) s = .next s) ∧
    (able → exec (.pwrOnRequest false) s = .next (withEng s ((s.eng.modSup (fun x => { x with pwrUsed := true })).askFor s.now .ready))) ∧
    ((su.bothAbsent = none ∨ s.eng.fed = false) → exec (.pwrOnRequest true) s = .next s) ∧
    (su.bothAbsent ≠ none → s.eng.fed = true →
      let e := s.eng.modSup (fun x => { x with bothAbsent := none })
      ((p.target = .off ∨ p.stage ≠ 0 ∨ p.up = true) → exec (.pwrOnRequest true) s = .next (withEng s e)) ∧
      (p.target ≠ .off → p.stage = 0 → p.up = false → exec (.pwrOnRequest true) s = .next (withEng s (e.askFor s.now p.target)))) ∧
    (∀ rep,
      let t := if p.up = true ∧ p.stage = 3 ∧ s.eng.resets = [] then (if s.eng.pace.src = 2 ∨ s.eng.pace.src = 3 then rep.paceValue % 2 ^ 64 else 0) else s.now
      let e := if t = s.now then s.eng else s.eng.rebase s.now t
      let n := p.stage + 1
      (p.up = true → e.stageDone t n rep = true → exec (.powerUpStage rep) s = .next { s with now := t, eng := (e.upStage t n rep).atStage t n }) ∧
      (p.up = true → e.stageDone t n rep = false → exec (.powerUpStage rep) s = .next { s with now := t, eng := e }) ∧
      (p.up = false → s.eng.runningReset = none → exec (.powerUpStage rep) s = .next s) ∧
      (∀ r, p.up = false → s.eng.runningReset = some r →
        (r.scope ≠ 1 → exec (.powerUpStage rep) s = .next s) ∧
        (r.scope = 1 →
          let d := s.eng.deckStage s.now r.deck (r.stage + 1) rep
          (r.stage + 1 = 8 → exec (.powerUpStage rep) s = .next (withEng s { d with resets := d.resets.filter (· != r) })) ∧
          (r.stage + 1 ≠ 8 → exec (.powerUpStage rep) s =
            .next (withEng s { d with resets := { r with stage := r.stage + 1 } :: d.resets.filter (· != r) }))))) ∧
    (p.down = false → exec .powerDownStage s = .next s) ∧
    (p.down = true →
      let idle := (∀ x ∈ s.eng.parts, x.2.step = none) ∨ p.since + 50000 ≤ s.now
      let empty := s.eng.fifosEmpty = true ∨ p.since + 100000 ≤ s.now
      (p.stage = 8 → ¬ idle → exec .powerDownStage s = .next s) ∧
      (p.stage = 8 → idle → exec .powerDownStage s = .next (withEng s ((s.eng.downEight s.now).atStage s.now 7))) ∧
      ((p.stage = 7 ∨ p.stage = 6) → ¬ empty → exec .powerDownStage s = .next s) ∧
      ((p.stage = 7 ∨ p.stage = 6) → empty → exec .powerDownStage s = .next (withEng s (s.eng.downSeven.atStage s.now 5))) ∧
      (p.stage = 5 → exec .powerDownStage s = .next (withEng s ((s.eng.downSix s.now).atStage s.now 4))) ∧
      (p.stage = 4 → s.now < p.since + 10000 → exec .powerDownStage s = .next s) ∧
      (p.stage = 4 → p.since + 10000 ≤ s.now → exec .powerDownStage s = .next (withEng s (s.eng.downFour.atStage s.now 3))) ∧
      (p.stage = 3 → exec .powerDownStage s = .next (withEng s ((s.eng.unpowered s.now).atStage s.now 2))) ∧
      ((p.stage < 3 ∨ 8 < p.stage) → exec .powerDownStage s = .next (withEng s (s.eng.downTwo s.now)))) ∧
    ((p.up = true ∨ p.down = true ∨ s.eng.runningReset ≠ none) → exec .resetTakeEffect s = .next s) ∧
    (p.up = false → p.down = false → s.eng.runningReset = none →
      let due := s.eng.resets.find? (fun r => decide (r.due ≤ s.now) && (r.scope == 0 || (p.stage == 8 && !su.safeHold && !(s.eng.deck r.deck).latchedOff)))
      (due = none → exec .resetTakeEffect s = .next s) ∧
      (∀ r, due = some r → r.scope = 0 → exec .resetTakeEffect s = .next (withEng s (s.eng.resetEngine s.now r))) ∧
      (∀ r, due = some r → r.scope ≠ 0 → exec .resetTakeEffect s = .next (withEng s (s.eng.resetDeck s.now r))))) ∧
  (∀ (e : Engine) (now : Nat) (t : PwrState),
    ((e.keptOff = true ∨ e.fed = false) → e.askFor now t = e) ∧
    (e.keptOff = false → e.fed = true →
      ((e.power.up = true ∨ e.power.down = true) → e.askFor now t = e.modPower (fun p => { p with goal := t })) ∧
      (e.power.up = false → e.power.down = false → e.power.stage = 0 → e.askFor now t = e.modPower (fun p => { p with goal := t, up := true, since := now })) ∧
      (e.power.up = false → e.power.down = false → e.power.stage ≠ 0 → e.askFor now t = e))) ∧
  (∀ (e : Engine) (now : Nat) (rep : StageReport),
    (e.stageDone now 1 rep = true ↔ rep.ok = true ∧ e.keptOff = false) ∧
    (e.stageDone now 2 rep = true ↔ (∀ b : Bool, (e.cart b).present = true → (e.cart b).charged = true) ∨ e.power.since + 120000000 ≤ now) ∧
    (e.stageDone now 3 rep = true ↔ ∀ d ∈ [0, 1], (e.deck d).latchedOff = false → (e.deck d).attempts = 0) ∧
    (∀ n, 3 < n → e.stageDone now n rep = true)) ∧
  (∀ (e : Engine) (now : Nat) (rep : StageReport),
    (e.upStage now 4 rep).power.state = .standby ∧ (e.upStage now 8 rep).power.state = .ready ∧ (e.upStage now 8 rep).graphs = []) ∧
  ∀ (e : Engine) (now : Nat) (r : PendingReset),
    let t := e.resetEngine now r
    t.power = { e.power with state := .standby, stage := 3, up := true, down := false, goal := .ready, since := now } ∧ t.graphs = [] ∧ t.pair = {} ∧
      t.sup.safeHold = false ∧ ∀ k, k < 2 → (t.deck k).intake = [] ∧ (t.deck k).sched = []
end

