-- ==== Sys2Proof/Laws/State.lean ====
section
/-!
SUPPORT. What each update of the engine leaves as it is, and that a table read after an update of the same table gives the new
value at its key and the old value elsewhere.
-/
namespace Sys2Proof.Machine

/-! ### Tables -/

theorem mget_minsert {α : Type} (d : Nat → α) (k j : Nat) (v : α) (m : AMap α) (h : ∀ x ∈ m, x.1 ≠ k) :
    mget d j (minsert k v m) = if j = k then v else mget d j m := by
  induction m with
  | nil =>
    by_cases hj : j = k
    · simp [minsert, mget, hj]
    · simp [minsert, mget, hj, Ne.symm hj]
  | cons x r ih =>
    obtain ⟨i, w⟩ := x
    have hi : i ≠ k := h (i, w) (by simp)
    have hr : ∀ x ∈ r, x.1 ≠ k := fun x hx => h x (by simp [hx])
    by_cases hlt : i < k
    · by_cases hij : i = j
      · subst hij; simp [minsert, mget, hlt, hi]
      · simp [minsert, mget, hlt, hij, ih hr]
    · by_cases hjk : j = k
      · subst hjk; simp [minsert, mget, hlt]
      · simp [minsert, mget, hlt, Ne.symm hjk, hjk]

theorem mget_mdel {α : Type} (d : Nat → α) (k j : Nat) (m : AMap α) :
    mget d j (mdel k m) = if j = k then d k else mget d j m := by
  induction m with
  | nil => by_cases hj : j = k <;> simp [mdel, mget, hj]
  | cons x r ih =>
    obtain ⟨i, w⟩ := x
    have hc : mdel k ((i, w) :: r) = if i = k then mdel k r else (i, w) :: mdel k r := by
      by_cases hi : i = k <;> simp [mdel, hi]
    rw [hc]
    by_cases hi : i = k
    · subst hi
      by_cases hj : j = i
      · subst hj; simp [ih]
      · simp [mget, ih, hj, Ne.symm hj]
    · by_cases hij : i = j
      · subst hij; simp [mget, hi]
      · simp [mget, hi, hij, ih]

/-- A table after a write: the written key holds the value, every other key what it held. -/
theorem mget_mset {α : Type} [DecidableEq α] (d : Nat → α) (k j : Nat) (v : α) (m : AMap α) :
    mget d j (mset d k v m) = if j = k then v else mget d j m := by
  unfold mset
  split
  · next hv => rw [mget_mdel]; split <;> simp_all
  · rw [mget_minsert, mget_mdel]
    · split <;> simp_all
    · intro x hx; simp [mdel] at hx; exact hx.2

@[simp] theorem mget_mset_same {α : Type} [DecidableEq α] (d : Nat → α) (k : Nat) (v : α) (m : AMap α) :
    mget d k (mset d k v m) = v := by simp [mget_mset]

theorem mget_mset_ne {α : Type} [DecidableEq α] (d : Nat → α) {k j : Nat} (v : α) (m : AMap α) (h : j ≠ k) :
    mget d j (mset d k v m) = mget d j m := by simp [mget_mset, h]

/-- A table after a function has been applied at a key. -/
theorem mget_mmod {α : Type} [DecidableEq α] (d : Nat → α) (k j : Nat) (f : α → α) (m : AMap α) :
    mget d j (mmod d k f m) = if j = k then f (mget d k m) else mget d j m := by simp [mmod, mget_mset]

@[simp] theorem mget_mmod_same {α : Type} [DecidableEq α] (d : Nat → α) (k : Nat) (f : α → α) (m : AMap α) :
    mget d k (mmod d k f m) = f (mget d k m) := by simp [mget_mmod]

theorem mget_mmod_ne {α : Type} [DecidableEq α] (d : Nat → α) {k j : Nat} (f : α → α) (m : AMap α) (h : j ≠ k) :
    mget d j (mmod d k f m) = mget d j m := by simp [mget_mmod, h]

@[simp] theorem mget_nil {α : Type} (d : Nat → α) (k : Nat) : mget d k [] = d k := rfl

/-! ### Reading a unit after it has been changed -/

@[simp] theorem Engine.modTile_tile (e : Engine) (t : Loc) (f : Tile → Tile) : (e.modTile t f).tile t = f (e.tile t) := by simp [Engine.modTile, Engine.tile]
@[simp] theorem Engine.modField_field (e : Engine) (i : Nat) (f : Field → Field) : (e.modField i f).field i = f (e.field i) := by simp [Engine.modField, Engine.field]
@[simp] theorem Engine.modDeck_deck (e : Engine) (i : Nat) (f : Deck → Deck) : (e.modDeck i f).deck i = f (e.deck i) := by simp [Engine.modDeck, Engine.deck]
@[simp] theorem Engine.modPart_part (e : Engine) (i : Nat) (f : Part → Part) : (e.modPart i f).part i = f (e.part i) := by simp [Engine.modPart, Engine.part]
@[simp] theorem Engine.modTenant_tenant (e : Engine) (i : Nat) (f : Tenant → Tenant) : (e.modTenant i f).tenant i = f (e.tenant i) := by simp [Engine.modTenant, Engine.tenant]
@[simp] theorem Engine.modReq_req (e : Engine) (i : Nat) (f : Request → Request) : (e.modReq i f).req i = f (e.req i) := by simp [Engine.modReq, Engine.req]
@[simp] theorem Engine.modImage_image (e : Engine) (i : Nat) (f : Image → Image) : (e.modImage i f).image i = f (e.image i) := by simp [Engine.modImage, Engine.image]
@[simp] theorem Engine.modGraph_graph (e : Engine) (i : Nat) (f : Graph → Graph) : (e.modGraph i f).graph i = f (e.graph i) := by simp [Engine.modGraph, Engine.graph]
@[simp] theorem Engine.modZport_zport (e : Engine) (i : Nat) (f : ZPort → ZPort) : (e.modZport i f).zport i = f (e.zport i) := by simp [Engine.modZport, Engine.zport]
@[simp] theorem Engine.modHport_hport (e : Engine) (i : Nat) (f : HostPort → HostPort) : (e.modHport i f).hport i = f (e.hport i) := by simp [Engine.modHport, Engine.hport]
@[simp] theorem Engine.modDomain_domain (e : Engine) (i : Nat) (f : Domain → Domain) : (e.modDomain i f).domain i = f (e.domain i) := by simp [Engine.modDomain, Engine.domain]
@[simp] theorem Engine.modFn_fn (e : Engine) (i : Fn) (f : FnState → FnState) : (e.modFn i f).fn i = f (e.fn i) := by simp [Engine.modFn, Engine.fn]
theorem Engine.modField_field_ne (e : Engine) (i : Nat) (f : Field → Field) (j : Nat) (h : j ≠ i) : (e.modField i f).field j = e.field j := by simp [Engine.modField, Engine.field, mget_mmod, h]
theorem Engine.modDeck_deck_ne (e : Engine) (i : Nat) (f : Deck → Deck) (j : Nat) (h : j ≠ i) : (e.modDeck i f).deck j = e.deck j := by simp [Engine.modDeck, Engine.deck, mget_mmod, h]
theorem Engine.modPart_part_ne (e : Engine) (i : Nat) (f : Part → Part) (j : Nat) (h : j ≠ i) : (e.modPart i f).part j = e.part j := by simp [Engine.modPart, Engine.part, mget_mmod, h]
theorem Engine.modTenant_tenant_ne (e : Engine) (i : Nat) (f : Tenant → Tenant) (j : Nat) (h : j ≠ i) : (e.modTenant i f).tenant j = e.tenant j := by simp [Engine.modTenant, Engine.tenant, mget_mmod, h]
theorem Engine.modReq_req_ne (e : Engine) (i : Nat) (f : Request → Request) (j : Nat) (h : j ≠ i) : (e.modReq i f).req j = e.req j := by simp [Engine.modReq, Engine.req, mget_mmod, h]
theorem Engine.modImage_image_ne (e : Engine) (i : Nat) (f : Image → Image) (j : Nat) (h : j ≠ i) : (e.modImage i f).image j = e.image j := by simp [Engine.modImage, Engine.image, mget_mmod, h]
theorem Engine.modGraph_graph_ne (e : Engine) (i : Nat) (f : Graph → Graph) (j : Nat) (h : j ≠ i) : (e.modGraph i f).graph j = e.graph j := by simp [Engine.modGraph, Engine.graph, mget_mmod, h]
theorem Engine.modZport_zport_ne (e : Engine) (i : Nat) (f : ZPort → ZPort) (j : Nat) (h : j ≠ i) : (e.modZport i f).zport j = e.zport j := by simp [Engine.modZport, Engine.zport, mget_mmod, h]
theorem Engine.modHport_hport_ne (e : Engine) (i : Nat) (f : HostPort → HostPort) (j : Nat) (h : j ≠ i) : (e.modHport i f).hport j = e.hport j := by simp [Engine.modHport, Engine.hport, mget_mmod, h]
theorem Engine.modDomain_domain_ne (e : Engine) (i : Nat) (f : Domain → Domain) (j : Nat) (h : j ≠ i) : (e.modDomain i f).domain j = e.domain j := by simp [Engine.modDomain, Engine.domain, mget_mmod, h]
theorem Engine.modTile_tile_ne (e : Engine) (t u : Loc) (f : Tile → Tile) (h : locKey u ≠ locKey t) : (e.modTile t f).tile u = e.tile u := by
  simp [Engine.modTile, Engine.tile, mget_mmod, h]
@[simp] theorem Tile.modThread_thread (ti : Tile) (k : Nat) (f : Thread → Thread) : (ti.modThread k f).thread k = f (ti.thread k) := by
  simp [Tile.modThread, Tile.thread]
theorem Tile.modThread_thread_ne (ti : Tile) (k j : Nat) (f : Thread → Thread) (h : j ≠ k) : (ti.modThread k f).thread j = ti.thread j := by
  simp [Tile.modThread, Tile.thread, mget_mmod, h]

/-- A scalar register read after a write: x0 reads 0 and discards writes (R84). -/
theorem Thread.x_setX (th : Thread) (d r : BitVec 5) (v : Word) : (th.setX d v).x r = if r = 0 then 0 else if r = d then v else th.x r := by
  by_cases hr : r = 0
  · simp [Thread.x, hr]
  · by_cases hd : d = 0
    · subst hd
      have hr' : ¬ r = 0#5 := hr
      simp [Thread.setX, Thread.x, hr']
    · simp only [Thread.setX, Thread.x, hr, hd, if_false, mget_mset]
      have : r.toNat = d.toNat ↔ r = d := by constructor <;> intro h <;> simp_all [BitVec.toNat_inj]
      simp [this]

/-! ### What an update leaves as it is -/

@[simp] theorem Engine.modTile_fields (e : Engine) (t : Loc) (f : Tile → Tile) : (e.modTile t f).fields = e.fields := rfl
@[simp] theorem Engine.modTile_decks (e : Engine) (t : Loc) (f : Tile → Tile) : (e.modTile t f).decks = e.decks := rfl
@[simp] theorem Engine.modTile_parts (e : Engine) (t : Loc) (f : Tile → Tile) : (e.modTile t f).parts = e.parts := rfl
@[simp] theorem Engine.modTile_tenants (e : Engine) (t : Loc) (f : Tile → Tile) : (e.modTile t f).tenants = e.tenants := rfl
@[simp] theorem Engine.modTile_reqs (e : Engine) (t : Loc) (f : Tile → Tile) : (e.modTile t f).reqs = e.reqs := rfl
@[simp] theorem Engine.modTile_images (e : Engine) (t : Loc) (f : Tile → Tile) : (e.modTile t f).images = e.images := rfl
@[simp] theorem Engine.modTile_session (e : Engine) (t : Loc) (f : Tile → Tile) : (e.modTile t f).session = e.session := rfl
@[simp] theorem Engine.modTile_repairs (e : Engine) (t : Loc) (f : Tile → Tile) : (e.modTile t f).repairs = e.repairs := rfl
@[simp] theorem Engine.modTile_graphs (e : Engine) (t : Loc) (f : Tile → Tile) : (e.modTile t f).graphs = e.graphs := rfl
@[simp] theorem Engine.modTile_fns (e : Engine) (t : Loc) (f : Tile → Tile) : (e.modTile t f).fns = e.fns := rfl
@[simp] theorem Engine.modTile_vfAssign (e : Engine) (t : Loc) (f : Tile → Tile) : (e.modTile t f).vfAssign = e.vfAssign := rfl
@[simp] theorem Engine.modTile_ports (e : Engine) (t : Loc) (f : Tile → Tile) : (e.modTile t f).ports = e.ports := rfl
@[simp] theorem Engine.modTile_zports (e : Engine) (t : Loc) (f : Tile → Tile) : (e.modTile t f).zports = e.zports := rfl
@[simp] theorem Engine.modTile_engineId (e : Engine) (t : Loc) (f : Tile → Tile) : (e.modTile t f).engineId = e.engineId := rfl
@[simp] theorem Engine.modTile_zroute (e : Engine) (t : Loc) (f : Tile → Tile) : (e.modTile t f).zroute = e.zroute := rfl
@[simp] theorem Engine.modTile_pace (e : Engine) (t : Loc) (f : Tile → Tile) : (e.modTile t f).pace = e.pace := rfl
@[simp] theorem Engine.modTile_pair (e : Engine) (t : Loc) (f : Tile → Tile) : (e.modTile t f).pair = e.pair := rfl
@[simp] theorem Engine.modTile_sup (e : Engine) (t : Loc) (f : Tile → Tile) : (e.modTile t f).sup = e.sup := rfl
@[simp] theorem Engine.modTile_feeds (e : Engine) (t : Loc) (f : Tile → Tile) : (e.modTile t f).feeds = e.feeds := rfl
@[simp] theorem Engine.modTile_carts (e : Engine) (t : Loc) (f : Tile → Tile) : (e.modTile t f).carts = e.carts := rfl
@[simp] theorem Engine.modTile_domains (e : Engine) (t : Loc) (f : Tile → Tile) : (e.modTile t f).domains = e.domains := rfl
@[simp] theorem Engine.modTile_power (e : Engine) (t : Loc) (f : Tile → Tile) : (e.modTile t f).power = e.power := rfl
@[simp] theorem Engine.modTile_monitors (e : Engine) (t : Loc) (f : Tile → Tile) : (e.modTile t f).monitors = e.monitors := rfl
@[simp] theorem Engine.modTile_commit (e : Engine) (t : Loc) (f : Tile → Tile) : (e.modTile t f).commit = e.commit := rfl
@[simp] theorem Engine.modTile_snaps (e : Engine) (t : Loc) (f : Tile → Tile) : (e.modTile t f).snaps = e.snaps := rfl
@[simp] theorem Engine.modTile_resets (e : Engine) (t : Loc) (f : Tile → Tile) : (e.modTile t f).resets = e.resets := rfl
@[simp] theorem Engine.modTile_flight (e : Engine) (t : Loc) (f : Tile → Tile) : (e.modTile t f).flight = e.flight := rfl
@[simp] theorem Engine.modTile_signals (e : Engine) (t : Loc) (f : Tile → Tile) : (e.modTile t f).signals = e.signals := rfl
@[simp] theorem Engine.modTile_chains (e : Engine) (t : Loc) (f : Tile → Tile) : (e.modTile t f).chains = e.chains := rfl
@[simp] theorem Engine.modTile_remaps (e : Engine) (t : Loc) (f : Tile → Tile) : (e.modTile t f).remaps = e.remaps := rfl
@[simp] theorem Engine.modTile_siteResets (e : Engine) (t : Loc) (f : Tile → Tile) : (e.modTile t f).siteResets = e.siteResets := rfl
@[simp] theorem Engine.modTile_order (e : Engine) (t : Loc) (f : Tile → Tile) : (e.modTile t f).order = e.order := rfl
@[simp] theorem Engine.modTile_freeCtr (e : Engine) (t : Loc) (f : Tile → Tile) : (e.modTile t f).freeCtr = e.freeCtr := rfl
@[simp] theorem Engine.modTile_grade (e : Engine) (t : Loc) (f : Tile → Tile) : (e.modTile t f).grade = e.grade := rfl
@[simp] theorem Engine.modTile_xstopDue (e : Engine) (t : Loc) (f : Tile → Tile) : (e.modTile t f).xstopDue = e.xstopDue := rfl
@[simp] theorem Engine.modTile_zdrops (e : Engine) (t : Loc) (f : Tile → Tile) : (e.modTile t f).zdrops = e.zdrops := rfl
@[simp] theorem Engine.modTile_heard (e : Engine) (t : Loc) (f : Tile → Tile) : (e.modTile t f).heard = e.heard := rfl
@[simp] theorem Engine.modTile_captured (e : Engine) (t : Loc) (f : Tile → Tile) : (e.modTile t f).captured = e.captured := rfl
@[simp] theorem Engine.modTile_acts (e : Engine) (t : Loc) (f : Tile → Tile) : (e.modTile t f).acts = e.acts := rfl
@[simp] theorem Engine.modTile_out (e : Engine) (t : Loc) (f : Tile → Tile) : (e.modTile t f).out = e.out := rfl
@[simp] theorem Engine.modField_tiles (e : Engine) (i : Nat) (f : Field → Field) : (e.modField i f).tiles = e.tiles := rfl
@[simp] theorem Engine.modField_decks (e : Engine) (i : Nat) (f : Field → Field) : (e.modField i f).decks = e.decks := rfl
@[simp] theorem Engine.modField_parts (e : Engine) (i : Nat) (f : Field → Field) : (e.modField i f).parts = e.parts := rfl
@[simp] theorem Engine.modField_tenants (e : Engine) (i : Nat) (f : Field → Field) : (e.modField i f).tenants = e.tenants := rfl
@[simp] theorem Engine.modField_reqs (e : Engine) (i : Nat) (f : Field → Field) : (e.modField i f).reqs = e.reqs := rfl
@[simp] theorem Engine.modField_images (e : Engine) (i : Nat) (f : Field → Field) : (e.modField i f).images = e.images := rfl
@[simp] theorem Engine.modField_session (e : Engine) (i : Nat) (f : Field → Field) : (e.modField i f).session = e.session := rfl
@[simp] theorem Engine.modField_repairs (e : Engine) (i : Nat) (f : Field → Field) : (e.modField i f).repairs = e.repairs := rfl
@[simp] theorem Engine.modField_graphs (e : Engine) (i : Nat) (f : Field → Field) : (e.modField i f).graphs = e.graphs := rfl
@[simp] theorem Engine.modField_fns (e : Engine) (i : Nat) (f : Field → Field) : (e.modField i f).fns = e.fns := rfl
@[simp] theorem Engine.modField_vfAssign (e : Engine) (i : Nat) (f : Field → Field) : (e.modField i f).vfAssign = e.vfAssign := rfl
@[simp] theorem Engine.modField_ports (e : Engine) (i : Nat) (f : Field → Field) : (e.modField i f).ports = e.ports := rfl
@[simp] theorem Engine.modField_zports (e : Engine) (i : Nat) (f : Field → Field) : (e.modField i f).zports = e.zports := rfl
@[simp] theorem Engine.modField_engineId (e : Engine) (i : Nat) (f : Field → Field) : (e.modField i f).engineId = e.engineId := rfl
@[simp] theorem Engine.modField_zroute (e : Engine) (i : Nat) (f : Field → Field) : (e.modField i f).zroute = e.zroute := rfl
@[simp] theorem Engine.modField_pace (e : Engine) (i : Nat) (f : Field → Field) : (e.modField i f).pace = e.pace := rfl
@[simp] theorem Engine.modField_pair (e : Engine) (i : Nat) (f : Field → Field) : (e.modField i f).pair = e.pair := rfl
@[simp] theorem Engine.modField_sup (e : Engine) (i : Nat) (f : Field → Field) : (e.modField i f).sup = e.sup := rfl
@[simp] theorem Engine.modField_feeds (e : Engine) (i : Nat) (f : Field → Field) : (e.modField i f).feeds = e.feeds := rfl
@[simp] theorem Engine.modField_carts (e : Engine) (i : Nat) (f : Field → Field) : (e.modField i f).carts = e.carts := rfl
@[simp] theorem Engine.modField_domains (e : Engine) (i : Nat) (f : Field → Field) : (e.modField i f).domains = e.domains := rfl
@[simp] theorem Engine.modField_power (e : Engine) (i : Nat) (f : Field → Field) : (e.modField i f).power = e.power := rfl
@[simp] theorem Engine.modField_monitors (e : Engine) (i : Nat) (f : Field → Field) : (e.modField i f).monitors = e.monitors := rfl
@[simp] theorem Engine.modField_commit (e : Engine) (i : Nat) (f : Field → Field) : (e.modField i f).commit = e.commit := rfl
@[simp] theorem Engine.modField_snaps (e : Engine) (i : Nat) (f : Field → Field) : (e.modField i f).snaps = e.snaps := rfl
@[simp] theorem Engine.modField_resets (e : Engine) (i : Nat) (f : Field → Field) : (e.modField i f).resets = e.resets := rfl
@[simp] theorem Engine.modField_flight (e : Engine) (i : Nat) (f : Field → Field) : (e.modField i f).flight = e.flight := rfl
@[simp] theorem Engine.modField_signals (e : Engine) (i : Nat) (f : Field → Field) : (e.modField i f).signals = e.signals := rfl
@[simp] theorem Engine.modField_chains (e : Engine) (i : Nat) (f : Field → Field) : (e.modField i f).chains = e.chains := rfl
@[simp] theorem Engine.modField_remaps (e : Engine) (i : Nat) (f : Field → Field) : (e.modField i f).remaps = e.remaps := rfl
@[simp] theorem Engine.modField_siteResets (e : Engine) (i : Nat) (f : Field → Field) : (e.modField i f).siteResets = e.siteResets := rfl
@[simp] theorem Engine.modField_order (e : Engine) (i : Nat) (f : Field → Field) : (e.modField i f).order = e.order := rfl
@[simp] theorem Engine.modField_freeCtr (e : Engine) (i : Nat) (f : Field → Field) : (e.modField i f).freeCtr = e.freeCtr := rfl
@[simp] theorem Engine.modField_grade (e : Engine) (i : Nat) (f : Field → Field) : (e.modField i f).grade = e.grade := rfl
@[simp] theorem Engine.modField_xstopDue (e : Engine) (i : Nat) (f : Field → Field) : (e.modField i f).xstopDue = e.xstopDue := rfl
@[simp] theorem Engine.modField_zdrops (e : Engine) (i : Nat) (f : Field → Field) : (e.modField i f).zdrops = e.zdrops := rfl
@[simp] theorem Engine.modField_heard (e : Engine) (i : Nat) (f : Field → Field) : (e.modField i f).heard = e.heard := rfl
@[simp] theorem Engine.modField_captured (e : Engine) (i : Nat) (f : Field → Field) : (e.modField i f).captured = e.captured := rfl
@[simp] theorem Engine.modField_acts (e : Engine) (i : Nat) (f : Field → Field) : (e.modField i f).acts = e.acts := rfl
@[simp] theorem Engine.modField_out (e : Engine) (i : Nat) (f : Field → Field) : (e.modField i f).out = e.out := rfl
@[simp] theorem Engine.modDeck_tiles (e : Engine) (i : Nat) (f : Deck → Deck) : (e.modDeck i f).tiles = e.tiles := rfl
@[simp] theorem Engine.modDeck_fields (e : Engine) (i : Nat) (f : Deck → Deck) : (e.modDeck i f).fields = e.fields := rfl
@[simp] theorem Engine.modDeck_parts (e : Engine) (i : Nat) (f : Deck → Deck) : (e.modDeck i f).parts = e.parts := rfl
@[simp] theorem Engine.modDeck_tenants (e : Engine) (i : Nat) (f : Deck → Deck) : (e.modDeck i f).tenants = e.tenants := rfl
@[simp] theorem Engine.modDeck_reqs (e : Engine) (i : Nat) (f : Deck → Deck) : (e.modDeck i f).reqs = e.reqs := rfl
@[simp] theorem Engine.modDeck_images (e : Engine) (i : Nat) (f : Deck → Deck) : (e.modDeck i f).images = e.images := rfl
@[simp] theorem Engine.modDeck_session (e : Engine) (i : Nat) (f : Deck → Deck) : (e.modDeck i f).session = e.session := rfl
@[simp] theorem Engine.modDeck_repairs (e : Engine) (i : Nat) (f : Deck → Deck) : (e.modDeck i f).repairs = e.repairs := rfl
@[simp] theorem Engine.modDeck_graphs (e : Engine) (i : Nat) (f : Deck → Deck) : (e.modDeck i f).graphs = e.graphs := rfl
@[simp] theorem Engine.modDeck_fns (e : Engine) (i : Nat) (f : Deck → Deck) : (e.modDeck i f).fns = e.fns := rfl
@[simp] theorem Engine.modDeck_vfAssign (e : Engine) (i : Nat) (f : Deck → Deck) : (e.modDeck i f).vfAssign = e.vfAssign := rfl
@[simp] theorem Engine.modDeck_ports (e : Engine) (i : Nat) (f : Deck → Deck) : (e.modDeck i f).ports = e.ports := rfl
@[simp] theorem Engine.modDeck_zports (e : Engine) (i : Nat) (f : Deck → Deck) : (e.modDeck i f).zports = e.zports := rfl
@[simp] theorem Engine.modDeck_engineId (e : Engine) (i : Nat) (f : Deck → Deck) : (e.modDeck i f).engineId = e.engineId := rfl
@[simp] theorem Engine.modDeck_zroute (e : Engine) (i : Nat) (f : Deck → Deck) : (e.modDeck i f).zroute = e.zroute := rfl
@[simp] theorem Engine.modDeck_pace (e : Engine) (i : Nat) (f : Deck → Deck) : (e.modDeck i f).pace = e.pace := rfl
@[simp] theorem Engine.modDeck_pair (e : Engine) (i : Nat) (f : Deck → Deck) : (e.modDeck i f).pair = e.pair := rfl
@[simp] theorem Engine.modDeck_sup (e : Engine) (i : Nat) (f : Deck → Deck) : (e.modDeck i f).sup = e.sup := rfl
@[simp] theorem Engine.modDeck_feeds (e : Engine) (i : Nat) (f : Deck → Deck) : (e.modDeck i f).feeds = e.feeds := rfl
@[simp] theorem Engine.modDeck_carts (e : Engine) (i : Nat) (f : Deck → Deck) : (e.modDeck i f).carts = e.carts := rfl
@[simp] theorem Engine.modDeck_domains (e : Engine) (i : Nat) (f : Deck → Deck) : (e.modDeck i f).domains = e.domains := rfl
@[simp] theorem Engine.modDeck_power (e : Engine) (i : Nat) (f : Deck → Deck) : (e.modDeck i f).power = e.power := rfl
@[simp] theorem Engine.modDeck_monitors (e : Engine) (i : Nat) (f : Deck → Deck) : (e.modDeck i f).monitors = e.monitors := rfl
@[simp] theorem Engine.modDeck_commit (e : Engine) (i : Nat) (f : Deck → Deck) : (e.modDeck i f).commit = e.commit := rfl
@[simp] theorem Engine.modDeck_snaps (e : Engine) (i : Nat) (f : Deck → Deck) : (e.modDeck i f).snaps = e.snaps := rfl
@[simp] theorem Engine.modDeck_resets (e : Engine) (i : Nat) (f : Deck → Deck) : (e.modDeck i f).resets = e.resets := rfl
@[simp] theorem Engine.modDeck_flight (e : Engine) (i : Nat) (f : Deck → Deck) : (e.modDeck i f).flight = e.flight := rfl
@[simp] theorem Engine.modDeck_signals (e : Engine) (i : Nat) (f : Deck → Deck) : (e.modDeck i f).signals = e.signals := rfl
@[simp] theorem Engine.modDeck_chains (e : Engine) (i : Nat) (f : Deck → Deck) : (e.modDeck i f).chains = e.chains := rfl
@[simp] theorem Engine.modDeck_remaps (e : Engine) (i : Nat) (f : Deck → Deck) : (e.modDeck i f).remaps = e.remaps := rfl
@[simp] theorem Engine.modDeck_siteResets (e : Engine) (i : Nat) (f : Deck → Deck) : (e.modDeck i f).siteResets = e.siteResets := rfl
@[simp] theorem Engine.modDeck_order (e : Engine) (i : Nat) (f : Deck → Deck) : (e.modDeck i f).order = e.order := rfl
@[simp] theorem Engine.modDeck_freeCtr (e : Engine) (i : Nat) (f : Deck → Deck) : (e.modDeck i f).freeCtr = e.freeCtr := rfl
@[simp] theorem Engine.modDeck_grade (e : Engine) (i : Nat) (f : Deck → Deck) : (e.modDeck i f).grade = e.grade := rfl
@[simp] theorem Engine.modDeck_xstopDue (e : Engine) (i : Nat) (f : Deck → Deck) : (e.modDeck i f).xstopDue = e.xstopDue := rfl
@[simp] theorem Engine.modDeck_zdrops (e : Engine) (i : Nat) (f : Deck → Deck) : (e.modDeck i f).zdrops = e.zdrops := rfl
@[simp] theorem Engine.modDeck_heard (e : Engine) (i : Nat) (f : Deck → Deck) : (e.modDeck i f).heard = e.heard := rfl
@[simp] theorem Engine.modDeck_captured (e : Engine) (i : Nat) (f : Deck → Deck) : (e.modDeck i f).captured = e.captured := rfl
@[simp] theorem Engine.modDeck_acts (e : Engine) (i : Nat) (f : Deck → Deck) : (e.modDeck i f).acts = e.acts := rfl
@[simp] theorem Engine.modDeck_out (e : Engine) (i : Nat) (f : Deck → Deck) : (e.modDeck i f).out = e.out := rfl
@[simp] theorem Engine.modPart_tiles (e : Engine) (i : Nat) (f : Part → Part) : (e.modPart i f).tiles = e.tiles := rfl
@[simp] theorem Engine.modPart_fields (e : Engine) (i : Nat) (f : Part → Part) : (e.modPart i f).fields = e.fields := rfl
@[simp] theorem Engine.modPart_decks (e : Engine) (i : Nat) (f : Part → Part) : (e.modPart i f).decks = e.decks := rfl
@[simp] theorem Engine.modPart_tenants (e : Engine) (i : Nat) (f : Part → Part) : (e.modPart i f).tenants = e.tenants := rfl
@[simp] theorem Engine.modPart_reqs (e : Engine) (i : Nat) (f : Part → Part) : (e.modPart i f).reqs = e.reqs := rfl
@[simp] theorem Engine.modPart_images (e : Engine) (i : Nat) (f : Part → Part) : (e.modPart i f).images = e.images := rfl
@[simp] theorem Engine.modPart_session (e : Engine) (i : Nat) (f : Part → Part) : (e.modPart i f).session = e.session := rfl
@[simp] theorem Engine.modPart_repairs (e : Engine) (i : Nat) (f : Part → Part) : (e.modPart i f).repairs = e.repairs := rfl
@[simp] theorem Engine.modPart_graphs (e : Engine) (i : Nat) (f : Part → Part) : (e.modPart i f).graphs = e.graphs := rfl
@[simp] theorem Engine.modPart_fns (e : Engine) (i : Nat) (f : Part → Part) : (e.modPart i f).fns = e.fns := rfl
@[simp] theorem Engine.modPart_vfAssign (e : Engine) (i : Nat) (f : Part → Part) : (e.modPart i f).vfAssign = e.vfAssign := rfl
@[simp] theorem Engine.modPart_ports (e : Engine) (i : Nat) (f : Part → Part) : (e.modPart i f).ports = e.ports := rfl
@[simp] theorem Engine.modPart_zports (e : Engine) (i : Nat) (f : Part → Part) : (e.modPart i f).zports = e.zports := rfl
@[simp] theorem Engine.modPart_engineId (e : Engine) (i : Nat) (f : Part → Part) : (e.modPart i f).engineId = e.engineId := rfl
@[simp] theorem Engine.modPart_zroute (e : Engine) (i : Nat) (f : Part → Part) : (e.modPart i f).zroute = e.zroute := rfl
@[simp] theorem Engine.modPart_pace (e : Engine) (i : Nat) (f : Part → Part) : (e.modPart i f).pace = e.pace := rfl
@[simp] theorem Engine.modPart_pair (e : Engine) (i : Nat) (f : Part → Part) : (e.modPart i f).pair = e.pair := rfl
@[simp] theorem Engine.modPart_sup (e : Engine) (i : Nat) (f : Part → Part) : (e.modPart i f).sup = e.sup := rfl
@[simp] theorem Engine.modPart_feeds (e : Engine) (i : Nat) (f : Part → Part) : (e.modPart i f).feeds = e.feeds := rfl
@[simp] theorem Engine.modPart_carts (e : Engine) (i : Nat) (f : Part → Part) : (e.modPart i f).carts = e.carts := rfl
@[simp] theorem Engine.modPart_domains (e : Engine) (i : Nat) (f : Part → Part) : (e.modPart i f).domains = e.domains := rfl
@[simp] theorem Engine.modPart_power (e : Engine) (i : Nat) (f : Part → Part) : (e.modPart i f).power = e.power := rfl
@[simp] theorem Engine.modPart_monitors (e : Engine) (i : Nat) (f : Part → Part) : (e.modPart i f).monitors = e.monitors := rfl
@[simp] theorem Engine.modPart_commit (e : Engine) (i : Nat) (f : Part → Part) : (e.modPart i f).commit = e.commit := rfl
@[simp] theorem Engine.modPart_snaps (e : Engine) (i : Nat) (f : Part → Part) : (e.modPart i f).snaps = e.snaps := rfl
@[simp] theorem Engine.modPart_resets (e : Engine) (i : Nat) (f : Part → Part) : (e.modPart i f).resets = e.resets := rfl
@[simp] theorem Engine.modPart_flight (e : Engine) (i : Nat) (f : Part → Part) : (e.modPart i f).flight = e.flight := rfl
@[simp] theorem Engine.modPart_signals (e : Engine) (i : Nat) (f : Part → Part) : (e.modPart i f).signals = e.signals := rfl
@[simp] theorem Engine.modPart_chains (e : Engine) (i : Nat) (f : Part → Part) : (e.modPart i f).chains = e.chains := rfl
@[simp] theorem Engine.modPart_remaps (e : Engine) (i : Nat) (f : Part → Part) : (e.modPart i f).remaps = e.remaps := rfl
@[simp] theorem Engine.modPart_siteResets (e : Engine) (i : Nat) (f : Part → Part) : (e.modPart i f).siteResets = e.siteResets := rfl
@[simp] theorem Engine.modPart_order (e : Engine) (i : Nat) (f : Part → Part) : (e.modPart i f).order = e.order := rfl
@[simp] theorem Engine.modPart_freeCtr (e : Engine) (i : Nat) (f : Part → Part) : (e.modPart i f).freeCtr = e.freeCtr := rfl
@[simp] theorem Engine.modPart_grade (e : Engine) (i : Nat) (f : Part → Part) : (e.modPart i f).grade = e.grade := rfl
@[simp] theorem Engine.modPart_xstopDue (e : Engine) (i : Nat) (f : Part → Part) : (e.modPart i f).xstopDue = e.xstopDue := rfl
@[simp] theorem Engine.modPart_zdrops (e : Engine) (i : Nat) (f : Part → Part) : (e.modPart i f).zdrops = e.zdrops := rfl
@[simp] theorem Engine.modPart_heard (e : Engine) (i : Nat) (f : Part → Part) : (e.modPart i f).heard = e.heard := rfl
@[simp] theorem Engine.modPart_captured (e : Engine) (i : Nat) (f : Part → Part) : (e.modPart i f).captured = e.captured := rfl
@[simp] theorem Engine.modPart_acts (e : Engine) (i : Nat) (f : Part → Part) : (e.modPart i f).acts = e.acts := rfl
@[simp] theorem Engine.modPart_out (e : Engine) (i : Nat) (f : Part → Part) : (e.modPart i f).out = e.out := rfl
@[simp] theorem Engine.modTenant_tiles (e : Engine) (i : Nat) (f : Tenant → Tenant) : (e.modTenant i f).tiles = e.tiles := rfl
@[simp] theorem Engine.modTenant_fields (e : Engine) (i : Nat) (f : Tenant → Tenant) : (e.modTenant i f).fields = e.fields := rfl
@[simp] theorem Engine.modTenant_decks (e : Engine) (i : Nat) (f : Tenant → Tenant) : (e.modTenant i f).decks = e.decks := rfl
@[simp] theorem Engine.modTenant_parts (e : Engine) (i : Nat) (f : Tenant → Tenant) : (e.modTenant i f).parts = e.parts := rfl
@[simp] theorem Engine.modTenant_reqs (e : Engine) (i : Nat) (f : Tenant → Tenant) : (e.modTenant i f).reqs = e.reqs := rfl
@[simp] theorem Engine.modTenant_images (e : Engine) (i : Nat) (f : Tenant → Tenant) : (e.modTenant i f).images = e.images := rfl
@[simp] theorem Engine.modTenant_session (e : Engine) (i : Nat) (f : Tenant → Tenant) : (e.modTenant i f).session = e.session := rfl
@[simp] theorem Engine.modTenant_repairs (e : Engine) (i : Nat) (f : Tenant → Tenant) : (e.modTenant i f).repairs = e.repairs := rfl
@[simp] theorem Engine.modTenant_graphs (e : Engine) (i : Nat) (f : Tenant → Tenant) : (e.modTenant i f).graphs = e.graphs := rfl
@[simp] theorem Engine.modTenant_fns (e : Engine) (i : Nat) (f : Tenant → Tenant) : (e.modTenant i f).fns = e.fns := rfl
@[simp] theorem Engine.modTenant_vfAssign (e : Engine) (i : Nat) (f : Tenant → Tenant) : (e.modTenant i f).vfAssign = e.vfAssign := rfl
@[simp] theorem Engine.modTenant_ports (e : Engine) (i : Nat) (f : Tenant → Tenant) : (e.modTenant i f).ports = e.ports := rfl
@[simp] theorem Engine.modTenant_zports (e : Engine) (i : Nat) (f : Tenant → Tenant) : (e.modTenant i f).zports = e.zports := rfl
@[simp] theorem Engine.modTenant_engineId (e : Engine) (i : Nat) (f : Tenant → Tenant) : (e.modTenant i f).engineId = e.engineId := rfl
@[simp] theorem Engine.modTenant_zroute (e : Engine) (i : Nat) (f : Tenant → Tenant) : (e.modTenant i f).zroute = e.zroute := rfl
@[simp] theorem Engine.modTenant_pace (e : Engine) (i : Nat) (f : Tenant → Tenant) : (e.modTenant i f).pace = e.pace := rfl
@[simp] theorem Engine.modTenant_pair (e : Engine) (i : Nat) (f : Tenant → Tenant) : (e.modTenant i f).pair = e.pair := rfl
@[simp] theorem Engine.modTenant_sup (e : Engine) (i : Nat) (f : Tenant → Tenant) : (e.modTenant i f).sup = e.sup := rfl
@[simp] theorem Engine.modTenant_feeds (e : Engine) (i : Nat) (f : Tenant → Tenant) : (e.modTenant i f).feeds = e.feeds := rfl
@[simp] theorem Engine.modTenant_carts (e : Engine) (i : Nat) (f : Tenant → Tenant) : (e.modTenant i f).carts = e.carts := rfl
@[simp] theorem Engine.modTenant_domains (e : Engine) (i : Nat) (f : Tenant → Tenant) : (e.modTenant i f).domains = e.domains := rfl
@[simp] theorem Engine.modTenant_power (e : Engine) (i : Nat) (f : Tenant → Tenant) : (e.modTenant i f).power = e.power := rfl
@[simp] theorem Engine.modTenant_monitors (e : Engine) (i : Nat) (f : Tenant → Tenant) : (e.modTenant i f).monitors = e.monitors := rfl
@[simp] theorem Engine.modTenant_commit (e : Engine) (i : Nat) (f : Tenant → Tenant) : (e.modTenant i f).commit = e.commit := rfl
@[simp] theorem Engine.modTenant_snaps (e : Engine) (i : Nat) (f : Tenant → Tenant) : (e.modTenant i f).snaps = e.snaps := rfl
@[simp] theorem Engine.modTenant_resets (e : Engine) (i : Nat) (f : Tenant → Tenant) : (e.modTenant i f).resets = e.resets := rfl
@[simp] theorem Engine.modTenant_flight (e : Engine) (i : Nat) (f : Tenant → Tenant) : (e.modTenant i f).flight = e.flight := rfl
@[simp] theorem Engine.modTenant_signals (e : Engine) (i : Nat) (f : Tenant → Tenant) : (e.modTenant i f).signals = e.signals := rfl
@[simp] theorem Engine.modTenant_chains (e : Engine) (i : Nat) (f : Tenant → Tenant) : (e.modTenant i f).chains = e.chains := rfl
@[simp] theorem Engine.modTenant_remaps (e : Engine) (i : Nat) (f : Tenant → Tenant) : (e.modTenant i f).remaps = e.remaps := rfl
@[simp] theorem Engine.modTenant_siteResets (e : Engine) (i : Nat) (f : Tenant → Tenant) : (e.modTenant i f).siteResets = e.siteResets := rfl
@[simp] theorem Engine.modTenant_order (e : Engine) (i : Nat) (f : Tenant → Tenant) : (e.modTenant i f).order = e.order := rfl
@[simp] theorem Engine.modTenant_freeCtr (e : Engine) (i : Nat) (f : Tenant → Tenant) : (e.modTenant i f).freeCtr = e.freeCtr := rfl
@[simp] theorem Engine.modTenant_grade (e : Engine) (i : Nat) (f : Tenant → Tenant) : (e.modTenant i f).grade = e.grade := rfl
@[simp] theorem Engine.modTenant_xstopDue (e : Engine) (i : Nat) (f : Tenant → Tenant) : (e.modTenant i f).xstopDue = e.xstopDue := rfl
@[simp] theorem Engine.modTenant_zdrops (e : Engine) (i : Nat) (f : Tenant → Tenant) : (e.modTenant i f).zdrops = e.zdrops := rfl
@[simp] theorem Engine.modTenant_heard (e : Engine) (i : Nat) (f : Tenant → Tenant) : (e.modTenant i f).heard = e.heard := rfl
@[simp] theorem Engine.modTenant_captured (e : Engine) (i : Nat) (f : Tenant → Tenant) : (e.modTenant i f).captured = e.captured := rfl
@[simp] theorem Engine.modTenant_acts (e : Engine) (i : Nat) (f : Tenant → Tenant) : (e.modTenant i f).acts = e.acts := rfl
@[simp] theorem Engine.modTenant_out (e : Engine) (i : Nat) (f : Tenant → Tenant) : (e.modTenant i f).out = e.out := rfl
@[simp] theorem Engine.modReq_tiles (e : Engine) (i : Nat) (f : Request → Request) : (e.modReq i f).tiles = e.tiles := rfl
@[simp] theorem Engine.modReq_fields (e : Engine) (i : Nat) (f : Request → Request) : (e.modReq i f).fields = e.fields := rfl
@[simp] theorem Engine.modReq_decks (e : Engine) (i : Nat) (f : Request → Request) : (e.modReq i f).decks = e.decks := rfl
@[simp] theorem Engine.modReq_parts (e : Engine) (i : Nat) (f : Request → Request) : (e.modReq i f).parts = e.parts := rfl
@[simp] theorem Engine.modReq_tenants (e : Engine) (i : Nat) (f : Request → Request) : (e.modReq i f).tenants = e.tenants := rfl
@[simp] theorem Engine.modReq_images (e : Engine) (i : Nat) (f : Request → Request) : (e.modReq i f).images = e.images := rfl
@[simp] theorem Engine.modReq_session (e : Engine) (i : Nat) (f : Request → Request) : (e.modReq i f).session = e.session := rfl
@[simp] theorem Engine.modReq_repairs (e : Engine) (i : Nat) (f : Request → Request) : (e.modReq i f).repairs = e.repairs := rfl
@[simp] theorem Engine.modReq_graphs (e : Engine) (i : Nat) (f : Request → Request) : (e.modReq i f).graphs = e.graphs := rfl
@[simp] theorem Engine.modReq_fns (e : Engine) (i : Nat) (f : Request → Request) : (e.modReq i f).fns = e.fns := rfl
@[simp] theorem Engine.modReq_vfAssign (e : Engine) (i : Nat) (f : Request → Request) : (e.modReq i f).vfAssign = e.vfAssign := rfl
@[simp] theorem Engine.modReq_ports (e : Engine) (i : Nat) (f : Request → Request) : (e.modReq i f).ports = e.ports := rfl
@[simp] theorem Engine.modReq_zports (e : Engine) (i : Nat) (f : Request → Request) : (e.modReq i f).zports = e.zports := rfl
@[simp] theorem Engine.modReq_engineId (e : Engine) (i : Nat) (f : Request → Request) : (e.modReq i f).engineId = e.engineId := rfl
@[simp] theorem Engine.modReq_zroute (e : Engine) (i : Nat) (f : Request → Request) : (e.modReq i f).zroute = e.zroute := rfl
@[simp] theorem Engine.modReq_pace (e : Engine) (i : Nat) (f : Request → Request) : (e.modReq i f).pace = e.pace := rfl
@[simp] theorem Engine.modReq_pair (e : Engine) (i : Nat) (f : Request → Request) : (e.modReq i f).pair = e.pair := rfl
@[simp] theorem Engine.modReq_sup (e : Engine) (i : Nat) (f : Request → Request) : (e.modReq i f).sup = e.sup := rfl
@[simp] theorem Engine.modReq_feeds (e : Engine) (i : Nat) (f : Request → Request) : (e.modReq i f).feeds = e.feeds := rfl
@[simp] theorem Engine.modReq_carts (e : Engine) (i : Nat) (f : Request → Request) : (e.modReq i f).carts = e.carts := rfl
@[simp] theorem Engine.modReq_domains (e : Engine) (i : Nat) (f : Request → Request) : (e.modReq i f).domains = e.domains := rfl
@[simp] theorem Engine.modReq_power (e : Engine) (i : Nat) (f : Request → Request) : (e.modReq i f).power = e.power := rfl
@[simp] theorem Engine.modReq_monitors (e : Engine) (i : Nat) (f : Request → Request) : (e.modReq i f).monitors = e.monitors := rfl
@[simp] theorem Engine.modReq_commit (e : Engine) (i : Nat) (f : Request → Request) : (e.modReq i f).commit = e.commit := rfl
@[simp] theorem Engine.modReq_snaps (e : Engine) (i : Nat) (f : Request → Request) : (e.modReq i f).snaps = e.snaps := rfl
@[simp] theorem Engine.modReq_resets (e : Engine) (i : Nat) (f : Request → Request) : (e.modReq i f).resets = e.resets := rfl
@[simp] theorem Engine.modReq_flight (e : Engine) (i : Nat) (f : Request → Request) : (e.modReq i f).flight = e.flight := rfl
@[simp] theorem Engine.modReq_signals (e : Engine) (i : Nat) (f : Request → Request) : (e.modReq i f).signals = e.signals := rfl
@[simp] theorem Engine.modReq_chains (e : Engine) (i : Nat) (f : Request → Request) : (e.modReq i f).chains = e.chains := rfl
@[simp] theorem Engine.modReq_remaps (e : Engine) (i : Nat) (f : Request → Request) : (e.modReq i f).remaps = e.remaps := rfl
@[simp] theorem Engine.modReq_siteResets (e : Engine) (i : Nat) (f : Request → Request) : (e.modReq i f).siteResets = e.siteResets := rfl
@[simp] theorem Engine.modReq_order (e : Engine) (i : Nat) (f : Request → Request) : (e.modReq i f).order = e.order := rfl
@[simp] theorem Engine.modReq_freeCtr (e : Engine) (i : Nat) (f : Request → Request) : (e.modReq i f).freeCtr = e.freeCtr := rfl
@[simp] theorem Engine.modReq_grade (e : Engine) (i : Nat) (f : Request → Request) : (e.modReq i f).grade = e.grade := rfl
@[simp] theorem Engine.modReq_xstopDue (e : Engine) (i : Nat) (f : Request → Request) : (e.modReq i f).xstopDue = e.xstopDue := rfl
@[simp] theorem Engine.modReq_zdrops (e : Engine) (i : Nat) (f : Request → Request) : (e.modReq i f).zdrops = e.zdrops := rfl
@[simp] theorem Engine.modReq_heard (e : Engine) (i : Nat) (f : Request → Request) : (e.modReq i f).heard = e.heard := rfl
@[simp] theorem Engine.modReq_captured (e : Engine) (i : Nat) (f : Request → Request) : (e.modReq i f).captured = e.captured := rfl
@[simp] theorem Engine.modReq_acts (e : Engine) (i : Nat) (f : Request → Request) : (e.modReq i f).acts = e.acts := rfl
@[simp] theorem Engine.modReq_out (e : Engine) (i : Nat) (f : Request → Request) : (e.modReq i f).out = e.out := rfl
@[simp] theorem Engine.modImage_tiles (e : Engine) (i : Nat) (f : Image → Image) : (e.modImage i f).tiles = e.tiles := rfl
@[simp] theorem Engine.modImage_fields (e : Engine) (i : Nat) (f : Image → Image) : (e.modImage i f).fields = e.fields := rfl
@[simp] theorem Engine.modImage_decks (e : Engine) (i : Nat) (f : Image → Image) : (e.modImage i f).decks = e.decks := rfl
@[simp] theorem Engine.modImage_parts (e : Engine) (i : Nat) (f : Image → Image) : (e.modImage i f).parts = e.parts := rfl
@[simp] theorem Engine.modImage_tenants (e : Engine) (i : Nat) (f : Image → Image) : (e.modImage i f).tenants = e.tenants := rfl
@[simp] theorem Engine.modImage_reqs (e : Engine) (i : Nat) (f : Image → Image) : (e.modImage i f).reqs = e.reqs := rfl
@[simp] theorem Engine.modImage_session (e : Engine) (i : Nat) (f : Image → Image) : (e.modImage i f).session = e.session := rfl
@[simp] theorem Engine.modImage_repairs (e : Engine) (i : Nat) (f : Image → Image) : (e.modImage i f).repairs = e.repairs := rfl
@[simp] theorem Engine.modImage_graphs (e : Engine) (i : Nat) (f : Image → Image) : (e.modImage i f).graphs = e.graphs := rfl
@[simp] theorem Engine.modImage_fns (e : Engine) (i : Nat) (f : Image → Image) : (e.modImage i f).fns = e.fns := rfl
@[simp] theorem Engine.modImage_vfAssign (e : Engine) (i : Nat) (f : Image → Image) : (e.modImage i f).vfAssign = e.vfAssign := rfl
@[simp] theorem Engine.modImage_ports (e : Engine) (i : Nat) (f : Image → Image) : (e.modImage i f).ports = e.ports := rfl
@[simp] theorem Engine.modImage_zports (e : Engine) (i : Nat) (f : Image → Image) : (e.modImage i f).zports = e.zports := rfl
@[simp] theorem Engine.modImage_engineId (e : Engine) (i : Nat) (f : Image → Image) : (e.modImage i f).engineId = e.engineId := rfl
@[simp] theorem Engine.modImage_zroute (e : Engine) (i : Nat) (f : Image → Image) : (e.modImage i f).zroute = e.zroute := rfl
@[simp] theorem Engine.modImage_pace (e : Engine) (i : Nat) (f : Image → Image) : (e.modImage i f).pace = e.pace := rfl
@[simp] theorem Engine.modImage_pair (e : Engine) (i : Nat) (f : Image → Image) : (e.modImage i f).pair = e.pair := rfl
@[simp] theorem Engine.modImage_sup (e : Engine) (i : Nat) (f : Image → Image) : (e.modImage i f).sup = e.sup := rfl
@[simp] theorem Engine.modImage_feeds (e : Engine) (i : Nat) (f : Image → Image) : (e.modImage i f).feeds = e.feeds := rfl
@[simp] theorem Engine.modImage_carts (e : Engine) (i : Nat) (f : Image → Image) : (e.modImage i f).carts = e.carts := rfl
@[simp] theorem Engine.modImage_domains (e : Engine) (i : Nat) (f : Image → Image) : (e.modImage i f).domains = e.domains := rfl
@[simp] theorem Engine.modImage_power (e : Engine) (i : Nat) (f : Image → Image) : (e.modImage i f).power = e.power := rfl
@[simp] theorem Engine.modImage_monitors (e : Engine) (i : Nat) (f : Image → Image) : (e.modImage i f).monitors = e.monitors := rfl
@[simp] theorem Engine.modImage_commit (e : Engine) (i : Nat) (f : Image → Image) : (e.modImage i f).commit = e.commit := rfl
@[simp] theorem Engine.modImage_snaps (e : Engine) (i : Nat) (f : Image → Image) : (e.modImage i f).snaps = e.snaps := rfl
@[simp] theorem Engine.modImage_resets (e : Engine) (i : Nat) (f : Image → Image) : (e.modImage i f).resets = e.resets := rfl
@[simp] theorem Engine.modImage_flight (e : Engine) (i : Nat) (f : Image → Image) : (e.modImage i f).flight = e.flight := rfl
@[simp] theorem Engine.modImage_signals (e : Engine) (i : Nat) (f : Image → Image) : (e.modImage i f).signals = e.signals := rfl
@[simp] theorem Engine.modImage_chains (e : Engine) (i : Nat) (f : Image → Image) : (e.modImage i f).chains = e.chains := rfl
@[simp] theorem Engine.modImage_remaps (e : Engine) (i : Nat) (f : Image → Image) : (e.modImage i f).remaps = e.remaps := rfl
@[simp] theorem Engine.modImage_siteResets (e : Engine) (i : Nat) (f : Image → Image) : (e.modImage i f).siteResets = e.siteResets := rfl
@[simp] theorem Engine.modImage_order (e : Engine) (i : Nat) (f : Image → Image) : (e.modImage i f).order = e.order := rfl
@[simp] theorem Engine.modImage_freeCtr (e : Engine) (i : Nat) (f : Image → Image) : (e.modImage i f).freeCtr = e.freeCtr := rfl
@[simp] theorem Engine.modImage_grade (e : Engine) (i : Nat) (f : Image → Image) : (e.modImage i f).grade = e.grade := rfl
@[simp] theorem Engine.modImage_xstopDue (e : Engine) (i : Nat) (f : Image → Image) : (e.modImage i f).xstopDue = e.xstopDue := rfl
@[simp] theorem Engine.modImage_zdrops (e : Engine) (i : Nat) (f : Image → Image) : (e.modImage i f).zdrops = e.zdrops := rfl
@[simp] theorem Engine.modImage_heard (e : Engine) (i : Nat) (f : Image → Image) : (e.modImage i f).heard = e.heard := rfl
@[simp] theorem Engine.modImage_captured (e : Engine) (i : Nat) (f : Image → Image) : (e.modImage i f).captured = e.captured := rfl
@[simp] theorem Engine.modImage_acts (e : Engine) (i : Nat) (f : Image → Image) : (e.modImage i f).acts = e.acts := rfl
@[simp] theorem Engine.modImage_out (e : Engine) (i : Nat) (f : Image → Image) : (e.modImage i f).out = e.out := rfl
@[simp] theorem Engine.modGraph_tiles (e : Engine) (i : Nat) (f : Graph → Graph) : (e.modGraph i f).tiles = e.tiles := rfl
@[simp] theorem Engine.modGraph_fields (e : Engine) (i : Nat) (f : Graph → Graph) : (e.modGraph i f).fields = e.fields := rfl
@[simp] theorem Engine.modGraph_decks (e : Engine) (i : Nat) (f : Graph → Graph) : (e.modGraph i f).decks = e.decks := rfl
@[simp] theorem Engine.modGraph_parts (e : Engine) (i : Nat) (f : Graph → Graph) : (e.modGraph i f).parts = e.parts := rfl
@[simp] theorem Engine.modGraph_tenants (e : Engine) (i : Nat) (f : Graph → Graph) : (e.modGraph i f).tenants = e.tenants := rfl
@[simp] theorem Engine.modGraph_reqs (e : Engine) (i : Nat) (f : Graph → Graph) : (e.modGraph i f).reqs = e.reqs := rfl
@[simp] theorem Engine.modGraph_images (e : Engine) (i : Nat) (f : Graph → Graph) : (e.modGraph i f).images = e.images := rfl
@[simp] theorem Engine.modGraph_session (e : Engine) (i : Nat) (f : Graph → Graph) : (e.modGraph i f).session = e.session := rfl
@[simp] theorem Engine.modGraph_repairs (e : Engine) (i : Nat) (f : Graph → Graph) : (e.modGraph i f).repairs = e.repairs := rfl
@[simp] theorem Engine.modGraph_fns (e : Engine) (i : Nat) (f : Graph → Graph) : (e.modGraph i f).fns = e.fns := rfl
@[simp] theorem Engine.modGraph_vfAssign (e : Engine) (i : Nat) (f : Graph → Graph) : (e.modGraph i f).vfAssign = e.vfAssign := rfl
@[simp] theorem Engine.modGraph_ports (e : Engine) (i : Nat) (f : Graph → Graph) : (e.modGraph i f).ports = e.ports := rfl
@[simp] theorem Engine.modGraph_zports (e : Engine) (i : Nat) (f : Graph → Graph) : (e.modGraph i f).zports = e.zports := rfl
@[simp] theorem Engine.modGraph_engineId (e : Engine) (i : Nat) (f : Graph → Graph) : (e.modGraph i f).engineId = e.engineId := rfl
@[simp] theorem Engine.modGraph_zroute (e : Engine) (i : Nat) (f : Graph → Graph) : (e.modGraph i f).zroute = e.zroute := rfl
@[simp] theorem Engine.modGraph_pace (e : Engine) (i : Nat) (f : Graph → Graph) : (e.modGraph i f).pace = e.pace := rfl
@[simp] theorem Engine.modGraph_pair (e : Engine) (i : Nat) (f : Graph → Graph) : (e.modGraph i f).pair = e.pair := rfl
@[simp] theorem Engine.modGraph_sup (e : Engine) (i : Nat) (f : Graph → Graph) : (e.modGraph i f).sup = e.sup := rfl
@[simp] theorem Engine.modGraph_feeds (e : Engine) (i : Nat) (f : Graph → Graph) : (e.modGraph i f).feeds = e.feeds := rfl
@[simp] theorem Engine.modGraph_carts (e : Engine) (i : Nat) (f : Graph → Graph) : (e.modGraph i f).carts = e.carts := rfl
@[simp] theorem Engine.modGraph_domains (e : Engine) (i : Nat) (f : Graph → Graph) : (e.modGraph i f).domains = e.domains := rfl
@[simp] theorem Engine.modGraph_power (e : Engine) (i : Nat) (f : Graph → Graph) : (e.modGraph i f).power = e.power := rfl
@[simp] theorem Engine.modGraph_monitors (e : Engine) (i : Nat) (f : Graph → Graph) : (e.modGraph i f).monitors = e.monitors := rfl
@[simp] theorem Engine.modGraph_commit (e : Engine) (i : Nat) (f : Graph → Graph) : (e.modGraph i f).commit = e.commit := rfl
@[simp] theorem Engine.modGraph_snaps (e : Engine) (i : Nat) (f : Graph → Graph) : (e.modGraph i f).snaps = e.snaps := rfl
@[simp] theorem Engine.modGraph_resets (e : Engine) (i : Nat) (f : Graph → Graph) : (e.modGraph i f).resets = e.resets := rfl
@[simp] theorem Engine.modGraph_flight (e : Engine) (i : Nat) (f : Graph → Graph) : (e.modGraph i f).flight = e.flight := rfl
@[simp] theorem Engine.modGraph_signals (e : Engine) (i : Nat) (f : Graph → Graph) : (e.modGraph i f).signals = e.signals := rfl
@[simp] theorem Engine.modGraph_chains (e : Engine) (i : Nat) (f : Graph → Graph) : (e.modGraph i f).chains = e.chains := rfl
@[simp] theorem Engine.modGraph_remaps (e : Engine) (i : Nat) (f : Graph → Graph) : (e.modGraph i f).remaps = e.remaps := rfl
@[simp] theorem Engine.modGraph_siteResets (e : Engine) (i : Nat) (f : Graph → Graph) : (e.modGraph i f).siteResets = e.siteResets := rfl
@[simp] theorem Engine.modGraph_order (e : Engine) (i : Nat) (f : Graph → Graph) : (e.modGraph i f).order = e.order := rfl
@[simp] theorem Engine.modGraph_freeCtr (e : Engine) (i : Nat) (f : Graph → Graph) : (e.modGraph i f).freeCtr = e.freeCtr := rfl
@[simp] theorem Engine.modGraph_grade (e : Engine) (i : Nat) (f : Graph → Graph) : (e.modGraph i f).grade = e.grade := rfl
@[simp] theorem Engine.modGraph_xstopDue (e : Engine) (i : Nat) (f : Graph → Graph) : (e.modGraph i f).xstopDue = e.xstopDue := rfl
@[simp] theorem Engine.modGraph_zdrops (e : Engine) (i : Nat) (f : Graph → Graph) : (e.modGraph i f).zdrops = e.zdrops := rfl
@[simp] theorem Engine.modGraph_heard (e : Engine) (i : Nat) (f : Graph → Graph) : (e.modGraph i f).heard = e.heard := rfl
@[simp] theorem Engine.modGraph_captured (e : Engine) (i : Nat) (f : Graph → Graph) : (e.modGraph i f).captured = e.captured := rfl
@[simp] theorem Engine.modGraph_acts (e : Engine) (i : Nat) (f : Graph → Graph) : (e.modGraph i f).acts = e.acts := rfl
@[simp] theorem Engine.modGraph_out (e : Engine) (i : Nat) (f : Graph → Graph) : (e.modGraph i f).out = e.out := rfl
@[simp] theorem Engine.modZport_tiles (e : Engine) (i : Nat) (f : ZPort → ZPort) : (e.modZport i f).tiles = e.tiles := rfl
@[simp] theorem Engine.modZport_fields (e : Engine) (i : Nat) (f : ZPort → ZPort) : (e.modZport i f).fields = e.fields := rfl
@[simp] theorem Engine.modZport_decks (e : Engine) (i : Nat) (f : ZPort → ZPort) : (e.modZport i f).decks = e.decks := rfl
@[simp] theorem Engine.modZport_parts (e : Engine) (i : Nat) (f : ZPort → ZPort) : (e.modZport i f).parts = e.parts := rfl
@[simp] theorem Engine.modZport_tenants (e : Engine) (i : Nat) (f : ZPort → ZPort) : (e.modZport i f).tenants = e.tenants := rfl
@[simp] theorem Engine.modZport_reqs (e : Engine) (i : Nat) (f : ZPort → ZPort) : (e.modZport i f).reqs = e.reqs := rfl
@[simp] theorem Engine.modZport_images (e : Engine) (i : Nat) (f : ZPort → ZPort) : (e.modZport i f).images = e.images := rfl
@[simp] theorem Engine.modZport_session (e : Engine) (i : Nat) (f : ZPort → ZPort) : (e.modZport i f).session = e.session := rfl
@[simp] theorem Engine.modZport_repairs (e : Engine) (i : Nat) (f : ZPort → ZPort) : (e.modZport i f).repairs = e.repairs := rfl
@[simp] theorem Engine.modZport_graphs (e : Engine) (i : Nat) (f : ZPort → ZPort) : (e.modZport i f).graphs = e.graphs := rfl
@[simp] theorem Engine.modZport_fns (e : Engine) (i : Nat) (f : ZPort → ZPort) : (e.modZport i f).fns = e.fns := rfl
@[simp] theorem Engine.modZport_vfAssign (e : Engine) (i : Nat) (f : ZPort → ZPort) : (e.modZport i f).vfAssign = e.vfAssign := rfl
@[simp] theorem Engine.modZport_ports (e : Engine) (i : Nat) (f : ZPort → ZPort) : (e.modZport i f).ports = e.ports := rfl
@[simp] theorem Engine.modZport_engineId (e : Engine) (i : Nat) (f : ZPort → ZPort) : (e.modZport i f).engineId = e.engineId := rfl
@[simp] theorem Engine.modZport_zroute (e : Engine) (i : Nat) (f : ZPort → ZPort) : (e.modZport i f).zroute = e.zroute := rfl
@[simp] theorem Engine.modZport_pace (e : Engine) (i : Nat) (f : ZPort → ZPort) : (e.modZport i f).pace = e.pace := rfl
@[simp] theorem Engine.modZport_pair (e : Engine) (i : Nat) (f : ZPort → ZPort) : (e.modZport i f).pair = e.pair := rfl
@[simp] theorem Engine.modZport_sup (e : Engine) (i : Nat) (f : ZPort → ZPort) : (e.modZport i f).sup = e.sup := rfl
@[simp] theorem Engine.modZport_feeds (e : Engine) (i : Nat) (f : ZPort → ZPort) : (e.modZport i f).feeds = e.feeds := rfl
@[simp] theorem Engine.modZport_carts (e : Engine) (i : Nat) (f : ZPort → ZPort) : (e.modZport i f).carts = e.carts := rfl
@[simp] theorem Engine.modZport_domains (e : Engine) (i : Nat) (f : ZPort → ZPort) : (e.modZport i f).domains = e.domains := rfl
@[simp] theorem Engine.modZport_power (e : Engine) (i : Nat) (f : ZPort → ZPort) : (e.modZport i f).power = e.power := rfl
@[simp] theorem Engine.modZport_monitors (e : Engine) (i : Nat) (f : ZPort → ZPort) : (e.modZport i f).monitors = e.monitors := rfl
@[simp] theorem Engine.modZport_commit (e : Engine) (i : Nat) (f : ZPort → ZPort) : (e.modZport i f).commit = e.commit := rfl
@[simp] theorem Engine.modZport_snaps (e : Engine) (i : Nat) (f : ZPort → ZPort) : (e.modZport i f).snaps = e.snaps := rfl
@[simp] theorem Engine.modZport_resets (e : Engine) (i : Nat) (f : ZPort → ZPort) : (e.modZport i f).resets = e.resets := rfl
@[simp] theorem Engine.modZport_flight (e : Engine) (i : Nat) (f : ZPort → ZPort) : (e.modZport i f).flight = e.flight := rfl
@[simp] theorem Engine.modZport_signals (e : Engine) (i : Nat) (f : ZPort → ZPort) : (e.modZport i f).signals = e.signals := rfl
@[simp] theorem Engine.modZport_chains (e : Engine) (i : Nat) (f : ZPort → ZPort) : (e.modZport i f).chains = e.chains := rfl
@[simp] theorem Engine.modZport_remaps (e : Engine) (i : Nat) (f : ZPort → ZPort) : (e.modZport i f).remaps = e.remaps := rfl
@[simp] theorem Engine.modZport_siteResets (e : Engine) (i : Nat) (f : ZPort → ZPort) : (e.modZport i f).siteResets = e.siteResets := rfl
@[simp] theorem Engine.modZport_order (e : Engine) (i : Nat) (f : ZPort → ZPort) : (e.modZport i f).order = e.order := rfl
@[simp] theorem Engine.modZport_freeCtr (e : Engine) (i : Nat) (f : ZPort → ZPort) : (e.modZport i f).freeCtr = e.freeCtr := rfl
@[simp] theorem Engine.modZport_grade (e : Engine) (i : Nat) (f : ZPort → ZPort) : (e.modZport i f).grade = e.grade := rfl
@[simp] theorem Engine.modZport_xstopDue (e : Engine) (i : Nat) (f : ZPort → ZPort) : (e.modZport i f).xstopDue = e.xstopDue := rfl
@[simp] theorem Engine.modZport_zdrops (e : Engine) (i : Nat) (f : ZPort → ZPort) : (e.modZport i f).zdrops = e.zdrops := rfl
@[simp] theorem Engine.modZport_heard (e : Engine) (i : Nat) (f : ZPort → ZPort) : (e.modZport i f).heard = e.heard := rfl
@[simp] theorem Engine.modZport_captured (e : Engine) (i : Nat) (f : ZPort → ZPort) : (e.modZport i f).captured = e.captured := rfl
@[simp] theorem Engine.modZport_acts (e : Engine) (i : Nat) (f : ZPort → ZPort) : (e.modZport i f).acts = e.acts := rfl
@[simp] theorem Engine.modZport_out (e : Engine) (i : Nat) (f : ZPort → ZPort) : (e.modZport i f).out = e.out := rfl
@[simp] theorem Engine.modHport_tiles (e : Engine) (i : Nat) (f : HostPort → HostPort) : (e.modHport i f).tiles = e.tiles := rfl
@[simp] theorem Engine.modHport_fields (e : Engine) (i : Nat) (f : HostPort → HostPort) : (e.modHport i f).fields = e.fields := rfl
@[simp] theorem Engine.modHport_decks (e : Engine) (i : Nat) (f : HostPort → HostPort) : (e.modHport i f).decks = e.decks := rfl
@[simp] theorem Engine.modHport_parts (e : Engine) (i : Nat) (f : HostPort → HostPort) : (e.modHport i f).parts = e.parts := rfl
@[simp] theorem Engine.modHport_tenants (e : Engine) (i : Nat) (f : HostPort → HostPort) : (e.modHport i f).tenants = e.tenants := rfl
@[simp] theorem Engine.modHport_reqs (e : Engine) (i : Nat) (f : HostPort → HostPort) : (e.modHport i f).reqs = e.reqs := rfl
@[simp] theorem Engine.modHport_images (e : Engine) (i : Nat) (f : HostPort → HostPort) : (e.modHport i f).images = e.images := rfl
@[simp] theorem Engine.modHport_session (e : Engine) (i : Nat) (f : HostPort → HostPort) : (e.modHport i f).session = e.session := rfl
@[simp] theorem Engine.modHport_repairs (e : Engine) (i : Nat) (f : HostPort → HostPort) : (e.modHport i f).repairs = e.repairs := rfl
@[simp] theorem Engine.modHport_graphs (e : Engine) (i : Nat) (f : HostPort → HostPort) : (e.modHport i f).graphs = e.graphs := rfl
@[simp] theorem Engine.modHport_fns (e : Engine) (i : Nat) (f : HostPort → HostPort) : (e.modHport i f).fns = e.fns := rfl
@[simp] theorem Engine.modHport_vfAssign (e : Engine) (i : Nat) (f : HostPort → HostPort) : (e.modHport i f).vfAssign = e.vfAssign := rfl
@[simp] theorem Engine.modHport_zports (e : Engine) (i : Nat) (f : HostPort → HostPort) : (e.modHport i f).zports = e.zports := rfl
@[simp] theorem Engine.modHport_engineId (e : Engine) (i : Nat) (f : HostPort → HostPort) : (e.modHport i f).engineId = e.engineId := rfl
@[simp] theorem Engine.modHport_zroute (e : Engine) (i : Nat) (f : HostPort → HostPort) : (e.modHport i f).zroute = e.zroute := rfl
@[simp] theorem Engine.modHport_pace (e : Engine) (i : Nat) (f : HostPort → HostPort) : (e.modHport i f).pace = e.pace := rfl
@[simp] theorem Engine.modHport_pair (e : Engine) (i : Nat) (f : HostPort → HostPort) : (e.modHport i f).pair = e.pair := rfl
@[simp] theorem Engine.modHport_sup (e : Engine) (i : Nat) (f : HostPort → HostPort) : (e.modHport i f).sup = e.sup := rfl
@[simp] theorem Engine.modHport_feeds (e : Engine) (i : Nat) (f : HostPort → HostPort) : (e.modHport i f).feeds = e.feeds := rfl
@[simp] theorem Engine.modHport_carts (e : Engine) (i : Nat) (f : HostPort → HostPort) : (e.modHport i f).carts = e.carts := rfl
@[simp] theorem Engine.modHport_domains (e : Engine) (i : Nat) (f : HostPort → HostPort) : (e.modHport i f).domains = e.domains := rfl
@[simp] theorem Engine.modHport_power (e : Engine) (i : Nat) (f : HostPort → HostPort) : (e.modHport i f).power = e.power := rfl
@[simp] theorem Engine.modHport_monitors (e : Engine) (i : Nat) (f : HostPort → HostPort) : (e.modHport i f).monitors = e.monitors := rfl
@[simp] theorem Engine.modHport_commit (e : Engine) (i : Nat) (f : HostPort → HostPort) : (e.modHport i f).commit = e.commit := rfl
@[simp] theorem Engine.modHport_snaps (e : Engine) (i : Nat) (f : HostPort → HostPort) : (e.modHport i f).snaps = e.snaps := rfl
@[simp] theorem Engine.modHport_resets (e : Engine) (i : Nat) (f : HostPort → HostPort) : (e.modHport i f).resets = e.resets := rfl
@[simp] theorem Engine.modHport_flight (e : Engine) (i : Nat) (f : HostPort → HostPort) : (e.modHport i f).flight = e.flight := rfl
@[simp] theorem Engine.modHport_signals (e : Engine) (i : Nat) (f : HostPort → HostPort) : (e.modHport i f).signals = e.signals := rfl
@[simp] theorem Engine.modHport_chains (e : Engine) (i : Nat) (f : HostPort → HostPort) : (e.modHport i f).chains = e.chains := rfl
@[simp] theorem Engine.modHport_remaps (e : Engine) (i : Nat) (f : HostPort → HostPort) : (e.modHport i f).remaps = e.remaps := rfl
@[simp] theorem Engine.modHport_siteResets (e : Engine) (i : Nat) (f : HostPort → HostPort) : (e.modHport i f).siteResets = e.siteResets := rfl
@[simp] theorem Engine.modHport_order (e : Engine) (i : Nat) (f : HostPort → HostPort) : (e.modHport i f).order = e.order := rfl
@[simp] theorem Engine.modHport_freeCtr (e : Engine) (i : Nat) (f : HostPort → HostPort) : (e.modHport i f).freeCtr = e.freeCtr := rfl
@[simp] theorem Engine.modHport_grade (e : Engine) (i : Nat) (f : HostPort → HostPort) : (e.modHport i f).grade = e.grade := rfl
@[simp] theorem Engine.modHport_xstopDue (e : Engine) (i : Nat) (f : HostPort → HostPort) : (e.modHport i f).xstopDue = e.xstopDue := rfl
@[simp] theorem Engine.modHport_zdrops (e : Engine) (i : Nat) (f : HostPort → HostPort) : (e.modHport i f).zdrops = e.zdrops := rfl
@[simp] theorem Engine.modHport_heard (e : Engine) (i : Nat) (f : HostPort → HostPort) : (e.modHport i f).heard = e.heard := rfl
@[simp] theorem Engine.modHport_captured (e : Engine) (i : Nat) (f : HostPort → HostPort) : (e.modHport i f).captured = e.captured := rfl
@[simp] theorem Engine.modHport_acts (e : Engine) (i : Nat) (f : HostPort → HostPort) : (e.modHport i f).acts = e.acts := rfl
@[simp] theorem Engine.modHport_out (e : Engine) (i : Nat) (f : HostPort → HostPort) : (e.modHport i f).out = e.out := rfl
@[simp] theorem Engine.modDomain_tiles (e : Engine) (i : Nat) (f : Domain → Domain) : (e.modDomain i f).tiles = e.tiles := rfl
@[simp] theorem Engine.modDomain_fields (e : Engine) (i : Nat) (f : Domain → Domain) : (e.modDomain i f).fields = e.fields := rfl
@[simp] theorem Engine.modDomain_decks (e : Engine) (i : Nat) (f : Domain → Domain) : (e.modDomain i f).decks = e.decks := rfl
@[simp] theorem Engine.modDomain_parts (e : Engine) (i : Nat) (f : Domain → Domain) : (e.modDomain i f).parts = e.parts := rfl
@[simp] theorem Engine.modDomain_tenants (e : Engine) (i : Nat) (f : Domain → Domain) : (e.modDomain i f).tenants = e.tenants := rfl
@[simp] theorem Engine.modDomain_reqs (e : Engine) (i : Nat) (f : Domain → Domain) : (e.modDomain i f).reqs = e.reqs := rfl
@[simp] theorem Engine.modDomain_images (e : Engine) (i : Nat) (f : Domain → Domain) : (e.modDomain i f).images = e.images := rfl
@[simp] theorem Engine.modDomain_session (e : Engine) (i : Nat) (f : Domain → Domain) : (e.modDomain i f).session = e.session := rfl
@[simp] theorem Engine.modDomain_repairs (e : Engine) (i : Nat) (f : Domain → Domain) : (e.modDomain i f).repairs = e.repairs := rfl
@[simp] theorem Engine.modDomain_graphs (e : Engine) (i : Nat) (f : Domain → Domain) : (e.modDomain i f).graphs = e.graphs := rfl
@[simp] theorem Engine.modDomain_fns (e : Engine) (i : Nat) (f : Domain → Domain) : (e.modDomain i f).fns = e.fns := rfl
@[simp] theorem Engine.modDomain_vfAssign (e : Engine) (i : Nat) (f : Domain → Domain) : (e.modDomain i f).vfAssign = e.vfAssign := rfl
@[simp] theorem Engine.modDomain_ports (e : Engine) (i : Nat) (f : Domain → Domain) : (e.modDomain i f).ports = e.ports := rfl
@[simp] theorem Engine.modDomain_zports (e : Engine) (i : Nat) (f : Domain → Domain) : (e.modDomain i f).zports = e.zports := rfl
@[simp] theorem Engine.modDomain_engineId (e : Engine) (i : Nat) (f : Domain → Domain) : (e.modDomain i f).engineId = e.engineId := rfl
@[simp] theorem Engine.modDomain_zroute (e : Engine) (i : Nat) (f : Domain → Domain) : (e.modDomain i f).zroute = e.zroute := rfl
@[simp] theorem Engine.modDomain_pace (e : Engine) (i : Nat) (f : Domain → Domain) : (e.modDomain i f).pace = e.pace := rfl
@[simp] theorem Engine.modDomain_pair (e : Engine) (i : Nat) (f : Domain → Domain) : (e.modDomain i f).pair = e.pair := rfl
@[simp] theorem Engine.modDomain_sup (e : Engine) (i : Nat) (f : Domain → Domain) : (e.modDomain i f).sup = e.sup := rfl
@[simp] theorem Engine.modDomain_feeds (e : Engine) (i : Nat) (f : Domain → Domain) : (e.modDomain i f).feeds = e.feeds := rfl
@[simp] theorem Engine.modDomain_carts (e : Engine) (i : Nat) (f : Domain → Domain) : (e.modDomain i f).carts = e.carts := rfl
@[simp] theorem Engine.modDomain_power (e : Engine) (i : Nat) (f : Domain → Domain) : (e.modDomain i f).power = e.power := rfl
@[simp] theorem Engine.modDomain_monitors (e : Engine) (i : Nat) (f : Domain → Domain) : (e.modDomain i f).monitors = e.monitors := rfl
@[simp] theorem Engine.modDomain_commit (e : Engine) (i : Nat) (f : Domain → Domain) : (e.modDomain i f).commit = e.commit := rfl
@[simp] theorem Engine.modDomain_snaps (e : Engine) (i : Nat) (f : Domain → Domain) : (e.modDomain i f).snaps = e.snaps := rfl
@[simp] theorem Engine.modDomain_resets (e : Engine) (i : Nat) (f : Domain → Domain) : (e.modDomain i f).resets = e.resets := rfl
@[simp] theorem Engine.modDomain_flight (e : Engine) (i : Nat) (f : Domain → Domain) : (e.modDomain i f).flight = e.flight := rfl
@[simp] theorem Engine.modDomain_signals (e : Engine) (i : Nat) (f : Domain → Domain) : (e.modDomain i f).signals = e.signals := rfl
@[simp] theorem Engine.modDomain_chains (e : Engine) (i : Nat) (f : Domain → Domain) : (e.modDomain i f).chains = e.chains := rfl
@[simp] theorem Engine.modDomain_remaps (e : Engine) (i : Nat) (f : Domain → Domain) : (e.modDomain i f).remaps = e.remaps := rfl
@[simp] theorem Engine.modDomain_siteResets (e : Engine) (i : Nat) (f : Domain → Domain) : (e.modDomain i f).siteResets = e.siteResets := rfl
@[simp] theorem Engine.modDomain_order (e : Engine) (i : Nat) (f : Domain → Domain) : (e.modDomain i f).order = e.order := rfl
@[simp] theorem Engine.modDomain_freeCtr (e : Engine) (i : Nat) (f : Domain → Domain) : (e.modDomain i f).freeCtr = e.freeCtr := rfl
@[simp] theorem Engine.modDomain_grade (e : Engine) (i : Nat) (f : Domain → Domain) : (e.modDomain i f).grade = e.grade := rfl
@[simp] theorem Engine.modDomain_xstopDue (e : Engine) (i : Nat) (f : Domain → Domain) : (e.modDomain i f).xstopDue = e.xstopDue := rfl
@[simp] theorem Engine.modDomain_zdrops (e : Engine) (i : Nat) (f : Domain → Domain) : (e.modDomain i f).zdrops = e.zdrops := rfl
@[simp] theorem Engine.modDomain_heard (e : Engine) (i : Nat) (f : Domain → Domain) : (e.modDomain i f).heard = e.heard := rfl
@[simp] theorem Engine.modDomain_captured (e : Engine) (i : Nat) (f : Domain → Domain) : (e.modDomain i f).captured = e.captured := rfl
@[simp] theorem Engine.modDomain_acts (e : Engine) (i : Nat) (f : Domain → Domain) : (e.modDomain i f).acts = e.acts := rfl
@[simp] theorem Engine.modDomain_out (e : Engine) (i : Nat) (f : Domain → Domain) : (e.modDomain i f).out = e.out := rfl
@[simp] theorem Engine.modSup_tiles (e : Engine) (f : Supervisor → Supervisor) : (e.modSup f).tiles = e.tiles := rfl
@[simp] theorem Engine.modSup_fields (e : Engine) (f : Supervisor → Supervisor) : (e.modSup f).fields = e.fields := rfl
@[simp] theorem Engine.modSup_decks (e : Engine) (f : Supervisor → Supervisor) : (e.modSup f).decks = e.decks := rfl
@[simp] theorem Engine.modSup_parts (e : Engine) (f : Supervisor → Supervisor) : (e.modSup f).parts = e.parts := rfl
@[simp] theorem Engine.modSup_tenants (e : Engine) (f : Supervisor → Supervisor) : (e.modSup f).tenants = e.tenants := rfl
@[simp] theorem Engine.modSup_reqs (e : Engine) (f : Supervisor → Supervisor) : (e.modSup f).reqs = e.reqs := rfl
@[simp] theorem Engine.modSup_images (e : Engine) (f : Supervisor → Supervisor) : (e.modSup f).images = e.images := rfl
@[simp] theorem Engine.modSup_session (e : Engine) (f : Supervisor → Supervisor) : (e.modSup f).session = e.session := rfl
@[simp] theorem Engine.modSup_repairs (e : Engine) (f : Supervisor → Supervisor) : (e.modSup f).repairs = e.repairs := rfl
@[simp] theorem Engine.modSup_graphs (e : Engine) (f : Supervisor → Supervisor) : (e.modSup f).graphs = e.graphs := rfl
@[simp] theorem Engine.modSup_fns (e : Engine) (f : Supervisor → Supervisor) : (e.modSup f).fns = e.fns := rfl
@[simp] theorem Engine.modSup_vfAssign (e : Engine) (f : Supervisor → Supervisor) : (e.modSup f).vfAssign = e.vfAssign := rfl
@[simp] theorem Engine.modSup_ports (e : Engine) (f : Supervisor → Supervisor) : (e.modSup f).ports = e.ports := rfl
@[simp] theorem Engine.modSup_zports (e : Engine) (f : Supervisor → Supervisor) : (e.modSup f).zports = e.zports := rfl
@[simp] theorem Engine.modSup_engineId (e : Engine) (f : Supervisor → Supervisor) : (e.modSup f).engineId = e.engineId := rfl
@[simp] theorem Engine.modSup_zroute (e : Engine) (f : Supervisor → Supervisor) : (e.modSup f).zroute = e.zroute := rfl
@[simp] theorem Engine.modSup_pace (e : Engine) (f : Supervisor → Supervisor) : (e.modSup f).pace = e.pace := rfl
@[simp] theorem Engine.modSup_pair (e : Engine) (f : Supervisor → Supervisor) : (e.modSup f).pair = e.pair := rfl
@[simp] theorem Engine.modSup_feeds (e : Engine) (f : Supervisor → Supervisor) : (e.modSup f).feeds = e.feeds := rfl
@[simp] theorem Engine.modSup_carts (e : Engine) (f : Supervisor → Supervisor) : (e.modSup f).carts = e.carts := rfl
@[simp] theorem Engine.modSup_domains (e : Engine) (f : Supervisor → Supervisor) : (e.modSup f).domains = e.domains := rfl
@[simp] theorem Engine.modSup_power (e : Engine) (f : Supervisor → Supervisor) : (e.modSup f).power = e.power := rfl
@[simp] theorem Engine.modSup_monitors (e : Engine) (f : Supervisor → Supervisor) : (e.modSup f).monitors = e.monitors := rfl
@[simp] theorem Engine.modSup_commit (e : Engine) (f : Supervisor → Supervisor) : (e.modSup f).commit = e.commit := rfl
@[simp] theorem Engine.modSup_snaps (e : Engine) (f : Supervisor → Supervisor) : (e.modSup f).snaps = e.snaps := rfl
@[simp] theorem Engine.modSup_resets (e : Engine) (f : Supervisor → Supervisor) : (e.modSup f).resets = e.resets := rfl
@[simp] theorem Engine.modSup_flight (e : Engine) (f : Supervisor → Supervisor) : (e.modSup f).flight = e.flight := rfl
@[simp] theorem Engine.modSup_signals (e : Engine) (f : Supervisor → Supervisor) : (e.modSup f).signals = e.signals := rfl
@[simp] theorem Engine.modSup_chains (e : Engine) (f : Supervisor → Supervisor) : (e.modSup f).chains = e.chains := rfl
@[simp] theorem Engine.modSup_remaps (e : Engine) (f : Supervisor → Supervisor) : (e.modSup f).remaps = e.remaps := rfl
@[simp] theorem Engine.modSup_siteResets (e : Engine) (f : Supervisor → Supervisor) : (e.modSup f).siteResets = e.siteResets := rfl
@[simp] theorem Engine.modSup_order (e : Engine) (f : Supervisor → Supervisor) : (e.modSup f).order = e.order := rfl
@[simp] theorem Engine.modSup_freeCtr (e : Engine) (f : Supervisor → Supervisor) : (e.modSup f).freeCtr = e.freeCtr := rfl
@[simp] theorem Engine.modSup_grade (e : Engine) (f : Supervisor → Supervisor) : (e.modSup f).grade = e.grade := rfl
@[simp] theorem Engine.modSup_xstopDue (e : Engine) (f : Supervisor → Supervisor) : (e.modSup f).xstopDue = e.xstopDue := rfl
@[simp] theorem Engine.modSup_zdrops (e : Engine) (f : Supervisor → Supervisor) : (e.modSup f).zdrops = e.zdrops := rfl
@[simp] theorem Engine.modSup_heard (e : Engine) (f : Supervisor → Supervisor) : (e.modSup f).heard = e.heard := rfl
@[simp] theorem Engine.modSup_captured (e : Engine) (f : Supervisor → Supervisor) : (e.modSup f).captured = e.captured := rfl
@[simp] theorem Engine.modSup_acts (e : Engine) (f : Supervisor → Supervisor) : (e.modSup f).acts = e.acts := rfl
@[simp] theorem Engine.modSup_out (e : Engine) (f : Supervisor → Supervisor) : (e.modSup f).out = e.out := rfl
@[simp] theorem Engine.modFn_tiles (e : Engine) (i : Fn) (f : FnState → FnState) : (e.modFn i f).tiles = e.tiles := rfl
@[simp] theorem Engine.modFn_fields (e : Engine) (i : Fn) (f : FnState → FnState) : (e.modFn i f).fields = e.fields := rfl
@[simp] theorem Engine.modFn_decks (e : Engine) (i : Fn) (f : FnState → FnState) : (e.modFn i f).decks = e.decks := rfl
@[simp] theorem Engine.modFn_parts (e : Engine) (i : Fn) (f : FnState → FnState) : (e.modFn i f).parts = e.parts := rfl
@[simp] theorem Engine.modFn_tenants (e : Engine) (i : Fn) (f : FnState → FnState) : (e.modFn i f).tenants = e.tenants := rfl
@[simp] theorem Engine.modFn_reqs (e : Engine) (i : Fn) (f : FnState → FnState) : (e.modFn i f).reqs = e.reqs := rfl
@[simp] theorem Engine.modFn_images (e : Engine) (i : Fn) (f : FnState → FnState) : (e.modFn i f).images = e.images := rfl
@[simp] theorem Engine.modFn_session (e : Engine) (i : Fn) (f : FnState → FnState) : (e.modFn i f).session = e.session := rfl
@[simp] theorem Engine.modFn_repairs (e : Engine) (i : Fn) (f : FnState → FnState) : (e.modFn i f).repairs = e.repairs := rfl
@[simp] theorem Engine.modFn_graphs (e : Engine) (i : Fn) (f : FnState → FnState) : (e.modFn i f).graphs = e.graphs := rfl
@[simp] theorem Engine.modFn_vfAssign (e : Engine) (i : Fn) (f : FnState → FnState) : (e.modFn i f).vfAssign = e.vfAssign := rfl
@[simp] theorem Engine.modFn_ports (e : Engine) (i : Fn) (f : FnState → FnState) : (e.modFn i f).ports = e.ports := rfl
@[simp] theorem Engine.modFn_zports (e : Engine) (i : Fn) (f : FnState → FnState) : (e.modFn i f).zports = e.zports := rfl
@[simp] theorem Engine.modFn_engineId (e : Engine) (i : Fn) (f : FnState → FnState) : (e.modFn i f).engineId = e.engineId := rfl
@[simp] theorem Engine.modFn_zroute (e : Engine) (i : Fn) (f : FnState → FnState) : (e.modFn i f).zroute = e.zroute := rfl
@[simp] theorem Engine.modFn_pace (e : Engine) (i : Fn) (f : FnState → FnState) : (e.modFn i f).pace = e.pace := rfl
@[simp] theorem Engine.modFn_pair (e : Engine) (i : Fn) (f : FnState → FnState) : (e.modFn i f).pair = e.pair := rfl
@[simp] theorem Engine.modFn_sup (e : Engine) (i : Fn) (f : FnState → FnState) : (e.modFn i f).sup = e.sup := rfl
@[simp] theorem Engine.modFn_feeds (e : Engine) (i : Fn) (f : FnState → FnState) : (e.modFn i f).feeds = e.feeds := rfl
@[simp] theorem Engine.modFn_carts (e : Engine) (i : Fn) (f : FnState → FnState) : (e.modFn i f).carts = e.carts := rfl
@[simp] theorem Engine.modFn_domains (e : Engine) (i : Fn) (f : FnState → FnState) : (e.modFn i f).domains = e.domains := rfl
@[simp] theorem Engine.modFn_power (e : Engine) (i : Fn) (f : FnState → FnState) : (e.modFn i f).power = e.power := rfl
@[simp] theorem Engine.modFn_monitors (e : Engine) (i : Fn) (f : FnState → FnState) : (e.modFn i f).monitors = e.monitors := rfl
@[simp] theorem Engine.modFn_commit (e : Engine) (i : Fn) (f : FnState → FnState) : (e.modFn i f).commit = e.commit := rfl
@[simp] theorem Engine.modFn_snaps (e : Engine) (i : Fn) (f : FnState → FnState) : (e.modFn i f).snaps = e.snaps := rfl
@[simp] theorem Engine.modFn_resets (e : Engine) (i : Fn) (f : FnState → FnState) : (e.modFn i f).resets = e.resets := rfl
@[simp] theorem Engine.modFn_flight (e : Engine) (i : Fn) (f : FnState → FnState) : (e.modFn i f).flight = e.flight := rfl
@[simp] theorem Engine.modFn_signals (e : Engine) (i : Fn) (f : FnState → FnState) : (e.modFn i f).signals = e.signals := rfl
@[simp] theorem Engine.modFn_chains (e : Engine) (i : Fn) (f : FnState → FnState) : (e.modFn i f).chains = e.chains := rfl
@[simp] theorem Engine.modFn_remaps (e : Engine) (i : Fn) (f : FnState → FnState) : (e.modFn i f).remaps = e.remaps := rfl
@[simp] theorem Engine.modFn_siteResets (e : Engine) (i : Fn) (f : FnState → FnState) : (e.modFn i f).siteResets = e.siteResets := rfl
@[simp] theorem Engine.modFn_order (e : Engine) (i : Fn) (f : FnState → FnState) : (e.modFn i f).order = e.order := rfl
@[simp] theorem Engine.modFn_freeCtr (e : Engine) (i : Fn) (f : FnState → FnState) : (e.modFn i f).freeCtr = e.freeCtr := rfl
@[simp] theorem Engine.modFn_grade (e : Engine) (i : Fn) (f : FnState → FnState) : (e.modFn i f).grade = e.grade := rfl
@[simp] theorem Engine.modFn_xstopDue (e : Engine) (i : Fn) (f : FnState → FnState) : (e.modFn i f).xstopDue = e.xstopDue := rfl
@[simp] theorem Engine.modFn_zdrops (e : Engine) (i : Fn) (f : FnState → FnState) : (e.modFn i f).zdrops = e.zdrops := rfl
@[simp] theorem Engine.modFn_heard (e : Engine) (i : Fn) (f : FnState → FnState) : (e.modFn i f).heard = e.heard := rfl
@[simp] theorem Engine.modFn_captured (e : Engine) (i : Fn) (f : FnState → FnState) : (e.modFn i f).captured = e.captured := rfl
@[simp] theorem Engine.modFn_acts (e : Engine) (i : Fn) (f : FnState → FnState) : (e.modFn i f).acts = e.acts := rfl
@[simp] theorem Engine.modFn_out (e : Engine) (i : Fn) (f : FnState → FnState) : (e.modFn i f).out = e.out := rfl
@[simp] theorem Engine.send_tiles (e : Engine) (x : Sent) : (e.send x).tiles = e.tiles := rfl
@[simp] theorem Engine.send_fields (e : Engine) (x : Sent) : (e.send x).fields = e.fields := rfl
@[simp] theorem Engine.send_decks (e : Engine) (x : Sent) : (e.send x).decks = e.decks := rfl
@[simp] theorem Engine.send_parts (e : Engine) (x : Sent) : (e.send x).parts = e.parts := rfl
@[simp] theorem Engine.send_tenants (e : Engine) (x : Sent) : (e.send x).tenants = e.tenants := rfl
@[simp] theorem Engine.send_reqs (e : Engine) (x : Sent) : (e.send x).reqs = e.reqs := rfl
@[simp] theorem Engine.send_images (e : Engine) (x : Sent) : (e.send x).images = e.images := rfl
@[simp] theorem Engine.send_session (e : Engine) (x : Sent) : (e.send x).session = e.session := rfl
@[simp] theorem Engine.send_repairs (e : Engine) (x : Sent) : (e.send x).repairs = e.repairs := rfl
@[simp] theorem Engine.send_graphs (e : Engine) (x : Sent) : (e.send x).graphs = e.graphs := rfl
@[simp] theorem Engine.send_fns (e : Engine) (x : Sent) : (e.send x).fns = e.fns := rfl
@[simp] theorem Engine.send_vfAssign (e : Engine) (x : Sent) : (e.send x).vfAssign = e.vfAssign := rfl
@[simp] theorem Engine.send_ports (e : Engine) (x : Sent) : (e.send x).ports = e.ports := rfl
@[simp] theorem Engine.send_zports (e : Engine) (x : Sent) : (e.send x).zports = e.zports := rfl
@[simp] theorem Engine.send_engineId (e : Engine) (x : Sent) : (e.send x).engineId = e.engineId := rfl
@[simp] theorem Engine.send_zroute (e : Engine) (x : Sent) : (e.send x).zroute = e.zroute := rfl
@[simp] theorem Engine.send_pace (e : Engine) (x : Sent) : (e.send x).pace = e.pace := rfl
@[simp] theorem Engine.send_pair (e : Engine) (x : Sent) : (e.send x).pair = e.pair := rfl
@[simp] theorem Engine.send_sup (e : Engine) (x : Sent) : (e.send x).sup = e.sup := rfl
@[simp] theorem Engine.send_feeds (e : Engine) (x : Sent) : (e.send x).feeds = e.feeds := rfl
@[simp] theorem Engine.send_carts (e : Engine) (x : Sent) : (e.send x).carts = e.carts := rfl
@[simp] theorem Engine.send_domains (e : Engine) (x : Sent) : (e.send x).domains = e.domains := rfl
@[simp] theorem Engine.send_power (e : Engine) (x : Sent) : (e.send x).power = e.power := rfl
@[simp] theorem Engine.send_monitors (e : Engine) (x : Sent) : (e.send x).monitors = e.monitors := rfl
@[simp] theorem Engine.send_commit (e : Engine) (x : Sent) : (e.send x).commit = e.commit := rfl
@[simp] theorem Engine.send_snaps (e : Engine) (x : Sent) : (e.send x).snaps = e.snaps := rfl
@[simp] theorem Engine.send_resets (e : Engine) (x : Sent) : (e.send x).resets = e.resets := rfl
@[simp] theorem Engine.send_flight (e : Engine) (x : Sent) : (e.send x).flight = e.flight := rfl
@[simp] theorem Engine.send_signals (e : Engine) (x : Sent) : (e.send x).signals = e.signals := rfl
@[simp] theorem Engine.send_chains (e : Engine) (x : Sent) : (e.send x).chains = e.chains := rfl
@[simp] theorem Engine.send_remaps (e : Engine) (x : Sent) : (e.send x).remaps = e.remaps := rfl
@[simp] theorem Engine.send_siteResets (e : Engine) (x : Sent) : (e.send x).siteResets = e.siteResets := rfl
@[simp] theorem Engine.send_order (e : Engine) (x : Sent) : (e.send x).order = e.order := rfl
@[simp] theorem Engine.send_freeCtr (e : Engine) (x : Sent) : (e.send x).freeCtr = e.freeCtr := rfl
@[simp] theorem Engine.send_grade (e : Engine) (x : Sent) : (e.send x).grade = e.grade := rfl
@[simp] theorem Engine.send_xstopDue (e : Engine) (x : Sent) : (e.send x).xstopDue = e.xstopDue := rfl
@[simp] theorem Engine.send_zdrops (e : Engine) (x : Sent) : (e.send x).zdrops = e.zdrops := rfl
@[simp] theorem Engine.send_heard (e : Engine) (x : Sent) : (e.send x).heard = e.heard := rfl
@[simp] theorem Engine.send_captured (e : Engine) (x : Sent) : (e.send x).captured = e.captured := rfl
@[simp] theorem Engine.send_acts (e : Engine) (x : Sent) : (e.send x).acts = e.acts := rfl

end Sys2Proof.Machine
end

