-- ==== Sys2Proof/Laws/Memory.lean ====
section
/-!
SUPPORT. Byte stores: every operation keeps the canonical form, and what a byte reads as after it.
-/
namespace Sys2Proof.Machine

/-! ### The canonical form -/

theorem mwfFrom_mono {α : Type} [DecidableEq α] (d : Nat → α) {lo lo' : Nat} {m : AMap α} (h : mwfFrom d lo m = true) (hl : lo' ≤ lo) :
    mwfFrom d lo' m = true := by
  cases m with
  | nil => rfl
  | cons x r =>
    obtain ⟨j, w⟩ := x
    simp only [mwfFrom, Bool.and_eq_true, decide_eq_true_eq] at h ⊢
    exact ⟨⟨by omega, h.1.2⟩, h.2⟩

theorem mwfFrom_filter {α : Type} [DecidableEq α] (d : Nat → α) (p : Nat × α → Bool) (lo : Nat) (m : AMap α) (h : mwfFrom d lo m = true) :
    mwfFrom d lo (m.filter p) = true := by
  induction m generalizing lo with
  | nil => rfl
  | cons x r ih =>
    obtain ⟨j, w⟩ := x
    simp only [mwfFrom, Bool.and_eq_true, decide_eq_true_eq] at h
    by_cases hp : p (j, w)
    · simp [hp, mwfFrom, h.1.1, h.1.2, ih _ h.2]
    · simp [hp]; exact mwfFrom_mono d (ih _ h.2) (by omega)

theorem mwfFrom_minsert {α : Type} [DecidableEq α] (d : Nat → α) (k : Nat) (v : α) (lo : Nat) (m : AMap α) (h : mwfFrom d lo m = true)
    (hk : ∀ x ∈ m, x.1 ≠ k) (hlo : lo ≤ k) (hv : v ≠ d k) : mwfFrom d lo (minsert k v m) = true := by
  induction m generalizing lo with
  | nil => simp [minsert, mwfFrom, hlo, hv]
  | cons x r ih =>
    obtain ⟨j, w⟩ := x
    have hj : j ≠ k := hk (j, w) (by simp)
    have hr : ∀ x ∈ r, x.1 ≠ k := fun x hx => hk x (by simp [hx])
    simp only [mwfFrom, Bool.and_eq_true, decide_eq_true_eq] at h
    by_cases hlt : j < k
    · simp [minsert, hlt, mwfFrom, h.1.1, h.1.2, ih _ h.2 hr (by omega)]
    · have : k + 1 ≤ j := by omega
      simp [minsert, hlt, mwfFrom, hlo, hv, h.1.2, h.2, this]

/-- A write keeps the canonical form. -/
theorem mwf_mset {α : Type} [DecidableEq α] (d : Nat → α) (k : Nat) (v : α) (m : AMap α) (h : mwf d m = true) : mwf d (mset d k v m) = true := by
  unfold mset
  split
  · exact mwfFrom_filter d _ 0 m h
  · next hv =>
    exact mwfFrom_minsert d k v 0 _ (mwfFrom_filter d _ 0 m h) (by intro x hx; simp [mdel] at hx; exact hx.2) (Nat.zero_le _) hv

/-- Dropping keys keeps the canonical form. -/
theorem mwf_mdrop {α : Type} [DecidableEq α] (d : Nat → α) (p : Nat → Bool) (m : AMap α) (h : mwf d m = true) : mwf d (mdrop p m) = true :=
  mwfFrom_filter d _ 0 m h

/-- Every byte operation keeps the canonical form. -/
theorem Memory.wf_writeByte (m : Memory) (a : Nat) (b : Byte) (h : m.wf = true) : (writeByte m a b).wf = true := mwf_mset _ _ _ _ h

theorem Memory.wf_writeBytes (bs : List Byte) (m : Memory) (a : Nat) (h : m.wf = true) : (writeBytes m a bs).wf = true := by
  induction bs generalizing m a with
  | nil => exact h
  | cons b r ih => exact ih _ _ (Memory.wf_writeByte m a b h)

theorem Memory.wf_writeNat (m : Memory) (a v n : Nat) (h : m.wf = true) : (writeNat m a v n).wf = true := Memory.wf_writeBytes _ _ _ h

theorem Memory.wf_zeroRange (m : Memory) (a n : Nat) (h : m.wf = true) : (zeroRange m a n).wf = true := mwf_mdrop _ _ _ h

/-- Stores and zero-fills of a tile keep its scratchpad canonical. -/
theorem Tile.wf_store (ti : Tile) (a : Nat) (bs : List Byte) (h : ti.sp.wf = true) : (ti.store a bs).sp.wf = true :=
  Memory.wf_writeBytes _ _ _ h

theorem Tile.wf_zero (ti : Tile) (a n : Nat) (h : ti.sp.wf = true) : (ti.zero a n).sp.wf = true := Memory.wf_zeroRange _ _ _ h

/-! ### Reads after writes -/

theorem readByte_writeByte (m : Memory) (a b : Nat) (v : Byte) : readByte (writeByte m a v) b = if b = a then v else readByte m b :=
  mget_mset _ _ _ _ _

/-- A byte after a write of bytes: the byte written inside the range, what it held outside. -/
theorem readByte_writeBytes (bs : List Byte) (m : Memory) (a b : Nat) :
    readByte (writeBytes m a bs) b = if a ≤ b ∧ b < a + bs.length then bs.getD (b - a) 0 else readByte m b := by
  induction bs generalizing m a with
  | nil => simp [writeBytes]
  | cons x r ih =>
    rw [writeBytes, ih, readByte_writeByte]
    by_cases h : b = a
    · subst h; simp
    · by_cases h1 : a + 1 ≤ b ∧ b < a + 1 + r.length
      · have h2 : a ≤ b ∧ b < a + (x :: r).length := by simp; omega
        have h3 : b - a = (b - (a + 1)) + 1 := by omega
        simp only [h1, h2, if_true, h3, List.getD_cons_succ, and_self]
      · have h2 : ¬ (a ≤ b ∧ b < a + (x :: r).length) := by simp; omega
        simp only [h1, h2, h, if_false]

theorem natBytes_length (v n : Nat) : (natBytes v n).length = n := by
  induction n generalizing v with
  | zero => rfl
  | succ n ih => simp [natBytes, ih]

theorem mget_filter {α : Type} (d : Nat → α) (p : Nat → Bool) (k : Nat) (m : AMap α) :
    mget d k (m.filter (fun x => p x.1)) = if p k then mget d k m else d k := by
  induction m with
  | nil => simp
  | cons x r ih =>
    obtain ⟨j, w⟩ := x
    by_cases hp : p j
    · by_cases hj : j = k
      · subst hj; simp [hp, mget]
      · simp [hp, mget, hj, ih]
    · by_cases hj : j = k
      · subst hj; simp [hp, ih]
      · simp [hp, mget, hj, ih]

/-- A byte after a zero-fill. -/
theorem readByte_zeroRange (m : Memory) (a n b : Nat) : readByte (zeroRange m a n) b = if a ≤ b ∧ b < a + n then 0 else readByte m b := by
  have := mget_filter zeroByte (fun k => !(decide (a ≤ k) && decide (k < a + n))) b m
  simp only [zeroRange, mdrop, readByte]
  rw [this]
  by_cases h : a ≤ b ∧ b < a + n
  · simp [h, zeroByte]
  · simp only [h, if_false]
    rw [if_pos]
    simp; omega

end Sys2Proof.Machine
end

