-- ==== Sys2Proof/Laws/Issue.lean ====
section
/-!
SUPPORT. What a tile instruction and a host command do once their premises are met: the outcome is that of the instruction's own
body, or the effect of the command.
-/
namespace Sys2Proof.Machine

open Sys2Proof.Safety

/-- The engine an instruction sees differs from the state's in the instruction buffer alone. -/
theorem fetched_thread (e : Engine) (h : Hart) (pc : Nat) (word : Word) (k : Nat) : ((e.fetched h pc word).tile h.loc).thread k = (e.tile h.loc).thread k := by
  simp [Engine.fetched, Tile.thread]

/-- A thread that issues: its instruction runs on what it sees, after the fetch, ILLEGAL_OP and the vector context's check. -/
theorem issue_eq (group op : Nat) (legal vec : Bool) (h : Hart) (w : Opnd) (body : Ctx → Iss) (s : State) (hi : issues s h w = true) :
    issue group op legal vec h w body s = .next (withEng s (finish (seen s h (wordOf group op w))
      (check legal .illegalOp 0 (check (!vec || (thr s h).vctx.isSome) .claimViolation 0 (body (seen s h (wordOf group op w))))))) := by
  simp only [issues, mayRun, Bool.and_eq_true, Bool.or_eq_true, Bool.not_eq_true', beq_iff_eq, List.isEmpty_iff, Option.isNone_iff_eq_none] at hi
  obtain ⟨⟨⟨⟨⟨⟨⟨h1, h2⟩, h3⟩, h4⟩, h5⟩, h6⟩, h7⟩, h8⟩ := hi
  obtain ⟨i, hinst⟩ := Option.isSome_iff_exists.mp h5
  have hm : mayIssue s.eng h = some { now := 0, e := s.eng, h := h, th := thr s h, ti := s.eng.tile h.loc, i := i } := by
    unfold mayIssue
    simp only [thr] at h2 h3 hinst
    simp [h2, h3, h4, hinst, thr]
  have hb : ((s.eng.fetched h (thr s h).pc.toNat (wordOf group op w)).tile h.loc).firstBad (thr s h).pc.toNat 8 = none := by
    have : ((s.eng.tile h.loc).firstBad (thr s h).pc.toNat 8) = none := h6
    simpa [Engine.fetched, Tile.firstBad] using this
  simp only [issue, onUnit, h1, if_true, onEng, issueOn, hm, withEng, seen, hinst, Option.getD_some, spellsRow, h7, h8, Engine.meets, Option.any_none,
    List.foldl_nil, hb, Option.isNone_none, Bool.and_true, Bool.false_eq_true, if_false]

/-- A thread that issues a legal instruction runs its body. -/
theorem issue_body (group op : Nat) (legal vec : Bool) (h : Hart) (w : Opnd) (body : Ctx → Iss) (s : State) (hi : issues s h w = true)
    (hl : legal = true) (hv : vec = true → (thr s h).vctx.isSome = true) :
    issue group op legal vec h w body s = .next (withEng s (finish (seen s h (wordOf group op w)) (body (seen s h (wordOf group op w))))) := by
  rw [issue_eq _ _ _ _ _ _ _ _ hi]
  have : (!vec || (thr s h).vctx.isSome) = true := by cases vec <;> simp_all
  simp [check, hl, this]

/-- A body that completes advances the thread. -/
theorem finish_done (s : State) (h : Hart) (word : Word) (e : Engine) : finish (seen s h word) (.done e) = advance h e := rfl

/-- A body that waits makes the thread wait. -/
theorem finish_wait (s : State) (h : Hart) (word : Word) (e : Engine) : finish (seen s h word) (.wait e) = stalled s h e := rfl

/-- A body that raises takes the exception at the instruction's PC. -/
theorem finish_exc (s : State) (h : Hart) (word : Word) (c : Cause) (d : Nat) : finish (seen s h word) (.exc c d) = raised s h word c d := rfl

/-- A host command that is accepted and executed at once, with the header that it executes by. -/
theorem hostCmd_runs (hd : Hdr) (c : Instr) (f : Engine → Form) (run : Hdr → Bool → Nat → Engine → Engine) (s : State)
    (hg : goes s hd c (f s.eng) = true) :
    hostCmd hd c f run s = took s hd (run (if (f s.eng).atIntake then placed s hd else due s hd) false s.now) := by
  simp only [goes, accepted, arrives, Bool.and_eq_true, Bool.not_eq_true', decide_eq_true_eq, Bool.or_eq_true] at hg
  obtain ⟨⟨⟨⟨⟨⟨⟨⟨⟨⟨h1, h2⟩, h3⟩, h4⟩, h5⟩, h6⟩, h7⟩, h8⟩, h9⟩, h10⟩, h11⟩ := hg
  have h2' : (s.eng.fnPort hd.fn).isNone = false := by
    cases h : s.eng.fnPort hd.fn <;> simp_all
  have h3' : ¬ s.eng.power.stage < 4 := by omega
  have hp : ∀ hh : Hdr, hh.fw = hd.fw → hh.cpl = hd.cpl → ∀ e, (f s.eng).perform run hh false s.now e = run hh false s.now e := by
    intro hh e1 e2 e
    have : hd.fw = none := by simpa using h9
    unfold Form.perform
    rw [e1, this, e2]
    rcases h10 with h | h <;> simp_all
  have key : ∀ ptr, (taken s hd).enter s.now (placed s hd) ptr c (f s.eng) run =
      run (if (f s.eng).atIntake then placed s hd else due s hd) false s.now (taken s hd) := by
    intro ptr
    have e6 : (f s.eng).check (taken s hd) s.now (placed s hd) = none := by simpa using h6
    have e7 : (taken s hd).refuses (f s.eng) (placed s hd).fn = none := by simpa [placed] using h7
    have e8 : (taken s hd).twinRefuses (f s.eng) (placed s hd) = none := by simpa using h8
    unfold Engine.enter
    simp only [e6, e7, e8]
    unfold Engine.place
    cases hat : (f s.eng).atIntake with
    | true =>
      simp only [hat, if_true, Bool.or_eq_true, decide_eq_true_eq] at h11
      have : ¬ (s.now < (placed s hd).tick ∧ 1024 ≤ ((taken s hd).deck ((taken s hd).fnDeck (placed s hd).fn)).scheduled) := by
        simp only [placed]; omega
      simp only [if_true, Bool.and_eq_true, decide_eq_true_eq, this, if_false]
      exact hp (placed s hd) rfl rfl _
    | false =>
      simp only [hat, Bool.false_eq_true, if_false, Bool.and_eq_true, decide_eq_true_eq, Bool.or_eq_true] at h11
      obtain ⟨⟨a1, a2⟩, a3⟩ := h11
      have b1 : (taken s hd).sharedWith (f s.eng) (placed s hd) = none := by simpa using a1
      have b2 : ¬ (placed s hd).tick > s.now := by simp only [placed]; omega
      simp only [Bool.false_eq_true, if_false, b1, b2]
      rw [if_pos (by simpa [placed] using a3)]
      exact hp (due s hd) rfl rfl _
  rw [hostCmd, onUnit, if_pos h1, onEng, took, withEng]
  simp only [Engine.command, h2', h3', h4, decide_false, Bool.or_self, Bool.false_eq_true, if_false]
  unfold after
  unfold first at h5 ⊢
  cases hw : (s.eng.waitingOf hd.fn).head? with
  | none =>
    have := key (s.eng.fn hd.fn).cmdPtr
    simp only [taken, placed, first, hw] at this ⊢
    rw [this]
  | some x =>
    simp only [hw, beq_iff_eq] at h5
    have := key x.ptr
    simp only [taken, placed, first, hw] at this ⊢
    rw [if_pos h5, this]

/-- A host command whose tick is that of its execution. -/
theorem hostCmd_goes (hd : Hdr) (c : Instr) (f : Engine → Form) (run : Hdr → Bool → Nat → Engine → Engine) (s : State)
    (hg : goes s hd c (f s.eng) = true) (ha : (f s.eng).atIntake = false) :
    hostCmd hd c f run s = took s hd (run (due s hd) false s.now) := by
  rw [hostCmd_runs _ _ _ _ _ hg, ha]; rfl

/-- A host command whose tick is that of its effect (R372, R463). -/
theorem hostCmd_atIntake (hd : Hdr) (c : Instr) (f : Engine → Form) (run : Hdr → Bool → Nat → Engine → Engine) (s : State)
    (hg : goes s hd c (f s.eng) = true) (ha : (f s.eng).atIntake = true) :
    hostCmd hd c f run s = took s hd (run (placed s hd) false s.now) := by
  rw [hostCmd_runs _ _ _ _ _ hg, ha]; rfl

/-- A row of the instruction tables issues through `issue` with its own GROUP and OP; what it checks and does does not look at the errors
that its reads meet. -/
def RowIssue (x : OpLine) : Prop :=
  ∃ (legal vec : Opnd → Bool) (body : Hart → Opnd → Ctx → Iss), ∀ (h : Hart) (w : Opnd) (s : State),
    exec (x.2.2 h w) s = issue x.1 x.2.1 (legal w) (vec w) h w (body h w) s ∧ body h w = body h { w with ecc := [] } ∧
      legal w = legal { w with ecc := [] } ∧ vec w = vec { w with ecc := [] }

/-- Every row does. -/
theorem rows_issue : ∀ x ∈ opLines, RowIssue x := by
  simp only [opLines, opsScalar, opsAccess, opsControl, opsVector, opsLong, opsUnits, List.cons_append, List.nil_append, List.forall_mem_cons]
  repeat' apply And.intro
  all_goals first | exact ⟨_, _, _, fun _ _ _ => ⟨rfl, rfl, rfl, rfl⟩⟩ | exact fun _ h => nomatch h

end Sys2Proof.Machine
end

