-- ==== Sys2Proof/Laws/Links.lean ====
section
/-!
SUPPORT. What the outputs of the Zarog ports can change: their own records and what the engine has sent.
-/
namespace Sys2Proof.Machine

/-- Nothing but the records of the ports and what has been sent differs. -/
def OutputsOnly (e t : Engine) : Prop := t = { e with zports := t.zports, out := t.out }

theorem OutputsOnly.refl (e : Engine) : OutputsOnly e e := rfl

theorem OutputsOnly.trans {a b c : Engine} (h : OutputsOnly a b) (k : OutputsOnly b c) : OutputsOnly a c := by
  unfold OutputsOnly at *; rw [k, h]

theorem modZport_outputs (e : Engine) (z : Nat) (f : ZPort → ZPort) : OutputsOnly e (e.modZport z f) := rfl

theorem send_outputs (e : Engine) (x : Sent) : OutputsOnly e (e.send x) := rfl

theorem zemit_outputs (e : Engine) (now z : Nat) (w : ZWait) : OutputsOnly e (e.zemit now z w) := by
  unfold Engine.zemit; dsimp only
  split <;> rfl

theorem pump_outputs (now z n : Nat) (e : Engine) : OutputsOnly e (pump now z n e) := by
  induction n generalizing e with
  | zero => rfl
  | succ n ih =>
    unfold pump
    split
    · exact (zemit_outputs e now z _).trans (ih _)
    · rfl

/-- A packet put at a port's output. -/
theorem zput_outputs (e : Engine) (now z : Nat) (w : ZWait) : OutputsOnly e (e.zput now z w) :=
  (modZport_outputs e z _).trans (pump_outputs now z _ _)

theorem sendPace_outputs (e : Engine) (now z : Nat) : OutputsOnly e (e.sendPace now z) := zput_outputs e now z _

theorem sendLink_outputs (e : Engine) (now z : Nat) (nak : Option Nat) : OutputsOnly e (e.sendLink now z nak) := rfl

/-- A packet of the engine's own either joins an output, or is lost: counted, with the hardware fault of the step it belongs to. -/
theorem zoriginate_cases (e : Engine) (now : Nat) (w : ZWait) :
    (∃ z, (e.zport z).state = .up ∧ e.zoriginate now w = e.zput now z w) ∨ e.zoriginate now w = e.zlose w.part := by
  unfold Engine.zoriginate
  split
  · rename_i z _
    by_cases h : (e.zport z).state = .up
    · exact .inl ⟨z, h, if_pos h⟩
    · exact .inr (if_neg h)
  · exact .inr rfl

end Sys2Proof.Machine
end

