-- ==== Sys2Proof/Laws/PerInstr.lean ====
section
/-!
SUPPORT. One family of statements about commands as syntax, with one lemma per constructor: who issues a command, and that a
well-formed one names a hart, a site or a function there is.
-/
namespace Sys2Proof.Laws

/-- A command comes from a hart or from a function's command ring, never from both, and a well-formed one names a hart of the
engine, a header whose fields fit Table 11.9, and a site of the engine. -/
def Issuer.Statement (i : Instr) : Prop :=
  (i.hart = none ∨ i.hdr = none) ∧
  (i.wf = true →
    (∀ h, i.hart = some h → h.loc.field < 96 ∧ h.loc.site < 720 ∧ h.thread < 64) ∧
    (∀ d, i.hdr = some d → d.tag < 65536 ∧ d.tick < 2 ^ 64 ∧ d.part < 32 ∧ d.muted = false ∧ d.fn.wf = true) ∧
    (∀ t, i.site = some t → t.field < 96 ∧ t.site < 720) ∧ ∀ f, i.fn = some f → f.wf = true)

/-- The part of the statement that well-formedness gives for every command. -/
theorem Issuer.of_wf (i : Instr) (h : i.hart = none ∨ i.hdr = none) : Issuer.Statement i := by
  refine ⟨h, fun w => ?_⟩
  simp only [Instr.wf, Instr.named, Bool.and_eq_true] at w
  obtain ⟨⟨⟨⟨⟨a, -⟩, c⟩, d⟩, -⟩, g⟩ := w
  refine ⟨fun x e => ?_, fun x e => ?_, fun x e => ?_, fun x e => ?_⟩
  · simpa [e, Hart.wf, Loc.wf, and_assoc] using a
  · simp only [e, Option.map_some, Option.getD_some, Hdr.wf, Bool.and_eq_true, decide_eq_true_eq, Bool.not_eq_true'] at g
    exact ⟨g.1.1.1.2, g.1.1.2, g.1.2, g.2, g.1.1.1.1⟩
  · simpa [e, Loc.wf] using c
  · simpa [e] using d

theorem Issuer.add (h : Hart) (w : Opnd) : Issuer.Statement (.add h w) := Issuer.of_wf _ (.inr rfl)
theorem Issuer.sub (h : Hart) (w : Opnd) : Issuer.Statement (.sub h w) := Issuer.of_wf _ (.inr rfl)
theorem Issuer.and (h : Hart) (w : Opnd) : Issuer.Statement (.and h w) := Issuer.of_wf _ (.inr rfl)
theorem Issuer.or (h : Hart) (w : Opnd) : Issuer.Statement (.or h w) := Issuer.of_wf _ (.inr rfl)
theorem Issuer.xor (h : Hart) (w : Opnd) : Issuer.Statement (.xor h w) := Issuer.of_wf _ (.inr rfl)
theorem Issuer.sll (h : Hart) (w : Opnd) : Issuer.Statement (.sll h w) := Issuer.of_wf _ (.inr rfl)
theorem Issuer.srl (h : Hart) (w : Opnd) : Issuer.Statement (.srl h w) := Issuer.of_wf _ (.inr rfl)
theorem Issuer.sra (h : Hart) (w : Opnd) : Issuer.Statement (.sra h w) := Issuer.of_wf _ (.inr rfl)
theorem Issuer.slt (h : Hart) (w : Opnd) : Issuer.Statement (.slt h w) := Issuer.of_wf _ (.inr rfl)
theorem Issuer.sltu (h : Hart) (w : Opnd) : Issuer.Statement (.sltu h w) := Issuer.of_wf _ (.inr rfl)
theorem Issuer.min (h : Hart) (w : Opnd) : Issuer.Statement (.min h w) := Issuer.of_wf _ (.inr rfl)
theorem Issuer.max (h : Hart) (w : Opnd) : Issuer.Statement (.max h w) := Issuer.of_wf _ (.inr rfl)
theorem Issuer.minu (h : Hart) (w : Opnd) : Issuer.Statement (.minu h w) := Issuer.of_wf _ (.inr rfl)
theorem Issuer.maxu (h : Hart) (w : Opnd) : Issuer.Statement (.maxu h w) := Issuer.of_wf _ (.inr rfl)
theorem Issuer.mul (h : Hart) (w : Opnd) : Issuer.Statement (.mul h w) := Issuer.of_wf _ (.inr rfl)
theorem Issuer.mulh (h : Hart) (w : Opnd) : Issuer.Statement (.mulh h w) := Issuer.of_wf _ (.inr rfl)
theorem Issuer.mulhu (h : Hart) (w : Opnd) : Issuer.Statement (.mulhu h w) := Issuer.of_wf _ (.inr rfl)
theorem Issuer.div (h : Hart) (w : Opnd) : Issuer.Statement (.div h w) := Issuer.of_wf _ (.inr rfl)
theorem Issuer.divu (h : Hart) (w : Opnd) : Issuer.Statement (.divu h w) := Issuer.of_wf _ (.inr rfl)
theorem Issuer.rem (h : Hart) (w : Opnd) : Issuer.Statement (.rem h w) := Issuer.of_wf _ (.inr rfl)
theorem Issuer.remu (h : Hart) (w : Opnd) : Issuer.Statement (.remu h w) := Issuer.of_wf _ (.inr rfl)
theorem Issuer.clz (h : Hart) (w : Opnd) : Issuer.Statement (.clz h w) := Issuer.of_wf _ (.inr rfl)
theorem Issuer.ctz (h : Hart) (w : Opnd) : Issuer.Statement (.ctz h w) := Issuer.of_wf _ (.inr rfl)
theorem Issuer.popc (h : Hart) (w : Opnd) : Issuer.Statement (.popc h w) := Issuer.of_wf _ (.inr rfl)
theorem Issuer.lih (h : Hart) (w : Opnd) : Issuer.Statement (.lih h w) := Issuer.of_wf _ (.inr rfl)
theorem Issuer.ldb (h : Hart) (w : Opnd) : Issuer.Statement (.ldb h w) := Issuer.of_wf _ (.inr rfl)
theorem Issuer.ldh (h : Hart) (w : Opnd) : Issuer.Statement (.ldh h w) := Issuer.of_wf _ (.inr rfl)
theorem Issuer.ldw (h : Hart) (w : Opnd) : Issuer.Statement (.ldw h w) := Issuer.of_wf _ (.inr rfl)
theorem Issuer.ldd (h : Hart) (w : Opnd) : Issuer.Statement (.ldd h w) := Issuer.of_wf _ (.inr rfl)
theorem Issuer.ldbu (h : Hart) (w : Opnd) : Issuer.Statement (.ldbu h w) := Issuer.of_wf _ (.inr rfl)
theorem Issuer.ldhu (h : Hart) (w : Opnd) : Issuer.Statement (.ldhu h w) := Issuer.of_wf _ (.inr rfl)
theorem Issuer.ldwu (h : Hart) (w : Opnd) : Issuer.Statement (.ldwu h w) := Issuer.of_wf _ (.inr rfl)
theorem Issuer.stb (h : Hart) (w : Opnd) : Issuer.Statement (.stb h w) := Issuer.of_wf _ (.inr rfl)
theorem Issuer.sth (h : Hart) (w : Opnd) : Issuer.Statement (.sth h w) := Issuer.of_wf _ (.inr rfl)
theorem Issuer.stw (h : Hart) (w : Opnd) : Issuer.Statement (.stw h w) := Issuer.of_wf _ (.inr rfl)
theorem Issuer.std (h : Hart) (w : Opnd) : Issuer.Statement (.std h w) := Issuer.of_wf _ (.inr rfl)
theorem Issuer.amoadd (h : Hart) (w : Opnd) : Issuer.Statement (.amoadd h w) := Issuer.of_wf _ (.inr rfl)
theorem Issuer.amoswap (h : Hart) (w : Opnd) : Issuer.Statement (.amoswap h w) := Issuer.of_wf _ (.inr rfl)
theorem Issuer.cas (h : Hart) (w : Opnd) : Issuer.Statement (.cas h w) := Issuer.of_wf _ (.inr rfl)
theorem Issuer.vldr (h : Hart) (w : Opnd) : Issuer.Statement (.vldr h w) := Issuer.of_wf _ (.inr rfl)
theorem Issuer.vldc (h : Hart) (w : Opnd) : Issuer.Statement (.vldc h w) := Issuer.of_wf _ (.inr rfl)
theorem Issuer.vlds (h : Hart) (w : Opnd) : Issuer.Statement (.vlds h w) := Issuer.of_wf _ (.inr rfl)
theorem Issuer.vstr (h : Hart) (w : Opnd) : Issuer.Statement (.vstr h w) := Issuer.of_wf _ (.inr rfl)
theorem Issuer.vstc (h : Hart) (w : Opnd) : Issuer.Statement (.vstc h w) := Issuer.of_wf _ (.inr rfl)
theorem Issuer.vsts (h : Hart) (w : Opnd) : Issuer.Statement (.vsts h w) := Issuer.of_wf _ (.inr rfl)
theorem Issuer.vunpk (h : Hart) (w : Opnd) : Issuer.Statement (.vunpk h w) := Issuer.of_wf _ (.inr rfl)
theorem Issuer.beq (h : Hart) (w : Opnd) : Issuer.Statement (.beq h w) := Issuer.of_wf _ (.inr rfl)
theorem Issuer.bne (h : Hart) (w : Opnd) : Issuer.Statement (.bne h w) := Issuer.of_wf _ (.inr rfl)
theorem Issuer.blt (h : Hart) (w : Opnd) : Issuer.Statement (.blt h w) := Issuer.of_wf _ (.inr rfl)
theorem Issuer.bge (h : Hart) (w : Opnd) : Issuer.Statement (.bge h w) := Issuer.of_wf _ (.inr rfl)
theorem Issuer.bltu (h : Hart) (w : Opnd) : Issuer.Statement (.bltu h w) := Issuer.of_wf _ (.inr rfl)
theorem Issuer.bgeu (h : Hart) (w : Opnd) : Issuer.Statement (.bgeu h w) := Issuer.of_wf _ (.inr rfl)
theorem Issuer.jal (h : Hart) (w : Opnd) : Issuer.Statement (.jal h w) := Issuer.of_wf _ (.inr rfl)
theorem Issuer.jalr (h : Hart) (w : Opnd) : Issuer.Statement (.jalr h w) := Issuer.of_wf _ (.inr rfl)
theorem Issuer.fence (h : Hart) (w : Opnd) : Issuer.Statement (.fence h w) := Issuer.of_wf _ (.inr rfl)
theorem Issuer.fenceI (h : Hart) (w : Opnd) : Issuer.Statement (.fenceI h w) := Issuer.of_wf _ (.inr rfl)
theorem Issuer.tbar (h : Hart) (w : Opnd) : Issuer.Statement (.tbar h w) := Issuer.of_wf _ (.inr rfl)
theorem Issuer.waitc (h : Hart) (w : Opnd) : Issuer.Statement (.waitc h w) := Issuer.of_wf _ (.inr rfl)
theorem Issuer.rdpace (h : Hart) (w : Opnd) : Issuer.Statement (.rdpace h w) := Issuer.of_wf _ (.inr rfl)
theorem Issuer.rdcnt (h : Hart) (w : Opnd) : Issuer.Statement (.rdcnt h w) := Issuer.of_wf _ (.inr rfl)
theorem Issuer.endThread (h : Hart) (w : Opnd) : Issuer.Statement (.endThread h w) := Issuer.of_wf _ (.inr rfl)
theorem Issuer.vadd (h : Hart) (w : Opnd) : Issuer.Statement (.vadd h w) := Issuer.of_wf _ (.inr rfl)
theorem Issuer.vsub (h : Hart) (w : Opnd) : Issuer.Statement (.vsub h w) := Issuer.of_wf _ (.inr rfl)
theorem Issuer.vmul (h : Hart) (w : Opnd) : Issuer.Statement (.vmul h w) := Issuer.of_wf _ (.inr rfl)
theorem Issuer.vfma (h : Hart) (w : Opnd) : Issuer.Statement (.vfma h w) := Issuer.of_wf _ (.inr rfl)
theorem Issuer.vdiv (h : Hart) (w : Opnd) : Issuer.Statement (.vdiv h w) := Issuer.of_wf _ (.inr rfl)
theorem Issuer.vsqrt (h : Hart) (w : Opnd) : Issuer.Statement (.vsqrt h w) := Issuer.of_wf _ (.inr rfl)
theorem Issuer.vmin (h : Hart) (w : Opnd) : Issuer.Statement (.vmin h w) := Issuer.of_wf _ (.inr rfl)
theorem Issuer.vmax (h : Hart) (w : Opnd) : Issuer.Statement (.vmax h w) := Issuer.of_wf _ (.inr rfl)
theorem Issuer.vneg (h : Hart) (w : Opnd) : Issuer.Statement (.vneg h w) := Issuer.of_wf _ (.inr rfl)
theorem Issuer.vabs (h : Hart) (w : Opnd) : Issuer.Statement (.vabs h w) := Issuer.of_wf _ (.inr rfl)
theorem Issuer.vexp (h : Hart) (w : Opnd) : Issuer.Statement (.vexp h w) := Issuer.of_wf _ (.inr rfl)
theorem Issuer.vcmp (h : Hart) (w : Opnd) : Issuer.Statement (.vcmp h w) := Issuer.of_wf _ (.inr rfl)
theorem Issuer.vsel (h : Hart) (w : Opnd) : Issuer.Statement (.vsel h w) := Issuer.of_wf _ (.inr rfl)
theorem Issuer.vcvt (h : Hart) (w : Opnd) : Issuer.Statement (.vcvt h w) := Issuer.of_wf _ (.inr rfl)
theorem Issuer.vlog (h : Hart) (w : Opnd) : Issuer.Statement (.vlog h w) := Issuer.of_wf _ (.inr rfl)
theorem Issuer.vbcast (h : Hart) (w : Opnd) : Issuer.Statement (.vbcast h w) := Issuer.of_wf _ (.inr rfl)
theorem Issuer.vext (h : Hart) (w : Opnd) : Issuer.Statement (.vext h w) := Issuer.of_wf _ (.inr rfl)
theorem Issuer.vmov (h : Hart) (w : Opnd) : Issuer.Statement (.vmov h w) := Issuer.of_wf _ (.inr rfl)
theorem Issuer.vperm (h : Hart) (w : Opnd) : Issuer.Statement (.vperm h w) := Issuer.of_wf _ (.inr rfl)
theorem Issuer.lplace (h : Hart) (w : Opnd) : Issuer.Statement (.lplace h w) := Issuer.of_wf _ (.inr rfl)
theorem Issuer.lemitS (h : Hart) (w : Opnd) : Issuer.Statement (.lemitS h w) := Issuer.of_wf _ (.inr rfl)
theorem Issuer.lemitB (h : Hart) (w : Opnd) : Issuer.Statement (.lemitB h w) := Issuer.of_wf _ (.inr rfl)
theorem Issuer.ldivS (h : Hart) (w : Opnd) : Issuer.Statement (.ldivS h w) := Issuer.of_wf _ (.inr rfl)
theorem Issuer.ldivB (h : Hart) (w : Opnd) : Issuer.Statement (.ldivB h w) := Issuer.of_wf _ (.inr rfl)
theorem Issuer.lexp (h : Hart) (w : Opnd) : Issuer.Statement (.lexp h w) := Issuer.of_wf _ (.inr rfl)
theorem Issuer.lclr (h : Hart) (w : Opnd) : Issuer.Statement (.lclr h w) := Issuer.of_wf _ (.inr rfl)
theorem Issuer.lexpect (h : Hart) (w : Opnd) : Issuer.Statement (.lexpect h w) := Issuer.of_wf _ (.inr rfl)
theorem Issuer.folds (h : Hart) (w : Opnd) : Issuer.Statement (.folds h w) := Issuer.of_wf _ (.inr rfl)
theorem Issuer.mma (h : Hart) (w : Opnd) : Issuer.Statement (.mma h w) := Issuer.of_wf _ (.inr rfl)
theorem Issuer.mmaComplete (t : Loc) : Issuer.Statement (.mmaComplete t) := Issuer.of_wf _ (.inl rfl)
theorem Issuer.apass (h : Hart) (w : Opnd) : Issuer.Statement (.apass h w) := Issuer.of_wf _ (.inr rfl)
theorem Issuer.attnPassEnd (t : Loc) : Issuer.Statement (.attnPassEnd t) := Issuer.of_wf _ (.inl rfl)
theorem Issuer.mfill (h : Hart) (w : Opnd) : Issuer.Statement (.mfill h w) := Issuer.of_wf _ (.inr rfl)
theorem Issuer.mcopy (h : Hart) (w : Opnd) : Issuer.Statement (.mcopy h w) := Issuer.of_wf _ (.inr rfl)
theorem Issuer.mtrn (h : Hart) (w : Opnd) : Issuer.Statement (.mtrn h w) := Issuer.of_wf _ (.inr rfl)
theorem Issuer.moverComplete (t : Loc) : Issuer.Statement (.moverComplete t) := Issuer.of_wf _ (.inl rfl)
theorem Issuer.nvrd (h : Hart) (w : Opnd) : Issuer.Statement (.nvrd h w) := Issuer.of_wf _ (.inr rfl)
theorem Issuer.nvDescComplete (t : Loc) (bad : List (Nat × Int)) : Issuer.Statement (.nvDescComplete t bad) := Issuer.of_wf _ (.inl rfl)
theorem Issuer.drd (h : Hart) (w : Opnd) : Issuer.Statement (.drd h w) := Issuer.of_wf _ (.inr rfl)
theorem Issuer.dwr (h : Hart) (w : Opnd) : Issuer.Statement (.dwr h w) := Issuer.of_wf _ (.inr rfl)
theorem Issuer.dramDescComplete (t : Loc) (i : Nat) (bad : Bool) : Issuer.Statement (.dramDescComplete t i bad) := Issuer.of_wf _ (.inl rfl)
theorem Issuer.portFault (t : Loc) (port : SlabPort) (k : Nat) : Issuer.Statement (.portFault t port k) := Issuer.of_wf _ (.inl rfl)
theorem Issuer.send (h : Hart) (w : Opnd) : Issuer.Statement (.send h w) := Issuer.of_wf _ (.inr rfl)
theorem Issuer.sendComplete (t : Loc) : Issuer.Statement (.sendComplete t) := Issuer.of_wf _ (.inl rfl)
theorem Issuer.recv (h : Hart) (w : Opnd) : Issuer.Statement (.recv h w) := Issuer.of_wf _ (.inr rfl)
theorem Issuer.msgDelivery (t : Loc) (mbox : Nat) : Issuer.Statement (.msgDelivery t mbox) := Issuer.of_wf _ (.inl rfl)
theorem Issuer.rchk (h : Hart) (w : Opnd) : Issuer.Statement (.rchk h w) := Issuer.of_wf _ (.inr rfl)
theorem Issuer.rget (h : Hart) (w : Opnd) : Issuer.Statement (.rget h w) := Issuer.of_wf _ (.inr rfl)
theorem Issuer.waitTimeout (h : Hart) : Issuer.Statement (.waitTimeout h) := Issuer.of_wf _ (.inr rfl)
theorem Issuer.taskGrant (t : Loc) (entry : Nat) : Issuer.Statement (.taskGrant t entry) := Issuer.of_wf _ (.inl rfl)
theorem Issuer.taskRelease (t : Loc) (slot : Nat) : Issuer.Statement (.taskRelease t slot) := Issuer.of_wf _ (.inl rfl)
theorem Issuer.depSignal (k : Nat) : Issuer.Statement (.depSignal k) := Issuer.of_wf _ (.inl rfl)
theorem Issuer.allSignalCombine (part : Nat) (node : Nat) (cluster : Nat) : Issuer.Statement (.allSignalCombine part node cluster) := Issuer.of_wf _ (.inl rfl)
theorem Issuer.stepBegin (p : Nat) : Issuer.Statement (.stepBegin p) := Issuer.of_wf _ (.inl rfl)
theorem Issuer.scheduledActionHold (p : Nat) : Issuer.Statement (.scheduledActionHold p) := Issuer.of_wf _ (.inl rfl)
theorem Issuer.stepClose (p : Nat) : Issuer.Statement (.stepClose p) := Issuer.of_wf _ (.inl rfl)
theorem Issuer.stepHalt (p : Nat) : Issuer.Statement (.stepHalt p) := Issuer.of_wf _ (.inl rfl)
theorem Issuer.stepReexecute (p : Nat) : Issuer.Statement (.stepReexecute p) := Issuer.of_wf _ (.inl rfl)
theorem Issuer.promptFetch (idx : Nat) (tokens : Option (List Nat)) : Issuer.Statement (.promptFetch idx tokens) := Issuer.of_wf _ (.inl rfl)
theorem Issuer.heldPacketWrite (idx : Nat) : Issuer.Statement (.heldPacketWrite idx) := Issuer.of_wf _ (.inl rfl)
theorem Issuer.lossStoreDrain (p : Nat) : Issuer.Statement (.lossStoreDrain p) := Issuer.of_wf _ (.inl rfl)
theorem Issuer.tokenDelivery (t : Nat) (parity : Parity) (words : Nat) : Issuer.Statement (.tokenDelivery t parity words) := Issuer.of_wf _ (.inl rfl)
theorem Issuer.statusDelivery (fn : Fn) (parity : Parity) : Issuer.Statement (.statusDelivery fn parity) := Issuer.of_wf _ (.inl rfl)
theorem Issuer.msixCoalesceTimeout (fn : Fn) (q : Nat) : Issuer.Statement (.msixCoalesceTimeout fn q) := Issuer.of_wf _ (.inl rfl)
theorem Issuer.commandFetch (fn : Fn) (pkt : RawPacket) : Issuer.Statement (.commandFetch fn pkt) := Issuer.of_wf _ (.inl rfl)
theorem Issuer.scheduledCommandApply (deck i : Nat) (wordBad headerBad : Bool) : Issuer.Statement (.scheduledCommandApply deck i wordBad headerBad) := Issuer.of_wf _ (.inl rfl)
theorem Issuer.doorbell (fn : Fn) (q : Nat) (v : Word) : Issuer.Statement (.doorbell fn q v) := Issuer.of_wf _ (.inl rfl)
theorem Issuer.ringCfgEnable (fn : Fn) (q : Nat) (v : Word) : Issuer.Statement (.ringCfgEnable fn q v) := Issuer.of_wf _ (.inl rfl)
theorem Issuer.dwDataWrite (fn : Fn) (off : Nat) (bytes : List Byte) : Issuer.Statement (.dwDataWrite fn off bytes) := Issuer.of_wf _ (.inl rfl)
theorem Issuer.dwLaunch (fn : Fn) (v : Word) (wordBad headerBad : Bool) : Issuer.Statement (.dwLaunch fn v wordBad headerBad) := Issuer.of_wf _ (.inl rfl)
theorem Issuer.ledgerHeadRead (port : Nat) (d : Nat) (poison : Bool) : Issuer.Statement (.ledgerHeadRead port d poison) := Issuer.of_wf _ (.inl rfl)
theorem Issuer.ledgerAck (port : Nat) (d : Nat) (v : Word) : Issuer.Statement (.ledgerAck port d v) := Issuer.of_wf _ (.inl rfl)
theorem Issuer.rcCounterRead (c : RcCounter) (hw : Bool) : Issuer.Statement (.rcCounterRead c hw) := Issuer.of_wf _ (.inl rfl)
theorem Issuer.vfAssignWrite (port : Nat) (t : Nat) (v : Word) : Issuer.Statement (.vfAssignWrite port t v) := Issuer.of_wf _ (.inl rfl)
theorem Issuer.spRegionWrite (t : Loc) (n : Nat) (v : Word) : Issuer.Statement (.spRegionWrite t n v) := Issuer.of_wf _ (.inl rfl)
theorem Issuer.registerWrite (fn : Fn) (off : Nat) (v : Word) : Issuer.Statement (.registerWrite fn off v) := Issuer.of_wf _ (.inl rfl)
theorem Issuer.flr (fn : Fn) : Issuer.Statement (.flr fn) := Issuer.of_wf _ (.inl rfl)
theorem Issuer.pcieLinkDown (port : Nat) : Issuer.Statement (.pcieLinkDown port) := Issuer.of_wf _ (.inl rfl)
theorem Issuer.pcieLinkUp (port : Nat) (rate : Nat) (width : Nat) : Issuer.Statement (.pcieLinkUp port rate width) := Issuer.of_wf _ (.inl rfl)
theorem Issuer.hotReset (port : Nat) : Issuer.Statement (.hotReset port) := Issuer.of_wf _ (.inl rfl)
theorem Issuer.reqSubmit (hd : Hdr) (q : SubmitParams) : Issuer.Statement (.reqSubmit hd q) := Issuer.of_wf _ (.inl rfl)
theorem Issuer.reqQuery (hd : Hdr) (idx : Nat) (addr : Nat) : Issuer.Statement (.reqQuery hd idx addr) := Issuer.of_wf _ (.inl rfl)
theorem Issuer.reqUpdate (hd : Hdr) (idx : Nat) (mask : Nat) (q : SubmitParams) : Issuer.Statement (.reqUpdate hd idx mask q) := Issuer.of_wf _ (.inl rfl)
theorem Issuer.reqPause (hd : Hdr) (idx : Nat) : Issuer.Statement (.reqPause hd idx) := Issuer.of_wf _ (.inl rfl)
theorem Issuer.reqResume (hd : Hdr) (idx : Nat) : Issuer.Statement (.reqResume hd idx) := Issuer.of_wf _ (.inl rfl)
theorem Issuer.reqCancel (hd : Hdr) (idx : Nat) : Issuer.Statement (.reqCancel hd idx) := Issuer.of_wf _ (.inl rfl)
theorem Issuer.reqRelease (hd : Hdr) (idx : Nat) : Issuer.Statement (.reqRelease hd idx) := Issuer.of_wf _ (.inl rfl)
theorem Issuer.reqAppend (hd : Hdr) (idx : Nat) (count : Nat) (addr : Nat) : Issuer.Statement (.reqAppend hd idx count addr) := Issuer.of_wf _ (.inl rfl)
theorem Issuer.reqDraft (hd : Hdr) (idx : Nat) (root : Nat) (nodes : List (Nat × Nat)) : Issuer.Statement (.reqDraft hd idx root nodes) := Issuer.of_wf _ (.inl rfl)
theorem Issuer.imgFit (hd : Hdr) (maddr : Nat) (manifest : List Byte) (fields : Nat) (addr : Nat) : Issuer.Statement (.imgFit hd maddr manifest fields addr) := Issuer.of_wf _ (.inl rfl)
theorem Issuer.imgBegin (hd : Hdr) (maddr : Nat) (manifest : List Byte) (fields : Nat) (ports : Nat) (zport : Nat) : Issuer.Statement (.imgBegin hd maddr manifest fields ports zport) := Issuer.of_wf _ (.inl rfl)
theorem Issuer.imgStream (hd : Hdr) (img : Nat) (addr : Nat) (frames : List (List Byte)) : Issuer.Statement (.imgStream hd img addr frames) := Issuer.of_wf _ (.inl rfl)
theorem Issuer.imgEnd (hd : Hdr) (img : Nat) (addr : Nat) : Issuer.Statement (.imgEnd hd img addr) := Issuer.of_wf _ (.inl rfl)
theorem Issuer.imgAbort (hd : Hdr) (img : Nat) : Issuer.Statement (.imgAbort hd img) := Issuer.of_wf _ (.inl rfl)
theorem Issuer.imgPatch (hd : Hdr) (img : Nat) (imageId : Word) : Issuer.Statement (.imgPatch hd img imageId) := Issuer.of_wf _ (.inl rfl)
theorem Issuer.imgTierLoad (hd : Hdr) (img : Nat) (addr : Nat) (frames : List (List Byte)) (region : Nat) (bytes : Nat) (cache : Nat) : Issuer.Statement (.imgTierLoad hd img addr frames region bytes cache) := Issuer.of_wf _ (.inl rfl)
theorem Issuer.imgRelease (hd : Hdr) (img : Nat) : Issuer.Statement (.imgRelease hd img) := Issuer.of_wf _ (.inl rfl)
theorem Issuer.imgQuery (hd : Hdr) (img : Nat) (addr : Nat) : Issuer.Statement (.imgQuery hd img addr) := Issuer.of_wf _ (.inl rfl)
theorem Issuer.keyEnrol (hd : Hdr) (slot : Nat) (key : List Byte) (sig : List Byte) : Issuer.Statement (.keyEnrol hd slot key sig) := Issuer.of_wf _ (.inl rfl)
theorem Issuer.partBindFields (hd : Hdr) (fields : Nat) (img : Nat) : Issuer.Statement (.partBindFields hd fields img) := Issuer.of_wf _ (.inl rfl)
theorem Issuer.partBindImage (hd : Hdr) (img : Nat) : Issuer.Statement (.partBindImage hd img) := Issuer.of_wf _ (.inl rfl)
theorem Issuer.tenantBind (hd : Hdr) (t : Nat) : Issuer.Statement (.tenantBind hd t) := Issuer.of_wf _ (.inl rfl)
theorem Issuer.partMode (hd : Hdr) (mask : Nat) (modes : Nat) (retr : Nat) (cap : Nat) : Issuer.Statement (.partMode hd mask modes retr cap) := Issuer.of_wf _ (.inl rfl)
theorem Issuer.partPause (hd : Hdr) : Issuer.Statement (.partPause hd) := Issuer.of_wf _ (.inl rfl)
theorem Issuer.partResume (hd : Hdr) : Issuer.Statement (.partResume hd) := Issuer.of_wf _ (.inl rfl)
theorem Issuer.partReset (hd : Hdr) : Issuer.Statement (.partReset hd) := Issuer.of_wf _ (.inl rfl)
theorem Issuer.tenantSet (hd : Hdr) (t : Nat) (weight : Nat) (maxReq : Nat) (enable : Bool) (mask : Nat) : Issuer.Statement (.tenantSet hd t weight maxReq enable mask) := Issuer.of_wf _ (.inl rfl)
theorem Issuer.hemSet (hd : Hdr) (deck : Nat) (table : Nat) (entry : Nat) (inRate : Nat) (outRate : Nat) (burst : Nat) : Issuer.Statement (.hemSet hd deck table entry inRate outRate burst) := Issuer.of_wf _ (.inl rfl)
theorem Issuer.kvReserve (hd : Hdr) (addr : Nat) (bytes : Nat) (cache : Nat) (low : Nat) : Issuer.Statement (.kvReserve hd addr bytes cache low) := Issuer.of_wf _ (.inl rfl)
theorem Issuer.graphLoad (hd : Hdr) (addr : Nat) (pkg : List Byte) (img : Nat) : Issuer.Statement (.graphLoad hd addr pkg img) := Issuer.of_wf _ (.inl rfl)
theorem Issuer.graphUnload (hd : Hdr) (g : Nat) : Issuer.Statement (.graphUnload hd g) := Issuer.of_wf _ (.inl rfl)
theorem Issuer.graphQuery (hd : Hdr) (g : Nat) (addr : Nat) : Issuer.Statement (.graphQuery hd g addr) := Issuer.of_wf _ (.inl rfl)
theorem Issuer.adaptSave (hd : Hdr) (addr : Nat) (bytes : Nat) (half : Nat) : Issuer.Statement (.adaptSave hd addr bytes half) := Issuer.of_wf _ (.inl rfl)
theorem Issuer.adaptRestore (hd : Hdr) (addr : Nat) (data : List Byte) (half : Nat) : Issuer.Statement (.adaptRestore hd addr data half) := Issuer.of_wf _ (.inl rfl)
theorem Issuer.monRead (hd : Hdr) (sel : Nat) (deck : Nat) (part : Nat) (site : Nat) (first : Nat) (count : Nat) (addr : Nat) : Issuer.Statement (.monRead hd sel deck part site first count addr) := Issuer.of_wf _ (.inl rfl)
theorem Issuer.nwRead (hd : Hdr) (first : Nat) (count : Nat) (addr : Nat) : Issuer.Statement (.nwRead hd first count addr) := Issuer.of_wf _ (.inl rfl)
theorem Issuer.nwWrite (hd : Hdr) (entry : Nat) (v : BitVec 128) : Issuer.Statement (.nwWrite hd entry v) := Issuer.of_wf _ (.inl rfl)
theorem Issuer.histRead (hd : Hdr) (mon : Nat) (addr : Nat) : Issuer.Statement (.histRead hd mon addr) := Issuer.of_wf _ (.inl rfl)
theorem Issuer.histClear (hd : Hdr) (mon : Nat) : Issuer.Statement (.histClear hd mon) := Issuer.of_wf _ (.inl rfl)
theorem Issuer.tenantQuery (hd : Hdr) (t : Nat) (addr : Nat) : Issuer.Statement (.tenantQuery hd t addr) := Issuer.of_wf _ (.inl rfl)
theorem Issuer.pwrState (hd : Hdr) (target : Nat) : Issuer.Statement (.pwrState hd target) := Issuer.of_wf _ (.inl rfl)
theorem Issuer.pwrCap (hd : Hdr) (watts : Nat) : Issuer.Statement (.pwrCap hd watts) := Issuer.of_wf _ (.inl rfl)
theorem Issuer.thermQuery (hd : Hdr) (addr : Nat) : Issuer.Statement (.thermQuery hd addr) := Issuer.of_wf _ (.inl rfl)
theorem Issuer.throttleQuery (hd : Hdr) (addr : Nat) : Issuer.Statement (.throttleQuery hd addr) := Issuer.of_wf _ (.inl rfl)
theorem Issuer.darnRead (hd : Hdr) (field : Nat) (addr : Nat) : Issuer.Statement (.darnRead hd field addr) := Issuer.of_wf _ (.inl rfl)
theorem Issuer.darnRemap (hd : Hdr) (field : Nat) (site : Nat) : Issuer.Statement (.darnRemap hd field site) := Issuer.of_wf _ (.inl rfl)
theorem Issuer.rinseSet (hd : Hdr) (deck : Nat) (v : BitVec 32) : Issuer.Statement (.rinseSet hd deck v) := Issuer.of_wf _ (.inl rfl)
theorem Issuer.selfTest (hd : Hdr) (scope : Nat) (deck : Nat) : Issuer.Statement (.selfTest hd scope deck) := Issuer.of_wf _ (.inl rfl)
theorem Issuer.snapshot (hd : Hdr) (mask : Nat) (addr : Nat) (bytes : Nat) : Issuer.Statement (.snapshot hd mask addr bytes) := Issuer.of_wf _ (.inl rfl)
theorem Issuer.restore (hd : Hdr) (mask : Nat) (addr : Nat) (data : List Byte) : Issuer.Statement (.restore hd mask addr data) := Issuer.of_wf _ (.inl rfl)
theorem Issuer.reset (hd : Hdr) (scope : Nat) (deck : Nat) (field : Nat) (site : Nat) : Issuer.Statement (.reset hd scope deck field site) := Issuer.of_wf _ (.inl rfl)
theorem Issuer.journalRead (hd : Hdr) (first : Nat) (addr : Nat) : Issuer.Statement (.journalRead hd first addr) := Issuer.of_wf _ (.inl rfl)
theorem Issuer.schedWithdraw (hd : Hdr) (tag : Nat) : Issuer.Statement (.schedWithdraw hd tag) := Issuer.of_wf _ (.inl rfl)
theorem Issuer.zportCtl (hd : Hdr) (port : Nat) (action : Nat) : Issuer.Statement (.zportCtl hd port action) := Issuer.of_wf _ (.inl rfl)
theorem Issuer.zportQuery (hd : Hdr) (port : Nat) (addr : Nat) : Issuer.Statement (.zportQuery hd port addr) := Issuer.of_wf _ (.inl rfl)
theorem Issuer.paceSrc (hd : Hdr) (src : Nat) (port : Nat) (value : Nat) : Issuer.Statement (.paceSrc hd src port value) := Issuer.of_wf _ (.inl rfl)
theorem Issuer.pairCfg (hd : Hdr) (mode : Nat) (mask : Nat) (addr : Nat) (licence : List Byte) : Issuer.Statement (.pairCfg hd mode mask addr licence) := Issuer.of_wf _ (.inl rfl)
theorem Issuer.zrouteSet (hd : Hdr) (peer : Word) (mask : Nat) : Issuer.Statement (.zrouteSet hd peer mask) := Issuer.of_wf _ (.inl rfl)
theorem Issuer.pairTakeover (hd : Hdr) : Issuer.Statement (.pairTakeover hd) := Issuer.of_wf _ (.inl rfl)
theorem Issuer.packetArrival (k : Nat) (uncorr : Bool) (corrected : List Loc) : Issuer.Statement (.packetArrival k uncorr corrected) := Issuer.of_wf _ (.inl rfl)
theorem Issuer.foldCombine (router : Loc) (i : Nat) (j : Nat) : Issuer.Statement (.foldCombine router i j) := Issuer.of_wf _ (.inl rfl)
theorem Issuer.foldReceive (t : Loc) : Issuer.Statement (.foldReceive t) := Issuer.of_wf _ (.inl rfl)
theorem Issuer.hemReservation (t : Loc) (deck : Nat) (zarog : Bool) (flits : Nat) : Issuer.Statement (.hemReservation t deck zarog flits) := Issuer.of_wf _ (.inl rfl)
theorem Issuer.hemReservationReturn (t : Loc) : Issuer.Statement (.hemReservationReturn t) := Issuer.of_wf _ (.inl rfl)
theorem Issuer.hemBucketRefill : Issuer.Statement (.hemBucketRefill) := Issuer.of_wf _ (.inl rfl)
theorem Issuer.xstopDisabled (field : Nat) (cluster : Nat) (selfTest : Bool) : Issuer.Statement (.xstopDisabled field cluster selfTest) := Issuer.of_wf _ (.inl rfl)
theorem Issuer.proxyRead (t : Loc) (q : ProxyReq) (requester : Loc) : Issuer.Statement (.proxyRead t q requester) := Issuer.of_wf _ (.inl rfl)
theorem Issuer.recoveryChainPage (member : Loc) (k : Nat) : Issuer.Statement (.recoveryChainPage member k) := Issuer.of_wf _ (.inl rfl)
theorem Issuer.rinsePass (t : Loc) (corrected : List Nat) (uncorr : List Nat) : Issuer.Statement (.rinsePass t corrected uncorr) := Issuer.of_wf _ (.inl rfl)
theorem Issuer.bankGuarded (t : Loc) (b : Nat) : Issuer.Statement (.bankGuarded t b) := Issuer.of_wf _ (.inl rfl)
theorem Issuer.guardConversionDone (t : Loc) (b : Nat) : Issuer.Statement (.guardConversionDone t b) := Issuer.of_wf _ (.inl rfl)
theorem Issuer.guardWindowEnd (t : Loc) : Issuer.Statement (.guardWindowEnd t) := Issuer.of_wf _ (.inl rfl)
theorem Issuer.kvRinse (t : Loc) (uncorr : List Nat) : Issuer.Statement (.kvRinse t uncorr) := Issuer.of_wf _ (.inl rfl)
theorem Issuer.dramRefresh (field : Nat) : Issuer.Statement (.dramRefresh field) := Issuer.of_wf _ (.inl rfl)
theorem Issuer.nvPatrol (t : Loc) (bad : List (Nat × Int)) (near : List Nat) : Issuer.Statement (.nvPatrol t bad near) := Issuer.of_wf _ (.inl rfl)
theorem Issuer.slotZeroFillDone (t : Loc) (slot : Nat) : Issuer.Statement (.slotZeroFillDone t slot) := Issuer.of_wf _ (.inl rfl)
theorem Issuer.kvSpill (t : Loc) (stage : SpillStage) : Issuer.Statement (.kvSpill t stage) := Issuer.of_wf _ (.inl rfl)
theorem Issuer.kvReserveFetch (t : Loc) (page : Nat) (slot : Nat) (data : List Byte) : Issuer.Statement (.kvReserveFetch t page slot data) := Issuer.of_wf _ (.inl rfl)
theorem Issuer.reserveCacheFill (t : Loc) (imgSlot : Nat) (page : Nat) (data : List Byte) : Issuer.Statement (.reserveCacheFill t imgSlot page data) := Issuer.of_wf _ (.inl rfl)
theorem Issuer.blobTransfer (g : Nat) (t : Loc) : Issuer.Statement (.blobTransfer g t) := Issuer.of_wf _ (.inl rfl)
theorem Issuer.imprintEraseDone : Issuer.Statement (.imprintEraseDone) := Issuer.of_wf _ (.inl rfl)
theorem Issuer.imprintFrame (frame : List Byte) : Issuer.Statement (.imprintFrame frame) := Issuer.of_wf _ (.inl rfl)
theorem Issuer.fieldVerify (field : Nat) (bad : List Nat) : Issuer.Statement (.fieldVerify field bad) := Issuer.of_wf _ (.inl rfl)
theorem Issuer.imprintCommit : Issuer.Statement (.imprintCommit) := Issuer.of_wf _ (.inl rfl)
theorem Issuer.repairWrite (img : Nat) (slice : Nat) (target : Loc) : Issuer.Statement (.repairWrite img slice target) := Issuer.of_wf _ (.inl rfl)
theorem Issuer.repairWriteVerified (k : Nat) (ok : Bool) : Issuer.Statement (.repairWriteVerified k ok) := Issuer.of_wf _ (.inl rfl)
theorem Issuer.siteCovered (t : Loc) (cause : CoverCause) : Issuer.Statement (.siteCovered t cause) := Issuer.of_wf _ (.inl rfl)
theorem Issuer.strikeExpiry (t : Loc) : Issuer.Statement (.strikeExpiry t) := Issuer.of_wf _ (.inl rfl)
theorem Issuer.mapWindowStageDone (p : Nat) : Issuer.Statement (.mapWindowStageDone p) := Issuer.of_wf _ (.inl rfl)
theorem Issuer.sliceReimprintVerified (t : Loc) (img : Nat) : Issuer.Statement (.sliceReimprintVerified t img) := Issuer.of_wf _ (.inl rfl)
theorem Issuer.siteDark (t : Loc) : Issuer.Statement (.siteDark t) := Issuer.of_wf _ (.inl rfl)
theorem Issuer.fieldSetRebindStage (p : Nat) : Issuer.Statement (.fieldSetRebindStage p) := Issuer.of_wf _ (.inl rfl)
theorem Issuer.zportSignalDetect (z : Nat) : Issuer.Statement (.zportSignalDetect z) := Issuer.of_wf _ (.inl rfl)
theorem Issuer.zportTrainDone (z : Nat) : Issuer.Statement (.zportTrainDone z) := Issuer.of_wf _ (.inl rfl)
theorem Issuer.zportTrainTimeout (z : Nat) : Issuer.Statement (.zportTrainTimeout z) := Issuer.of_wf _ (.inl rfl)
theorem Issuer.zportAlignDone (z : Nat) (partner : Word) (pport : Nat) : Issuer.Statement (.zportAlignDone z partner pport) := Issuer.of_wf _ (.inl rfl)
theorem Issuer.zportAlignTimeout (z : Nat) : Issuer.Statement (.zportAlignTimeout z) := Issuer.of_wf _ (.inl rfl)
theorem Issuer.zportCreditDone (z : Nat) (rtt : Nat) : Issuer.Statement (.zportCreditDone z rtt) := Issuer.of_wf _ (.inl rfl)
theorem Issuer.zportCreditTimeout (z : Nat) : Issuer.Statement (.zportCreditTimeout z) := Issuer.of_wf _ (.inl rfl)
theorem Issuer.zportLossOfSignal (z : Nat) : Issuer.Statement (.zportLossOfSignal z) := Issuer.of_wf _ (.inl rfl)
theorem Issuer.zportBackoffElapsed (z : Nat) : Issuer.Statement (.zportBackoffElapsed z) := Issuer.of_wf _ (.inl rfl)
theorem Issuer.zportUpStable (z : Nat) : Issuer.Statement (.zportUpStable z) := Issuer.of_wf _ (.inl rfl)
theorem Issuer.zarogCodewordReceive (z : Nat) (cw : Codeword) : Issuer.Statement (.zarogCodewordReceive z cw) := Issuer.of_wf _ (.inl rfl)
theorem Issuer.zarogNak (z : Nat) (cwseq : Nat) : Issuer.Statement (.zarogNak z cwseq) := Issuer.of_wf _ (.inl rfl)
theorem Issuer.zportReplayLimit (z : Nat) : Issuer.Statement (.zportReplayLimit z) := Issuer.of_wf _ (.inl rfl)
theorem Issuer.linkFlit (z : Nat) (f : LinkFlit) : Issuer.Statement (.linkFlit z f) := Issuer.of_wf _ (.inl rfl)
theorem Issuer.zarogPacketReceive (z : Nat) (p : ZPacket) : Issuer.Statement (.zarogPacketReceive z p) := Issuer.of_wf _ (.inl rfl)
theorem Issuer.zarogModuleInsert (z : Nat) (cls : Nat) (watts : Nat) : Issuer.Statement (.zarogModuleInsert z cls watts) := Issuer.of_wf _ (.inl rfl)
theorem Issuer.portConnectorFault (p : PortName) : Issuer.Statement (.portConnectorFault p) := Issuer.of_wf _ (.inl rfl)
theorem Issuer.paceExchange (z : Nat) (x : PaceInfo) : Issuer.Statement (.paceExchange z x) := Issuer.of_wf _ (.inl rfl)
theorem Issuer.paceHoldover : Issuer.Statement (.paceHoldover) := Issuer.of_wf _ (.inl rfl)
theorem Issuer.paceLocked : Issuer.Statement (.paceLocked) := Issuer.of_wf _ (.inl rfl)
theorem Issuer.epochPrepare (m : Prepare) : Issuer.Statement (.epochPrepare m) := Issuer.of_wf _ (.inl rfl)
theorem Issuer.epochAck (p node : Nat) (ok : Bool) (epoch : Nat) : Issuer.Statement (.epochAck p node ok epoch) := Issuer.of_wf _ (.inl rfl)
theorem Issuer.epochDecision (p : Nat) (epoch : Nat) (commit : Bool) : Issuer.Statement (.epochDecision p epoch commit) := Issuer.of_wf _ (.inl rfl)
theorem Issuer.epochDeadline (p : Nat) : Issuer.Statement (.epochDeadline p) := Issuer.of_wf _ (.inl rfl)
theorem Issuer.epochDecisionResend (p : Nat) : Issuer.Statement (.epochDecisionResend p) := Issuer.of_wf _ (.inl rfl)
theorem Issuer.spanAnnounce (imageId : Word) (part node partition knows samples batches handoff room : Nat) :
    Issuer.Statement (.spanAnnounce imageId part node partition knows samples batches handoff room) := Issuer.of_wf _ (.inl rfl)
theorem Issuer.spanBatchReceive (p : Nat) (batch : List Byte) (dirs : List (Loc × List Byte)) : Issuer.Statement (.spanBatchReceive p batch dirs) := Issuer.of_wf _ (.inl rfl)
theorem Issuer.spanHandoff (p : Nat) (rank : Nat) (data : List Byte) : Issuer.Statement (.spanHandoff p rank data) := Issuer.of_wf _ (.inl rfl)
theorem Issuer.spanRecordsReturn (p : Nat) (rank : Nat) (data : List Byte) : Issuer.Statement (.spanRecordsReturn p rank data) := Issuer.of_wf _ (.inl rfl)
theorem Issuer.spanAcceptedPath (p : Nat) (paths : List (Nat × Nat × List Nat)) : Issuer.Statement (.spanAcceptedPath p paths) := Issuer.of_wf _ (.inl rfl)
theorem Issuer.pairHeartbeat : Issuer.Statement (.pairHeartbeat) := Issuer.of_wf _ (.inl rfl)
theorem Issuer.pairHeartbeatLoss (news : PairNews) : Issuer.Statement (.pairHeartbeatLoss news) := Issuer.of_wf _ (.inl rfl)
theorem Issuer.pairReady (p : Nat) : Issuer.Statement (.pairReady p) := Issuer.of_wf _ (.inl rfl)
theorem Issuer.mirrorDigest (p : Nat) (digest : Word) : Issuer.Statement (.mirrorDigest p digest) := Issuer.of_wf _ (.inl rfl)
theorem Issuer.standbyReplication (p : Nat) (rep : Replication) : Issuer.Statement (.standbyReplication p rep) := Issuer.of_wf _ (.inl rfl)
theorem Issuer.replicationAck (p : Nat) (stepNo : Nat) : Issuer.Statement (.replicationAck p stepNo) := Issuer.of_wf _ (.inl rfl)
theorem Issuer.chairRequest (deck : Nat) (take : Bool) : Issuer.Statement (.chairRequest deck take) := Issuer.of_wf _ (.inl rfl)
theorem Issuer.chairOnlyWrite (deck : Nat) (cw : ChairWrite) : Issuer.Statement (.chairOnlyWrite deck cw) := Issuer.of_wf _ (.inl rfl)
theorem Issuer.chairVote (flip : Option (Nat × Chair)) : Issuer.Statement (.chairVote flip) := Issuer.of_wf _ (.inl rfl)
theorem Issuer.chairClaimSample (c0 : Bool) (c1 : Bool) : Issuer.Statement (.chairClaimSample c0 c1) := Issuer.of_wf _ (.inl rfl)
theorem Issuer.watchdogWrite (deck : Nat) : Issuer.Statement (.watchdogWrite deck) := Issuer.of_wf _ (.inl rfl)
theorem Issuer.watchdogRestart (deck : Nat) : Issuer.Statement (.watchdogRestart deck) := Issuer.of_wf _ (.inl rfl)
theorem Issuer.controllerRestartDone (deck : Nat) : Issuer.Statement (.controllerRestartDone deck) := Issuer.of_wf _ (.inl rfl)
theorem Issuer.supervisorSelfCheck (ok : Bool) : Issuer.Statement (.supervisorSelfCheck ok) := Issuer.of_wf _ (.inl rfl)
theorem Issuer.journalBucketRefill : Issuer.Statement (.journalBucketRefill) := Issuer.of_wf _ (.inl rfl)
theorem Issuer.feedLoss (b : Bool) (cv : Nat) : Issuer.Statement (.feedLoss b cv) := Issuer.of_wf _ (.inl rfl)
theorem Issuer.feedSenseMated (b : Bool) : Issuer.Statement (.feedSenseMated b) := Issuer.of_wf _ (.inl rfl)
theorem Issuer.powerLoss (cvA : Nat) (cvB : Nat) : Issuer.Statement (.powerLoss cvA cvB) := Issuer.of_wf _ (.inl rfl)
theorem Issuer.latchClear : Issuer.Statement (.latchClear) := Issuer.of_wf _ (.inl rfl)
theorem Issuer.phaseOvercurrent (field : Nat) (phase : Nat) (amps : Nat) : Issuer.Statement (.phaseOvercurrent field phase amps) := Issuer.of_wf _ (.inl rfl)
theorem Issuer.phaseShed (field : Nat) (phase : Nat) (cause : ShedCause) : Issuer.Statement (.phaseShed field phase cause) := Issuer.of_wf _ (.inl rfl)
theorem Issuer.phaseDisagreement (field : Nat) : Issuer.Statement (.phaseDisagreement field) := Issuer.of_wf _ (.inl rfl)
theorem Issuer.deckShort (deck : Nat) (rail : Nat) : Issuer.Statement (.deckShort deck rail) := Issuer.of_wf _ (.inl rfl)
theorem Issuer.softStartRetry (deck : Nat) (short : Option Nat) : Issuer.Statement (.softStartRetry deck short) := Issuer.of_wf _ (.inl rfl)
theorem Issuer.crackDrop (field : Nat) (amps : Nat) (uohm : Nat) : Issuer.Statement (.crackDrop field amps uohm) := Issuer.of_wf _ (.inl rfl)
theorem Issuer.capDecision (watts : Nat) (ampsA : Nat) (ampsB : Nat) : Issuer.Statement (.capDecision watts ampsA ampsB) := Issuer.of_wf _ (.inl rfl)
theorem Issuer.periodicCommit : Issuer.Statement (.periodicCommit) := Issuer.of_wf _ (.inl rfl)
theorem Issuer.cartridgeRemoval (b : Bool) : Issuer.Statement (.cartridgeRemoval b) := Issuer.of_wf _ (.inl rfl)
theorem Issuer.cartridgeInsertion (b : Bool) : Issuer.Statement (.cartridgeInsertion b) := Issuer.of_wf _ (.inl rfl)
theorem Issuer.cartridgeCharged (b : Bool) (coulomb : Nat) (voltage : Nat) : Issuer.Statement (.cartridgeCharged b coulomb voltage) := Issuer.of_wf _ (.inl rfl)
theorem Issuer.cartridgeEstimatesDisagree (b : Bool) (coulomb : Nat) (voltage : Nat) : Issuer.Statement (.cartridgeEstimatesDisagree b coulomb voltage) := Issuer.of_wf _ (.inl rfl)
theorem Issuer.sensorSample (field : Nat) (readings : List Int) : Issuer.Statement (.sensorSample field readings) := Issuer.of_wf _ (.inl rfl)
theorem Issuer.thermalDecision (loads : List (Nat × Nat × Int)) : Issuer.Statement (.thermalDecision loads) := Issuer.of_wf _ (.inl rfl)
theorem Issuer.thermalTrip (field : Nat) (wafer : Nat) (sensor : Nat) : Issuer.Statement (.thermalTrip field wafer sensor) := Issuer.of_wf _ (.inl rfl)
theorem Issuer.coolantFlow (flow : Nat) (inlet : Int) : Issuer.Statement (.coolantFlow flow inlet) := Issuer.of_wf _ (.inl rfl)
theorem Issuer.flowRestoreTimeout : Issuer.Statement (.flowRestoreTimeout) := Issuer.of_wf _ (.inl rfl)
theorem Issuer.leak (sensor : Nat) (openCircuit : Bool) : Issuer.Statement (.leak sensor openCircuit) := Issuer.of_wf _ (.inl rfl)
theorem Issuer.intlkSample (imprint : Bool) (pwrOn : Bool) : Issuer.Statement (.intlkSample imprint pwrOn) := Issuer.of_wf _ (.inl rfl)
theorem Issuer.pwrOnRequest (feeds : Bool) : Issuer.Statement (.pwrOnRequest feeds) := Issuer.of_wf _ (.inl rfl)
theorem Issuer.powerUpStage (rep : StageReport) : Issuer.Statement (.powerUpStage rep) := Issuer.of_wf _ (.inl rfl)
theorem Issuer.powerDownStage : Issuer.Statement (.powerDownStage) := Issuer.of_wf _ (.inl rfl)
theorem Issuer.resetTakeEffect : Issuer.Statement (.resetTakeEffect) := Issuer.of_wf _ (.inl rfl)
theorem Issuer.snapshotCapture : Issuer.Statement (.snapshotCapture) := Issuer.of_wf _ (.inl rfl)
theorem Issuer.snapshotCaptureDone : Issuer.Statement (.snapshotCaptureDone) := Issuer.of_wf _ (.inl rfl)
theorem Issuer.restoreApply : Issuer.Statement (.restoreApply) := Issuer.of_wf _ (.inl rfl)
theorem Issuer.monitorSample (mon : Nat) (v : Int) : Issuer.Statement (.monitorSample mon v) := Issuer.of_wf _ (.inl rfl)
theorem Issuer.feedReturn (b : Bool) (cv : Nat) : Issuer.Statement (.feedReturn b cv) := Issuer.of_wf _ (.inl rfl)
theorem Issuer.coolantFlowRestored (flow : Nat) : Issuer.Statement (.coolantFlowRestored flow) := Issuer.of_wf _ (.inl rfl)
theorem Issuer.bridgeLaneDisabled (lane : Nat) : Issuer.Statement (.bridgeLaneDisabled lane) := Issuer.of_wf _ (.inl rfl)
theorem Issuer.cartridgeEndOfLife (b : Bool) (joules : Nat) : Issuer.Statement (.cartridgeEndOfLife b joules) := Issuer.of_wf _ (.inl rfl)
theorem Issuer.phaseDisagreementClear (field : Nat) : Issuer.Statement (.phaseDisagreementClear field) := Issuer.of_wf _ (.inl rfl)
theorem Issuer.ptpMessage (isPtp : Bool) (kind : PtpKind) (value : Nat) : Issuer.Statement (.ptpMessage isPtp kind value) := Issuer.of_wf _ (.inl rfl)
theorem Issuer.paceInEdge (offset : Int) : Issuer.Statement (.paceInEdge offset) := Issuer.of_wf _ (.inl rfl)
theorem Issuer.pairCfgTimeout : Issuer.Statement (.pairCfgTimeout) := Issuer.of_wf _ (.inl rfl)

end Sys2Proof.Laws
end

