-- ==== Sys2Proof/Machine/Routing.lean ====
section
/-!
DEFINITION. The paths that packets take (R206 to R210, R223, R224) and the bits of their headers (R215). A path changes how long a packet
takes and nothing that State holds, so no command calls this file: it says, for any two sites, which routers a packet passes
(log entry 48).
-/
namespace Sys2Proof.Machine

/-- A place on a deck: its column X, 0 to 191, and its row Y, 0 to 179. -/
structure Place where
  deck : Nat
  x : Nat
  y : Nat
deriving DecidableEq, Repr

/-- Edges of a deck, in the order of the hem's ring (R223). -/
inductive Edge where
  | front | right | back | left
deriving DecidableEq, Repr

/-- A hem router: its deck, its edge, and the CX or CY it stands at (R223). -/
structure HemRouter where
  deck : Nat
  edge : Edge
  c : Nat
deriving DecidableEq, Repr

/-- One hop of a path: to a router by a mesh link, to a stop by an express link, to a hem router, over a bridge lane to the hem router
at its other end. -/
inductive Hop where
  | mesh (p : Place)
  | express (p : Place)
  | hem (h : HemRouter)
  | lane (deck cy : Nat)
deriving DecidableEq, Repr

/-- The place of a tile on its deck. -/
def placeOf (t : Loc) : Place :=
  { deck := deckOf t.field, x := t.field % 48 % 8 * 24 + t.site % 24, y := t.field % 48 / 8 * 30 + t.site / 24 }

/-- The tile at a place. -/
def siteAt (p : Place) : Loc := { field := 48 * p.deck + p.y / 30 * 8 + p.x / 24, site := p.y % 30 * 24 + p.x % 24 }

/-- What a path has to go round: the DARK sites, which have no router, and the stops without express links (R210). -/
structure Net where
  dark : Place → Bool := fun _ => false
  noStop : Place → Bool := fun _ => false
  lanes : List Nat := []                 -- disabled bridge lanes

/-- Distance of two coordinates. -/
def apart (a b : Nat) : Nat := if a ≤ b then b - a else a - b

/-- The coordinate k steps from a towards b. -/
def towards (a b k : Nat) : Nat := if a ≤ b then a + k else a - k

/-- The places of a mesh path, Y first and then X (R207). -/
def meshLine (s d : Place) : List Place :=
  (List.range (apart s.y d.y)).map (fun k => { s with y := towards s.y d.y (k + 1) })
    ++ (List.range (apart s.x d.x)).map (fun k => { s with y := d.y, x := towards s.x d.x (k + 1) })

/-- The coordinate beside a line: the lower one, the higher one at the edge (R210). -/
def beside (c : Nat) : Nat := if c = 0 then 1 else c - 1

/-- Places passed from `cur` along a line: a DARK site is passed one line beside it, two hops more; where the path turns at it, by the
inner corner, which adds none (R210; log entry 48). -/
def around (dark : Place → Bool) : Place → List Place → List Place
  | _, [] => []
  | _, [d] => [d]
  | cur, d :: n :: rest =>
    if dark d then
      if cur.x = d.x ∧ d.x = n.x then
        { cur with x := beside d.x } :: { d with x := beside d.x } :: { n with x := beside d.x } :: n :: around dark n rest
      else if cur.y = d.y ∧ d.y = n.y then
        { cur with y := beside d.y } :: { d with y := beside d.y } :: { n with y := beside d.y } :: n :: around dark n rest
      else { d with x := n.x, y := cur.y } :: n :: around dark n rest
    else d :: around dark d (n :: rest)

/-- Mesh hops (R207, R210). -/
def meshPath (net : Net) (s d : Place) : List Hop := (around net.dark s (meshLine s d)).map .mesh

/-- The express stop of cluster (cx, cy) (R206). -/
def stopAt (deck cx cy : Nat) : Place := { deck := deck, x := 4 * cx + 2, y := 5 * cy + 2 }

/-- Clusters of a dimension that express links of two clusters a hop carry a packet through. -/
def expressTo (a b : Nat) : Nat := towards a b (apart a b / 2 * 2)

/-- Does an express link join two stops, both in use (R206, R210)? -/
def Net.links (net : Net) (a b : Place) : Bool :=
  !net.noStop a && !net.noStop b && ((a.y == b.y && apart a.x b.x == 8) || (a.x == b.x && apart a.y b.y == 10))

/-- One express hop after another; beside a stop without express links the packet goes by mesh (R210). -/
def expressHops (net : Net) : Place → List Place → List Hop
  | _, [] => []
  | cur, n :: rest => (if net.links cur n then [.express n] else meshPath net cur n) ++ expressHops net n rest

/-- The stops of an express leg, Y first and then X (R207). -/
def expressLine (deck cx cy dx dy : Nat) : List Place :=
  (List.range (apart cy dy / 2)).map (fun k => stopAt deck cx (towards cy dy (2 * (k + 1))))
    ++ (List.range (apart cx dx / 2)).map (fun k => stopAt deck (towards cx dx (2 * (k + 1))) (expressTo cy dy))

/-- The path between two sites of one deck (R207). Stops on DARK sites are left out of it (log entry 48). -/
def routeOn (net : Net) (s d : Place) : List Hop :=
  let cx := s.x / 4
  let cy := s.y / 5
  let dx := d.x / 4
  let dy := d.y / 5
  if apart cx dx < 2 ∧ apart cy dy < 2 then meshPath net s d
  else match (stopAt s.deck cx cy :: expressLine s.deck cx cy dx dy).filter (fun p => !net.dark p) with
    | [] => meshPath net s d
    | a :: l => meshPath net s a ++ expressHops net a l ++ meshPath net (l.getLastD a) d

/-! ### The hem (R223, R224) -/

/-- Hem routers of a deck's ring. -/
def hemRouters : Nat := 168

/-- Place of a hem router on the ring. -/
def HemRouter.index (h : HemRouter) : Nat :=
  match h.edge with
  | .front => h.c
  | .right => 48 + h.c
  | .back => 131 - h.c
  | .left => 167 - h.c

/-- The hem router at a place of the ring. -/
def hemAt (deck i : Nat) : HemRouter :=
  let i := i % hemRouters
  if i < 48 then { deck := deck, edge := .front, c := i }
  else if i < 84 then { deck := deck, edge := .right, c := i - 48 }
  else if i < 132 then { deck := deck, edge := .back, c := 131 - i }
  else { deck := deck, edge := .left, c := 167 - i }

/-- Does a tie send a packet up the ring: is that the way to the lower CX? -/
def HemRouter.tieUp (h : HemRouter) : Bool :=
  match h.edge with
  | .back => true
  | .right => true
  | _ => false

/-- Hem routers passed from one to another of a ring: the shorter way, on a tie toward lower CX (R224). -/
def ringPath (a b : HemRouter) : List Hop :=
  let up := (b.index + hemRouters - a.index) % hemRouters
  let down := (a.index + hemRouters - b.index) % hemRouters
  if up < down ∨ (up = down ∧ a.tieUp = true) then (List.range up).map (fun k => .hem (hemAt a.deck (a.index + k + 1)))
  else (List.range down).map (fun k => .hem (hemAt a.deck (a.index + hemRouters - k - 1)))

/-- Is a hem router in the Zarog hem domain (CD25, CD54) and not in the host hem domain? -/
def HemRouter.zarog (h : HemRouter) : Bool := h.edge == .back

/-- Edge sites that a hem router links to: those of its cluster on its edge (R223). -/
def HemRouter.sites (h : HemRouter) : List Place :=
  match h.edge with
  | .front => (List.range 4).map (fun k => { deck := h.deck, x := 4 * h.c + k, y := 0 })
  | .back => (List.range 4).map (fun k => { deck := h.deck, x := 4 * h.c + k, y := 179 })
  | .right => (List.range 5).map (fun k => { deck := h.deck, x := 191, y := 5 * h.c + k })
  | .left => (List.range 5).map (fun k => { deck := h.deck, x := 0, y := 5 * h.c + k })

/-- The inner edge of a deck: the side of the bridge (R208). -/
def innerSide (deck : Nat) : Edge := if deck = 0 then .right else .left

/-- The place of row y on the inner edge of a deck. -/
def innerEdge (deck y : Nat) : Place := { deck := deck, x := if deck = 0 then 191 else 0, y := y }

/-- The bridge lane that carries the traffic of cluster row cy: the next one where its own is disabled, the one before for the
last row (R224). -/
def laneOf (disabled : List Nat) (cy : Nat) : Nat := if disabled.contains cy then (if cy = 35 then 34 else cy + 1) else cy

/-- Crossing the bridge in cluster row cy, from a deck's hem router to the other's; by another row's lane it takes one more ring hop
on each deck (R208, R224). -/
def crossing (disabled : List Nat) (deck cy : Nat) : List Hop :=
  let l := laneOf disabled cy
  let at' (d c : Nat) : HemRouter := { deck := d, edge := innerSide d, c := c }
  [.hem (at' deck cy)] ++ ringPath (at' deck cy) (at' deck l) ++ [.lane (1 - deck) l] ++ ringPath (at' (1 - deck) l) (at' (1 - deck) cy)

/-- The path between any two sites of the engine (R207, R208). -/
def route (net : Net) (s d : Place) : List Hop :=
  if s.deck = d.deck then routeOn net s d
  else
    let e := innerEdge d.deck d.y
    routeOn net s (innerEdge s.deck d.y) ++ crossing net.lanes s.deck (d.y / 5) ++ [.mesh e] ++ routeOn net e d

/-- What the engine's paths have to go round: its DARK sites, its disabled stops and those whose site is DARK, its disabled lanes. -/
def Engine.net (e : Engine) : Net :=
  let dark (p : Place) : Bool := e.siteState (siteAt p) == .dark
  { dark := dark
    noStop := fun p => dark p || (let t := siteAt p; (e.field t.field).xstop.testBit (t.site / 24 / 5 * 6 + t.site % 24 / 4))
    lanes := (e.deck 0).lanes }

/-- The path between two tiles of the engine as its sites, stops and lanes stand. -/
def Engine.route (e : Engine) (s d : Loc) : List Hop := Machine.route e.net (placeOf s) (placeOf d)

/-- Cycles of a hop with nothing in its way (R209, Table 7.8): 30 ns, 33 cycles, over the bridge. -/
def Hop.cycles : Hop → Nat
  | .mesh _ => 2
  | .express _ => 3
  | .hem _ => 2
  | .lane _ _ => 33

/-- Latency of a path with nothing in its way (R209). -/
def latency (p : List Hop) : Nat := (p.map Hop.cycles).foldl (· + ·) 0

/-! ### Ports (R223, R224) -/

/-- The lower CX of a port's attachment: deck-local host port k on the front edge, Zarog port j on the back (Table 7.6). -/
def attachedAt (host : Bool) (k : Nat) : Nat := if host then 12 * k + 5 else 4 * k + 1

/-- Row of the edge of a port. -/
def portRow (host : Bool) : Nat := if host then 0 else 179

/-- A hem router of a port's edge. -/
def portHem (host : Bool) (deck c : Nat) : HemRouter := { deck := deck, edge := if host then .front else .back, c := c }

/-- The one of a port's two hem routers from which the ring reaches CX c sooner. -/
def portRouter (host : Bool) (deck k c : Nat) : HemRouter := portHem host deck (if attachedAt host k < c then attachedAt host k + 1 else attachedAt host k)

/-- Where a packet from a deck's port enters the mesh: in the column of its destination on the port's own deck, else at the
port's own attachment (R224). -/
def inboundEntry (host : Bool) (deck k : Nat) (d : Place) : Place :=
  { deck := deck, x := if d.deck = deck then d.x else 4 * attachedAt host k + 2, y := portRow host }

/-- The path of a packet from a port to a site: along the ring, into the mesh, and on (R224). -/
def inboundRoute (net : Net) (host : Bool) (deck k : Nat) (d : Place) : List Hop :=
  let s := inboundEntry host deck k d
  let r := portRouter host deck k (s.x / 4)
  .hem r :: ringPath r (portHem host deck (s.x / 4)) ++ [.mesh s] ++ route net s d

/-- Where a packet bound for a port leaves the mesh: in its own column on its own deck, else at the port's attachment (R224). -/
def outboundExit (host : Bool) (deck k : Nat) (s : Place) : Place :=
  { deck := deck, x := if s.deck = deck then s.x else 4 * attachedAt host k + 2, y := portRow host }

/-- The path of a packet from a site to a port: through the mesh to the edge, and along the ring (R224). -/
def outboundRoute (net : Net) (host : Bool) (deck k : Nat) (s : Place) : List Hop :=
  let d := outboundExit host deck k s
  let r := portHem host deck (d.x / 4)
  route net s d ++ .hem r :: ringPath r (portRouter host deck k (d.x / 4))

/-- The path of a packet that the engine forwards between two Zarog ports of one deck: on the ring (R224). -/
def forwardRoute (deck j k : Nat) : List Hop :=
  let r := portRouter false deck j (attachedAt false k)
  .hem r :: ringPath r (portRouter false deck k r.c)

/-! ### Headers (R215) -/

/-- SRES of a flit (Table 7.5). -/
def Flit.sres (f : Flit) : Nat := (f.slots.map (fun x => x.2.2 * 2 ^ (8 * x.1))).foldl (· + ·) 0

/-- Fields of Table 7.5, bits 89:0. -/
def Flit.fields (f : Flit) : Nat :=
  f.bank * 2 ^ 88 + f.reg * 2 ^ 81 + f.wlo * 2 ^ 78 + f.wcnt * 2 ^ 75 + bnat f.whole * 2 ^ 74 +
    (f.smask.map (fun s => 2 ^ (68 + s))).foldl (· + ·) 0 + bnat f.rfault * 2 ^ 67 + f.count * 2 ^ 51 + f.sres

/-- Fields of Table 7.3, bits 89:0: the source, the length and the mailbox. -/
def msgFields (s : Place) (len mbox : Nat) : Nat := s.deck * 2 ^ 89 + s.x * 2 ^ 81 + s.y * 2 ^ 73 + len * 2 ^ 60 + mbox * 2 ^ 56

/-- A packet's header (Tables 7.2, 7.3, 7.5). No instruction observes the type-specific fields of the other types; they are 0 here. -/
def Packet.header (k : Packet) : Nat :=
  let d := placeOf k.dst
  k.type.code * 2 ^ 124 + k.channel * 2 ^ 121 + d.deck * 2 ^ 120 + d.x * 2 ^ 112 + d.y * 2 ^ 104 + k.part * 2 ^ 99 + bnat k.sys * 2 ^ 98 + k.epoch * 2 ^ 90 +
    (match k.body with
     | .fold f => f.fields
     | .msg mbox bs => msgFields (placeOf k.src) bs.length mbox
     | _ => 0)

/-- The limbs of a slot, low limb first: WCNT words of its integer in two's complement. -/
def slotBytes (wcnt : Nat) (n : Int) : List Byte := natBytes (n % 2 ^ (64 * wcnt)).toNat (8 * wcnt)

/-- Bytes 16 to 63 of a fold flit: its slots, absent ones 0. -/
def Flit.bytes (f : Flit) : List Byte :=
  ((List.range 6).flatMap (fun s => match f.slots.find? (fun x => x.1 == s) with
    | some x => slotBytes f.wcnt x.2.1
    | none => List.replicate (8 * f.wcnt) 0)).take 48

/-- The flits of a MSG or FOLD packet, as bytes (R215): its header, what it carries, and zeros up to whole flits. -/
def Packet.wire (k : Packet) : List Byte :=
  let bs := natBytes k.header 16 ++ (match k.body with | .fold f => f.bytes | .msg _ bs => bs | _ => [])
  bs ++ List.replicate (64 * k.flits - bs.length) 0

end Sys2Proof.Machine
end

