-- ==== Sys2Proof/Tests/Slice0.lean ====
section
/-!
SUPPORT. Tests: what well-formedness turns down, and for every statement a concrete state and operands that meet its
hypotheses together.
-/
namespace Sys2Proof.Tests

open Sys2Proof.Machine Sys2Proof.Safety

-- One theorem is elaborated after the other: each thread's stack counts against the memory limit.
set_option Elab.async false

/-! ### Small states -/

/-- The first site of the engine. -/
def at0 : Loc := { field := 0, site := 0 }
/-- Its first hart. -/
def h0 : Hart := { loc := at0, thread := 0 }
/-- An instance of threads 0 and 1 with all four banks, a code region of four granules, and a data region above it. -/
def inst0 : Instance := { threads := [0, 1], ctxs := [0], banks := 15, claims := [(0, true), (1, false)], redFirst := 0, redCnt := 1 }
/-- A tile whose threads 0 and 1 run that instance; thread 0 has vector context 0, x1 = 0x4000 and x2 = 64. -/
def tile0 : Tile :=
  { threads := [(0, { run := .running, regs := [(1, 0x4000), (2, 64), (3, 0x6000)], vctx := some 0 }), (1, { run := .running })]
    region := [(0, regWord 4 400 true 0 false 0 0), (1, regWord 0 4 false 1 false 0 0)]
    inst := [(0, inst0)] }
/-- A state with that one tile changed. -/
def stateOf (ti : Tile) : State := { eng := { tiles := [(0, ti)] } }
/-- The state with one running instance. -/
def run0 : State := stateOf tile0
/-- The same with scalar registers of thread 0. -/
def runX (l : List (Nat × Word)) : State :=
  stateOf (tile0.modThread 0 (fun th => { th with regs := l }))
/-- The state with an engine. -/
def withE (e : Engine) : State := { eng := e }
/-- The tile with a scratchpad. -/
def spState (sp : Memory) : State := stateOf { tile0 with sp := sp }
/-- Partition 0 owns field 0. -/
def part0 : Part := { fields := 1, state := .idle }
/-- The state with one running instance in partition 0. -/
def owned0 (ti : Tile) : State := withE { tiles := [(0, ti)], parts := [(0, part0)] }

/-! ### Well-formedness turns down what does not exist -/

theorem test_wf_accepts : (Instr.add { loc := { field := 95, site := 719 }, thread := 63 } {}).wf = true := by decide
theorem test_wf_hart_field : (Instr.add { loc := { field := 96, site := 0 }, thread := 0 } {}).wf = false := by decide
theorem test_wf_hart_site : (Instr.add { loc := { field := 0, site := 720 }, thread := 0 } {}).wf = false := by decide
theorem test_wf_hart_thread : (Instr.add { loc := at0, thread := 64 } {}).wf = false := by decide
theorem test_wf_site : (Instr.mmaComplete { field := 0, site := 720 }).wf = false := by decide
theorem test_wf_function : (Instr.flr (.vf 256)).wf = false := by decide
theorem test_wf_port_function : (Instr.flr (.pf 8)).wf = false := by decide

/-- Headers whose fields do not fit Table 11.9. -/
theorem test_wf_header :
    ∀ hd ∈ ([{ fn := .pf 8 }, { fn := .vf 256 }, { fn := .pf 0, tag := 65536 }, { fn := .pf 0, tick := 2 ^ 64 }, { fn := .pf 0, part := 32 },
      { fn := .pf 0, muted := true }] : List Hdr), (Instr.partPause hd).wf = false := by decide

/-- A step, a request or a register command that names a unit outside Table 0.4. -/
theorem test_wf_units_low :
    ∀ i ∈ ([.msgDelivery at0 16, .allSignalCombine 32 0 0, .stepBegin 32, .scheduledActionHold 32, .stepClose 32, .stepHalt 32, .stepReexecute 32,
      .promptFetch 32768 none, .heldPacketWrite 32768, .lossStoreDrain 32, .tokenDelivery 256 .good 0, .scheduledCommandApply 2 0 false false,
      .ledgerHeadRead 8 0 false, .ledgerHeadRead 0 2 false, .ledgerAck 8 0 0, .ledgerAck 0 2 0, .rcCounterRead (.fab 2) false,
      .rcCounterRead (.disp 2) false, .rcCounterRead (.lost 8 0) false, .rcCounterRead (.lost 0 2) false, .rcCounterRead (.drops (.vf 256)) false,
      .vfAssignWrite 8 0 0, .vfAssignWrite 0 256 0, .spRegionWrite at0 64 0, .pcieLinkDown 8, .pcieLinkUp 8 6 16, .hotReset 8,
      .hemReservation at0 2 false 1, .packetArrival 0 false [{ field := 96, site := 0 }], .xstopDisabled 96 0 false, .xstopDisabled 0 36 false] : List Instr), i.wf = false := by decide

/-- A tile, slab, image or Zarog event that names a unit there is not. -/
theorem test_wf_units_middle :
    ∀ i ∈ ([.proxyRead at0 (.kvSlot 4110) at0, .proxyRead at0 (.nvPage 58464) at0, .proxyRead at0 (.kvSlot 0) { field := 96, site := 0 },
      .bankGuarded at0 32, .guardConversionDone at0 32, .dramRefresh 96, .slotZeroFillDone at0 4110, .kvReserveFetch at0 0 4110 [],
      .reserveCacheFill at0 16 0 [], .blobTransfer 64 at0, .fieldVerify 96 [], .repairWrite 64 0 at0, .mapWindowStageDone 32,
      .sliceReimprintVerified at0 64, .fieldSetRebindStage 32, .zportSignalDetect 24, .zportTrainDone 24, .zportTrainTimeout 24,
      .zportAlignDone 24 0 0, .zportAlignTimeout 24, .zportCreditDone 24 0, .zportCreditTimeout 24, .zportLossOfSignal 24, .zportBackoffElapsed 24,
      .zportUpStable 24, .zarogCodewordReceive 24 { seq := 0, errors := 0 }, .zarogNak 24 0, .zportReplayLimit 24,
      .linkFlit 24 { credits := [], ack := 0, stopMask := 0 }, .zarogModuleInsert 24 0 0, .portConnectorFault (.pcie 8),
      .portConnectorFault (.zarog 24), .paceExchange 24 { offsetNs := 0, delayOutNs := 0, delayInNs := 0, master := 0, hops := 0 },
      .zarogPacketReceive 24 { type := 1, vc := 0, dnode := 0, snode := 0, dpart := 0, epoch := 0, ttl := 0, sys := false, dvtile := 0, mbox := 0,
                               siteSum := 0, payload := [] }] : List Instr), i.wf = false := by decide

/-- An epoch, span, pair, supervisor or power event that names a unit there is not. -/
theorem test_wf_units_high :
    ∀ i ∈ ([.epochPrepare { part := 32, epoch := 0, what := .modes {}, tick := 0, deadline := 0, coordinator := 0 }, .epochAck 32 0 true,
      .epochDecision 32 0 true, .epochDeadline 32, .epochDecisionResend 32, .spanAnnounce 0 4 0, .spanBatchReceive 32 [] [],
      .spanBatchReceive 0 [] [({ field := 96, site := 0 }, [])], .spanHandoff 32 0 [], .spanRecordsReturn 32 0 [], .spanAcceptedPath 32 [], .pairReady 32,
      .mirrorDigest 32 0, .standbyReplication 32 { stepNo := 0, reqs := [], kv := [], freed := [], adapter := [] }, .replicationAck 32 0,
      .chairRequest 2 true, .chairOnlyWrite 2 (.nvEnable true), .chairOnlyWrite 0 (.darnMap 96 0 0), .chairOnlyWrite 0 (.darnMap 0 696 0),
      .chairOnlyWrite 0 (.darnSite 0 720 .active), .chairVote (some (3, .none)), .chairVote (some (0, .deck 2)), .watchdogWrite 2, .watchdogRestart 2,
      .controllerRestartDone 2, .phaseOvercurrent 96 0 0, .phaseOvercurrent 0 12 0, .phaseShed 96 0 .blind, .phaseDisagreement 96, .deckShort 2 0,
      .deckShort 0 5, .softStartRetry 2 none, .softStartRetry 0 (some 5), .crackDrop 96 0 0, .sensorSample 96 (List.replicate 48 0), .sensorSample 0 [], .thermalDecision [(60, 0, 0)],
      .thermalTrip 96 0 0, .thermalTrip 0 4 0, .thermalTrip 0 0 36, .thermalTrip 0 1 4, .leak 6 false, .bridgeLaneDisabled 36,
      .phaseDisagreementClear 96] : List Instr), i.wf = false := by decide

/-! ### The block as a whole: states and commands that meet the hypotheses -/

theorem witness_StepRunsTheFrontCommand_idle : State.reset.pending = [] ∧ State.reset.eng.power.state ≠ .off := by decide
theorem witness_StepRunsTheFrontCommand_off :
    (withE { power := { state := .off, target := .off, stage := 0 } }).pending = [] ∧
      (withE { power := { state := .off, target := .off, stage := 0 } }).eng.power.state = .off := by decide
theorem witness_EveryNamedCommandCompletes_named : (Instr.add { loc := { field := 95, site := 719 }, thread := 63 } {}).named = true := by decide
theorem witness_EveryNamedCommandCompletes_unnamed : (Instr.add { loc := at0, thread := 64 } {}).named = false := by decide
theorem witness_PaceNowNeverJumps_exec : ∃ t, exec .journalBucketRefill State.reset = .next t := ⟨_, rfl⟩
theorem witness_PaceNowNeverJumps_stage :
    ∃ t, exec (.powerUpStage { paceValue := 7 }) (withE { power := { state := .off, target := .ready, up := true, stage := 3 }, pace := { src := 2 } }) = .next t :=
  ⟨_, rfl⟩
theorem witness_PaceNowNeverJumps_step : ({ now := 2 ^ 64 - 1 } : State).now < 2 ^ 64 ∧ ∃ t, step { now := 2 ^ 64 - 1 } = .next t :=
  ⟨by decide, _, rfl⟩
theorem witness_CanonicalFormKept : stateWf run0 = true ∧ ∃ t, step { run0 with pending := [.stb h0 { a := 1, b := 2 }] } = .next t := ⟨by decide, _, rfl⟩
theorem witness_TileInstructionsStayLocal : (Instr.add h0 {}).hart = some h0 ∧ ∃ t, exec (.add h0 {}) run0 = .next t := ⟨rfl, _, rfl⟩
theorem witness_TileInstructionsStayLocal_tiles : locKey { field := 95, site := 719 } ≠ locKey at0 := by decide
theorem witness_ScalarExceptions :
    issues run0 h0 {} = true ∧ aluLegal { c := 1 } = false ∧ aluLegal {} = true ∧ aluLegal { alt := true, imm := 0xFFFFFFFF } = true ∧
      fieldsOk true true false false { b := 1 } (({ b := 1 } : Opnd).imm == 0) = false ∧ fieldsOk true true false false {} (({} : Opnd).imm == 0) = true := by decide
theorem witness_ScalarExceptions_corners :
    let s := runX [(1, BitVec.intMin 64), (2, BitVec.allOnes 64)]
    issues s h0 {} = true ∧ aluLegal { d := 3, a := 1, b := 2 } = true ∧ (thr s h0).x 1 = BitVec.intMin 64 ∧ (thr s h0).x 2 = BitVec.allOnes 64 ∧
      (thr s h0).x 4 = 0 := by decide
theorem witness_HistogramBins : monitorScale 0 = some (16384, 2) ∧ State.reset.eng.samples 0 = true := by decide
theorem witness_NanRules :
    issuesVec run0 h0 {} = true ∧ 63 < laneN (isBf {}) ∧ 127 < laneN (isBf { imm := 0x40000000 }) ∧ vlegal true false 0 {} = true ∧
      vlegal true false 4 { imm := 0x50000000 } = true := by decide
theorem witness_NanRules_lanes :
    let s := stateOf { tile0 with vregs := [(1, 0x7FC0000080000000), (2, 0x3F80000000000000)] }
    let x := seen s h0 0
    let w : Opnd := { d := 3, a := 1, b := 2 }
    raw x w w.a 0 = 2 ^ 31 ∧ raw x w w.b 0 = 0 ∧ raw x w w.a 1 / 2 ^ 23 % 256 = 255 ∧ raw x w w.a 1 % 2 ^ 23 ≠ 0 ∧ raw x w w.b 1 / 2 ^ 23 % 256 ≠ 255 := by decide +kernel

/-! ### Tile instructions -/

theorem witness_ScalarResults :
    issues run0 h0 {} = true ∧ aluLegal { d := 1, a := 1, b := 2 } = true ∧ fieldsOk true true false false { d := 1, a := 1 } true = true ∧
      fieldsOk true true false false { d := 1, a := 1, imm := 0xFFFFFFFF } true = true := by decide
theorem witness_ScratchpadResults_load :
    let c := seen run0 h0 0
    fieldsOk true true false false { d := 3, a := 1, imm := 8 } true = true ∧ (0x4008 : Nat) % 8 = 0 ∧ c.ti.firstOutside c.i 0x4008 8 = none ∧
      c.ti.fillingIn 0x4008 8 = false ∧ c.ti.firstBad 0x4008 8 = none := by decide
theorem witness_ScratchpadResults_store :
    let c := seen run0 h0 0
    fieldsOk false true true false { a := 1, b := 2 } true = true ∧ c.ti.firstOutside c.i 0x4000 8 = none ∧ c.ti.firstFilling 0x4000 8 = none := by decide
theorem witness_ScratchpadResults_atomic :
    let c := seen run0 h0 0
    fieldsOk true true true false { d := 3, a := 1, b := 2 } true = true ∧ ((thr run0 h0).x 1).toNat % 8 = 0 ∧ c.ti.firstOutside c.i 0x4000 8 = none ∧
      c.ti.firstFilling 0x4000 8 = none ∧ c.ti.firstBad 0x4000 8 = none := by decide
theorem witness_VectorScratchpadResults_rows :
    let c := seen run0 h0 0
    issuesVec run0 h0 {} = true ∧ fieldsOk true true false false { d := 31, a := 1, imm := 31 } (decide ((31 : BitVec 32).toNat < 32)) = true ∧
      fieldsOk false true false true { c := 31, a := 1, imm := 31 } (decide ((31 : BitVec 32).toNat < 32)) = true ∧ ((thr run0 h0).x 1).toNat % 8192 = 0 ∧
      ∀ k < 32, c.ti.firstOutside c.i (0x4000 + 256 * 31 + 8 * k) 8 = none ∧ c.ti.fillingIn (0x4000 + 256 * k + 8 * 31) 8 = false ∧
        c.ti.firstOutside c.i (0x4000 + 256 * k + 8 * 31) 8 = none ∧ c.ti.firstBad (0x4000 + 256 * k + 8 * 31) 8 = none := by decide
theorem witness_VectorScratchpadResults_strided :
    let c := seen run0 h0 0
    fieldsOk true true true false { d := 1, a := 1, b := 2 } true = true ∧ ((thr run0 h0).x 2).toNat % 8 = 0 ∧
      ∀ k < 32, c.ti.firstOutside c.i ((0x4000 + k * 64) % 2 ^ 64) 8 = none ∧ c.ti.firstBad ((0x4000 + k * 64) % 2 ^ 64) 8 = none := by decide
theorem witness_VectorScratchpadResults_unpack :
    let c := seen run0 h0 0
    let f := (fmtOf 3).getD (.int 1)
    fieldsOk true true true false { d := 1, a := 1, b := 3, imm := 19 } (decide ((19 : BitVec 32).toNat < 32) && decide (mod { imm := 19 } 3 0 ≤ 9)) = true ∧
      c.ti.firstOutside c.i 0x4000 f.bytes = none ∧ c.ti.firstOutside c.i 0x6000 4 = none ∧
      (rawBlock f (c.take 0x4000 f.bytes).1 ((c.take 0x4000 f.bytes).2.take 0x6000 4).1).good f = true := by decide
theorem witness_ControlResults_branch :
    let c := seen run0 h0 0
    let w : Opnd := { a := 1, b := 2, imm := 2047 }
    let rel := (BitVec.ofNat 64 (thr run0 h0).pc.toNat + w.imm.signExtend 64 * 8).toNat
    fieldsOk false true true false w true = true ∧ rel % 8 = 0 ∧ c.ti.claimed c.i (some 1) rel = true ∧ (thr run0 h0).x 1 ≠ (thr run0 h0).x 2 ∧
      fieldsOk true false false false { d := 31, imm := 2047 } true = true ∧ fieldsOk true true false false { d := 31, a := 2 } true = true ∧
      c.ti.claimed c.i (some 1) 64 = true := by decide
theorem witness_ControlResults_wait :
    let c := seen run0 h0 0
    let busy := seen (stateOf { tile0 with movQ := [{ thread := 0, slot := 0 }] }) h0 0
    fieldsOk false false false false { imm := 255 } true = true ∧ c.ti.fenceOpen 0 255 = false ∧ busy.ti.fenceOpen 0 255 = true ∧
      (BitVec.ofNat 32 (mget (fun _ => 0) 5 c.i.cnt) - ((thr run0 h0).x 4).extractLsb' 0 32).toInt = 0 ∧
      (BitVec.ofNat 32 (mget (fun _ => 0) 5 c.i.cnt) - ((thr run0 h0).x 2).extractLsb' 0 32).toInt < 0 ∧
      fieldsOk true false false false { d := 1, imm := 13 } ((13 : Nat) < 6 || (decide (8 ≤ 13) && decide (13 ≤ 13))) = true := by decide
theorem witness_BarrierResults :
    let last := stateOf (tile0.modThread 1 (fun th => { th with run := .waiting, barrier := some 15 }))
    issues last h0 {} = true ∧ fieldsOk false false false false { imm := 15 } (decide ((15 : BitVec 32).toNat < 16)) = true ∧
      (∀ j ∈ (seen last h0 0).i.threads, j = h0.thread ∨ ((seen last h0 0).ti.thread j).ended = true ∨ ((seen last h0 0).ti.thread j).barrier = some 15) ∧
      ∃ j ∈ (seen run0 h0 0).i.threads, j ≠ h0.thread ∧ ((seen run0 h0 0).ti.thread j).ended = false ∧ ((seen run0 h0 0).ti.thread j).barrier ≠ some 15 := by decide
theorem witness_LaneResults :
    issuesVec run0 h0 {} = true ∧ vlegal true true 0 { d := 1, a := 2, b := 3, c := 4 } = true ∧ vlegal true false 2 { imm := 0x08000000 } = true ∧
      (vlegal (mod { imm := 0x10000000 } 29 26 == 0) false 4 { imm := 0x10000000 } && !isBf { imm := 0x10000000 }) = true ∧
      fieldsOk true true false false { d := 1, a := 2, imm := 0x4000007F } (decide (mod { imm := 0x4000007F } 31 30 ≤ 1) &&
        mod { imm := 0x4000007F } 29 7 == 0 && decide (mod { imm := 0x4000007F } 6 0 < laneN (isBf { imm := 0x4000007F }))) = true := by decide

theorem witness_LongRegisterResults :
    let c := seen run0 h0 0
    issuesVec run0 h0 {} = true ∧ c.i.banks.testBit (lBank {}) = true ∧ lRange { imm := 0x003F0000 } = true ∧
      fieldsOk false true false false { a := 1 } (decide (lCnt {} ≤ 63) && (modBit {} 15 || !modBit {} 14) && mod {} 12 0 == 0) = true ∧
      fieldsOk false false false false {} (mod {} 15 0 == 0) = true ∧ fieldsOk true false false false { d := 1 } (decide (lCnt {} ≤ 63) && mod {} 14 0 == 0) = true ∧
      c.ti.bankBusy 0 = false ∧ lMismatch c {} = none := by decide +kernel
theorem witness_LongRegisterResults_expect :
    let busy := seen (stateOf { tile0 with pend := [(3, 1)] }) h0 0
    issues (stateOf { tile0 with pend := [(3, 1)] }) h0 { imm := 0xC000FFFF } = true ∧ fieldsOk false false false false { imm := 0xC000FFFF } (mod { imm := 0xC000FFFF } 29 16 == 0) = true ∧ busy.i.banks.testBit (lBank { imm := 0xC000FFFF }) = true ∧
      busy.ti.bankBusy (lBank { imm := 0xC000FFFF }) = true ∧ busy.ti.bankBusy 0 = false := by decide +kernel
theorem witness_EmitResults_scalar :
    let c := seen run0 h0 (wordOf 5 1 {})
    let x := seen run0 h0 (wordOf 5 3 {})
    issuesVec run0 h0 {} = true ∧ ((mod {} 13 0 == 0) && (lMismatch c {}).isNone) = true ∧ divisorBusy x {} = false ∧
      (ldivMod {} && (ldivMismatch x {}).isNone && (!modBit {} 13 || x.i.banks.testBit (mod {} 12 11))) = true ∧
      fieldsOk true false false true {} (lRange {} && decide (lCnt {} ≤ 63)) = true ∧ c.i.banks.testBit (lBank {}) = true ∧ c.ti.bankBusy (lBank {}) = false := by
  decide +kernel
theorem witness_EmitResults_block :
    let w : Opnd := { a := 1, b := 3, imm := 0x001F0000 }
    let c := seen run0 h0 (wordOf 5 2 w)
    issues run0 h0 w = true ∧ ((mod w 13 0 == 0) && (lMismatch c w).isNone) = true ∧ fieldsOk false true true true w (lRange w && lCnt w == 31) = true ∧
      c.i.banks.testBit (lBank w) = true ∧ c.ti.bankBusy (lBank w) = false ∧ c.ti.firstOutside c.i 0x4000 32 = none ∧ c.ti.firstFilling 0x4000 32 = none ∧
      c.ti.firstOutside c.i 0x6000 4 = none ∧ c.ti.firstFilling 0x6000 4 = none := by decide +kernel
theorem witness_EmitResults_divide :
    let w : Opnd := { a := 1, b := 3, imm := 0x001F0000 }
    let c := seen run0 h0 (wordOf 5 4 w)
    divisorBusy c w = false ∧ (ldivMod w && (ldivMismatch c w).isNone && (!modBit w 13 || c.i.banks.testBit (mod w 12 11))) = true := by decide +kernel
theorem witness_FoldSendResults :
    let sp := writeNat [] (redAddr 0) (2 ^ 63 + 2 ^ 62 + 2 ^ 56) 8
    let s := owned0 { tile0 with sp := sp }
    let c := seen s h0 (wordOf 5 0x0A {})
    let r := c.ti.red 0
    issues s h0 {} = true ∧ fieldsOk false false false false {} (lRange {} && mod {} 15 8 == 0) = true ∧ c.i.banks.testBit (lBank {}) = true ∧ c.i.redFirst ≤ 0 ∧
      0 < c.i.redFirst + c.i.redCnt ∧ c.ti.firstBad (redAddr 0) 128 = none ∧ r.valid = true ∧ r.owner 0 = some 0 ∧ lIdx {} = [0] ∧ c.e.inGrid c.i.part 0 = true ∧
      c.ti.bankBusy (lBank {}) = false ∧ (foldRun c {} r).bad = none := by decide +kernel
theorem witness_FoldSendResults_residue :
    let sp := writeNat [] (redAddr 0) (2 ^ 63 + 2 ^ 62 + 2 ^ 56) 8
    let s := owned0 { tile0 with sp := sp, lregs := [(0, { value := 1, res := 2 })] }
    let c := seen s h0 (wordOf 5 0x0A {})
    (foldRun c {} (c.ti.red 0)).bad = some 0 := by decide +kernel
theorem witness_MatrixResults :
    let w : Opnd := { a := 1, b := 3, imm := 0x1F000000 }
    let c := seen run0 h0 (wordOf 6 0 w)
    let wn := arrayBytes (mmaW w) (mmaG w)
    let an := arrayBytes (mmaA w) (mmaP w)
    issues run0 h0 w = true ∧ fieldsOk false true true false w (mod w 21 0 == 0 && mod w 23 22 != 3) = true ∧ c.i.banks.testBit (mod w 31 30) = true ∧
      c.ti.firstOutside c.i 0x4000 wn = none ∧ c.ti.firstOutside c.i 0x6000 an = none ∧ c.ti.matQ.length < 4 ∧ c.ti.fillingIn 0x4000 wn = false ∧
      c.ti.fillingIn 0x6000 an = false ∧ c.ti.firstBad 0x4000 wn = none ∧ c.ti.firstBad 0x6000 an = none ∧
      (∀ x ∈ arrayBlocks (mmaW w) (mmaG w) (c.take 0x4000 wn).1, x.good (mmaW w) = true) ∧
      ∀ x ∈ arrayBlocks (mmaA w) (mmaP w) ((c.take 0x4000 wn).2.take 0x6000 an).1, x.good (mmaA w) = true := by decide +kernel
theorem witness_MatrixResults_full :
    let j : MmaJob := { thread := 0, slot := 0, bank := 0, adds := [], occ := 6 }
    let s := stateOf { tile0 with matU := [j], matQ := [j, j, j, j] }
    issues s h0 {} = true ∧ locOk at0 = true ∧ 4 ≤ (seen s h0 0).ti.matQ.length ∧ (s.eng.tile at0).matU = [j] ∧ (run0.eng.tile at0).matU = [] ∧
      (s.eng.tile at0).feedUnit = s.eng.tile at0 := by decide +kernel
/-- Weights whose stored tag disagrees. -/
theorem witness_MatrixResults_residue :
    let s := spState [(0x4000, 1)]
    let w : Opnd := { a := 1, b := 3, imm := 0x1F000000 }
    let c := seen s h0 (wordOf 6 0 w)
    issues s h0 w = true ∧ (firstBadBlock (mmaW w) 0x4000 (arrayBlocks (mmaW w) (mmaG w) (c.take 0x4000 (arrayBytes (mmaW w) (mmaG w))).1)).isSome = true := by
  decide +kernel
/-- Descriptor of a NORM pass with its row entries at 0x4100 and its result at 0x4200. -/
def normDesc : Nat := 2 ^ 194 + 2 ^ 196 + 0xFF * 2 ^ 186 + 0x4200 * 2 ^ 273 + 0x4100 * 2 ^ 294
/-- Scratchpad with that descriptor at 0x4000, one row entry and a page image at 0x4400. -/
def normSp : Memory := writeNat (writeNat (writeNat [] 0x4000 normDesc 64) 0x4100 (0x4400 * 2 ^ 32) 32) 0x4400 (0x4B50 * 2 ^ 128) 64
theorem witness_AttentionResults_descriptor :
    let s := spState normSp
    let w : Opnd := { a := 1 }
    let c := seen s h0 (wordOf 7 0 w)
    issues s h0 w = true ∧ fieldsOk false true false false w (apassModOk w) = true ∧ c.ti.firstOutside c.i 0x4000 64 = none ∧ c.ti.attQ.length < 2 ∧
      leNat (c.bytes 0x4000 64) = normDesc ∧ descOk w normDesc = true ∧ apKind normDesc = 1 ∧ apR normDesc = 0x4100 ∧ apO normDesc = 0x4200 ∧
      apRows normDesc = 1 := by decide +kernel
/-- The job that an APASS of the descriptor at 0x4000 puts into the lane's queue. -/
def passJob (s : State) : AttnJob :=
  { thread := 0, slot := 0, pc := 0, w := { a := 1 }, addr := 0x4000, sp := (s.eng.tile at0).sp, badWords := [], kvSlots := [], attend := false, banks := [] }
/-- The run that the job computes. -/
def runOf (s : State) : Option AttnRun :=
  match (jobCtx s.eng at0 (passJob s) inst0 0).startChecks { a := 1 } 0x4000 with
  | .ok r => some r
  | .error _ => none
theorem witness_AttentionResults_checks :
    let c := seen (spState normSp) h0 (wordOf 7 0 { a := 1 })
    c.ti.fillingIn 0x4000 64 = false ∧ c.passWaits { a := 1 } normDesc = false ∧ c.passSlots normDesc = [] ∧ c.ti.attQ = [] := by decide +kernel
theorem witness_AttentionResults_starts : (runOf (spState normSp)).isSome = true := by decide +kernel
theorem witness_AttentionResults_refused : runOf run0 = none ∧ issues run0 h0 { a := 1 } = true ∧ (seen run0 h0 (wordOf 7 0 { a := 1 })).ti.attQ = [] := by
  decide +kernel
theorem witness_AttentionResults_queue :
    let r : AttnRun := { clears := [], adds := [], ad := {}, writes := [], flushedIn := 0, flushedTerms := 0, violations := 0 }
    let j := { passJob run0 with run := some r }
    let s := stateOf { tile0 with sp := normSp, attQ := [j] }
    let full := stateOf { tile0 with attQ := [j, passJob run0] }
    issues s h0 { a := 1 } = true ∧ (seen s h0 0).ti.attQ = [j] ∧ j.run.isSome = true ∧ 2 ≤ (seen full h0 0).ti.attQ.length ∧ (full.eng.tile at0).attQ = [j, passJob run0] ∧
      (((run0.eng.tile at0).attQ.head?.bind (·.run)).isSome = false) := by decide +kernel
theorem witness_MoverResults :
    let s := runX [(1, 0x4000), (2, 0x6000), (3, 8)]
    let c := seen s h0 0
    issues s h0 {} = true ∧ c.ti.movQ.length < 8 ∧ fieldsOk false true true true { a := 1, b := 2, c := 3 } true = true ∧ ((thr s h0).x 2).toNat % 8192 = 0 ∧
      c.ti.firstOutside c.i 0x4000 8192 = none ∧ c.ti.firstOutside c.i 0x6000 8192 = none ∧ c.ti.firstFilling 0x4000 8192 = none ∧
      c.ti.fillingIn 0x6000 8192 = false ∧ c.ti.firstBad 0x6000 8192 = none ∧ c.ti.pendingDrd 0x6000 8192 = false := by decide
theorem witness_MoverResults_fill :
    let s := runX [(1, 0x4000), (2, 0x6000), (3, 8)]
    let c := seen s h0 0
    ((thr s h0).x 2).toNat = 0x6000 ∧ c.ti.firstOutside c.i 0x4000 0x6000 = none ∧ c.ti.firstFilling 0x4000 0x6000 = none ∧
      ({ a := 1, b := 2, c := 3 } : Opnd).imm = 0 := by decide
theorem witness_MoverResults_complete :
    let j : MoverJob := { thread := 0, slot := 0 }
    ((stateOf { tile0 with movQ := [j] }).eng.tile at0).movQ = [j] ∧ 8 ≤ (seen (stateOf { tile0 with movQ := List.replicate 8 j }) h0 0).ti.movQ.length := by decide
theorem witness_SlabPortResults_read :
    let ti : Tile := { tile0 with ext := [(0, 0x80000000)], resident := [(0, 32)], region := [(0, regWord 4 400 true 2 false 0 0), (1, regWord 0 4 false 1 false 0 0)] }
    let s := withE { tiles := [(0, ti.modThread 0 (fun th => { th with regs := [(1, 0x4000), (3, 0x1000)] }))], parts := [(0, { part0 with image := some 0 })] }
    let c := seen s h0 (wordOf 9 0 {})
    issues s h0 {} = true ∧ fieldsOk false true true true { a := 1, c := 3, imm := 31 } (mod { imm := 31 } 31 8 == 0) = true ∧ c.ti.firstOutside c.i 0x4000 0x1000 = none ∧
      c.inWindow 0x4000 0x1000 = true ∧ c.pagesOk 0 32 = true ∧ c.ti.nvQ.length < 16 := by decide
theorem readBytes_empty (n a : Nat) : readBytes [] a n = List.replicate n 0 := by
  induction n generalizing a with
  | zero => rfl
  | succ n ih => simp only [readBytes, ih, List.replicate_succ]; rfl
/-- A page that holds only zeros has no run, so it unpacks to nothing. -/
theorem unpackPage_zeros : unpackPage (List.replicate pageBytes 0) = [] := by
  have z : ∀ j < 8, bytesAt (List.replicate pageBytes 0) (16384 + 8 * j) 8 = 0 := fun j hj => by
    have : min 8 (pageBytes - (16384 + 8 * j)) = 8 := by simp only [pageBytes]; omega
    simp only [bytesAt, List.drop_replicate, List.take_replicate, this]; decide
  have r : pageRuns (List.replicate pageBytes 0) = [] := by
    simp only [pageRuns, List.filterMap_eq_nil_iff, List.mem_range]
    intro j hj
    simp only [z j hj]
    decide
  simp only [unpackPage, r, unpackRuns]
theorem witness_SlabPortResults_complete :
    let j : NvJob := { thread := 0, slot := 0, pc := 0, dst := 0x4000, len := 0x1000, first := 0, count := 1, offs := some (0, 0) }
    let s := stateOf { tile0 with nvQ := [j] }
    (s.eng.tile at0).nvQ = [j] ∧ (∀ k, (s.eng.tile at0).viaChain 0 k = false) ∧ (s.eng.tile at0).recv = [] ∧
      (nvRead (s.eng.tile at0).page (j.fails []) j.count j.first j.len).2 = .complete := by
  refine ⟨rfl, fun _ => rfl, rfl, ?_⟩
  have e : ∀ ti : Tile, ti.nv = [] → (nvRead ti.page (fun _ => false) 1 0 0x1000).2 = .complete := fun ti h => by
    have : ti.page 0 = List.replicate pageBytes 0 := by rw [Tile.page, h]; exact readBytes_empty _ _
    simp only [nvRead, this, unpackPage_zeros]
    rfl
  exact e _ rfl
/-- How a descriptor's pages end: 0 complete, 1 uncorrectable, 2 overrun. -/
def endKind : NvEnd → Nat
  | .complete => 0
  | .uncorr _ => 1
  | .overrun _ => 2
/-- A page that fails its first read and every retry; and one whose single run the destination does not hold. -/
theorem witness_SlabPortResults_failed :
    let j : NvJob := { thread := 0, slot := 0, pc := 0, dst := 0x4000, len := 0x1000, first := 0, count := 1, offs := some (0, 0) }
    j.fails [(0, 0), (0, 12), (0, -12), (0, 24), (0, -24)] 0 = true ∧ j.fails [(0, 0), (0, 12), (0, -12)] 0 = false ∧
      endKind (nvRead tile0.page (j.fails [(0, 0), (0, 12), (0, -12), (0, 24), (0, -24)]) j.count j.first j.len).2 = 1 ∧
      endKind (nvRead (fun _ => List.replicate 16384 1 ++ [0, 0, 0, 0x20, 0, 0, 0, 0x80]) (fun _ => false) 1 0 0).2 = 2 := by
  decide +kernel
theorem witness_SlabPortResults_dram :
    let s := runX [(1, 0x4000), (2, 16384 * 4109), (3, 16384)]
    let c := seen s h0 (wordOf 9 2 {})
    issues s h0 {} = true ∧ fieldsOk false true true true { a := 1, b := 2, c := 3 } true = true ∧ c.ti.firstOutside c.i 0x4000 16384 = none ∧
      c.ti.kvLo ≤ 4109 ∧ 4109 ≤ c.ti.kvHi ∧ 16384 * 4109 + 16384 ≤ kvBytes ∧ c.ti.dramQ.length < 32 ∧ c.ti.fillingIn 0x4000 16384 = false := by decide
theorem witness_SlabPortResults_dram_complete :
    let j : DramJob := { thread := 0, slot := 0, pc := 0, write := true, sp := 0x4000, slab := 0, len := 64, data := List.replicate 64 1 }
    let s := stateOf { tile0 with dramQ := [j, { j with write := false, slab := 16384 }] }
    (s.eng.tile at0).dramQ[1]? = some { j with write := false, slab := 16384 } ∧ dramStarted (s.eng.tile at0).dramQ 1 = true ∧
      (s.eng.tile at0).kvBad.contains 1 = false ∧ dramStarted (s.eng.tile at0).dramQ 0 = true := by decide
theorem witness_MessageResults_send :
    let s := owned0 (tile0.modThread 0 (fun th => { th with regs := [(1, 0x4000), (2, 0x0F000000), (3, 4096)] }))
    let c := seen s h0 (wordOf 0xA 0 {})
    issues s h0 {} = true ∧ c.e.inGrid c.i.part 0x0F000000 = true ∧ c.e.locOfV c.i.part 0x0F000000 = some at0 ∧ c.ti.firstOutside c.i 0x4000 4096 = none ∧
      c.ti.sendQ.length < 16 := by decide
theorem witness_MessageResults_complete :
    let j : SendJob := { thread := 0, slot := 0, pkt := { src := at0, dst := at0, part := 0, sys := false, epoch := 0, body := .msg 15 [] } }
    ((stateOf { tile0 with sendQ := [j] }).eng.tile at0).sendQ = [j] ∧ j.pkt.body ≠ .other := by decide
theorem witness_MessageResults_receive :
    let s := runX [(1, 0x4000), (2, 64)]
    fieldsOk false true true false { a := 1, b := 2, imm := 15 } (decide ((15 : BitVec 32).toNat < 16)) = true ∧ (seen s h0 0).ti.firstOutside (seen s h0 0).i 0x4000 64 = none := by decide
theorem witness_MessageResults_delivery :
    let p : Packet := { src := at0, dst := at0, part := 0, sys := false, epoch := 0, body := .msg 15 (List.replicate 8 1) }
    let s := stateOf { tile0 with held := [p], mbox := [(15, { addr := 0x4000, len := 8, slot := some 0 })] }
    takeHeld 15 (s.eng.tile at0).held = some (List.replicate 8 1, []) ∧ (mget (fun _ => ({} : Mailbox)) 15 (s.eng.tile at0).mbox).slot = some 0 ∧
      (mget (fun _ => ({} : Mailbox)) 15 (s.eng.tile at0).mbox).off + 8 ≤ (mget (fun _ => ({} : Mailbox)) 15 (s.eng.tile at0).mbox).len := by decide
theorem witness_ResidueResults :
    let w : Opnd := { a := 1, b := 3, imm := 10 }
    let c := seen run0 h0 (wordOf 0xB 0 w)
    let f := (fmtOf (mod w 3 0)).getD (.int 1)
    fieldsOk false true false false { a := 1, imm := 10 } (decide (mod w 3 0 ≤ 10) && mod w 7 4 == 0 && mod w 31 13 == 0) = true ∧
      fieldsOk true true true false { d := 4, a := 1, b := 3, imm := 10 } (decide (mod w 3 0 ≤ 10) && mod w 31 4 == 0) = true ∧
      c.ti.firstOutside c.i 0x4000 (arrayBytes f 1) = none ∧ (∀ x ∈ arrayBlocks f 1 (c.bytes 0x4000 (arrayBytes f 1)), x.good f = true) := by decide +kernel
theorem witness_ResidueResults_bad :
    let c := seen (spState [(0x4000, 1)]) h0 (wordOf 0xB 0 { a := 1 })
    let f := (fmtOf 0).getD (.int 1)
    (firstBadBlock f 0x4000 (arrayBlocks f 1 (c.bytes 0x4000 (arrayBytes f 1)))).isSome = true := by decide +kernel
theorem witness_TileExceptions :
    let s := stateOf { tile0 with filling := [5], badWords := [0x800] }
    let ti := s.eng.tile at0
    let i := (ti.instOf (thr s h0).task).getD {}
    issues s h0 {} = true ∧ aluLegal { c := 1 } = false ∧ fieldsOk true true false false { b := 1 } true = false ∧ ti.firstOutside i 0x1FC000 8 = some 0x1FC000 ∧
      ti.firstOutside i 0x5000 8 = none ∧ ti.fillingIn 0x5000 8 = true ∧ ti.firstFilling 0x5000 8 = some 5 ∧ ti.fillingIn 0x4000 8 = false ∧
      ti.firstBad 0x4000 8 = some 0x800 ∧ (0x4001 : Nat) % 8 ≠ 0 := by decide
theorem witness_TileExceptions_wait :
    let s : State := { stateOf (tile0.modThread 0 (fun th => { th with run := .waiting, since := 1 })) with now := 1001 }
    hartOk h0 = true ∧ (thr s h0).run = .waiting ∧ (thr s h0).since + 1000 ≤ s.now ∧ ({ s with now := 1000 } : State).now < (thr s h0).since + 1000 := by decide
theorem witness_TileExceptions_ports :
    let nv : NvJob := { thread := 0, slot := 0, pc := 0, dst := 0x4000, len := 0x1000, first := 0, count := 2 }
    let d : DramJob := { thread := 0, slot := 0, pc := 0, write := false, sp := 0x4000, slab := 16384, len := 64, data := [] }
    let r : AttnRun := { clears := [], adds := [], ad := {}, writes := [], flushedIn := 0, flushedTerms := 0, violations := 0 }
    let j : AttnJob := { passJob run0 with kvSlots := [7], run := some r }
    let s := stateOf { tile0 with nvQ := [nv], dramQ := [d], attQ := [j] }
    locOk at0 = true ∧ (s.eng.tile at0).nvQ = [nv] ∧ (s.eng.tile at0).dramQ[0]? = some d ∧ dramStarted (s.eng.tile at0).dramQ 0 = true ∧
      dramStarted (s.eng.tile at0).dramQ 1 = false ∧ (s.eng.tile at0).attQ = [j] ∧ j.run.isSome = true ∧ j.kvSlots[0]? = some 7 := by decide +kernel
theorem witness_InstructionWords :
    let odd : Opnd := { other := some 0xFFF }
    let row : Opnd := { other := some 0x001 }
    mayRun run0 h0 = true ∧ lineOf 0xFFF = none ∧ (opLines[0]?.map (fun x => (x.1, x.2.1))) = some (0, 0) ∧ hasImmForm 0 0x17 = true ∧ hasImmForm 0 0x18 = false ∧
      spellsRow odd = false ∧ odd.other.isSome = true ∧ odd.ecc = [] ∧ spellsRow row = true ∧ spellsRow {} = false := by decide +kernel
theorem witness_InstructionWords_fetch :
    let s := stateOf { tile0 with badWords := [0] }
    (thr s h0).run = .running ∧ (thr s h0).ended = false ∧ s.eng.siteState at0 = .active ∧ ((s.eng.tile at0).instOf (thr s h0).task).isSome = true ∧
      (s.eng.tile at0).firstBad (thr s h0).pc.toNat 8 = some 0 := by decide +kernel
/-! ### Dispatch and steps -/

/-- A graph of one node, with an ALL edge, placed on the first site. -/
def graph0 : Graph := { state := .bound, nodes := [{ spread := [0], edges := [(1, 0, 0)] }], placed := [(0, { nodes := [(0, 0)] })] }
/-- Partition 0 with a running step of that graph. -/
def stepPart : Part := { part0 with state := .stepping, step := some {}, image := some 0 }
/-- The engine with that partition and the tile of the first site. -/
def stepE (ti : Tile) : Engine := { tiles := [(0, ti)], parts := [(0, stepPart)], graphs := [(0, graph0)], images := [(0, { state := .ready, footprint := 1 })] }
/-- The same with the step given. -/
def stepAs (st : Step) : Engine := { stepE {} with parts := [(0, { stepPart with step := some st })] }

theorem witness_DispatchResults_grant :
    let e := stepE {}
    e.steppingOn at0 = some 0 ∧ 0 ∈ e.taskIdx 0 at0 ∧ (e.tile at0).gangOf (e.taskIdx 0 at0) 0 = [0] ∧ (e.tile at0).eligible 0 = true ∧
      (∀ st, (e.part 0).step = some st → at0 ∉ st.waits) ∧ ((e.tile at0).grantAll 0 0 0 [0]).isSome = true := by
  refine ⟨by decide, by decide, by decide, by decide, ?_, by decide⟩
  intro st h
  cases h
  decide
theorem witness_DispatchResults_held :
    let ti : Tile := { sp := writeNat [] (taskAddr 0) (2 ^ 202) 32, inst := [(1, { banks := 1 })] }
    ti.eligible 0 = true ∧ ti.grantAll 0 0 0 [0] = none := by decide +kernel
theorem witness_DispatchResults_threads : (({} : Tile).freeThreads.take (tThreads (({} : Tile).task 0)))[0]? = some 0 := by decide +kernel
theorem witness_DispatchResults_release :
    let i : Instance := { threads := [0] }
    let ended := stepE { inst := [(0, i)], threads := [(0, { run := .running, ended := true })] }
    let running := stepE { inst := [(0, i)], threads := [(0, { run := .running })] }
    ended.steppingOn at0 = some 0 ∧ (ended.tile at0).instOf 0 = some i ∧ (∀ k ∈ i.threads, ((ended.tile at0).thread k).ended = true) ∧
      (ended.tile at0).queuedWork 0 = false ∧ ∃ k ∈ i.threads, ((running.tile at0).thread k).ended = false := by decide
theorem witness_DispatchResults_signal :
    let g (stag : Nat) : Signal := { part := 0, dst := at0, graph := 0, node := 0, stag := stag }
    let e := { stepE {} with signals := [g 0, g 1] }
    let due := stepE { sp := writeNat [] (taskAddr 0) (2 ^ 194) 32 }
    e.signals[0]? = some (g 0) ∧ e.signals[1]? = some (g 1) ∧ e.entryOf 0 at0 0 = some 0 ∧ tStag ((e.tile at0).task 0) = 0 ∧
      tPred ((e.tile at0).task 0) ≤ tCount ((e.tile at0).task 0) ∧ tCount ((due.tile at0).task 0) < tPred ((due.tile at0).task 0) := by decide +kernel
theorem witness_DispatchResults_all :
    let e := stepE { finished := [0] }
    let n : Node := { spread := [0], edges := [(1, 0, 0)] }
    (e.part 0).step = some {} ∧ (e.graph (e.part 0).graph).nodes[0]? = some n ∧ (∃ x ∈ n.edges, x.1 = 1) ∧ (∃ u ∈ e.spreadLocs 0 n, clusterOf u = 0) ∧
      (∀ u ∈ e.spreadLocs 0 n, clusterOf u = 0 → e.nodeEnded 0 0 u = true) ∧
      (∀ u ∈ e.spreadLocs 0 n, clusterOf u = 0 ∨ (0, clusterOf u) ∈ ({} : Step).allEnds) := by decide

/-- The engine with that partition at a boundary, and one request that decodes. -/
def readyE (cap : Nat) : Engine :=
  { stepE {} with
    parts := [(0, { stepPart with state := .idle, step := none })]
    tenants := [(0, { bound := true, enable := true })]
    reqs := [(0, { state := .decode, newest := some 7 })]
    sup := { hostCap := cap }
    decks := [(0, { fwCap := cap }), (1, { fwCap := cap })] }

theorem witness_StepCommands_not : (((stepE {}).part 0).step.isSome = true) ∧ ((readyE 0).part 0).step = none ∧ ((readyE 0).part 0).capture = false ∧
    (readyE 0).serving = true ∧ (({ readyE 0 with power := { state := .standby } } : Engine).mayStep 0 0) = false := by decide +kernel
/-- The state after the boundary is that state, so a step may begin in it wherever the cap is not below the idle draw. -/
theorem witness_StepCommands_may : (readyE Config.idleDraw).mayStep 0 0 = true := by
  have c : (readyE Config.idleDraw).capInForce = Config.idleDraw := by
    show min Config.idleDraw (min Config.idleDraw Config.idleDraw) = _
    simp
  simp only [Engine.mayStep, Engine.mayServe, c, Nat.le_refl, decide_true]
  decide +kernel
theorem witness_StepCommands_batch :
    (readyE 1).disableStops 0 = readyE 1 ∧ (readyE 1).preAssemble 0 0 = readyE 1 ∧ ((readyE 1).boundary 0 0).modPart 0 (fun q => { q with state := if q.state = .held && !((readyE 1).boundary 0 0).crosses 0 0 then .idle else q.state }) = readyE 1 ∧
      ((readyE 1).assemble 0 0).2.length = 1 ∧ (∀ x ∈ ((readyE 1).assemble 0 0).2, ((readyE 1).assemble 0 0).1.uncached 0 x.req = false) ∧
      ((readyE 1).assemble 0 0).1.mirrored 0 = false ∧ (({ readyE 1 with reqs := [] } : Engine).assemble 0 0).2 = [] := by decide +kernel
/-- A request whose one row lies in the reserve and in no cache. -/
def reserveE : Engine :=
  { readyE 1 with
    tiles := [(0, { kv := writeNat (writeNat (writeNat [] 4 1 4) 68 1 4) (16384 + 64) (2 ^ 30) 4 })]
    graphs := [(0, { graph0 with streams := [{}] })]
    reqs := [(0, { state := .decode, newest := some 7, pageHead := 0, rows := 1 })] }
theorem witness_StepCommands_uncached :
    ∃ x ∈ ((reserveE.preAssemble 0 0).assemble 0 0).2, (((reserveE.preAssemble 0 0).assemble 0 0).1.part 0).attOn = false ∧
      ((reserveE.preAssemble 0 0).assemble 0 0).1.uncached 0 x.req = true := by decide +kernel
theorem witness_StepCommands_hold :
    let m : Prepare := { part := 0, epoch := 1, what := .modes {}, tick := 1, deadline := 1, coordinator := 0 }
    let e (st : PartState) : Engine := { parts := [(0, { part0 with state := st, lastStep := 10000, prepared := some { msg := m } })] }
    (e .idle).crosses 0 0 = true ∧ ((e .held).part 0).state = .held ∧ (e .held).crosses 0 0 = true ∧ (e .held).crosses 1 0 = false := by decide
/-- A faulty express stop that a running step holds up. -/
theorem witness_StepCommands_stops :
    let e : Engine := { stepE {} with xstopDue := [(0, 3, 0)] }
    e.xstopDue ≠ [] ∧ ∃ k < 32, (e.part k).atRest = false := by decide
theorem witness_StepCommands_close :
    ((stepE { finished := [0] }).sweepDone 0 = true) ∧ ((stepE {}).sweepDone 0 = false) ∧ (stepE {}).dropEarly 0 0 = none ∧ ((stepE {}).part 0).spanLast = 0 := by decide +kernel
theorem witness_StepCommands_draw :
    (match (stepE {}).drawStep 0 {} with | .tokens _ => true | _ => false) = true ∧
      (match (stepE {}).drawStep 0 { batch := [{ kind := 1 }] } with | .fault => true | _ => false) = true := by decide +kernel
theorem witness_StepCommands_halt :
    ((stepAs { exc := { cause := some .residue } }).part 0).step = some { exc := { cause := some .residue } } ∧ causeClass .residue = 3 ∧ causeClass .illegalOp = 1 ∧
      causeClass .waitTimeout = 2 ∧ ((stepAs { exec := 3, exc := { cause := some .residue } }).part 0).step = some { exec := 3, exc := { cause := some .residue } } := by decide
theorem witness_StepCommands_again :
    ((stepAs { halted := true }).part 0).step = some { halted := true } ∧ ((stepAs { halted := true }).part 0).window = none ∧ (stepAs { halted := true }).dueCover 0 = false ∧
      (stepAs { halted := true }).xstopDue = [] := by
  decide +kernel

/-! ### Fabric, upkeep, key-value unit -/

/-- A message and a fold flit from the first site to itself. -/
def msg0 (part epoch : Nat) : Packet := { src := at0, dst := at0, part := part, sys := false, epoch := epoch, body := .msg 3 [1, 2, 3, 4, 5, 6, 7, 8] }
def flit0 (v : Int) (res : Nat) : Flit := { bank := 0, reg := 0, wlo := 0, wcnt := 1, whole := false, count := 1, slots := [(0, v, res)] }
def fold0 (v : Int) (res : Nat) : Packet := { msg0 0 0 with body := .fold (flit0 v res) }

theorem witness_FabricResults_arrival :
    let e : Engine := { parts := [(0, part0)], flight := [msg0 0 0, msg0 0 0, msg0 1 0, fold0 1 1] }
    let dark : Engine := { e with fields := [(0, { darnSite := [(0, .dark)] })] }
    e.flight[0]? = some (msg0 0 0) ∧ (∃ y ∈ e.flight.take 1, y.src = at0 ∧ y.dst = at0 ∧ y.channel = (msg0 0 0).channel) ∧ e.partOf 0 = some 0 ∧
      (∀ y ∈ e.flight.take 3, y.channel ≠ (fold0 1 1).channel) ∧ e.partOf 0 ≠ some 1 ∧ e.proxyAt (msg0 0 0) = none ∧ (∀ u ∈ [at0], locOk u = true) ∧ e.siteState at0 = .active ∧ dark.siteState at0 ≠ .active ∧ (msg0 0 0).epoch = (e.part 0).epoch := by decide
theorem witness_FabricResults_arrival_proxy :
    let x : Packet := { msg0 0 0 with sys := true, body := .proxy (.kvSlot 5) }
    let e : Engine := { fields := [(0, { darnSite := [(0, .covered)] })], flight := [x] }
    e.flight[0]? = some x ∧ x.sys = true ∧ e.siteState at0 = .covered := by decide
theorem witness_FabricResults_combine :
    combinable (fold0 1 1) (fold0 2 2) (flit0 1 1) (flit0 2 2) = true ∧ (addFlits at0 (flit0 1 1) (flit0 2 2)).inWindow = true ∧
      (addFlits at0 (flit0 (2 ^ 63 - 1) 127) (flit0 1 1)).inWindow = false ∧ combinable (fold0 1 1) (msg0 0 0) (flit0 1 1) { flit0 1 1 with reg := 1 } = false := by decide
theorem witness_FabricResults_receive :
    let ok := stateOf { foldIn := [flit0 1 1], pend := [(0, 1)] }
    (ok.eng.tile at0).foldIn = [flit0 1 1] ∧ 1 ≤ (ok.eng.tile at0).pending 0 ∧ (∀ x ∈ (flit0 1 1).slots, slotOk x = true) ∧
      ((stateOf { foldIn := [flit0 1 1] }).eng.tile at0).pending 0 < 1 ∧ (flit0 1 1).rfault = false ∧ (flit0 1 2).slots.find? (fun y => !slotOk y) = some (0, 1, 2) := by decide
theorem witness_FabricResults_proxy :
    (withE { fields := [(0, { darnSite := [(0, .covered)] })] }).eng.siteState at0 = .covered ∧ 4109 < kvSlots ∧ 58463 < slabPages ∧
      (withE { fields := [(0, { darnSite := [(0, .retired)] })] }).eng.siteState at0 ≠ .active := by decide
/-- An image whose one slice is member 3 of group 0, on the first site, and a chain that member 3 is next in. -/
def chainE (left : List Nat) : Engine :=
  { tiles := [(0, { ext := [(0, 0x80000000)] })]
    images := [(0, { state := .ready, footprint := 1, slices := [{ member := 3, dataPages := 1, parityPages := 1 }] })]
    chains := [{ img := 0, slice := 0, page := 0, member := 0, left := left, acc := [], dst := at0 }] }
theorem witness_FabricResults_chain :
    let c : Chain := { img := 0, slice := 0, page := 0, member := 0, left := [3, 4], acc := [], dst := at0 }
    (chainE [3, 4]).chains[0]? = some c ∧ ((chainE [3, 4]).chainStep c).left ≠ [] ∧ ((chainE [3]).chainStep { c with left := [3] }).left = [] ∧ (chainE [3, 4]).chainAt c at0 = true ∧ (chainE [4]).chainAt { c with left := [4] } at0 = false ∧
      (chainE [3]).chainAt { c with left := [3] } at0 = true ∧ extPage ((chainE [3]).readExtents at0 0 0) 0 = some 0 := by decide +kernel

theorem witness_CreditAndLinkResults_credit :
    let e : Engine := { parts := [(0, part0)], decks := [(0, { hostCr := [(0, { outBucket := 64, burst := 100 })] })], tiles := [(0, { hemBal := [(0, 3)], hemLast := 4 })] }
    locOk at0 = true ∧ e.partOf 0 = some 0 ∧ min 65 64 ≤ ((e.deck 0).hem 0 0).outBucket ∧ ((e.deck 0).hem 1 0).outBucket < min 1 64 ∧ (e.tile at0).hemLast + 16 ≤ 20 ∧
      19 < (e.tile at0).hemLast + 16 ∧ (e.tile at0).hemBal = [(0, 3)] := by decide
theorem witness_CreditAndLinkResults_refill :
    let e (n : Nat) : Engine := { decks := [(0, { fillAt := n }), (1, { fillAt := n })] }
    (0 : Nat) < ((e 1).deck 1).fillAt ∧ ((e 1).deck 1).fillAt ≤ 1 := by decide
theorem witness_CreditAndLinkResults_stop :
    let e : Engine := { stepE {} with fields := [(1, { xstop := 2 ^ 35 })] }
    (e.field 1).xstop.testBit 35 = true ∧ (e.field 0).xstop.testBit 35 = false ∧ e.xstopDue = [] ∧ (∃ k < 32, (e.part k).atRest = false) ∧ e.partOf 0 = some 0 ∧
      (e.part 0).atRest = false ∧ e.partOf 2 = none ∧ ∀ k < 32, (({} : Engine).part k).atRest = true := by decide

theorem witness_UpkeepResults_rinse :
    (withE {}).eng.siteState at0 = .active ∧ (withE { fields := [(0, { darnSite := [(0, .dark)] })] }).eng.siteState at0 ≠ .active ∧
      262143 / 512 ∉ ((withE {}).eng.tile at0).filling ∧ 262143 ∉ ((withE {}).eng.tile at0).badWords := by decide
theorem witness_UpkeepResults_guard :
    let e : Engine := { tiles := [(0, { bank := [(31, { win := 255 })], rinses := 100000 })] }
    let k := mget (fun _ => ({} : SpBank)) 31 (e.tile at0).bank
    k.guarded = false ∧ (e.deck 0).guardCe ≤ k.win ∧ (mget (fun _ => ({} : SpBank)) 0 (e.tile at0).bank).win < (e.deck 0).guardCe ∧
      (e.deck 0).guardWin ≤ (e.tile at0).rinses ∧ (({} : Engine).tile at0).rinses < (({} : Engine).deck 0).guardWin := by decide
theorem witness_UpkeepResults_slabs :
    (withE {}).eng.siteIdle at0 = true ∧ ((withE (stepE {})).eng.modTile at0 (fun ti => ti.kvUncorr 4109)).siteIdle at0 = false ∧ 1826 < slabStripes ∧
      ((withE {}).eng.field 95).refresh + 64000 ≤ 64000 ∧ 63999 < ((withE {}).eng.field 95).refresh + 64000 := by decide
theorem witness_UpkeepResults_patrol :
    let b := ({} : Field).nvOffset (waferOf 58463)
    let tries : List Int := [b, b + 12, b - 12, b + 24, b - 24]
    let reads (bad : List (Nat × Int)) := min 4 (tries.findIdx (fun o => !bad.contains (58463, o)))
    58463 < slabPages ∧ reads [] = 0 ∧ reads [(58463, b)] = 1 ∧ reads (tries.map (fun o => (58463, o))) = 4 := by decide +kernel
/-- A copy-out whose tile has reserved no credit. -/
theorem witness_UpkeepResults_unreserved :
    let e : Engine := { parts := [(0, { part0 with kvRegion := some (0, 16384, .pf 0) })] }
    let v : Victim := { req := 0, row := 0, prio := 0, rows := 1, pages := [(0, {}, 1)] }
    (e.part 0).kvRegion = some (0, 16384, .pf 0) ∧ mget (fun _ => 0) (2 * e.fnDeck (.pf 0)) (e.tile at0).hemBal < 256 * v.pages.length := by decide
theorem witness_UpkeepResults_slots :
    let e : Engine := { tiles := [(0, { slotUse := [(4109, .zeroing)] })], parts := [(0, { part0 with kvRegion := some (0, 16384, .pf 0), kvLow := 4111 })] }
    (e.tile at0).useOf 4109 = .zeroing ∧ (e.tile at0).useOf 0 ≠ .zeroing ∧ (e.part 0).kvRegion = some (0, 16384, .pf 0) ∧
      (e.tile at0).freeSlots.length < (e.part 0).kvLow ∧ (({ parts := [(0, part0)] } : Engine).part 0).kvRegion = none ∧
      e.atBoundary [0] = true ∧ (stepE {}).atBoundary [0] = false := by decide +kernel
/-- A reserve region of the first physical function, with one cache slot and credit. -/
def fetchE (open' : Bool) (credit : Nat) : Engine :=
  { tiles := [(0, { slotUse := [(5, .kvcache 0 9 0), (6, .rcache 0 9 0)] })]
    parts := [(0, { part0 with kvRegion := some (0, 32768, .pf 0), kvUsed := [(1, 0)] })]
    images := [(0, { state := .ready, footprint := 1, region := some (0, 32768, .pf 0) })]
    fns := if open' then [(0, { windows := [(0, BitVec.allOnes 128 - (2 ^ 64 - 1) * 2 ^ 64)] })] else []
    decks := [(0, { hostCr := [(0, { inBucket := credit })] })] }
theorem witness_UpkeepResults_fetch :
    let data : Bool := (List.replicate 16384 (0 : Byte)).length == 16384
    let e := fetchE true 256
    data = true ∧ e.sup.safeHold = false ∧ e.partOf 0 = some 0 ∧ (e.part 0).kvRegion = some (0, 32768, .pf 0) ∧ (1, 0) ∈ (e.part 0).kvUsed ∧
      (∀ x ∈ (e.tile at0).kvCacheOf 0, x.2.1 ≠ 1) ∧ lruSlot ((e.tile at0).kvCacheOf 0) = some 5 ∧ e.linkUp (.pf 0) = true ∧
      e.windowOk (.pf 0) 16384 16384 false = true ∧ (e.takeHem (e.fnDeck (.pf 0)) 0 0 256).isSome = true ∧
      ((fetchE true 255).takeHem 0 0 0 256).isNone = true ∧ (fetchE false 256).windowOk (.pf 0) 16384 16384 false = false := by decide +kernel
theorem witness_UpkeepResults_reserve :
    let e := fetchE true 256
    (e.images.find? (fun x => x.2.slot == 0 && x.2.state != .absent && x.2.footprint.testBit at0.field)).map (·.1) = some 0 ∧
      lruSlot ((e.tile at0).rCacheOf 0) = some 6 ∧ (∀ x ∈ (e.tile at0).rCacheOf 0, x.2.1 ≠ 1) ∧ (1 + 1) * 16384 ≤ 32768 := by decide +kernel

/-! ### Requests and packets -/

/-- A header from the first physical function. -/
def hd0 : Hdr := { fn := .pf 0, tag := 1 }
/-- A function with one window over all of memory. -/
def openFn : FnState := { windows := [(0, BitVec.allOnes 128 - (2 ^ 64 - 1) * 2 ^ 64)] }
/-- Tenant 0 enabled and bound to partition 0, which is at a step boundary; all of memory is open to the functions used here. -/
def hostE : Engine :=
  { parts := [(0, part0)], tenants := [(0, { enable := true, bound := true })]
    fns := [(0, openFn), (8, openFn), (11, openFn), (12, openFn), (263, openFn)] }
/-- The same with entry 5 of the request table. -/
def reqE (r : Request) : Engine := { hostE with reqs := [(5, r)] }
/-- Does a command from the first function reach its effect, none of its packets waiting in intake? -/
def reaches (e : Engine) (f : Form) : Bool := (first (withE e) hd0).isNone && goes (withE e) hd0 .journalBucketRefill f
/-- Where no packet waits, whether a command goes through intake is a matter of its form alone: what `reaches` shows holds of every command. -/
theorem reaches_goes (e : Engine) (f : Form) (c : Instr) (h : reaches e f = true) : goes (withE e) hd0 c f = true := by
  simp only [reaches, Bool.and_eq_true, Option.isNone_iff_eq_none] at h
  have g := h.2
  simp only [goes, accepted, arrives, h.1] at g ⊢
  exact g
/-- Entry 5 as the command sees it, where it may name it. -/
def entry5 (e : Engine) (f : Form) : Option ReqState :=
  if reaches e f && mayName hd0 ((taken (withE e) hd0).req 5) then some ((taken (withE e) hd0).req 5).state else none

theorem witness_SubmitResults :
    let e := taken (withE hostE) hd0
    reaches hostE (submitForm {} hostE) = true ∧ (e.image 0).partIndex = 0 ∧ (e.tenant 0).enable = true ∧ (e.tenant 0).bound = true ∧
      (e.tenant 0).maxReq = 0 ∧ e.freeEntry (e.fnDeck hd0.fn) = some 0 := by decide +kernel
theorem witness_SubmitResults_last :
    let q : SubmitParams := { tenant := 255, image := 15, promptLen := 1 }
    let e := { hostE with tenants := [(255, { enable := true, bound := true, maxReq := 1 })] }
    reaches e (submitForm q e) = true ∧ ((taken (withE e) hd0).tenant 255).maxReq = 1 ∧
      ((taken (withE e) hd0).reqsWhere (fun r => r.tenant == 255 && r.state != .idle)).length = 0 := by decide +kernel
theorem witness_SubmitResults_refused :
    let vf : Hdr := { fn := .vf 3, tag := 1 }
    let e : Engine := { hostE with ports := [(0, { vfEnable := true })] }
    let d := { hostE with tenants := [(0, { bound := true })] }
    goes (withE e) vf (.reqSubmit vf { tenant := 4 }) (submitForm { tenant := 4 } e) = true ∧ reaches d (submitForm {} d) = true ∧
      ((taken (withE d) hd0).tenant 0).enable = false := by decide +kernel
/-- No entry is IDLE where every entry names a prompt in hand: the list of entries is long, so the hypothesis is met by a function of the index. -/
theorem witness_SubmitResults_full : ∃ m : AMap Request, ∀ i < 32768, (mget (fun _ => ({} : Request)) i m).state ≠ .idle := by
  refine ⟨(List.range' 0 32768).map (fun i => (i, { state := .queued })), fun i hi => ?_⟩
  have key : ∀ (n a : Nat), a ≤ i → i < a + n →
      (mget (fun _ => ({} : Request)) i ((List.range' a n).map (fun k => (k, ({ state := .queued } : Request))))).state = .queued := by
    intro n
    induction n with
    | zero => intro a h1 h2; omega
    | succ n ih =>
      intro a h1 h2
      simp only [List.range'_succ, List.map_cons, mget]
      by_cases h : a = i
      · simp [h]
      · by_cases hlt : i < a
        · omega
        · simp only [h, if_false]
          exact ih (a + 1) (by omega) (by omega)
  rw [key 32768 0 (by omega) (by omega)]
  decide
theorem witness_RequestCommands_query :
    let e := reqE { state := .done }
    let k := reqE { state := .decode }
    entry5 e (reqQueryForm hd0 5 4096 e) = some .done ∧ entry5 e (reqUpdateForm 5 1 {} e) = some .done ∧ entry5 k (reqUpdateForm 5 1 {} k) = some .decode := by decide +kernel
theorem witness_RequestCommands_pause :
    let e := reqE { state := .decode }
    let p := reqE { state := .paused }
    let c := reqE { state := .cancelling }
    let i := reqE {}
    entry5 e (reqForm 0x0104 5 e) = some .decode ∧ entry5 c (reqForm 0x0104 5 c) = some .cancelling ∧ entry5 i (reqForm 0x0104 5 i) = some .idle ∧
      entry5 p (reqForm 0x0105 5 p) = some .paused ∧ entry5 e (reqForm 0x0105 5 e) = some .decode ∧ entry5 e (reqForm 0x0106 5 e) = some .decode ∧
      entry5 c (reqForm 0x0106 5 c) = some .cancelling ∧ entry5 i (reqForm 0x0106 5 i) = some .idle := by decide +kernel
theorem witness_RequestCommands_release :
    let e := reqE { state := .done, retain := true, newest := some 9 }
    let k := reqE { state := .decode }
    entry5 e (reqForm 0x0107 5 e) = some .done ∧ ((taken (withE e) hd0).req 5).retain = true ∧ entry5 k (reqForm 0x0107 5 k) = some .decode ∧
      entry5 e (reqAppendForm 5 3 4096 e) = some .done ∧ ((taken (withE e) hd0).req 5).newest.isSome = true ∧
      entry5 k (reqDraftForm 5 7 [(3, 0), (4, 1)] k) = some .decode ∧ (treeDepths [(3, 0), (4, 1)] [0]).2 = none ∧
      (treeDepths [(3, 0), (3, 2)] [0]).2 = some 2 ∧ entry5 e (reqDraftForm 5 7 [(3, 0)] e) = some .done := by decide +kernel

/-- The virtual function of tenant 0 with its port, window and token ring. -/
def vfE (r : Request) : Engine :=
  { reqE r with
    ports := [(0, { vfEnable := true })]
    fns := [(8, { openFn with rings := [(2, { cfg := 0x8601000080000000#64 })] })]
    decks := [(0, { hostCr := [(0, { inBucket := 1 })] })] }
theorem witness_PacketResults_fetch :
    let e := vfE { state := .queued, promptEnd := 3, promptLen := 3 }
    let r := e.req 5
    e.sup.safeHold = false ∧ r.state = .queued ∧ r.len + r.prompt.length < r.promptEnd ∧ e.linkUp (.vf 0) = true ∧
      e.windowOk (.vf 0) (r.promptAddr + 4 * (0 - r.promptBase)) (4 * (([1, 2, 3, 4] : List Nat).take 3).length) false = true ∧
      (e.takeHem (e.fnDeck (.vf 0)) 0 r.part (ceilDiv (4 * (([1, 2, 3, 4] : List Nat).take 3).length) 64)).isSome = true := by decide +kernel
theorem witness_PacketResults_held :
    let k : TokenPacket := { count := 1, req := 5 }
    let a := { reqE {} with tenants := [(0, { heldEnds := [k] })] }
    let b := reqE { state := .decode, heldPkts := [k] }
    let full := { reqE {} with tenants := [(0, { fifo := List.replicate 128 k })] }
    a.heldBy 5 = 0 ∧ (a.tenant 0).fifo.length < 128 ∧ (∀ i ∈ a.holders 0 ++ (a.tenant 0).heldEnds.map (·.req), 5 ≤ i) ∧
      (a.tenant 0).heldEnds.find? (fun k => k.req == 5) = some k ∧ b.heldBy 5 = 0 ∧ (∀ i ∈ b.holders 0 ++ (b.tenant 0).heldEnds.map (·.req), 5 ≤ i) ∧
      (b.tenant 0).heldEnds.find? (fun k => k.req == 5) = none ∧ (b.req 5).heldPkts = [k] ∧ 128 ≤ (full.tenant (full.heldBy 5)).fifo.length := by decide +kernel
theorem witness_PacketResults_losses :
    let e := { reqE { state := .prefill } with parts := [(0, { part0 with losses := [(5, 0, 0x3F800000, 9), (5, 1, 0x40000000, 9)] })] }
    lossRun (e.part 0).losses = [(5, 0, 0x3F800000, 9), (5, 1, 0x40000000, 9)] ∧ (e.tenant (e.req 5).tenant).fifo.length < 128 ∧ e.holders (e.req 5).tenant = [] ∧
      (e.tenant 0).heldEnds = [] := by decide +kernel
theorem witness_PacketResults_tokens :
    let k : TokenPacket := { count := 1 }
    let e := { vfE {} with tenants := [(0, { fifo := [k] })] }
    (e.tenant 0).fifo = [k] ∧ (e.tenant 0).fwd = 0 ∧ min 8 (max 8 (e.tenant 0).fwd) = 8 ∧ min 8 (max 7 (e.tenant 0).fwd) < ((e.fn (.vf 0)).ring 2).ctWords ∧
      ({ cfg := 0x8601000040000000#64 } : Ring).ctWords ≤ 7 ∧ (e.tenant 0).fwd < 7 ∧ e.sup.safeHold = false ∧ e.ringReady (.vf 0) 2 = true ∧
      e.windowOk (.vf 0) (((e.fn (.vf 0)).ring 2).base.toNat + 64 * (((e.fn (.vf 0)).ring 2).ptr % ((e.fn (.vf 0)).ring 2).units)) 64 true = true := by decide +kernel

/-! ### Host interface -/

/-- A ring enabled, with its interrupt on 5 us after a completion. -/
def ringOn (k : Ring) : Ring := { k with cfg := 0x8601000588000000#64 }
/-- The first function with rings. -/
def ringE (rs : AMap Ring) (st : List Reply) : Engine := { hostE with fns := [(0, { openFn with rings := rs, status := st })] }
/-- A PART_PAUSE packet of 16 bytes. -/
def pausePkt : RawPacket := { bytes := natBytes 0x0305 16 }

theorem witness_RingResults_status :
    let k : Reply := { tag := 1, status := 0, detail := 0, tick := 9 }
    let e := ringE [(1, ringOn { ptr := 63 })] [k]
    let r := (e.fn (.pf 0)).ring 1
    fnOk (.pf 0) = true ∧ (e.fn (.pf 0)).status = [k] ∧ e.ringReady (.pf 0) 1 = true ∧
      e.windowOk (.pf 0) (r.base.toNat + 16 * (r.ptr % r.units)) 16 true = true := by decide +kernel
theorem witness_RingResults_interrupt :
    let r := ((ringE [(1, ringOn { since := 1, firstAt := 10 })] []).fn (.pf 0)).ring 1
    r.irq = true ∧ r.since ≠ 0 ∧ r.coalUs ≠ 0 ∧ r.firstAt + r.coalUs ≤ 15 ∧ 14 < r.firstAt + r.coalUs := by decide
theorem witness_RingResults_fetch :
    let e := ringE [(0, ringOn { host := 1 })] []
    let r := (e.fn (.pf 0)).ring 0
    e.linkUp (.pf 0) = true ∧ pausePkt.headerBad = false ∧ packetUnits (16 + fld (bytesAt pausePkt.bytes 0 8) 43 32) = 1 ∧ r.enabled = true ∧
      (r.host + r.modulus - r.ptr) % r.modulus = 1 ∧ e.intakeRoom (.pf 0) 1 = true ∧ e.windowOk (.pf 0) r.base.toNat (64 * r.units) false = true ∧
      packetCheck { fn := .pf 0, bytes := pausePkt.bytes, ptr := r.ptr } = none := by decide +kernel
theorem witness_RingResults_doorbell :
    let e := ringE [(0, ringOn {}), (1, ringOn { ptr := 3 })] []
    let c := (e.fn (.pf 0)).ring 0
    let r := (e.fn (.pf 0)).ring 1
    (e.fnPort (.pf 0)).isSome = true ∧ hasRing (.pf 0) 1 = true ∧ hasRing (.vf 0) 2 = true ∧ (64 < c.modulus ∧ (64 + c.modulus - c.ptr) % c.modulus ≤ c.units) ∧
      ¬ ((65 + c.modulus - c.ptr) % c.modulus ≤ c.units) ∧ ¬ (128 < c.modulus) ∧ (3 + r.modulus - r.host) % r.modulus ≤ r.used ∧
      ¬ ((4 + r.modulus - r.host) % r.modulus ≤ r.used) := by decide
theorem witness_RingResults_configure :
    let e := ringE [] []
    let r := (e.fn (.pf 0)).ring 0
    let v : Word := 0x9000000000000000
    let units : Nat := 2 ^ fld (BitVec.ofNat 64 (r.configure 0 v.toNat)).toNat 60 56
    bitAt v.toNat 63 = true ∧ units = 65536 ∧ (e.windowOk (.pf 0) r.base.toNat (unitBytes 0 * units) false && e.windowOk (.pf 0) r.wbAddr.toNat 16 true) = true ∧
      (({} : Engine).windowOk (.pf 0) r.base.toNat (unitBytes 0 * units) false) = false ∧ bitAt (0 : Word).toNat 63 = false := by decide +kernel
theorem witness_DirectWindowResults :
    let e := ringE [] []
    let busy := { e with fns := [(0, { dwBusy := true })] }
    let full := { e with decks := [(0, { intake := List.replicate 256 { fn := .pf 0, bytes := pausePkt.bytes } })] }
    let behind := { e with fns := [(0, { openFn with rings := [(0, ringOn { host := 1 })] })] }
    (e.fnPort (.pf 0)).isSome = true ∧ ([4, 8, 16, 32, 64] : List Nat).contains (List.replicate 64 (0 : Byte)).length = true ∧ 4032 % 64 = 0 ∧ 4032 + 64 ≤ 4096 ∧
      (e.fn (.pf 0)).dwBusy = false ∧ (busy.fn (.pf 0)).dwBusy = true ∧ (4096 : Word).toNat % 2 ^ 13 ≤ 4096 ∧ 16 ≤ (16 : Word).toNat % 2 ^ 13 ∧
      (e.fn (.pf 0)).published = 0 ∧ (behind.fn (.pf 0)).published ≠ 0 ∧ e.intakeRoom (.pf 0) (packetUnits 4096) = true ∧
      full.intakeRoom (.pf 0) (packetUnits 16) = false := by decide +kernel
theorem witness_RegisterResults_ledger :
    let x : LedgerEntry := { code := 0x0501, seq := 7 }
    let e : Engine := { decks := [(1, { ledger := { entries := [x], next := 8 } })] }
    (e.deck 1).ledger.entries = [x] ∧ (e.deck 0).ledger.entries = [] ∧ (7 : Word).toNat % 2 ^ 32 = x.seq ∧ (8 : Word).toNat % 2 ^ 32 ≠ x.seq ∧ fnOk (.vf 255) = true := by decide
theorem witness_RegisterResults_assign :
    let e : Engine := { ports := [(7, { vfEnable := true })] }
    (e.hport (e.vfWord 0 % 8)).vfEnable = false ∧ (e.hport ((3 : Word).toNat % 8)).vfEnable = false ∧
      ((e.hport (e.vfWord 255 % 8)).vfEnable || (e.hport 0).vfEnable) = true := by decide
theorem witness_RegisterResults_plain :
    (((ringE [] []).fn (.pf 0)).ring 1).enabled = false ∧ (((ringE [(1, ringOn {})] []).fn (.pf 0)).ring 1).enabled = true ∧ 1 ≤ (4096 : Word).toNat % 2 ^ 13 ∧
      (4096 : Word).toNat % 2 ^ 13 ≤ 4096 ∧ 1 ≤ (1 : Word).toNat % 2 ^ 13 ∧ (0x104 : Nat) % 8 ≠ 0 := by decide
theorem witness_RegisterResults_region :
    (({} : Engine).tile at0).inst = [] ∧ (({} : Engine).tile at0).regionOk 63 (regWord 479 1 true 0 false 0 0) = true ∧
      (({} : Engine).tile at0).regionOk 63 (regWord 480 1 true 0 false 0 0) = false := by decide +kernel
theorem witness_FunctionResets : (({} : Engine).vfWord 0 % 8 = 0 ∧ bitAt (({} : Engine).vfWord 0) 7 = true) ∧ (({} : Engine).vfWord 255 % 8 = 7 ∧
    bitAt (({} : Engine).vfWord 255) 7 = true) ∧ mwf (fun _ => ({} : Request)) (reqE { state := .done, tenant := 3 }).reqs = true := by decide +kernel
theorem witness_FunctionResets_link :
    let down : Engine := { ports := [(7, { up := false })] }
    (({} : Engine).hport 7).up = true ∧ (∀ x ∈ ({} : Engine).snaps, x.capturing = false) ∧ (down.hport 7).up = false ∧ (down.hport 7).enable = true ∧
      4 ≤ down.power.stage ∧ (∀ x ∈ (down.hport 7).waiting, down.fnPort x.1 = some 7) ∧ (∀ f : Nat, (down.fn (.vf f)).pba = 0) := by
  refine ⟨by decide, by decide, by decide, by decide, by decide, by decide, fun f => ?_⟩
  show (mget (fun _ => ({} : FnState)) _ ([] : AMap FnState)).pba = 0
  rfl
theorem witness_IntakeResults_held :
    let x : Held := { hd := { hd0 with tick := 5 }, cmd := .partPause { hd0 with tick := 5 }, parts := [0] }
    let e : Engine := { hostE with decks := [(0, { sched := [x] })] }
    let u := e.unhold 0 x
    let far : Held := { x with cmd := .graphQuery { hd0 with tick := 5 } 3 64 }
    (e.deck 0).sched[0]? = some x ∧ e.heldDue 4 0 x = false ∧ e.heldDue 5 0 x = true ∧ (hostEffect x.cmd).isSome = true ∧ x.hd.fw = none ∧
      (hostEffect x.cmd).all (fun p => !(u.sup.safeHold && !(p.1 u).safeHold) && ((p.1 u).addrs.find? (fun a => !u.windowOk a.fn a.addr a.bytes a.write)).isNone) = true ∧
      (u.deck 0).ctl.heldReset = false ∧ far.hd.muted = false ∧
      (hostEffect far.cmd).all (fun p => ((p.1 {}).addrs.find? (fun a => !({} : Engine).windowOk a.fn a.addr a.bytes a.write)).isSome) = true := by decide +kernel
theorem witness_IntakeResults_withdraw :
    let x : Held := { hd := { hd0 with tick := 5, tag := 9 }, cmd := .partPause { hd0 with tick := 5, tag := 9 }, parts := [0] }
    let a : Act := { id := 256, coordinator := 1, mine := true, nodes := [5] }
    let e (x : Held) : Engine := { hostE with decks := [(0, { sched := [x] })] }
    let y : Held := { x with act := some a }
    let z : Held := { x with act := some { a with decision := some true } }
    let w : Held := { x with own := true }
    reaches (e x) (schedWithdrawForm 9 (e x)) = true ∧ (taken (withE (e x)) hd0).heldWith (.pf 0) 9 = some (0, x) ∧
      (taken (withE (e x)) hd0).heldWith (.pf 0) 8 = none ∧ (taken (withE (e y)) hd0).heldWith (.pf 0) 9 = some (0, y) ∧ a.decision = none ∧
      (taken (withE (e z)) hd0).heldWith (.pf 0) 9 = some (0, z) ∧ (taken (withE (e w)) hd0).heldWith (.pf 0) 9 = some (0, w) ∧
      (taken (withE (e w)) hd0).withdrawOwn 0 w = none := by decide +kernel
theorem witness_IntakeResults_own :
    let s : Snap := { hd := { hd0 with tick := 5, tag := 9 }, mask := 1, addr := 0, bytes := 0, tick := 5, restore := false }
    let x : Held := { hd := s.hd, cmd := .snapshot s.hd 1 0 0, own := true }
    let e : Engine := { hostE with decks := [(0, { sched := [x] })], snaps := [s] }
    reaches e (schedWithdrawForm 9 e) = true ∧ (taken (withE e) hd0).heldWith (.pf 0) 9 = some (0, x) ∧ ((taken (withE e) hd0).withdrawOwn 0 x).isSome = true := by
  decide +kernel
theorem witness_IntakeResults_packets :
    (hostE.waitingOf (.pf 0)) = [] ∧ packetCheck { fn := .pf 0, bytes := pausePkt.bytes } = none ∧ (packetCheck { fn := .pf 0, bytes := natBytes 0x0FFF 16 }).isSome = true ∧
      (hostE.fn (.pf 0)).status.length < 64 ∧ hostE.restarting (.pf 0) = false := by decide +kernel
/-- A packet that waits in intake, and the command it spells. -/
theorem witness_IntakeResults_waiting :
    let c : Instr := .partPause { fn := .pf 0 }
    let e : Engine := { hostE with decks := [(0, { intake := [{ fn := .pf 0, bytes := pausePkt.bytes }] })] }
    (first (withE e) { fn := .pf 0 }).map (·.bytes) = packetOf c ∧ arrives (withE e) { fn := .pf 0 } c (partPauseForm { fn := .pf 0 } e) = true ∧
      goes (withE e) { fn := .pf 0 } c (partPauseForm { fn := .pf 0 } e) = true := by decide +kernel
theorem witness_IntakeResults_refusals :
    let f := reqForm 0x0106 5 hostE
    let stopped : Engine := { hostE with decks := [(0, { ctl := { running := false } })] }
    let g := graphQueryForm hd0 3 64 ({} : Engine)
    let standby : Engine := { hostE with power := { state := .standby, target := .standby, stage := 4 } }
    let late : Hdr := { hd0 with tick := 5 }
    arrives (withE hostE) hd0 (.reqCancel hd0 5) f = true ∧ f.check (taken (withE hostE) hd0) 0 (placed (withE hostE) hd0) = none ∧
      arrives (withE stopped) hd0 (.reqCancel hd0 5) f = false ∧
      (g.check (taken (withE {}) hd0) 0 (placed (withE {}) hd0)).map (fun x => x.2.2) = some (some 64) ∧
      ((taken (withE standby) hd0).refuses (partPauseForm hd0 standby) hd0.fn).isSome = true ∧
      accepted (withE hostE) late (.reqCancel late 5) f = true ∧ (taken (withE hostE) late).sharedWith f (placed (withE hostE) late) = none ∧
      ((taken (withE hostE) late).deck ((taken (withE hostE) late).fnDeck late.fn)).scheduled < 1024 := by decide +kernel
/-! ### Partitions, graphs, images, management commands -/

/-- Another partition 0. -/
def partE (q : Part) : Engine := { hostE with parts := [(0, q)] }
/-- An image that may be bound over field 0, with its loaded graph at handle 1. -/
def boundE (q : Part) : Engine := { partE q with images := [(3, { state := .ready, footprint := 1, id := 9 })], graphs := [(1, { state := .loaded, image := 3 })] }
/-- Partition 0 while its field set changes. -/
def rebindPart (g : RebindStage) : Part := { part0 with state := .rebinding, rebind := some { old := 1, fields := 0, image := 0, stage := g, hd := hd0 } }
/-- The engine with imprinting allowed and both cartridges charged. -/
def imprintE (ss : Session) : Engine := { hostE with session := ss, sup := { imprintEn := true } }

theorem witness_BindingCommands_fields :
    let f (e : Engine) := partBindFieldsForm hd0 1 3 e
    let busy : Engine := { boundE {} with fields := [(0, { fenced := true })] }
    reaches (boundE {}) (f (boundE {})) = true ∧ (taken (withE (boundE {})) hd0).fieldTaken 0 1 = none ∧
      (taken (withE (boundE {})) hd0).bindRefused 0 1 3 = none ∧ reaches busy (f busy) = true ∧
      (taken (withE busy) hd0).fieldTaken 0 1 = some 0 ∧ (taken (withE busy) hd0).sessionOn 1 = false ∧
      ((taken (withE busy) hd0).deck (deckOf 0)).latchedOff = false := by decide +kernel
theorem witness_BindingCommands_image :
    let f (e : Engine) := partBindImageForm hd0 3 e
    reaches (boundE part0) (f (boundE part0)) = true ∧ (taken (withE (boundE part0)) hd0).bindRefused 0 1 3 = none ∧
      reaches hostE (f hostE) = true ∧ (taken (withE hostE) hd0).bindRefused 0 1 3 = some (.imageState, 0) := by decide +kernel
theorem witness_BindingCommands_tenant :
    let e := { reqE { state := .queued, tenant := 255 } with tenants := [] }
    reaches e (tenantBindForm hd0 255 e) = true ∧ (taken (withE e) hd0).reqsWhere (fun r => r.tenant == 255 && r.holds) = [] ∧
      mwf (fun _ => ({} : Request)) e.reqs = true ∧ (e.req 5).tenant = 255 := by decide +kernel
theorem witness_BindingCommands_rebinding :
    let e := boundE (rebindPart .drain)
    reaches e (partBindImageForm hd0 3 e) = true ∧ ((taken (withE e) hd0).part 0).rebind.isSome = true ∧ reaches e (partBindFieldsForm hd0 1 3 e) = true ∧
      ((taken (withE (boundE {})) hd0).part 0).rebind = none ∧ (taken (withE (boundE {})) hd0).sessionOn 1 = false := by decide +kernel
theorem witness_BindingCommands_tenant_busy :
    let e := reqE { state := .decode, tenant := 255 }
    let forced : Hdr := { hd0 with force := true }
    reaches e (tenantBindForm hd0 255 e) = true ∧ (taken (withE e) hd0).reqsWhere (fun r => r.tenant == 255 && r.holds) ≠ [] ∧ hd0.force = false ∧
      goes (withE e) forced (.tenantBind forced 255) (tenantBindForm forced 255 e) = true := by decide +kernel
theorem witness_PartitionCommands :
    let fp (e : Engine) := partPauseForm hd0 e
    let fr (e : Engine) := partResumeForm hd0 e
    let p (st : PartState) (c : List PauseCause) := partE { part0 with state := st, causes := c }
    (∀ st ∈ [PartState.idle, .held, .paused, .free, .rebinding], reaches (p st []) (fp (p st [])) = true) ∧
      reaches (p .paused [.host]) (fr (p .paused [.host])) = true ∧
      (taken (withE (p .paused [.host])) hd0).resumeRefused 0 = none ∧
      (taken (withE (p .paused [.noSpare])) hd0).resumeRefused 0 = some (.partState, partCode .paused) ∧
      reaches (p .paused [.noSpare]) (fr (p .paused [.noSpare])) = true ∧ reaches hostE (partResetForm hd0 hostE) = true ∧
      reaches hostE (tenantSetForm 255 8 1 7 hostE) = true := by decide +kernel
theorem witness_RebindStages :
    (∀ g ∈ [RebindStage.drain, .kvRelease, .route, .fill, .journal], ((partE (rebindPart g)).part 0).rebind.isSome = true) ∧
      (partE (rebindPart .drain)).atBoundary [0] = true ∧ (partE { rebindPart .drain with step := some {} }).atBoundary [0] = false ∧
      ({ partE (rebindPart .kvRelease) with fields := [] } : Engine).zeroing 0 = false ∧
      ({ partE (rebindPart .kvRelease) with tiles := [(0, { slotUse := [(0, .zeroing)] })] } : Engine).zeroing 0 = true := by decide +kernel
theorem witness_CreditReserveAndMode :
    let f := hemSetForm 1 0 32 7500 0 7500 hostE
    let d := (taken (withE hostE) hd0).deck 1
    reaches hostE f = true ∧ 7500 ≤ 7500 - d.hemSum 0 32 HemCr.inRate ∧ 0 ≤ 7500 - d.hemSum 0 32 HemCr.outRate ∧
      7500 - d.hemSum 0 32 HemCr.inRate < 7501 ∧ reaches hostE (hemSetForm 1 0 32 7501 0 7501 hostE) = true := by decide +kernel
theorem witness_CreditReserveAndMode_reserve :
    let f := kvReserveForm hd0 (2 ^ 21) (2 ^ 21) 0 16 hostE
    reaches hostE f = true ∧ ((taken (withE hostE) hd0).part 0).kvUsed = [] ∧
      ∀ t ∈ ((taken (withE hostE) hd0).dropReserve 0).partTiles 0, 512 ≤ (((taken (withE hostE) hd0).dropReserve 0).tile t).openSlots := by
  refine ⟨by decide +kernel, by decide +kernel, fun t _ => ?_⟩
  have h : (({} : Tile)).openSlots = 4110 := by decide +kernel
  have k : ((taken (withE hostE) hd0).dropReserve 0).tiles = [] := by decide +kernel
  simp only [Engine.tile, k, mget, h]
  decide
theorem witness_CreditReserveAndMode_mode :
    let f := partModeForm hd0 17 0 0 4096 hostE
    let q := (taken (withE hostE) hd0).part 0
    reaches hostE f = true ∧ q.prepared = none ∧ q.coord = none ∧ q.state = .idle ∧ q.spanLast = 0 ∧ q.spanIndex = 0 ∧ q.pair = 0 := by decide +kernel
/-- A change of modes while one is open, in a FREE partition, of a span's training, and with a tick of the future. -/
theorem witness_CreditReserveAndMode_mode_refused :
    let open' := partE { part0 with prepared := some { msg := { part := 0, epoch := 1, what := .modes {}, tick := 9, deadline := 8, coordinator := 0 } } }
    let free := partE {}
    let span := partE { part0 with spanLast := 1 }
    let late : Hdr := { hd0 with tick := 500 }
    reaches open' (partModeForm hd0 17 0 0 4096 open') = true ∧ ((taken (withE open') hd0).part 0).prepared.isSome = true ∧
      reaches free (partModeForm hd0 17 0 0 4096 free) = true ∧ ((taken (withE free) hd0).part 0).state = .free ∧
      reaches span (partModeForm hd0 8 8 0 4096 span) = true ∧ (changeModes ((taken (withE span) hd0).part 0).modes 8 8 0 4096).train = true ∧
      goes (withE hostE) late (.partMode late 17 0 0 4096) (partModeForm late 17 0 0 4096 hostE) = true := by decide +kernel

/-- A package of one tile class on one tile, with one code region and one node (Tables 9.2, 9.3, 9.9, 9.10, 9.18, 8.2). -/
def pkg0 : List Byte :=
  let header := natBytes 0x4B475250 4 ++ natBytes 1 2 ++ natBytes 1 1 ++ natBytes 0 1 ++ natBytes 9 8 ++ natBytes 0 2 ++ natBytes 4096 2 ++ natBytes 0 4 ++
    natBytes 4 4 ++ natBytes 0x4B4C0001 4 ++ natBytes 0 32
  let sections := natBytes 1 4 ++ natBytes 128 8 ++ natBytes 1 4 ++ natBytes 2 4 ++ natBytes 192 8 ++ natBytes 1 4 ++
    natBytes 3 4 ++ natBytes 200 8 ++ natBytes 1 4 ++ natBytes 4 4 ++ natBytes 208 8 ++ natBytes 1 4
  header ++ sections ++ natBytes (2 ^ 464 + 2 ^ 424) 64 ++ natBytes 0 8 ++ natBytes (2 ^ 52 + 2 ^ 54) 8 ++ natBytes 0 48

theorem test_package_read : (match readPackage pkg0 with
    | .ok p => p.v == 1 && p.id == 9 && p.cap == 4096 && p.cls.length == 1 && p.boxes == [0] && p.nodes == [0]
    | .error _ => false) = true := by decide +kernel
/-- A graph that loads, its blobs still due on the first site. -/
def blobE : Engine :=
  { hostE with
    graphs := [(1, { state := .loading, image := 3, placed := [(0, {})], blobsDue := [0], hd := some hd0 })]
    images := [(3, { state := .ready, footprint := 1 })] }
theorem witness_GraphCommands_load :
    let e : Engine := { boundE part0 with graphs := [] }
    let f := graphLoadForm hd0 0 pkg0 3 e
    reaches e f = true ∧
      (match (taken (withE e) hd0).checkPackage pkg0 3 0 with
       | .ok g => (match (taken (withE e) hd0).placeGraph 0 g with | .ok x => x.2.length == 1 && g.adapt == 0 | .error _ => false)
       | .error _ => false) = true ∧
      (List.range 64).find? (fun k => ((taken (withE e) hd0).graph k).state == .free) = some 0 := by decide +kernel
theorem witness_GraphCommands_load_fails :
    let f := graphLoadForm hd0 0 [] 3 hostE
    reaches hostE f = true ∧ (match (taken (withE hostE) hd0).checkPackage [] 3 0 with | .ok _ => none | .error x => some x) = some { code := 1, record := 0 } := by
  decide +kernel
theorem witness_GraphCommands_blob :
    ((blobE.graph 1).placed.find? (fun x => x.1 == locKey at0)) = some (locKey at0, {}) ∧ (blobE.wordInSet (blobE.image (blobE.graph 1).image).footprint at0).isSome = true ∧
      (blobE.graph 1).blobsDue.contains (locKey at0) = true ∧ blobE.atBoundary [(blobE.graph 1).part] = true ∧
      ({ blobE with parts := [(0, stepPart)] } : Engine).atBoundary [(blobE.graph 1).part] = false := by decide +kernel
theorem witness_GraphCommands_entries :
    let e : Engine := { blobE with graphs := [(1, { state := .loading, image := 3, placed := [(0, {})], entriesDue := [0], blobsDue := [0], hd := some hd0 })] }
    (e.graph 1).entriesDue.contains (locKey at0) = true ∧ e.loadBoundary (e.graph 1).part = true ∧ (blobE.graph 1).entriesDue.contains (locKey at0) = false ∧
      ({ e with parts := [(0, { part0 with stepNo := 5, loadStep := some 2 })] } : Engine).loadBoundary (e.graph 1).part = false ∧
      (blobE.tile at0).claimsAny {} = false ∧ (match blobE.loadBytes at0 0 (blobE.graph 1) {} with | .ok _ => true | .error _ => false) = true ∧
      tile0.claimsAny { regions := [(0, 0, 1, 0)] } = true := by decide +kernel
theorem witness_GraphCommands_others :
    let e := boundE part0
    reaches e (graphUnloadForm 1 e) = true ∧ ((taken (withE e) hd0).graph 1).state = .loaded ∧ reaches e (graphUnloadForm 63 e) = true ∧
      ((taken (withE e) hd0).graph 63).state ≠ .loaded ∧ reaches e (graphQueryForm hd0 63 (2 ^ 20) e) = true ∧
      reaches e (adaptSaveForm hd0 0 64 0 e) = true ∧ (taken (withE e) hd0).adaptSize 0 0 ≤ 64 ∧
      reaches e (adaptRestoreForm hd0 0 [] 1 e) = true ∧ (taken (withE e) hd0).adaptSize 0 1 ≤ ([] : List Byte).length := by decide +kernel
theorem witness_SessionCommands_fit :
    let f := imgFitForm hd0 0 [] 0 64 hostE
    reaches hostE f = true ∧ (taken (withE hostE) hd0).manifestRefused [] = some (.badManifest, 0) := by decide +kernel
theorem witness_SessionCommands_begin :
    let f (e : Engine) := imgBeginForm hd0 0 [] 0 0 0xFF e
    let busy := imprintE { state := .failed }
    let bare := { imprintE {} with carts := [(0, { present := false })] }
    reaches busy (f busy) = true ∧ (taken (withE busy) hd0).session.state ≠ .idle ∧ reaches hostE (f hostE) = true ∧
      (taken (withE hostE) hd0).sup.imprintEn = false ∧ reaches bare (f bare) = true ∧ (taken (withE bare) hd0).cartsOk = false ∧
      (taken (withE (imprintE {})) hd0).cartsOk = true ∧ (taken (withE (imprintE {})) hd0).newImage 1 = some (0, 0) := by decide +kernel
/-- IMG_FIT and IMG_BEGIN with a manifest that is accepted take a signature over at least 89,152 bytes, which is too long to evaluate here; the hash and the
signature check have tests of their own. -/
theorem witness_SessionCommands_refused :
    (taken (withE (imprintE {})) hd0).manifestRefused [] = some (.badManifest, 0) ∧ reaches (imprintE {}) (imgBeginForm hd0 0 [] 1 0 0xFF (imprintE {})) = true := by
  decide +kernel
theorem witness_SessionCommands_stream :
    let e := { imprintE { state := .streaming, image := 3, ports := 1 } with decks := [(0, { hostCr := [(32, { inBucket := 306 })] })] }
    let f := imgStreamForm hd0 3 64 []
    reaches e f = true ∧ (taken (withE e) hd0).session.fromPort hd0.fn = true ∧ reaches e (imgEndForm hd0 3 64 e) = true ∧ reaches hostE (imgEndForm hd0 3 64 hostE) = true ∧
      reaches e (imgAbortForm 3 e) = true := by decide +kernel
theorem witness_SessionCommands_patch :
    let e := { imprintE { state := .failed, image := 3 } with images := [(3, { state := .imprinting, id := 9 })] }
    reaches e (imgPatchForm 3 e) = true ∧ ((taken (withE e) hd0).image 3).id = 9 ∧ (taken (withE e) hd0).cartsOk = true := by decide +kernel
theorem witness_ImageCommands_tier :
    let e : Engine := { hostE with images := [(3, { state := .incomplete, footprint := 1 })] }
    let f := imgTierLoadForm hd0 3 0 [] 0 16384 0 e
    let im := (taken (withE e) hd0).image 3
    reaches e f = true ∧ im.state = .incomplete ∧ im.tierPages (([] : List (List Byte)).map readFrame) = some [] ∧ (taken (withE e) hd0).tierLack im [] 0 = 0 ∧
      (im.withTier [] 0 16384 hd0.fn).tierBytes ≤ 16384 ∧ reaches hostE f = true ∧ ((taken (withE hostE) hd0).image 3).state ≠ .incomplete := by decide +kernel
theorem witness_ImageCommands_release :
    let e := boundE part0
    let used := boundE { part0 with image := some 3 }
    reaches e (imgReleaseForm 3 e) = true ∧ (e.image 3).state ≠ .absent ∧ (e.image 3).state ≠ .imprinting ∧ (∀ x ∈ e.parts, x.2.image ≠ some 3) ∧
      reaches e (imgReleaseForm 63 e) = true ∧ (e.image 63).state = .absent ∧ reaches used (imgReleaseForm 3 used) = true ∧ (∃ x ∈ used.parts, x.2.image = some 3) ∧
      reaches e (imgQueryForm hd0 63 64 e) = true := by decide +kernel
theorem witness_ImageCommands_key :
    let e := imprintE {}
    reaches hostE (keyEnrolForm 3 hostE) = true ∧ (taken (withE hostE) hd0).sup.imprintEn = false ∧ reaches e (keyEnrolForm 0 e) = true ∧
      mget (fun _ => ([] : List Byte)) 0 (taken (withE e) hd0).sup.keys = [] := by decide +kernel

/-- A Zarog port in a state, with a partner of node 5. -/
def zE (k : ZPort) : Engine := { hostE with engineId := 0x1001, zports := [(23, k)] }

theorem witness_MonitorCommands :
    (∀ sel ∈ [1, 6, 7, 9, 10], reaches hostE (monReadForm hd0 sel 1 0 0 0 1 (2 ^ 20) hostE) = true) ∧ reaches hostE (nwReadForm hd0 511 1 (2 ^ 20) hostE) = true ∧
      reaches hostE (nwWriteForm 511 0x408000000000000000400001#128 hostE) = true ∧ reaches hostE (histReadForm hd0 0x75F (2 ^ 20) hostE) = true ∧ reaches hostE (histClearForm 0 hostE) = true ∧
      reaches hostE (tenantQueryForm hd0 255 (2 ^ 20) hostE) = true ∧ (monitorScale 0x75F).isSome = true ∧ hostE.samples 0x75F = true := by decide +kernel
theorem witness_WatchWordRoundTrip : (2 ^ 128 - 2 ^ 16 : Nat) < 2 ^ 128 ∧ fld (2 ^ 128 - 2 ^ 16) 15 2 = 0 := by decide
theorem witness_PowerCommands :
    reaches hostE (pwrStateForm 2 hostE) = true ∧ (taken (withE hostE) hd0).power.state = pwrOf 2 ∧
      reaches hostE (pwrStateForm 0 hostE) = true ∧ (taken (withE hostE) hd0).power.state ≠ pwrOf 0 ∧
      (taken (withE hostE) hd0).power.up = false ∧ (taken (withE hostE) hd0).power.down = false ∧
      goes (withE (hostE.copyCap (hostE.arrivingCap 0 hd0 1000))) hd0 (.pwrCap hd0 1000) (pwrCapForm 1000) = true ∧
      goes (withE (hostE.copyCap (hostE.arrivingCap 0 hd0 48000))) hd0 (.pwrCap hd0 48000) (pwrCapForm 48000) = true ∧
      ((pwrCapForm 1000).check hostE 0 hd0).isNone = true ∧ hostE.intakeWaits (pwrCapForm 1000) hd0 = false ∧ first (withE hostE) hd0 = none ∧
      ({ hostE with power := { state := .standby, target := .standby, stage := 4, up := true } } : Engine).power.up = true ∧ reaches hostE (thermQueryForm hd0 (2 ^ 20) hostE) = true ∧
      reaches hostE (throttleQueryForm hd0 (2 ^ 20) hostE) = true := by decide +kernel
theorem witness_MaintenanceCommands :
    let remap (e : Engine) := darnRemapForm 0 695 e
    let loose : Engine := { hostE with parts := [] }
    reaches hostE (darnReadForm hd0 95 (2 ^ 20) hostE) = true ∧ reaches hostE (remap hostE) = true ∧
      (taken (withE hostE) hd0).siteState { field := 0, site := 695 } = .active ∧
      ((taken (withE hostE) hd0).field 0).vOf 695 = some 695 ∧ (taken (withE hostE) hd0).partOf 0 = some 0 ∧
      reaches loose (remap loose) = true ∧ (taken (withE loose) hd0).partOf 0 = none ∧ reaches hostE (rinseSetForm 1 0x03E80840#32 hostE) = true ∧
      reaches hostE (selfTestForm 0 0 hostE) = true ∧ reaches hostE (selfTestForm 1 1 hostE) = true ∧
      (∀ sc ∈ [0, 1, 2], reaches hostE (resetForm sc 1 0 719 hostE) = true) ∧ ((taken (withE hostE) hd0).deck 1).latchedOff = false ∧
      reaches hostE (resetForm 2 0 0 695 hostE) = true ∧ reaches hostE (journalReadForm hd0 (2 ^ 32 - 1) (2 ^ 20) hostE) = true := by decide +kernel
theorem witness_SnapshotResults_commands :
    let f (m : Nat) := snapshotForm hd0 m 0 (2 ^ 20) hostE
    let g := restoreForm hd0 1 0 [0] hostE
    reaches hostE (f 1) = true ∧ (taken (withE hostE) hd0).snapRefused 1 = false ∧ reaches hostE (f 2) = true ∧
      (taken (withE hostE) hd0).snapRefused 2 = true ∧ reaches hostE g = true ∧ (taken (withE hostE) hd0).snapRefused 1 = false := by decide +kernel
/-- The engine with one snapshot or restore. -/
def snapE (x : Snap) : Engine := { hostE with snaps := [x] }
theorem witness_SnapshotResults_capture :
    let x : Snap := { hd := hd0, mask := 2, addr := 0, bytes := 0, tick := 0, restore := false }
    let y : Snap := { x with bytes := 2 ^ 40 }
    let z : Snap := { x with capturing := true }
    (snapE x).snaps.find? (fun k => !k.restore && (snapE x).snapDue 0 k) = some x ∧ x.bytes < (snapE x).snapSize x.mask ∧
      (snapE y).snaps.find? (fun k => !k.restore && (snapE y).snapDue 0 k) = some y ∧ (snapE y).snapSize 2 ≤ y.bytes ∧
      (snapE z).snaps.find? (fun k => !k.restore && (snapE z).snapDue 0 k) = none ∧ (snapE z).snaps.find? (fun k => k.capturing) = some z ∧
      (snapE x).snaps.find? (fun k => k.capturing) = none := by decide +kernel
/-- A snapshot that a twin has not committed to is not due. -/
theorem witness_SnapshotResults_promised :
    let x : Snap := { hd := hd0, mask := 1, addr := 0, bytes := 0, tick := 0, restore := false, act := some { id := 256, coordinator := 1, mine := true, nodes := [5] } }
    (snapE x).snaps.find? (fun k => !k.restore && (snapE x).snapDue 0 k) = none := by decide +kernel
theorem witness_SnapshotResults_restore :
    let x : Snap := { hd := hd0, mask := 1, addr := 0, bytes := 0, tick := 0, restore := true }
    let e := snapE x
    let head := natBytes 0x4B534E50 4 ++ natBytes 0 60
    e.snaps.find? (fun x => x.restore && e.snapDue 0 x) = some x ∧ regionResidue 1 head = none ∧
      (readSections x.data).isNone = true ∧ (readSections head).isSome = true ∧
      ((setBits x.mask 32).findSome? (fun p => e.restoreRefused ((readSections head).getD []) p)).isSome = true ∧
      ((setBits 0 32).findSome? (fun p => e.restoreRefused ((readSections head).getD []) p)).isSome = false ∧
      restoredCount { x with mask := 0 } ((readSections head).getD []) = 0 ∧
      (e.restoreAll { x with mask := 0 } ((readSections head).getD [])).isSome = true ∧ e.shortOf512 (setBits 0 32) = 0 := by decide +kernel
theorem witness_ZarogCommands_ports :
    let up := zE { state := .up }
    let off := zE { state := .disabled }
    let dead := zE { state := .disabled, enable := false }
    reaches up (zportCtlForm 23 0 up) = true ∧ reaches off (zportCtlForm 23 1 off) = true ∧ reaches up (zportCtlForm 23 2 up) = true ∧
      ((taken (withE up) hd0).zport 23).enable = true ∧ reaches dead (zportCtlForm 23 1 dead) = true ∧
      ((taken (withE dead) hd0).zport 23).enable = false ∧ reaches up (zportQueryForm hd0 23 (2 ^ 20) up) = true := by decide +kernel
theorem witness_ZarogCommands_pace :
    let f (src : Nat) := paceSrcForm src 23 hostE
    (∀ src < 4, reaches hostE (f src) = true) ∧ (List.range 32).find? (fun p => ((boundE { part0 with image := some 3 }).part p).image.isSome) = some 0 ∧ (taken (withE hostE) hd0).pace.src = 4 ∧ (∀ p < 32, ((taken (withE hostE) hd0).part p).image = none) := by decide +kernel
theorem witness_ZarogCommands_pair :
    let two : Engine := { hostE with engineId := 0x1001, zports := [(0, { state := .up, pnode := 5 }), (23, { state := .up, pnode := 5 })] }
    let m := 1 + 2 ^ 23
    let single := pairCfgForm hd0 0 0 0 [] hostE
    let f := pairCfgForm hd0 1 m 0 [1] two
    reaches hostE single = true ∧ reaches two f = true ∧ (∀ p < 32, ((taken (withE two) hd0).part p).spanLast = 0) ∧ (taken (withE two) hd0).badLinks m = [] ∧
      (taken (withE two) hd0).partnerId ((setBits m 24).headD 0) = 0x1005 ∧ two.grade = 96 := by decide +kernel
theorem witness_ZarogCommands_takeover :
    let e (k : Bool) (m : Nat) : Engine := { hostE with pair := { mode := m, primary := k } }
    reaches (e false 1) (pairTakeoverForm (e false 1)) = true ∧ (taken (withE (e false 1)) hd0).pair.primary = false ∧
      reaches (e true 2) (pairTakeoverForm (e true 2)) = true ∧ (taken (withE (e true 2)) hd0).pair.mode = 2 := by decide +kernel
theorem witness_ZarogCommands_route :
    let e := zE { state := .parked }
    let own := zrouteSetForm 0x1002 0xFFFFFF e
    let far := zrouteSetForm 0x1005 1 e
    reaches e own = true ∧ (∀ z < 24, ((taken (withE e) hd0).zport z).state = .disabled ∨ ((taken (withE e) hd0).zport z).state = .parked) ∧
      reaches e far = true ∧ (taken (withE e) hd0).node ≠ 0xFFF := by decide +kernel

/-! ### Imprinting and repair -/

/-- A frame that fails its CRC. -/
def badFrame : List Byte := []
/-- One slice of one page in virtual tile 0. -/
def slice0 : Slice := { dataPages := 1 }
/-- A session over field 0, with that slice on the first site. -/
def sessE (st : SessState) : Engine :=
  { imprintE { state := st, image := 3, hd := some hd0, sites := [some 0], alloc := [(0, 0)] } with
    images := [(3, { state := .imprinting, footprint := 1, slices := [slice0] })] }
/-- A READY image whose one slice, without pages, has something to repair, and a repair of it. -/
def repairE : Engine :=
  { images := [(3, { state := .ready, footprint := 1, slices := [{ digest := sha384 [] }], recovered := [0] })]
    repairs := [{ img := 3, slice := 0, target := at0, stripes := [], pages := [] }] }

theorem witness_ImprintResults_erase : (sessE .erasing).session.state = .erasing ∧ (sessE .erasing).session.hd = some hd0 ∧ ({} : Engine).session.state ≠ .erasing ∧
    (sessE .committing).session.state = .committing ∧ ({ sessE .committing with session := { (sessE .committing).session with hd := none } } : Engine).session.hd = none := by decide
theorem witness_ImprintResults_frame :
    let e := { sessE .streaming with sup := { imprintEn := true, nvEnable := true } }
    e.session.state = .streaming ∧ e.nvGranted = true ∧ e.sliceFenced 0 = false ∧ (0, 0) ∉ e.session.programmed ∧ 0 < slice0.pages ∧
      (readFrame badFrame).part = (e.image e.session.image).partIndex ∧ (e.image e.session.image).slices[(readFrame badFrame).slice]? = some slice0 ∧
      (readFrame badFrame).ok = false ∧ e.session.limited = none := by decide +kernel
theorem leNat_natBytes (n v : Nat) (h : v < 256 ^ n) : leNat (natBytes v n) = v := by
  induction n generalizing v with
  | zero => simp at h; simp [natBytes, leNat, h]
  | succ n ih =>
    simp only [natBytes, leNat, BitVec.toNat_ofNat]
    rw [ih (v / 256) (by rw [Nat.pow_succ] at h; omega)]
    omega
theorem crc32c_lt (bs : List Byte) : crc32c bs < 2 ^ 32 := by
  have step : ∀ n c, c < 2 ^ 32 → crcShift n c < 2 ^ 32 := by
    intro n
    induction n with
    | zero => intro c h; exact h
    | succ n ih =>
      intro c h
      refine ih _ ?_
      split
      · exact Nat.xor_lt_two_pow (by omega) (by decide)
      · omega
  have fold : ∀ (l : List Byte) (c : Nat), c < 2 ^ 32 → l.foldl (fun c b => crcShift 8 (c ^^^ b.toNat)) c < 2 ^ 32 := by
    intro l
    induction l with
    | nil => intro c h; exact h
    | cons b l ih => intro c h; exact ih _ (step 8 _ (Nat.xor_lt_two_pow h (by have := b.isLt; omega)))
  exact Nat.xor_lt_two_pow (fold bs _ (by decide)) (by decide)
/-- The header of a frame of part 0, slice 0, page 0 with a CRC. -/
def frameHead (crc : Nat) : Nat := 0x4B46 * 2 ^ 240 + crc * 2 ^ 144
/-- A frame that a session takes: any page content behind its header. -/
theorem witness_ImprintResults_frame_taken (c : List Byte) (n : c.length = pageBytes) :
    let f := readFrame (natBytes (frameHead (crc32c c)) 32 ++ c)
    f.ok = true ∧ f.part = 0 ∧ f.slice = 0 ∧ f.page = 0 := by
  have k := crc32c_lt c
  generalize z : crc32c c = x at k
  have l := natBytes_length (frameHead x) 32
  have h : bytesAt (natBytes (frameHead x) 32 ++ c) 0 32 = frameHead x := by
    rw [bytesAt, List.drop_zero, List.take_left' l]
    exact leNat_natBytes 32 _ (by simp only [frameHead]; omega)
  have d : ((natBytes (frameHead x) 32 ++ c).drop 32).take pageBytes = c := by
    rw [List.drop_left' l, List.take_of_length_le (Nat.le_of_eq n)]
  have f0 : fld (frameHead x) 255 240 = 0x4B46 := by simp only [fld, frameHead, Nat.shiftRight_eq_div_pow]; omega
  have f1 : fld (frameHead x) 175 144 = x := by simp only [fld, frameHead, Nat.shiftRight_eq_div_pow]; omega
  have f2 : fld (frameHead x) 239 238 = 0 := by simp only [fld, frameHead, Nat.shiftRight_eq_div_pow]; omega
  have f3 : fld (frameHead x) 231 200 = 0 := by simp only [fld, frameHead, Nat.shiftRight_eq_div_pow]; omega
  have f4 : fld (frameHead x) 199 176 = 0 := by simp only [fld, frameHead, Nat.shiftRight_eq_div_pow]; omega
  simp only [readFrame, h, d, f0, f1, f2, f3, f4, z, n, beq_self_eq_true, Bool.and_self, and_self]
theorem witness_ImprintResults_verify : (sessE .verifying).session.state = .verifying ∧ (sessE .erasing).session.state ≠ .verifying ∧ (sessE .erasing).session.state ≠ .streaming := by decide
theorem witness_ImprintResults_repair :
    (repairE.image 3).slices[0]? = some { digest := sha384 [] } ∧ repairE.locInSet (repairE.image 3).footprint 0 = some at0 ∧ repairE.cartsOk = true ∧
      repairE.imageLost 3 = false ∧ repairE.repairDue 3 0 at0 = true ∧ (repairE.field 0).fenced = false ∧ (({} : Engine).repairDue 3 0 at0 = false) ∧
      repairE.chooseStripes at0 0 (repairE.goodStripes at0) = some [] := by
  refine ⟨rfl, by decide +kernel, by decide +kernel, by decide +kernel, by decide +kernel, by decide +kernel, by decide +kernel⟩
theorem witness_ImprintResults_verified :
    let r : Repair := { img := 3, slice := 0, target := at0, stripes := [], pages := [] }
    repairE.repairs[0]? = some r ∧ repairE.repairFilled r = true ∧ (∀ x ∈ (repairE.tile r.target).recovering, x.1 ≠ (repairE.image r.img).slot) ∧
      repairE.repairGood r = true ∧ repairE.siteIdle at0 = true := by
  exact ⟨rfl, by decide +kernel, by decide +kernel, by decide +kernel, by decide +kernel⟩
theorem witness_CoverResults_cover :
    let e (n : Nat) := { hostE with tiles := [(0, { strikes := List.replicate n 0 })] }
    (e 2).chairHeld = true ∧ ({ hostE with sup := { chair := [.none, .none, .none] } } : Engine).chairHeld = false ∧ (e 2).partOf at0.field = some 0 ∧ (e 2).siteState at0 = .active ∧ (e 2).coverDue at0 .strikes = true ∧ (e 1).coverDue at0 .strikes = false := by decide +kernel
theorem witness_CoverResults_window :
    let w (g : MapStage) : MapWindow := { covered := at0, spare := { field := 0, site := 696 }, v := 0, stage := g, start := 0, migrate := false, cause := 0 }
    let e (g : MapStage) := { hostE with parts := [(31, { part0 with window := some (w g) })] }
    (e .cover).chairHeld = true ∧ (∀ g ∈ [MapStage.cover, .placement, .migration, .route], ((e g).part 31).window = some (w g)) ∧ (({} : Engine).part 31).window = none ∧ ({} : Engine).windowDue 31 = none := by
  decide +kernel
theorem witness_CoverResults_reimprint :
    let e : Engine := { repairE with tiles := [(0, { recovering := [(0, { field := 0, site := 1 })] })] }
    e.repairs.find? (fun r => r.img == 3 && r.target == at0) = some { img := 3, slice := 0, target := at0, stripes := [], pages := [] } ∧
      ((e.tile at0).recovering.filter (fun x => x.1 == (e.image 3).slot)).map (·.2) = [{ field := 0, site := 1 }] ∧ e.siteState at0 = .active ∧ e.siteIdle at0 = true ∧
      e.chairHeld = true ∧ e.repairFilled { img := 3, slice := 0, target := at0, stripes := [], pages := [] } = true ∧ e.cartsOk = true ∧ (e.field 0).fenced = false := by
  decide +kernel
theorem witness_CoverResults_dark :
    let e : Engine := { fields := [(0, { darnSite := [(0, .dark)] })] }
    e.siteState at0 = .dark ∧ ({} : Engine).chairHeld = true ∧ ({} : Engine).siteState at0 = .active ∧ ({} : Engine).partOf 0 = none := by decide

/-! ### Zarog ports, pace, spans, pairs -/

/-- Zarog port 23 in a state. -/
def portE (k : ZPort) : Engine := { engineId := 0x1001, zports := [(23, k)] }
/-- Partition 31 with the second part of a span over four engines. -/
def spanPart : Part := { part0 with image := some 3, spanLast := 3, spanIndex := 1, spanOf := [(0, 5 + 4096 * 2), (2, 6), (3, 7)] }
/-- The other parts as they announced themselves. -/
def spanHeard : List SpanPart := [{ id := 9, part := 0, node := 5, partition := 2, knows := 14 }, { id := 9, part := 2, node := 6, partition := 0, knows := 15 },
  { id := 9, part := 3, node := 7, partition := 0, knows := 15 }]
/-- The engine with that partition and image. -/
def spanE (q : Part) : Engine :=
  { parts := [(31, q)], images := [(3, { state := .ready, footprint := 1, id := 9, slices := [slice0] })], graphs := [(0, { state := .bound, image := 3 })]
    zroute := [(5, 1), (6, 1), (7, 1)], heard := spanHeard }
/-- A partition of a pair, and the pair's mode. -/
def pairE (m : Nat) (prim : Bool) (q : Part) : Engine := { pair := { mode := m, primary := prim, mask := 1 }, parts := [(31, q)] }
/-- A packet from node 7 to node d. -/
def zpk (ty vc d ttl : Nat) : ZPacket :=
  { type := ty, vc := vc, dnode := d, snode := 7, dpart := 0, epoch := 0, ttl := ttl, sys := true, dvtile := 0, mbox := 0, siteSum := 0, payload := [] }

theorem witness_PortTraining :
    (portE {}).zlive 23 = true ∧ ({} : Engine).zlive 23 = true ∧ (portE { enable := false }).zlive 23 = false ∧
      (∀ st ∈ [ZState.detect, .train, .align, .credit, .up, .backoff], ((portE { state := st, attempts := 14 }).zport 23).state = st ∧
        ((portE { state := st, attempts := 14 }).zport 23).attempts + 1 < 16) ∧ 16 ≤ ((portE { attempts := 15 }).zport 23).attempts + 1 ∧
      ((portE {}).zport 23).powered = true ∧ (({ state := .backoff, attempts := 16 } : ZPort).since + min (2 ^ (16 - 1) * 10000) 10000000 ≤ 10000000) := by decide
theorem witness_PortTraining_partner :
    (0x1005 : Word).toNat / 4096 = (portE {}).engineId.toNat / 4096 ∧ (0x1005 : Word).toNat % 4096 ≠ (portE {}).node ∧ (0x1005 : Word).toNat % 4096 ≠ 0xFFF ∧ (portE {}).node ≠ 0xFFF ∧
      (0x2005 : Word).toNat / 4096 ≠ (portE {}).engineId.toNat / 4096 ∧ (0x1001 : Word).toNat % 4096 = (portE {}).node ∧ ({} : Engine).node = 0xFFF := by decide
theorem witness_PortTraining_lost :
    let w : ZWait := { p := zpk 1 3 5 9, part := some 0 }
    let e := { portE { state := .up, inFlight := [{ w := w, flits := 1, last := 4 }] } with parts := [(0, stepPart)] }
    (e.zport 23).state = .up ∧ w ∈ (e.zport 23).inFlight.map (·.w) ∧ w.part = some 0 ∧ (e.part 0).step = some {} := by decide
theorem witness_PortTraffic_codewords :
    let k : ZPort := { state := .up, rxSeq := 65535, rxSince := 30, txPos := 40, replayTicks := List.replicate 17 0 }
    ((portE k).zport 23).state = .up ∧ (portE k).zlive 23 = true ∧ 65535 % 65536 = k.rxSeq ∧ 65534 % 65536 ≠ k.rxSeq ∧ k.rxSince + 1 < 32 ∧
      32 ≤ ({ k with rxSince := 31 } : ZPort).rxSince + 1 ∧ (k.txSeq 0 + 65536 - 2 % 65536) % 65536 ≤ 2048 ∧ 2048 < (k.txSeq 0 + 65536 - 5 % 65536) % 65536 ∧
      16 < (k.replayTicks.filter (fun x => decide (999 < x + 1000))).length ∧ (k.replayTicks.filter (fun x => decide (1000 < x + 1000))).length ≤ 16 := by decide +kernel
theorem witness_PortTraffic_packets :
    let e := { portE { state := .up, pnode := 5 } with parts := [(0, part0)], zroute := [(5, 2 ^ 23)], decks := [(1, { zarogCr := [(32, { inBucket := 1 })] })] }
    packetFormed (zpk 1 4 5 2) = false ∧ packetFormed (zpk 1 3 5 2) = true ∧ (zpk 1 3 5 2).snode ≠ e.node ∧ (zpk 1 3 5 2).dnode ≠ e.node ∧ (zpk 1 3 5 1).ttl ≤ 1 ∧
      ({ zpk 1 3 5 2 with snode := 1 } : ZPacket).snode = e.node ∧ e.portTo none 6 0 = none ∧ e.portTo none 5 0 = some 23 ∧ e.rxHeld 23 + zpacketFlits (zpk 1 3 5 2) ≤ 32768 ∧
      (zpk 1 3 1 1).dnode = e.node ∧ e.locOfV 0 0 = some at0 ∧ e.locOfV 1 0 = none ∧ (e.takeHem (23 / 12) 1 32 (zpacketFlits (zpk 1 3 1 1))).isSome = true ∧
      e.takeHem (23 / 12) 1 0 1 = none ∧ packetFormed (zpk 5 4 1 1) = true ∧ packetFormed (zpk 6 5 1 1) = true ∧ packetFormed (zpk 2 2 1 1) = true ∧ packetFormed (zpk 3 1 1 1) = true := by
  decide +kernel
/-- A packet as long as the receive buffer that waits to go on leaves no room for another. -/
theorem witness_PortTraffic_full (l : List Byte) (h : l.length = 2097152) :
    32768 < (portE { state := .up, queue := [{ p := { zpk 1 3 5 2 with payload := l }, via := some 23 }] }).rxHeld 23 + zpacketFlits (zpk 1 3 5 2) := by
  have one : zpacketFlits (zpk 1 3 5 2) = 1 := by decide +kernel
  have big : zpacketFlits { zpk 1 3 5 2 with payload := l } = 32769 := by
    show ceilDiv (16 + l.length) 64 = 32769
    rw [h]
    decide
  rw [one]
  simp [Engine.rxHeld, portE, ZWait.flits, big]
theorem witness_PortTraffic_room : (List.replicate 2097152 (0 : Byte)).length = 2097152 := List.length_replicate ..
theorem witness_PaceResults :
    let e (p : Pace) : Engine := { portE { state := .up, nextPace := 64 } with pace := p }
    (e {}).sourceLost 0 = false ∧ (e { src := 0, state := 0 }).sourceLost 3000000 = true ∧ (e { src := 0, state := 0 }).pace.state ≠ 2 ∧ (e {}).pace.src = 4 ∧
      (e { src := 3, port := 23, state := 1 }).pace.port = 23 ∧ ((e {}).zport 23).state = .up ∧ ((e {}).zport 23).nextPace ≤ 64 ∧ 63 < ((e {}).zport 23).nextPace ∧
      ((({} : Engine).zport 23).state ≠ .up) ∧ (e {}).node = 1 ∧ (e { src := 2 }).pace.src = 2 ∧ (1000 : Int).natAbs ≤ 1000 ∧ 1000 < (-1001 : Int).natAbs := by decide
/-- A prepare of each kind at a partition that takes it, and at one that does not. -/
theorem witness_EpochResults_prepare :
    let m (k : ActKind) : Prepare := { part := 31, epoch := 256, what := k, tick := 9, deadline := 5, coordinator := 4 }
    let e (q : Part) : Engine := { parts := [(31, q)] }
    ((e part0).part 31).prepared = none ∧ ((e part0).part 31).state ≠ .free ∧ ((e part0).part 31).state ≠ .rebinding ∧ 5 ≤ (m .snapshot).deadline ∧ (m .snapshot).deadline < 6 ∧
      ((e { part0 with prepared := some { msg := m .snapshot } }).part 31).prepared.isSome = true ∧ ((e part0).part 31).step = none ∧ ((e stepPart).part 31).step ≠ none ∧
      commandOf (.pf 0) [] [] = none ∧
      ({ m .snapshot with twoPhase := false } : Prepare).twoPhase = false := by decide +kernel
/-- A forwarded command: PART_PAUSE as its packet. -/
theorem witness_EpochResults_command :
    ∃ (bs : List Byte) (c : Instr), commandOf (.pf 0) bs [] = some c ∧ (∀ h k a, c ≠ .reqQuery h k a) ∧ (hostEffect c).isSome = true := by
  refine ⟨natBytes 0x0305 2 ++ List.replicate 14 0, .partPause (hdrOf (.pf 0) (natBytes 0x0305 2 ++ List.replicate 14 0)), ?_, ?_, ?_⟩
  · rfl
  · intro h k a
    exact Instr.noConfusion
  · rfl
theorem witness_EpochResults_coordinator :
    let c (w : List Nat) (d : Option Bool) : Coord :=
      { msg := { part := 31, epoch := 1, what := .modes {}, tick := 9, deadline := 5, coordinator := 1 }, nodes := [(2, 31), (3, 31)], waiting := w, decision := d, nextSend := 100 }
    let e (k : Coord) : Engine := { parts := [(31, { part0 with coord := some k, told := [(300, [2], true, 100)] })] }
    ((e (c [2, 3] none)).part 31).coord = some (c [2, 3] none) ∧ (c [2, 3] none).msg.epoch = 1 ∧ 2 ∈ (c [2, 3] none).waiting ∧ (∃ k ∈ (c [2, 3] none).waiting, k ≠ 2) ∧
      (∀ k ∈ (c [2] none).waiting, k = 2) ∧ (c [] (some false)).decision = some false ∧ (c [] (some true)).nextSend ≤ 100 ∧ (c [2] none).msg.deadline ≤ 5 ∧
      (∃ x ∈ ((e (c [] none)).part 31).told, x.2.2.2 ≤ 100) ∧ ((part0).coord = none) := by decide
/-- A shared command that this engine coordinates. -/
theorem witness_EpochResults_held :
    let a (w : List Nat) (d : Option Bool) : Act := { id := 300, coordinator := 1, mine := true, nodes := [2 + 4096 * 31, 3 + 4096 * 31], waiting := w, deadline := 50, decision := d }
    let x (b : Act) : Held := { hd := hd0, cmd := .partPause hd0, parts := [31], act := some b }
    let e (b : Act) : Engine := { decks := [(1, { sched := [x b] })] }
    let w := [2 + 4096 * 31, 3 + 4096 * 31]
    (e (a w none)).actHeld 300 = some (1, x (a w none)) ∧ (x (a w none)).act = some (a w none) ∧ 2 + 4096 * 31 ∈ (a w none).waiting ∧ (∃ j ∈ (a w none).waiting, j ≠ 2 + 4096 * 31) ∧
      (∀ j ∈ (a [2 + 4096 * 31] none).waiting, j = 2 + 4096 * 31) ∧ (a [] (some true)).decision ≠ none ∧ (e (a w none)).lateHeld 31 50 = [(1, x (a w none), a w none)] ∧
      (e (a w none)).lateHeld 31 49 = [] := by decide +kernel
/-- A prepared epoch, one already decided, and one that this engine leads. -/
theorem witness_EpochResults_decision :
    let m : Prepare := { part := 31, epoch := 255, what := .modes {}, tick := 9, deadline := 5, coordinator := 4 }
    let e (q : Part) : Engine := { parts := [(31, q)] }
    ((e { part0 with prepared := some { msg := m } }).part 31).prepared = some { msg := m } ∧ m.epoch = 255 ∧ ({ msg := m } : Prepared).decided = none ∧
      ((e { part0 with prepared := some { msg := m } }).part 31).coord = none ∧ ({ msg := m, decided := some true } : Prepared).decided ≠ none ∧
      ((e { part0 with prepared := some { msg := m }, coord := some { msg := m } }).part 31).coord = some { msg := m } := by decide
theorem witness_SpanResults_announce :
    let e := spanE spanPart
    let q := e.part 31
    let a : SpanPart := { id := 9, part := 3, node := 7, partition := 0, knows := 15 }
    q.spanLast ≠ 0 ∧ a.part ≤ q.spanLast ∧ a.part ≠ q.spanIndex ∧ q.image = some 3 ∧ (e.image 3).id = a.id ∧ heardPart a ∈ e.heard ∧ heardPart { a with knows := 7 } ∉ e.heard := by decide
theorem witness_SpanResults_batch :
    let e := spanE spanPart
    (e.part 31).step = none ∧ (e.part 31).capture = false ∧ e.serving = true ∧ ((spanE { spanPart with step := some {} }).part 31).step.isSome = true ∧
      e.disableStops 0 = e ∧ (({ e with power := { state := .standby } } : Engine).boundary 31 0).mayFollow 31 0 = false := by decide +kernel
/-- With the cap not below the idle draw a step may follow. -/
theorem witness_SpanResults_follow :
    let e : Engine := { spanE spanPart with sup := { hostCap := Config.idleDraw }, decks := [(0, { fwCap := Config.idleDraw }), (1, { fwCap := Config.idleDraw })] }
    e.mayFollow 31 0 = true := by
  intro e
  have c : e.capInForce = Config.idleDraw := by
    show min Config.idleDraw (min Config.idleDraw Config.idleDraw) = _
    simp
  simp only [Engine.mayFollow, Engine.mayServe, c, Nat.le_refl, decide_true]
  decide +kernel
theorem witness_SpanResults_records :
    let g : Graph := { state := .bound, image := 3, nodes := [{ spread := [0] }], classes := [{ tiles := [0], decls := [{ size := 1, role := 1 }] }],
                       placed := [(0, { regions := [(0, 0, 0, 0x80000)] })] }
    let st : Step := { waits := [at0] }
    let e (q : Part) : Engine := { spanE { q with state := .stepping } with graphs := [(0, g)] }
    (e { spanPart with step := some st }).batchTiles 31 = [at0] ∧ at0 ∈ st.waits ∧ (e { spanPart with step := some { handed := true } }).batchTiles 31 = [at0] ∧
      at0 ∉ ({ handed := true } : Step).waits ∧ (e { spanPart with spanIndex := 0, step := some { handed := true } }).sampleSites 31 = [at0] ∧
      (e { spanPart with step := some st }).batchTiles 31 = [at0] ∧ [at0][1]? = none ∧
      0 ∉ ({ handed := true } : Step).records ∧ ((e { spanPart with step := some st }).part 31).spanIndex ≠ 0 := by decide +kernel
theorem witness_PairResults :
    let e := pairE 1 true { part0 with image := some 3, pair := 1 }
    e.pair.mode ≠ 0 ∧ e.pair.nextBeat ≤ 0 ∧ e.pair.lastBeat + 5000 ≤ 5000 ∧ e.pair.alone = false ∧ e.pair.pendingCfg = none ∧
      (∃ p ∈ e.pairedParts, (e.part p).pair ≠ 3) ∧ (e.part 31).image.isSome = true ∧ (e.part 31).spanLast = 0 ∧ (e.part 31).pair ≠ 3 ∧
      ({ e with pair := { pendingCfg := some (hd0, 60) } } : Engine).pair.pendingCfg = some (hd0, 60) := by decide
/-- A secondary of either mode that hears of its primary's stop. -/
theorem witness_PairResults_news :
    let e (m : Nat) := pairE m false { part0 with image := some 3, pair := 2 }
    (∀ m ∈ [1, 2], (e m).pair.mode = m ∧ (e m).pair.primary = false ∧ (e m).pair.pendingCfg = none ∧ ∃ p ∈ (e m).pairedParts, ((e m).part p).pair = 2) := by decide
theorem witness_PairResults_step :
    let e := pairE 1 true { part0 with image := some 3, pair := 1, step := some { drawn := true } }
    (e.part 31).step = some { drawn := true } ∧ e.mirrored 31 = true ∧ (match e.drawStep 31 { drawn := true } with | .tokens _ => true | _ => false) = true ∧
      (match e.drawStep 31 { drawn := true, batch := [{ kind := 1 }] } with | .fault => true | _ => false) = true ∧
      (pairE 2 false { part0 with pair := 2 }).pair.mode = 2 ∧ ((pairE 2 false { part0 with pair := 2 }).part 31).pair = 2 ∧
      4 ∈ ((pairE 2 true { part0 with pair := 1, unacked := [4] }).part 31).unacked := by decide +kernel

/-! ### Supervisor, power, heat, sequencing -/

/-- The engine with another supervisor. -/
def supE (x : Supervisor) : Engine := { sup := x }
/-- The engine with another power sequence. -/
def powerE (p : Power) : Engine := { power := p }

theorem witness_SupervisorResults_chair :
    let free := supE { chair := [.none, .none, .none] }
    let dead : Engine := { decks := [(1, { ctl := { heldReset := true } })] }
    free.mayHold 1 = true ∧ free.sup.chairValue = .none ∧ ({} : Engine).sup.chairValue = .deck 0 ∧ ({} : Engine).mayHold (1 - 0) = true ∧ dead.sup.chairValue = .deck 0 ∧
      dead.mayHold (1 - 0) = false ∧ chairWriteOk (.darnMap 95 695 0) = true ∧ (({} : Engine).deck 0).ctl.follow = false := by decide
theorem witness_SupervisorResults_watchdog :
    let e (r : List Nat) : Engine := { decks := [(1, { ctl := { restarts := r } })] }
    let stopped : Engine := { decks := [(1, { ctl := { running := false } })] }
    4 ≤ (e []).power.stage ∧ ((e []).deck 1).ctl.running = true ∧ 199999 < ((e []).deck 1).ctl.lastWatchdog + 200000 ∧
      ((e [0, 0, 0]).deck 1).ctl.lastWatchdog + 200000 ≤ 200000 ∧ ((((e [0, 0, 0]).deck 1).ctl.restarts.filter (fun t => decide (200000 < t + 3600000000))).length = 3) ∧
      ((((e [0, 0]).deck 1).ctl.restarts.filter (fun t => decide (200000 < t + 3600000000))).length < 3) ∧ (stopped.deck 1).ctl.running = false ∧
      (stopped.deck 1).ctl.heldReset = false ∧ (stopped.deck 1).latchedOff = false := by decide
theorem witness_SupervisorResults_votes :
    ({} : Engine).sup.chair = [.deck 0, .deck 0, .deck 0] ∧ chairOk (.deck 1) = true ∧ (Chair.deck 1 ≠ .deck 0) ∧ (∀ y ∈ ({} : Engine).sup.voteFails, y.1 ≠ 2) ∧
      (supE { chair := [.none, .deck 0, .deck 1] }).sup.chair = [.none, .deck 0, .deck 1] ∧ 4 ≤ ({} : Engine).power.stage ∧
      9 ≤ (({ decks := [(1, { ctl := { claims := 9 } })] } : Engine).deck (1 - 0)).ctl.claims := by decide
/-- The writes of a chair-only register, two failures of one copy within 1 s, three different copies, and the journal's refill. -/
theorem witness_SupervisorResults_more :
    let one := supE { chair := [.deck 0, .none, .deck 0], voteFails := [(1, 0)] }
    chairWriteOk (.darnSite 95 719 .covered) = true ∧ chairWriteOk (.nvEnable true) = true ∧ threeWays one.sup.chair = false ∧ outvoted one.sup.chair = some 1 ∧
      (∃ t, (1, t) ∈ one.sup.voteFails ∧ 1000000 ≤ t + 1000000) ∧ (∀ t, (1, t) ∈ one.sup.voteFails → t + 1000000 < 1000001) ∧
      threeWays [.none, .deck 0, .deck 1] = true ∧ outvoted [.deck 0, .deck 0, .deck 0] = none ∧ (supE {}).sup.bucketAt ≤ 0 ∧ 15624 < (supE { bucketAt := 15625 }).sup.bucketAt ∧
      (supE { safeHold := true }).sup.safeHold = true ∧ (({ decks := [(0, { ctl := { follow := true } })] } : Engine).deck 0).ctl.follow = true := by
  refine ⟨by decide, by decide, by decide, by decide, ⟨0, by decide, by decide⟩, fun t h => ?_, by decide, by decide, by decide, by decide, by decide, by decide⟩
  have : t = 0 := by simpa [supE] using h
  omega
theorem witness_FeedAndPhaseResults_feeds :
    let e (x : Feed) : Engine := { feeds := [(1, x)] }
    let both : Engine := { feeds := [(0, { lost := true }), (1, { lost := true })], sup := { bothAbsent := some 0 } }
    ((e {}).feed true).lost = false ∧ ((e { lost := true }).feed true).lost = true ∧ ((e { lost := true }).feed true).mated = true ∧
      ((e { lost := true, mated := false }).feed true).mated = false ∧ ({} : Engine).power.stage ≠ 0 ∧ both.feedsLost = 3 ∧ both.sup.bothAbsent = some 0 ∧
      0 + 5000000 ≤ 5000000 ∧ ({} : Engine).feedsLost ≠ 3 := by decide
theorem witness_FeedAndPhaseResults_phases :
    let e (x : Field) : Engine := { fields := [(95, x)] }
    (e {}).railsUp (deckOf 95) = true ∧ 11 ∉ ((e {}).field 95).shed ∧ 11 ∈ ((e { shed := [11] }).field 95).shed ∧ ((e {}).field 95).disagree = false ∧
      ((e { shed := List.range 8 }).field 95).shed.length < 9 ∧ ((e { shed := List.range 8 }).field (95 / 2 * 2)).healthy ≥ 4 ∧
      ((e { shed := List.range 8 }).field (95 / 2 * 2 + 1)).healthy ≥ 4 ∧ ((e { disagree := true }).field 95).disagree = true ∧
      (({ decks := [(1, { latchedOff := true })] } : Engine).railsUp (deckOf 95) = false) := by decide
theorem witness_FeedAndPhaseResults_shorts :
    let e (d : Deck) : Engine := { decks := [(1, d)], power := { state := .off, stage := 2, up := true } }
    ((e { latchedOff := true }).deck 1).latchedOff = true ∧ (e {}).softStarting = true ∧ ((e {}).deck 1).attempts = 0 ∧ (∀ n ∈ [1, 2, 3], ((e { attempts := n }).deck 1).attempts = n) ∧
      ({} : Engine).softStarting = false ∧ ({} : Engine).railsUp 1 = true := by decide
theorem witness_CapAndCartridgeResults_crack :
    let e (n : Nat) : Engine := { fields := [(95, { highWin := n, base := [(0, 400)] })] }
    (e 15).railsUp (deckOf 95) = true ∧ (e 15).baseline 95 ((e 15).field 95).cBand * 5 < 501 * 4 ∧ 500 * 4 ≤ (e 15).baseline 95 ((e 15).field 95).cBand * 5 ∧
      ((e 15).field 95).highWin = 15 ∧ ((e 14).field 95).highWin ≠ 15 := by decide
theorem witness_CapAndCartridgeResults_cap :
    let e (k n w : Nat) : Engine := { sup := { hostCap := w, capLevel := k, capLow := n } }
    (e 3 9 1000).capInForce = 1000 ∧ 1000 < 1001 ∧ (980 * 100 ≤ 1000 * 98) ∧ ¬ (981 * 100 ≤ 1000 * 98) ∧ 9 ≤ (e 3 9 1000).sup.capLow ∧ (e 3 8 1000).sup.capLow < 9 := by decide
theorem witness_CapAndCartridgeResults_commit :
    let e (t : Nat) (c : AMap Cartridge) : Engine := { commit := { tick := t }, carts := c }
    (∀ b : Bool, ((e 0 []).cart b).present = true ∧ ((e 0 []).cart b).charged = true) ∧ (e 0 []).power.stage = 8 ∧ (e 0 []).commit.tick + 1000000 ≤ 1000000 ∧
      ¬ (∀ b : Bool, ((e 0 [(1, { present := false })]).cart b).present = true ∧ ((e 0 [(1, { present := false })]).cart b).charged = true) ∧
      (∀ d < 2, ((e 0 []).deck d).latchedOff = false) ∧ mwf (fun _ => ({} : Request)) (e 0 []).reqs = true := by decide
theorem witness_CapAndCartridgeResults_cartridge :
    let e (c : Cartridge) : Engine := { carts := [(1, c)] }
    ((e { present := false }).cart true).present = false ∧ ((e {}).cart true).present = true ∧ ((e {}).cart true).eol = false ∧ min 90 100 = 90 ∧ min 89 100 < 90 ∧
      max 100 80 ≤ min 100 80 + 20 ∧ min 100 79 + 20 < max 100 79 := by decide
theorem witness_HeatResults_samples :
    (List.replicate 48 (719 : Int)).length = 48 ∧ (({} : Engine).field 95).sensors.failed = [] ∧ (∀ r ∈ List.replicate 48 (719 : Int), (0 : Int) ≤ r ∧ r < 720) ∧
      (∀ r ∈ List.replicate 48 (719 : Int), ∀ q ∈ List.replicate 48 (719 : Int), r - q ≤ 240) ∧ (({} : Engine).field 95).cBand = 0 := by
  refine ⟨rfl, rfl, fun r h => ?_, fun r h q k => ?_, rfl⟩
  · rw [List.eq_of_mem_replicate h]
    decide
  · rw [List.eq_of_mem_replicate h, List.eq_of_mem_replicate k]
    decide
/-- With the coolant at the hottest sensor's temperature and no load the prediction is that temperature, whatever the domain's
thermal resistance and time constant. -/
theorem witness_HeatResults_levels (t : Int) (d : Nat) (e : Engine) (h : ((domainFields d).foldl (fun m f => max m (e.field f).hot) (-32768)) = t) :
    e.predict d 0 t = t := by
  simp [Engine.predict, h]
theorem witness_HeatResults_hot :
    let e (r : Int) : Engine := { fields := [(0, { sensors := { readings := List.replicate 48 r } })], domains := [(0, { cool := 9, thermal := 1 })] }
    (e 1521).ruled 0 = true ∧ ((domainFields 0).foldl (fun m f => max m ((e 1521).field f).hot) (-32768)) = 1521 ∧
      ((domainFields 0).foldl (fun m f => max m ((e 1440).field f).hot) (-32768)) = 1440 ∧
      ((domainFields 0).foldl (fun m f => max m ((e 1439).field f).hot) (-32768)) = 1439 ∧ 9 ≤ ((e 1439).domain 0).cool := by decide +kernel
theorem witness_HeatResults_trip :
    let e (n : Nat) : Engine := { fields := [(0, { sensors := { trip := [(35, n), (47, n)] } })] }
    mget (fun _ => 0) 35 ((e 3).field 0).sensors.trip = 3 ∧ mget (fun _ => 0) (32 + 4 * 3 + 3) ((e 2).field 0).sensors.trip = 2 ∧ (e 3).sup.thermLatch = false := by decide
theorem witness_HeatResults_flow :
    ({} : Engine).power.stage ≠ 0 ∧ ({} : Engine).sup.flowLow = none ∧ (supE { flowLow := some 0 }).sup.flowLow = some 0 ∧ 4999999 < 0 + 5000000 ∧
      (supE { flowLow := some 0 }).sup.warm = none := by decide
theorem witness_HeatResults_contacts :
    (supE { imprintEn := true, imprintRun := 9 }).sup.imprintEn = true ∧ 9 ≤ (supE { imprintEn := true, imprintRun := 9 }).sup.imprintRun ∧
      (supE { imprintRun := 8 }).sup.imprintRun < 9 ∧ (supE {}).sup.imprintEn = false ∧ (supE {}).session.state ≠ .failed ∧ (supE {}).sup.pwrOn = false := by decide
theorem witness_SequencingResults_request :
    let e : Engine := { sup := { pwrOn := true }, power := { state := .off, stage := 0 } }
    e.sup.pwrOn = true ∧ e.sup.pwrUsed = false ∧ e.sup.pwrSince + 100000 ≤ 100000 ∧ 99999 < e.sup.pwrSince + 100000 ∧ e.keptOff = false ∧ e.fed = true ∧ e.power.stage = 0 ∧
      e.power.up = false ∧ e.power.down = false ∧ ({} : Engine).sup.bothAbsent = none := by decide
theorem witness_SequencingResults_up :
    let e (n : Nat) : Engine := powerE { state := .off, stage := n, up := true }
    (e 0).power.up = true ∧ (e 0).power.down = false ∧ (e 0).keptOff = false ∧ ({} : StageReport).ok = true ∧ (e 3).power.stage = 3 ∧ (e 3).resets = [] ∧
      (e 3).power.goal ≠ .off ∧ (e 7).power.goal = .ready ∧ ({ e 0 with sup := { leakLatch := true } } : Engine).keptOff = true ∧ ({} : Engine).power.up = false := by decide
theorem witness_SequencingResults_down :
    let e (n : Nat) : Engine := { power := { stage := n, down := true }, parts := [(0, stepPart)] }
    (∀ n ∈ [3, 4, 5, 8], (e n).power.stage = n ∧ (e n).power.down = true) ∧ (∃ x ∈ (e 8).parts, x.2.step.isSome = true) ∧ 49999 < (e 8).power.since + 50000 ∧
      (e 4).power.since + 10000 ≤ 10000 := by decide
theorem witness_SequencingResults_resets :
    let e (sc : Nat) : Engine := { resets := [{ scope := sc, deck := 1, due := 1000 }] }
    (e 0).power.up = false ∧ (e 0).power.down = false ∧ (∀ x ∈ (e 0).resets, x.stage = 0) ∧ (e 0).power.stage = 8 ∧ (e 1).sup.safeHold = false ∧
      ((e 1).deck 1).latchedOff = false := by decide
/-- A deck reset in its stages, one that is due, and the voltage's return. -/
theorem witness_SequencingResults_more :
    let e (r : PendingReset) : Engine := { resets := [r] }
    (e { scope := 1, deck := 1, due := 0, stage := 3 }).runningReset = some { scope := 1, deck := 1, due := 0, stage := 3 } ∧ (e { scope := 1, deck := 1, due := 0, stage := 7 }).runningReset.isSome = true ∧
      (e { scope := 0, deck := 0, due := 0, stage := 3 }).runningReset.isSome = true ∧ ({} : Engine).runningReset = none ∧ (supE { bothAbsent := some 0 }).sup.bothAbsent ≠ none ∧
      (supE { bothAbsent := some 0 }).fed = true ∧ ({ power := { target := .standby, state := .off, stage := 0 } } : Engine).power.target ≠ .off ∧
      ({ pace := { src := 2 } } : Engine).pace.src = 2 := by decide
/-- The edges of the coolant's limits and a domain that may be throttled. -/
theorem witness_HeatResults_edges :
    (supE { flow := 699 }).sup.flow < 700 ∧ 700 ≤ (supE { flow := 700 }).sup.flow ∧ (supE { flow := 699 }).sup.flowLow = none ∧ throttleable 0 = true ∧ (799 < 800) ∧
      (supE { flow := 800, flowLow := some 0 }).sup.flowLow = some 0 ∧ 800 ≤ (supE { flow := 800, flowLow := some 0 }).sup.flow ∧
      (supE { flow := 799, flowLow := some 0 }).sup.flow < 800 := by decide

/-! ### The specification's worked examples -/

/-- The weight and activation elements of the example of a block-pair product (chapter 2). -/
def exW : List Int := (List.range 32).map (fun i => ((i % 8 : Nat) : Int) - 4)
/-- The activation elements. -/
def exA : List Int := (List.range 32).map (fun i => 2 * (i : Int) - 31)

theorem test_example_block_fields :
    blockField 4 exW = 0x3210FEDC3210FEDC3210FEDC3210FEDC ∧ blockField 8 exA = 0x1F1D1B19171513110F0D0B0907050301FFFDFBF9F7F5F3F1EFEDEBE9E7E5E3E1 ∧
      blockResidue exW 0x788 = 0x2F ∧ blockResidue exA 0x750 = 0xBC := by decide +kernel
theorem test_example_product :
    pairAdd 0 (.int 4) (.int 8) { field := blockField 4 exW, tag := 0x2F788 } { field := blockField 8 exA, tag := 0xBC750 } =
      some { reg := 0, n := 645120 * 2 ^ 142, res := 0x78 } := by decide +kernel
theorem test_example_long_register :
    (({} : LReg).add { reg := 0, n := 645120 * 2 ^ 142, res := 0x78 }).1 = { value := 0x0000000276000000#384 <<< 128, res := 0x78 } := by decide +kernel
theorem test_example_emit :
    emitBlock 127 ((645120 * 2 ^ 142 : Int) :: List.replicate 31 0) 1 = { elems := 126 :: List.replicate 31 0, code := 0x728 } ∧
      tagOf (emitBlock 127 ((645120 * 2 ^ 142 : Int) :: List.replicate 31 0) 1) = 0xAD728 := by decide +kernel
theorem test_example_vanish :
    (emitBlock 127 ((2 ^ 97 : Int) :: (-3 * 2 ^ 95) :: List.replicate 30 0) 1).outcome = .vanished ∧
      emitBlock 127 ((3 * 2 ^ 96 : Int) :: (-3 * 2 ^ 95) :: List.replicate 30 0) 1 = { elems := 1 :: List.replicate 31 0, code := 0x020 } := by decide +kernel
theorem test_example_saturate :
    let b := emitBlock 127 ((2 ^ 240 : Int) :: 2 ^ 229 :: (-2 ^ 230) :: List.replicate 29 0) 1
    b.elems.take 3 = [127, 33, -65] ∧ b.outcome = .saturated ∧ tagOf b = 0xECFDF := by decide +kernel
theorem test_example_region_word : regWord 0x040 20 true 2 true 3 2 = 0x2004FA3200000000 := by decide
theorem test_example_fold_fits :
    fits 2 1 (645120 * 2 ^ 142) = true ∧ fits 2 1 (-3 * 2 ^ 158) = true ∧ fits 2 1 (2 ^ 160 + 2 ^ 120) = false ∧ res255 (-3 * 2 ^ 158) = 0x3F ∧
      res255 (2 ^ 160 + 2 ^ 120) = 0x02 := by decide +kernel
/-- Slots of the two flits of that example. -/
theorem test_example_fold_add :
    let f (a b : Int) (x y : Nat) : Flit := { bank := 1, reg := 0, wlo := 2, wcnt := 1, whole := false, count := 1, slots := [(0, a, x), (1, b, y), (3, 0, 0), (4, 0, 0), (5, 0, 0)] }
    addFlits at0 (f 0x276000000 (-0xC0000000) 0x78 0x3F) (f 0x80000000 0x40000000 0x80 0x40) = { f 0x2F6000000 (-0x80000000) 0xF8 0x7F with count := 2 } := by decide +kernel
/-- A block of the example of an attention pass. -/
def exBlock (n code : Nat) (l : List Int) : RawBlock := { field := blockField n (l ++ List.replicate (32 - l.length) 0), tag := code }
theorem test_example_norm_codes :
    [[7, 0, 3], [2], [-6]].map (fun l => normCode [storedBlock (.int 4) (exBlock 4 0x7C0 l)]) = [136, 128, 135] ∧
      normCode [storedBlock (.int 8) (exBlock 8 0x720 [64])] = 128 ∧ boundB 264 = 4 * 2 ^ 24 := by decide +kernel
/-- Scores 3.5, 1.0 and -3.0 in units of 2^-200. -/
theorem test_example_scores :
    [[7, 0, 3], [2], [-6]].map (fun l => scoreOf [(laneBlock (.int 8) (exBlock 8 0x720 [64])).1] [(laneBlock (.int 4) (exBlock 4 0x7C0 l)).1]) =
      [some (7 * 2 ^ 199), some (2 ^ 200), some (-3 * 2 ^ 200)] := by decide +kernel
theorem test_example_exp_terms :
    rne (-8388608 * log2eQ30) (2 ^ 22) = -3098164010 ∧ rne (-50331648 * log2eQ30) (2 ^ 22) = -18588984060 ∧ rne (-117440512 * log2eQ30) (2 ^ 22) = -43374296140 ∧
      (expKernel (-8388608)).2 = -1 ∧ (expKernel (-50331648)).2 = -5 ∧ (expKernel (-117440512)).2 = -11 := by decide +kernel

/-- Requests of the example of an assembly (chapter 10). -/
def exReqs : AMap Request :=
  let mk (t : Nat) : Request := { part := 3, tenant := t, state := .decode, newest := some 1, spec := true, len := 10 }
  let pr (t n c : Nat) : Request := { part := 3, tenant := t, state := .queued, promptLen := n, promptEnd := n, chunkMax := c, prompt := List.replicate (min n c) 5 }
  let tree (n : Nat) : Option (Nat × List (Nat × Nat)) := some (10, List.replicate n (3, 0))
  [(0, { mk 9 with prio := 5, tree := tree 16 }), (1, pr 9 100 512), (2, { mk 12 with tree := tree 8 }), (3, { mk 12 with tree := tree 8 }), (4, pr 12 500 512),
   (5, mk 7), (6, mk 7), (7, mk 7), (8, pr 7 3000 2048)]
/-- A tenant of partition 3. -/
def exTenant (w : Nat) (d : Int) : Tenant := { weight := w, deficit := d, bound := true, part := 3, enable := true }
/-- The engine of that example. -/
def exEngine : Engine :=
  { reqs := exReqs
    tenants := [(7, exTenant 2 0), (9, exTenant 1 0), (12, exTenant 4 (-200))]
    parts := [(3, { fields := 1, state := .idle, image := some 0, rrNext := 9, modes := { posCap := 1024, spec := true } })]
    images := [(0, { state := .ready, footprint := 1 })]
    graphs := [(0, { state := .bound, cap := 4096 })] }
theorem test_example_assembly :
    let r := exEngine.assemble 3 0
    r.2.length = 1024 ∧ (r.1.part 3).rrNext = 9 ∧ (r.1.tenant 7).deficit = -133 ∧ (r.1.tenant 9).deficit = 0 ∧ (r.1.tenant 12).deficit = -206 := by decide +kernel
theorem test_example_epoch_lead : leadOf 18 = 8 ∧ leadOf 42 = 15 ∧ leadOf 10 = 5 := by decide
theorem test_example_ledger_words :
    let x : LedgerEntry := { field := 0x1C, site := 681, pvalid := true, sev := 2, arg0 := 0x2C1001C071C, arg1 := 0x10 }
    x.word % 2 ^ 64 = 0x001C071C00000010 ∧ x.word / 2 ^ 64 % 2 ^ 64 = 0x1CAA4180000002C1 := by decide
theorem test_example_phase_levels : phaseLevel 9 = 2 ∧ phaseLevel 10 = 0 := by decide
theorem test_example_bins : binOf 16384 2 306800 = 9 ∧ binOf 16384 2 5787000 = 17 ∧ binOf 16384 2 503800 = 10 := by decide +kernel
theorem test_vf_enable :
    let f (o : Host.Outcome State Fault Refusal) : Option (Option Nat) := match o with | .next t => some (t.eng.fnPort (.vf 3)) | _ => none
    f (.next State.reset) = some none ∧ f (exec (.registerWrite (.pf 0) sriovControl 1) State.reset) = some (some 0) := by decide +kernel
/-- Table 4.13: the word of an MMA, field by field. -/
theorem test_example_word :
    instrOf h0 0x60002960A3400000#64 = .mma h0 { a := 10, b := 11, imm := 0xA3400000 } ∧ wordOf 6 0 { a := 10, b := 11, imm := 0xA3400000 } = 0x60002960A3400000#64 := by
  decide +kernel
/-- A word from the bit positions of Table 4.1: GROUP 63:60, OP 59:52, OPD 51:47, OPA 46:42, OPB 41:37, OPC 36:32, IMM or MOD 31:0. -/
def bits (g op d a b c m : Nat) : Word := BitVec.ofNat 64 (g <<< 60 ||| op <<< 52 ||| d <<< 47 ||| a <<< 42 ||| b <<< 37 ||| c <<< 32 ||| m)
/-- A word of each table; the word 0 is an ADD of x0, the NOP (R124); SUB in its immediate form; a GROUP that no table lists (R118). -/
theorem test_words :
    instrOf h0 0 = .add h0 {} ∧ instrOf h0 (bits 0 0x81 3 1 0 0 7) = .sub h0 { alt := true, d := 3, a := 1, imm := 7 } ∧
      instrOf h0 (bits 1 0x0B 0 1 2 0 8) = .std h0 { a := 1, b := 2, imm := 8 } ∧ instrOf h0 (bits 2 0x09 1 4 0 0 0) = .jalr h0 { d := 1, a := 4 } ∧
      instrOf h0 (bits 3 0x03 5 6 7 8 0x40000000) = .vfma h0 { d := 5, a := 6, b := 7, c := 8, imm := 0x40000000 } ∧
      instrOf h0 (bits 5 0x0A 0 0 0 0 0xC0000000) = .folds h0 { imm := 0xC0000000 } ∧ instrOf h0 (bits 7 0x00 0 9 0 0 0) = .apass h0 { a := 9 } ∧
      instrOf h0 (bits 8 0x02 0 1 2 0 0) = .mtrn h0 { a := 1, b := 2 } ∧ instrOf h0 (bits 9 0x02 0 1 2 3 0) = .dwr h0 { a := 1, b := 2, c := 3 } ∧
      instrOf h0 (bits 0xA 0x01 0 1 2 0 15) = .recv h0 { a := 1, b := 2, imm := 15 } ∧ instrOf h0 (bits 0xB 0x01 4 1 2 0 10) = .rget h0 { d := 4, a := 1, b := 2, imm := 10 } ∧
      instrOf h0 (bits 4 0 0 0 0 0 0) = .add h0 { other := some 0x400 } := by
  decide +kernel
/-- R209: its longest route. -/
theorem test_longest_route :
    let p := routeOn {} { deck := 0, x := 0, y := 0 } { deck := 0, x := 191, y := 179 }
    p.length = 56 ∧ latency p = 152 := by decide +kernel

/-- The submission of the example of a packet (Tables 11.10, 11.13 and 11.16). -/
def exSubmit : List Byte :=
  [0x00000038002A0101, 0, 0x0000004010000000, 0x00000100000002BC, 0x5A17, 0, 0x3F6666663F800000, 0x0B27020000000002, 0x2504].flatMap (fun w => natBytes w 8)
theorem test_example_packet :
    commandOf (.vf 37) exSubmit [] = some (.reqSubmit { fn := .vf 37, tag := 0x2A } {
      promptAddr := 0x4010000000, promptLen := 700, maxLen := 256, key := 0x5A17, deadline := 0, temp := 0x3F800000, topP := 0x3F666666, eos := 2, chunkMax := 512
      topkM1 := 39, prio := 3, spec := true, retain := false, image := 4, tenant := 37 }) := by decide +kernel
/-- FN_ID of that tenant's function, assigned to port 5 of deck 1, and an access that reads as 0. -/
theorem test_register_read :
    let e : Engine := { ports := [(5, { vfEnable := true })], vfAssign := [(37, 0x85)] }
    e.registerRead (.vf 37) 0 9 = some 0x2515 ∧ e.registerRead (.vf 37) 0x10 9 = some 9 ∧ e.registerRead (.vf 37) 4 9 = some 0 ∧ e.registerRead (.vf 37) 0x1000 9 = some 0 ∧
      e.registerRead (.pf 5) 0 9 = some 0x1D := by decide +kernel

/-! ### The hash of FIPS 180-4 -/

/-- The first 8 bytes of SHA-384 of the standard's one-block message. -/
theorem test_sha384 : (sha384 [0x61, 0x62, 0x63]).take 8 = [0xCB, 0x00, 0x75, 0x3F, 0x45, 0xA3, 0x5E, 0x8B] := by decide +kernel

end Sys2Proof.Tests
end

section
/-!
PROOFS. What every command and every step can do: a command is an effect on the engine, guarded by the units that it names; stage 4 of
power-up alone sets PACE_NOW as well.
-/
namespace Sys2Proof.Machine

open Sys2Proof.Safety

/-! ### Which units a command names -/

/-- A command has its effect on the engine alone, where the units that it names exist (R17, Table 0.4). -/
def RunsOnEngine (i : Instr) (s : State) : Prop := ∃ f, exec i s = onUnit i.named s f

theorem fnOk_eq_wf (f : Fn) : fnOk f = f.wf := by cases f <;> rfl

theorem chairOk_eq_wf (c : Chair) : chairOk c = c.wf := by cases c <;> rfl

theorem chairWriteOk_eq_wf (c : ChairWrite) : chairWriteOk c = c.wf := by cases c <;> rfl

section Shapes
variable {i : Instr} {s : State} {f : Nat → Engine → Engine}

/-- An event of the engine as a whole names no unit. -/
theorem RunsOnEngine.ofNone {e : Engine} (hn : i.named = true) (he : exec i s = .next (withEng s e)) : RunsOnEngine i s :=
  ⟨fun _ _ => e, he.trans (by rw [hn]; rfl)⟩

/-- An event that names units of its own, none of them a hart, a site or a function. -/
theorem RunsOnEngine.ofUnits {u : Bool} (hn : i.named = u) (he : exec i s = onUnit u s f) : RunsOnEngine i s :=
  ⟨f, he.trans (by rw [hn])⟩

theorem RunsOnEngine.ofHart {h : Hart} (hn : i.named = (h.wf && true && true && true && true)) (he : exec i s = onUnit (hartOk h) s f) :
    RunsOnEngine i s :=
  .ofUnits (by simp [hn, hartOk, locOk, Hart.wf, Loc.wf]) he

theorem RunsOnEngine.ofHdr {h : Hdr} (hn : i.named = (h.fn.wf && true && true && true)) (he : exec i s = onUnit (fnOk h.fn) s f) :
    RunsOnEngine i s :=
  .ofUnits (by simp [hn, fnOk_eq_wf]) he

theorem RunsOnEngine.ofSite {t : Loc} (hn : i.named = (t.wf && true && true)) (he : exec i s = onUnit (locOk t) s f) : RunsOnEngine i s :=
  .ofUnits (by simp [hn, locOk, Loc.wf]) he

theorem RunsOnEngine.ofSiteAnd {t : Loc} {u : Bool} (hn : i.named = (t.wf && true && u)) (he : exec i s = onUnit (locOk t && u) s f) :
    RunsOnEngine i s :=
  .ofUnits (by simp [hn, locOk, Loc.wf]) he

theorem RunsOnEngine.ofFn {x : Fn} (hn : i.named = (x.wf && true)) (he : exec i s = onUnit (fnOk x) s f) : RunsOnEngine i s :=
  .ofUnits (by simp [hn, fnOk_eq_wf]) he

end Shapes

/-- By kind: tile instructions, host commands, events of a site, of a site and more, of a function, of other units, of none. -/
theorem runsOnEngine (i : Instr) (s : State) (hi : ∀ rep, i ≠ .powerUpStage rep) : RunsOnEngine i s := by
  cases i with
  | add | sub | and | or | xor | sll | srl | sra | slt | sltu | min | max | minu | maxu | mul | mulh | mulhu | div | divu | rem | remu | clz | ctz
  | popc | lih | ldb | ldh | ldw | ldd | ldbu | ldhu | ldwu | stb | sth | stw | std | amoadd | amoswap | cas | vldr | vldc | vlds | vstr | vstc
  | vsts | vunpk | beq | bne | blt | bge | bltu | bgeu | jal | jalr | fence | fenceI | tbar | waitc | rdpace | rdcnt | endThread | vadd | vsub | vmul
  | vfma | vdiv | vsqrt | vmin | vmax | vneg | vabs | vexp | vcmp | vsel | vcvt | vlog | vbcast | vext | vmov | vperm | lplace | lemitS | lemitB
  | ldivS | ldivB | lexp | lclr | lexpect | folds | mma | apass | mfill | mcopy | mtrn | nvrd | drd | dwr | send | recv | rchk | rget | waitTimeout =>
    exact .ofHart rfl rfl
  | reqSubmit | reqQuery | reqUpdate | reqPause | reqResume | reqCancel | reqRelease | reqAppend | reqDraft | imgFit | imgBegin | imgStream | imgEnd
  | imgAbort | imgPatch | imgTierLoad | imgRelease | imgQuery | keyEnrol | partBindFields | partBindImage | tenantBind | partMode | partPause
  | partResume | partReset | tenantSet | hemSet | kvReserve | graphLoad | graphUnload | graphQuery | adaptSave | adaptRestore | monRead | nwRead
  | nwWrite | histRead | histClear | tenantQuery | pwrState | pwrCap | thermQuery | throttleQuery | darnRead | darnRemap | rinseSet | selfTest
  | snapshot | restore | reset | journalRead | schedWithdraw | zportCtl | zportQuery | paceSrc | pairCfg | zrouteSet | pairTakeover => exact .ofHdr rfl rfl
  | mmaComplete | attnPassEnd | moverComplete | nvDescComplete | dramDescComplete | portFault | sendComplete | taskGrant | taskRelease | foldCombine
  | foldReceive | hemReservationReturn | recoveryChainPage | rinsePass | guardWindowEnd | kvRinse | nvPatrol | kvSpill | siteCovered | strikeExpiry
  | siteDark => exact .ofSite rfl rfl
  | msgDelivery | spRegionWrite | hemReservation | bankGuarded | guardConversionDone | slotZeroFillDone | kvReserveFetch
  | reserveCacheFill | blobTransfer | repairWrite | sliceReimprintVerified => exact .ofSiteAnd rfl rfl
  | statusDelivery | msixCoalesceTimeout | commandFetch | doorbell | ringCfgEnable | dwDataWrite | dwLaunch | registerWrite | flr => exact .ofFn rfl rfl
  | allSignalCombine | stepBegin | scheduledActionHold | stepClose | stepHalt | stepReexecute | promptFetch | heldPacketWrite | lossStoreDrain
  | tokenDelivery | scheduledCommandApply | ledgerHeadRead | ledgerAck | vfAssignWrite | pcieLinkDown | pcieLinkUp | hotReset
  | packetArrival | xstopDisabled | dramRefresh | fieldVerify | mapWindowStageDone | fieldSetRebindStage | zportSignalDetect | zportTrainDone
  | zportTrainTimeout | zportAlignDone | zportAlignTimeout | zportCreditDone | zportCreditTimeout | zportLossOfSignal | zportBackoffElapsed
  | zportUpStable | zarogCodewordReceive | zarogNak | zportReplayLimit | linkFlit | zarogPacketReceive | zarogModuleInsert
  | paceExchange | epochPrepare | epochAck | epochDecision | epochDeadline | epochDecisionResend | spanAnnounce | spanBatchReceive | spanHandoff
  | spanRecordsReturn | spanAcceptedPath | pairReady | mirrorDigest | standbyReplication | replicationAck | chairRequest
  | watchdogWrite | watchdogRestart | controllerRestartDone | phaseOvercurrent | phaseShed | phaseDisagreement | deckShort | softStartRetry
  | crackDrop | sensorSample | thermalDecision | thermalTrip | leak | bridgeLaneDisabled | phaseDisagreementClear => exact .ofUnits rfl rfl
  | depSignal | hemBucketRefill | imprintEraseDone | imprintFrame | imprintCommit | repairWriteVerified | paceHoldover | paceLocked | pairHeartbeat
  | pairHeartbeatLoss | chairClaimSample | supervisorSelfCheck | journalBucketRefill | feedLoss | feedSenseMated | powerLoss | latchClear
  | capDecision | periodicCommit | cartridgeRemoval | cartridgeInsertion | cartridgeCharged | cartridgeEstimatesDisagree | coolantFlow
  | flowRestoreTimeout | intlkSample | pwrOnRequest | powerDownStage | resetTakeEffect | snapshotCapture | snapshotCaptureDone
  | restoreApply | monitorSample | feedReturn | coolantFlowRestored | cartridgeEndOfLife | ptpMessage | paceInEdge | pairCfgTimeout => exact .ofNone rfl rfl
  | proxyRead t q r =>
    have hn : (Instr.proxyRead t q r).named = (t.wf && true && (r.wf && q.wf)) := rfl
    cases q with
    | kvSlot => exact .ofUnits (hn.trans (by simp only [Bool.and_true, ← Bool.and_assoc]; rfl)) rfl
    | nvPage => exact .ofUnits (hn.trans (by simp only [Bool.and_true, ← Bool.and_assoc]; rfl)) rfl
  | rcCounterRead c hw => cases c with
    | fab | disp | lost => exact .ofUnits rfl rfl
    | drops x => exact .ofUnits (fnOk_eq_wf x).symm rfl
  | portConnectorFault p => cases p with | pcie | zarog => exact .ofUnits rfl rfl
  | chairOnlyWrite d w => exact .ofUnits (by rw [chairWriteOk_eq_wf]; rfl) rfl
  | chairVote flip => exact .ofUnits (by simp only [chairOk_eq_wf]; rfl) rfl
  | powerUpStage rep => exact absurd rfl (hi rep)

/-! ### What a step can do -/

/-- The one command that is more than an effect on the engine: stage 4 of power-up sets PACE_NOW too (R370). -/
theorem exec_cases (i : Instr) (s : State) : RunsOnEngine i s ∨ ∃ rep, i = .powerUpStage rep := by
  by_cases hi : ∃ rep, i = .powerUpStage rep
  · exact .inr hi
  · exact .inl (runsOnEngine i s (fun rep h => hi ⟨rep, h⟩))

theorem exec_named (i : Instr) (s : State) (hn : i.named = true) : ∃ t, exec i s = .next t ∧ t.pending = s.pending := by
  obtain ⟨f, he⟩ | ⟨rep, rfl⟩ := exec_cases i s
  · exact ⟨withEng s (f s.now s.eng), he.trans (by rw [hn]; rfl), rfl⟩
  · exact ⟨_, rfl, rfl⟩

theorem exec_unnamed (i : Instr) (s : State) (hn : i.named = false) : exec i s = .fault .noSuchUnit := by
  obtain ⟨f, he⟩ | ⟨rep, rfl⟩ := exec_cases i s
  · exact he.trans (by rw [hn]; rfl)
  · cases hn

/-- An effect on the engine alone leaves PACE_NOW as it is. -/
theorem RunsOnEngine.now_eq {i : Instr} {s t : State} (h : RunsOnEngine i s) (ht : exec i s = .next t) : t.now = s.now := by
  obtain ⟨f, he⟩ := h
  rw [he] at ht
  cases hn : i.named with
  | true => rw [hn] at ht; cases ht; rfl
  | false => rw [hn] at ht; cases ht

theorem powerUpStage_now {rep : StageReport} {s t : State} (ht : exec (.powerUpStage rep) s = .next t) : t.now = s.eng.paceAt s.now rep := by
  cases ht; rfl

/-- Every command leaves PACE_NOW as it is, or is stage 4 of power-up and sets it (R370). -/
theorem exec_now (i : Instr) (s t : State) (ht : exec i s = .next t) :
    t.now = s.now ∨ ∃ rep, i = .powerUpStage rep ∧ s.eng.power.up = true ∧ s.eng.power.stage = 3 ∧ s.eng.resets = [] ∧
      t.now = if s.eng.pace.src = 2 ∨ s.eng.pace.src = 3 then rep.paceValue % 2 ^ 64 else 0 := by
  obtain h | ⟨rep, rfl⟩ := exec_cases i s
  · exact .inl (h.now_eq ht)
  · have hp := powerUpStage_now ht
    by_cases hc : s.eng.power.up ∧ s.eng.power.stage = 3 ∧ s.eng.resets = []
    · exact .inr ⟨rep, rfl, hc.1, hc.2.1, hc.2.2, hp.trans (if_pos hc)⟩
    · exact .inl (hp.trans (if_neg hc))

theorem exec_now_lt (i : Instr) (s t : State) (hs : s.now < 2 ^ 64) (ht : exec i s = .next t) : t.now < 2 ^ 64 := by
  obtain h | ⟨rep, -, -, -, -, h⟩ := exec_now i s t ht
  · exact h ▸ hs
  · rw [h]
    split
    · exact Nat.mod_lt _ (by decide)
    · decide

theorem step_cons {s : State} {c : Instr} {rest : List Instr} (h : s.pending = c :: rest) : step s = exec c { s with pending := rest } := by
  unfold step; rw [h]

theorem step_nil {s : State} (h : s.pending = []) : step s = .next (idle s) := by
  unfold step; rw [h]

theorem idle_off {s : State} (h : s.eng.power.state = .off) : idle s = s := if_pos h

theorem idle_on {s : State} (h : s.eng.power.state ≠ .off) : idle s = { s with now := (s.now + 1) % 2 ^ 64 } := if_neg h

theorem idle_now_lt (s : State) (hs : s.now < 2 ^ 64) : (idle s).now < 2 ^ 64 := by
  by_cases h : s.eng.power.state = .off
  · rw [idle_off h]; exact hs
  · rw [idle_on h]; exact Nat.mod_lt _ (by decide)

theorem step_now_lt (s t : State) (hs : s.now < 2 ^ 64) (ht : step s = .next t) : t.now < 2 ^ 64 := by
  cases hp : s.pending with
  | nil =>
    rw [step_nil hp] at ht
    cases ht
    exact idle_now_lt s hs
  | cons c rest =>
    exact exec_now_lt c { s with pending := rest } t hs (step_cons hp ▸ ht)

/-- Settles O1: the two cases of the queue. -/
theorem stepRunsTheFrontCommand : Obligations.StepRunsTheFrontCommand :=
  ⟨fun _ _ _ => step_cons rfl, fun _ hp hs => (step_nil hp).trans (congrArg _ (idle_on hs)), fun _ hp hs => (step_nil hp).trans (congrArg _ (idle_off hs)),
    fun _ _ => rfl⟩

/-- Settles O2: every command is an effect guarded by the units it names, or stage 4 of power-up, which names none. -/
theorem everyNamedCommandCompletes : Obligations.EveryNamedCommandCompletes :=
  fun i s => ⟨exec_named i s, exec_unnamed i s⟩

/-- Settles O3: the commands by `exec_now`, the bound by the two cases of the queue. -/
theorem paceNowNeverJumps : Obligations.PaceNowNeverJumps :=
  ⟨exec_now, step_now_lt⟩

end Sys2Proof.Machine
end

section
/-!
PROOFS. Register accesses: ledger registers and read-clear counters (R14, R336), registers that keep what is written (R15, R323, R328,
R340), and scratchpad regions (R161 to R163).
-/
namespace Sys2Proof.Machine

open Sys2Proof.Safety

/-! ### Outcomes -/

theorem onUnit_of {ok : Bool} {s : State} {f : Nat → Engine → Engine} (h : ok = true) : onUnit ok s f = .next (withEng s (f s.now s.eng)) := by
  rw [h]; rfl

/-- A command of units there are, with its effect rewritten. -/
theorem onUnit_eq {ok : Bool} {s : State} {f : Nat → Engine → Engine} {e : Engine} (h : ok = true) (hf : f s.now s.eng = e) :
    onUnit ok s f = .next (withEng s e) := by rw [onUnit_of h, hf]

/-- A command of units there are that has no effect. -/
theorem onUnit_same {ok : Bool} {s : State} {f : Nat → Engine → Engine} (h : ok = true) (hf : f s.now s.eng = s.eng) : onUnit ok s f = .next s :=
  onUnit_eq h hf

/-! ### Updates by functions that agree where they are applied -/

theorem mmod_congr {α : Type} [DecidableEq α] {d : Nat → α} {k : Nat} {f g : α → α} {m : AMap α} (h : f (mget d k m) = g (mget d k m)) :
    mmod d k f m = mmod d k g m := by simp only [mmod, h]

theorem Engine.modDeck_congr {e : Engine} {d : Nat} {f g : Deck → Deck} (h : f (e.deck d) = g (e.deck d)) : e.modDeck d f = e.modDeck d g := by
  simp only [Engine.modDeck, mmod_congr (d := fun _ => ({} : Deck)) h]

theorem Engine.modTile_congr {e : Engine} {t : Loc} {f g : Tile → Tile} (h : f (e.tile t) = g (e.tile t)) : e.modTile t f = e.modTile t g := by
  simp only [Engine.modTile, mmod_congr (d := fun _ => ({} : Tile)) h]

/-! ### Fields of numbers -/

theorem fld_low (v hi : Nat) : fld v hi 0 = v % 2 ^ (hi + 1) := rfl

theorem fld_one (v i : Nat) : fld v i i = v / 2 ^ i % 2 := by
  simp [fld, Nat.shiftRight_eq_div_pow]

theorem dvd_setFld {m v hi lo x : Nat} (hv : m ∣ v) (hl : m ∣ 2 ^ lo) : m ∣ setFld v hi lo x := by
  simp only [setFld, Nat.shiftLeft_eq]
  exact Nat.dvd_add (Nat.dvd_sub hv (hl.mul_left _)) (hl.mul_left _)

/-- A number with its low bits cleared. -/
theorem dvd_setFld_low (v hi : Nat) : 2 ^ (hi + 1) ∣ setFld v hi 0 0 := by
  simp only [setFld, fld_low, Nat.shiftLeft_eq, pow_zero, mul_one, Nat.zero_mod, add_zero]
  exact Nat.dvd_sub_mod v

/-! ### Ledger registers and read-clear counters -/

theorem Ledger.cnt_eq (l : Ledger) : l.cnt = l.lost % 2 ^ 32 * 2 ^ 32 + l.entries.length % 2 ^ 13 := by
  simp only [Ledger.cnt, pack, packHigh]; omega

section Ledger
variable {s : State} {port d : Nat} (hp : port < 8) (hd : d < 2)
include hp hd

theorem exec_ledgerHeadRead_cons {x : LedgerEntry} {r : List LedgerEntry} (h : (s.eng.deck d).ledger.entries = x :: r) (poison : Bool) :
    exec (.ledgerHeadRead port d poison) s = .next (withEng s
      ((s.eng.modDeck d (fun k => { k with ledger := { k.ledger with latched := some x, poison := poison } })).send (.read x.seq))) :=
  onUnit_eq (by simp [hp, hd]) (by simp only [Engine.ledgerHead, h])

/-- The value that a ledger without entries reads as is free (log entry 147). -/
theorem exec_ledgerHeadRead_nil (h : (s.eng.deck d).ledger.entries = []) (poison : Bool) : exec (.ledgerHeadRead port d poison) s =
    .next (withEng s (({ s.eng with freeCtr := s.eng.freeCtr + 1 } : Engine).send (.read (s.eng.ledgerHead d)))) :=
  onUnit_eq (by simp [hp, hd]) (by simp only [h])

theorem exec_ledgerAck_oldest {x : LedgerEntry} {r : List LedgerEntry} (h : (s.eng.deck d).ledger.entries = x :: r) {v : Word}
    (hv : v.toNat % 2 ^ 32 = x.seq) : exec (.ledgerAck port d v) s =
      .next (withEng s (s.eng.modDeck d (fun k => { k with ledger := { k.ledger with entries := r } }))) :=
  onUnit_eq (by simp [hp, hd]) (Engine.modDeck_congr (by simp only [h, hv, if_true]))

theorem exec_ledgerAck_other {x : LedgerEntry} {r : List LedgerEntry} (h : (s.eng.deck d).ledger.entries = x :: r) {v : Word}
    (hv : v.toNat % 2 ^ 32 ≠ x.seq) : exec (.ledgerAck port d v) s = .next (withEng s (s.eng.modDeck d id)) :=
  onUnit_eq (by simp [hp, hd]) (Engine.modDeck_congr (by simp only [h, if_neg hv.symm, id]))

theorem exec_rcCounterRead_lost (hw : Bool) : exec (.rcCounterRead (.lost port d) hw) s = .next (withEng s
    ((s.eng.modDeck d (fun k => { k with ledger := { k.ledger with lost := if hw then 1 else 0 } })).send
      (.read ((s.eng.deck d).ledger.lost % 2 ^ 32 * 2 ^ 32 + (s.eng.deck d).ledger.entries.length % 2 ^ 13)))) :=
  onUnit_eq (by simp [hp, hd]) (by rw [Ledger.cnt_eq]; rfl)

end Ledger

section Counters
variable {s : State} {d : Nat} (hd : d < 2)
include hd

theorem exec_rcCounterRead_fab : exec (.rcCounterRead (.fab d) false) s =
    .next (withEng s ((s.eng.modDeck d (fun k => { k with fab := [] })).send (.read (quad (s.eng.deck d).fab)))) :=
  onUnit_of (by simp [hd])

theorem exec_rcCounterRead_disp (hw : Bool) : exec (.rcCounterRead (.disp d) hw) s = .next (withEng s
    ((s.eng.modDeck d (fun k => { k with disp := if hw then [(0, 1), (1, 1), (2, 1), (3, 1)] else [] })).send (.read (quad (s.eng.deck d).disp)))) :=
  onUnit_eq (by simp [hd]) (by cases hw <;> rfl)

end Counters

theorem exec_rcCounterRead_drops (s : State) {f : Fn} (hf : fnOk f = true) (hw : Bool) : exec (.rcCounterRead (.drops f) hw) s =
    .next (withEng s ((s.eng.modFn f (fun x => { x with dwDrops := if hw then 1 else 0 })).send (.read (s.eng.fn f).dwState))) :=
  onUnit_of hf

/-! ### VF_ASSIGN -/

section VfAssign
variable {e : Engine} {t : Nat} {v : Word}

/-- An assignment is ignored while VF Enable is set on the old or the new port (R323). -/
theorem assignVf_enabled (h : ((e.hport (e.vfWord t % 8)).vfEnable || (e.hport (v.toNat % 8)).vfEnable) = true) : assignVf t v e = e :=
  if_pos h

theorem assignVf_free (h : ((e.hport (e.vfWord t % 8)).vfEnable || (e.hport (v.toNat % 8)).vfEnable) = false) :
    assignVf t v e = { e with vfAssign := mset vfAssignReset t (BitVec.ofNat 64 (v.toNat % 8 + 128 * (v.toNat / 128 % 2))) e.vfAssign } := by
  have h7 : fld v.toNat 7 7 = v.toNat / 128 % 2 := fld_one _ 7
  rw [← h7]
  exact if_neg (by simpa [fld_low] using h)

end VfAssign

/-- VF_ASSIGN after a write of one of its words. -/
theorem vfWord_assigned (e : Engine) (t k : Nat) (w : Word) :
    ({ e with vfAssign := mset vfAssignReset t w e.vfAssign } : Engine).vfWord k = if k = t then w.toNat else e.vfWord k := by
  simp only [Engine.vfWord, mget_mset]
  split <;> rfl

theorem exec_vfAssignWrite (s : State) {port t : Nat} (v : Word) (hp : port < 8) (ht : t < 256) :
    exec (.vfAssignWrite port t v) s = .next (withEng s (assignVf t v s.eng)) :=
  onUnit_of (by simp [hp, ht])

/-! ### Registers of a physical function that keep what is written -/

theorem registerWrite_unaligned {f : Fn} {off : Nat} {v : Word} {now : Nat} {e : Engine} (h : off % 8 ≠ 0) : registerWrite f off v now e = e :=
  if_pos (.inr h)

section RegisterWrite
variable {k : Nat} {v : Word} {now : Nat} {e : Engine} (hk : k < 8)
include hk

theorem fnPort_pf : e.fnPort (.pf k) = some k := if_pos hk

theorem registerWrite_ringBase {q : Nat} (hq : q < 2) : registerWrite (.pf k) (0x100 + 0x40 * q) v now e =
    e.modRing (.pf k) q (fun r => if r.enabled then r else { r with base := BitVec.ofNat 64 (v.toNat / 4096 * 4096) }) := by
  obtain rfl | rfl : q = 0 ∨ q = 1 := by omega
  all_goals simp [registerWrite, fnPort_pf hk, hasRing]

theorem registerWrite_ringWbAddr {q : Nat} (hq : q < 2) : registerWrite (.pf k) (0x110 + 0x40 * q) v now e =
    e.modRing (.pf k) q (fun r => if r.enabled then r else { r with wbAddr := BitVec.ofNat 64 (v.toNat / 16 * 16) }) := by
  obtain rfl | rfl : q = 0 ∨ q = 1 := by omega
  all_goals simp [registerWrite, fnPort_pf hk, hasRing]

/-- LEDGER_THRESH of a deck: a value from 1 to 4,096 is kept. -/
theorem registerWrite_thresh {d : Nat} (hd : d < 2) : registerWrite (.pf k) (0x30048 + 0x1000 * d) v now e =
    if 1 ≤ v.toNat % 2 ^ 13 ∧ v.toNat % 2 ^ 13 ≤ 4096 then e.modDeck d (fun x => { x with thresh := v.toNat % 2 ^ 13 }) else e := by
  obtain rfl | rfl : d = 0 ∨ d = 1 := by omega
  all_goals simp [registerWrite, fnPort_pf hk, fld_low]

theorem registerWrite_sriovControl :
    registerWrite (.pf k) sriovControl v now e = e.modHport k (fun h => { h with vfEnable := v.toNat.testBit 0 }) := by
  simp [registerWrite, fnPort_pf hk, sriovControl]

/-- The windows of a VF through the function of its port. -/
theorem registerWrite_vfWindow {t off : Nat} (ht : t < 256) (ho : off < 128) (ha : off % 8 = 0) (h7 : (e.vfWord t).testBit 7 = true)
    (hpt : e.vfWord t % 8 = k) : registerWrite (.pf k) (0x20000 + 128 * t + off) v now e = writeWindow e (.vf t) (off / 16) (off % 16 == 8) v := by
  have hn : ¬ ((e.fnPort (.pf k)).isNone = true ∨ (0x20000 + 128 * t + off) % 8 ≠ 0) := by simp [fnPort_pf hk]; omega
  have h1 : (0x20000 + 128 * t + off - 0x20000) / 128 = t := by omega
  have h2 : (0x20000 + 128 * t + off - 0x20000) % 128 = off := by omega
  have h3 : (0x20000 + 128 * t + off) % 16 = off % 16 := by omega
  have h4 : bitAt (e.vfWord t) 7 = true ∧ fld (e.vfWord t) 2 0 = k := ⟨h7, hpt⟩
  unfold registerWrite
  simp only [h1, h2, h3]
  rw [if_neg hn, if_neg (by omega), if_neg (by omega), if_neg (by omega), if_neg (by omega), if_neg (by omega), if_pos (by omega), if_pos h4]

theorem exec_registerWrite (s : State) (off : Nat) (v : Word) :
    exec (.registerWrite (.pf k) off v) s = .next (withEng s (registerWrite (.pf k) off v s.now s.eng)) :=
  onUnit_of (by simp [fnOk, hk])

end RegisterWrite

/-! ### Reads of BAR0 -/

theorem registerRead_none {e : Engine} {f : Fn} (h : e.fnPort f = none) (off now : Nat) : e.registerRead f off now = none := by
  simp [Engine.registerRead, h]

section RegisterRead
variable {e : Engine} {f : Fn} (h : (e.fnPort f).isSome = true) (now : Nat)
include h

theorem registerRead_unaligned {off : Nat} (ho : off % 8 ≠ 0) : e.registerRead f off now = some 0 := by
  obtain ⟨p, hp⟩ := Option.isSome_iff_exists.mp h
  simp [Engine.registerRead, hp, ho]

theorem registerRead_paceNow : e.registerRead f 0x10 now = some now := by
  obtain ⟨p, hp⟩ := Option.isSome_iff_exists.mp h
  simp [Engine.registerRead, hp]

theorem registerRead_pba : e.registerRead f 0x2800 now = some (e.fn f).pba := by
  obtain ⟨p, hp⟩ := Option.isSome_iff_exists.mp h
  simp [Engine.registerRead, hp]

theorem registerRead_cmdPtr : e.registerRead f 0x118 now = some ((e.fn f).ring 0).ptr := by
  obtain ⟨p, hp⟩ := Option.isSome_iff_exists.mp h
  cases f <;> simp [Engine.registerRead, hp, hasRing]

theorem registerRead_dwState : e.registerRead f 0x5008 now = some (e.fn f).dwState := by
  obtain ⟨p, hp⟩ := Option.isSome_iff_exists.mp h
  simp [Engine.registerRead, hp]

/-- A write-only register reads as 0. -/
theorem registerRead_doorbell : e.registerRead f 0x1000 now = some 0 := by
  obtain ⟨p, hp⟩ := Option.isSome_iff_exists.mp h
  cases f <;> simp [Engine.registerRead, hp]

end RegisterRead

/-! ### Scratchpad regions -/

/-- RSV of a region entry reads as 0 (Table 0.3). -/
theorem regWritten_rsv (old v : Word) : (regWritten old v).toNat % 2 ^ 32 = 0 := by
  simp only [regWritten, BitVec.toNat_ofNat, Nat.mod_mod_of_dvd _ (show 2 ^ 32 ∣ 2 ^ 64 by decide)]
  exact Nat.mod_eq_zero_of_dvd (dvd_setFld (dvd_setFld_low v.toNat 31) (by decide))

/-- Granules zero-filled, in their order (R163). -/
def Tile.zeroGranules (ti : Tile) (l : List Nat) : Tile := l.foldl (fun ti g => ti.zero (g * 4096) 4096) ti

theorem Tile.zeroGranules_cons (ti : Tile) (g : Nat) (l : List Nat) : ti.zeroGranules (g :: l) = (ti.zero (g * 4096) 4096).zeroGranules l := rfl

theorem Tile.zeroGranules_frame (l : List Nat) (ti : Tile) : { ti.zeroGranules l with sp := ti.sp, badWords := ti.badWords } = ti := by
  induction l generalizing ti with
  | nil => rfl
  | cons g l ih =>
    rw [Tile.zeroGranules_cons]
    exact congrArg (fun x : Tile => { x with sp := ti.sp, badWords := ti.badWords }) (ih (ti.zero (g * 4096) 4096))

theorem Tile.readByte_zeroGranules (l : List Nat) (ti : Tile) (a : Nat) :
    readByte (ti.zeroGranules l).sp a = if a / 4096 ∈ l then 0 else readByte ti.sp a := by
  induction l generalizing ti with
  | nil => simp [Tile.zeroGranules]
  | cons g l ih =>
    have hg : (g * 4096 ≤ a ∧ a < g * 4096 + 4096) ↔ a / 4096 = g := by omega
    have hz : readByte (ti.zero (g * 4096) 4096).sp a = if a / 4096 = g then 0 else readByte ti.sp a := by
      simp only [Tile.zero, readByte_zeroRange, hg]
    rw [Tile.zeroGranules_cons, ih, hz]
    by_cases h1 : a / 4096 = g <;> by_cases h2 : a / 4096 ∈ l <;> simp [h1, h2]

theorem Tile.mem_badWords_zeroGranules (l : List Nat) (ti : Tile) (k : Nat) :
    k ∈ (ti.zeroGranules l).badWords ↔ k ∈ ti.badWords ∧ k / 512 ∉ l := by
  induction l generalizing ti with
  | nil => simp [Tile.zeroGranules]
  | cons g l ih =>
    have hz : k ∈ (ti.zero (g * 4096) 4096).badWords ↔ k ∈ ti.badWords ∧ k / 512 ≠ g := by
      have hg : (!(decide (g * 4096 ≤ 8 * k) && decide (8 * k + 8 ≤ g * 4096 + 4096))) = true ↔ k / 512 ≠ g := by simp; omega
      exact List.mem_filter.trans (and_congr_right' hg)
    rw [Tile.zeroGranules_cons, ih, hz, List.mem_cons]
    tauto

/-- Granules whose region or class a write of an entry changes (R163). -/
def regMoved (old w : Word) : List Nat := (List.range 480).filter (fun g => regHas old g != regHas w g || (regHas w g && regW old != regW w))

theorem mem_regMoved (old w : Word) (g : Nat) :
    g ∈ regMoved old w ↔ g < 480 ∧ (regHas old g ≠ regHas w g ∨ (regHas w g = true ∧ regW old ≠ regW w)) := by
  simp [regMoved]

theorem Tile.setRegion_eq (ti : Tile) (n : Nat) (w : Word) :
    ti.setRegion n w = { ti.zeroGranules (regMoved (ti.reg n) w) with region := mset (fun _ => 0) n w ti.region } := by
  have h := congrArg Tile.region (Tile.zeroGranules_frame (regMoved (ti.reg n) w) ti)
  exact congrArg (fun r => { ti.zeroGranules (regMoved (ti.reg n) w) with region := mset (fun _ => 0) n w r }) h

theorem Tile.setRegion_frame (ti : Tile) (n : Nat) (w : Word) :
    { ti.setRegion n w with region := ti.region, sp := ti.sp, badWords := ti.badWords } = ti := by
  rw [Tile.setRegion_eq]
  exact congrArg (fun x : Tile => { x with region := ti.region }) (Tile.zeroGranules_frame (regMoved (ti.reg n) w) ti)

theorem Tile.setRegion_reg (ti : Tile) (n m : Nat) (w : Word) : (ti.setRegion n w).reg m = if m = n then w else ti.reg m := by
  rw [Tile.setRegion_eq]
  exact mget_mset _ _ _ _ _

theorem Tile.readByte_setRegion_moved {ti : Tile} {n a : Nat} {w : Word} (h : a / 4096 ∈ regMoved (ti.reg n) w) :
    readByte (ti.setRegion n w).sp a = 0 := by
  rw [Tile.setRegion_eq]
  exact (Tile.readByte_zeroGranules _ ti a).trans (if_pos h)

theorem Tile.readByte_setRegion_kept {ti : Tile} {n a : Nat} {w : Word} (h : a / 4096 ∉ regMoved (ti.reg n) w) :
    readByte (ti.setRegion n w).sp a = readByte ti.sp a := by
  rw [Tile.setRegion_eq]
  exact (Tile.readByte_zeroGranules _ ti a).trans (if_neg h)

theorem Tile.mem_badWords_setRegion (ti : Tile) (n : Nat) (w : Word) (k : Nat) :
    k ∈ (ti.setRegion n w).badWords ↔ k ∈ ti.badWords ∧ k / 512 ∉ regMoved (ti.reg n) w := by
  rw [Tile.setRegion_eq]
  exact Tile.mem_badWords_zeroGranules _ ti k

theorem onlyTile_modTile (s : State) (u : Loc) (f : Tile → Tile) : OnlyTile s (withEng s (s.eng.modTile u f)) u where
  now := rfl
  pending := rfl
  engine := rfl
  tiles _ h := mget_mmod_ne _ _ _ h

section Region
variable {s : State} {u : Loc} {n : Nat} (hu : locOk u = true) (hn : n < 64) (v : Word)
include hu hn

theorem exec_spRegionWrite_ok (hi : (s.eng.tile u).inst = []) (ho : (s.eng.tile u).regionOk n (regWritten ((s.eng.tile u).reg n) v) = true) :
    exec (.spRegionWrite u n v) s =
      .next (withEng s (s.eng.modTile u (fun ti => ti.setRegion n (regWritten (ti.reg n) v)))) :=
  onUnit_eq (by simp [hu, hn]) (Engine.modTile_congr (by simp [hi, ho]))

theorem exec_spRegionWrite_refused (h : (s.eng.tile u).inst ≠ [] ∨ (s.eng.tile u).regionOk n (regWritten ((s.eng.tile u).reg n) v) = false) :
    exec (.spRegionWrite u n v) s = .next (withEng s (s.eng.modTile u id)) :=
  onUnit_eq (by simp [hu, hn]) (Engine.modTile_congr (by
    refine if_neg ?_
    obtain h | h := h
    · simp [h]
    · simp [h]))

end Region

/-! ### The statement's parts -/

/-- VF_ASSIGN_WRITE, free to change the assignment or not (R323). -/
theorem vfAssignWrite_results (s : State) (port t : Nat) (v : Word) (hp : port < 8) (ht : t < 256) :
    let old := s.eng.vfWord t % 8
    let new := v.toNat % 8
    ((s.eng.hport old).vfEnable = false → (s.eng.hport new).vfEnable = false →
      ∃ u, exec (.vfAssignWrite port t v) s = .next u ∧ u = withEng s { s.eng with vfAssign := u.eng.vfAssign } ∧
        u.eng.vfWord t = new + 128 * (v.toNat / 128 % 2) ∧ ∀ k, k ≠ t → u.eng.vfWord k = s.eng.vfWord k) ∧
    (((s.eng.hport old).vfEnable || (s.eng.hport new).vfEnable) = true → exec (.vfAssignWrite port t v) s = .next s) := by
  refine ⟨fun ho hn => ?_, fun h => ?_⟩
  · refine ⟨_, (exec_vfAssignWrite s v hp ht).trans (congrArg (fun e => Host.Outcome.next (withEng s e)) (assignVf_free (by rw [ho, hn]; rfl))),
      rfl, ?_, fun k hk => ?_⟩
    · refine (vfWord_assigned s.eng t t _).trans ((if_pos rfl).trans ?_)
      rw [BitVec.toNat_ofNat]; omega
    · exact (vfWord_assigned s.eng t k _).trans (if_neg hk)
  · rw [exec_vfAssignWrite s v hp ht, assignVf_enabled h]; rfl

/-- SP_REGION_WRITE that R162 allows: the entry, and the granules that it moves (R163). -/
theorem spRegionWrite_results (s : State) (u : Loc) (n : Nat) (v : Word) (hu : locOk u = true) (hn : n < 64) :
    let ti := s.eng.tile u
    let w := regWritten (ti.reg n) v
    let moved (g : Nat) : Prop := g < 480 ∧ (regHas (ti.reg n) g ≠ regHas w g ∨ (regHas w g = true ∧ regW (ti.reg n) ≠ regW w))
    ti.inst = [] → ti.regionOk n w = true → ∃ t, exec (.spRegionWrite u n v) s = .next t ∧ OnlyTile s t u ∧
      { t.eng.tile u with region := ti.region, sp := ti.sp, badWords := ti.badWords } = ti ∧
      (∀ m, (t.eng.tile u).reg m = if m = n then w else ti.reg m) ∧
      (∀ a, moved (a / 4096) → readByte (t.eng.tile u).sp a = 0) ∧
      (∀ a, ¬ moved (a / 4096) → readByte (t.eng.tile u).sp a = readByte ti.sp a) ∧
      ∀ k, k ∈ (t.eng.tile u).badWords ↔ k ∈ ti.badWords ∧ ¬ moved (k / 512) := by
  intro ti w moved hi ho
  have ht : (withEng s (s.eng.modTile u (fun ti => ti.setRegion n (regWritten (ti.reg n) v)))).eng.tile u = ti.setRegion n w :=
    Engine.modTile_tile s.eng u _
  have hm (g : Nat) : moved g ↔ g ∈ regMoved (ti.reg n) w := (mem_regMoved _ _ _).symm
  refine ⟨_, exec_spRegionWrite_ok hu hn v hi ho, onlyTile_modTile s u _, ?_⟩
  rw [ht]
  exact ⟨ti.setRegion_frame n w, fun m => ti.setRegion_reg n m w, fun a ha => Tile.readByte_setRegion_moved ((hm _).mp ha),
    fun a ha => Tile.readByte_setRegion_kept (fun h => ha ((hm _).mpr h)),
    fun k => (Tile.mem_badWords_setRegion ti n w k).trans (and_congr_right' (not_congr (hm _).symm))⟩

/-- Settles O36: one lemma for each register. -/
theorem registerResults : Obligations.RegisterResults := by
  refine ⟨fun s port d hp hd => ?_, fun s port t v => vfAssignWrite_results s port t v, fun s k v hk => ?_, fun e f off now => ?_,
    fun s u n v hu hn => ?_⟩
  · exact ⟨fun x r h => ⟨exec_ledgerHeadRead_cons hp hd h, fun v hv => exec_ledgerAck_oldest hp hd h hv, fun v hv => exec_ledgerAck_other hp hd h hv⟩,
      fun h poison => ⟨_, exec_ledgerHeadRead_nil hp hd h poison⟩, exec_rcCounterRead_lost hp hd, exec_rcCounterRead_fab hd,
      exec_rcCounterRead_disp hd false, exec_rcCounterRead_disp hd true, fun f hf hw => exec_rcCounterRead_drops s hf hw⟩
  · simp only [exec_registerWrite hk]
    refine ⟨fun q hq => ?_, fun q hq => ?_, fun d hd => ⟨fun h1 h2 => ?_, fun h => ?_⟩, fun t ht off ho ha h7 hp => ?_, ?_, fun off ho => ?_⟩
    · rw [registerWrite_ringBase hk hq]
    · rw [registerWrite_ringWbAddr hk hq]
    · rw [registerWrite_thresh hk hd, if_pos ⟨h1, h2⟩]
    · rw [registerWrite_thresh hk hd, if_neg (by omega)]; rfl
    · rw [registerWrite_vfWindow hk ht ho ha h7 hp]
    · rw [registerWrite_sriovControl hk]
    · rw [registerWrite_unaligned ho]; rfl
  · exact ⟨fun h => registerRead_none h off now, fun h => ⟨registerRead_unaligned h now, registerRead_paceNow h now, registerRead_pba h now,
      registerRead_cmdPtr h now, registerRead_dwState h now, registerRead_doorbell h now⟩⟩
  · exact ⟨regWritten_rsv _ v, spRegionWrite_results s u n v hu hn, exec_spRegionWrite_refused hu hn v⟩

end Sys2Proof.Machine
end

section
/-!
PROOFS. The imprint session and repair writes (R5, R186 to R194), and sites that leave service (R114, R397, R401 to R408).
-/
namespace Sys2Proof.Machine

open Sys2Proof.Safety

/-- An event of the engine, with its effect rewritten. -/
theorem onEng_eq {s : State} {f : Nat → Engine → Engine} {e : Engine} (h : f s.now s.eng = e) : onEng s f = .next (withEng s e) :=
  onUnit_eq rfl h

/-- An event of the engine that has no effect. -/
theorem onEng_same {s : State} {f : Nat → Engine → Engine} (h : f s.now s.eng = s.eng) : onEng s f = .next s := onEng_eq h

/-! ### Erase and commit -/

section Session
variable {e : Engine} {now : Nat}

theorem eraseDone_other (h : e.session.state ≠ .erasing) : eraseDone now e = e := if_pos h

theorem eraseDone_erasing (h : e.session.state = .erasing) : eraseDone now e =
    let e' : Engine := { e.session.alloc.foldl (fun e x => e.modTile (locOf x.1) (fun ti => ti.erase [x.2])) e with
      session := { e.session with state := .streaming, hd := none } }
    e.session.hd.elim e' (fun hd => e'.reply now hd .ok e.session.image) := by
  simp only [eraseDone, h, ne_eq, not_true_eq_false, if_false]
  cases e.session.hd <;> rfl

theorem commitImage_other (h : e.session.state ≠ .committing) : commitImage now e = e := if_pos h

theorem commitImage_committing (h : e.session.state = .committing) : commitImage now e =
    let e' := (((e.image e.session.image).slices.zipIdx.foldl (fun e x => e.commitSlice now x.2 x.1) e).modImage e.session.image (fun im =>
      { im with state :=
          if im.slices.any (fun x => x.ovf + x.spill != 0) then .incomplete else if im.recovered.isEmpty then .ready else .degraded })).closeSession
    e.session.hd.elim e' (fun hd => e'.reply now hd .ok 0) := by
  simp only [commitImage, h, ne_eq, not_true_eq_false, if_false]
  cases e.session.hd <;> rfl

/-! ### Frames -/

variable {bs : List Byte}

theorem takeFrame_other (h : e.session.state ≠ .streaming) : e.takeFrame now bs = e := if_pos h

/-- A frame has its effect on the engine alone. -/
theorem exec_imprintFrame {s : State} (h : s.eng.takeFrame s.now bs = e) : exec (.imprintFrame bs) s = .next (withEng s e) :=
  congrArg (fun x => Host.Outcome.next (withEng s x)) h

section Streaming
variable (hs : e.session.state = .streaming)
include hs

/-- A frame of another part of a session without a chain to the other engines is discarded (R189). -/
theorem takeFrame_noChain (hp : (readFrame bs).part ≠ (e.image e.session.image).partIndex) (hz : e.session.zport = 0xFF) :
    e.takeFrame now bs = { e with session := { e.session with discarded := e.session.discarded + 1 } } := by
  simp [Engine.takeFrame, hs, hp, hz]

theorem takeFrame_forwarded (hp : (readFrame bs).part ≠ (e.image e.session.image).partIndex) (hz : e.session.zport ≠ 0xFF)
    (hu : (e.zport e.session.zport).state = .up) : e.takeFrame now bs =
      e.zput now e.session.zport { p := e.zheader 6 (e.zport e.session.zport).pnode 0 0 0 true bs } := by
  simp [Engine.takeFrame, hs, hp, hz, hu]

theorem takeFrame_lost (hp : (readFrame bs).part ≠ (e.image e.session.image).partIndex) (hz : e.session.zport ≠ 0xFF)
    (hu : (e.zport e.session.zport).state ≠ .up) : e.takeFrame now bs = e.zlose none := by
  simp [Engine.takeFrame, hs, hp, hz, hu]

theorem takeFrame_noSlice (hp : (readFrame bs).part = (e.image e.session.image).partIndex)
    (hk : (e.image e.session.image).slices[(readFrame bs).slice]? = none) :
    e.takeFrame now bs = { e with session := { e.session with discarded := e.session.discarded + 1 } } := by
  simp [Engine.takeFrame, hs, hp, hk]

/-- A frame of a slice of this engine's part: discarded where R186 or R190 turns it down, else written (R189). -/
theorem takeFrame_slice {sl : Slice} (hp : (readFrame bs).part = (e.image e.session.image).partIndex)
    (hk : (e.image e.session.image).slices[(readFrame bs).slice]? = some sl) : e.takeFrame now bs =
      if e.nvGranted = false ∨ e.sliceFenced (readFrame bs).slice = true ∨ (readFrame bs).ok = false ∨ sl.pages ≤ (readFrame bs).page ∨
          ((readFrame bs).slice, (readFrame bs).page) ∈ e.session.programmed ∨ ∃ l, e.session.limited = some l ∧ (readFrame bs).slice ∉ l then
        { e with session := { e.session with discarded := e.session.discarded + 1 } }
      else e.putPage (readFrame bs).slice sl (readFrame bs).page (readFrame bs).content := by
  cases hl : e.session.limited with
  | none => simp [Engine.takeFrame, hs, hp, hk, hl, or_assoc]
  | some l => simp [Engine.takeFrame, hs, hp, hk, hl, or_assoc]

end Streaming

/-! ### Verification -/

theorem Session.has_iff (s : Session) (k : Nat) (sl : Slice) (f : Nat → Bool) :
    s.has k sl f = true ↔ ∀ i, i < sl.pages → f i = true → (k, i) ∈ s.programmed := by
  simp only [Session.has, List.all_eq_true, List.mem_filter, List.mem_range, List.contains_iff_mem, and_imp]

theorem Session.has_all (s : Session) (k : Nat) (sl : Slice) :
    s.has k sl (fun _ => true) = (List.range sl.pages).all (fun i => s.programmed.contains (k, i)) := by
  simp [Session.has]

/-- The slices of the session on a field. -/
def Engine.fieldSlices (e : Engine) (f : Nat) : List (Nat × Slice) :=
  (e.session.slicesOf f).filterMap (fun k => ((e.image e.session.image).slices[k]?).map (fun x => (k, x)))

/-- Is every NV page of the slices of a field programmed? -/
def Engine.fieldWhole (e : Engine) (f : Nat) : Bool := (e.fieldSlices f).all (fun x => e.session.has x.1 x.2 (fun i => !x.2.inTier i))

theorem fieldWhole_iff (e : Engine) (f : Nat) :
    e.fieldWhole f = true ↔ ∀ x ∈ e.fieldSlices f, ∀ i, i < x.2.pages → x.2.inTier i = false → (x.1, i) ∈ e.session.programmed := by
  simp only [Engine.fieldWhole, List.all_eq_true, Session.has_iff, Bool.not_eq_true']

/-- Is a field's FIELD_VERIFY due: the stream has ended, or all that the field holds in NV has come (R192)? -/
def Engine.verifyDue (e : Engine) (f : Nat) : Bool := e.session.state == .verifying || (e.session.state == .streaming && e.fieldWhole f)

theorem verifyDue_iff (e : Engine) (f : Nat) :
    e.verifyDue f = true ↔ e.session.state = .verifying ∨ (e.session.state = .streaming ∧ e.fieldWhole f = true) := by
  simp [Engine.verifyDue]

theorem verifyField_other {f : Nat} {bad : List Nat} (h : e.verifyDue f = false) : verifyField f bad now e = e :=
  if_pos (show (!e.verifyDue f) = true by rw [h]; rfl)

/-- The slices of a field that are due: read back and sorted into good and failed ones, then recovery and the end of the session. -/
theorem verifyField_due {f : Nat} {bad : List Nat} (h : e.verifyDue f = true) :
    let due := (e.fieldSlices f).filter (fun x => !e.session.verified.contains x.1 && !e.session.failed.contains x.1 && !e.sliceCovered x.1 &&
      (e.session.state == .verifying || (List.range x.2.pages).all (fun i => e.session.programmed.contains (x.1, i))))
    let good (x : Nat × Slice) : Bool := !bad.contains x.1 && e.sliceGood x.1 x.2
    verifyField f bad now e = (({ e with session := { e.session with
      verified := (due.filter good).map (·.1) ++ e.session.verified
      failed := (due.filter (fun x => !good x)).map (·.1) ++ e.session.failed } } : Engine).recoverAll).settleSession now := by
  refine (if_neg (show ¬ (!e.verifyDue f) = true by rw [h]; decide)).trans ?_
  simp only [Session.has_all, Bool.not_and, Bool.not_not]
  rfl

end Session

/-! ### Repair writes -/

section Repair
variable {e : Engine} {now img k : Nat} {u : Loc}

theorem startRepair_none (h : (e.image img).slices[k]? = none) : startRepair img k u now e = e := by
  simp only [startRepair, h]

/-- May a slice be repaired on a site (R5, R194, R402, R407, R409)? -/
def Engine.mayRepair (e : Engine) (img k : Nat) (u : Loc) (sl : Slice) : Prop :=
  let im := e.image img
  (im.state = .ready ∨ im.state = .degraded ∨ im.state = .incomplete) ∧ e.locInSet im.footprint sl.vtile = some u ∧ e.cartsOk = true ∧
    e.imageLost img = false ∧ e.repairDue img k u = true ∧ (e.field u.field).fenced = false

section Slice
variable {sl : Slice} (hk : (e.image img).slices[k]? = some sl)
include hk

theorem startRepair_blocked (h : ¬ e.mayRepair img k u sl) : startRepair img k u now e = e := by
  simp only [startRepair, hk]
  refine if_pos ?_
  by_contra hc
  refine h ?_
  simpa [Engine.mayRepair, or_iff_not_imp_left, and_assoc] using hc

theorem startRepair_may (h : e.mayRepair img k u sl) : startRepair img k u now e =
    let pages := e.nvContents img k sl
    if e.repairs.any (fun r => r.img == img && r.slice == k) then
      { e with repairs := e.repairs.map (fun r => if r.img = img ∧ r.slice = k ∧ r.pages = [] then { r with pages := pages } else r) }
    else match e.chooseStripes u sl.stripes (e.goodStripes u) with
      | none => e.siteEvent now u 0x0203 (((e.tile u).nvBad.headD 0) / 32) 0
      | some ks => { e.allocStripes now u img ks with
          repairs := (e.allocStripes now u img ks).repairs ++ [{ img := img, slice := k, target := u, stripes := ks, pages := pages }] } := by
  simp only [startRepair, hk]
  refine if_neg ?_
  obtain ⟨h1, h2, h3, h4, h5, h6⟩ := h
  simpa [h2, h3, h4, h5, h6, or_iff_not_imp_left] using h1

end Slice

theorem repairs_any_iff : e.repairs.any (fun r => r.img == img && r.slice == k) = true ↔ ∃ r ∈ e.repairs, r.img = img ∧ r.slice = k := by
  simp

/-! ### The end of a repair -/

variable {ok : Bool} {r : Repair}

theorem repairVerified_none (h : e.repairs[k]? = none) : repairVerified k ok now e = e := by
  simp only [repairVerified, h]

/-- May a repair write end now, with either result (R5, R186, R194, R409)? -/
def Engine.repairEnds (e : Engine) (r : Repair) : Prop :=
  e.cartsOk = true ∧ e.repairFilled r = true ∧ (e.field r.target.field).fenced = false ∧
    ∀ x ∈ (e.tile r.target).recovering, x.1 ≠ (e.image r.img).slot

section Ends
variable (hr : e.repairs[k]? = some r)
include hr

theorem repairVerified_blocked (h : ¬ e.repairEnds r) : repairVerified k ok now e = e := by
  simp only [repairVerified, hr]
  refine if_pos ?_
  by_contra hc
  simp only [not_or, Bool.not_eq_false, Bool.not_eq_true, List.any_eq_false, beq_iff_eq] at hc
  obtain ⟨hf, hs, hc, hn⟩ := hc
  exact h ⟨hc, hf, hn, hs⟩

theorem repairVerified_ends (h : e.repairEnds r) : repairVerified k ok now e =
    if !(ok && e.repairGood r) then e.dropRepair r else if e.siteIdle r.target then e.finishRepair now r else e := by
  obtain ⟨hc, hf, hn, hs⟩ := h
  simp only [repairVerified, hr]
  refine if_neg ?_
  simp only [not_or, Bool.not_eq_false, Bool.not_eq_true, List.any_eq_false, beq_iff_eq]
  exact ⟨hf, hs, hc, hn⟩

end Ends

end Repair

/-! ### Covered sites -/

section Covered
variable {e : Engine} {now p : Nat} {u : Loc} {c : CoverCause}

theorem siteCovered_none (h : e.chairHeld = false ∨ e.partOf u.field = none ∨ e.siteState u = .retired) : siteCovered u c now e = e := by
  unfold siteCovered
  obtain h | h | h := h
  · simp only [h, Bool.not_false, if_true]
  · simp only [h, ite_self]
  · simp only [h]
    cases e.partOf u.field <;> exact ite_self e

section Held
variable (hc : e.chairHeld = true) (hp : e.partOf u.field = some p)
include hc hp

theorem siteCovered_active (h : e.siteState u = .active) : siteCovered u c now e = if e.coverDue u c then e.takeOut now u .covered else e := by
  simp only [siteCovered, hc, hp, h, Bool.not_true, Bool.false_eq_true, if_false]

theorem siteCovered_out (h : e.siteState u = .covered ∨ e.siteState u = .dark) : siteCovered u c now e = e.nextWindow now p false := by
  obtain h | h := h <;> simp only [siteCovered, hc, hp, h, Bool.not_true, Bool.false_eq_true, if_false]

theorem siteCovered_spare {w : MapWindow} (h : e.siteState u = .spare) (hw : (e.part p).window = some w) (hs : w.spare = u) :
    siteCovered u c now e = e.failSpare now p w .covered := by
  simp only [siteCovered, hc, hp, h, hw, hs, Bool.not_true, Bool.false_eq_true, if_false, if_true]

theorem siteCovered_otherSpare (h : e.siteState u = .spare) (hw : ∀ w, (e.part p).window = some w → w.spare ≠ u) : siteCovered u c now e = e := by
  simp only [siteCovered, hc, hp, h, Bool.not_true, Bool.false_eq_true, if_false]
  split
  · next w hx => exact if_neg (hw w hx)
  · rfl

end Held

/-! ### Strikes -/

theorem strikeExpiry_same (h : (e.tile u).strikes = (e.tile u).strikes.filter (fun x => decide (now < x + 10000000))) : strikeExpiry u now e = e :=
  if_pos h.symm

theorem strikeExpiry_older (h : (e.tile u).strikes ≠ (e.tile u).strikes.filter (fun x => decide (now < x + 10000000))) : strikeExpiry u now e =
    e.modTile u (fun ti => ti.setStrikes ((e.tile u).strikes.filter (fun x => decide (now < x + 10000000)))) :=
  if_neg (Ne.symm h)

/-- The capture area holds the strikes in one word (Table 13.5). -/
theorem readByte_setStrikes (ti : Tile) (l : List Nat) (a : Nat) (h : a < 0x1FC008 ∨ 0x1FC010 ≤ a) :
    readByte (ti.setStrikes l).sp a = readByte ti.sp a := by
  refine (readByte_writeBytes _ _ _ _).trans (if_neg ?_)
  rw [natBytes_length]; omega

/-! ### The map window -/

theorem nextWindow_none (h : e.windowDue p = none) : e.nextWindow now p false = e := by
  simp only [Engine.nextWindow, h]

theorem mapStageDone_noChair (h : e.chairHeld = false) : mapStageDone p now e = e := by
  simp only [mapStageDone, h, Bool.not_false, if_true]

section Stages
variable (hc : e.chairHeld = true)
include hc

theorem mapStageDone_noWindow (h : (e.part p).window = none) : mapStageDone p now e = e.nextWindow now p false := by
  simp only [mapStageDone, hc, h, Bool.not_true, Bool.false_eq_true, if_false]

variable {w : MapWindow} (hw : (e.part p).window = some w)
include hw

theorem mapStageDone_placement (h : w.stage = .cover ∨ w.stage = .placement) : mapStageDone p now e =
    (e.moveGraphs w.covered w.spare w.v).modPart p (fun q => { q with window := some { w with stage := .migration } }) := by
  obtain h | h := h <;> simp only [mapStageDone, hc, hw, h, Bool.not_true, Bool.false_eq_true, if_false]

theorem mapStageDone_migration (h : w.stage = .migration) : mapStageDone p now e = e.migrateSlots now w := by
  simp only [mapStageDone, hc, hw, h, Bool.not_true, Bool.false_eq_true, if_false]

theorem mapStageDone_route (h : w.stage = .route) : mapStageDone p now e = e.closeWindow now p w := by
  simp only [mapStageDone, hc, hw, h, Bool.not_true, Bool.false_eq_true, if_false]

end Stages

/-! ### Re-imprints -/

variable {img : Nat}

theorem reimprinted_none (h : e.chairHeld = false ∨ e.repairs.find? (fun r => r.img == img && r.target == u) = none) : reimprinted u img now e = e := by
  unfold reimprinted
  obtain h | h := h
  · simp only [h, Bool.not_false, if_true]
  · simp only [h, ite_self]

/-- The sites whose slices of an image a site stands in for. -/
def Engine.standsFor (e : Engine) (u : Loc) (img : Nat) : List Loc := ((e.tile u).recovering.filter (fun x => x.1 == (e.image img).slot)).map (·.2)

/-- May a re-imprint of a slice of an image end on a site now (R186, R402)? -/
def Engine.reimprintEnds (e : Engine) (u : Loc) (img : Nat) (r : Repair) : Prop :=
  e.standsFor u img ≠ [] ∧ e.repairFilled r = true ∧ e.siteState u = .active ∧ e.siteIdle u = true ∧ e.cartsOk = true ∧
    (e.field u.field).fenced = false

section Reimprint
variable {r : Repair} (hc : e.chairHeld = true) (hr : e.repairs.find? (fun r => r.img == img && r.target == u) = some r)
include hc hr

theorem reimprinted_blocked (h : ¬ e.reimprintEnds u img r) : reimprinted u img now e = e := by
  simp only [reimprinted, hc, hr, Bool.not_true, Bool.false_eq_true, if_false]
  refine if_pos ?_
  by_contra hn
  simp only [not_or, Bool.not_eq_false, Bool.not_eq_true, not_not, List.isEmpty_iff] at hn
  exact h hn

theorem reimprinted_ends (h : e.reimprintEnds u img r) : reimprinted u img now e =
    if e.repairGood r then (e.finishRepair now r).retireAll now u (e.standsFor u img)
    else { e with repairs := e.repairs.map (fun x => if x = r then { x with pages := [] } else x) } := by
  simp only [reimprinted, hc, hr, Bool.not_true, Bool.false_eq_true, if_false]
  refine if_neg ?_
  simp only [not_or, Bool.not_eq_false, Bool.not_eq_true, not_not, List.isEmpty_iff]
  exact h

end Reimprint

/-! ### DARK sites -/

/-- The engine once a DARK site has been recorded (R408). -/
def Engine.darkSeen (e : Engine) (now : Nat) (u : Loc) : Engine :=
  e.siteEvent now u 0x0305 (match (e.field u.field).vOf u.site with | some v => e.wordOf u v | none => 0xFFFFFF) 0

/-- The map window of a site's partition. -/
def Engine.windowAt (e : Engine) (u : Loc) : Option (Nat × MapWindow) :=
  (e.partOf u.field).bind (fun p => ((e.part p).window).map (fun x => (p, x)))

/-- A field whose DARK sites break R210 is fenced. -/
def Engine.fenceDark (e : Engine) (now f : Nat) : Engine := if e.darkBroken f then e.fence now f else e

theorem siteDark_none (h : e.chairHeld = false ∨ e.siteState u = .dark) : siteDark u now e = e := by
  unfold siteDark
  obtain h | h := h
  · simp only [h, Bool.not_false, if_true]
  · simp only [h, if_true, ite_self]

/-- How a site goes DARK, by its state and the map window of its partition (R408). -/
def Engine.goDark (e : Engine) (now : Nat) (u : Loc) : SiteState → Option (Nat × MapWindow) → Engine
  | .active, _ => e.takeOut now u .dark
  | .spare, some (p, x) => if x.spare = u then e.failSpare now p x .dark else e.setSite u .dark
  | .covered, some (p, x) =>
    if x.covered = u then (e.setSite u .dark).modPart p (fun q => { q with window := some { x with migrate := false } }) else e.setSite u .dark
  | _, _ => e.setSite u .dark

theorem siteDark_eq (hc : e.chairHeld = true) (hd : e.siteState u ≠ .dark) : siteDark u now e =
    ((e.darkSeen now u).goDark now u (e.siteState u) ((e.darkSeen now u).windowAt u)).fenceDark now u.field := by
  simp only [siteDark, hc, Bool.not_true, Bool.false_eq_true, if_false, if_neg hd]
  cases h : e.siteState u <;> rfl

theorem siteDark_window (hc : e.chairHeld = true) (hd : e.siteState u ≠ .dark) {x : MapWindow} {st : SiteState}
    (hw : (e.darkSeen now u).windowAt u = some (p, x)) (hs : e.siteState u = st) :
    siteDark u now e = ((e.darkSeen now u).goDark now u st (some (p, x))).fenceDark now u.field := by
  rw [siteDark_eq hc hd, hw, hs]

/-- A site that is neither ACTIVE nor a part of its partition's map window is marked DARK and nothing more. -/
theorem goDark_aside {st : SiteState} {win : Option (Nat × MapWindow)} (ha : st ≠ .active)
    (hw : ∀ p x, win = some (p, x) → (st = .spare → x.spare ≠ u) ∧ (st = .covered → x.covered ≠ u)) :
    e.goDark now u st win = e.setSite u .dark := by
  cases st with
  | active => exact absurd rfl ha
  | dark | retired => rfl
  | spare => cases win with
    | none => rfl
    | some w => exact if_neg ((hw w.1 w.2 rfl).1 rfl)
  | covered => cases win with
    | none => rfl
    | some w => exact if_neg ((hw w.1 w.2 rfl).2 rfl)

end Covered

/-! ### The statement -/

/-- Settles O49: one lemma for each event and each state in which it acts. -/
theorem imprintResults : Obligations.ImprintResults := by
  refine ⟨⟨fun s => ⟨?_, ?_, ?_, ?_, ?_, ?_, ?_⟩, fun s img k u hu hi => ⟨?_, fun sl hk => ?_⟩, fun s k ok => ⟨?_, fun r hr => ?_⟩⟩,
    fun s u c hu => ⟨?_, fun p hc hp => ?_⟩, fun s u hu => ⟨?_, ?_⟩, fun s p hp => ⟨?_, fun hc => ⟨?_, fun w hw => ?_⟩⟩, ?_,
    fun s u img hu hi => ⟨?_, fun r hc hr => ?_⟩, fun s u hu => ⟨?_, fun hc hd => ?_⟩⟩
  -- IMPRINT_ERASE_DONE
  · exact fun h => onEng_same (eraseDone_other h)
  · exact fun h => ⟨fun hn => onEng_eq ((eraseDone_erasing h).trans (by rw [hn]; rfl)),
      fun hd hn => onEng_eq ((eraseDone_erasing h).trans (by rw [hn]; rfl))⟩
  -- IMPRINT_COMMIT
  · exact fun h => onEng_same (commitImage_other h)
  · exact fun h => ⟨fun hn => onEng_eq ((commitImage_committing h).trans (by rw [hn]; rfl)),
      fun hd hn => onEng_eq ((commitImage_committing h).trans (by rw [hn]; rfl))⟩
  -- IMPRINT_FRAME
  · exact fun bs h => exec_imprintFrame (takeFrame_other h)
  · refine fun bs h => ⟨fun hp hz => exec_imprintFrame (takeFrame_noChain h hp hz), fun hp hz hu => exec_imprintFrame (takeFrame_forwarded h hp hz hu),
      fun hp hz hu => exec_imprintFrame (takeFrame_lost h hp hz hu), fun hp hk => exec_imprintFrame (takeFrame_noSlice h hp hk),
      fun sl hp hk => ⟨fun hr => ?_, fun hr => ?_⟩⟩
    · exact exec_imprintFrame ((takeFrame_slice h hp hk).trans (if_pos hr))
    · exact exec_imprintFrame ((takeFrame_slice h hp hk).trans (if_neg hr))
  -- FIELD_VERIFY
  · refine fun f bad hf => ⟨fun h => onUnit_same (decide_eq_true hf) (verifyField_other ?_), fun h => onUnit_eq (decide_eq_true hf) (verifyField_due ?_)⟩
    · rw [Bool.eq_false_iff, ne_eq, verifyDue_iff, fieldWhole_iff]
      exact fun hd => hd.elim h.1 (fun hd => h.2.elim (· hd.1) (· hd.2))
    · rw [verifyDue_iff, fieldWhole_iff]
      exact h
  -- REPAIR_WRITE
  · exact fun h => onUnit_same (by simp [hu, hi]) (startRepair_none h)
  · have ho : (locOk u && decide (img < 64)) = true := by simp [hu, hi]
    refine ⟨fun h => onUnit_same ho (startRepair_blocked hk h), fun h hs => ?_, fun h hs hn => ?_, fun ks h hs hn => ?_⟩
    · exact onUnit_eq ho ((startRepair_may hk h).trans (if_pos (repairs_any_iff.mpr hs)))
    · exact onUnit_eq ho ((startRepair_may hk h).trans ((if_neg (mt repairs_any_iff.mp hs)).trans (by rw [hn])))
    · exact onUnit_eq ho ((startRepair_may hk h).trans ((if_neg (mt repairs_any_iff.mp hs)).trans (by rw [hn])))
  -- REPAIR_WRITE_VERIFIED
  · exact fun h => onEng_same (repairVerified_none h)
  · refine ⟨fun h => onEng_same (repairVerified_blocked hr h), fun h hb => ?_, fun h ho hg hi => ?_, fun h ho hg hi => ?_⟩
    · refine onEng_eq ((repairVerified_ends hr h).trans (if_pos ?_))
      obtain hb | hb := hb <;> simp [hb]
    · exact onEng_eq ((repairVerified_ends hr h).trans (by simp [ho, hg, hi]))
    · exact onEng_same ((repairVerified_ends hr h).trans (by simp [ho, hg, hi]))
  -- SITE_COVERED
  · exact fun h => onUnit_same hu (siteCovered_none h)
  · exact ⟨fun ha hd => onUnit_same hu ((siteCovered_active hc hp ha).trans (by rw [hd]; rfl)),
      fun ha hd => onUnit_eq hu ((siteCovered_active hc hp ha).trans (if_pos hd)), fun h => onUnit_eq hu (siteCovered_out hc hp h),
      fun hs => ⟨fun w hw hw' => onUnit_eq hu (siteCovered_spare hc hp hs hw hw'), fun hw => onUnit_same hu (siteCovered_otherSpare hc hp hs hw)⟩⟩
  -- STRIKE_EXPIRY
  · exact fun h => onUnit_same hu (strikeExpiry_same h)
  · exact fun h => ⟨onUnit_eq hu (strikeExpiry_older h), rfl, readByte_setStrikes _ _⟩
  -- MAP_WINDOW_STAGE_DONE
  · exact fun h => onUnit_same (decide_eq_true hp) (mapStageDone_noChair h)
  · exact fun h => onUnit_eq (decide_eq_true hp) (mapStageDone_noWindow hc h)
  · exact ⟨fun h => onUnit_eq (decide_eq_true hp) (mapStageDone_placement hc hw h), fun h => onUnit_eq (decide_eq_true hp) (mapStageDone_migration hc hw h),
      fun h => onUnit_eq (decide_eq_true hp) (mapStageDone_route hc hw h)⟩
  · exact fun e now p h => nextWindow_none h
  -- SLICE_REIMPRINT_VERIFIED
  · exact fun h => onUnit_same (by simp [hu, hi]) (reimprinted_none h)
  · have ho : (locOk u && decide (img < 64)) = true := by simp [hu, hi]
    exact ⟨fun h => onUnit_same ho (reimprinted_blocked hc hr h), fun h hg => onUnit_eq ho ((reimprinted_ends hc hr h).trans (if_pos hg)),
      fun h hg => onUnit_eq ho ((reimprinted_ends hc hr h).trans (if_neg (by simp [hg])))⟩
  -- SITE_DARK
  · exact fun h => onUnit_same hu (siteDark_none h)
  · refine ⟨fun ha => ?_, fun p x hw hs hx => ?_, fun p x hw hs hx => ?_, fun ha hw => ?_⟩
    · exact onUnit_eq hu ((siteDark_eq hc hd).trans (by rw [ha]; rfl))
    · exact onUnit_eq hu ((siteDark_window hc hd hw hs).trans (congrArg (Engine.fenceDark · s.now u.field) (if_pos hx)))
    · exact onUnit_eq hu ((siteDark_window hc hd hw hs).trans (congrArg (Engine.fenceDark · s.now u.field) (if_pos hx)))
    · exact onUnit_eq hu ((siteDark_eq hc hd).trans (congrArg (Engine.fenceDark · s.now u.field) (goDark_aside ha hw)))

end Sys2Proof.Machine
end

section
/-!
PROOFS. A step's beginning, hold, close, halt and re-execution (O27): one lemma for each event and each state in which it acts.
-/
namespace Sys2Proof.Machine
open Sys2Proof.Safety

section Steps
variable {e : Engine} {p now : Nat} {st : Step}

/-! ### STEP_BEGIN -/

/-- The engine at a boundary once its actions are taken: a partition held for an action that is past is idle again (R33, R34). -/
def Engine.boundaryTaken (e : Engine) (p now : Nat) : Engine :=
  let b := (e.disableStops now).boundary p now
  b.modPart p (fun q => { q with state := if q.state = .held && !b.crosses now p then .idle else q.state })

theorem stepBegin_busy (h : (e.part p).step.isSome = true ∨ (e.part p).capture = true ∨ e.serving = false) : stepBegin p now e = e := by
  refine if_pos ?_
  rw [Bool.or_eq_true, Bool.or_eq_true, Bool.not_eq_true', or_assoc]
  exact h

theorem stepBegin_free (hs : (e.part p).step = none) (hc : (e.part p).capture = false) (hv : e.serving = true) :
    stepBegin p now e = if (e.boundaryTaken p now).mayStep p now then (e.boundaryTaken p now).tryStep p now else e.boundaryTaken p now :=
  if_neg (by simp [hs, hc, hv])

/-- The requests of a batch whose rows are cached before the step begins: those that attend in exact mode, in retrieval mode those
with prompt positions (R258, R263). -/
theorem uncached_any_iff {batch : List BatchEntry} :
    (((batch.filter (fun b => !(e.part p).attOn || b.kind == 0)).map (·.req)).eraseDups).any (e.uncached p) = true ↔
      ∃ x ∈ batch, ((e.part p).attOn = false ∨ x.kind = 0) ∧ e.uncached p x.req = true := by
  simp [List.any_eq_true, and_assoc]

section TryStep
variable {a : Engine × List BatchEntry} (ha : (e.preAssemble p now).assemble p now = a)
include ha

theorem tryStep_empty (h : a.2 = []) : e.tryStep p now = a.1 := by
  simp [Engine.tryStep, ha, h]

theorem tryStep_uncached (h : ∃ x ∈ a.2, ((a.1.part p).attOn = false ∨ x.kind = 0) ∧ a.1.uncached p x.req = true) :
    e.tryStep p now = e.preAssemble p now := by
  have hb : a.2.isEmpty = false := by
    obtain ⟨x, hx, -⟩ := h
    exact List.isEmpty_eq_false_iff_exists_mem.mpr ⟨x, hx⟩
  simp only [Engine.tryStep, ha, hb, uncached_any_iff.mpr h, Bool.false_eq_true, if_false, if_true]

theorem tryStep_begins (hb : a.2 ≠ []) (hk : ∀ x ∈ a.2, ((a.1.part p).attOn = true ∧ x.kind ≠ 0) ∨ a.1.uncached p x.req = false)
    (hm : a.1.mirrored p = false) : e.tryStep p now = a.1.beginStep p now a.2 := by
  have hu : ¬ ∃ x ∈ a.2, ((a.1.part p).attOn = false ∨ x.kind = 0) ∧ a.1.uncached p x.req = true := by
    rintro ⟨x, hx, hk', hu⟩
    obtain ⟨ho, h0⟩ | hc := hk x hx
    · exact hk'.elim (by simp [ho]) h0
    · simp [hc] at hu
  simp only [Engine.tryStep, ha, List.isEmpty_iff, hb, mt uncached_any_iff.mp hu, hm, Bool.false_and, Bool.false_eq_true, if_false]

end TryStep

/-! ### SCHEDULED_ACTION_HOLD -/

section Hold
variable (hs : (e.part p).step = none) (hc : (e.part p).capture = false) (hv : e.serving = true)
include hs hc hv

theorem actionHold_idle (hi : (e.part p).state = .idle) (hx : e.crosses now p = true) :
    actionHold p now e = e.modPart p (fun q => { q with state := .held }) := by
  simp [actionHold, hs, hc, hv, hi, hx]

theorem actionHold_waits (hh : (e.part p).state = .held) (hx : e.crosses now p = true) : actionHold p now e = e := by
  simp [actionHold, hs, hc, hv, hh, hx]

theorem actionHold_due (hh : (e.part p).state = .held) (hx : e.crosses now p = false) :
    actionHold p now e = (e.boundary p now).modPart p (fun q => { q with state := if q.state = .held then .idle else q.state }) := by
  simp [actionHold, hs, hc, hv, hh, hx]

end Hold

/-! ### STEP_CLOSE, STEP_HALT, STEP_REEXECUTE -/

section Running
variable (hs : (e.part p).step = some st)
include hs

/-- A step that is halted, has a fault, or whose sweep goes on does not close. -/
theorem closeStep_open (h : st.exc.cause.isSome = true ∨ e.sweepDone p = false) : closeStep p now e = e := by
  simp only [closeStep, hs]
  refine if_pos ?_
  obtain h | h := h <;> simp [h]

section Clean
variable (hh : st.halted = false) (hc : st.exc.cause = none) (hw : st.hwFault = false) (hg : st.graphFault = false)
include hh hc hw hg

theorem closeStep_done (hd : e.sweepDone p = true) (he : e.dropEarly now p = none) (h0 : (e.part p).spanLast = 0) :
    closeStep p now e = e.drawAndAccept p now st := by
  simp [closeStep, hs, hh, hc, hw, hg, hd, he, h0]

theorem haltStep_clean : Machine.haltStep p now e = e := by
  simp [Machine.haltStep, hs, hh, hc, hw, hg]

end Clean

section Caused
variable {c : Cause} (hh : st.halted = false) (hc : st.exc.cause = some c)
include hh hc

theorem haltStep_hw (h3 : causeClass c = 3) : Machine.haltStep p now e = e.hwFaulted now p st := by
  simp [Machine.haltStep, hs, hh, hc, h3]

theorem haltStep_graph (h1 : causeClass c = 1) (hw : st.hwFault = false) : Machine.haltStep p now e = e.graphFaulted now p st := by
  simp [Machine.haltStep, hs, hh, hc, h1, hw]

theorem haltStep_timing (h2 : causeClass c = 2) (hw : st.hwFault = false) (hg : st.graphFault = false) (ht : st.timedOut = false) :
    Machine.haltStep p now e = (e.stepEvent now p 0x0101 st.exc.word 0xFFFFFFFF st.excLoc).haltStep p (fun x => { x with timedOut := true }) := by
  simp [Machine.haltStep, hs, hh, hc, h2, hw, hg, ht]

end Caused

end Running

/-- Engine stops come into force only while every partition rests (R430). -/
theorem disableStops_busy (h : ∃ k < 32, (e.part k).atRest = false) : e.disableStops now = e := by
  refine if_neg ?_
  obtain ⟨k, hk, ha⟩ := h
  simp only [List.all_eq_true, List.mem_range]
  exact fun hall => by simp [hall k hk] at ha

theorem disableStops_none (h : e.xstopDue = []) : e.disableStops now = e := by
  obtain ⟨⟩ := e
  subst h
  simp [Engine.disableStops]

theorem reexecute_waits (he : e.disableStops now = e)
    (h : ∀ st, (e.part p).step = some st → st.halted = false ∨ (e.part p).window.isSome = true ∨ e.dueCover p = true ∨ e.xstopDue ≠ []) :
    reexecute p now e = e := by
  simp only [reexecute, he]
  split
  · rfl
  · next st hs => exact if_pos (h st hs)

theorem reexecute_begins (hs : (e.part p).step = some st) (hx : e.xstopDue = []) (hh : st.halted = true) (hw : (e.part p).window = none)
    (hd : e.dueCover p = false) :
    reexecute p now e = ((e.modPart p (fun q => { q with tally := [], step := some st.again })).takePorts p).writeInputs p := by
  simp [reexecute, disableStops_none hx, hs, hx, hh, hw, hd]

end Steps

/-! ### The statement -/

section Exec
variable {s : State} {p : Nat} {e : Engine} (hp : p < 32)
include hp

theorem exec_stepBegin (h : stepBegin p s.now s.eng = e) : exec (.stepBegin p) s = .next (withEng s e) := onUnit_eq (decide_eq_true hp) h

theorem exec_scheduledActionHold (h : actionHold p s.now s.eng = e) : exec (.scheduledActionHold p) s = .next (withEng s e) :=
  onUnit_eq (decide_eq_true hp) h

theorem exec_stepClose (h : closeStep p s.now s.eng = e) : exec (.stepClose p) s = .next (withEng s e) := onUnit_eq (decide_eq_true hp) h

theorem exec_stepHalt (h : Machine.haltStep p s.now s.eng = e) : exec (.stepHalt p) s = .next (withEng s e) := onUnit_eq (decide_eq_true hp) h

theorem exec_stepReexecute (h : reexecute p s.now s.eng = e) : exec (.stepReexecute p) s = .next (withEng s e) := onUnit_eq (decide_eq_true hp) h

end Exec

/-- Settles O27: one lemma for each event and each state of the partition in which it acts. -/
theorem stepCommands : Obligations.StepCommands := by
  intro s p hp q b e a
  have ha : (e.preAssemble p s.now).assemble p s.now = a := rfl
  refine ⟨fun h => exec_stepBegin hp (stepBegin_busy h), fun hs hc hv => ?_, fun st hs => ⟨fun hh hc hw hg => ?_, fun c hh hc => ?_, fun hx => ?_, fun hx hr => ?_⟩⟩
  · have hb := stepBegin_free (now := s.now) hs hc hv
    refine ⟨fun hm => ?_, fun hm he => ?_, fun hm he hk hw => ?_, fun hm hk => ?_, fun hi hx => ?_, fun hh hx => ?_, fun hh hx => ?_⟩
    · exact exec_stepBegin hp (hb.trans (if_neg (Bool.eq_false_iff.mp hm)))
    · exact exec_stepBegin hp (hb.trans ((if_pos hm).trans (tryStep_empty ha he)))
    · exact exec_stepBegin hp (hb.trans ((if_pos hm).trans (tryStep_begins ha he hk hw)))
    · exact exec_stepBegin hp (hb.trans ((if_pos hm).trans (tryStep_uncached ha hk)))
    · exact exec_scheduledActionHold hp (actionHold_idle hs hc hv hi hx)
    · exact exec_scheduledActionHold hp (actionHold_waits hs hc hv hh hx)
    · exact exec_scheduledActionHold hp (actionHold_due hs hc hv hh hx)
  · refine ⟨fun hd => exec_stepClose hp (closeStep_open hs (.inr hd)), fun hd he h0 => ?_, exec_stepHalt hp (haltStep_clean hs hh hc hw hg)⟩
    have hcl := closeStep_done (now := s.now) hs hh hc hw hg hd he h0
    exact ⟨fun ds ht => exec_stepClose hp (hcl.trans (by simp only [Engine.drawAndAccept, ht])),
      fun ht => exec_stepClose hp (hcl.trans (by simp only [Engine.drawAndAccept, ht]; rfl))⟩
  · refine ⟨exec_stepClose hp (closeStep_open hs (.inl (by rw [hc]; rfl))), fun h3 hx => ?_, fun h3 hx => ?_, fun h1 hw => ?_, fun h2 hw hg ht => ?_⟩
    · exact exec_stepHalt hp ((haltStep_hw hs hh hc h3).trans (if_neg (Nat.not_le.mpr hx)))
    · exact exec_stepHalt hp ((haltStep_hw hs hh hc h3).trans (if_pos hx))
    · exact exec_stepHalt hp (haltStep_graph hs hh hc h1 hw)
    · exact exec_stepHalt hp (haltStep_timing hs hh hc h2 hw hg ht)
  · refine ⟨fun h => exec_stepReexecute hp (reexecute_waits (disableStops_none hx) fun st' hs' => ?_),
      fun hh hw hd => exec_stepReexecute hp (reexecute_begins hs hx hh hw hd)⟩
    obtain rfl : st = st' := Option.some.inj (hs.symm.trans hs')
    exact h.imp_right (·.imp_right .inl)
  · exact exec_stepReexecute hp (reexecute_waits (disableStops_busy hr) fun _ _ => .inr (.inr (.inr hx)))

end Sys2Proof.Machine
end

section
/-!
PROOFS. Every step keeps the byte stores of every tile in canonical form (R22 to R24, R151): the tables of tiles and the engine, and results that
may be absent. Each operation of the model has one lemma here, `Engine.Canon.<operation>` or `Tile.Canon.<operation>`; an operation that writes no byte
store is an update of another field.
-/
namespace Sys2Proof.Machine

open Sys2Proof.Safety

/-- The three byte stores of a tile are in canonical form. -/
def Tile.Canon (ti : Tile) : Prop := ti.sp.wf = true ∧ ti.kv.wf = true ∧ ti.nv.wf = true

/-- Every listed tile's byte stores are in canonical form. -/
def TilesCanon (m : AMap Tile) : Prop := ∀ x ∈ m, x.2.Canon

/-- Every tile's byte stores are in canonical form. -/
def Engine.Canon (e : Engine) : Prop := TilesCanon e.tiles

/-! ### Tiles -/

section
variable {ti ti' : Tile}

theorem Tile.Canon.sp (k : ti.Canon) : ti.sp.wf = true := k.1
theorem Tile.Canon.kv (k : ti.Canon) : ti.kv.wf = true := k.2.1
theorem Tile.Canon.nv (k : ti.Canon) : ti.nv.wf = true := k.2.2

theorem Tile.Canon.mk (hs : ti.sp.wf = true) (hk : ti.kv.wf = true) (hn : ti.nv.wf = true) : ti.Canon := ⟨hs, hk, hn⟩

/-- A tile that differs outside its byte stores. -/
theorem Tile.Canon.update (k : ti'.sp.wf = true ∧ ti'.kv.wf = true ∧ ti'.nv.wf = true) : ti'.Canon := k

theorem Tile.Canon.reset : ({} : Tile).Canon := ⟨rfl, rfl, rfl⟩

theorem Tile.Canon.ite {c : Prop} [Decidable c] {a b : Tile} (ha : a.Canon) (hb : b.Canon) : (if c then a else b).Canon := by
  split
  · exact ha
  · exact hb

theorem Tile.Canon.foldl {α : Type} {f : Tile → α → Tile} {l : List α} (hf : ∀ ti x, ti.Canon → (f ti x).Canon) (k : ti.Canon) :
    (l.foldl f ti).Canon := List.foldlRecOn l f k fun ti k x _ => hf ti x k

end

/-! ### Tables of tiles -/

theorem mem_minsert {α : Type} {k : Nat} {v : α} {m : AMap α} {x : Nat × α} (h : x ∈ minsert k v m) : x = (k, v) ∨ x ∈ m := by
  induction m with
  | nil => simpa [minsert] using h
  | cons y r ih =>
    simp only [minsert] at h
    split at h
    · obtain rfl | h := List.mem_cons.mp h
      · exact .inr (List.mem_cons_self ..)
      · exact (ih h).imp_right (List.mem_cons_of_mem _)
    · exact List.mem_cons.mp h

theorem mem_mset {α : Type} [DecidableEq α] {d : Nat → α} {k : Nat} {v : α} {m : AMap α} {x : Nat × α} (h : x ∈ mset d k v m) : x = (k, v) ∨ x ∈ m := by
  simp only [mset] at h
  split at h
  · exact .inr (List.mem_of_mem_filter h)
  · exact (mem_minsert h).imp_right List.mem_of_mem_filter

theorem mem_mget {α : Type} {d : Nat → α} {k : Nat} {m : AMap α} : mget d k m = d k ∨ (k, mget d k m) ∈ m := by
  induction m with
  | nil => exact .inl rfl
  | cons x r ih =>
    simp only [mget]
    split
    · next hk => exact .inr (by rw [← hk]; exact List.mem_cons_self ..)
    · exact ih.imp_right (List.mem_cons_of_mem _)

theorem TilesCanon.mset {m : AMap Tile} {j : Nat} {ti : Tile} (h : TilesCanon m) (k : ti.Canon) : TilesCanon (mset (fun _ => {}) j ti m) := fun x hx => by
  obtain rfl | hx := mem_mset hx
  · exact k
  · exact h x hx

theorem TilesCanon.ite {c : Prop} [Decidable c] {a b : AMap Tile} (ha : TilesCanon a) (hb : TilesCanon b) : TilesCanon (if c then a else b) := by
  split
  · exact ha
  · exact hb

/-- A function applied to the listed tiles one after another, where each is put back changed or left out. -/
theorem TilesCanon.foldl {l m : AMap Tile} {f : AMap Tile → Nat × Tile → AMap Tile} (hf : ∀ m x, TilesCanon m → x.2.Canon → TilesCanon (f m x))
    (hl : TilesCanon l) (hm : TilesCanon m) : TilesCanon (l.foldl f m) :=
  List.foldlRecOn l f hm fun m hm x hx => hf m x hm (hl x hx)

/-! ### The engine -/

variable {e e' : Engine} {ti : Tile}

theorem Engine.Canon.tile {t : Loc} (h : e.Canon) : (e.tile t).Canon := by
  unfold Engine.tile
  obtain hd | hm := mem_mget (d := fun _ => ({} : Tile)) (k := locKey t) (m := e.tiles)
  · rw [hd]
    exact .reset
  · exact h _ hm

theorem Engine.Canon.modTile {t : Loc} {f : Tile → Tile} (hf : ∀ ti, ti.Canon → (f ti).Canon) (h : e.Canon) : (e.modTile t f).Canon :=
  TilesCanon.mset h (hf _ h.tile)

theorem Engine.Canon.modPartTiles {p : Nat} {f : Tile → Tile} (hf : ∀ ti, ti.Canon → (f ti).Canon) (h : e.Canon) : (e.modPartTiles p f).Canon :=
  TilesCanon.foldl (fun _ _ hm k => .ite (.mset hm (hf _ k)) hm) h h

/-- An engine that differs outside its tiles. -/
theorem Engine.Canon.update (h : TilesCanon e'.tiles) : e'.Canon := h

theorem Engine.Canon.ite {c : Prop} [Decidable c] (h : e.Canon) (h' : e'.Canon) : (if c then e else e').Canon := by
  split
  · exact h
  · exact h'

theorem Engine.Canon.cond {c : Bool} {f : Engine → Engine} (hf : ∀ e, e.Canon → (f e).Canon) (h : e.Canon) : (Machine.cond c f e).Canon :=
  .ite (hf e h) h

theorem Engine.Canon.foldl {α : Type} {f : Engine → α → Engine} {l : List α} (hf : ∀ e x, e.Canon → (f e x).Canon) (h : e.Canon) :
    (l.foldl f e).Canon := List.foldlRecOn l f h fun e h x _ => hf e x h

/-! ### Results that may be absent -/

/-- What an optional result holds, where there is one. -/
def Gives {α : Type} (P : α → Prop) (o : Option α) : Prop := ∀ x, o = some x → P x

section
variable {α β : Type} {P : α → Prop} {Q : β → Prop}

theorem Gives.none : Gives P none := nofun

theorem Gives.some {x : α} (h : P x) : Gives P (some x) := fun _ hx => Option.some.inj hx ▸ h

theorem Gives.ite {c : Prop} [Decidable c] {a b : Option α} (ha : Gives P a) (hb : Gives P b) : Gives P (if c then a else b) := by
  split
  · exact ha
  · exact hb

theorem Gives.bind {o : Option α} {f : α → Option β} (ho : Gives P o) (hf : ∀ x, P x → Gives Q (f x)) : Gives Q (o >>= f) := by
  cases o with
  | none => exact .none
  | some x => exact hf x (ho x rfl)

/-- A result of which nothing need be known. -/
theorem Gives.next {o : Option α} {f : α → Option β} (hf : ∀ x, Gives Q (f x)) : Gives Q (o >>= f) :=
  .bind (P := fun _ => True) (fun _ _ => trivial) (fun x _ => hf x)

theorem Gives.map {o : Option α} {f : α → β} (hf : ∀ x, P x → Q (f x)) (ho : Gives P o) : Gives Q (o.map f) := by
  cases o with
  | none => exact .none
  | some x => exact .some (hf x (ho x rfl))

theorem Gives.foldlM {f : α → β → Option α} {l : List β} {x : α} (hf : ∀ x y, P x → Gives P (f x y)) (hx : P x) : Gives P (l.foldlM f x) := by
  induction l generalizing x with
  | nil => exact .some hx
  | cons y l ih => exact .bind (hf x y hx) (fun z hz => ih hz)

end

end Sys2Proof.Machine
end

section
/-!
PROOFS. Canonical byte stores: the operations of tiles and engine, the issue of an instruction, the slab ports and the intake of a host command.
-/
namespace Sys2Proof.Machine

open Sys2Proof.Safety

variable {e e' : Engine} {ti : Tile}

/-! ### Engine and tile operations -/

theorem Engine.Canon.modField {i f} (h : e.Canon) : (e.modField i f).Canon := .update h
theorem Engine.Canon.modDeck {d f} (h : e.Canon) : (e.modDeck d f).Canon := .update h
theorem Engine.Canon.modPart {p f} (h : e.Canon) : (e.modPart p f).Canon := .update h
theorem Engine.Canon.modTenant {t f} (h : e.Canon) : (e.modTenant t f).Canon := .update h
theorem Engine.Canon.modReq {i f} (h : e.Canon) : (e.modReq i f).Canon := .update h
theorem Engine.Canon.modImage {i f} (h : e.Canon) : (e.modImage i f).Canon := .update h
theorem Engine.Canon.modGraph {g f} (h : e.Canon) : (e.modGraph g f).Canon := .update h
theorem Engine.Canon.modZport {z f} (h : e.Canon) : (e.modZport z f).Canon := .update h
theorem Engine.Canon.modHport {j f} (h : e.Canon) : (e.modHport j f).Canon := .update h
theorem Engine.Canon.modDomain {d f} (h : e.Canon) : (e.modDomain d f).Canon := .update h
theorem Engine.Canon.modSup {f} (h : e.Canon) : (e.modSup f).Canon := .update h
theorem Engine.Canon.freeCtr {n} (h : e.Canon) : ({ e with freeCtr := n } : Engine).Canon := .update h
theorem Engine.Canon.send {x} (h : e.Canon) : (e.send x).Canon := .update h
theorem Tile.Canon.modThread {j f} (k : ti.Canon) : (ti.modThread j f).Canon := .update k
theorem Tile.Canon.setLreg {b i r} (k : ti.Canon) : (ti.setLreg b i r).Canon := .update k
theorem Tile.Canon.count {c n} (k : ti.Canon) : (ti.count c n).Canon := .update k
theorem Tile.Canon.modInst {slot f} (k : ti.Canon) : (ti.modInst slot f).Canon := .update k
theorem Engine.Canon.setSite {t x} (h : e.Canon) : (e.setSite t x).Canon := .modField h
theorem Engine.Canon.spendHem {d table n flits} (h : e.Canon) : (e.spendHem d table n flits).Canon := .modDeck h
theorem Engine.Canon.modFn {f g} (h : e.Canon) : (e.modFn f g).Canon := .update h
theorem Engine.Canon.msix {f v} (h : e.Canon) : (e.msix f v).Canon := .ite (.modFn h) (.send h)
theorem Engine.Canon.journal {d x} (h : e.Canon) : (e.journal d x).Canon := .ite (.modDeck h) (.modSup h)
theorem Engine.Canon.ledgerVector {d} (h : e.Canon) : (e.ledgerVector d).Canon := .foldl (fun _ _ h1 => .msix h1) h

theorem Engine.Canon.eventIn {now d unit x} (h : e.Canon) : (e.eventIn now d unit x).Canon :=
  .ite (.ledgerVector (.ite (.journal (.modDeck h)) (.modDeck h))) (.ite (.journal (.modDeck h)) (.modDeck h))

theorem Engine.Canon.event {now d x} (h : e.Canon) : (e.event now d x).Canon := .eventIn h
theorem Engine.Canon.siteEvent {now t code arg0 arg1} (h : e.Canon) : (e.siteEvent now t code arg0 arg1).Canon := .event h
theorem Engine.Canon.partEvent {now p code arg0 arg1} (h : e.Canon) : (e.partEvent now p code arg0 arg1).Canon := .event h
theorem Engine.Canon.supEvent {now code arg0 arg1} (h : e.Canon) : (e.supEvent now code arg0 arg1).Canon := .event h
theorem Tile.Canon.store {a bs} (k : ti.Canon) : (ti.store a bs).Canon := .mk (Memory.wf_writeBytes _ _ _ k.sp) k.kv k.nv
theorem Tile.Canon.zero {a n} (k : ti.Canon) : (ti.zero a n).Canon := .mk (Memory.wf_zeroRange _ _ _ k.sp) k.kv k.nv
theorem Tile.Canon.modBank {b f} (k : ti.Canon) : (ti.modBank b f).Canon := .update k
theorem Tile.Canon.corrected {j} (k : ti.Canon) : (ti.corrected j).Canon := .modBank k

theorem Engine.Canon.foundBad {now t j} (h : e.Canon) : (e.foundBad now t j).Canon :=
  .ite h (.siteEvent (.modTile (fun _ k => .modBank (.update k)) h))

theorem Engine.Canon.meets {now t l} (h : e.Canon) : (e.meets now t l).Canon :=
  .foldl (fun _ _ h1 => .ite h1 (.ite (.foundBad h1) (.modTile (fun _ k => .corrected k) h1))) h

theorem Tile.Canon.capture {start} (k : ti.Canon) : (ti.capture start).Canon :=
  .mk (Memory.wf_writeNat _ _ _ _ (Memory.wf_writeNat _ _ _ _ (Memory.wf_writeNat _ _ _ _ k.sp))) k.kv k.nv

theorem Tile.Canon.setStrikes {l} (k : ti.Canon) : (ti.setStrikes l).Canon := .mk (Memory.wf_writeNat _ _ _ _ k.sp) k.kv k.nv
theorem Engine.Canon.strike {now t} (h : e.Canon) : (e.strike now t).Canon := .modTile (fun _ k => .setStrikes k) h

theorem Tile.Canon.haltInst {slot} (k : ti.Canon) : (ti.haltInst slot).Canon := by
  unfold Tile.haltInst
  split
  · exact k
  · exact .foldl (fun _ _ h1 => .modThread h1) k

theorem Engine.Canon.raise {now t thread pc slot c detail blame} (h : e.Canon) : (e.raise now t thread pc slot c detail blame).Canon := by
  unfold Engine.raise
  extract_lets _ p _ e1 e2
  have h1 : e1.Canon := .modTile (fun ti k => by
    have kc : ({ ti with exc := ti.exc.record c thread pc detail } : Tile).Canon := .update k
    split
    · exact .haltInst (.capture kc)
    · exact .capture kc) h
  have h2 : e2.Canon := by
    clear_value p
    unfold e2
    cases p
    · exact h1
    · exact .modPart h1
  exact .ite (.strike h2) h2

/-! ### Issue -/

theorem Engine.Canon.withThread {c f} (h : e.Canon) : (Ctx.withThread c e f).Canon := .modTile (fun _ k => .modThread k) h
theorem Engine.Canon.writeX {c d v} (h : e.Canon) : (Ctx.writeX c d v e).Canon := .withThread h
theorem Engine.Canon.fetched {i pc word} (h : e.Canon) : (e.fetched i pc word).Canon := .modTile (fun _ k => .update k) h

/-- The engine that an issue leaves has canonical byte stores. -/
def Iss.Canon : Iss → Prop
  | .done e | .jump _ e | .wait e | .late e _ _ | .ended e | .queued e => e.Canon
  | .exc _ _ => True

theorem Engine.Canon.finish {c : Ctx} {i : Iss} (hc : c.e.Canon) (hi : i.Canon) : (Machine.finish c i).Canon := by
  cases i with
  | done e | jump _ e | wait e | ended e => exact .withThread hi
  | queued e => exact hi
  | late e => exact .raise hi
  | exc => exact .raise hc

theorem Iss.Canon.check {ok x d i} (hi : Iss.Canon i) : (check ok x d i).Canon := by
  unfold Machine.check
  split
  · exact hi
  · trivial

theorem Engine.Canon.issueOn {group op legal vec i w body now} (hb : ∀ c : Ctx, c.e.Canon → (body c).Canon) (h : e.Canon) :
    (issueOn group op legal vec i w body now e).Canon := by
  unfold Machine.issueOn
  split
  · exact h
  · extract_lets _ e1
    have h1 : e1.Canon := .fetched (.meets h)
    refine .finish h1 ?_
    split
    · trivial
    · exact .check (.check (hb _ h1))

theorem Engine.Canon.writeV {c r v} (h : e.Canon) : (Ctx.writeV c r v e).Canon := .modTile (fun _ k => .update k) h

/-! ### Long registers -/

theorem Tile.Canon.addAll {b l} (k : ti.Canon) : (ti.addAll b l).Canon := .foldl (fun _ _ h1 => .setLreg h1) k
theorem Engine.Canon.tallyAdd {p nwe xc t} (h : e.Canon) : (e.tallyAdd p nwe xc t).Canon := .ite (.modPart h) h
theorem Engine.Canon.counted {c w t} (h : e.Canon) : (Ctx.counted c w t e).Canon := .tallyAdd (.modTile (fun _ k => .count (.count k)) h)

theorem Engine.Canon.inject {t p v body} (h : e.Canon) : (e.inject t p v body).Canon := by
  unfold Engine.inject
  split
  · exact .update h
  · exact .modDeck h

/-! ### The matrix unit -/

theorem Tile.Canon.feedUnit (k : ti.Canon) : (ti.feedUnit).Canon := .update k

theorem Tile.Canon.mmaDone (k : ti.Canon) : (mmaDone ti).Canon := by
  unfold Machine.mmaDone
  split
  · exact k
  · exact .addAll (.feedUnit (.update k))

/-! ### Page contents -/

theorem Tile.Canon.program {p bs} (k : ti.Canon) : (ti.program p bs).Canon := .mk k.sp k.kv (Memory.wf_writeBytes _ _ _ k.nv)

/-! ### Slab ports -/

theorem Tile.Canon.unfill {a n} (k : ti.Canon) : (ti.unfill a n).Canon := .update k

theorem Engine.Canon.nvDone {t bad now} (h : e.Canon) : (nvDone t bad now e).Canon := by
  unfold Machine.nvDone
  dsimp only
  split
  · exact h
  · refine .ite h ?_
    split
    · exact .modTile (fun _ k => .modInst k) (.modTile (fun _ k => .unfill (.update (Tile.Canon.store k))) h)
    · exact .raise (.modTile (fun _ k => .unfill (.update (Tile.Canon.store k))) h)
    · refine .siteEvent ?_
      split
      · exact .modImage (.modTile (fun _ k => .update k) (.raise (.modTile (fun _ k => .unfill (.update (Tile.Canon.store k))) h)))
      · exact .modTile (fun _ k => .update k) (.raise (.modTile (fun _ k => .unfill (.update (Tile.Canon.store k))) h))

theorem Tile.Canon.touch {now j} (k : ti.Canon) : (ti.touch now j).Canon := by
  unfold Tile.touch
  split
  · exact .update k
  · exact .update k
  · exact k

theorem Tile.Canon.kvUncorr {j} (k : ti.Canon) : (ti.kvUncorr j).Canon := .update k

theorem Engine.Canon.dramDone {t i bad now} (h : e.Canon) : (dramDone t i bad now e).Canon := by
  unfold Machine.dramDone
  extract_lets _ e1
  have h1 : e1.Canon := .modTile (fun _ k => .update k) h
  split
  · exact h
  · refine .ite h (.ite (.modTile (fun _ k => .kvUncorr k) (.raise h1)) (.modTile (fun ti k => ?_) h1))
    have kt {now j} : (ti.touch now j).Canon := .touch k
    exact .modInst (.ite (.update ⟨kt.sp, Memory.wf_writeBytes _ _ _ kt.kv, kt.nv⟩) (.store kt))

/-! ### The attention lane -/

theorem Engine.Canon.laneStart {now t n} (h : e.Canon) : (Engine.laneStart now t n e).Canon := by
  induction n generalizing e with
  | zero => exact h
  | succ n ih =>
    unfold Engine.laneStart
    extract_lets ti
    split
    · exact h
    · split
      · split
        · refine .modTile (fun _ k => ?_) (.update h)
          extract_lets ti1 ti2 ti3
          have k1 : ti1.Canon := .foldl (fun _ _ k1 => .touch k1) k
          have k2 : ti2.Canon := .foldl (fun _ _ k2 => .setLreg k2) k1
          have k3 : ti3.Canon := .ite (.update k2) k1
          exact .update k3
        · exact ih (.raise (.modTile (fun _ k => .update k) h))
      · exact h

theorem Tile.Canon.passEnd (k : ti.Canon) : (passEnd ti).Canon := by
  unfold Machine.passEnd
  split
  · extract_lets ti1 _ ti2 ti3
    have k1 : ti1.Canon := .foldl (fun _ _ h1 => .setLreg h1) k
    have k2 : ti2.Canon := .foldl (fun _ _ h2 => .store h2) (.ite (.update k1) k1)
    have k3 : ti3.Canon := .count (.count (.count k2))
    exact .modInst (.update k3)
  · exact k

theorem Engine.Canon.nvPortFault {t j now} (h : e.Canon) : (nvPortFault t j now e).Canon := by
  unfold Machine.nvPortFault
  dsimp only
  split
  · exact h
  · exact .raise (.modTile (fun _ k => .unfill (.update (Tile.Canon.store k))) h)

theorem Engine.Canon.dramPortFault {t j now} (h : e.Canon) : (dramPortFault t j now e).Canon := by
  unfold Machine.dramPortFault
  refine .ite ?_ ?_
  · split
    · exact .ite (.raise (.modTile (fun _ k => .update k) (.modTile (fun _ k => .update k) h))) h
    · exact h
  · split
    · split
      · exact .laneStart (.raise (.modTile (fun _ k => .update k) (.modTile (fun _ k => .update k) h)))
      · exact h
    · exact h

/-! ### Control -/

theorem Tile.Canon.release {i self j} (k : ti.Canon) : (ti.release i self j).Canon := .foldl (fun _ _ h1 => .ite (.modThread h1) h1) k

/-! ### Zarog outputs -/

theorem Engine.Canon.stepFault {p} (h : e.Canon) : (e.stepFault p).Canon := .modPart h

theorem Engine.Canon.faultOf {part} (h : e.Canon) : (e.faultOf part).Canon := by
  unfold Engine.faultOf
  split
  · exact .stepFault h
  · exact h

theorem Engine.Canon.takePorts {p} (h : e.Canon) : (e.takePorts p).Canon := .modPart h
theorem Engine.Canon.sendLink {now z nak} (h : e.Canon) : (e.sendLink now z nak).Canon := .modZport (.send h)
theorem Engine.Canon.owe {z vc n} (h : e.Canon) : (e.owe z vc n).Canon := .modZport h

theorem Engine.Canon.zemit {now z w} (h : e.Canon) : (e.zemit now z w).Canon := by
  unfold Engine.zemit
  dsimp only
  split
  · exact .owe (.modZport (.send h))
  · exact .modZport (.send h)

theorem Engine.Canon.pump {now z n} (h : e.Canon) : (pump now z n e).Canon := by
  induction n generalizing e with
  | zero => exact h
  | succ n ih =>
    unfold Machine.pump
    split
    · exact ih (.zemit h)
    · exact h

theorem Engine.Canon.zmoves {now z} (h : e.Canon) : (e.zmoves now z).Canon := .pump h
theorem Engine.Canon.zput {now z w} (h : e.Canon) : (e.zput now z w).Canon := .zmoves (.modZport h)
theorem Engine.Canon.zlose {part} (h : e.Canon) : (e.zlose part).Canon := .faultOf (.update h)

theorem Engine.Canon.zoriginate {now w} (h : e.Canon) : (e.zoriginate now w).Canon := by
  unfold Engine.zoriginate
  split
  · exact .ite (.zput h) (.zlose h)
  · exact .zlose h

theorem Engine.Canon.ctrl {now node dpart b} (h : e.Canon) : (e.ctrl now node dpart b).Canon := .zoriginate h

theorem Engine.Canon.spanData {now p node dpart siteSum bs b} (h : e.Canon) : (e.spanData now p node dpart siteSum bs b).Canon :=
  .foldl (fun _ _ h1 => .zoriginate h1) h

theorem Engine.Canon.twin {now p b} (h : e.Canon) : (e.twin now p b).Canon := by
  unfold Engine.twin
  split
  · exact .zput h
  · exact .zlose h

theorem Engine.Canon.pairMsg {now p kind value} (h : e.Canon) : (e.pairMsg now p kind value).Canon := .twin h
theorem Engine.Canon.sendPace {now z} (h : e.Canon) : (e.sendPace now z).Canon := .zput h

/-! ### What host commands share -/

theorem Engine.Canon.windowEvent {now f a} (h : e.Canon) : (e.windowEvent now f a).Canon := .event h

theorem Engine.Canon.dma {f a bs} (h : e.Canon) : (e.dma f a bs).Canon := by
  unfold Engine.dma
  split
  · exact h
  · exact .ite (.modHport h) (.ite (.send h) h)

theorem Engine.Canon.reply {now hd s detail} (h : e.Canon) : (e.reply now hd s detail).Canon := .ite h (.modFn h)
theorem Engine.Canon.okReply {now hd} (h : e.Canon) : (e.okReply now hd).Canon := .reply h
theorem Engine.Canon.leaveIntake {x} (h : e.Canon) : (e.leaveIntake x).Canon := .modDeck h
theorem Engine.Canon.openOne {f} (h : e.Canon) : (e.openOne f).Canon := .modFn h
theorem Engine.Canon.answerBad {f now n} (h : e.Canon) : (answerBad f now n e).Canon := by
  induction n generalizing e with
  | zero => exact h
  | succ n ih =>
    unfold Machine.answerBad
    split
    · exact h
    · split
      · exact h
      · exact .ite h (ih (.reply (.openOne (.leaveIntake h))))

theorem Engine.Canon.copyCap {x1} (h : e.Canon) : (e.copyCap x1).Canon := by
  unfold Engine.copyCap
  split
  · exact .modSup h
  · exact h

theorem Engine.Canon.packetIn {now f ptr j} (h : e.Canon) : (e.packetIn now f ptr j).Canon := .answerBad (.modDeck (.copyCap (.update h)))
theorem Engine.Canon.dwTry {now f} (h : e.Canon) : (e.dwTry now f).Canon := .ite (.packetIn (.modFn h)) h
theorem Engine.Canon.intakeMoves {now f} (h : e.Canon) : (e.intakeMoves now f).Canon := .dwTry (.answerBad h)
theorem Engine.Canon.hold {x} (h : e.Canon) : (e.hold x).Canon := .modDeck h
theorem Engine.Canon.firmwareFault {now hd code} (h : e.Canon) : (e.firmwareFault now hd code).Canon := .reply (.event h)

/-- A host command's effect that keeps the byte stores canonical. -/
def RunKeeps (run : Hdr → Bool → Nat → Engine → Engine) : Prop := ∀ hd acc now e, e.Canon → (run hd acc now e).Canon

theorem Engine.Canon.perform {f run hd acc now} (hr : RunKeeps run) (h : e.Canon) : (Form.perform f run hd acc now e).Canon := by
  unfold Form.perform
  split
  · exact .firmwareFault h
  · exact .ite (.reply h) (hr _ _ _ _ h)

theorem Engine.Canon.sendPrepare {now m ns} (h : e.Canon) : (e.sendPrepare now m ns).Canon := .foldl (fun _ _ h1 => .ctrl h1) h
theorem Engine.Canon.epochMsg {now ns id phase} (h : e.Canon) : (e.epochMsg now ns id phase).Canon := .foldl (fun _ _ h1 => .ctrl h1) h
theorem Engine.Canon.dropOwn {t} (h : e.Canon) : (e.dropOwn t).Canon := .foldl (fun _ _ h1 => .modDeck h1) h

theorem Engine.Canon.abortEpoch {now p c node} (h : e.Canon) : (e.abortEpoch now p c node).Canon := by
  unfold Engine.abortEpoch
  split
  · exact .reply (.dropOwn (.modPart (.epochMsg h)))
  · exact .modPart (.epochMsg h)

theorem Engine.Canon.decideAct {now p a commit} (h : e.Canon) : (e.decideAct now p a commit).Canon := .modPart (.epochMsg h)

theorem Engine.Canon.share {now hd ptr c f p ns two} (h : e.Canon) : (e.share now hd ptr c f p ns two).Canon :=
  .ite (.reply h) (.hold (.cond (fun _ h1 => .reply h1) (.sendPrepare (.update h))))

theorem Engine.Canon.place {now hd ptr c f run} (hr : RunKeeps run) (h : e.Canon) : (e.place now hd ptr c f run).Canon := by
  unfold Engine.place
  refine .ite (.ite (.reply h) (.perform hr h)) ?_
  split
  · exact .share h
  · exact .ite (.ite (.reply h) (.hold (.cond (fun _ h1 => .reply h1) h)))
      (.ite (.perform hr h) (.hold (.cond (fun _ h1 => .reply h1) h)))

theorem Engine.Canon.enter {now hd ptr c f run} (hr : RunKeeps run) (h : e.Canon) : (e.enter now hd ptr c f run).Canon := by
  unfold Engine.enter
  split
  · split
    · exact .reply (.windowEvent h)
    · exact .reply h
  · split
    · exact .reply h
    · split
      · exact .reply h
      · exact .place hr h

theorem Engine.Canon.command {now hd c f run} (hr : RunKeeps run) (h : e.Canon) : (e.command now hd c f run).Canon := by
  unfold Engine.command
  refine .ite h ?_
  split
  · exact .ite (.intakeMoves (.enter hr (.openOne (.leaveIntake h)))) h
  · exact .enter hr (.openOne (.update h))

theorem Engine.Canon.accept {now hd acc detail} (h : e.Canon) : (e.accept now hd acc detail).Canon := .ite h (.reply h)

end Sys2Proof.Machine
end

section
/-!
PROOFS. Canonical byte stores: the KV store, allocation, and the commands for requests, partitions and graphs.
-/
namespace Sys2Proof.Machine

open Sys2Proof.Safety

variable {e e' : Engine} {ti : Tile}

/-! ### The KV store -/

theorem Tile.Canon.setUse {j u} (k : ti.Canon) : (ti.setUse j u).Canon := .update k

theorem Engine.Canon.setKv {x off v n} (h : e.Canon) : (e.setKv x off v n).Canon :=
  .modTile (fun _ k => .mk k.sp (Memory.wf_writeNat _ _ _ _ k.kv) k.nv) h

theorem Engine.Canon.setKvBytes {x off bs} (h : e.Canon) : (e.setKvBytes x off bs).Canon :=
  .modTile (fun _ k => .mk k.sp (Memory.wf_writeBytes _ _ _ k.kv) k.nv) h

theorem Tile.Canon.dropSlots {f} (k : ti.Canon) : (ti.dropSlots f).Canon := .foldl (fun _ _ h1 => .setUse h1) k

theorem Tile.Canon.dropStubs {f} (k : ti.Canon) : (ti.dropStubs f).Canon := by
  refine .foldl (fun _ _ h1 => ?_) k
  split
  · exact .ite h1 (.setUse h1)
  · exact h1

theorem Tile.Canon.uncache {p f} (k : ti.Canon) : (ti.uncache p f).Canon := .foldl (fun _ _ h1 => .setUse h1) k

theorem Engine.Canon.freePages {q} (h : e.Canon) : (e.freePages q).Canon :=
  .modReq (.modPart (.modPartTiles (fun _ k => .update (Tile.Canon.uncache (.dropStubs (.dropSlots k)))) h))

theorem Engine.Canon.freeRows {q n g} (h : e.Canon) : (e.freeRows q n g).Canon := by
  unfold Engine.freeRows
  extract_lets _ _ e1 e2
  have h1 : e1.Canon := .modPartTiles (fun _ k => .dropStubs (.dropSlots k)) h
  have h2 : e2.Canon := by
    unfold e2
    split
    · exact .setKv h1
    · exact h1
  exact .ite h (.modReq h2)

theorem Engine.Canon.setPosition {x p b} (h : e.Canon) : (e.setPosition x p b).Canon :=
  .foldl (fun _ _ h1 => .setKvBytes h1) (.setKvBytes (.setKvBytes h))

theorem Engine.Canon.copyEntry {q g a b} (h : e.Canon) : (e.copyEntry q g a b).Canon := by
  unfold Engine.copyEntry
  refine .foldl (fun _ _ h1 => ?_) h
  split
  · exact .setPosition h1
  · exact h1

theorem Engine.Canon.sealPage {x} (h : e.Canon) : (e.sealPage x).Canon := .foldl (fun _ _ h1 => .setKv (.setKv h1)) h

theorem Engine.Canon.commitSlot {x r a b} (h : e.Canon) : (e.commitSlot x r a b).Canon :=
  .ite h (.ite (.sealPage (.foldl (fun _ _ h1 => .setKv h1) (.setKv h))) (.foldl (fun _ _ h1 => .setKv h1) (.setKv h)))

theorem Engine.Canon.commitPage {q x2 r a b s} (h : e.Canon) : (e.commitPage q x2 r a b s).Canon := by
  unfold Engine.commitPage
  split
  · exact .ite h (.commitSlot (.foldl (fun _ _ h1 => .setKv h1) h))
  · exact h

theorem Engine.Canon.advance {q m g} (h : e.Canon) : (e.advance q m g).Canon :=
  .freeRows (.modReq (.foldl (fun _ _ h1 => .foldl (fun _ _ h2 => .commitPage h2) h1) h))

/-! ### Allocation -/

theorem Engine.Canon.takeSlot {p homes start u} (h : e.Canon) : Gives (fun r => r.1.Canon) (e.takeSlot p homes start u) := by
  unfold Engine.takeSlot
  split
  · exact .some (.modTile (fun _ k => .setUse k) h)
  · exact .none

theorem Engine.Canon.ensureRoot {q g} (h : e.Canon) : Gives Engine.Canon (e.ensureRoot q g) :=
  .ite (.some h) (.bind h.takeSlot fun _ h1 => .some (.modReq (.setKv (.setKv h1))))

theorem Engine.Canon.addList {q j g} (h : e.Canon) : Gives Engine.Canon (e.addList q j g) := by
  refine .next fun _ => ?_
  extract_lets enter _ link
  have he : ∀ e : Engine, e.Canon → Gives Engine.Canon (enter e) := fun _ h1 => .bind h1.takeSlot fun _ h2 => .next fun _ => .some (.setKv h2)
  refine .ite ?_ (.bind (.some h) he)
  have hl : ∀ last, Gives Engine.Canon (link last) := fun _ => .bind h.takeSlot fun _ h1 => .bind (.some (.setKv (.setKv h1))) he
  exact .ite (.next hl) (.next hl)

theorem Engine.Canon.placeUnit {q r g u} (h : e.Canon) : Gives Engine.Canon (e.placeUnit q r g u) := by
  unfold Engine.placeUnit
  dsimp only
  split
  · exact .none
  · exact .foldlM (fun _ _ h1 => .next fun _ => .some (.setKv (.setKv (.modTile (fun _ k => .setUse k) h1)))) h

theorem Engine.Canon.addRow {q g} (h : e.Canon) : Gives Engine.Canon (e.addRow q g) :=
  .bind h.ensureRoot fun _ h1 => .bind (.foldlM (fun _ _ h2 => h2.addList) h1) fun _ h2 =>
    .bind (.foldlM (fun _ _ h3 => h3.placeUnit) h2) fun _ h3 => .next fun _ => .some (.modReq (.setKv h3))

theorem Engine.Canon.addRows {q g n} (h : e.Canon) : Gives Engine.Canon (Engine.addRows q g n e) := by
  induction n generalizing e with
  | zero => exact .some h
  | succ n ih =>
    unfold Engine.addRows
    split
    · next hr => exact ih (h.addRow _ hr)
    · exact .none

theorem Engine.Canon.needRows {q n g} (h : e.Canon) : Gives Engine.Canon (e.needRows q n g) := .ite (.some h) h.addRows

/-! ### Requests and their packets -/

theorem Engine.Canon.putPacket {j} (h : e.Canon) : (e.putPacket j).Canon := .ite (.modTenant h) (.ite (.modTenant h) (.modReq h))
theorem Engine.Canon.packet {q tick toks reason fin} (h : e.Canon) : (e.packet q tick toks reason fin).Canon := .putPacket (.modReq h)
theorem Engine.Canon.pauseReq {q tick src reason} (h : e.Canon) : (e.pauseReq q tick src reason).Canon := .packet (.modReq h)
theorem Engine.Canon.dropLosses {q} (h : e.Canon) : (e.dropLosses q).Canon := .modPart h
theorem Engine.Canon.idleReq {q} (h : e.Canon) : (e.idleReq q).Canon := .modReq (.dropLosses (.freePages h))
theorem Engine.Canon.endReq {q tick reason} (h : e.Canon) : (e.endReq q tick reason).Canon := .ite (.idleReq h) (.putPacket (.idleReq h))

theorem Engine.Canon.doneReq {q tick reason free} (h : e.Canon) : (e.doneReq q tick reason free).Canon :=
  .packet (.modReq (.cond (fun _ h1 => .freePages h1) h))

theorem Engine.Canon.endWhere {tick reason f} (h : e.Canon) : (e.endWhere tick reason f).Canon := .foldl (fun _ _ h1 => .endReq h1) h
theorem Engine.Canon.pauseAll {p tick} (h : e.Canon) : (e.pauseAll p tick).Canon := .foldl (fun _ _ h1 => .pauseReq h1) h
theorem Engine.Canon.tellPause {p tick c} (h : e.Canon) : (e.tellPause p tick c).Canon := .ite h (.sendPrepare h)
theorem Engine.Canon.pausePart {p tick c} (h : e.Canon) : (e.pausePart p tick c).Canon := .ite h (.modPart (.pauseAll (.tellPause h)))

theorem Engine.Canon.boundaryReqs {p tick} (h : e.Canon) : (e.boundaryReqs p tick).Canon := by
  refine .foldl (fun _ _ h1 => ?_) h
  dsimp only
  split
  · exact .endReq h1
  · exact .ite (.pauseReq h1) h1
  · exact .ite (.pauseReq h1) h1
  · exact .ite (.pauseReq h1) h1
  · exact .ite (.pauseReq h1) h1
  · exact .ite (.modReq h1) h1
  · exact h1

theorem Engine.Canon.expire {p tick} (h : e.Canon) : (e.expire p tick).Canon := .foldl (fun _ _ h1 => .doneReq h1) h

/-! ### Request commands -/

theorem RunKeeps.onReq {idx f} (hf : ∀ hd r now e, e.Canon → (f hd r now e).Canon) : RunKeeps (onReq idx f) :=
  fun _ _ _ _ h => .ite (hf _ _ _ _ h) (.reply h)

theorem Engine.Canon.badState {hd r now} (h : e.Canon) : (badState hd r now e).Canon := .reply h

theorem Engine.Canon.runSubmit {q hd acc now} (h : e.Canon) : (runSubmit q hd acc now e).Canon := by
  unfold Machine.runSubmit
  refine .ite (.reply h) ?_
  refine .ite (.reply h) ?_
  refine .ite (.reply h) ?_
  split
  · exact .reply h
  · exact .ite (.reply h) (.reply (.modReq h))

theorem RunKeeps.runQuery {idx addr} : RunKeeps (runQuery idx addr) :=
  .onReq (fun _ _ _ _ h => .okReply (.dma h))

theorem RunKeeps.runUpdate {idx mask q} : RunKeeps (runUpdate idx mask q) :=
  .onReq (fun _ _ _ _ h => by
    split
    · exact .badState h
    · exact .okReply (.modReq h)
    · exact .okReply (.modReq h))

theorem RunKeeps.runPause {idx} : RunKeeps (runPause idx) :=
  .onReq (fun _ _ _ _ h => by
    split
    · exact .okReply h
    · exact .okReply (.modReq h)
    · exact .okReply (.modReq h)
    · exact .okReply (.modReq h)
    · exact .okReply (.modReq h)
    · exact .badState h)

theorem RunKeeps.runResume {idx} : RunKeeps (runResume idx) :=
  .onReq (fun _ _ _ _ h => .ite (.okReply (.modReq h)) (.badState h))

theorem Engine.Canon.cancelReq {idx silent} (h : e.Canon) : (e.cancelReq idx silent).Canon :=
  .modReq (.cond (fun _ h1 => .modTenant h1) (.dropLosses h))

theorem Engine.Canon.releaseReq {idx hd r now} (h : e.Canon) : (releaseReq idx hd r now e).Canon := .ite (.okReply (.idleReq h)) (.badState h)

theorem RunKeeps.runCancel {idx} : RunKeeps (runCancel idx) :=
  .onReq (fun _ _ _ _ h => by
    split
    · exact .badState h
    · exact .okReply h
    · exact .releaseReq h
    · exact .okReply (.cancelReq h))

theorem RunKeeps.runRelease {idx} : RunKeeps (runRelease idx) :=
  .onReq (fun _ _ _ _ h => .releaseReq h)

theorem RunKeeps.runAppend {idx count addr} : RunKeeps (runAppend idx count addr) :=
  .onReq (fun _ _ _ _ h => .ite (.okReply (.modReq h)) (.badState h))

theorem RunKeeps.runDraft {idx root nodes} : RunKeeps (runDraft idx root nodes) :=
  .onReq (fun _ _ _ _ h => by
    split
    · exact .reply h
    · split
      · exact .badState h
      · exact .okReply h
      · exact .okReply h
      · exact .okReply (.modReq h))

theorem Engine.Canon.takeHem {d table n flits} (h : e.Canon) : Gives Engine.Canon (e.takeHem d table n flits) := .ite (.some (.modDeck h)) .none

theorem Engine.Canon.promptFetch {idx tokens now} (h : e.Canon) : (promptFetch idx tokens now e).Canon := by
  unfold Machine.promptFetch
  refine .ite h ?_
  split
  · exact .doneReq h
  · refine .ite ?_ (.doneReq (.windowEvent h))
    split
    · next ht => exact .modReq (h.takeHem _ ht)
    · exact h

/-! ### Rings -/

theorem Engine.Canon.modRing {f q g} (h : e.Canon) : (e.modRing f q g).Canon := .modFn h
theorem Engine.Canon.writeBack {f q} (h : e.Canon) : (e.writeBack f q).Canon := .dma (.modRing h)
theorem Engine.Canon.fire {f q} (h : e.Canon) : (e.fire f q).Canon := .msix (.modRing h)

theorem Engine.Canon.completed {now f q n} (h : e.Canon) : (e.completed now f q n).Canon :=
  .ite (.fire (.modRing (.writeBack h))) (.modRing (.writeBack h))

theorem Engine.Canon.ringDrop {f q} (h : e.Canon) : (e.ringDrop f q).Canon := .modRing h

theorem Engine.Canon.toRing {now f q queue bs par} (h : e.Canon) : (e.toRing now f q queue bs par).Canon := by
  unfold Engine.toRing
  extract_lets _ _ _ e1
  have h1 : e1.Canon := by
    unfold e1
    split
    · exact .event (.modRing (.ite (.send h) (.dma h)))
    · exact .dma h
  exact .completed (.modRing h1)

/-! ### The host interface -/

theorem Engine.Canon.deliverStatus {f par now} (h : e.Canon) : (deliverStatus f par now e).Canon := by
  unfold Machine.deliverStatus
  split
  · exact h
  · exact .ite h (.ite (.windowEvent h) (.intakeMoves (.toRing (.modFn h))))

theorem Engine.Canon.fetchCommand {f j now} (h : e.Canon) : (fetchCommand f j now e).Canon :=
  .ite h (.ite (.windowEvent h) (.dwTry (.completed (.modFn (.modRing (.packetIn h))))))

theorem Engine.Canon.doorbellWrite {f q v} (h : e.Canon) : (doorbellWrite f q v e).Canon := .ite h (.ite (.modRing h) (.ringDrop h))

theorem Engine.Canon.ringConfig {f q v now} (h : e.Canon) : (ringConfig f q v now e).Canon := by
  refine .ite h ?_
  extract_lets _ _ _ _ e1 e2
  have h1 : e1.Canon := by
    unfold e1
    refine .ite (.modFn h) ?_
    split
    · exact .ite (.modTenant h) h
    · exact h
  have h2 : e2.Canon := .ite (.ite (.modRing h1) (.modRing h1)) (.modRing h1)
  exact .dwTry h2

theorem Engine.Canon.dwWrite {f off bs} (h : e.Canon) : (dwWrite f off bs e).Canon := .ite h (.modFn h)

theorem Engine.Canon.dwLaunched {f v wordBad headerBad now} (h : e.Canon) : (dwLaunched f v wordBad headerBad now e).Canon :=
  .ite h (.ite (.modFn h) (.ite h (.dwTry (.modFn h))))

theorem Engine.Canon.assignVf {t v} (h : e.Canon) : (assignVf t v e).Canon := .ite h (.update h)
theorem Engine.Canon.writeWindow {f w high v} (h : e.Canon) : (writeWindow e f w high v).Canon := .modFn h
theorem Engine.Canon.pendingMsix {f v} (h : e.Canon) : (e.pendingMsix f v).Canon := .ite (.send (.modFn h)) h

theorem Engine.Canon.registerWrite {f off v now} (h : e.Canon) : (registerWrite f off v now e).Canon := by
  unfold Machine.registerWrite
  refine .ite h ?_
  refine .ite (.ite h (.ite (.modRing h) (.ite (.modRing h) (.ite (.ringConfig h) h)))) ?_
  refine .ite (.doorbellWrite h) ?_
  refine .ite (.ite h (.pendingMsix (.modFn h))) ?_
  split
  · exact h
  · exact .ite (.writeWindow h) (.ite (.assignVf h) (.ite (.ite (.writeWindow h) h) (.ite (.ite (.modDeck h) h) (.ite (.modHport h) h))))

theorem Tile.Canon.setRegion {n v} (k : ti.Canon) : (ti.setRegion n v).Canon := .update (Tile.Canon.foldl (fun _ _ h1 => .zero h1) k)

theorem Engine.Canon.abortActs {f now} (h : e.Canon) : (e.abortActs f now).Canon := by
  refine .foldl (fun _ _ h1 => ?_) h
  refine .foldl (fun _ _ h2 => ?_) h1
  split
  · exact .ite (.decideAct h2) h2
  · exact h2

theorem Engine.Canon.dropCapture {f} (h : e.Canon) : (e.dropCapture f).Canon :=
  .foldl (fun _ _ h1 => .foldl (fun _ _ h2 => .modPart h2) h1) (.update h)

theorem Engine.Canon.muteScheduled {f} (h : e.Canon) : (e.muteScheduled f).Canon := .update h

theorem Engine.Canon.flrOf {f now} (h : e.Canon) : (flrOf f now e).Canon := by
  unfold Machine.flrOf
  split
  · exact .muteScheduled (.dropCapture (.modFn (.foldl (fun _ _ h1 => .modDeck h1) h)))
  · extract_lets e1 _ e2
    have h1 : e1.Canon := .foldl (fun _ _ h1 => .modDeck h1) (.abortActs h)
    have h2 : e2.Canon := .foldl (fun _ _ h2 => .ite (.idleReq h2) (.cancelReq h2)) (.modFn h1)
    exact .foldl (fun _ _ h3 => .modReq h3) (.modTenant h2)

theorem Engine.Canon.hotReset {port now} (h : e.Canon) : (hotReset port now e).Canon := .foldl (fun _ _ h1 => .flrOf h1) (.flrOf h)

theorem Engine.Canon.linkDown {port now} (h : e.Canon) : (linkDown port now e).Canon :=
  .ite h (.foldl (fun _ _ h1 => .foldl (fun _ _ h2 => .modPart h2) (.reply (.update h1))) (.event (.modHport h)))

theorem Engine.Canon.linkUpAgain {port rate width} (h : e.Canon) : (linkUpAgain port rate width e).Canon :=
  .ite h (.foldl (fun _ _ h1 => .foldl (fun _ _ h2 => .pendingMsix h2) h1) (.foldl (fun _ _ h1 => .dma h1) (.modHport h)))

/-! ### Partition commands -/

theorem Tile.Canon.zeroRegs {f} (k : ti.Canon) : (ti.zeroRegs f).Canon := .foldl (fun _ _ h1 => .ite (.zero h1) h1) k
theorem Engine.Canon.zeroRegions {p} (h : e.Canon) : (e.zeroRegions p).Canon := .modPartTiles (fun _ k => .zeroRegs k) h
theorem Tile.Canon.zeroSlot {j} (k : ti.Canon) : (ti.zeroSlot j).Canon := .mk k.sp (Memory.wf_zeroRange _ _ _ k.kv) k.nv

theorem Engine.Canon.zeroAdapter {p} (h : e.Canon) : (e.zeroAdapter p).Canon :=
  .modPartTiles (fun _ k => .foldl (fun _ _ h2 => .ite (.zeroSlot h2) h2) k) h

theorem Engine.Canon.unbindGraph {p} (h : e.Canon) : (e.unbindGraph p).Canon := .ite (.modGraph h) h
theorem Engine.Canon.unbind {p} (h : e.Canon) : (e.unbind p).Canon := .modPart (.unbindGraph h)
theorem Engine.Canon.announceTo {now a node} (h : e.Canon) : (e.announceTo now a node).Canon := .ctrl h
theorem Engine.Canon.announceParts {now f to'} (h : e.Canon) : (e.announceParts now f to').Canon := .foldl (fun _ _ h1 => .announceTo h1) h

theorem Engine.Canon.bindImage {p img now} (h : e.Canon) : (e.bindImage p img now).Canon :=
  .ite (.modPart (.modGraph (.unbind h))) (.announceParts (.modPart (.modPart (.modGraph (.unbind h)))))

theorem Engine.Canon.badPart {now hd} (h : e.Canon) : (e.badPart now hd).Canon := .reply h

theorem Engine.Canon.runBindFields {fields img hd acc now} (h : e.Canon) : (runBindFields fields img hd acc now e).Canon := by
  unfold Machine.runBindFields
  refine .ite (.reply h) ?_
  refine .ite (.badPart h) ?_
  split
  · exact .reply h
  · split
    · exact .reply h
    · exact .modPart (.accept h)

theorem Engine.Canon.dropReserve {p} (h : e.Canon) : (e.dropReserve p).Canon := .modPart (.modPartTiles (fun _ k => .dropSlots k) h)

theorem Engine.Canon.drain {p now force} (h : e.Canon) : (e.drain p now force).Canon :=
  .dropReserve (.foldl (fun _ _ h1 => .modReq (.freePages h1)) (.endWhere (.ite (.endWhere h) h)))

theorem Engine.Canon.zeroLeft {p left} (h : e.Canon) : (e.zeroLeft p left).Canon :=
  TilesCanon.foldl (fun _ _ hm k => .ite (.mset hm (.zeroRegs k)) hm) h h

theorem Engine.Canon.commitPart {p} (h : e.Canon) : (e.commitPart p).Canon := .update h

theorem Engine.Canon.endRebind {p now r} (h : e.Canon) : (e.endRebind p now r).Canon := by
  unfold Engine.endRebind
  extract_lets e1 no e2
  have h1 : e1.Canon := .modPart h
  have h2 : e2.Canon := .foldl (fun _ _ h2 => .pausePart h2) (.ite h1 (.bindImage h1))
  refine .ite (.okReply (.commitPart h1)) ?_
  clear_value no
  split
  · exact .reply (.commitPart h2)
  · exact .okReply (.commitPart h2)

theorem Engine.Canon.rebindStage {p now} (h : e.Canon) : (rebindStage p now e).Canon := by
  unfold Machine.rebindStage
  dsimp only
  split
  · exact h
  · split
    · exact .ite (.modPart (.drain h)) h
    · exact .ite h (.modPart h)
    · exact .modPart (.modPart (.unbind h))
    · exact .modPart (.zeroRegions (.zeroLeft h))
    · exact .endRebind h

theorem Engine.Canon.runBindImage {img hd acc now} (h : e.Canon) : (runBindImage img hd acc now e).Canon := by
  unfold Machine.runBindImage
  refine .ite (.badPart h) ?_
  split
  · exact .reply h
  · exact .okReply (.zeroRegions (.bindImage h))

theorem Engine.Canon.runTenantBind {t hd acc now} (h : e.Canon) : (runTenantBind t hd acc now e).Canon := by
  unfold Machine.runTenantBind
  extract_lets _ _ e1
  have h1 : e1.Canon := .foldl (fun _ _ h1 => .modReq h1) (.endWhere h)
  exact .ite (.reply (.modTenant h)) (.okReply (.foldl (fun _ _ h2 => .ite (.zeroRegions h2) (.zeroAdapter (.zeroRegions h2))) (.modTenant h1)))

theorem Engine.Canon.runTenantSet {t weight maxReq enable mask hd acc now} (h : e.Canon) : (runTenantSet t weight maxReq enable mask hd acc now e).Canon :=
  .okReply (.modTenant h)

theorem Engine.Canon.runPartPause {hd acc now} (h : e.Canon) : (runPartPause hd acc now e).Canon := by
  unfold Machine.runPartPause
  split
  · exact .badPart h
  · exact .badPart h
  · exact .okReply h
  · exact .okReply (.pausePart h)

theorem Engine.Canon.resumeAll {p} (h : e.Canon) : (e.resumeAll p).Canon := .foldl (fun _ _ h1 => .modReq h1) h

theorem Engine.Canon.runPartResume {hd acc now} (h : e.Canon) : (runPartResume hd acc now e).Canon := by
  unfold Machine.runPartResume
  split
  · exact .reply h
  · exact .ite (.okReply (.modPart (.resumeAll h))) (.okReply h)

theorem Engine.Canon.abortPrepare {p now} (h : e.Canon) : (e.abortPrepare p now).Canon := by
  unfold Engine.abortPrepare
  split
  · exact .ite (.abortEpoch h) h
  · exact h

theorem Engine.Canon.resetPart {p now} (h : e.Canon) : (e.resetPart p now).Canon := by
  unfold Engine.resetPart
  extract_lets e1 _ e2
  have h1 : e1.Canon := .modPart (.abortPrepare (.unbindGraph h))
  have h2 : e2.Canon := by
    unfold e2
    refine .modPartTiles (fun _ k => ?_) (.endWhere h1)
    refine .foldl (fun _ _ h3 => ?_) k
    split
    · exact .ite (.setUse (.zeroSlot h3)) h3
    · exact h3
  exact .modPart (.zeroRegions h2)

theorem Engine.Canon.runPartReset {hd acc now} (h : e.Canon) : (runPartReset hd acc now e).Canon := .okReply (.resetPart h)

theorem Engine.Canon.runPartMode {mask bits retr cap hd acc now} (h : e.Canon) : (runPartMode mask bits retr cap hd acc now e).Canon := by
  unfold Machine.runPartMode
  extract_lets _ _ _ _ _ _ _ _ _ e1
  have h1 : e1.Canon := .cond (fun _ h1 => .hold h1) (.ite (.accept h) h)
  exact .ite (.badPart h) (.ite (.reply h) (.ite (.reply h) (.modPart (.sendPrepare h1))))

theorem Engine.Canon.runHemSet {deck table entry inRate outRate burst hd acc now} (h : e.Canon) : (runHemSet deck table entry inRate outRate burst hd acc now e).Canon :=
  .ite (.reply h) (.ite (.reply h) (.okReply (.modDeck h)))

theorem Tile.Canon.takeSlots {n u} (k : ti.Canon) : (ti.takeSlots n u).Canon := .foldl (fun _ _ h1 => .setUse h1) k

theorem Engine.Canon.runKvReserve {addr bytes cache low hd acc now} (h : e.Canon) : (runKvReserve addr bytes cache low hd acc now e).Canon := by
  unfold Machine.runKvReserve
  extract_lets _ _ _ _ _ e1
  have h1 : e1.Canon := .ite (.dropReserve h) (.foldl (fun _ _ h1 => .modTile (fun _ k => .takeSlots k) h1) (.dropReserve h))
  exact .ite (.badPart h) (.ite (.okReply (.dropReserve h)) (.ite (.reply h) (.okReply (.modPart h1))))

/-! ### Graphs -/

theorem Tile.Canon.setUses {a n u} (k : ti.Canon) : (ti.setUses a n u).Canon := .foldl (fun _ _ h1 => .setUse h1) k

theorem Tile.Canon.enter {i g pl slot} (k : ti.Canon) : (ti.enter i g pl slot).Canon := by
  unfold Tile.enter
  extract_lets ti1 ti2 ti3
  have k1 : ti1.Canon := .foldl (fun _ _ h1 => .setRegion h1) k
  have k2 : ti2.Canon := .foldl (fun _ _ h2 => .foldl (fun _ _ h3 => .store h3) h2) k1
  have k3 : ti3.Canon := .foldl (fun _ _ h3 => .store h3) k2
  exact .foldl (fun _ _ h4 => .foldl (fun _ _ h5 => .store h5) h4) k3

theorem Memory.wf_fill {m s : Memory} (hs : s.wf = true) : (m.foldl (fun s x => writeByte s x.1 x.2) s).wf = true := by
  induction m generalizing s with
  | nil => exact hs
  | cons x m ih => exact ih (Memory.wf_writeByte _ _ _ hs)

theorem Tile.Canon.fill {m} (k : ti.Canon) : (ti.fill m).Canon := .mk (Memory.wf_fill k.sp) k.kv k.nv

theorem Tile.Canon.install {i g pl m slot} (k : ti.Canon) : (ti.install i g pl m slot).Canon := .fill (.enter k)

theorem Engine.Canon.installOn {i t w pl} (h : e.Canon) : (e.installOn i t w pl).Canon := by
  unfold Engine.installOn
  dsimp only
  split
  · exact .modTile (fun _ k => .install k) h
  · exact h

theorem Engine.Canon.refetch {img t} (h : e.Canon) : (e.refetch img t).Canon := by
  refine .foldl (fun _ _ h1 => ?_) h
  refine .ite h1 ?_
  split
  · split
    · exact h1
    · exact .foldl (fun _ _ h2 => .modTile (fun _ k => .store k) h2) h1
  · exact h1

theorem Engine.Canon.finishLoad {i now} (h : e.Canon) : (e.finishLoad i now).Canon := by
  unfold Engine.finishLoad
  refine .ite ?_ h
  split
  · exact .reply (.modGraph h)
  · exact .modGraph h

/-- What a checked result holds, where the check passes. -/
def GivesOk {ε α : Type} (P : α → Prop) (o : Except ε α) : Prop := ∀ x, o = .ok x → P x

section
variable {ε α β : Type} {P : α → Prop} {Q : β → Prop}

theorem GivesOk.error {x : ε} : GivesOk P (.error x) := nofun

theorem GivesOk.ok {x : α} (h : P x) : GivesOk P (.ok x : Except ε α) := fun _ hx => Except.ok.inj hx ▸ h

theorem GivesOk.bind {o : Except ε α} {f : α → Except ε β} (ho : GivesOk P o) (hf : ∀ x, P x → GivesOk Q (f x)) : GivesOk Q (o >>= f) := by
  cases o with
  | error => exact .error
  | ok x => exact hf x (ho x rfl)

/-- A result of which nothing need be known. -/
theorem GivesOk.next {o : Except ε α} {f : α → Except ε β} (hf : ∀ x, GivesOk Q (f x)) : GivesOk Q (o >>= f) :=
  .bind (P := fun _ => True) (fun _ _ => trivial) (fun x _ => hf x)

theorem GivesOk.foldlM {f : α → β → Except ε α} {l : List β} {x : α} (hf : ∀ x y, P x → GivesOk P (f x y)) (hx : P x) : GivesOk P (l.foldlM f x) := by
  induction l generalizing x with
  | nil => exact .ok hx
  | cons y l ih => exact .bind (hf x y hx) (fun z hz => ih hz)

end

theorem Tile.Canon.placePool {i g cs} (k : ti.Canon) : Gives (fun r => r.1.Canon) (ti.placePool i g cs) :=
  .foldlM (fun _ _ k1 => .next fun _ => .ite .none (.some (.setUses k1))) k

theorem Tile.Canon.placeAdapt {p a} (k : ti.Canon) : Gives (fun r => r.1.Canon) (ti.placeAdapt p a) := by
  unfold Tile.placeAdapt
  split
  · exact .ite (.some k) .none
  · exact .next fun _ => .ite .none (.some (.setUses (.foldl (fun _ _ k1 => .zeroSlot k1) k)))

theorem Engine.Canon.placeGraph {i g} (h : e.Canon) : GivesOk (fun r => r.1.Canon) (e.placeGraph i g) := by
  refine .next fun _ => .bind (P := fun r => r.1.Canon) (.foldlM (fun r y h1 => ?_) h) fun _ h1 => .bind (P := fun r => r.1.Canon)
    (.foldlM (fun r y h2 => ?_) h1) fun _ h2 => .next fun _ => .ok h2
  · split
    · next hp => exact .ok (.modTile (fun _ _ => Tile.Canon.placePool h1.tile _ hp) h1)
    · exact .error
  · split
    · next hp => exact .ok (.modTile (fun _ _ => Tile.Canon.placeAdapt h2.tile _ hp) h2)
    · exact .error

theorem Engine.Canon.runGraphLoad {pkg img hd acc now} (h : e.Canon) : (runGraphLoad pkg img hd acc now e).Canon := by
  unfold Machine.runGraphLoad
  split
  · exact .reply h
  · split
    · exact .reply h
    · split
      · exact .reply h
      · next hp =>
        have h1 := h.placeGraph _ hp
        exact .finishLoad (.modGraph (.ite (.accept h1) (.modPart (.accept h1))))

theorem Engine.Canon.transferBlobs {i t now} (h : e.Canon) : (transferBlobs i t now e).Canon := by
  unfold Machine.transferBlobs
  dsimp only
  split
  · refine .ite h ?_
    refine .ite (.ite (.modPart (.modGraph (.modTile (fun _ k => .enter k) h))) h) ?_
    refine .ite h ?_
    split
    · exact .finishLoad (.modGraph (.modTile (fun _ k => .fill k) h))
    · exact h
  · exact h

theorem Tile.Canon.remove {pl} (k : ti.Canon) : (ti.remove pl).Canon := by
  unfold Tile.remove
  extract_lets ti1 ti2 ti3 ti4
  have k1 : ti1.Canon := .foldl (fun _ _ h1 => .setRegion h1) k
  have k2 : ti2.Canon := .foldl (fun _ _ h2 => .zero h2) k1
  have k3 : ti3.Canon := .foldl (fun _ _ h3 => .zero h3) k2
  have k4 : ti4.Canon := .foldl (fun _ _ h4 => .zero h4) k3
  exact .foldl (fun _ _ h5 => .setUses h5) k4

theorem Engine.Canon.removeGraph {i} (h : e.Canon) : (e.removeGraph i).Canon := by
  unfold Engine.removeGraph
  extract_lets _ e1 e2 _
  have h1 : e1.Canon := .foldl (fun _ _ h1 => .modTile (fun _ k => .remove k) h1) h
  have h2 : e2.Canon := .modGraph h1
  exact .ite h2 (.modPart (.update (TilesCanon.foldl (fun _ _ hm k => .mset hm (.dropSlots k)) h2 h2)))

theorem Engine.Canon.runGraphUnload {g hd acc now} (h : e.Canon) : (runGraphUnload g hd acc now e).Canon :=
  .ite (.okReply (.removeGraph h)) (.reply h)

theorem Engine.Canon.runGraphQuery {g addr hd acc now} (h : e.Canon) : (runGraphQuery g addr hd acc now e).Canon := .okReply (.dma h)
theorem Engine.Canon.setAdapt {p half bs} (h : e.Canon) : (e.setAdapt p half bs).Canon := .foldl (fun _ _ h1 => .setKvBytes h1) h

theorem Engine.Canon.runAdaptSave {addr bytes half hd acc now} (h : e.Canon) : (runAdaptSave addr bytes half hd acc now e).Canon :=
  .ite (.badPart h) (.ite (.reply h) (.okReply (.dma h)))

theorem Engine.Canon.runAdaptRestore {data half hd acc now} (h : e.Canon) : (runAdaptRestore data half hd acc now e).Canon :=
  .ite (.badPart h) (.ite (.reply h) (.okReply (.setAdapt h)))

end Sys2Proof.Machine
end

section
/-!
PROOFS. Canonical byte stores: imprinting and repair, dispatch, the beginning and the halt of a step, sites out of service, and the fabric.
-/
namespace Sys2Proof.Machine

open Sys2Proof.Safety

variable {e e' : Engine} {ti : Tile}

/-! ### Stripes, slices and imprint frames -/

theorem Tile.Canon.modStripe {j f} (k : ti.Canon) : (ti.modStripe j f).Canon := .update k

theorem Engine.Canon.allocStripes {now t img ks} (h : e.Canon) : (e.allocStripes now t img ks).Canon :=
  .foldl (fun _ _ h1 => .ite (.siteEvent (.modTile (fun _ k => .modStripe k) h1)) (.modTile (fun _ k => .modStripe k) h1)) h

theorem Tile.Canon.freeStripes {ks} (k : ti.Canon) : (ti.freeStripes ks).Canon := .foldl (fun _ _ h1 => .modStripe h1) k

theorem Memory.wf_drops {ks : List Nat} {q : Nat → Nat → Bool} {m : Memory} (hm : m.wf = true) :
    Memory.wf (ks.foldl (fun m j => mdrop (q j) m) m) = true := by
  induction ks generalizing m with
  | nil => exact hm
  | cons j ks ih => exact ih (mwf_mdrop _ _ _ hm)

theorem Tile.Canon.erase {ks} (k : ti.Canon) : (ti.erase ks).Canon := .mk k.sp k.kv (Memory.wf_drops k.nv)

theorem Tile.Canon.clearExt {slot} (k : ti.Canon) : (ti.clearExt slot).Canon := .update k

theorem Tile.Canon.writeExt {slot ks} (k : ti.Canon) : (ti.writeExt slot ks).Canon := by
  refine .foldl (fun _ _ h1 => ?_) (.clearExt k)
  split
  · exact .update h1
  · exact h1

theorem Engine.Canon.raiseHem {ports} (h : e.Canon) : (e.raiseHem ports).Canon := .foldl (fun _ _ h1 => .ite (.modDeck h1) h1) h
theorem Engine.Canon.restoreHem (h : e.Canon) : (e.restoreHem).Canon := .foldl (fun _ _ h1 => .modDeck h1) h
theorem Engine.Canon.closeSession (h : e.Canon) : (e.closeSession).Canon := .modSup (.restoreHem (.update h))

theorem Engine.Canon.abortSession {now why} (h : e.Canon) : (e.abortSession now why).Canon := by
  unfold Engine.abortSession
  extract_lets _ e1 e2
  have h1 : e1.Canon := .foldl (fun _ _ h1 => .modTile (fun _ k => .freeStripes k) h1) h
  have h2 : e2.Canon := .closeSession (.modImage h1)
  refine .ite h ?_
  split
  · exact .reply h2
  · exact h2

theorem Engine.Canon.breakSession {now why} (h : e.Canon) : (e.breakSession now why).Canon := .ite h (.abortSession h)

theorem Engine.Canon.putPage {j s i bs} (h : e.Canon) : (e.putPage j s i bs).Canon := by
  unfold Engine.putPage
  extract_lets _ e1
  have h1 : e1.Canon := by
    unfold e1
    refine .ite (.update h) ?_
    split
    · exact .modTile (fun _ k => .program k) h
    · exact h
  exact .update h1

theorem Engine.Canon.checkEnable (h : e.Canon) : (e.checkEnable).Canon := .modSup h

theorem Engine.Canon.takeFrame {now bs} (h : e.Canon) : (e.takeFrame now bs).Canon := by
  unfold Engine.takeFrame
  refine .ite h ?_
  refine .ite (.ite (.update h) (.ite (.zput h) (.zlose h))) ?_
  split
  · exact .update h
  · exact .ite (.update h) (.putPage h)

theorem Engine.Canon.recoverSlice {j} (h : e.Canon) : (e.recoverSlice j).Canon := by
  unfold Engine.recoverSlice
  extract_lets _ _ e1
  have h1 : e1.Canon := by
    unfold e1
    split
    · exact .modTile (fun _ k => .foldl (fun _ _ h2 => .modStripe h2) (.erase k)) h
    · exact h
  split
  · exact h
  · exact .ite h (.update (Engine.Canon.foldl (fun _ _ h2 => .putPage h2) h1))

theorem Engine.Canon.recoverAll (h : e.Canon) : (e.recoverAll).Canon := .foldl (fun _ _ h1 => .recoverSlice h1) h

theorem Engine.Canon.settleSession {now} (h : e.Canon) : (e.settleSession now).Canon := by
  unfold Engine.settleSession
  refine .ite h ?_
  refine .ite (.update h) ?_
  split
  · exact .reply (.dma (.update h))
  · exact .update h

/-! ### Image commands -/

theorem Engine.Canon.runImgFit {manifest fields addr hd acc now} (h : e.Canon) : (runImgFit manifest fields addr hd acc now e).Canon := by
  unfold Machine.runImgFit
  split
  · exact .reply h
  · exact .okReply (.dma h)

theorem Engine.Canon.openSession {now m fields ports zport img slot hd} (h : e.Canon) : (e.openSession now m fields ports zport img slot hd).Canon :=
  .modSup (.raiseHem (.update (Engine.Canon.foldl (fun _ _ h1 => .allocStripes h1) h)))

theorem Engine.Canon.runImgBegin {manifest fields ports zport hd acc now} (h : e.Canon) : (runImgBegin manifest fields ports zport hd acc now e).Canon := by
  refine .ite (.reply h) ?_
  split
  · exact .reply h
  · split
    · exact .reply h
    · dsimp only
      refine .ite (.reply h) ?_
      refine .ite (.reply h) ?_
      split
      · exact .reply h
      · exact .openSession (.accept h)

theorem RunKeeps.inSession {img ok run} (hr : RunKeeps run) : RunKeeps (inSession img ok run) :=
  fun _ _ _ _ h => .ite (hr _ _ _ _ h) (.reply h)

theorem Engine.Canon.runImgStream {frames hd acc now} (h : e.Canon) : (runImgStream frames hd acc now e).Canon :=
  .reply (.foldl (fun _ _ h1 => .takeFrame h1) (.spendHem h))

theorem Engine.Canon.runImgEnd {addr hd acc now} (h : e.Canon) : (runImgEnd addr hd acc now e).Canon :=
  .settleSession (.update (Engine.Canon.accept h))

theorem Engine.Canon.runImgAbort {hd acc now} (h : e.Canon) : (runImgAbort hd acc now e).Canon := .okReply (.abortSession h)

theorem Engine.Canon.reopenSlices (h : e.Canon) : (e.reopenSlices).Canon := by
  unfold Engine.reopenSlices
  extract_lets _ e1
  have h1 : e1.Canon := by
    unfold e1
    refine .foldl (fun _ _ h1 => ?_) h
    split
    · exact .modTile (fun _ k => .foldl (fun _ _ h3 => .modStripe h3) (.erase k)) h1
    · exact h1
  exact .update h1

theorem Engine.Canon.runImgPatch {hd acc now} (h : e.Canon) : (runImgPatch hd acc now e).Canon := by
  unfold Machine.runImgPatch
  split
  · exact .reply h
  · exact .okReply (.modSup (.reopenSlices h))

theorem Tile.Canon.loadTier {slot cache bs} (k : ti.Canon) : (ti.loadTier slot cache bs).Canon := by
  unfold Tile.loadTier
  extract_lets _ ti1
  have k1 : ti1.Canon := .foldl (fun ti x h1 => by
    have h2 : (ti.setUse x.1 (.overflow slot)).Canon := .setUse h1
    exact .update ⟨h2.sp, Memory.wf_writeBytes _ _ _ (Memory.wf_zeroRange _ _ _ h1.kv), h2.nv⟩) k
  exact .takeSlots k1

theorem Engine.Canon.fillTier {im ls cache} (h : e.Canon) : (e.fillTier im ls cache).Canon :=
  .foldl (fun _ _ h1 => .modTile (fun _ k => .loadTier k) h1) h

theorem Engine.Canon.writeTier {f im region ls} (h : e.Canon) : (e.writeTier f im region ls).Canon := .foldl (fun _ _ h1 => .ite h1 (.dma h1)) h

theorem Engine.Canon.runTierLoad {img frames region bytes cache hd acc now} (h : e.Canon) : (runTierLoad img frames region bytes cache hd acc now e).Canon := by
  unfold Machine.runTierLoad
  refine .ite (.reply h) ?_
  split
  · exact .reply h
  · exact .ite (.reply h) (.ite (.reply h) (.okReply (.modImage (.writeTier (.fillTier (.accept h))))))

theorem Tile.Canon.releaseImage {img slot} (k : ti.Canon) : (ti.releaseImage img slot).Canon :=
  .zeroRegs (.update (Tile.Canon.dropSlots (.clearExt (.freeStripes k))))

theorem Engine.Canon.runImgRelease {img hd acc now} (h : e.Canon) : (runImgRelease img hd acc now e).Canon := by
  unfold Machine.runImgRelease
  extract_lets _ e1 e2
  have h1 : e1.Canon := .endWhere h
  have h2 : e2.Canon := by
    refine .foldl (fun _ _ h2 => ?_) h1
    split
    · exact .reply (.removeGraph h2)
    · exact .removeGraph h2
  exact .ite (.okReply h) (.ite (.reply h)
    (.okReply (.modImage (.update (TilesCanon.foldl (fun _ _ hm k => .ite (.mset hm (.releaseImage k)) hm) h2 h2)))))

theorem Engine.Canon.runImgQuery {img addr hd acc now} (h : e.Canon) : (runImgQuery img addr hd acc now e).Canon := .okReply (.dma h)

theorem Engine.Canon.runKeyEnrol {slot key sig hd acc now} (h : e.Canon) : (runKeyEnrol slot key sig hd acc now e).Canon :=
  .ite (.reply h) (.ite (.reply h) (.okReply (.modSup h)))

/-! ### Monitors -/

theorem Engine.Canon.monitorSample {m q} (h : e.Canon) : (monitorSample m q e).Canon := .ite (.update h) h
theorem Engine.Canon.clearMonitors {now l} (h : e.Canon) : (e.clearMonitors now l).Canon := .update h

/-! ### Imprinting and repair writes -/

theorem Engine.Canon.eraseDone {now} (h : e.Canon) : (eraseDone now e).Canon := by
  unfold Machine.eraseDone
  extract_lets _ e1
  have h1 : e1.Canon := .foldl (fun _ _ h1 => .modTile (fun _ k => .erase k) h1) h
  refine .ite h ?_
  split
  · exact .reply (.update h1)
  · exact .update h1

theorem Engine.Canon.verifyField {field bad now} (h : e.Canon) : (verifyField field bad now e).Canon :=
  .ite h (.settleSession (.recoverAll (.update h)))

theorem Engine.Canon.serveByChain {now img j s from' t} (h : e.Canon) : (e.serveByChain now img j s from' t).Canon := by
  unfold Engine.serveByChain
  extract_lets _ e1
  have h1 : e1.Canon := .modTile (fun _ k => .update k) h
  split
  · exact .siteEvent h1
  · exact .update (Engine.Canon.allocStripes h1)

theorem Engine.Canon.commitSlice {now j s} (h : e.Canon) : (e.commitSlice now j s).Canon := by
  unfold Engine.commitSlice
  extract_lets _ _ e1
  have h1 : e1.Canon := by
    unfold e1
    split
    · exact .modTile (fun _ k => .freeStripes k) h
    · exact h
  refine .ite ?_ ?_
  · split
    · exact .modImage h1
    · exact .ite (.modImage h1) (.serveByChain (.modImage h1))
  · split
    · exact .modTile (fun _ k => .update (Tile.Canon.writeExt k)) h
    · exact h

theorem Engine.Canon.commitImage {now} (h : e.Canon) : (commitImage now e).Canon := by
  unfold Machine.commitImage
  extract_lets _ _ e1 _ e2
  have h1 : e1.Canon := .foldl (fun _ _ h1 => .commitSlice h1) h
  have h2 : e2.Canon := .closeSession (.modImage h1)
  refine .ite h ?_
  split
  · exact .reply h2
  · exact h2

theorem Engine.Canon.startRepair {img j t now} (h : e.Canon) : (startRepair img j t now e).Canon := by
  unfold Machine.startRepair
  dsimp only
  split
  · exact h
  · refine .ite h ?_
    refine .ite (.update h) ?_
    split
    · exact .siteEvent h
    · exact .update (Engine.Canon.allocStripes h)

theorem Engine.Canon.finishRepair {now r} (h : e.Canon) : (e.finishRepair now r).Canon := by
  unfold Engine.finishRepair
  extract_lets _ _ e1 _ e2
  have h1 : e1.Canon := by
    unfold e1
    refine .modTile (fun _ k => ?_) h
    extract_lets _ _ ti2 ti3
    have k2 : ti2.Canon := .update (Tile.Canon.freeStripes (.erase k))
    have k3 : ti3.Canon := by
      unfold ti3
      refine .foldl (fun _ _ h3 => ?_) k2
      split
      · exact .program h3
      · exact h3
    exact .update (Tile.Canon.writeExt k3)
  have h2 : e2.Canon := .modImage (.refetch (.update h1))
  exact .siteEvent (.modImage h2)

theorem Engine.Canon.dropRepair {r} (h : e.Canon) : (e.dropRepair r).Canon := .update (Engine.Canon.modTile (fun _ k => .freeStripes k) h)

theorem Engine.Canon.repairVerified {j ok now} (h : e.Canon) : (repairVerified j ok now e).Canon := by
  unfold Machine.repairVerified
  split
  · exact h
  · exact .ite h (.ite (.dropRepair h) (.ite (.finishRepair h) h))

/-! ### Dispatch -/

theorem Tile.Canon.setCount {i count stag} (k : ti.Canon) : (ti.setCount i count stag).Canon := .mk (Memory.wf_writeNat _ _ _ _ k.sp) k.kv k.nv
theorem Tile.Canon.clearCtx {c} (k : ti.Canon) : (ti.clearCtx c).Canon := .update k
theorem Tile.Canon.clearBank {b} (k : ti.Canon) : (ti.clearBank b).Canon := .update k

theorem Tile.Canon.grant {p i x3 x5} (k : ti.Canon) : (ti.grant p i x3 x5).Canon := by
  unfold Tile.grant
  extract_lets _ _ _ _ ti1 ti2 ti3
  have k1 : ti1.Canon := .foldl (fun _ _ h1 => .clearCtx h1) k
  have k2 : ti2.Canon := .foldl (fun _ _ h2 => .clearBank h2) k1
  have k3 : ti3.Canon := .foldl (fun _ _ h3 => .modThread h3) k2
  exact .update k3

theorem Tile.Canon.grantAll {p x3 x5 l} (k : ti.Canon) : Gives Tile.Canon (ti.grantAll p x3 x5 l) := by
  induction l generalizing ti with
  | nil => exact .some k
  | cons i l ih => exact .ite (ih (.grant k)) .none

theorem Engine.Canon.grantTask {t i now} (h : e.Canon) : (grantTask t i now e).Canon := by
  unfold Machine.grantTask
  split
  · exact h
  · refine .ite h ?_
    split
    · exact h
    · next hg => exact .modDeck (.modTile (fun _ _ => Tile.Canon.grantAll h.tile _ hg) h)

theorem Tile.Canon.freeInst {slot} (k : ti.Canon) : (ti.freeInst slot).Canon := by
  unfold Tile.freeInst
  split
  · exact k
  · exact .update (Tile.Canon.foldl (fun _ _ h1 => .modThread h1) k)

theorem Engine.Canon.releaseTask {t slot now} (h : e.Canon) : (releaseTask t slot now e).Canon := by
  unfold Machine.releaseTask
  extract_lets _ _ e1
  have h1 : e1.Canon := .modTile (fun _ k => .freeInst k) h
  split
  · exact .ite (.update h1) h
  · exact h

theorem Engine.Canon.deliver {g} (h : e.Canon) : (e.deliver g).Canon := by
  unfold Engine.deliver
  split
  · exact h
  · exact .ite (.modDeck h) (.ite (.modPart (.modDeck h)) (.modTile (fun _ k => .setCount k) h))

theorem Engine.Canon.combineAll {p node cluster now} (h : e.Canon) : (combineAll p node cluster now e).Canon := by
  unfold Machine.combineAll
  split
  · exact .ite h (.ite (.update h) (.modPart h))
  · exact h

/-! ### What a step writes and clears -/

theorem Engine.Canon.toRoleAt {p t role off bs} (h : e.Canon) : (e.toRoleAt p t role off bs).Canon :=
  .foldl (fun _ _ h1 => .modTile (fun _ k => .store k) h1) h

theorem Engine.Canon.toRole {p t role bs} (h : e.Canon) : (e.toRole p t role bs).Canon := .toRoleAt h
theorem Tile.Canon.readyStep {idx stag} (k : ti.Canon) : (ti.readyStep idx stag).Canon := .foldl (fun _ _ h1 => .setCount h1) (.update k)

theorem Engine.Canon.writeInputs {p} (h : e.Canon) : (e.writeInputs p).Canon := by
  unfold Engine.writeInputs
  dsimp only
  split
  · exact h
  · exact .foldl (fun _ _ h1 => .modTile (fun _ k => .readyStep k) (.toRole (.toRole h1))) (.modPartTiles (fun _ k => .update k) h)

theorem Tile.Canon.halt (k : ti.Canon) : (ti.halt).Canon := .update (Tile.Canon.foldl (fun _ _ h1 => .foldl (fun _ _ h2 => .modThread h2) h1) k)
theorem Engine.Canon.disableStop {now field cluster found} (h : e.Canon) : (e.disableStop now field cluster found).Canon := .event (.modField h)

theorem Engine.Canon.disableStops {now} (h : e.Canon) : (e.disableStops now).Canon :=
  .ite (.update (Engine.Canon.foldl (fun _ _ h1 => .disableStop h1) h)) h

theorem Engine.Canon.clearStep {p} (h : e.Canon) : (e.clearStep p).Canon :=
  .modPartTiles (fun _ k => .halt k) (.update (Engine.Canon.foldl (fun _ _ h1 => .modDeck h1) h))

theorem Engine.Canon.recordLate {now p start} (h : e.Canon) : (e.recordLate now p start).Canon := .foldl (fun _ _ h1 => .partEvent h1) h

theorem Engine.Canon.abandonStep {p now} (h : e.Canon) : (e.abandonStep p now).Canon := by
  unfold Engine.abandonStep
  dsimp only
  split
  · exact h
  · exact .pausePart (.modPart (.clearStep (.recordLate (.event h))))

theorem Engine.Canon.reuseSlot {now t j} (h : e.Canon) : (e.reuseSlot now t j).Canon := by
  unfold Engine.reuseSlot
  extract_lets _ _ e1
  have h1 : e1.Canon := .modTile (fun _ k => .setUse (.zeroSlot k)) h
  exact .ite (.siteEvent h1) (.modTile (fun _ k => .update (Tile.Canon.zeroSlot k)) h)

theorem Engine.Canon.loseReq {now p t j q} (h : e.Canon) : (e.loseReq now p t j q).Canon := .doneReq (.modPart (.siteEvent h))

theorem Engine.Canon.resolveSlot {now t j} (h : e.Canon) : (e.resolveSlot now t j).Canon := by
  unfold Engine.resolveSlot
  extract_lets u _ ev
  have hev {way} : (ev way e).Canon := .siteEvent h
  clear_value u
  refine .ite (.reuseSlot hev) ?_
  split
  · exact .setKvBytes (.reuseSlot hev)
  · exact .modTile (fun _ k => .ite k (.setUse k)) (.reuseSlot hev)
  · exact .modTile (fun _ k => .ite k (.setUse k)) (.reuseSlot hev)
  · exact .ite (.reuseSlot hev) (.ite (.pairMsg (.modTile (fun _ k => .update k) hev)) (.reuseSlot (.foldl (fun _ _ h1 => .loseReq h1) hev)))

theorem Engine.Canon.resolveTile {now t} (h : e.Canon) : (e.resolveTile now t).Canon :=
  .modTile (fun _ k => .update k) (.foldl (fun _ _ h1 => .resolveSlot h1) h)

theorem Engine.Canon.resolvePart {now p} (h : e.Canon) : (e.resolvePart now p).Canon := .foldl (fun _ _ h1 => .resolveTile h1) h

/-! ### The halt of a step -/

theorem Engine.Canon.stepEvent {now p code arg0 arg1 t} (h : e.Canon) : (e.stepEvent now p code arg0 arg1 t).Canon := by
  unfold Engine.stepEvent
  split
  · exact .siteEvent h
  · exact .partEvent h

theorem Engine.Canon.haltStep {p f} (h : e.Canon) : (e.haltStep p f).Canon := .modPart (.clearStep h)
theorem Engine.Canon.graphFaulted {now p s} (h : e.Canon) : (e.graphFaulted now p s).Canon := .abandonStep (.stepEvent h)

theorem Engine.Canon.hwFaulted {now p s} (h : e.Canon) : (e.hwFaulted now p s).Canon :=
  .ite (.abandonStep (.resolvePart (.haltStep (.stepEvent h)))) (.resolvePart (.haltStep (.stepEvent h)))

theorem Engine.Canon.haltsStep {p now} (h : e.Canon) : (Machine.haltStep p now e).Canon := by
  unfold Machine.haltStep
  split
  · exact h
  · refine .ite h ?_
    split
    · exact .ite (.hwFaulted h) (.ite (.graphFaulted h) h)
    · exact .ite (.hwFaulted h) (.ite (.graphFaulted h) (.haltStep (.stepEvent h)))

theorem Engine.Canon.reexecute {p now} (h : e.Canon) : (reexecute p now e).Canon := by
  unfold Machine.reexecute
  dsimp only
  split
  · exact .disableStops h
  · exact .ite (.disableStops h) (.writeInputs (.takePorts (.modPart (.disableStops h))))

/-! ### Sites that leave service -/

theorem Engine.Canon.loseImage {now t img group} (h : e.Canon) : (e.loseImage now t img group).Canon :=
  .foldl (fun _ _ h1 => .pausePart (.abandonStep h1)) (.siteEvent h)

theorem Engine.Canon.checkGroups {now t} (h : e.Canon) : (e.checkGroups now t).Canon := .foldl (fun _ _ h1 => .ite (.loseImage h1) h1) h

theorem Engine.Canon.planSlices {now t spare} (h : e.Canon) : (e.planSlices now t spare).Canon := by
  refine .foldl (fun e1 _ h1 => ?_) h
  dsimp only
  split
  · exact .siteEvent (.modImage (.modTile (fun _ k => .update k) (.update h1)))
  · exact .update (Engine.Canon.allocStripes (.modImage (.modTile (fun _ k => .update k) (.update h1))))

theorem Engine.Canon.noSpare {now t v} (h : e.Canon) : (e.noSpare now t v).Canon := by
  unfold Engine.noSpare
  dsimp only
  split
  · exact .pausePart (.abandonStep (.modField (.siteEvent h)))
  · exact .modField (.siteEvent h)

theorem Engine.Canon.openWindow {now p t v migrate also} (h : e.Canon) : (e.openWindow now p t v migrate also).Canon := by
  unfold Engine.openWindow
  split
  · exact .noSpare h
  · exact .modPart (.planSlices (.siteEvent h))

theorem Tile.Canon.stop (k : ti.Canon) : (ti.stop).Canon := .update (Tile.Canon.zero (.halt k))

theorem Engine.Canon.haltForWindow {p now} (h : e.Canon) : (e.haltForWindow p now).Canon := by
  unfold Engine.haltForWindow
  split
  · exact h
  · exact .ite h (.ite (.haltsStep h) (.haltStep h))

theorem Engine.Canon.takeOut {now t st} (h : e.Canon) : (e.takeOut now t st).Canon := by
  unfold Engine.takeOut
  split
  · extract_lets _ e1
    have h1 : e1.Canon := .modTile (fun _ k => .stop k) (.checkGroups (.haltForWindow h))
    exact .ite (.modPart (.setSite h1)) (.openWindow (.modPart (.setSite h1)))
  · exact .setSite (.modTile (fun _ k => .stop k) h)

theorem Engine.Canon.failSpare {now p w st} (h : e.Canon) : (e.failSpare now p w st).Canon := by
  unfold Engine.failSpare
  extract_lets e1
  have h1 : e1.Canon := by
    refine .setSite (.modTile (fun ti k => ?_) h)
    have ks : ti.stop.Canon := .stop k
    exact ⟨ks.sp, rfl, ks.nv⟩
  clear_value e1
  exact .openWindow (.modPart (.update h1))

theorem Engine.Canon.nextWindow {now p migrate} (h : e.Canon) : (e.nextWindow now p migrate).Canon := by
  unfold Engine.nextWindow
  split
  · exact h
  · split
    · exact .openWindow h
    · exact h

theorem Engine.Canon.siteCovered {t c now} (h : e.Canon) : (siteCovered t c now e).Canon := by
  refine .ite h ?_
  split
  · exact h
  · split
    · exact .ite (.takeOut h) h
    · exact .nextWindow h
    · exact .nextWindow h
    · split
      · exact .ite (.failSpare h) h
      · exact h
    · exact h

theorem Engine.Canon.strikeExpiry {t now} (h : e.Canon) : (strikeExpiry t now e).Canon := .ite h (.modTile (fun _ k => .setStrikes k) h)
theorem Tile.Canon.renewed (k : ti.Canon) : (ti.renewed).Canon := .mk rfl rfl k.nv

theorem Engine.Canon.retire {now w new t} (h : e.Canon) : (e.retire now w new t).Canon :=
  .ite h (.foldl (fun _ _ h1 => .okReply h1) (.update (Engine.Canon.ite (.setSite (.modTile (fun _ k => .renewed k) (.ite h (.update h)))) (.event
    (.setSite (.ite h (.update h)))))))

theorem Engine.Canon.retireAll {now spare l} (h : e.Canon) : (e.retireAll now spare l).Canon := .foldl (fun _ _ h1 => .retire h1) h

theorem Engine.Canon.moveGraphs {t spare v} (h : e.Canon) : (e.moveGraphs t spare v).Canon := by
  unfold Engine.moveGraphs
  extract_lets _ _ e1
  have h1 : e1.Canon := .modTile (fun _ k => .update k) h
  refine .foldl (fun _ _ h2 => ?_) h1
  split
  · exact .installOn (.modGraph h2)
  · exact .modGraph h2

/-- The spare takes over the covered site's slab where it can be read; else its own stays empty (R401). -/
theorem Engine.Canon.migrateSlots {now w} (h : e.Canon) : (e.migrateSlots now w).Canon := by
  unfold Engine.migrateSlots
  extract_lets covered _ readable twin e1 e2
  have hkv : Memory.wf (if readable || twin then covered.kv else []) = true := by
    split
    · exact h.tile.kv
    · rfl
  have h1 : e1.Canon := .modTile (fun _ k => .mk k.sp hkv k.nv) h
  have h2 : e2.Canon := .modTile (fun _ k => .mk k.sp rfl k.nv) h1
  split
  · exact .modPart h2
  · exact h2

theorem Engine.Canon.closeWindow {now p w} (h : e.Canon) : (e.closeWindow now p w).Canon :=
  .nextWindow (.retireAll (.resolveTile (.modPart (.event (.setSite (.modField h))))))

theorem Engine.Canon.mapStageDone {p now} (h : e.Canon) : (mapStageDone p now e).Canon := by
  refine .ite h ?_
  split
  · exact .nextWindow h
  · split
    · exact .modPart (.moveGraphs h)
    · exact .modPart (.moveGraphs h)
    · exact .migrateSlots h
    · exact .closeWindow h

theorem Engine.Canon.reimprinted {t img now} (h : e.Canon) : (reimprinted t img now e).Canon := by
  refine .ite h ?_
  split
  · exact h
  · exact .ite h (.ite (.retireAll (.finishRepair h)) (.update h))

theorem Engine.Canon.fence {now field} (h : e.Canon) : (e.fence now field).Canon := by
  refine .ite h ?_
  dsimp only
  split
  · exact .modPart (.pausePart (.abandonStep (.event (.modField h))))
  · exact .event (.modField h)

theorem Engine.Canon.siteDark {t now} (h : e.Canon) : (siteDark t now e).Canon := by
  refine .ite h ?_
  extract_lets _ _ _ e1
  have h1 : e1.Canon := by
    unfold e1
    split
    · exact .takeOut (.siteEvent h)
    · exact .ite (.failSpare (.siteEvent h)) (.setSite (.siteEvent h))
    · exact .ite (.modPart (.setSite (.siteEvent h))) (.setSite (.siteEvent h))
    · exact .setSite (.siteEvent h)
  exact .ite h (.ite (.fence h1) h1)

/-! ### The fabric -/

theorem Engine.Canon.proxyAnswer {t q requester} (h : e.Canon) : (e.proxyAnswer t q requester).Canon := .update h
theorem Engine.Canon.epochDrop {now j} (h : e.Canon) : (e.epochDrop now j).Canon := .stepFault (.siteEvent h)

theorem Engine.Canon.accepted {j} (h : e.Canon) : (e.accepted j).Canon := by
  unfold Engine.accepted
  split
  · exact .modTile (fun _ k => .update k) h
  · exact .modTile (fun _ k => .update k) h
  · exact h

theorem Engine.Canon.arrive {now j} (h : e.Canon) : (e.arrive now j).Canon := by
  unfold Engine.arrive
  refine .ite (.modDeck h) ?_
  split
  · exact .proxyAnswer h
  · exact .ite (.modDeck h) (.ite (.accepted h) (.ite (.modDeck h) (.epochDrop h)))

theorem Engine.Canon.correctedAt {routers} (h : e.Canon) : (e.correctedAt routers).Canon :=
  .foldl (fun _ _ h1 => .modTile (fun _ k => .update k) h1) h

theorem Engine.Canon.packetArrival {j corrected uncorr now} (h : e.Canon) : (packetArrival j corrected uncorr now e).Canon := by
  unfold Machine.packetArrival
  split
  · exact h
  · exact .ite h (.ite (.stepFault (.correctedAt (.update h))) (.arrive (.correctedAt (.update h))))

theorem Engine.Canon.foldCombine {router i j now} (h : e.Canon) : (foldCombine router i j now e).Canon := by
  unfold Machine.foldCombine
  split
  · split
    · exact .ite h (.ite (.update h) (.modDeck h))
    · exact h
  · exact h

theorem Engine.Canon.raiseBank {now t b c detail blame} (h : e.Canon) : (e.raiseBank now t b c detail blame).Canon := by
  unfold Engine.raiseBank
  split
  · exact .raise h
  · exact .raise h

theorem Engine.Canon.foldReceive {t now} (h : e.Canon) : (foldReceive t now e).Canon := by
  unfold Machine.foldReceive
  split
  · exact h
  · extract_lets _ e1
    have h1 : e1.Canon := .modTile (fun _ k => .update (Tile.Canon.ite (.count k) k)) h
    exact .ite (.raiseBank h1) (.ite (.raiseBank h1) (.modTile (fun _ k => .update (Tile.Canon.addAll k)) h1))

theorem Engine.Canon.hemReserve {t deck zarog flits now} (h : e.Canon) : (hemReserve t deck zarog flits now e).Canon := by
  unfold Machine.hemReserve
  split
  · exact h
  · exact .ite (.modTile (fun _ k => .update k) (.modDeck h)) (.modDeck h)

theorem Engine.Canon.hemReturn {t now} (h : e.Canon) : (hemReturn t now e).Canon := by
  unfold Machine.hemReturn
  split
  · exact h
  · exact .ite h (.modTile (fun _ k => .update k) (.foldl (fun _ _ h1 => .modDeck h1) h))

theorem Engine.Canon.xstopDisabled {field cluster selfTest now} (h : e.Canon) : (xstopDisabled field cluster selfTest now e).Canon := by
  refine .ite h ?_
  extract_lets _ e1
  have h1 : e1.Canon := by
    unfold e1
    split
    · exact .ite (.update h) (.stepFault (.update h))
    · exact .update h
  exact .disableStops h1

theorem Engine.Canon.laneDisabled {lane} (h : e.Canon) : (laneDisabled lane e).Canon := .foldl (fun _ _ h1 => .modDeck h1) h

theorem Engine.Canon.proxyRead {t q requester} (h : e.Canon) : (proxyRead t q requester e).Canon := by
  unfold Machine.proxyRead
  split
  · exact .proxyAnswer h
  · exact h
  · exact .modDeck h

theorem Engine.Canon.chainPageStep {member j} (h : e.Canon) : (chainPageStep member j e).Canon := by
  unfold Machine.chainPageStep
  extract_lets e1
  have h1 : e1.Canon := by
    unfold e1
    split
    · exact h
    · split
      · exact .ite (.update h) h
      · exact h
  split
  · exact h1
  · refine .ite h1 ?_
    dsimp only
    refine .ite ?_ (.update h1)
    split
    · exact .modTile (fun _ k => .update k) (.update h1)
    · exact .update h1

end Sys2Proof.Machine
end

section
/-!
PROOFS. Canonical byte stores: Zarog ports, acceptance, power, maintenance, snapshots, and every command that a schedule table may hold.
-/
namespace Sys2Proof.Machine

open Sys2Proof.Safety

variable {e e' : Engine} {ti : Tile}

/-! ### Zarog ports -/

theorem Engine.Canon.zstate {now z s} (h : e.Canon) : (e.zstate now z s).Canon := .modZport h
theorem Engine.Canon.zportEvent {now z code} (h : e.Canon) : (e.zportEvent now z code).Canon := .event h

theorem Engine.Canon.leaveUp {now z s reason} (h : e.Canon) : (e.leaveUp now z s reason).Canon :=
  .zportEvent (.foldl (fun _ _ h1 => .faultOf h1) (.modZport h))

theorem Engine.Canon.zmove {now z s reason} (h : e.Canon) : (e.zmove now z s reason).Canon := .ite (.leaveUp h) (.modZport (.zstate h))

theorem Engine.Canon.zbackoff {now z reason} (h : e.Canon) : (e.zbackoff now z reason).Canon :=
  .ite (.zportEvent (.modZport (.zstate (.modZport h)))) (.modZport (.zstate (.modZport h)))

theorem Engine.Canon.zaligned {z partner pport now} (h : e.Canon) : (zaligned z partner pport now e).Canon :=
  .ite (.modZport (.zstate h)) (.modZport (.zstate h))

theorem Engine.Canon.credited {z rtt now} (h : e.Canon) : (credited z rtt now e).Canon := by
  unfold Machine.credited
  exact .announceParts (.sendPace (.modZport (.zstate h)))

theorem Engine.Canon.zcodeword {z cw now} (h : e.Canon) : (zcodeword z cw now e).Canon := by
  unfold Machine.zcodeword
  extract_lets e1 _ e2
  have h1 : e1.Canon := .modZport h
  have h2 : e2.Canon := .modZport h1
  exact .ite (.sendLink (.modZport h1)) (.ite h1 (.ite (.sendLink h2) h2))

theorem Engine.Canon.zreplay {z cwseq now} (h : e.Canon) : (zreplay z cwseq now e).Canon := .ite (.send (.modZport h)) h
theorem Engine.Canon.zdiscard {z p} (h : e.Canon) : (e.zdiscard z p).Canon := .owe (.modZport h)

theorem Engine.Canon.zlocal {now z p} (h : e.Canon) : (e.zlocal now z p).Canon := by
  unfold Engine.zlocal
  split
  · split
    · exact .zdiscard h
    · split
      · next ht =>
        have h1 := h.takeHem _ ht
        exact .owe (.update h1)
      · exact h
  · exact .owe (.update h)
  · split
    · next ht => exact .owe (.takeFrame (h.takeHem _ ht))
    · exact h
  · exact .owe h

theorem Engine.Canon.zpacket {z p now} (h : e.Canon) : (zpacket z p now e).Canon := by
  unfold Machine.zpacket
  refine .ite (.zdiscard h) (.ite (.leaveUp (.zdiscard h)) (.ite (.zlocal h) (.ite (.zdiscard h) ?_)))
  split
  · exact .zdiscard h
  · exact .ite h (.zput h)

theorem Engine.Canon.connectorFault {p now} (h : e.Canon) : (connectorFault p now e).Canon := by
  unfold Machine.connectorFault
  split
  · exact .linkDown (.modHport h)
  · exact .ite (.leaveUp (.modZport h)) (.modZport h)

/-! ### What pair commands share -/

theorem Engine.Canon.modPair {f} (h : e.Canon) : (e.modPair f).Canon := .update h
theorem Engine.Canon.releaseStep {p f} (h : e.Canon) : (e.releaseStep p f).Canon := .foldl (fun _ _ h1 => .putPacket h1) (.modPart h)

theorem Engine.Canon.redoDrawn {p} (h : e.Canon) : (e.redoDrawn p).Canon := by
  unfold Engine.redoDrawn
  split
  · exact .ite (.haltStep h) h
  · exact h

theorem Engine.Canon.takeover {now} (h : e.Canon) : (e.takeover now).Canon :=
  .foldl (fun _ _ h1 => .eventIn (.redoDrawn (.modPart h1))) (.modPair h)

theorem Engine.Canon.orphan {now} (h : e.Canon) : (e.orphan now).Canon := .supEvent (.foldl (fun _ _ h1 => .modPart h1) h)

theorem Engine.Canon.tryHandover {now} (h : e.Canon) : (e.tryHandover now).Canon :=
  .ite (.foldl (fun _ _ h1 => .pairMsg (.modPart h1)) (.modPair h)) h

theorem Engine.Canon.unpair (h : e.Canon) : (e.unpair).Canon :=
  .update (Engine.Canon.foldl (fun _ _ h1 => .modPart (.redoDrawn (.releaseStep h1))) h)

/-! ### Acceptance -/

theorem Engine.Canon.watchEntry {now p batch qs w n} (h : e.Canon) : (e.watchEntry now p batch qs w n).1.Canon := by
  unfold Engine.watchEntry
  extract_lets _ _ _ _ _ e1 e2
  have h2 : e2.Canon := .ite (.partEvent (.modPart h)) (.modPart h)
  split
  · exact h
  · exact h2

theorem Engine.Canon.watch {now p batch qs} (h : e.Canon) : (e.watch now p batch qs).1.Canon :=
  List.foldlRecOn (motive := fun a : Engine × Watched => a.1.Canon) _ _ h (fun _ h1 _ _ => h1.watchEntry)

theorem Engine.Canon.stepPacket {o p start a} (h : e.Canon) : (e.stepPacket o p start a).Canon := by
  unfold Engine.stepPacket
  split
  · exact .putPacket (.modReq h)
  · exact .modReq h
  · exact .modPart (.modReq h)

theorem Engine.Canon.keep {g a} (h : e.Canon) : (e.keep g a).Canon := .modReq (.advance (.foldl (fun _ _ h1 => .copyEntry h1) h))
theorem Engine.Canon.flushUpdates {q} (h : e.Canon) : (e.flushUpdates q).Canon := .modReq h
theorem Engine.Canon.poisonEvents {p now l} (h : e.Canon) : (e.poisonEvents p now l).Canon := .foldl (fun _ _ h1 => .partEvent h1) h

theorem Engine.Canon.settle {o p start g a} (h : e.Canon) : (e.settle o p start g a).Canon :=
  .ite (.stepPacket (.modReq h)) (.ite (.keep h) (.stepPacket (.cond (fun _ h1 => .flushUpdates h1) (.modReq (.keep h)))))

theorem Engine.Canon.trainReqs {p start batch g qs} (h : e.Canon) : (e.trainReqs p start batch g qs).Canon :=
  .foldl (fun _ _ h1 => .ite (.flushUpdates (.modReq (.keep h1))) (.keep h1)) (.modPart h)

theorem Memory.wf_writeNats {l : List Nat} {a v : Nat → Memory → Nat} {n : Nat} {m : Memory} (hm : m.wf = true) :
    (l.foldl (fun m j => writeNat m (a j m) (v j m) n) m).wf = true := by
  induction l generalizing m with
  | nil => exact hm
  | cons j l ih => exact ih (Memory.wf_writeNat _ _ _ _ hm)

theorem Engine.Canon.stepCounters {p} (h : e.Canon) : (e.stepCounters p).Canon :=
  .foldl (fun _ _ h1 => .modDeck (.modTile (fun _ k => .mk (Memory.wf_writeNats k.sp) k.kv k.nv) h1)) h

theorem Engine.Canon.replicate {now o p s half} (h : e.Canon) : (e.replicate now o p s half).Canon := .ite (.twin (.modPart h)) h
theorem Engine.Canon.sendPaths {now p l} (h : e.Canon) : (e.sendPaths now p l).Canon := .foldl (fun _ _ h1 => .spanData h1) h

theorem Engine.Canon.endStep {p now start} (h : e.Canon) : (e.endStep p now start).Canon :=
  .tryHandover (.cond (fun _ h1 => .pausePart h1) (.modPart (.stepCounters (.recordLate h))))

theorem Engine.Canon.acceptServing {p now s ds} (h : e.Canon) : (e.acceptServing p now s ds).Canon := by
  unfold Engine.acceptServing
  refine .ite (.endStep (.replicate (.pausePart (.sendPaths (.poisonEvents (.watch h)))))) ?_
  refine .endStep ?_
  refine .replicate ?_
  refine .sendPaths ?_
  refine .foldl (fun _ _ h1 => ?_) (.poisonEvents (.watch h))
  refine .ite (.stepPacket (.modReq h1)) ?_
  split
  · exact .settle h1
  · exact h1

theorem Engine.Canon.acceptTraining {p now s} (h : e.Canon) : (e.acceptTraining p now s).Canon := by
  unfold Engine.acceptTraining
  exact .ite (.endStep (.replicate (.pausePart (.ite (.watch h) (.modPart (.watch h)))))) (.endStep (.replicate (.foldl (fun _ _ h1 => .pauseReq h1)
    (.trainReqs (.ite (.watch h) (.modPart (.watch h)))))))

theorem Engine.Canon.acceptStep {p now s ds} (h : e.Canon) : (e.acceptStep p now s ds).Canon := .ite (.acceptTraining h) (.acceptServing h)

theorem Engine.Canon.compareDigest {p now s ds twin} (h : e.Canon) : (e.compareDigest p now s ds twin).Canon :=
  .ite (.acceptStep h) (.ite (.modPart (.haltStep h)) (.abandonStep (.partEvent h)))

theorem Engine.Canon.afterDraw {p now s ds} (h : e.Canon) : (e.afterDraw p now s ds).Canon := by
  refine .ite (.acceptStep h) ?_
  extract_lets e1
  have h1 : e1.Canon := .ite h (.pairMsg (.modPart h))
  split
  · exact h1
  · exact .compareDigest h1

/-! ### Power, throttling and recovery -/

theorem Engine.Canon.powerEvent {now own deck field code arg0 arg1} (h : e.Canon) : (e.powerEvent now own deck field code arg0 arg1).Canon :=
  .eventIn h

theorem Engine.Canon.throttled {now cause e1} (h : e.Canon) : (e.throttled now cause e1).Canon :=
  .foldl (fun _ _ h2 => .ite h2 (.powerEvent h2)) h

theorem Engine.Canon.dropStep {p} (h : e.Canon) : (e.dropStep p).Canon := .ite h (.modPart (.clearStep (.foldl (fun _ _ h1 => .modReq h1) h)))
theorem Engine.Canon.dropSteps (h : e.Canon) : (e.dropSteps).Canon := .foldl (fun _ _ h1 => .dropStep h1) h
theorem Engine.Canon.stopPart {now p} (h : e.Canon) : (e.stopPart now p).Canon := .pausePart (.dropStep h)
theorem Engine.Canon.commitWhere {now f} (h : e.Canon) : (e.commitWhere now f).Canon := .update h
theorem Engine.Canon.commitAll {now} (h : e.Canon) : (e.commitAll now).Canon := .commitWhere h
theorem Tile.Canon.bare (k : ti.Canon) : (ti.bare).Canon := .mk rfl rfl k.nv

theorem Engine.Canon.bareTiles {f} (h : e.Canon) : (e.bareTiles f).Canon :=
  TilesCanon.foldl (fun _ _ hm k => .ite (.mset hm (.bare k)) hm) h h

theorem Engine.Canon.dropFns {f} (h : e.Canon) : (e.dropFns f).Canon := .update h
theorem Engine.Canon.dropZports {now f} (h : e.Canon) : (e.dropZports now f).Canon := .foldl (fun _ _ h1 => .modZport (.zmove h1)) h
theorem Engine.Canon.dropRepairs {f} (h : e.Canon) : (e.dropRepairs f).Canon := .foldl (fun _ _ h1 => .dropRepair h1) h
theorem Engine.Canon.dropGraphs {f} (h : e.Canon) : (e.dropGraphs f).Canon := .foldl (fun _ _ h1 => .modGraph h1) h
theorem Engine.Canon.dropTiers {f} (h : e.Canon) : (e.dropTiers f).Canon := .update h
theorem Engine.Canon.loseSnaps (h : e.Canon) : (e.loseSnaps).Canon := .update h

theorem Engine.Canon.unpowered {now} (h : e.Canon) : (e.unpowered now).Canon := by
  unfold Engine.unpowered
  extract_lets e1 e2 e3 e4
  have h1 : e1.Canon := .dropRepairs (.dropZports (.loseSnaps (.dropSteps h)))
  have h2 : e2.Canon := .dropTiers (.bareTiles h1)
  have h3 : e3.Canon := .foldl (fun _ _ h3 => .modDeck h3) h2
  have h4 : e4.Canon := .foldl (fun _ _ h4 => .modHport h4) h3
  clear_value e4
  exact .update h4

theorem Engine.Canon.endSession {now} (h : e.Canon) : (e.endSession now).Canon := .abortSession h

theorem Engine.Canon.enterOff {now} (h : e.Canon) : (e.enterOff now).Canon := by
  unfold Engine.enterOff
  extract_lets _ e1
  have h1 : e1.Canon := .unpowered (.endSession (.update h))
  clear_value e1
  exact .update h1

theorem Engine.Canon.recoverReqs {now f} (h : e.Canon) : (e.recoverReqs now f).Canon :=
  .foldl (fun _ _ h1 => .putPacket h1) (.foldl (fun _ _ h1 => .modReq h1) (.update h))

theorem Engine.Canon.recoverParts {f} (h : e.Canon) : (e.recoverParts f).Canon := .foldl (fun _ _ h1 => .modPart h1) h
theorem Engine.Canon.recover {now} (h : e.Canon) : (e.recover now).Canon := .recoverReqs (.recoverParts (.dropTiers (.update h)))
theorem Engine.Canon.setChair {c} (h : e.Canon) : (e.setChair c).Canon := .modSup h

theorem Engine.Canon.passChair {now d cause} (h : e.Canon) : (e.passChair now d cause).Canon :=
  .ite h (.ite (.supEvent (.setChair h)) (.setChair h))

theorem Engine.Canon.enterSafeHold {now cause} (h : e.Canon) : (e.enterSafeHold now cause).Canon :=
  .ite h (.foldl (fun _ _ h1 => .pairMsg h1) (.supEvent (.modSup (.commitAll (.dropSteps h)))))

theorem Engine.Canon.losePart {now p} (h : e.Canon) : (e.losePart now p).Canon :=
  .modPart (.zeroLeft (.unbind (.ite (.foldl (fun _ _ h1 => .doneReq h1) (.dropStep h)) (.pairMsg (.dropStep h)))))

theorem Engine.Canon.latchDeck {now d} (h : e.Canon) : (e.latchDeck now d).Canon := by
  unfold Engine.latchDeck
  extract_lets _ _ e1 _ e2 e3 e4 _ e5 _ _ e6
  have h1 : e1.Canon := .commitWhere (.foldl (fun _ _ h1 => .dropStep h1) h)
  have h2 : e2.Canon := .foldl (fun _ _ h2 => .losePart h2) (.update h1)
  have h3 : e3.Canon := .ite (.breakSession h2) h2
  have h4 : e4.Canon := .bareTiles (.dropTiers (.dropGraphs (.dropRepairs h3)))
  have h5 : e5.Canon := .foldl (fun _ _ h5 => .modHport (.linkDown h5)) (.dropZports h4)
  have h6 : e6.Canon := .modDeck (.passChair (.dropFns h5))
  exact .ite (.enterOff h6) h6

/-! ### Power commands -/

theorem Engine.Canon.modPower {f} (h : e.Canon) : (e.modPower f).Canon := .update h
theorem Engine.Canon.pwrReplies {now} (h : e.Canon) : (e.pwrReplies now).Canon := .modPower (.foldl (fun _ _ h1 => .reply h1) h)

theorem Engine.Canon.runPwrState {target hd acc now} (h : e.Canon) : (runPwrState target hd acc now e).Canon := by
  unfold Machine.runPwrState
  extract_lets _ _ _ _ e1
  have h1 : e1.Canon := .modPower (.modPower (.accept h))
  exact .ite (.reply h) (.ite (.modPower (.accept h)) (.ite (.pwrReplies h1) h1))

theorem Engine.Canon.runPwrCap {watts hd acc now} (h : e.Canon) : (runPwrCap watts hd acc now e).Canon :=
  .reply (.foldl (fun _ _ h1 => .modDeck h1) h)

theorem Engine.Canon.runThermQuery {addr hd acc now} (h : e.Canon) : (runThermQuery addr hd acc now e).Canon := .okReply (.dma h)
theorem Engine.Canon.runThrottleQuery {addr hd acc now} (h : e.Canon) : (runThrottleQuery addr hd acc now e).Canon := .okReply (.dma (.update h))

/-! ### Rinse, refresh and patrol -/

theorem Engine.Canon.rinsePass {t corr bad now} (h : e.Canon) : (rinsePass t corr bad now e).Canon :=
  .ite h (.foldl (fun _ _ h1 => .foundBad h1) (.modTile (fun _ k => .update (Tile.Canon.foldl (fun _ _ h2 => .corrected h2) k)) h))

theorem Engine.Canon.bankGuarded {t b now} (h : e.Canon) : (bankGuarded t b now e).Canon := .ite h (.siteEvent (.modTile (fun _ k => .modBank k) h))

theorem Engine.Canon.guardWindowEnd {t} (h : e.Canon) : (guardWindowEnd t e).Canon :=
  .ite h (.modTile (fun _ k => .foldl (fun _ _ h2 => .modBank h2) (.update k)) h)

theorem Engine.Canon.kvRinse {t bad now} (h : e.Canon) : (kvRinse t bad now e).Canon := by
  unfold Machine.kvRinse
  extract_lets e1
  have h1 : e1.Canon := .modTile (fun _ k => .foldl (fun _ _ h2 => .kvUncorr h2) k) h
  exact .ite (.resolveTile h1) h1

theorem Engine.Canon.dramRefresh {field now} (h : e.Canon) : (dramRefresh field now e).Canon := .ite h (.modField h)

theorem Engine.Canon.nvPatrol {t bad near now} (h : e.Canon) : (nvPatrol t bad near now e).Canon :=
  .foldl (fun _ _ h1 => .siteEvent (.modTile (fun _ k => .update k) h1)) h

/-! ### Maintenance commands -/

theorem Engine.Canon.runDarnRead {field addr hd acc now} (h : e.Canon) : (runDarnRead field addr hd acc now e).Canon := .okReply (.dma h)

theorem Engine.Canon.swapSite {now t v} (h : e.Canon) : (e.swapSite now t v).Canon := by
  unfold Engine.swapSite
  split
  · exact .setSite (.noSpare h)
  · exact .event (.setSite (.setSite (.modField (.moveGraphs (.planSlices (.checkGroups h))))))

theorem Engine.Canon.runDarnRemap {field site hd acc now} (h : e.Canon) : (runDarnRemap field site hd acc now e).Canon := by
  unfold Machine.runDarnRemap
  dsimp only
  split
  · exact .update (Engine.Canon.accept h)
  · exact .okReply (.swapSite (.accept h))
  · exact .update (Engine.Canon.accept h)
  · exact .reply h

theorem Engine.Canon.runRinseSet {deck v hd acc now} (h : e.Canon) : (runRinseSet deck v hd acc now e).Canon := .okReply (.modDeck h)
theorem Engine.Canon.testSpare {now t} (h : e.Canon) : (e.testSpare now t).Canon := .ite (.update h) (.event (.setSite (.update h)))

theorem Engine.Canon.runSelfTest {scope deck hd acc now} (h : e.Canon) : (runSelfTest scope deck hd acc now e).Canon :=
  .okReply (.foldl (fun _ _ h1 => .testSpare h1) (.accept h))

theorem Tile.Canon.cleared (k : ti.Canon) : (ti.cleared).Canon := by
  have k1 : ((ti.halt.zero 0 reservedBase).setStrikes []).Canon := .setStrikes (.zero (.halt k))
  exact k1

theorem Engine.Canon.replaceGraphs {t} (h : e.Canon) : (e.replaceGraphs t).Canon := by
  refine .foldl (fun _ _ h1 => ?_) h
  split
  · exact .installOn h1
  · exact h1

theorem Engine.Canon.resetTile {now hd acc t} (h : e.Canon) : (e.resetTile now hd acc t).Canon := by
  unfold Engine.resetTile
  extract_lets tested _ cleared
  have hc : cleared.Canon := .modTile (fun _ k => .cleared k) h
  have ht {st} : (tested e st).Canon := by
    unfold tested
    exact .okReply (.ite (.setSite (.freeCtr hc)) (.event (.setSite (.freeCtr hc))))
  split
  · exact .update (Engine.Canon.accept h)
  · exact .ite (.okReply (.replaceGraphs (.freeCtr hc))) (.okReply (.swapSite (.freeCtr h)))
  · exact ht
  · exact ht
  · exact ht
  · exact .reply h

theorem Engine.Canon.failSnaps {now} (h : e.Canon) : (e.failSnaps now).Canon := .loseSnaps (.foldl (fun _ _ h1 => .reply h1) h)

theorem Engine.Canon.runReset {scope deck field site hd acc now} (h : e.Canon) : (runReset scope deck field site hd acc now e).Canon := by
  unfold Machine.runReset
  split
  · exact .resetTile h
  · exact .ite (.reply h) (.update (Engine.Canon.okReply (.failSnaps h)))
  · exact .update (Engine.Canon.okReply (.failSnaps h))

theorem Engine.Canon.runJournalRead {first addr hd acc now} (h : e.Canon) : (runJournalRead first addr hd acc now e).Canon := .okReply (.dma h)

/-! ### Monitor commands -/

theorem Engine.Canon.runMonRead {sel deck part site first count addr hd acc now} (h : e.Canon) : (runMonRead sel deck part site first count addr hd acc now e).Canon :=
  .okReply (.ite (.modDeck (.ite h (.dma h))) (.ite (.modDeck (.ite h (.dma h))) (.ite h (.dma h))))

theorem Engine.Canon.runNwRead {first count addr hd acc now} (h : e.Canon) : (runNwRead first count addr hd acc now e).Canon := .okReply (.dma h)
theorem Engine.Canon.runNwWrite {entry v hd acc now} (h : e.Canon) : (runNwWrite entry v hd acc now e).Canon := .okReply (.modPart h)
theorem Engine.Canon.runHistRead {mon addr hd acc now} (h : e.Canon) : (runHistRead mon addr hd acc now e).Canon := .okReply (.dma h)
theorem Engine.Canon.runHistClear {mon hd acc now} (h : e.Canon) : (runHistClear mon hd acc now e).Canon := .okReply (.clearMonitors h)

theorem Engine.Canon.runTenantQuery {t addr hd acc now} (h : e.Canon) : (runTenantQuery t addr hd acc now e).Canon :=
  .ite (.okReply (.dma h)) (.reply h)

/-! ### Snapshots -/

theorem Engine.Canon.schedSnap {now hd acc x c} (h : e.Canon) : (e.schedSnap now hd acc x c).Canon :=
  .ite (.reply h) (.update (Engine.Canon.cond (fun _ h1 => .hold h1) (.sendPrepare (.update (Engine.Canon.accept h)))))

theorem Engine.Canon.runSnapshot {mask addr bytes hd acc now} (h : e.Canon) : (runSnapshot mask addr bytes hd acc now e).Canon := .schedSnap h

theorem Engine.Canon.runRestore {mask addr data hd acc now} (h : e.Canon) : (runRestore mask addr data hd acc now e).Canon := by
  unfold Machine.runRestore
  split
  · exact .reply h
  · exact .schedSnap h

theorem Engine.Canon.dropSnap {x} (h : e.Canon) : (e.dropSnap x).Canon := .dropOwn (.update h)
theorem Engine.Canon.keepCaptured {x} (h : e.Canon) : (e.keepCaptured x).Canon := .update h

theorem Engine.Canon.snapshotCapture {now} (h : e.Canon) : (snapshotCapture now e).Canon := by
  unfold Machine.snapshotCapture
  split
  · exact h
  · exact .ite (.reply (.dropSnap h)) (.foldl (fun _ _ h1 => .modPart h1) (.keepCaptured (.dropOwn (.update h))))

theorem Engine.Canon.captureDone (h : e.Canon) : (captureDone e).Canon := by
  unfold Machine.captureDone
  split
  · exact h
  · exact .reply (.foldl (fun _ _ h1 => .modPart h1) (.dropSnap (.dma (.dma h))))

theorem Engine.Canon.restorePart {p l} (h : e.Canon) : (e.restorePart p l).Canon :=
  .ite (.foldl (fun _ _ h1 => .modTenant h1) (.modPart h)) (.setAdapt (.foldl (fun _ _ h1 => .modTenant h1) (.modPart h)))

theorem Engine.Canon.writeMaps {x l maps} (h : e.Canon) : (e.writeMaps x l maps).Canon := by
  refine .foldl (fun _ _ h1 => ?_) h
  split
  · exact .dma h1
  · exact h1

theorem Engine.Canon.placePages {q g l} (h : e.Canon) : Gives Engine.Canon (e.placePages q g l) := by
  refine .map (fun _ h1 => .foldl (fun _ _ h2 => ?_) h1) h.needRows
  split
  · exact .ite (.setKv (.setKvBytes h2)) (.foldl (fun _ _ h3 => .setKv h3) (.setKv (.setKvBytes h2)))
  · exact h2

theorem Engine.Canon.restoreReq {p q g old rec by' l} (h : e.Canon) : Gives Engine.Canon (e.restoreReq p q g old rec by' l) :=
  .ite (.some (.modReq h)) (Engine.Canon.modReq h).placePages

theorem Engine.Canon.restoreReqs {p id tick l} (h : e.Canon) : Gives (fun r => r.1.Canon) (e.restoreReqs p id tick l) :=
  .map (fun _ h1 => h1) (.foldlM (P := fun a : Engine × List Nat × List (List Byte) => a.1.Canon) (fun _ _ h1 => .map (fun _ h2 => h2) h1.restoreReq) h)

theorem Engine.Canon.restoreAll {x l} (h : e.Canon) : Gives (fun r => r.1.Canon) (e.restoreAll x l) :=
  .foldlM (fun _ _ h1 => .map (fun _ h2 => h2) h1.restoreReqs) (Engine.Canon.foldl (fun _ _ h1 => .restorePart h1) (.dropSnap h))

theorem Engine.Canon.applyRestore {x} (h : e.Canon) : (e.applyRestore x).Canon := by
  unfold Engine.applyRestore
  extract_lets _ bad
  have hb {s d} : (bad s d).Canon := .reply (.dropSnap h)
  split
  · exact hb
  · split
    · exact hb
    · refine .ite hb ?_
      split
      · exact hb
      · next hr => exact .ite hb (.reply (.writeMaps (h.restoreAll _ hr)))

theorem Engine.Canon.restoreApply {now} (h : e.Canon) : (restoreApply now e).Canon := by
  unfold Machine.restoreApply
  split
  · exact h
  · exact .applyRestore h

/-! ### Zarog and pace commands -/

theorem Engine.Canon.runZportCtl {z action hd acc now} (h : e.Canon) : (runZportCtl z action hd acc now e).Canon := by
  unfold Machine.runZportCtl
  refine .ite (.okReply (.ite h (.zmove h))) ?_
  refine .ite (.reply h) ?_
  refine .okReply ?_
  split
  · exact .modZport (.zstate h)
  · exact .modZport (.zstate h)
  · exact h
  · exact .zmove h
  · exact h

theorem Engine.Canon.runZportQuery {z addr hd acc now} (h : e.Canon) : (runZportQuery z addr hd acc now e).Canon := .okReply (.dma h)

theorem Engine.Canon.runPaceSrc {src port value hd acc now} (h : e.Canon) : (runPaceSrc src port value hd acc now e).Canon := by
  unfold Machine.runPaceSrc
  dsimp only
  split
  · exact .reply h
  · exact .reply (.update h)

theorem Engine.Canon.runPairCfg {mode mask licence hd acc now} (h : e.Canon) : (runPairCfg mode mask licence hd acc now e).Canon := by
  refine .ite (.okReply (.unpair h)) ?_
  split
  · exact .reply h
  · exact .ite (.reply h) (.ite (.reply h) (.modPair (.accept (.unpair h))))

theorem Engine.Canon.runPairTakeover {hd acc now} (h : e.Canon) : (runPairTakeover hd acc now e).Canon :=
  .ite (.reply h) (.ite (.okReply (.tryHandover (.modPair h))) (.okReply (.takeover h)))

theorem Engine.Canon.runZrouteSet {peer mask hd acc now} (h : e.Canon) : (runZrouteSet peer mask hd acc now e).Canon :=
  .ite (.ite (.okReply (.update h)) (.reply h)) (.ite (.reply h) (.okReply (.announceParts (.update h))))

/-! ### Commands held in a schedule table -/

theorem Engine.Canon.unhold {d x} (h : e.Canon) : (e.unhold d x).Canon := by
  unfold Engine.unhold
  split
  · exact .modTenant (.modDeck h)
  · exact .modDeck h

theorem Engine.Canon.withdrawAct {now p a} (h : e.Canon) : Gives Engine.Canon (e.withdrawAct now p a) := by
  unfold Engine.withdrawAct
  split
  · exact .some h
  · exact .ite .none (.some (.decideAct h))

theorem Engine.Canon.withdrawOwn {now x} (h : e.Canon) : Gives Engine.Canon (e.withdrawOwn now x) := by
  unfold Engine.withdrawOwn
  split
  · exact .map (fun _ h1 => .dropSnap h1) h.withdrawAct
  · split
    · exact .none
    · split
      · exact .none
      · exact .ite .none (.some (.dropOwn (.modPart (.epochMsg h))))

theorem Engine.Canon.runSchedWithdraw {tag hd acc now} (h : e.Canon) : (runSchedWithdraw tag hd acc now e).Canon := by
  unfold Machine.runSchedWithdraw
  split
  · exact .reply h
  · split
    · exact .reply h
    · next hw =>
      refine .okReply (.reply (Gives.ite h.withdrawOwn (.map (fun _ h1 => ?_) h.withdrawAct) _ hw))
      exact .unhold h1

theorem Gives.run {f run} (hr : RunKeeps run) :
    Gives (fun r : (Engine → Form) × (Hdr → Bool → Nat → Engine → Engine) => RunKeeps r.2) (Option.some (f, run)) := .some hr

/-- Every host command that may be held keeps the byte stores canonical. -/
theorem RunKeeps.hostEffect {c} : Gives (fun r => RunKeeps r.2) (hostEffect c) := by
  unfold Machine.hostEffect
  split
  · exact .run fun _ _ _ _ h => .runSubmit h
  · exact .run .runQuery
  · exact .run .runUpdate
  · exact .run .runPause
  · exact .run .runResume
  · exact .run .runCancel
  · exact .run .runRelease
  · exact .run .runAppend
  · exact .run .runDraft
  · exact .run fun _ _ _ _ h => .runImgFit h
  · exact .run fun _ _ _ _ h => .runImgBegin h
  · exact .run (.inSession fun _ _ _ _ h => .runImgStream h)
  · exact .run (.inSession fun _ _ _ _ h => .runImgEnd h)
  · exact .run (.inSession fun _ _ _ _ h => .runImgAbort h)
  · exact .run fun _ _ _ _ h => RunKeeps.inSession (fun _ _ _ _ h => .runImgPatch h) _ _ _ _ h
  · exact .run fun _ _ _ _ h => .runTierLoad h
  · exact .run fun _ _ _ _ h => .runImgRelease h
  · exact .run fun _ _ _ _ h => .runImgQuery h
  · exact .run fun _ _ _ _ h => .runKeyEnrol h
  · exact .run fun _ _ _ _ h => .runBindFields h
  · exact .run fun _ _ _ _ h => .runBindImage h
  · exact .run fun _ _ _ _ h => .runTenantBind h
  · exact .run fun _ _ _ _ h => .runPartMode h
  · exact .run fun _ _ _ _ h => .runPartPause h
  · exact .run fun _ _ _ _ h => .runPartResume h
  · exact .run fun _ _ _ _ h => .runPartReset h
  · exact .run fun _ _ _ _ h => .runTenantSet h
  · exact .run fun _ _ _ _ h => .runHemSet h
  · exact .run fun _ _ _ _ h => .runKvReserve h
  · exact .run fun _ _ _ _ h => .runGraphLoad h
  · exact .run fun _ _ _ _ h => .runGraphUnload h
  · exact .run fun _ _ _ _ h => .runGraphQuery h
  · exact .run fun _ _ _ _ h => .runAdaptSave h
  · exact .run fun _ _ _ _ h => .runAdaptRestore h
  · exact .run fun _ _ _ _ h => .runMonRead h
  · exact .run fun _ _ _ _ h => .runNwRead h
  · exact .run fun _ _ _ _ h => .runNwWrite h
  · exact .run fun _ _ _ _ h => .runHistRead h
  · exact .run fun _ _ _ _ h => .runHistClear h
  · exact .run fun _ _ _ _ h => .runTenantQuery h
  · exact .run fun _ _ _ _ h => .runPwrState h
  · exact .run fun _ _ _ _ h => .runPwrCap h
  · exact .run fun _ _ _ _ h => .runThermQuery h
  · exact .run fun _ _ _ _ h => .runThrottleQuery h
  · exact .run fun _ _ _ _ h => .runDarnRead h
  · exact .run fun _ _ _ _ h => .runDarnRemap h
  · exact .run fun _ _ _ _ h => .runRinseSet h
  · exact .run fun _ _ _ _ h => .runSelfTest h
  · exact .run fun _ _ _ _ h => .runSnapshot h
  · exact .run fun _ _ _ _ h => .runRestore h
  · exact .run fun _ _ _ _ h => .runReset h
  · exact .run fun _ _ _ _ h => .runJournalRead h
  · exact .run fun _ _ _ _ h => .runZportCtl h
  · exact .run fun _ _ _ _ h => .runZportQuery h
  · exact .run fun _ _ _ _ h => .runPaceSrc h
  · exact .run fun _ _ _ _ h => .runPairCfg h
  · exact .run fun _ _ _ _ h => .runZrouteSet h
  · exact .run fun _ _ _ _ h => .runPairTakeover h
  · exact .none

theorem Engine.Canon.applyHeld {now d x wordBad headerBad} (h : e.Canon) : (e.applyHeld now d x wordBad headerBad).Canon := by
  unfold Engine.applyHeld
  refine .ite (.reply (.unhold h)) ?_
  split
  · split
    · exact .runSchedWithdraw (.unhold h)
    · exact .unhold h
  · next hx =>
    have hr := RunKeeps.hostEffect _ hx
    refine .ite (.reply (.unhold h)) ?_
    split
    · exact .ite (.perform hr (.unhold h)) (.reply (.windowEvent (.unhold h)))
    · exact .perform hr (.unhold h)

theorem Engine.Canon.scheduledApply {d i wordBad headerBad now} (h : e.Canon) : (scheduledApply d i wordBad headerBad now e).Canon := by
  unfold Machine.scheduledApply
  split
  · exact h
  · exact .ite (.applyHeld h) h

end Sys2Proof.Machine
end

section
/-!
PROOFS. Canonical byte stores: epochs, spills, messages, the pace unit, pairs, power events and temperatures.
-/
namespace Sys2Proof.Machine

open Sys2Proof.Safety

variable {e e' : Engine} {ti : Tile}

/-! ### Actions announced by tick -/

theorem Engine.Canon.holdForwarded {m fn packet c f now} (h : e.Canon) : (e.holdForwarded m fn packet c f now).Canon := .hold (.update h)

theorem Engine.Canon.stopPartStep {p now graphFault} (h : e.Canon) : (e.stopPartStep p now graphFault).Canon :=
  .ite (.abandonStep h) (.ite (.modPart h) (.pausePart h))

theorem Engine.Canon.epochPrepare {m now} (h : e.Canon) : (epochPrepare m now e).Canon := by
  unfold Machine.epochPrepare
  dsimp only
  split
  · exact .ite (.ite (.epochMsg (.modPart (.update h))) (.modPart (.update h))) (.ite (.epochMsg h) h)
  · exact .ite (.epochMsg h) h
  · exact .stopPartStep h
  · exact .modPart h
  · split
    · exact .ite (.epochMsg h) h
    · exact .ite (.epochMsg h) h
    · split
      · exact .ite (.epochMsg h) h
      · exact .ite (.ite (.epochMsg h) h) (.ite (.epochMsg (.holdForwarded h)) (.holdForwarded h))

theorem Engine.Canon.ackEpoch {now p c node ok} (h : e.Canon) : (e.ackEpoch now p c node ok).Canon :=
  .ite h (.ite (.abortEpoch h) (.ite (.modPart h) (.modPart (.epochMsg h))))

theorem Engine.Canon.setAct {d x a} (h : e.Canon) : (e.setAct d x a).Canon := .modDeck h
theorem Engine.Canon.abortHeld {now d x a node} (h : e.Canon) : (e.abortHeld now d x a node).Canon := .reply (.decideAct (.unhold h))
theorem Engine.Canon.abortSnap {now x a node} (h : e.Canon) : (e.abortSnap now x a node).Canon := .reply (.decideAct (.dropSnap h))

theorem Engine.Canon.ackAct {now p node id ok} (h : e.Canon) : (e.ackAct now p node id ok).Canon := by
  unfold Engine.ackAct
  split
  · split
    · exact h
    · exact .ite h (.ite (.abortHeld h) (.ite (.decideAct (.setAct h)) (.setAct h)))
  · split
    · exact h
    · split
      · exact h
      · exact .ite h (.ite (.abortSnap h) (.ite (.decideAct (.update h)) (.update h)))

theorem Engine.Canon.epochAck {p node epoch ok now} (h : e.Canon) : (epochAck p node epoch ok now e).Canon := by
  refine .ite (.ackAct h) ?_
  split
  · exact .ite (.ackEpoch h) h
  · exact h

theorem Engine.Canon.epochDeadline {p now} (h : e.Canon) : (epochDeadline p now e).Canon := by
  unfold Machine.epochDeadline
  extract_lets e1 e2
  have h1 : e1.Canon := by
    unfold e1
    split
    · exact h
    · exact .ite (.abortEpoch h) h
  have h2 : e2.Canon := .foldl (fun _ _ h2 => .abortHeld h2) h1
  refine .foldl (fun _ _ h3 => ?_) h2
  split
  · exact .ite (.abortSnap h3) h3
  · exact h3

theorem Engine.Canon.decisionResend {p now} (h : e.Canon) : (decisionResend p now e).Canon := by
  unfold Machine.decisionResend
  extract_lets e1 _ e2
  have h1 : e1.Canon := by
    unfold e1
    split
    · exact h
    · split
      · exact h
      · exact .ite h (.modPart (.epochMsg h))
  have h2 : e2.Canon := .foldl (fun _ _ h2 => .epochMsg h2) h1
  exact .modPart h2

theorem Engine.Canon.decideHeld {id commit} (h : e.Canon) : (e.decideHeld id commit).Canon := .foldl (fun _ _ h1 => .modDeck h1) h

theorem Engine.Canon.epochDecision {p epoch commit} (h : e.Canon) : (epochDecision p epoch commit e).Canon := by
  refine .ite (.decideHeld h) ?_
  split
  · exact h
  · exact .ite h (.modPart h)

/-! ### Zero-fills, spills and reserve caches -/

theorem Engine.Canon.zeroFillDone {t j} (h : e.Canon) : (zeroFillDone t j e).Canon := .ite (.modTile (fun _ k => .setUse (.zeroSlot k)) h) h

theorem Engine.Canon.keepStub {t q x row slot} (h : e.Canon) : Gives Engine.Canon (e.keepStub t q x row slot) :=
  .map (P := fun _ => True) (fun _ _ => .setKvBytes (.modTile (fun _ k => .setUse k) h)) fun _ _ => trivial

theorem Engine.Canon.spillPage {p t q row x} (h : e.Canon) : Gives (fun r => r.1.Canon) (e.spillPage p t q row x) := by
  unfold Engine.spillPage
  split
  · extract_lets e1
    have h1 : e1.Canon := .modPart (.dma h)
    exact .ite (.some h1) (.map (fun _ h2 => h2) h1.keepStub)
  · exact .none

theorem Engine.Canon.spendReserved {now t deck flits} (h : e.Canon) : Gives Engine.Canon (e.spendReserved now t deck flits) :=
  .ite (.some (.modTile (fun _ k => .update k) h)) .none

theorem Engine.Canon.spillUnit {p t v now} (h : e.Canon) : Gives Engine.Canon (e.spillUnit p t v now) :=
  .next fun _ => .bind h.spendReserved fun _ h1 => .map (P := fun a : Engine × List (Nat × Nat × Nat) => a.1.Canon)
    (fun _ h2 => .modTile (fun _ k => .update k) h2) (.foldlM (fun _ _ h2 => .map (fun _ h3 => h3) h2.spillPage) h1)

theorem Engine.Canon.spillSome {p t now n} (h : e.Canon) : (e.spillSome p t now n).Canon := by
  induction n generalizing e with
  | zero => exact h
  | succ n ih =>
    unfold Engine.spillSome
    refine .ite h ?_
    split
    · exact h
    · split
      · next hu => exact ih (h.spillUnit _ hu)
      · exact h

theorem Engine.Canon.replaceUnit {t g x} (h : e.Canon) : (e.replaceUnit t g x).Canon := by
  refine .foldl (fun _ _ h1 => ?_) h
  extract_lets e2
  have h2 : e2.Canon := by
    unfold e2
    split
    · exact .setKv h1
    · exact h1
  exact .modTile (fun _ k => .setUse k) h2

theorem Engine.Canon.kvSpill {t stage now} (h : e.Canon) : (kvSpill t stage now e).Canon := by
  unfold Machine.kvSpill
  split
  · exact h
  · dsimp only
    split
    · exact .ite h (.spillSome h)
    · exact .ite (.modTile (fun _ k => .update k) (.foldl (fun _ _ h1 => .replaceUnit h1) h)) h

theorem Engine.Canon.listFetched {p t} (h : e.Canon) : (e.listFetched p t).Canon := by
  unfold Engine.listFetched
  split
  · exact .ite (.toRole h) h
  · exact h

theorem Engine.Canon.kvFetch {t page slot data now} (h : e.Canon) : (kvFetch t page slot data now e).Canon := by
  unfold Machine.kvFetch
  split
  · exact h
  · dsimp only
    split
    · exact h
    · refine .ite h (.ite (.windowEvent h) ?_)
      split
      · exact h
      · next ht =>
        have h1 := h.takeHem _ ht
        exact .listFetched (.setKvBytes (.modTile (fun _ k => .setUse k) h1))

theorem Engine.Canon.cacheFill {t imgSlot page data now} (h : e.Canon) : (cacheFill t imgSlot page data now e).Canon := by
  unfold Machine.cacheFill
  dsimp only
  split
  · split
    · exact h
    · refine .ite h (.ite (.windowEvent h) ?_)
      split
      · exact h
      · next ht =>
        have h1 := h.takeHem _ ht
        exact .setKvBytes (.modTile (fun _ k => .setUse k) h1)
  · exact h

/-! ### The tile mover -/

theorem Tile.Canon.moverDone (k : ti.Canon) : (moverDone ti).Canon := by
  unfold Machine.moverDone
  split
  · exact k
  · exact .modInst (.update k)

/-! ### Messages -/

theorem Engine.Canon.sendDone {t} (h : e.Canon) : (sendDone t e).Canon := by
  unfold Machine.sendDone
  split
  · exact h
  · extract_lets e1
    have h1 : e1.Canon := .modTile (fun _ k => .modInst (.update k)) h
    exact .ite h1 (.update h1)

theorem Engine.Canon.delivers {t m now} (h : e.Canon) : (Machine.deliver t m now e).Canon := by
  unfold Machine.deliver
  dsimp only
  split
  · exact .ite (.modTile (fun _ k => .modInst (.update (Tile.Canon.store k))) (.modTile (fun _ k => .update k) h)) (.raise (.modTile (fun _ k =>
    .update k) h))
  · exact h

/-! ### The pace unit -/

theorem Engine.Canon.enterHoldover {now} (h : e.Canon) : (e.enterHoldover now).Canon := .ite h (.supEvent (.update h))
theorem Engine.Canon.paceLocked {now} (h : e.Canon) : (paceLocked now e).Canon := .ite h (.supEvent (.update h))

theorem Engine.Canon.paceExchange {z x now} (h : e.Canon) : (paceExchange z x now e).Canon := by
  unfold Machine.paceExchange
  extract_lets e1
  have h1 : e1.Canon := .modZport (.sendPace h)
  exact .ite h (.ite h1 (.ite (.enterHoldover h1) (.update h1)))

theorem Engine.Canon.ptpMessage {isPtp kind value now} (h : e.Canon) : (ptpMessage isPtp kind value now e).Canon := .ite h (.update h)
theorem Engine.Canon.paceEdge {offset now} (h : e.Canon) : (paceEdge offset now e).Canon := .ite h (.ite (.enterHoldover h) (.update h))

/-! ### Events of a pair -/

theorem Engine.Canon.pairHeartbeat {now} (h : e.Canon) : (pairHeartbeat now e).Canon := .ite h (.modPair (.foldl (fun _ _ h1 => .zput h1) h))

theorem Engine.Canon.goAlone {now} (h : e.Canon) : (e.goAlone now).Canon := by
  unfold Engine.goAlone
  refine .foldl (fun _ _ h1 => ?_) (.modPair h)
  split
  · exact h1
  · refine .ite h1 ?_
    split
    · exact .acceptStep h1
    · exact h1

theorem Engine.Canon.stopPaired {now} (h : e.Canon) : (e.stopPaired now).Canon := .orphan (.foldl (fun _ _ h1 => .dropStep h1) h)

theorem Engine.Canon.pairSilence {now} (h : e.Canon) : (e.pairSilence now).Canon := by
  unfold Engine.pairSilence
  refine .ite h ?_
  split
  · exact .goAlone h
  · exact .stopPaired h
  · exact .stopPaired h
  · exact .takeover h

theorem Engine.Canon.heartbeatLoss {news now} (h : e.Canon) : (heartbeatLoss news now e).Canon := by
  unfold Machine.heartbeatLoss
  split
  · exact .pairSilence h
  · exact .ite (.takeover h) h
  · exact .ite (.modPair (.takeover h)) h

theorem Engine.Canon.pairReady {p now} (h : e.Canon) : (pairReady p now e).Canon := by
  refine .ite h ?_
  extract_lets e1
  have h1 : e1.Canon := by
    unfold e1
    split
    · exact .okReply (.modPair h)
    · exact h
  exact .ite h1 (.modPart h1)

theorem Engine.Canon.pairCfgTimeout {now} (h : e.Canon) : (pairCfgTimeout now e).Canon := by
  unfold Machine.pairCfgTimeout
  split
  · exact .ite h (.reply (.update h))
  · exact h

theorem Engine.Canon.mirrorDigest {p digest now} (h : e.Canon) : (mirrorDigest p digest now e).Canon := by
  unfold Machine.mirrorDigest
  split
  · exact h
  · refine .ite h ?_
    refine .ite (.modPart h) ?_
    split
    · exact .compareDigest h
    · exact h

theorem Engine.Canon.placeRequest {p newest x} (h : e.Canon) : (e.placeRequest p newest x).Canon := .ite (.idleReq h) (.modReq h)

theorem Engine.Canon.placeEntry {g j} (h : e.Canon) : (e.placeEntry g j).Canon := by
  unfold Engine.placeEntry
  split
  · exact h
  · next hn =>
    have h1 := h.needRows _ hn
    split
    · exact .setPosition h1
    · exact h1

theorem Engine.Canon.standbyReplication {p rep now} (h : e.Canon) : (standbyReplication p rep now e).Canon := by
  unfold Machine.standbyReplication
  extract_lets _ _ e1 e2 e3 e4 e5
  have h1 : e1.Canon := .foldl (fun _ _ h1 => .placeRequest h1) h
  have h2 : e2.Canon := .foldl (fun _ _ h2 => .placeEntry h2) h1
  have h3 : e3.Canon := .foldl (fun _ _ h3 => .ite h3 (.advance h3)) h2
  have h4 : e4.Canon := .foldl (fun _ _ h4 => .freeRows h4) h3
  have h5 : e5.Canon := .foldl (fun _ _ h5 => .foldl (fun _ _ h6 => .setKvBytes h6) h5) h4
  exact .ite h (.pairMsg (.modPart h5))

theorem Engine.Canon.replicationAck {p stepNo now} (h : e.Canon) : (replicationAck p stepNo now e).Canon :=
  .ite h (.tryHandover (.releaseStep (.modPart h)))

/-! ### Power events -/

theorem Engine.Canon.modCart {b f} (h : e.Canon) : (e.modCart b f).Canon := .update h
theorem Engine.Canon.modFeed {b f} (h : e.Canon) : (e.modFeed b f).Canon := .update h
theorem Engine.Canon.loseFeed {now b cv} (h : e.Canon) : (e.loseFeed now b cv).Canon := .ite (.modSup (.modFeed h)) (.modFeed h)
theorem Engine.Canon.feedLoss {b cv now} (h : e.Canon) : (feedLoss b cv now e).Canon := .ite h (.powerEvent (.loseFeed h))
theorem Engine.Canon.feedReturn {b cv now} (h : e.Canon) : (feedReturn b cv now e).Canon := .ite h (.modSup (.modFeed h))
theorem Engine.Canon.fallOff {now commit} (h : e.Canon) : (e.fallOff now commit).Canon := .enterOff (.ite (.commitAll (.dropSteps h)) h)

theorem Engine.Canon.powerLoss {cvA cvB now} (h : e.Canon) : (powerLoss cvA cvB now e).Canon :=
  .ite h (.ite (.loseFeed (.loseFeed h)) (.fallOff (.powerEvent (.update (Engine.Canon.loseFeed (.loseFeed h))))))

theorem Engine.Canon.latchClear {now} (h : e.Canon) : (latchClear now e).Canon := .ite (.modSup (.foldl (fun _ _ h1 => .modDeck h1) h)) h

theorem Engine.Canon.zoneFell {now field} (h : e.Canon) : (e.zoneFell now field).Canon :=
  .ite (.fence (.ite (.foldl (fun _ _ h1 => .stopPart h1) h) h)) (.ite (.foldl (fun _ _ h1 => .stopPart h1) h) h)

theorem Engine.Canon.shedPhase {now field phase c} (h : e.Canon) : (e.shedPhase now field phase c).Canon :=
  .ite h (.zoneFell (.throttled (.powerEvent (.modField h))))

theorem Engine.Canon.phaseOvercurrent {field phase amps now} (h : e.Canon) : (phaseOvercurrent field phase amps now e).Canon :=
  .ite h (.shedPhase (.powerEvent h))

theorem Engine.Canon.phaseDisagree {field now} (h : e.Canon) : (phaseDisagree field now e).Canon := .ite h (.zoneFell (.throttled (.modField h)))
theorem Engine.Canon.phaseAgree {field now} (h : e.Canon) : (phaseAgree field now e).Canon := .throttled (.modField h)
theorem Engine.Canon.shortEvent {now deck rail attempt latched} (h : e.Canon) : (e.shortEvent now deck rail attempt latched).Canon := .powerEvent h
theorem Engine.Canon.latchCold {now d} (h : e.Canon) : (e.latchCold now d).Canon := .ite (.enterOff (.modDeck h)) (.modDeck h)

theorem Engine.Canon.deckShort {d rail now} (h : e.Canon) : (deckShort d rail now e).Canon :=
  .ite h (.ite (.ite (.shortEvent (.modDeck h)) h) (.ite (.latchDeck (.shortEvent h)) h))

theorem Engine.Canon.softStartRetry {d short now} (h : e.Canon) : (softStartRetry d short now e).Canon := by
  unfold Machine.softStartRetry
  refine .ite h ?_
  split
  · exact .modDeck h
  · exact .ite (.shortEvent (.modDeck h)) (.latchCold (.shortEvent (.modDeck h)))

theorem Engine.Canon.holdCrack {now field base uohm} (h : e.Canon) : (e.holdCrack now field base uohm).Canon :=
  .throttled (.modDomain (.powerEvent h))

theorem Engine.Canon.crackDrop {field amps uohm now} (h : e.Canon) : (crackDrop field amps uohm now e).Canon :=
  .ite h (.ite (.modField h) (.ite (.holdCrack (.modField h)) (.modField h)))

theorem Engine.Canon.capDecision {watts a b now} (h : e.Canon) : (capDecision watts a b now e).Canon :=
  .throttled (.modSup (.modFeed (.modFeed h)))

theorem Engine.Canon.cartEvent {now b code} (h : e.Canon) : (e.cartEvent now b code).Canon := .powerEvent h

theorem Engine.Canon.cartridgeRemoval {b now} (h : e.Canon) : (cartridgeRemoval b now e).Canon :=
  .ite h (.checkEnable (.breakSession (.ite (.cartEvent (.cartEvent (.modCart h))) (.cartEvent (.modCart h)))))

theorem Engine.Canon.cartridgeInsertion {b now} (h : e.Canon) : (cartridgeInsertion b now e).Canon := .ite h (.cartEvent (.modCart (.update h)))

theorem Engine.Canon.cartridgeCharged {b coulomb voltage now} (h : e.Canon) : (cartridgeCharged b coulomb voltage now e).Canon :=
  .ite h (.cartEvent (.modCart h))

theorem Engine.Canon.cartridgeDisagree {b coulomb voltage now} (h : e.Canon) : (cartridgeDisagree b coulomb voltage now e).Canon :=
  .ite h (.checkEnable (.cartEvent (.modCart h)))

/-! ### Waits that expire -/

theorem Engine.Canon.waitExpired {i now} (h : e.Canon) : (waitExpired i now e).Canon := .ite (.raise h) h

/-! ### Temperature and coolant -/

theorem Engine.Canon.unlistedEvent {now d field j} (h : e.Canon) : (e.unlistedEvent now d field j).Canon := .eventIn (.update h)

theorem Engine.Canon.sensorSample {field rs now} (h : e.Canon) : (sensorSample field rs now e).Canon :=
  .foldl (fun _ _ h1 => .unlistedEvent h1) (.modField (.update h))

theorem Engine.Canon.takeT8 {x} (h : e.Canon) : (e.takeT8 x).Canon := .modDomain h

theorem Engine.Canon.thermalDecision {loads now} (h : e.Canon) : (thermalDecision loads now e).Canon := by
  unfold Machine.thermalDecision
  extract_lets _ _ e1 _ e2
  have h1 : e1.Canon := .foldl (fun _ _ h1 => .takeT8 h1) h
  have h2 : e2.Canon := .foldl (fun _ _ h2 => .modDomain h2) h1
  exact .throttled h2

theorem Engine.Canon.thermalTrip {field wafer sensor now} (h : e.Canon) : (thermalTrip field wafer sensor now e).Canon :=
  .ite h (.modSup (.fallOff (.powerEvent h)))

theorem Engine.Canon.flowEvent {now stage} (h : e.Canon) : (e.flowEvent now stage).Canon := .powerEvent h
theorem Engine.Canon.flowEases (h : e.Canon) : (e.flowEases).Canon := .modSup h

theorem Engine.Canon.flowBack {now} (h : e.Canon) : (e.flowBack now).Canon := by
  unfold Engine.flowBack
  split
  · exact h
  · exact .ite (.flowEvent (.flowEases (.modSup h))) h

theorem Engine.Canon.flowFalls {now} (h : e.Canon) : (e.flowFalls now).Canon := .ite (.flowEvent (.modSup h)) h

theorem Engine.Canon.inletMoves {now old} (h : e.Canon) : (e.inletMoves now old).Canon := by
  unfold Engine.inletMoves
  extract_lets _ _ e1
  have h1 : e1.Canon := .ite (.flowEvent (.ite (.flowEvent h) h)) (.ite (.flowEvent h) h)
  refine .ite (.flowEases (.modSup h1)) ?_
  split
  · exact .modSup h1
  · exact .ite (.flowEvent (.modSup h1)) h1

theorem Engine.Canon.coolantFlow {flow inlet now} (h : e.Canon) : (coolantFlow flow inlet now e).Canon :=
  .ite (.modSup (.update h)) (.throttled (.inletMoves (.flowFalls (.flowBack (.modSup (.update h))))))

theorem Engine.Canon.flowTimeout {now} (h : e.Canon) : (flowTimeout now e).Canon := by
  unfold Machine.flowTimeout
  split
  · exact h
  · exact .ite h (.fallOff (.flowEvent h))

theorem Engine.Canon.flowRestored {flow now} (h : e.Canon) : (flowRestored flow now e).Canon := .ite h (.throttled (.flowBack (.modSup h)))

theorem Engine.Canon.leakSeen {j opened now} (h : e.Canon) : (leakSeen j opened now e).Canon :=
  .ite (.powerEvent h) (.modSup (.fallOff (.powerEvent (.modSup h))))

theorem Engine.Canon.takeStrap {now closed} (h : e.Canon) : (e.takeStrap now closed).Canon := .ite (.modSup h) (.breakSession (.modSup h))

theorem Engine.Canon.intlkSample {imprint pwrOn now} (h : e.Canon) : (intlkSample imprint pwrOn now e).Canon :=
  .modSup (.ite (.modSup h) (.takeStrap h))

end Sys2Proof.Machine
end

section
/-!
PROOFS. Canonical byte stores: the supervisor, power sequencing, the assembly of a batch, the end of a sweep, spans and token packets.
-/
namespace Sys2Proof.Machine

open Sys2Proof.Safety

variable {e e' : Engine} {ti : Tile}

/-! ### The supervisor -/

theorem Engine.Canon.modCtl {d f} (h : e.Canon) : (e.modCtl d f).Canon := .modDeck h
theorem Engine.Canon.chairRequest {d take now} (h : e.Canon) : (chairRequest d take now e).Canon := .ite (.ite (.setChair h) h) (.passChair h)

theorem Engine.Canon.chairWrite {x1} (h : e.Canon) : (e.chairWrite x1).Canon := by
  unfold Engine.chairWrite
  split
  · exact .modField h
  · exact .setSite h
  · exact h
  · exact .modSup h

theorem Engine.Canon.chairOnlyWrite {d cw now} (h : e.Canon) : (chairOnlyWrite d cw now e).Canon := .ite (.chairWrite h) (.supEvent (.update h))
theorem Engine.Canon.latchFault {now} (h : e.Canon) : (e.latchFault now).Canon := .ite (.enterSafeHold h) h

theorem Engine.Canon.chairVote {flip now} (h : e.Canon) : (chairVote flip now e).Canon := by
  unfold Machine.chairVote
  extract_lets e1
  have h1 : e1.Canon := by
    unfold e1
    split
    · exact h
    · exact .modSup h
  refine .ite (.latchFault h1) ?_
  split
  · exact h1
  · exact .ite (.latchFault (.unlistedEvent (.modSup (.setChair h1)))) (.unlistedEvent (.modSup (.setChair h1)))

theorem Engine.Canon.sampleClaim {now d claim} (h : e.Canon) : (e.sampleClaim now d claim).Canon := by
  unfold Engine.sampleClaim
  extract_lets _ _ e1
  have h1 : e1.Canon := .modCtl h
  exact .ite h1 (.supEvent (.update h1))

theorem Engine.Canon.checkControllers {now} (h : e.Canon) : (e.checkControllers now).Canon := .ite (.enterSafeHold h) h

theorem Engine.Canon.watchdogRestart {d now} (h : e.Canon) : (watchdogRestart d now e).Canon :=
  .ite h (.ite (.checkControllers h) (.ite h (.ite (.checkControllers (.passChair (.modCtl h))) (.passChair (.supEvent (.modCtl h))))))

theorem Engine.Canon.restartDone {d now} (h : e.Canon) : (restartDone d now e).Canon :=
  .ite h (.foldl (fun _ _ h1 => .intakeMoves h1) (.modCtl (.foldl (fun _ _ h1 => .partEvent h1) h)))

/-! ### Power sequencing and resets -/

theorem Engine.Canon.atStage {now n} (h : e.Canon) : (e.atStage now n).Canon :=
  .ite (.modPower h) (.ite (.pwrReplies (.modPower (.modPower h))) (.modPower (.modPower h)))

theorem Engine.Canon.askFor {now t} (h : e.Canon) : (e.askFor now t).Canon := .ite h (.ite (.modPower h) (.ite (.modPower h) h))

theorem Engine.Canon.pwrOnRequest {feeds now} (h : e.Canon) : (pwrOnRequest feeds now e).Canon :=
  .ite (.ite h (.ite (.modSup h) (.askFor (.modSup h)))) (.ite (.askFor (.modSup h)) h)

theorem Engine.Canon.charge (h : e.Canon) : (e.charge).Canon := .foldl (fun _ _ h1 => .modCart h1) h
theorem Engine.Canon.railsOn (h : e.Canon) : (e.railsOn).Canon := .foldl (fun _ _ h1 => .modDeck h1) h
theorem Engine.Canon.rebase {old new} (h : e.Canon) : (e.rebase old new).Canon := .update h

theorem Engine.Canon.bootDecks {now f} (h : e.Canon) : (e.bootDecks now f).Canon :=
  .foldl (fun _ _ h1 => .foldl (fun _ _ h2 => .modHport h2) h1) (.foldl (fun _ _ h1 => .modDeck h1) h)

theorem Engine.Canon.stageFour {now} (h : e.Canon) : (e.stageFour now).Canon := .modPower (.setChair (.clearMonitors (.bootDecks h)))

theorem Engine.Canon.failSite {now t} (h : e.Canon) : (e.failSite now t).Canon := by
  unfold Engine.failSite
  split
  · split
    · exact .swapSite h
    · exact .event (.setSite h)
  · exact .event (.setSite h)
  · exact h

theorem Engine.Canon.recordBaseline {now field uohm} (h : e.Canon) : (e.recordBaseline now field uohm).Canon :=
  .ite (.holdCrack (.modField h)) (.modField h)

theorem Engine.Canon.selfTestAll {now on rep} (h : e.Canon) : (e.selfTestAll now on rep).Canon := by
  unfold Engine.selfTestAll
  extract_lets _ _ e1 e2 _ e3 _ e4
  have h1 : e1.Canon := .foldl (fun _ _ h1 => .failSite h1) (.bareTiles h)
  have h2 : e2.Canon := .foldl (fun _ _ h2 => .disableStop h2) h1
  have h3 : e3.Canon := .foldl (fun _ _ h3 => .modField h3) h2
  have h4 : e4.Canon := .foldl (fun _ _ h4 => .shedPhase h4) (.throttled h3)
  exact .foldl (fun _ _ h5 => .recordBaseline h5) h4

theorem Engine.Canon.stageEight {now} (h : e.Canon) : (e.stageEight now).Canon := .modPower (.update (Engine.Canon.recover h))

theorem Engine.Canon.upStage {now n rep} (h : e.Canon) : (e.upStage now n rep).Canon := by
  unfold Engine.upStage
  split
  · exact .charge h
  · exact .railsOn h
  · exact .stageFour h
  · exact .endSession (.update h)
  · exact .selfTestAll h
  · exact .stageEight h
  · exact h

theorem Engine.Canon.recoverDeck {now d} (h : e.Canon) : (e.recoverDeck now d).Canon := by
  unfold Engine.recoverDeck
  extract_lets _ e1
  have h1 : e1.Canon := .dropTiers h
  exact .recoverReqs (.recoverParts (.update h1))

theorem Engine.Canon.deckStage {now d n rep} (h : e.Canon) : (e.deckStage now d n rep).Canon := by
  unfold Engine.deckStage
  split
  · exact .bootDecks h
  · exact .selfTestAll h
  · exact .recoverDeck h
  · exact h

theorem Engine.Canon.deckResetStage {rep now} (h : e.Canon) : (deckResetStage rep now e).Canon := by
  unfold Machine.deckResetStage
  split
  · exact h
  · exact .ite h (.update (Engine.Canon.deckStage h))

theorem Engine.Canon.powerUpStage {rep now} (h : e.Canon) : (powerUpStage rep now e).Canon :=
  .ite (.ite (.atStage (.upStage h)) h) (.deckResetStage h)

theorem Engine.Canon.dropWaiting {now} (h : e.Canon) : (e.dropWaiting now).Canon := by
  unfold Engine.dropWaiting
  extract_lets _ e1 e2 e3
  have h1 : e1.Canon := .foldl (fun _ _ h1 => .reply (.unhold h1)) h
  have h2 : e2.Canon := .loseSnaps (.foldl (fun _ _ h2 => .reply h2) h1)
  have h3 : e3.Canon := .foldl (fun _ _ h3 => .reply h3) h2
  exact .update h3

theorem Engine.Canon.downEight {now} (h : e.Canon) : (e.downEight now).Canon := .dropWaiting (.breakSession (.dropSteps h))
theorem Engine.Canon.downSeven (h : e.Canon) : (e.downSeven).Canon := .foldl (fun _ _ h1 => .modReq h1) (.update h)
theorem Engine.Canon.downSix {now} (h : e.Canon) : (e.downSix now).Canon := .ite (.pwrReplies (.modPower (.commitAll h))) (.modPower (.commitAll h))

theorem Engine.Canon.downFour (h : e.Canon) : (e.downFour).Canon :=
  .setChair (.update (Engine.Canon.foldl (fun _ _ h1 => .modHport h1) (.foldl (fun _ _ h1 => .modDeck h1) h)))

theorem Engine.Canon.downTwo {now} (h : e.Canon) : (e.downTwo now).Canon := by
  unfold Engine.downTwo
  extract_lets e1
  have h1 : e1.Canon := .foldl (fun _ _ h1 => .ite (.cartEvent (.modCart h1)) h1) h
  exact .ite (.enterOff h1) (.atStage h1)

theorem Engine.Canon.powerDownStage {now} (h : e.Canon) : (powerDownStage now e).Canon := by
  unfold Machine.powerDownStage
  refine .ite h ?_
  split
  · exact .ite (.atStage (.downEight h)) h
  · exact .ite (.atStage (.downSeven h)) h
  · exact .ite (.atStage (.downSeven h)) h
  · exact .atStage (.downSix h)
  · exact .ite (.atStage (.downFour h)) h
  · exact .atStage (.unpowered h)
  · exact .downTwo h

theorem Engine.Canon.resetEngine {now r} (h : e.Canon) : (e.resetEngine now r).Canon := by
  unfold Engine.resetEngine
  extract_lets e1 _ e2 e3 e4 e5 e6 e7
  have h1 : e1.Canon := .loseSnaps (.commitAll (.dropSteps h))
  clear_value e1
  have h2 : e2.Canon := .dropRepairs (.breakSession (.update h1))
  have h3 : e3.Canon := .dropZports h2
  have h4 : e4.Canon := .foldl (fun _ _ h4 => .modZport h4) h3
  have h5 : e5.Canon := .foldl (fun _ _ h5 => .modHport h5) h4
  have h6 : e6.Canon := .foldl (fun _ _ h6 => .modDeck h6) h5
  have h7 : e7.Canon := .clearMonitors h6
  clear_value e7
  exact .update h7

theorem Engine.Canon.resetDeck {now r} (h : e.Canon) : (e.resetDeck now r).Canon := by
  unfold Engine.resetDeck
  extract_lets _ _ _ _ e1 e2 e3 _ e4 e5 e6
  have h1 : e1.Canon := .failSnaps (.commitWhere (.foldl (fun _ _ h1 => .dropStep h1) h))
  have h2 : e2.Canon := .ite (.breakSession h1) h1
  have h3 : e3.Canon := .dropZports (.dropGraphs (.dropRepairs h2))
  have h4 : e4.Canon := .foldl (fun _ _ h4 => .modHport h4) (.dropFns h3)
  have h5 : e5.Canon := .foldl (fun _ _ h5 => .modPart h5) h4
  have h6 : e6.Canon := .clearMonitors (.modDeck h5)
  exact .update h6

theorem Engine.Canon.resetTakeEffect {now} (h : e.Canon) : (resetTakeEffect now e).Canon := by
  refine .ite h ?_
  split
  · exact h
  · exact .ite (.resetEngine h) (.resetDeck h)

/-! ### The assembly of a batch -/

theorem Engine.Canon.pruneTree {p q} (h : e.Canon) : (e.pruneTree p q).Canon := by
  unfold Engine.pruneTree
  dsimp only
  split
  · exact .ite h (.modReq h)
  · exact h

section Assembly
variable {a : Asm}

theorem Asm.skip_canon {now p q lack} (h : a.e.Canon) : (a.skip now p q lack).e.Canon := .partEvent h

theorem Asm.add_canon {now p t q cost} (h : a.e.Canon) : (a.add now p t q cost).e.Canon := by
  unfold Asm.add
  extract_lets _ _ _ _ es
  split
  · exact Asm.skip_canon h
  · next hn =>
    have h1 := h.needRows _ hn
    clear_value es
    split
    · exact Asm.skip_canon h
    · exact .modReq (.update h1)

theorem Asm.serve_canon {now p cap prompts prio t n} (h : a.e.Canon) : (Asm.serve now p cap prompts prio t n a).e.Canon := by
  induction n generalizing a with
  | zero => exact h
  | succ n ih =>
    unfold Asm.serve
    split
    · exact h
    · split
      · exact h
      · split
        · exact h
        · exact ih (Asm.add_canon h)

theorem Asm.visit_canon {now p cap prompts prio t} (h : a.e.Canon) : (Asm.visit now p cap prompts prio a t).e.Canon := by
  unfold Asm.visit
  split
  · exact h
  · split
    · exact h
    · split
      · exact h
      · exact Asm.serve_canon (.modTenant h)

theorem Asm.rounds_canon {now p cap prompts prio ring n} (h : a.e.Canon) : (Asm.rounds now p cap prompts prio ring n a).e.Canon := by
  induction n generalizing a with
  | zero => exact h
  | succ n ih =>
    unfold Asm.rounds
    dsimp only
    split
    · exact h
    · exact ih (List.foldlRecOn (motive := fun a : Asm => a.e.Canon) _ _ h fun _ h1 _ _ => Asm.visit_canon h1)

end Assembly

theorem Engine.Canon.assemble {p now} (h : e.Canon) : (e.assemble p now).1.Canon := by
  unfold Engine.assemble
  extract_lets _ e1 _ _ _ _ _ a e2
  have h1 : e1.Canon := .foldl (fun _ _ h1 => .pruneTree h1) h
  have ha : a.e.Canon := List.foldlRecOn (motive := fun a : Asm => a.e.Canon) _ _ h1 fun _ h2 _ _ => Asm.rounds_canon h2
  have h2 : e2.Canon := by
    unfold e2
    split
    · exact .modPart ha
    · exact ha
  exact .foldl (fun _ _ h3 => .ite h3 (.modTenant h3)) h2

/-! ### The step boundary and the beginning of a step -/

theorem Engine.Canon.applyEpoch {now p x} (h : e.Canon) : (e.applyEpoch now p x).Canon := by
  unfold Engine.applyEpoch
  extract_lets _ _ e1 e2 hd e3
  have h1 : e1.Canon := .foldl (fun _ _ h1 => .modDeck h1) h
  have h3 : e3.Canon := .modPart (.update h1)
  clear_value hd
  split
  · exact .okReply (.dropOwn h3)
  · exact h3

theorem Engine.Canon.boundaryActs {now p n} (h : e.Canon) : (boundaryActs now p n e).Canon := by
  induction n generalizing e with
  | zero => exact h
  | succ n ih =>
    unfold Machine.boundaryActs
    split
    · exact h
    · exact ih (.applyHeld h)
    · exact ih (.applyEpoch h)
    · exact ih (.ite (.applyHeld h) (.applyEpoch h))

theorem Engine.Canon.boundary {p now} (h : e.Canon) : (e.boundary p now).Canon :=
  .ite (.resolvePart (.boundaryActs h)) (.boundaryReqs (.resolvePart (.boundaryActs h)))

theorem Engine.Canon.preAssemble {p now} (h : e.Canon) : (e.preAssemble p now).Canon := .expire (.foldl (fun _ _ h1 => .flushUpdates h1) h)

theorem Engine.Canon.reloadRetained {p} (h : e.Canon) : (e.reloadRetained p).Canon := by
  unfold Engine.reloadRetained
  refine .foldl (fun _ _ h1 => ?_) h
  refine .ite h1 ?_
  split
  · exact h1
  · split
    · exact .modTile (fun _ k => .foldl (fun _ _ h3 => .store h3) k) h1
    · exact h1

theorem Engine.Canon.sayReady {p now} (h : e.Canon) : (e.sayReady p now).Canon := .ite h (.pairMsg (.modPart h))

theorem Engine.Canon.beginStep {p now batch} (h : e.Canon) : (e.beginStep p now batch).Canon :=
  .foldl (fun _ _ h1 => .spanData h1) (.writeInputs (.takePorts (.reloadRetained (.modPart h))))

theorem Engine.Canon.tryStep {p now} (h : e.Canon) : (e.tryStep p now).Canon := by
  unfold Engine.tryStep
  dsimp only
  exact .ite (.assemble (.preAssemble h)) (.ite (.preAssemble h) (.ite (.sayReady (.preAssemble h)) (.beginStep (.ite (.sayReady (.assemble
    (.preAssemble h))) (.assemble (.preAssemble h))))))

theorem Engine.Canon.stepBegin {p now} (h : e.Canon) : (stepBegin p now e).Canon :=
  .ite h (.ite (.tryStep (.modPart (.boundary (.disableStops h)))) (.modPart (.boundary (.disableStops h))))

theorem Engine.Canon.actionHold {p now} (h : e.Canon) : (actionHold p now e).Canon := by
  unfold Machine.actionHold
  refine .ite h ?_
  split
  · exact .ite (.modPart h) h
  · exact .ite h (.modPart (.boundary h))
  · exact h

/-! ### The end of a sweep -/

theorem Engine.Canon.graphFaultStep {p} (h : e.Canon) : (e.graphFaultStep p).Canon := .modPart h

theorem Engine.Canon.handOn {now p records} (h : e.Canon) : (e.handOn now p records).Canon := by
  unfold Engine.handOn
  split
  · exact .graphFaultStep h
  · exact .modPart (.foldl (fun _ _ h1 => .spanData h1) h)

theorem Engine.Canon.tellWatch {now p s} (h : e.Canon) : (e.tellWatch now p s).Canon :=
  .ite (.modPart (.tellPause (.ite h (.sendPrepare h)))) (.ite h (.sendPrepare h))

theorem Engine.Canon.drawAndAccept {p now s} (h : e.Canon) : (e.drawAndAccept p now s).Canon := by
  unfold Engine.drawAndAccept
  split
  · exact .graphFaultStep h
  · exact .raise h
  · exact .afterDraw h

theorem Engine.Canon.dropEarly {now p} (h : e.Canon) : Gives Engine.Canon (e.dropEarly now p) :=
  .ite .none (.some (.stepFault (.foldl (fun _ _ h1 => .partEvent h1) (.foldl (fun _ _ h1 => .modDeck h1) h))))

theorem Engine.Canon.closeStep {p now} (h : e.Canon) : (closeStep p now e).Canon := by
  unfold Machine.closeStep
  dsimp only
  split
  · exact h
  · refine .ite h ?_
    split
    · next hd => exact h.dropEarly _ hd
    · exact .ite (.drawAndAccept h) (.ite (.ite (.handOn h) (.tellWatch (.handOn h))) (.ite (.drawAndAccept h) h))

/-! ### Spans -/

theorem Engine.Canon.spanAnnounce {a now} (h : e.Canon) : (spanAnnounce a now e).Canon :=
  .ite (.announceParts (.foldl (fun _ _ h1 => .modPart h1) (.update h))) (.foldl (fun _ _ h1 => .modPart h1) (.update h))

theorem Engine.Canon.followStep {p now batch dirs} (h : e.Canon) : (e.followStep p now batch dirs).Canon := by
  unfold Engine.followStep
  extract_lets e1 e2
  have h1 : e1.Canon := .takePorts (.reloadRetained (.modPart h))
  have h2 : e2.Canon := .foldl (fun _ _ h2 => .modTile (fun _ k => .readyStep k) (.toRole h2)) h1
  exact .foldl (fun _ _ h3 => .toRole h3) h2

theorem Engine.Canon.spanBatch {p batch dirs now} (h : e.Canon) : (spanBatch p batch dirs now e).Canon :=
  .ite h (.ite (.followStep (.boundary (.disableStops h))) (.boundary (.disableStops h)))

theorem Engine.Canon.toSample {p t bs} (h : e.Canon) : (e.toSample p t bs).Canon := by
  unfold Engine.toSample
  split
  · exact .modTile (fun _ k => .store k) h
  · exact h

theorem Engine.Canon.spanHandoff {p rank data} (h : e.Canon) : (spanHandoff p rank data e).Canon := by
  unfold Machine.spanHandoff
  split
  · exact .ite h (.modPart (.toRoleAt h))
  · exact h

theorem Engine.Canon.spanRecords {p rank data} (h : e.Canon) : (spanRecords p rank data e).Canon := by
  unfold Machine.spanRecords
  split
  · exact .ite h (.modPart (.toSample h))
  · exact h

theorem Engine.Canon.applyPath {pages q n m path} (h : e.Canon) : (e.applyPath pages q n m path).Canon := by
  unfold Engine.applyPath
  extract_lets _ _ _ e1
  have h1 : e1.Canon := by
    unfold e1
    refine .foldl (fun _ _ h1 => ?_) h
    refine .foldl (fun _ _ h2 => ?_) h1
    split
    · exact .setPosition h2
    · exact h2
  exact .foldl (fun _ _ h2 => .commitSlot h2) h1

theorem Engine.Canon.spanPaths {p paths now} (h : e.Canon) : (spanPaths p paths now e).Canon := by
  unfold Machine.spanPaths
  split
  · exact h
  · exact .ite h (.endStep (.watch (.foldl (fun _ _ h1 => .applyPath h1) h)))

/-! ### Token packets -/

theorem Engine.Canon.writeHeld {idx now} (h : e.Canon) : (writeHeld idx now e).Canon := by
  unfold Machine.writeHeld
  refine .ite h ?_
  split
  · exact .modTenant h
  · split
    · exact h
    · exact .modTenant (.modReq h)

theorem Engine.Canon.drainLosses {p now} (h : e.Canon) : (drainLosses p now e).Canon := by
  unfold Machine.drainLosses
  split
  · exact h
  · exact .ite h (.modTenant (.modReq (.modPart h)))

theorem Engine.Canon.delivered {j} (h : e.Canon) : (e.delivered j).Canon := .ite h (.ite (.idleReq h) (.modReq h))

theorem Engine.Canon.deliverToken {t par words now} (h : e.Canon) : (deliverToken t par words now e).Canon := by
  unfold Machine.deliverToken
  dsimp only
  split
  · exact h
  · exact .ite h (.ite (.windowEvent h) (.ite (.ite (.modTenant h) (.dma (.modTenant (.modTenant h)))) (.delivered (.toRing (.modTenant h)))))

end Sys2Proof.Machine
end

section
/-!
PROOFS. Canonical byte stores: the outcome of every tile instruction.
-/
namespace Sys2Proof.Machine

open Sys2Proof.Safety

variable {e e' : Engine} {ti : Tile}

/-! ### Outcomes -/

/-- Where an outcome is a next state, its byte stores are in canonical form. -/
def Kept (o : Host.Outcome State Fault Refusal) : Prop := ∀ t, o = .next t → t.eng.Canon

variable {s : State}

theorem Kept.next (h : e.Canon) : Kept (.next (withEng s e)) := by
  rintro _ ⟨⟩
  exact h

theorem Kept.onEng {f} (h : (f s.now s.eng).Canon) : Kept (onEng s f) := .next h

theorem Kept.onUnit {ok f} (h : (f s.now s.eng).Canon) : Kept (onUnit ok s f) := by
  unfold Machine.onUnit
  split
  · exact .onEng h
  · rintro _ ⟨⟩

theorem Kept.issue {group op legal vec i w body} (hb : ∀ c : Ctx, c.e.Canon → (body c).Canon) (h : s.eng.Canon) :
    Kept (issue group op legal vec i w body s) := .onUnit (.issueOn hb h)

theorem Kept.hostCmd {hd c f run} (hr : RunKeeps run) (h : s.eng.Canon) : Kept (hostCmd hd c f run s) := .onUnit (.command hr h)

/-! ### The checks of an instruction (R119) -/

section Checks
variable {c : Ctx} {i j : Iss}

theorem Iss.Canon.ite {p : Prop} [Decidable p] (hi : i.Canon) (hj : j.Canon) : (if p then i else j).Canon := by
  split
  · exact hi
  · exact hj

theorem Iss.Canon.done {e : Engine} (h : e.Canon) : (Iss.done e).Canon := h
theorem Iss.Canon.wait {e : Engine} (h : e.Canon) : (Iss.wait e).Canon := h
theorem Iss.Canon.aligned {a m} (hi : i.Canon) : (aligned a m i).Canon := .check hi
theorem Iss.Canon.lenMultiple {n m} (hi : i.Canon) : (lenMultiple n m i).Canon := .check hi
theorem Iss.Canon.lenRange {lo hi' n} (hi : i.Canon) : (lenRange lo hi' n i).Canon := .check hi
theorem Iss.Canon.granted {b} (hi : i.Canon) : (c.granted b i).Canon := .check hi

theorem Iss.Canon.claim {a n} (hi : i.Canon) : (c.claim a n i).Canon := by
  unfold Ctx.claim
  split
  · trivial
  · exact hi

theorem Iss.Canon.notFilling {a n} (hi : i.Canon) : (c.notFilling a n i).Canon := by
  unfold Ctx.notFilling
  split
  · trivial
  · exact hi

theorem Iss.Canon.divisorGranted {w} (hi : i.Canon) : (divisorGranted c w i).Canon := .ite (.granted hi) hi

theorem Iss.Canon.blockTarget {w} (hi : i.Canon) : (blockTarget c w i).Canon :=
  .aligned (.aligned (.claim (.claim (.notFilling (.notFilling hi)))))

theorem Iss.Canon.goto {t} (h : e.Canon) : (c.goto t e).Canon := .aligned (.check h)

variable (hc : c.e.Canon)
include hc

theorem Iss.Canon.checkFree {ok x} (hi : i.Canon) : (c.checkFree ok x i).Canon := .ite hi (.update hc)
theorem Iss.Canon.checkOpen {ok} (hi : i.Canon) : (c.checkOpen ok i).Canon := .checkFree hc hi

theorem Iss.Canon.reading {a n} (hi : i.Canon) : (c.reading a n i).Canon := by
  refine .ite hc ?_
  split
  · trivial
  · exact hi

theorem Iss.Canon.moverFull (hi : i.Canon) : (moverFull c i).Canon := .ite hc hi

theorem Iss.Canon.dramChecks {w} (hi : i.Canon) : (dramChecks c w i).Canon :=
  .aligned (.aligned (.lenMultiple (.lenRange (.claim (.checkOpen hc (.ite hc hi))))))

theorem Engine.Canon.afterRead {a n} : (c.afterRead a n).Canon := .ite (.update hc) hc

theorem Engine.Canon.afterReads {a n b m} : (Ctx.afterRead { c with e := c.afterRead a n } b m).Canon := .afterRead (.afterRead hc)

end Checks

/-! ### Tile instructions -/

section Instructions
variable {i : Hart} {w : Opnd} (h : s.eng.Canon)
include h

theorem Kept.alu {op f} : Kept (alu op f i w s) := .issue (fun _ hc => .done (.writeX hc)) h
theorem Kept.alu1 {op f} : Kept (alu1 op f i w s) := .issue (fun _ hc => .done (.writeX hc)) h
theorem Kept.execLih : Kept (execLih i w s) := .issue (fun _ hc => .done (.writeX hc)) h

theorem Kept.load {op n signed} : Kept (load op n signed i w s) :=
  .issue (fun _ hc => .aligned (.claim (.reading hc (.done (.writeX (.afterRead hc)))))) h

theorem Kept.store {op n} : Kept (store op n i w s) :=
  .issue (fun _ hc => .aligned (.claim (.notFilling (.done (.modTile (fun _ k => .store k) hc))))) h

theorem Kept.atomic {op f} : Kept (atomic op f i w s) :=
  .issue (fun _ hc => .aligned (.claim (.notFilling (.reading hc (.done (.writeX (.modTile (fun _ k => .store k) (.afterRead hc)))))))) h

theorem Kept.branch {op f} : Kept (branch op f i w s) := .issue (fun _ hc => .ite (.goto hc) (.done hc)) h
theorem Kept.execJal : Kept (execJal i w s) := .issue (fun _ hc => .goto (.writeX hc)) h
theorem Kept.execJalr : Kept (execJalr i w s) := .issue (fun _ hc => .goto (.writeX hc)) h
theorem Kept.execFence : Kept (execFence i w s) := .issue (fun _ hc => .ite (.wait hc) (.done hc)) h
theorem Kept.execFenceI : Kept (execFenceI i w s) := .issue (fun _ hc => .done (.modTile (fun _ k => .update k) hc)) h

theorem Kept.execTbar : Kept (execTbar i w s) :=
  .issue (fun _ hc => .ite (.done (.modTile (fun _ k => .modThread (.release k)) hc)) (.wait (.withThread hc))) h

theorem Kept.execWaitc : Kept (execWaitc i w s) := .issue (fun _ hc => .ite (.wait hc) (.done hc)) h
theorem Kept.execRdpace : Kept (execRdpace i w s) := .issue (fun _ hc => .done (.withThread hc)) h
theorem Kept.execRdcnt : Kept (execRdcnt i w s) := .issue (fun _ hc => .done (.writeX hc)) h

theorem Kept.execEndThread : Kept (execEndThread i w s) :=
  .issue (fun _ hc => .done (.modTile (fun _ k => .foldl (fun _ _ k1 => .ite (.release k1) k1) k) hc)) h

/-! ### Vector instructions -/

omit h in
theorem Iss.Canon.loadWords {c : Ctx} {d addr} (hc : c.e.Canon) : (loadWords c d addr).Canon := by
  unfold Machine.loadWords
  split
  · trivial
  · refine .ite hc ?_
    split
    · trivial
    · exact .writeV (.ite (.update hc) hc)

omit h in
theorem Iss.Canon.storeWords {c : Ctx} {r addr} (hc : c.e.Canon) : (storeWords c r addr).Canon := by
  unfold Machine.storeWords
  split
  · trivial
  · split
    · trivial
    · exact .done (.modTile (fun _ k => .foldl (fun _ _ k1 => .store k1) k) hc)

theorem Kept.lanewise {op b c sub f} : Kept (lanewise op b c sub f i w s) := .issue (fun _ hc => .done (.writeV hc)) h
theorem Kept.execVcvt : Kept (execVcvt i w s) := .issue (fun _ hc => .done (.writeV hc)) h
theorem Kept.execVext : Kept (execVext i w s) := .issue (fun _ hc => .done (.writeX hc)) h
theorem Kept.panelLoad {op addr} : Kept (panelLoad op addr i w s) := .issue (fun _ hc => .aligned (.loadWords hc)) h
theorem Kept.panelStore {op addr} : Kept (panelStore op addr i w s) := .issue (fun _ hc => .aligned (.storeWords hc)) h
theorem Kept.execVlds : Kept (execVlds i w s) := .issue (fun _ hc => .aligned (.checkFree hc (.loadWords hc))) h
theorem Kept.execVsts : Kept (execVsts i w s) := .issue (fun _ hc => .aligned (.checkFree hc (.storeWords hc))) h

theorem Kept.execVunpk : Kept (execVunpk i w s) :=
  .issue (fun _ hc => .aligned (.aligned (.claim (.claim (.reading hc (.reading hc (.check (.done (.writeV (.afterReads hc)))))))))) h

/-! ### Long registers -/

omit h in
theorem Iss.Canon.emitLanes {c : Ctx} {f} (hc : c.e.Canon) : (emitLanes c w f).Canon := .done (.counted (.writeV hc))

omit h in
theorem Iss.Canon.emitTo {c : Ctx} {b} (hc : c.e.Canon) : (emitTo c w b).Canon := .done (.counted (.modTile (fun _ k => .store (.store k)) hc))

theorem Kept.execLplace : Kept (execLplace i w s) :=
  .issue (fun _ hc => .granted (.done (.modTile (fun _ k => .addAll (.ite (.foldl (fun _ _ k1 => .setLreg k1) k) k)) hc))) h

theorem Kept.execLemitS : Kept (execLemitS i w s) := .issue (fun _ hc => .granted (.ite hc (by
  split
  · trivial
  · exact .emitLanes hc))) h

theorem Kept.execLemitB : Kept (execLemitB i w s) := .issue (fun _ hc => .granted (.blockTarget (.ite hc (by
  split
  · trivial
  · exact .ite (.emitTo hc) (.emitTo hc))))) h

theorem Kept.execLdivS : Kept (execLdivS i w s) := .issue (fun _ hc => .granted (.divisorGranted (.ite hc (by
  split
  · trivial
  · exact .emitLanes hc)))) h

theorem Kept.execLdivB : Kept (execLdivB i w s) := .issue (fun _ hc => .granted (.divisorGranted (.blockTarget (.ite hc (by
  split
  · trivial
  · exact .emitTo hc))))) h

theorem Kept.execLexp : Kept (execLexp i w s) := .issue (fun _ hc => .granted (.ite hc (by
  split
  · trivial
  · exact .done (.writeV hc)))) h

theorem Kept.execLclr : Kept (execLclr i w s) :=
  .issue (fun _ hc => .granted (.ite hc (.done (.modTile (fun _ k => .foldl (fun _ _ k1 => .setLreg k1) k) hc)))) h

theorem Kept.execLexpect : Kept (execLexpect i w s) := .issue (fun _ hc => .granted (.ite hc (.done (.modTile (fun _ k => .update k) hc)))) h

theorem Kept.execFolds : Kept (execFolds i w s) := .issue (fun _ hc => by
  refine .granted (.checkOpen hc ?_)
  split
  · trivial
  · refine .checkOpen hc (.ite hc ?_)
    extract_lets f e1 e2
    have h1 : e1.Canon := .modTile (fun _ k => .foldl (fun _ _ k1 => .setLreg k1) k) hc
    have h2 : e2.Canon := .foldl (fun _ _ h2 => .inject h2) h1
    split
    · exact h2
    · exact h2) h

/-! ### Units -/

theorem Kept.execMma : Kept (execMma i w s) := .issue (fun c hc => by
  refine .granted (.aligned (.aligned (.claim (.claim (.ite hc (.reading hc (.reading hc ?_)))))))
  dsimp only [Ctx.take]
  split
  · trivial
  · exact .done (.modTile (fun _ k => .count (.feedUnit (.update k))) (.afterReads hc))) h

theorem Kept.execApass : Kept (execApass i w s) :=
  .issue (fun _ hc => .aligned (.claim (.ite hc (.ite hc (.done (.laneStart (.modTile (fun _ k => .update k) (.withThread hc)))))))) h

theorem Kept.execNvrd : Kept (execNvrd i w s) :=
  .issue (fun _ hc => .aligned (.lenMultiple (.check (.claim (.checkOpen hc (.checkOpen hc (.ite hc (.done (.modTile (fun _ k => .update k) hc))))))))) h

omit h in
theorem Iss.Canon.dramPush {c : Ctx} {write data} (hc : c.e.Canon) : (dramPush c w write data).Canon := .done (.modTile (fun _ k => .update k) hc)

theorem Kept.execDrd : Kept (execDrd i w s) := .issue (fun _ hc => .dramChecks hc (.dramPush hc)) h
theorem Kept.execDwr : Kept (execDwr i w s) := .issue (fun _ hc => .dramChecks hc (.reading hc (.dramPush (.afterRead hc)))) h

omit h in
theorem Iss.Canon.moverAccept {c : Ctx} {f : Tile → Tile} (hf : ∀ ti, ti.Canon → (f ti).Canon) (hc : c.e.Canon) : (moverAccept c f).Canon :=
  .done (.modTile (fun ti k => .update (hf ti k)) hc)

theorem Kept.execMfill : Kept (execMfill i w s) :=
  .issue (fun _ hc => .aligned (.lenMultiple (.lenRange (.claim (.notFilling (.moverFull hc (.moverAccept (fun _ k => .store k) hc))))))) h

theorem Kept.execMcopy : Kept (execMcopy i w s) :=
  .issue (fun _ hc => .aligned (.aligned (.lenMultiple (.lenRange (.claim (.claim (.notFilling (.moverFull hc (.reading hc
    (.moverAccept (fun _ k => .store k) (.afterRead hc))))))))))) h

theorem Kept.execMtrn : Kept (execMtrn i w s) :=
  .issue (fun _ hc => .aligned (.aligned (.claim (.claim (.notFilling (.moverFull hc (.reading hc
    (.moverAccept (fun _ k => .store k) (.afterRead hc))))))))) h

theorem Kept.execSend : Kept (execSend i w s) := .issue (fun c hc => by
  refine .aligned (.lenMultiple (.lenRange (.checkOpen hc (.claim (.ite hc (.reading hc ?_))))))
  dsimp only [Ctx.take]
  exact .done (.ite (.modTile (fun _ k => .update k) (.afterRead hc)) (.modDeck (.modTile (fun _ k => .update k) (.afterRead hc))))) h

theorem Kept.execRecv : Kept (execRecv i w s) :=
  .issue (fun _ hc => .aligned (.lenMultiple (.check (.claim (.done (.modTile (fun _ k => .update k) hc)))))) h

theorem Kept.execRchk : Kept (execRchk i w s) := .issue (fun c hc => by
  refine .aligned (.claim (.reading hc ?_))
  dsimp only [Ctx.take]
  split
  · trivial
  · exact .done (.afterRead hc)) h

theorem Kept.execRget : Kept (execRget i w s) := .issue (fun c hc => by
  refine .aligned (.aligned (.claim (.claim (.reading hc (.reading hc ?_)))))
  dsimp only [Ctx.take]
  exact .done (.writeX (.afterReads hc))) h

end Instructions

end Sys2Proof.Machine
end

section
/-!
PROOFS. Canonical byte stores: every command, every step, and CanonicalFormKept (O4).
-/
namespace Sys2Proof.Machine

open Sys2Proof.Safety

variable {e e' : Engine} {ti : Tile}

/-! ### Commands whose effect is a case split -/

section Commands
variable {s : State}

theorem Kept.zevent {z st ok f} (hf : ∀ e, e.Canon → (f s.now e).Canon) (h : s.eng.Canon) : Kept (zevent z st ok f s) :=
  .onUnit (.cond hf h)

/-- A host command that may be held in a schedule table (R345). -/
theorem Kept.heldCmd {hd c f run} (hc : hostEffect c = some (f, run)) (h : s.eng.Canon) : Kept (Machine.hostCmd hd c f run s) :=
  .hostCmd (RunKeeps.hostEffect _ hc) h

variable (h : s.eng.Canon)
include h

theorem Kept.execTenantBind {hd n} : Kept (execTenantBind hd n s) := .onUnit (by
  have hc : (s.eng.command s.now hd (.tenantBind hd n) (tenantBindForm hd n s.eng) (runTenantBind n)).Canon :=
    .command (fun _ _ _ _ h => .runTenantBind h) h
  exact .ite (.modTenant hc) hc)

theorem Kept.execPwrCap {hd watts} : Kept (execPwrCap hd watts s) := .onUnit (.command (fun _ _ _ _ h => .runPwrCap h) (.copyCap h))

theorem Kept.execPortFault {u port k} : Kept (execPortFault u port s k) :=
  match port with
  | .nv => .onUnit (.nvPortFault h)
  | .dram => .onUnit (.dramPortFault h)

theorem Kept.execDepSignal {k} : Kept (execDepSignal k s) := .onEng (by
  split
  · exact h
  · exact .deliver (.update h))

theorem Kept.execLedgerHeadRead {port d poison} : Kept (execLedgerHeadRead port d poison s) := .onUnit (by
  dsimp only
  split
  · exact .send (.modDeck h)
  · exact .send (.update h))

theorem Kept.execRcCounterRead {c hw} : Kept (execRcCounterRead c hw s) :=
  match c with
  | .fab _ | .disp _ | .lost _ _ => .onUnit (.send (.modDeck h))
  | .drops _ => .onUnit (.send (.modFn h))

theorem Kept.execPowerUpStage {rep} : Kept (execPowerUpStage rep s) := by
  rintro _ ⟨⟩
  exact .powerUpStage (.ite h (.rebase h))

end Commands

/-! ### Every command, and every step -/

/-- Every command keeps the canonical form: tile instructions write through the byte stores, host commands and events reach a tile by its own operations. -/
theorem exec_kept (c : Instr) {s : State} (h : s.eng.Canon) : Kept (exec c s) := by
  unfold exec
  cases c with
  | add | sub | and | or | xor | sll | srl | sra | slt | sltu | min | max | minu | maxu | mul | mulh | mulhu | div | divu | rem | remu => exact .alu h
  | clz | ctz | popc => exact .alu1 h
  | lih => exact .execLih h
  | ldb | ldh | ldw | ldd | ldbu | ldhu | ldwu => exact .load h
  | stb | sth | stw | std => exact .store h
  | amoadd | amoswap | cas => exact .atomic h
  | vldr | vldc => exact .panelLoad h
  | vlds => exact .execVlds h
  | vstr | vstc => exact .panelStore h
  | vsts => exact .execVsts h
  | vunpk => exact .execVunpk h
  | beq | bne | blt | bge | bltu | bgeu => exact .branch h
  | jal => exact .execJal h
  | jalr => exact .execJalr h
  | fence => exact .execFence h
  | fenceI => exact .execFenceI h
  | tbar => exact .execTbar h
  | waitc => exact .execWaitc h
  | rdpace => exact .execRdpace h
  | rdcnt => exact .execRdcnt h
  | endThread => exact .execEndThread h
  | vadd | vsub | vmul | vfma | vdiv | vsqrt | vmin | vmax | vneg | vabs | vexp | vcmp | vsel | vlog | vbcast | vmov | vperm => exact .lanewise h
  | vcvt => exact .execVcvt h
  | vext => exact .execVext h
  | lplace => exact .execLplace h
  | lemitS => exact .execLemitS h
  | lemitB => exact .execLemitB h
  | ldivS => exact .execLdivS h
  | ldivB => exact .execLdivB h
  | lexp => exact .execLexp h
  | lclr => exact .execLclr h
  | lexpect => exact .execLexpect h
  | folds => exact .execFolds h
  | mma => exact .execMma h
  | mmaComplete => exact .onUnit (.modTile (fun _ k => .mmaDone k) h)
  | apass => exact .execApass h
  | attnPassEnd => exact .onUnit (.ite (.laneStart (.modTile (fun _ k => .passEnd k) h)) h)
  | mfill => exact .execMfill h
  | mcopy => exact .execMcopy h
  | mtrn => exact .execMtrn h
  | moverComplete => exact .onUnit (.modTile (fun _ k => .moverDone k) h)
  | nvrd => exact .execNvrd h
  | nvDescComplete => exact .onUnit (.nvDone h)
  | drd => exact .execDrd h
  | dwr => exact .execDwr h
  | dramDescComplete => exact .onUnit (.dramDone h)
  | portFault => exact .execPortFault h
  | send => exact .execSend h
  | sendComplete => exact .onUnit (.sendDone h)
  | recv => exact .execRecv h
  | msgDelivery => exact .onUnit (.delivers h)
  | rchk => exact .execRchk h
  | rget => exact .execRget h
  | waitTimeout => exact .onUnit (.waitExpired h)
  | taskGrant => exact .onUnit (.grantTask h)
  | taskRelease => exact .onUnit (.releaseTask h)
  | depSignal => exact .execDepSignal h
  | allSignalCombine => exact .onUnit (.combineAll h)
  | stepBegin => exact .onUnit (.stepBegin h)
  | scheduledActionHold => exact .onUnit (.actionHold h)
  | stepClose => exact .onUnit (.closeStep h)
  | stepHalt => exact .onUnit (.haltsStep h)
  | stepReexecute => exact .onUnit (.reexecute h)
  | promptFetch => exact .onUnit (.promptFetch h)
  | heldPacketWrite => exact .onUnit (.writeHeld h)
  | lossStoreDrain => exact .onUnit (.drainLosses h)
  | tokenDelivery => exact .onUnit (.deliverToken h)
  | statusDelivery => exact .onUnit (.deliverStatus h)
  | msixCoalesceTimeout => exact .onUnit (.ite (.fire h) h)
  | commandFetch => exact .onUnit (.fetchCommand h)
  | scheduledCommandApply => exact .onUnit (.scheduledApply h)
  | doorbell => exact .onUnit (.ite (.doorbellWrite h) h)
  | ringCfgEnable => exact .onUnit (.ringConfig h)
  | dwDataWrite => exact .onUnit (.dwWrite h)
  | dwLaunch => exact .onUnit (.dwLaunched h)
  | ledgerHeadRead => exact .execLedgerHeadRead h
  | ledgerAck => exact .onUnit (.modDeck h)
  | rcCounterRead => exact .execRcCounterRead h
  | vfAssignWrite => exact .onUnit (.assignVf h)
  | spRegionWrite => exact .onUnit (.modTile (fun _ k => .ite (.setRegion k) k) h)
  | registerWrite => exact .onUnit (.registerWrite h)
  | flr => exact .onUnit (.flrOf h)
  | pcieLinkDown => exact .onUnit (.linkDown h)
  | pcieLinkUp => exact .onUnit (.linkUpAgain h)
  | hotReset => exact .onUnit (.hotReset h)
  | reqSubmit | reqQuery | reqUpdate | reqPause | reqResume | reqCancel | reqRelease | reqAppend | reqDraft | imgFit | imgBegin | imgStream | imgEnd
  | imgAbort | imgPatch | imgTierLoad | imgRelease | imgQuery | keyEnrol | partBindFields | partBindImage | partMode | partPause |
  partResume | partReset | tenantSet | hemSet | kvReserve | graphLoad | graphUnload | graphQuery | adaptSave | adaptRestore | monRead | nwRead |
  nwWrite | histRead | histClear | tenantQuery | pwrState | thermQuery | throttleQuery | darnRead | darnRemap | rinseSet | selfTest |
  snapshot | restore | reset | journalRead | zportCtl | zportQuery | paceSrc | pairCfg | zrouteSet | pairTakeover => exact .heldCmd rfl h
  | tenantBind => exact .execTenantBind h
  | pwrCap => exact .execPwrCap h
  | schedWithdraw => exact .hostCmd (fun _ _ _ _ h => .runSchedWithdraw h) h
  | packetArrival => exact .onUnit (.packetArrival h)
  | foldCombine => exact .onUnit (.foldCombine h)
  | foldReceive => exact .onUnit (.foldReceive h)
  | hemReservation => exact .onUnit (.hemReserve h)
  | hemReservationReturn => exact .onUnit (.hemReturn h)
  | hemBucketRefill => exact .onEng (.modDeck (.modDeck h))
  | xstopDisabled => exact .onUnit (.xstopDisabled h)
  | proxyRead => exact .onUnit (.proxyRead h)
  | recoveryChainPage => exact .onUnit (.chainPageStep h)
  | rinsePass => exact .onUnit (.rinsePass h)
  | bankGuarded => exact .onUnit (.bankGuarded h)
  | guardConversionDone => exact .onUnit (.modTile (fun _ k => .modBank k) h)
  | guardWindowEnd => exact .onUnit (.guardWindowEnd h)
  | kvRinse => exact .onUnit (.kvRinse h)
  | dramRefresh => exact .onUnit (.dramRefresh h)
  | nvPatrol => exact .onUnit (.nvPatrol h)
  | slotZeroFillDone => exact .onUnit (.zeroFillDone h)
  | kvSpill => exact .onUnit (.kvSpill h)
  | kvReserveFetch => exact .onUnit (.kvFetch h)
  | reserveCacheFill => exact .onUnit (.cacheFill h)
  | blobTransfer => exact .onUnit (.transferBlobs h)
  | imprintEraseDone => exact .onEng (.eraseDone h)
  | imprintFrame => exact .onEng (.takeFrame h)
  | fieldVerify => exact .onUnit (.verifyField h)
  | imprintCommit => exact .onEng (.commitImage h)
  | repairWrite => exact .onUnit (.startRepair h)
  | repairWriteVerified => exact .onEng (.repairVerified h)
  | siteCovered => exact .onUnit (.siteCovered h)
  | strikeExpiry => exact .onUnit (.strikeExpiry h)
  | mapWindowStageDone => exact .onUnit (.mapStageDone h)
  | sliceReimprintVerified => exact .onUnit (.reimprinted h)
  | siteDark => exact .onUnit (.siteDark h)
  | fieldSetRebindStage => exact .onUnit (.rebindStage h)
  | zportSignalDetect | zportTrainDone | zportBackoffElapsed => exact .zevent (fun _ h1 => .zstate h1) h
  | zportTrainTimeout | zportAlignTimeout | zportCreditTimeout => exact .zevent (fun _ h1 => .zbackoff h1) h
  | zportAlignDone => exact .zevent (fun _ h1 => .zaligned h1) h
  | zportCreditDone => exact .zevent (fun _ h1 => .credited h1) h
  | zportLossOfSignal | zportReplayLimit => exact .zevent (fun _ h1 => .leaveUp h1) h
  | zportUpStable => exact .zevent (fun _ h1 => .modZport h1) h
  | zarogCodewordReceive => exact .zevent (fun _ h1 => .zcodeword h1) h
  | zarogNak => exact .zevent (fun _ h1 => .zreplay h1) h
  | linkFlit => exact .zevent (fun _ h1 => .zmoves (.modZport h1)) h
  | zarogPacketReceive => exact .zevent (fun _ h1 => .zpacket h1) h
  | zarogModuleInsert => exact .onUnit (.modZport h)
  | portConnectorFault => exact .onUnit (.connectorFault h)
  | paceExchange => exact .onUnit (.paceExchange h)
  | paceHoldover => exact .onEng (.cond (fun _ h1 => .enterHoldover h1) h)
  | paceLocked => exact .onEng (.paceLocked h)
  | epochPrepare => exact .onUnit (.epochPrepare h)
  | epochAck => exact .onUnit (.epochAck h)
  | epochDecision => exact .onUnit (.epochDecision h)
  | epochDeadline => exact .onUnit (.epochDeadline h)
  | epochDecisionResend => exact .onUnit (.decisionResend h)
  | spanAnnounce => exact .onUnit (.spanAnnounce h)
  | spanBatchReceive => exact .onUnit (.spanBatch h)
  | spanHandoff => exact .onUnit (.spanHandoff h)
  | spanRecordsReturn => exact .onUnit (.spanRecords h)
  | spanAcceptedPath => exact .onUnit (.spanPaths h)
  | pairHeartbeat => exact .onEng (.pairHeartbeat h)
  | pairHeartbeatLoss => exact .onEng (.heartbeatLoss h)
  | pairReady => exact .onUnit (.pairReady h)
  | mirrorDigest => exact .onUnit (.mirrorDigest h)
  | standbyReplication => exact .onUnit (.standbyReplication h)
  | replicationAck => exact .onUnit (.replicationAck h)
  | chairRequest => exact .onUnit (.chairRequest h)
  | chairOnlyWrite => exact .onUnit (.chairOnlyWrite h)
  | chairVote => exact .onUnit (.chairVote h)
  | chairClaimSample => exact .onEng (.sampleClaim (.sampleClaim h))
  | watchdogWrite => exact .onUnit (.ite (.modCtl h) h)
  | watchdogRestart => exact .onUnit (.watchdogRestart h)
  | controllerRestartDone => exact .onUnit (.restartDone h)
  | supervisorSelfCheck => exact .onEng (.ite h (.enterSafeHold h))
  | journalBucketRefill => exact .onEng (.modSup h)
  | feedLoss => exact .onEng (.feedLoss h)
  | feedSenseMated => exact .onEng (.modFeed h)
  | powerLoss => exact .onEng (.powerLoss h)
  | latchClear => exact .onEng (.latchClear h)
  | phaseOvercurrent => exact .onUnit (.phaseOvercurrent h)
  | phaseShed => exact .onUnit (.ite (.shedPhase h) h)
  | phaseDisagreement => exact .onUnit (.phaseDisagree h)
  | deckShort => exact .onUnit (.deckShort h)
  | softStartRetry => exact .onUnit (.softStartRetry h)
  | crackDrop => exact .onUnit (.crackDrop h)
  | capDecision => exact .onEng (.capDecision h)
  | periodicCommit => exact .onEng (.ite (.commitAll h) h)
  | cartridgeRemoval => exact .onEng (.cartridgeRemoval h)
  | cartridgeInsertion => exact .onEng (.cartridgeInsertion h)
  | cartridgeCharged => exact .onEng (.cartridgeCharged h)
  | cartridgeEstimatesDisagree => exact .onEng (.cartridgeDisagree h)
  | sensorSample => exact .onUnit (.sensorSample h)
  | thermalDecision => exact .onUnit (.thermalDecision h)
  | thermalTrip => exact .onUnit (.thermalTrip h)
  | coolantFlow => exact .onEng (.coolantFlow h)
  | flowRestoreTimeout => exact .onEng (.flowTimeout h)
  | leak => exact .onUnit (.leakSeen h)
  | intlkSample => exact .onEng (.intlkSample h)
  | pwrOnRequest => exact .onEng (.pwrOnRequest h)
  | powerUpStage => exact .execPowerUpStage h
  | powerDownStage => exact .onEng (.powerDownStage h)
  | resetTakeEffect => exact .onEng (.resetTakeEffect h)
  | snapshotCapture => exact .onEng (.snapshotCapture h)
  | snapshotCaptureDone => exact .onEng (.captureDone h)
  | restoreApply => exact .onEng (.restoreApply h)
  | monitorSample => exact .onEng (.monitorSample h)
  | feedReturn => exact .onEng (.feedReturn h)
  | coolantFlowRestored => exact .onEng (.flowRestored h)
  | bridgeLaneDisabled => exact .onUnit (.laneDisabled h)
  | cartridgeEndOfLife => exact .onEng (.ite h (.cartEvent (.modCart h)))
  | phaseDisagreementClear => exact .onUnit (.phaseAgree h)
  | ptpMessage => exact .onEng (.ptpMessage h)
  | paceInEdge => exact .onEng (.paceEdge h)
  | pairCfgTimeout => exact .onEng (.pairCfgTimeout h)

theorem tileWf_iff : tileWf ti = true ↔ ti.Canon := by simp [tileWf, Tile.Canon, and_assoc]

theorem stateWf_iff {s : State} : stateWf s = true ↔ s.eng.Canon ∧ s.now < 2 ^ 64 := by
  simp [stateWf, Engine.Canon, TilesCanon, tileWf_iff]

theorem idle_eng (s : State) : (idle s).eng = s.eng := by
  unfold idle
  split
  · rfl
  · rfl

theorem step_kept {s : State} (h : s.eng.Canon) : Kept (step s) := by
  cases hp : s.pending with
  | nil =>
    rw [step_nil hp]
    rintro _ ⟨⟩
    exact (idle_eng s).symm ▸ h
  | cons c rest => exact step_cons hp ▸ exec_kept c h

/-- Settles O4: every command keeps each tile's byte stores in canonical form, and PACE_NOW its 64 bits. -/
theorem canonicalFormKept : Obligations.CanonicalFormKept := by
  intro s t hs ht
  obtain ⟨hc, hn⟩ := stateWf_iff.mp hs
  exact stateWf_iff.mpr ⟨step_kept hc t ht, step_now_lt s t hn ht⟩

end Sys2Proof.Machine
end

section
/-!
PROOFS. The frame of a tile instruction that completes: what its thread and its tile keep, and the lanes of a vector register (R84, R88).
-/
namespace Sys2Proof.Machine

open Sys2Proof.Safety

/-! ### What an instruction sees -/

section Seen
variable (s : State) (h : Hart) (word : Word)

@[simp] theorem fetched_tile (e : Engine) (pc : Nat) :
    (e.fetched h pc word).tile h.loc = { e.tile h.loc with ibuf := mset (fun _ => 0) pc word (e.tile h.loc).ibuf } := by
  simp [Engine.fetched]

/-- An instruction sees its tile as it is, but for the instruction buffer. -/
theorem seen_ti : (seen s h word).ti =
    { s.eng.tile h.loc with ibuf := mset (fun _ => 0) (thr s h).pc.toNat word (s.eng.tile h.loc).ibuf } := fetched_tile h word _ _

theorem seen_freeCtr_tile (n : Nat) : ({ (seen s h word).e with freeCtr := n } : Engine).tile h.loc = (seen s h word).ti := rfl
@[simp] theorem seen_h : (seen s h word).h = h := rfl
@[simp] theorem seen_xn (r : BitVec 5) : (seen s h word).xn r = ((thr s h).x r).toNat := rfl
@[simp] theorem seen_i : (seen s h word).i = ((s.eng.tile h.loc).instOf (thr s h).task).getD {} := rfl
@[simp] theorem seen_freeCtr : (seen s h word).e.freeCtr = s.eng.freeCtr := rfl
@[simp] theorem seen_lreg (b i : Nat) : (seen s h word).ti.lreg b i = (s.eng.tile h.loc).lreg b i := by rw [seen_ti]; rfl
@[simp] theorem seen_bankBusy (b : Nat) : (seen s h word).ti.bankBusy b = (s.eng.tile h.loc).bankBusy b := by rw [seen_ti]; rfl
@[simp] theorem seen_firstOutside (i : Instance) (a n : Nat) : (seen s h word).ti.firstOutside i a n = (s.eng.tile h.loc).firstOutside i a n := by
  rw [seen_ti]; rfl
@[simp] theorem seen_fillingIn (a n : Nat) : (seen s h word).ti.fillingIn a n = (s.eng.tile h.loc).fillingIn a n := by rw [seen_ti]; rfl
@[simp] theorem seen_firstBad (a n : Nat) : (seen s h word).ti.firstBad a n = (s.eng.tile h.loc).firstBad a n := by rw [seen_ti]; rfl
@[simp] theorem seen_v (r : BitVec 5) :
    (seen s h word).v r = ((s.eng.tile h.loc).vreg ((thr s h).vctx.getD 0) r.toNat).toNat := by rw [Ctx.v, seen_ti]; rfl

/-- The bytes read do not depend on the word that is fetched. -/
theorem seen_bytes (word' : Word) (a n : Nat) : (seen s h word).bytes a n = (seen s h word').bytes a n := by
  simp only [Ctx.bytes, seen_ti, seen_freeCtr]; rfl

end Seen

/-! ### How an issue ends -/

theorem issuesVec_iff {s : State} {h : Hart} {w : Opnd} : issuesVec s h w = true ↔ issues s h w = true ∧ (thr s h).vctx.isSome = true := by
  simp [issuesVec]

section IssueEnds
variable {group op : Nat} {legal vec : Bool} {h : Hart} {w : Opnd} {body : Ctx → Iss} {s : State} {e : Engine} (hi : issues s h w = true)
  (hl : legal = true) (hv : vec = true → (thr s h).vctx.isSome = true)
include hi hl hv

theorem issue_done (hb : body (seen s h (wordOf group op w)) = .done e) : issue group op legal vec h w body s = .next (withEng s (advance h e)) := by
  rw [issue_body _ _ _ _ _ _ _ _ hi hl hv, hb, finish_done]

theorem issue_wait (hb : body (seen s h (wordOf group op w)) = .wait e) : issue group op legal vec h w body s = .next (withEng s (stalled s h e)) := by
  rw [issue_body _ _ _ _ _ _ _ _ hi hl hv, hb, finish_wait]

end IssueEnds

/-! ### Only the tile differs -/

theorem modTile_onlyTile {s : State} {e : Engine} {u : Loc} (ho : OnlyTile s (withEng s e) u) (f : Tile → Tile) :
    OnlyTile s (withEng s (e.modTile u f)) u where
  now := rfl
  pending := rfl
  engine := ho.engine
  tiles k hk := (mget_mmod_ne _ _ _ hk).trans (ho.tiles k hk)

theorem freeCtr_onlyTile {s : State} {e : Engine} {u : Loc} (ho : OnlyTile s (withEng s e) u) (n : Nat) :
    OnlyTile s (withEng s { e with freeCtr := n }) u where
  now := rfl
  pending := rfl
  engine := ho.engine
  tiles := ho.tiles

/-- The fetch changes the instruction buffer alone. -/
theorem onlyTile_seen (s : State) (h : Hart) (word : Word) : OnlyTile s (withEng s (seen s h word).e) h.loc := onlyTile_modTile s h.loc _

/-! ### An instruction that has completed -/

section Advance
variable (s : State) (h : Hart) {word : Word} {e : Engine}

@[simp] theorem advance_tile : (advance h e).tile h.loc =
    (e.tile h.loc).modThread h.thread (fun th => { th with pc := th.pc + 8, run := .running, since := 0 }) := Engine.modTile_tile ..

/-- The thread goes on at PC + 8; its scalar registers are as the instruction left them. -/
theorem thr_advance : thr (withEng s (advance h e)) h = { (e.tile h.loc).thread h.thread with
    pc := ((e.tile h.loc).thread h.thread).pc + 8, run := .running, since := 0 } := by simp [thr, withEng]

theorem advance_onlyTile (ho : OnlyTile s (withEng s e) h.loc) : OnlyTile s (withEng s (advance h e)) h.loc := by
  unfold advance
  exact modTile_onlyTile ho _

/-- The frame of an instruction that leaves the threads to `advance` and the instruction buffer to the fetch. -/
theorem issued_advance {keep : Tile → Tile → Tile} (ho : OnlyTile s (withEng s e) h.loc) (hth : (e.tile h.loc).threads = (s.eng.tile h.loc).threads)
    (hib : (e.tile h.loc).ibuf = (seen s h word).ti.ibuf)
    (hk : keep { e.tile h.loc with threads := (s.eng.tile h.loc).threads, ibuf := (s.eng.tile h.loc).ibuf } (s.eng.tile h.loc) = s.eng.tile h.loc) :
    Issued s (withEng s (advance h e)) h keep := by
  have ht : thr (withEng s (advance h e)) h = { thr s h with pc := (thr s h).pc + 8, run := .running, since := 0 } := by
    simp only [thr_advance, Tile.thread, hth]; rfl
  have hx : ∀ k, k ≠ h.thread → ((advance h e).tile h.loc).thread k = (s.eng.tile h.loc).thread k := fun k hne => by
    rw [advance_tile, Tile.modThread_thread_ne _ _ _ _ hne, Tile.thread, hth]; rfl
  refine ⟨advance_onlyTile s h ho, ?_, hx, fun a ha => ?_, ⟨?_, ?_, ?_, ?_⟩, fun r => ?_⟩
  · simp only [withEng, advance_tile]; exact hk
  · simp only [withEng, advance_tile, Tile.modThread, hib, seen_ti]
    exact mget_mset_ne _ _ _ ha
  all_goals rw [ht]
  rfl

/-- A vector register written. -/
theorem vecResult_writeV (ho : OnlyTile s (withEng s e) h.loc) (ht : e.tile h.loc = (seen s h word).ti) (d : BitVec 5) (v : Nat) :
    VecResult s (withEng s (advance h ((seen s h word).writeV d v e))) h d (BitVec.ofNat 2048 v) := by
  have he : ((seen s h word).writeV d v e).tile h.loc = { (seen s h word).ti with
      vregs := mset (fun _ => 0) ((thr s h).vctx.getD 0 * 32 + d.toNat) (BitVec.ofNat 2048 v) (seen s h word).ti.vregs } :=
    (Engine.modTile_tile ..).trans (by rw [seen_h, ht]; rfl)
  have hw : OnlyTile s (withEng s ((seen s h word).writeV d v e)) h.loc := modTile_onlyTile ho _
  have hi : Issued s (withEng s (advance h ((seen s h word).writeV d v e))) h (fun a b => { a with vregs := b.vregs }) :=
    issued_advance s h hw (by rw [he, seen_ti]) (by rw [he]) (by rw [he, seen_ti])
  refine ⟨hi.only, by simpa only using hi.tile, hi.threads, hi.ibuf, ?_, fun c r hne => ?_, hi.goes, hi.regs⟩
  · simp only [withEng, advance_tile, he, Tile.vreg, Tile.modThread, mget_mset_same]
  · simp only [withEng, advance_tile, he, Tile.vreg, Tile.modThread, seen_ti, mget_mset_ne _ _ _ hne]

/-- The same after reads that have moved the counter of free values. -/
theorem vecResult_writeV_freeCtr (n : Nat) (d : BitVec 5) (v : Nat) :
    VecResult s (withEng s (advance h ((seen s h word).writeV d v { (seen s h word).e with freeCtr := n }))) h d (BitVec.ofNat 2048 v) :=
  vecResult_writeV s h (freeCtr_onlyTile (onlyTile_seen s h word) n) (seen_freeCtr_tile s h word n) d v

/-- A write of a scalar register changes nothing else of the thread. -/
theorem Thread.setX_frame (th : Thread) (d : BitVec 5) (v : Word) : ∃ m, th.setX d v = { th with regs := m } := by
  unfold Thread.setX
  split
  · exact ⟨th.regs, rfl⟩
  · exact ⟨_, rfl⟩

/-- A scalar register written. -/
theorem regResult_writeX (d : BitVec 5) (v : Word) : RegResult s (withEng s (advance h ((seen s h word).writeX d v (seen s h word).e))) h d v := by
  have he : ((seen s h word).writeX d v (seen s h word).e).tile h.loc = (seen s h word).ti.modThread h.thread (fun th => th.setX d v) :=
    Engine.modTile_tile ..
  have hs : (seen s h word).ti.thread h.thread = thr s h := by rw [seen_ti]; rfl
  have ht : thr (withEng s (advance h ((seen s h word).writeX d v (seen s h word).e))) h =
      { (thr s h).setX d v with pc := ((thr s h).setX d v).pc + 8, run := .running, since := 0 } := by
    rw [thr_advance, he, Tile.modThread_thread, hs]
  have hx : ∀ r, (thr (withEng s (advance h ((seen s h word).writeX d v (seen s h word).e))) h).x r = ((thr s h).setX d v).x r := by
    intro r; rw [ht]; rfl
  obtain ⟨m, hm⟩ := Thread.setX_frame (thr s h) d v
  refine ⟨⟨advance_onlyTile s h (modTile_onlyTile (onlyTile_seen s h word) _), ?_, fun k hk => ?_, fun a ha => ?_⟩,
    ⟨by rw [ht, hm], by rw [ht], by rw [ht], by rw [ht, hm]⟩, ⟨by rw [hx, Thread.x_setX, if_pos rfl], fun r hne => ?_⟩⟩
  · simp only [withEng, advance_tile, he, seen_ti, Tile.modThread]
  · simp only [withEng, advance_tile, he, Tile.modThread_thread_ne _ _ _ _ hk, seen_ti]; rfl
  · simp only [withEng, advance_tile, he, Tile.modThread, seen_ti]
    exact mget_mset_ne _ _ _ ha
  · rw [hx, Thread.x_setX, if_neg hne]
    split
    · next h0 => subst h0; rfl
    · rfl

end Advance

/-! ### Lanes of a vector register (R88) -/

theorem lane_eq {w : Nat} (hw : 0 < w) (v k : Nat) : lane w v k = v / 2 ^ (w * k) % 2 ^ w := by
  have : w * k + w - 1 + 1 - w * k = w := by omega
  rw [lane, fld, this, Nat.shiftRight_eq_div_pow]

theorem lane_lt {w : Nat} (hw : 0 < w) (v k : Nat) : lane w v k < 2 ^ w := by
  rw [lane_eq hw]; exact Nat.mod_lt _ (Nat.two_pow_pos w)

theorem ofLanes_lt (w : Nat) (l : List Nat) : ofLanes w l < 2 ^ (w * l.length) := by
  induction l with
  | nil => simp [ofLanes]
  | cons x r ih =>
    have hx : x % 2 ^ w < 2 ^ w := Nat.mod_lt _ (Nat.two_pow_pos w)
    have hm : 2 ^ w * (ofLanes w r + 1) ≤ 2 ^ w * 2 ^ (w * r.length) := Nat.mul_le_mul_left _ ih
    rw [ofLanes, List.length_cons, Nat.mul_succ, Nat.add_comm (w * r.length), Nat.pow_add]
    rw [Nat.mul_succ] at hm
    omega

/-- Lane k of a register made of lanes. -/
theorem lane_ofLanes {w : Nat} (hw : 0 < w) (l : List Nat) (k : Nat) : lane w (ofLanes w l) k = l.getD k 0 % 2 ^ w := by
  rw [lane_eq hw]
  induction l generalizing k with
  | nil => simp [ofLanes]
  | cons x r ih =>
    cases k with
    | zero => simp [ofLanes, Nat.add_mul_mod_self_left]
    | succ k =>
      rw [ofLanes, Nat.mul_succ, Nat.add_comm (w * k), Nat.pow_add, ← Nat.div_div_eq_div_mul, Nat.add_mul_div_left _ _ (Nat.two_pow_pos w),
        Nat.div_eq_of_lt (Nat.mod_lt _ (Nat.two_pow_pos w)), Nat.zero_add, ih, List.getD_cons_succ]

/-- Lane k of n lanes that a function gives. -/
theorem lane_ofLanes_range {w n : Nat} (hw : 0 < w) (f : Nat → Nat) {k : Nat} (hk : k < n) :
    lane w (ofLanes w ((List.range n).map f)) k = f k % 2 ^ w := by
  rw [lane_ofLanes hw, List.getD_eq_getElem?_getD, List.getElem?_map, List.getElem?_range hk]; rfl

/-- Lanes that fill a vector register fit it. -/
theorem toNat_ofLanes_range {w n : Nat} (hn : w * n = 2048) (f : Nat → Nat) :
    (BitVec.ofNat 2048 (ofLanes w ((List.range n).map f))).toNat = ofLanes w ((List.range n).map f) := by
  have := ofLanes_lt w ((List.range n).map f)
  rw [List.length_map, List.length_range] at this
  rw [BitVec.toNat_ofNat, ← hn, Nat.mod_eq_of_lt this]

/-- A field of a vector register is one of its lanes. -/
theorem extractLsb'_eq_lane {w : Nat} (hw : 0 < w) (v : Vec) (k : Nat) : v.extractLsb' (w * k) w = BitVec.ofNat w (lane w v.toNat k) := by
  apply BitVec.eq_of_toNat_eq
  rw [BitVec.extractLsb'_toNat, BitVec.toNat_ofNat, Nat.mod_eq_of_lt (lane_lt hw _ _), lane_eq hw, Nat.shiftRight_eq_div_pow]

theorem laneW_pos (bf : Bool) : 0 < laneW bf := by cases bf <;> decide

theorem laneW_mul_laneN (bf : Bool) : laneW bf * laneN bf = 2048 := by cases bf <;> rfl

/-- The lanes of a whole register that a function gives, in the format `bf` names. -/
theorem lane_ofNat_ofLanes (bf : Bool) (f : Nat → Nat) {k : Nat} (hk : k < laneN bf) :
    lane (laneW bf) (BitVec.ofNat 2048 (ofLanes (laneW bf) ((List.range (laneN bf)).map f))).toNat k = f k % 2 ^ laneW bf := by
  rw [toNat_ofLanes_range (laneW_mul_laneN bf), lane_ofLanes_range (laneW_pos bf) f hk]

end Sys2Proof.Machine
end

section
/-!
PROOFS. Vector arithmetic (R134 to R137): a lane-wise instruction gives every lane of vD; VCVT converts a register, VEXT reads one lane.
-/
namespace Sys2Proof.Machine

open Sys2Proof.Safety

/-- A lane-wise instruction writes its function of the lanes into every lane of vD. -/
theorem lanewise_result {s : State} {h : Hart} {w : Opnd} {i : Instr} (hi : issuesVec s h w = true) {op sub : Nat} {b c : Bool}
    {f : Ctx → Opnd → Nat → Nat} {g : Nat → Nat} (he : exec i s = lanewise op b c sub f h w s)
    (hg : ∀ k, f (seen s h (wordOf 3 op w)) w k % 2 ^ laneW (isBf w) = g k % 2 ^ laneW (isBf w)) (hl : vlegal b c sub w = true) :
    ∃ t v, exec i s = .next t ∧ VecResult s t h w.d v ∧
      ∀ k < laneN (isBf w), lane (laneW (isBf w)) v.toNat k = g k % 2 ^ laneW (isBf w) := by
  obtain ⟨hr, hv⟩ := issuesVec_iff.mp hi
  exact ⟨_, _, he.trans (issue_done hr hl (fun _ => hv) rfl), vecResult_writeV s h (onlyTile_seen ..) rfl w.d _,
    fun k hk => (lane_ofNat_ofLanes _ _ hk).trans (hg k)⟩

theorem execVcvt_result {s : State} {h : Hart} {w : Opnd} (hi : issuesVec s h w = true)
    (hl : (vlegal (mod w 29 26 == 0) false 4 w && !isBf w) = true) :
    ∃ t, exec (.vcvt h w) s = .next t ∧ VecResult s t h w.d (BitVec.ofNat 2048 (vcvt (mod w 29 26) ((seen s h 0).v w.a) ((seen s h 0).v w.b))) := by
  obtain ⟨hr, hv⟩ := issuesVec_iff.mp hi
  refine ⟨_, issue_done hr hl (fun _ => hv) rfl, ?_⟩
  simp only [seen_v]
  exact vecResult_writeV s h (onlyTile_seen ..) rfl w.d _

theorem execVext_result {s : State} {h : Hart} {w : Opnd} (hi : issuesVec s h w = true)
    (hl : fieldsOk true true false false w (decide (mod w 31 30 ≤ 1) && mod w 29 7 == 0 && decide (mod w 6 0 < laneN (isBf w))) = true) :
    ∃ t, exec (.vext h w) s = .next t ∧ RegResult s t h w.d (BitVec.ofNat 64 (raw (seen s h 0) w w.a (mod w 6 0))) := by
  obtain ⟨hr, hv⟩ := issuesVec_iff.mp hi
  refine ⟨_, issue_done hr hl (fun _ => hv) rfl, ?_⟩
  simp only [raw, seen_v]
  exact regResult_writeX s h w.d _

/-- Settles O15: a row for each lane-wise instruction, VCVT and VEXT by themselves. -/
theorem laneResults : Obligations.LaneResults := by
  refine ⟨fun s h w hi => ?_, fun s h w hi => ⟨execVcvt_result hi, execVext_result hi⟩⟩
  simp only [List.forall_mem_cons]
  refine ⟨lanewise_result hi (show _ = execVadd h w s from rfl) (fun k => ?_),
    lanewise_result hi (show _ = execVsub h w s from rfl) (fun k => ?_),
    lanewise_result hi (show _ = execVmul h w s from rfl) (fun k => ?_),
    lanewise_result hi (show _ = execVfma h w s from rfl) (fun k => ?_),
    lanewise_result hi (show _ = execVdiv h w s from rfl) (fun k => ?_),
    lanewise_result hi (show _ = execVsqrt h w s from rfl) (fun k => ?_),
    lanewise_result hi (show _ = execVmin h w s from rfl) (fun k => ?_),
    lanewise_result hi (show _ = execVmax h w s from rfl) (fun k => ?_),
    lanewise_result hi (show _ = execVneg h w s from rfl) (fun k => ?_),
    lanewise_result hi (show _ = execVabs h w s from rfl) (fun k => ?_),
    lanewise_result hi (show _ = execVexp h w s from rfl) (fun k => ?_),
    lanewise_result hi (show _ = execVcmp h w s from rfl) (fun k => ?_),
    lanewise_result hi (show _ = execVsel h w s from rfl) (fun k => ?_),
    lanewise_result hi (show _ = execVlog h w s from rfl) (fun k => ?_),
    lanewise_result hi (show _ = execVbcast h w s from rfl) (fun k => ?_),
    lanewise_result hi (show _ = execVmov h w s from rfl) (fun k => ?_),
    lanewise_result hi (show _ = execVperm h w s from rfl) (fun k => ?_),
    fun _ hp => nomatch hp⟩
  all_goals simp only [la, lb, lc, raw, signBit, seen_v, seen_xn, Nat.mod_mod]

end Sys2Proof.Machine
end

section
/-!
PROOFS. Vector loads and stores and VUNPK (R126, R128, R151, R159): the checks that pass, the words of a vector store, the lanes of a
vector load, and the block that VUNPK reads.
-/
namespace Sys2Proof.Machine

open Sys2Proof.Safety

/-! ### Checks that pass (R105, R119, R167) -/

theorem check_of {ok : Bool} (h : ok = true) (x : Cause) (d : Nat) (k : Iss) : check ok x d k = k := if_pos h

theorem aligned_of {a m : Nat} (h : a % m = 0) (k : Iss) : aligned a m k = k := check_of (beq_iff_eq.mpr h) ..

section Checks
variable {c : Ctx} {a n : Nat} (k : Iss)

theorem Ctx.checkFree_of {ok : Bool} (h : ok = true) (x : Cause) : c.checkFree ok x k = k := if_pos h

theorem Ctx.claim_of (h : c.ti.firstOutside c.i a n = none) : c.claim a n k = k := by rw [Ctx.claim, h]

theorem Ctx.notFilling_of (h : c.ti.firstFilling a n = none) : c.notFilling a n k = k := by rw [Ctx.notFilling, h]

theorem Ctx.reading_of (hf : c.ti.fillingIn a n = false) (hb : c.ti.firstBad a n = none) : c.reading a n k = k := by
  rw [Ctx.reading, hf, hb]; rfl

theorem Ctx.granted_of {b : Nat} (h : c.i.banks.testBit b = true) : c.granted b k = k := check_of h ..

end Checks

/-- A read moves the counter of free values and nothing else. -/
theorem Ctx.afterRead_eq (c : Ctx) (a n : Nat) : ∃ m, c.afterRead a n = { c.e with freeCtr := m } := by
  unfold Ctx.afterRead
  split
  · exact ⟨_, rfl⟩
  · exact ⟨c.e.freeCtr, rfl⟩

/-! ### Fields of an operand word -/

theorem mod_31_5_eq_zero (w : Opnd) : (mod w 31 5 == 0) = decide (w.imm.toNat < 32) := by
  have := w.imm.isLt
  rw [Bool.eq_iff_iff, beq_iff_eq, decide_eq_true_eq, mod, fld, Nat.shiftRight_eq_div_pow]
  omega

theorem mod_low (w : Opnd) (n : Nat) : mod w n 0 = (w.imm.extractLsb' 0 (n + 1)).toNat := by
  rw [BitVec.extractLsb'_toNat]; rfl

/-! ### Words of scratchpad -/

theorem natBytes_getD (v n i : Nat) (hi : i < n) : (natBytes v n).getD i 0 = BitVec.ofNat 8 (v / 2 ^ (8 * i)) := by
  induction n generalizing v i with
  | zero => omega
  | succ n ih =>
    cases i with
    | zero => simp [natBytes]
    | succ i =>
      rw [natBytes, List.getD_cons_succ, ih _ _ (by omega), Nat.div_div_eq_div_mul, Nat.mul_succ, Nat.pow_add, Nat.mul_comm (2 ^ (8 * i))]

/-- Byte i of lane k of width 64. -/
theorem byte_of_lane (v k : Nat) {i : Nat} (hi : i < 8) : BitVec.ofNat 8 (lane 64 v k / 2 ^ (8 * i)) = BitVec.ofNat 8 (v / 2 ^ (64 * k + 8 * i)) := by
  apply BitVec.eq_of_getLsbD_eq
  intro j hj
  have : j + 8 * i < 64 := by omega
  have hs : j + 8 * i + 64 * k = j + (64 * k + 8 * i) := by omega
  rw [BitVec.getLsbD_ofNat, BitVec.getLsbD_ofNat, lane_eq (by decide), Nat.testBit_div_two_pow, Nat.testBit_mod_two_pow, Nat.testBit_div_two_pow,
    Nat.testBit_div_two_pow, hs]
  simp [this]

/-- The words `val 0` to `val (n - 1)` stored at their addresses, in that order. -/
def Tile.storeEach (ti : Tile) (addr val : Nat → Nat) (n : Nat) : Tile := (List.range n).foldl (fun ti k => ti.store (addr k) (natBytes (val k) 8)) ti

section StoreEach
variable (ti : Tile) (addr val : Nat → Nat) (n : Nat)

theorem Tile.storeEach_succ : ti.storeEach addr val (n + 1) = (ti.storeEach addr val n).store (addr n) (natBytes (val n) 8) := by
  simp [Tile.storeEach, List.range_succ]

theorem Tile.storeEach_frame : ti.storeEach addr val n =
    { ti with sp := (ti.storeEach addr val n).sp, badWords := (ti.storeEach addr val n).badWords } := by
  induction n with
  | zero => rfl
  | succ n ih => rw [Tile.storeEach_succ, Tile.store, ih]

theorem Tile.readByte_store (a b : Nat) (bs : List Byte) :
    readByte (ti.store a bs).sp b = if a ≤ b ∧ b < a + bs.length then bs.getD (b - a) 0 else readByte ti.sp b := readByte_writeBytes ..

theorem Tile.readByte_storeEach_outside {x : Nat} (hx : ∀ k < n, x < addr k ∨ addr k + 8 ≤ x) :
    readByte (ti.storeEach addr val n).sp x = readByte ti.sp x := by
  induction n with
  | zero => rfl
  | succ n ih =>
    have := hx n (by omega)
    rw [Tile.storeEach_succ, Tile.readByte_store, natBytes_length, if_neg (by omega), ih (fun k hk => hx k (by omega))]

/-- The last word stored at an address is the one that stays there. -/
theorem Tile.readByte_storeEach (hal : ∀ k < n, addr k % 8 = 0) {k i : Nat} (hk : k < n) (hlast : ∀ m < n, k < m → addr m ≠ addr k)
    (hi : i < 8) :
    readByte (ti.storeEach addr val n).sp (addr k + i) = BitVec.ofNat 8 (val k / 2 ^ (8 * i)) := by
  induction n with
  | zero => omega
  | succ n ih =>
    rw [Tile.storeEach_succ, Tile.readByte_store, natBytes_length]
    by_cases hkn : k = n
    · subst hkn
      rw [if_pos (by omega), Nat.add_sub_cancel_left, natBytes_getD _ _ _ hi]
    · have hne := hlast n (by omega) (by omega)
      have h1 := hal n (by omega)
      have h2 := hal k hk
      rw [if_neg (by omega), ih (fun m hm => hal m (by omega)) (by omega) (fun m hm => hlast m (by omega))]

theorem Tile.mem_badWords_store (a x : Nat) (bs : List Byte) :
    x ∈ (ti.store a bs).badWords ↔ x ∈ ti.badWords ∧ ¬ (a ≤ 8 * x ∧ 8 * x + 8 ≤ a + bs.length) := by
  simp only [Tile.store, List.mem_filter, Bool.not_eq_true', Bool.and_eq_false_iff, decide_eq_false_iff_not, not_and_or]

theorem Tile.mem_badWords_storeEach (x : Nat) :
    x ∈ (ti.storeEach addr val n).badWords ↔ x ∈ ti.badWords ∧ ∀ k < n, addr k ≠ 8 * x := by
  induction n with
  | zero => simp [Tile.storeEach]
  | succ n ih =>
    rw [Tile.storeEach_succ, Tile.mem_badWords_store, ih, natBytes_length, Nat.forall_lt_succ_right, and_assoc]
    refine and_congr_right fun _ => and_congr_right fun _ => ?_
    omega

end StoreEach

/-! ### Vector loads -/

/-- A field of a vector register made of n lanes. -/
theorem extractLsb'_ofLanes {w n : Nat} (hw : 0 < w) (hn : w * n = 2048) (f : Nat → Nat) {k : Nat} (hk : k < n) :
    BitVec.extractLsb' (w * k) w (BitVec.ofNat 2048 (ofLanes w ((List.range n).map f))) = BitVec.ofNat w (f k) := by
  rw [extractLsb'_eq_lane hw, toNat_ofLanes_range hn, lane_ofLanes_range hw f hk]
  exact BitVec.eq_of_toNat_eq (by simp)

theorem loadWords_done {c : Ctx} {d : BitVec 5} {addr : Nat → Nat}
    (h : ∀ k < 32, c.ti.firstOutside c.i (addr k) 8 = none ∧ c.ti.fillingIn (addr k) 8 = false ∧ c.ti.firstBad (addr k) 8 = none) :
    ∃ n, loadWords c d addr =
      .done (c.writeV d (ofLanes 64 ((List.range 32).map (fun k => leNat (c.bytes (addr k) 8)))) { c.e with freeCtr := n }) := by
  have ho : c.firstOutsideWords addr = none := List.findSome?_eq_none_iff.mpr fun k hk => (h k (List.mem_range.mp hk)).1
  have hf : (List.range 32).any (fun k => c.ti.fillingIn (addr k) 8) = false :=
    List.any_eq_false.mpr fun k hk => by simp [(h k (List.mem_range.mp hk)).2.1]
  have hb : (List.range 32).findSome? (fun k => c.ti.firstBad (addr k) 8) = none :=
    List.findSome?_eq_none_iff.mpr fun k hk => (h k (List.mem_range.mp hk)).2.2
  unfold loadWords
  simp only [ho, hf, hb, Bool.false_eq_true, if_false]
  split
  · exact ⟨_, rfl⟩
  · exact ⟨c.e.freeCtr, rfl⟩

/-- The instruction completes with lane pair k of vector register d the word at `addr k`, and changes nothing else. -/
def LoadsWords (s : State) (i : Instr) (h : Hart) (d : BitVec 5) (addr : Nat → Nat) : Prop :=
  ∃ t v, exec i s = .next t ∧ VecResult s t h d v ∧
    ∀ k < 32, v.extractLsb' (64 * k) 64 = BitVec.ofNat 64 (leNat ((seen s h 0).bytes (addr k) 8))

section Load
variable {s : State} {h : Hart} {w : Opnd} {i : Instr} {op : Nat} {legal : Bool} {body : Ctx → Iss} {addr : Nat → Nat} (hi : issuesVec s h w = true)
  (ha : ∀ k < 32, (seen s h 0).ti.firstOutside (seen s h 0).i (addr k) 8 = none ∧ (seen s h 0).ti.fillingIn (addr k) 8 = false ∧
    (seen s h 0).ti.firstBad (addr k) 8 = none)
include hi ha

/-- An instruction that loads the words at `addr` into vD. -/
theorem vectorLoad_result (he : exec i s = issue 1 op legal true h w body s) (hl : legal = true)
    (hb : body (seen s h (wordOf 1 op w)) = loadWords (seen s h (wordOf 1 op w)) w.d addr) :
    LoadsWords s i h w.d addr := by
  obtain ⟨hr, hv⟩ := issuesVec_iff.mp hi
  obtain ⟨n, hd⟩ := loadWords_done (c := seen s h (wordOf 1 op w)) (d := w.d) (addr := addr) 
    (by simpa only [seen_firstOutside, seen_fillingIn, seen_firstBad, seen_i] using ha)
  refine ⟨_, _, he.trans (issue_done hr hl (fun _ => hv) (hb.trans hd)), vecResult_writeV_freeCtr s h n w.d _, fun k hk => ?_⟩
  rw [extractLsb'_ofLanes (by decide) (by decide) _ hk, seen_bytes s h _ 0]

/-- VLDR and VLDC, by their address function. -/
theorem panelLoad_result {g : Nat → Nat → Nat → Nat} (he : exec i s = panelLoad op g h w s)
    (hl : (fieldsOk true true false false w (decide (w.imm.toNat < 32)) && ((thr s h).x w.a).toNat % 8192 == 0) = true)
    (hg : ∀ k, addr k = g ((thr s h).x w.a).toNat (w.imm.extractLsb' 0 5).toNat k) :
    LoadsWords s i h w.d addr := by
  obtain ⟨hf, hal⟩ := Bool.and_eq_true_iff.mp hl
  refine vectorLoad_result hi ha he (by rw [mod_31_5_eq_zero, hf]) ?_
  rw [seen_xn, aligned_of (beq_iff_eq.mp hal), mod_low, ← funext hg]

theorem vlds_result (hl : (fieldsOk true true true false w (w.imm == 0) && ((thr s h).x w.a).toNat % 8 == 0 && ((thr s h).x w.b).toNat % 8 == 0) = true)
    (hg : ∀ k, addr k = strided ((thr s h).x w.a).toNat ((thr s h).x w.b).toNat k) :
    LoadsWords s (.vlds h w) h w.d addr := by
  simp only [Bool.and_eq_true] at hl
  obtain ⟨⟨hf, hal⟩, hbl⟩ := hl
  refine vectorLoad_result hi ha (show _ = execVlds h w s from rfl) hf ?_
  rw [seen_xn, seen_xn, aligned_of (beq_iff_eq.mp hal), Ctx.checkFree_of _ hbl, ← funext hg]

end Load

/-! ### Vector stores -/

theorem storeWords_done {c : Ctx} {r : BitVec 5} {addr : Nat → Nat}
    (h : ∀ k < 32, c.ti.firstOutside c.i (addr k) 8 = none ∧ c.ti.fillingIn (addr k) 8 = false) :
    storeWords c r addr = .done (c.modTile (fun ti => ti.storeEach addr (lane 64 (c.v r)) 32)) := by
  have ho : c.firstOutsideWords addr = none := List.findSome?_eq_none_iff.mpr fun k hk => (h k (List.mem_range.mp hk)).1
  have hf : (List.range 32).find? (fun k => c.ti.fillingIn (addr k) 8) = none :=
    List.find?_eq_none.mpr fun k hk => by simp [(h k (List.mem_range.mp hk)).2]
  unfold storeWords
  simp only [ho, hf]
  rfl

/-- What a vector store of the register content `v` at `addr` leaves in the tile, and its frame. -/
def WordsStored (s t : State) (h : Hart) (v : Nat) (addr : Nat → Nat) : Prop :=
  Issued s t h (fun a b => { a with sp := b.sp, badWords := b.badWords }) ∧
    (∀ k < 32, (∀ m < 32, k < m → addr m ≠ addr k) → ∀ n < 8,
      readByte (t.eng.tile h.loc).sp (addr k + n) = BitVec.ofNat 8 (v / 2 ^ (64 * k + 8 * n))) ∧
    (∀ x, (∀ k < 32, x < addr k ∨ addr k + 8 ≤ x) → readByte (t.eng.tile h.loc).sp x = readByte (s.eng.tile h.loc).sp x) ∧
    ∀ x, x ∈ (t.eng.tile h.loc).badWords ↔ x ∈ (s.eng.tile h.loc).badWords ∧ ∀ k < 32, addr k ≠ 8 * x

/-- An instruction that has changed scratchpad bytes alone. -/
theorem issued_scratchpad (s : State) (h : Hart) {word : Word} {e : Engine} {m : Memory} {b : List Nat} (ho : OnlyTile s (withEng s e) h.loc)
    (he : e.tile h.loc = { (seen s h word).ti with sp := m, badWords := b }) :
    Issued s (withEng s (advance h e)) h (fun a b => { a with sp := b.sp, badWords := b.badWords }) :=
  issued_advance s h (word := word) ho (by rw [he, seen_ti]) (by rw [he]) (by rw [he, seen_ti])

/-- The words stored, read at the end of the instruction. -/
theorem wordsStored_advance (s : State) (h : Hart) {word : Word} (v : Nat) (addr : Nat → Nat) (hal : ∀ k, addr k % 8 = 0) :
    WordsStored s (withEng s (advance h ((seen s h word).modTile (fun ti => ti.storeEach addr (lane 64 v) 32)))) h v addr := by
  have he : ((seen s h word).modTile (fun ti => ti.storeEach addr (lane 64 v) 32)).tile h.loc =
      (seen s h word).ti.storeEach addr (lane 64 v) 32 := Engine.modTile_tile ..
  refine ⟨issued_scratchpad s h (word := word) (modTile_onlyTile (onlyTile_seen s h word) _) (he.trans (Tile.storeEach_frame ..)),
    fun k hk hlast n hn => ?_, fun x hx => ?_, fun x => ?_⟩
  · simp only [withEng, advance_tile, Tile.modThread, he]
    rw [Tile.readByte_storeEach _ _ _ _ (fun k _ => hal k) hk hlast hn, byte_of_lane _ _ hn]
  · simp only [withEng, advance_tile, Tile.modThread, he]
    rw [Tile.readByte_storeEach_outside _ _ _ _ hx, seen_ti]
  · simp only [withEng, advance_tile, Tile.modThread, he]
    rw [Tile.mem_badWords_storeEach, seen_ti]

theorem rowWord_mod_8 {p : Nat} (hp : p % 8192 = 0) (j k : Nat) : rowWord p j k % 8 = 0 := by unfold rowWord; omega

theorem colWord_mod_8 {p : Nat} (hp : p % 8192 = 0) (j k : Nat) : colWord p j k % 8 = 0 := by unfold colWord; omega

theorem strided_mod_8 {a b : Nat} (ha : a % 8 = 0) (hb : b % 8 = 0) (k : Nat) : strided a b k % 8 = 0 := by
  have h8 : (8 : Nat) ∣ 2 ^ 64 := by decide
  rw [strided, Nat.mod_mod_of_dvd _ h8]
  exact Nat.mod_eq_zero_of_dvd (Nat.dvd_add (Nat.dvd_of_mod_eq_zero ha) ((Nat.dvd_of_mod_eq_zero hb).mul_left k))

section Store
variable {s : State} {h : Hart} {w : Opnd} {i : Instr} {op : Nat} {legal : Bool} {body : Ctx → Iss} {addr : Nat → Nat} (hi : issuesVec s h w = true)
  (ha : ∀ k < 32, (seen s h 0).ti.firstOutside (seen s h 0).i (addr k) 8 = none ∧ (seen s h 0).ti.fillingIn (addr k) 8 = false)
include hi ha

/-- An instruction that stores vC at `addr`. -/
theorem vectorStore_result (hal : ∀ k, addr k % 8 = 0) (he : exec i s = issue 1 op legal true h w body s) (hl : legal = true)
    (hb : body (seen s h (wordOf 1 op w)) = storeWords (seen s h (wordOf 1 op w)) w.c addr) :
    ∃ t, exec i s = .next t ∧ WordsStored s t h ((seen s h 0).v w.c) addr := by
  obtain ⟨hr, hv⟩ := issuesVec_iff.mp hi
  have hd := storeWords_done (c := seen s h (wordOf 1 op w)) (r := w.c) (addr := addr)
    (by simpa only [seen_firstOutside, seen_fillingIn, seen_i] using ha)
  refine ⟨_, he.trans (issue_done hr hl (fun _ => hv) (hb.trans hd)), ?_⟩
  simp only [seen_v]
  exact wordsStored_advance s h _ addr hal

/-- VSTR and VSTC, by their address function. -/
theorem panelStore_result {g : Nat → Nat → Nat → Nat} (he : exec i s = panelStore op g h w s)
    (hl : (fieldsOk false true false true w (decide (w.imm.toNat < 32)) && ((thr s h).x w.a).toNat % 8192 == 0) = true)
    (hg : ∀ k, addr k = g ((thr s h).x w.a).toNat (w.imm.extractLsb' 0 5).toNat k)
    (h8 : ∀ {p}, p % 8192 = 0 → ∀ j k, g p j k % 8 = 0) : ∃ t, exec i s = .next t ∧ WordsStored s t h ((seen s h 0).v w.c) addr := by
  obtain ⟨hf, hal⟩ := Bool.and_eq_true_iff.mp hl
  refine vectorStore_result hi ha (fun k => hg k ▸ h8 (beq_iff_eq.mp hal) _ k) he (by rw [mod_31_5_eq_zero, hf]) ?_
  rw [seen_xn, aligned_of (beq_iff_eq.mp hal), mod_low, ← funext hg]

theorem vsts_result (hl : (fieldsOk false true true true w (w.imm == 0) && ((thr s h).x w.a).toNat % 8 == 0 && ((thr s h).x w.b).toNat % 8 == 0) = true)
    (hg : ∀ k, addr k = strided ((thr s h).x w.a).toNat ((thr s h).x w.b).toNat k) :
    ∃ t, exec (.vsts h w) s = .next t ∧ WordsStored s t h ((seen s h 0).v w.c) addr := by
  simp only [Bool.and_eq_true] at hl
  obtain ⟨⟨hf, hal⟩, hbl⟩ := hl
  refine vectorStore_result hi ha (fun k => hg k ▸ strided_mod_8 (beq_iff_eq.mp hal) (beq_iff_eq.mp hbl) k) (show _ = execVsts h w s from rfl) hf ?_
  rw [seen_xn, seen_xn, aligned_of (beq_iff_eq.mp hal), Ctx.checkFree_of _ hbl, ← funext hg]

end Store

/-! ### VUNPK -/

/-- The lanes that VUNPK writes: the half that MOD names takes the block's elements, the other half keeps its lanes (R128). -/
def unpackLane (w : Opnd) (f : Fmt) (b : RawBlock) (old k : Nat) : Nat :=
  if k / 32 = mod w 4 4 then ((b.ints f).map (unpackElem b.code)).getD (k % 32) 0 else lane 32 old k

/-- The element field at `a` and the tag slot at `b` pass VUNPK's checks (R105, R119, R167). -/
structure BlockReadable (c : Ctx) (f : Fmt) (a b : Nat) : Prop where
  alignedA : a % 8 = 0
  alignedB : b % 4 = 0
  insideA : c.ti.firstOutside c.i a f.bytes = none
  insideB : c.ti.firstOutside c.i b 4 = none
  filledA : c.ti.fillingIn a f.bytes = false
  soundA : c.ti.firstBad a f.bytes = none
  filledB : c.ti.fillingIn b 4 = false
  soundB : c.ti.firstBad b 4 = none

theorem BlockReadable.checks {c : Ctx} {f : Fmt} {a b : Nat} (h : BlockReadable c f a b) (k : Iss) :
    (aligned a 8 <| aligned b 4 <| c.claim a f.bytes <| c.claim b 4 <| c.reading a f.bytes <| c.reading b 4 k) = k := by
  rw [aligned_of h.alignedA, aligned_of h.alignedB, Ctx.claim_of _ h.insideA, Ctx.claim_of _ h.insideB, Ctx.reading_of _ h.filledA h.soundA,
    Ctx.reading_of _ h.filledB h.soundB]

theorem vunpk_result {s : State} {h : Hart} {w : Opnd} (hi : issuesVec s h w = true)
    (hl : fieldsOk true true true false w (decide (w.imm.toNat < 32) && decide (mod w 3 0 ≤ 9)) = true)
    {f : Fmt} (hf : f = (fmtOf (mod w 3 0)).getD (.int 1)) {a b : Nat} (hxa : a = ((thr s h).x w.a).toNat) (hxb : b = ((thr s h).x w.b).toNat)
    {c : Ctx} (hc : c = seen s h (wordOf 1 0x30 w)) (hr : BlockReadable c f a b)
    {blk : RawBlock} (hblk : blk = rawBlock f (c.take a f.bytes).1 ((c.take a f.bytes).2.take b 4).1) (hg : blk.good f = true) :
    ∃ t v, exec (.vunpk h w) s = .next t ∧ VecResult s t h w.d v ∧
      ∀ k < 64, v.extractLsb' (32 * k) 32 = BitVec.ofNat 32 (unpackLane w f blk (c.v w.d) k) := by
  obtain ⟨hi, hv⟩ := issuesVec_iff.mp hi
  obtain ⟨m, hm⟩ := c.afterRead_eq a f.bytes
  obtain ⟨n, hn⟩ := (c.take a f.bytes).2.afterRead_eq b 4
  have hd : ((c.take a f.bytes).2.take b 4).2.e = { c.e with freeCtr := n } := hn.trans (by simp only [Ctx.take, hm])
  subst hc
  refine ⟨_, _, issue_done hi (by rw [mod_31_5_eq_zero, hl]) (fun _ => hv) (e := (seen s h (wordOf 1 0x30 w)).writeV w.d
    (ofLanes 32 ((List.range 64).map (unpackLane w f blk ((seen s h (wordOf 1 0x30 w)).v w.d))))
    { (seen s h (wordOf 1 0x30 w)).e with freeCtr := n }) ?_,
    vecResult_writeV_freeCtr s h n w.d _, fun k hk => extractLsb'_ofLanes (by decide) (by decide) _ hk⟩
  simp only [seen_xn, ← hxa, ← hxb, ← hf]
  rw [hr.checks, ← hd]
  subst hblk
  exact check_of hg ..

/-- Settles O12: vector loads and stores by their address function, VUNPK by the block it reads. -/
theorem vectorScratchpadResults : Obligations.VectorScratchpadResults := by
  refine ⟨fun s h w hi => ?_, fun s h w hi => ?_, fun s h w hi hl => ?_⟩
  · simp only [List.forall_mem_cons]
    exact ⟨fun hl ha => panelLoad_result hi ha (show _ = execVldr h w s from rfl) hl (fun _ => rfl),
      fun hl ha => panelLoad_result hi ha (show _ = execVldc h w s from rfl) hl (fun _ => rfl),
      fun hl ha => vlds_result hi ha hl (fun _ => rfl), fun _ hp => nomatch hp⟩
  · simp only [List.forall_mem_cons]
    exact ⟨fun hl ha => panelStore_result hi ha (show _ = execVstr h w s from rfl) hl (fun _ => rfl) rowWord_mod_8,
      fun hl ha => panelStore_result hi ha (show _ = execVstc h w s from rfl) hl (fun _ => rfl) colWord_mod_8,
      fun hl ha => vsts_result hi ha hl (fun _ => rfl), fun _ hp => nomatch hp⟩
  · intro c f a b ha hb hoa hob hfa hba hfb hbb blk hg
    exact vunpk_result hi hl rfl rfl rfl rfl ⟨ha, hb, hoa, hob, hfa, hba, hfb, hbb⟩ rfl hg

end Sys2Proof.Machine
end

section
/-!
PROOFS. Long registers (R56, R96, R98, R138 to R140): a range of registers updated one by one, LPLACE, LCLR, LEXP and LEXPECT.
-/
namespace Sys2Proof.Machine

open Sys2Proof.Safety

/-! ### The range of registers that MOD names (R138) -/

theorem mem_lIdx (w : Opnd) (i : Nat) : i ∈ lIdx w ↔ lStart w ≤ i ∧ i ≤ lStart w + lCnt w := by
  simp only [lIdx, List.mem_map, List.mem_range]
  exact ⟨by rintro ⟨j, hj, rfl⟩; omega, fun ⟨h1, h2⟩ => ⟨i - lStart w, by omega, by omega⟩⟩

theorem nodup_lIdx (w : Opnd) : (lIdx w).Nodup := List.nodup_range.map (fun _ _ h => Nat.add_right_cancel h)

theorem lRegs_getElem? (c : Ctx) (w : Opnd) (k : Nat) :
    (lRegs c w)[k]? = if k ≤ lCnt w then some (c.ti.lreg (lBank w) (lStart w + k)) else none := by
  simp only [lRegs, lIdx, List.getElem?_map]
  split
  · next hk => rw [List.getElem?_range (by omega), Nat.add_comm]; rfl
  · next hk => rw [List.getElem?_eq_none (by simp; omega)]; rfl

/-- The registers of the range do not depend on the word that is fetched. -/
theorem lMismatch_seen (s : State) (h : Hart) (word word' : Word) (w : Opnd) : lMismatch (seen s h word) w = lMismatch (seen s h word') w := by
  simp only [lMismatch, seen_lreg]

/-! ### Registers updated one by one -/

/-- Registers `l` of bank b, each replaced by `f` of it. -/
def Tile.updRegs (ti : Tile) (b : Nat) (f : Nat → LReg → LReg) (l : List Nat) : Tile := l.foldl (fun ti i => ti.setLreg b i (f i (ti.lreg b i))) ti

section UpdRegs
variable (b : Nat) (f : Nat → LReg → LReg)

/-- An update of long registers changes nothing else of the tile. -/
theorem Tile.updRegs_frame (l : List Nat) (ti : Tile) : ∃ m, ti.updRegs b f l = { ti with lregs := m } := by
  induction l generalizing ti with
  | nil => exact ⟨ti.lregs, rfl⟩
  | cons i r ih => exact ih (ti.setLreg b i (f i (ti.lreg b i)))

/-- A register outside the list keeps what it holds. -/
theorem Tile.mget_updRegs (l : List Nat) (ti : Tile) {x : Nat} (hx : ∀ i ∈ l, x ≠ b * 128 + i) :
    mget (fun _ => ({} : LReg)) x (ti.updRegs b f l).lregs = mget (fun _ => ({} : LReg)) x ti.lregs := by
  induction l generalizing ti with
  | nil => rfl
  | cons i r ih => exact (ih _ (fun j hj => hx j (by simp [hj]))).trans (mget_mset_ne _ _ _ (hx i (by simp)))

theorem Tile.lreg_updRegs_of_notMem {l : List Nat} (ti : Tile) {i : Nat} (hi : i ∉ l) : (ti.updRegs b f l).lreg b i = ti.lreg b i :=
  Tile.mget_updRegs b f l ti (fun j hj he => hi (by rwa [show i = j by omega]))

theorem Tile.lreg_updRegs {l : List Nat} (ti : Tile) (hn : l.Nodup) {i : Nat} (hi : i ∈ l) : (ti.updRegs b f l).lreg b i = f i (ti.lreg b i) := by
  induction l generalizing ti with
  | nil => cases hi
  | cons j r ih =>
    obtain ⟨hj, hr⟩ := List.nodup_cons.mp hn
    change ((ti.setLreg b j (f j (ti.lreg b j))).updRegs b f r).lreg b i = _
    rcases List.mem_cons.mp hi with rfl | hi
    · rw [Tile.lreg_updRegs_of_notMem b f _ hj]
      exact mget_mset_same ..
    · have hne : b * 128 + i ≠ b * 128 + j := fun he => hj (by rwa [show j = i by omega])
      rw [ih _ hr hi]
      exact congrArg (f i) (mget_mset_ne _ _ _ hne)

end UpdRegs

theorem placeAdd_reg (i x : Nat) : (placeAdd i x).reg = i := by unfold placeAdd; split <;> rfl

/-- Terms placed in the registers of a list, one in each. -/
theorem Tile.addAll_map_placeAdd (ti : Tile) (b : Nat) (v : Nat → Nat) (l : List Nat) :
    ti.addAll b (l.map (fun i => placeAdd i (v i))) = ti.updRegs b (fun i r => (r.add (placeAdd i (v i))).1) l := by
  simp only [Tile.addAll, List.foldl_map, placeAdd_reg]; rfl

/-- Terms `v` placed in registers `l` of bank b, each cleared before where `clear` is set (R56). -/
def Tile.placeRegs (ti : Tile) (b : Nat) (clear : Bool) (v : Nat → Nat) (l : List Nat) : Tile :=
  (if clear then ti.updRegs b (fun _ _ => {}) l else ti).updRegs b (fun i r => (r.add (placeAdd i (v i))).1) l

section PlaceRegs
variable (ti : Tile) (b : Nat) (clear : Bool) (v : Nat → Nat) (l : List Nat)

theorem Tile.placeRegs_frame : ∃ m, ti.placeRegs b clear v l = { ti with lregs := m } := by
  cases clear with
  | false => exact Tile.updRegs_frame ..
  | true =>
    obtain ⟨m, hm⟩ := Tile.updRegs_frame b (fun _ _ => {}) l ti
    obtain ⟨n, hn⟩ := Tile.updRegs_frame b (fun i r => (r.add (placeAdd i (v i))).1) l { ti with lregs := m }
    exact ⟨n, by rw [Tile.placeRegs, if_pos rfl, hm, hn]⟩

theorem Tile.mget_placeRegs {x : Nat} (hx : ∀ i ∈ l, x ≠ b * 128 + i) :
    mget (fun _ => ({} : LReg)) x (ti.placeRegs b clear v l).lregs = mget (fun _ => ({} : LReg)) x ti.lregs := by
  refine (Tile.mget_updRegs b _ l _ hx).trans ?_
  cases clear with
  | false => rfl
  | true => rw [if_pos rfl]; exact Tile.mget_updRegs b _ l ti hx

theorem Tile.lreg_placeRegs {l : List Nat} (hn : l.Nodup) {i : Nat} (hi : i ∈ l) :
    (ti.placeRegs b clear v l).lreg b i = ((if clear then ({} : LReg) else ti.lreg b i).add (placeAdd i (v i))).1 := by
  refine (Tile.lreg_updRegs b _ _ hn hi).trans ?_
  cases clear with
  | false => rfl
  | true => rw [if_pos rfl, if_pos rfl, Tile.lreg_updRegs b _ ti hn hi]

end PlaceRegs

/-! ### The bank of an instruction (R95, R98) -/

section Bank
variable {s : State} {h : Hart} {b : Nat} (hb : (seen s h 0).i.banks.testBit b = true)
include hb

theorem seen_granted (word : Word) (k : Iss) : (seen s h word).granted b k = k := Ctx.granted_of k hb

/-- A bank that owes nothing lets an instruction that reads it go on. -/
theorem granted_ready (hn : (seen s h 0).ti.bankBusy b = false) (word : Word) (e : Engine) (k : Iss) :
    (seen s h word).granted b (if (seen s h word).ti.bankBusy b then .wait e else k) = k := by
  rw [seen_bankBusy] at hn
  rw [seen_granted hb, seen_bankBusy, hn, if_neg Bool.false_ne_true]

/-- A bank that owes adds or arrivals makes it wait. -/
theorem granted_busy (hn : (seen s h 0).ti.bankBusy b = true) (word : Word) (e : Engine) (k : Iss) :
    (seen s h word).granted b (if (seen s h word).ti.bankBusy b then .wait e else k) = .wait e := by
  rw [seen_bankBusy] at hn
  rw [seen_granted hb, seen_bankBusy, hn, if_pos rfl]

end Bank

/-! ### LPLACE and LCLR -/

/-- Every register outside the range that MOD names is as it was. -/
def RestKept (s t : State) (h : Hart) (w : Opnd) : Prop :=
  ∀ x : Nat, (x < 128 * lBank w + lStart w ∨ 128 * lBank w + lStart w + lCnt w < x) →
    mget (fun _ => ({} : LReg)) x (t.eng.tile h.loc).lregs = mget (fun _ => ({} : LReg)) x (s.eng.tile h.loc).lregs

/-- An instruction that updates the registers of its range, each once. -/
theorem updRegs_result (s : State) (h : Hart) {word : Word} (w : Opnd) {f : Nat → LReg → LReg} {g : Tile → Tile}
    (hf : ∃ m, g (seen s h word).ti = { (seen s h word).ti with lregs := m })
    (ho : ∀ x, (∀ i ∈ lIdx w, x ≠ lBank w * 128 + i) →
      mget (fun _ => ({} : LReg)) x (g (seen s h word).ti).lregs = mget (fun _ => ({} : LReg)) x (seen s h word).ti.lregs)
    (hr : ∀ i ∈ lIdx w, (g (seen s h word).ti).lreg (lBank w) i = f i ((seen s h word).ti.lreg (lBank w) i)) :
    let t := withEng s (advance h ((seen s h word).modTile g))
    Issued s t h (fun x y => { x with lregs := y.lregs }) ∧ RestKept s t h w ∧
      ∀ j ≤ lCnt w, (t.eng.tile h.loc).lreg (lBank w) (lStart w + j) = f (lStart w + j) ((s.eng.tile h.loc).lreg (lBank w) (lStart w + j)) := by
  obtain ⟨m, hm⟩ := hf
  have he : ((seen s h word).modTile g).tile h.loc = { (seen s h word).ti with lregs := m } := (Engine.modTile_tile ..).trans hm
  refine ⟨issued_advance s h (word := word) (modTile_onlyTile (onlyTile_seen s h word) _) (by rw [he, seen_ti]) (by rw [he]) (by rw [he, seen_ti]),
    fun x hx => ?_, fun j hj => ?_⟩
  · simp only [withEng, advance_tile, Tile.modThread, he]
    have hx' := ho x (fun i hi => by have := (mem_lIdx w i).mp hi; omega)
    rw [hm, seen_ti] at hx'
    exact hx'
  · have hj' : lStart w + j ∈ lIdx w := (mem_lIdx w _).mpr (by omega)
    have hrj := hr _ hj'
    rw [hm, seen_lreg] at hrj
    simp only [withEng, advance_tile, he]
    exact hrj

/-- The FP32 pattern that LPLACE places in register j of its range (R56). -/
def placed32 (s : State) (h : Hart) (w : Opnd) (j : Nat) : Nat :=
  if modBit w 15 then bfTo32 (lane 16 ((seen s h 0).v w.a) (64 * mod w 14 14 + j)) else lane 32 ((seen s h 0).v w.a) j

/-- Lanes written by LEXP: those of the range, then what vD held (R140). -/
def lexpLanes (c : Ctx) (w : Opnd) : List Nat :=
  (List.range (laneN (modBit w 15))).map (fun k =>
    ((lRegs c w).map (lexpOne (prec (modBit w 15))))[k]?.getD (lane (laneW (modBit w 15)) (c.v w.d) k))

section Long
variable {s : State} {h : Hart} {w : Opnd} (hi : issues s h w = true) (hb : (seen s h 0).i.banks.testBit (lBank w) = true)
include hi hb

theorem lplace_result (hr : lRange w = true)
    (hl : fieldsOk false true false false w (decide (lCnt w ≤ 63) && (modBit w 15 || !modBit w 14) && mod w 12 0 == 0) = true)
    (hv : (thr s h).vctx.isSome = true) :
    ∃ t, exec (.lplace h w) s = .next t ∧ Issued s t h (fun x y => { x with lregs := y.lregs }) ∧ RestKept s t h w ∧
      ∀ j ≤ lCnt w, (t.eng.tile h.loc).lreg (lBank w) (lStart w + j) =
        ((if modBit w 13 then ({} : LReg) else (s.eng.tile h.loc).lreg (lBank w) (lStart w + j)).add
          (placeAdd (lStart w + j) (placed32 s h w j))).1 := by
  have hl' : fieldsOk false true false false w (lRange w && decide (lCnt w ≤ 63) && (modBit w 15 || !modBit w 14) && mod w 12 0 == 0) = true := by
    rw [hr, Bool.true_and, hl]
  obtain ⟨hf, ho, hj⟩ := updRegs_result s h (word := wordOf 5 0 w) w
    (f := fun i r => ((if modBit w 13 then ({} : LReg) else r).add (placeAdd i (placed32 s h w (i - lStart w)))).1)
    (g := fun ti => ti.placeRegs (lBank w) (modBit w 13) (fun i => placed32 s h w (i - lStart w)) (lIdx w))
    (Tile.placeRegs_frame ..) (fun x hx => Tile.mget_placeRegs _ _ _ _ _ hx)
    (fun i hi => Tile.lreg_placeRegs _ _ _ _ (nodup_lIdx w) hi)
  refine ⟨_, issue_done hi hl' (fun _ => hv) ?_, hf, ho, fun j hjl => (hj j hjl).trans (by rw [Nat.add_sub_cancel_left])⟩
  rw [seen_granted hb]
  simp only [seen_v, Tile.addAll_map_placeAdd, placed32, Tile.placeRegs]
  rfl

theorem lclr_result (hr : lRange w = true) (hl : fieldsOk false false false false w (mod w 15 0 == 0) = true)
    (hn : (seen s h 0).ti.bankBusy (lBank w) = false) :
    ∃ t, exec (.lclr h w) s = .next t ∧ Issued s t h (fun x y => { x with lregs := y.lregs }) ∧ RestKept s t h w ∧
      ∀ j ≤ lCnt w, (t.eng.tile h.loc).lreg (lBank w) (lStart w + j) = {} := by
  have hl' : fieldsOk false false false false w (lRange w && mod w 15 0 == 0) = true := by rw [hr, Bool.true_and, hl]
  refine ⟨_, issue_done hi hl' (fun hv => nomatch hv)
    (e := (seen s h (wordOf 5 8 w)).modTile (fun ti => ti.updRegs (lBank w) (fun _ _ => {}) (lIdx w))) ?_,
    updRegs_result s h w (f := fun _ _ => {}) (Tile.updRegs_frame ..) (fun x hx => Tile.mget_updRegs _ _ _ _ hx)
      (fun i hi => Tile.lreg_updRegs _ _ _ (nodup_lIdx w) hi)⟩
  exact granted_ready hb hn ..

theorem lclr_waits (hr : lRange w = true) (hl : fieldsOk false false false false w (mod w 15 0 == 0) = true)
    (hn : (seen s h 0).ti.bankBusy (lBank w) = true) : exec (.lclr h w) s = .next (withEng s (stalled s h (seen s h (wordOf 5 0x08 w)).e)) := by
  have hl' : fieldsOk false false false false w (lRange w && mod w 15 0 == 0) = true := by rw [hr, Bool.true_and, hl]
  exact issue_wait hi hl' (fun hv => nomatch hv) (granted_busy hb hn ..)

section Lexp
variable (hr : lRange w = true) (hl : fieldsOk true false false false w (decide (lCnt w ≤ 63) && mod w 14 0 == 0) = true)
  (hv : (thr s h).vctx.isSome = true)
include hr hl hv

theorem lexp_result (hn : (seen s h 0).ti.bankBusy (lBank w) = false) (hm : lMismatch (seen s h 0) w = none) :
    ∃ t v, exec (.lexp h w) s = .next t ∧ VecResult s t h w.d v ∧ ∀ k < laneN (modBit w 15), lane (laneW (modBit w 15)) v.toNat k =
      if k ≤ lCnt w then lexpOne (prec (modBit w 15)) ((s.eng.tile h.loc).lreg (lBank w) (lStart w + k)) % 2 ^ laneW (modBit w 15)
      else lane (laneW (modBit w 15)) ((seen s h 0).v w.d) k := by
  have hl' : fieldsOk true false false false w (lRange w && decide (lCnt w ≤ 63) && mod w 14 0 == 0) = true := by rw [hr, Bool.true_and, hl]
  refine ⟨_, _, issue_done hi hl' (fun _ => hv) (e := (seen s h (wordOf 5 5 w)).writeV w.d (ofLanes (laneW (modBit w 15))
    (lexpLanes (seen s h (wordOf 5 5 w)) w)) (seen s h (wordOf 5 5 w)).e) ((granted_ready hb hn ..).trans ?_),
    vecResult_writeV s h (onlyTile_seen ..) rfl w.d _, fun k hk => ?_⟩
  · rw [lMismatch_seen s h _ 0, hm]; rfl
  · rw [lexpLanes, lane_ofNat_ofLanes _ _ hk, List.getElem?_map, lRegs_getElem?]
    split
    · rw [seen_lreg]; rfl
    · simp only [Option.map_none, Option.getD_none, seen_v]
      exact Nat.mod_eq_of_lt (lane_lt (laneW_pos _) _ _)

theorem lexp_waits (hn : (seen s h 0).ti.bankBusy (lBank w) = true) :
    exec (.lexp h w) s = .next (withEng s (stalled s h (seen s h (wordOf 5 0x05 w)).e)) := by
  have hl' : fieldsOk true false false false w (lRange w && decide (lCnt w ≤ 63) && mod w 14 0 == 0) = true := by rw [hr, Bool.true_and, hl]
  exact issue_wait hi hl' (fun _ => hv) (granted_busy hb hn ..)

end Lexp

section Lexpect
variable (hl : fieldsOk false false false false w (mod w 29 16 == 0) = true)
include hl

theorem lexpect_result (hn : (seen s h 0).ti.bankBusy (lBank w) = false) :
    ∃ t, exec (.lexpect h w) s = .next t ∧ Issued s t h (fun x y => { x with pend := y.pend }) ∧
      ∀ b, (t.eng.tile h.loc).pending b = if b = lBank w then mod w 15 0 else (s.eng.tile h.loc).pending b := by
  have he : ((seen s h (wordOf 5 9 w)).modTile (fun ti => { ti with pend := mset (fun _ => 0) (lBank w) (mod w 15 0) ti.pend })).tile h.loc =
      { (seen s h (wordOf 5 9 w)).ti with pend := mset (fun _ => 0) (lBank w) (mod w 15 0) (seen s h (wordOf 5 9 w)).ti.pend } := Engine.modTile_tile ..
  refine ⟨_, issue_done hi hl (fun hv => nomatch hv) (granted_ready hb hn ..), issued_advance s h (word := wordOf 5 9 w)
    (modTile_onlyTile (onlyTile_seen s h _) _) (by rw [he, seen_ti]) (by rw [he]) (by rw [he, seen_ti]), fun b => ?_⟩
  simp only [withEng, advance_tile, Tile.modThread, Tile.pending, he, seen_ti]
  exact mget_mset ..

theorem lexpect_waits (hn : (seen s h 0).ti.bankBusy (lBank w) = true) :
    exec (.lexpect h w) s = .next (withEng s (stalled s h (seen s h (wordOf 5 0x09 w)).e)) :=
  issue_wait hi hl (fun hv => nomatch hv) (granted_busy hb hn ..)

end Lexpect

end Long

/-- Settles O16: LPLACE and LCLR update the registers of the range, LEXP reads them, LEXPECT sets the bank's count. -/
theorem longRegisterResults : Obligations.LongRegisterResults := by
  refine ⟨fun s h w hi => ?_, fun s h w hi hl => ?_⟩
  · intro c b hb hr old others
    exact ⟨lplace_result hi hb hr, fun hl => ⟨lclr_result hi hb hr hl, lclr_waits hi hb hr hl⟩,
      fun hl hv => ⟨lexp_result hi hb hr hl hv, lexp_waits hi hb hr hl hv⟩⟩
  · intro c hb
    exact ⟨lexpect_result hi hb hl, lexpect_waits hi hb hl⟩

end Sys2Proof.Machine
end

section
/-!
PROOFS. Emits and divide-emits (R61, R62, R75, R140): the scalar forms write lanes, the block forms a block in operand form.
-/
namespace Sys2Proof.Machine

open Sys2Proof.Safety

theorem fieldsOk_and (d a b c : Bool) (w : Opnd) (p q : Bool) : fieldsOk d a b c w (p && q) = (fieldsOk d a b c w p && q) :=
  (Bool.and_assoc ..).symm

theorem divisorGranted_of {c : Ctx} {w : Opnd} (h : (!modBit w 13 || c.i.banks.testBit (mod w 12 11)) = true) (k : Iss) : divisorGranted c w k = k := by
  unfold divisorGranted
  split
  · next hm => exact Ctx.granted_of k (by simpa [hm] using h)
  · rfl

/-! ### The scalar forms -/

section Scalar
variable {s : State} {h : Hart} {w : Opnd} {i : Instr}

/-- An instruction that ends in `emitLanes`: lanes of the range take the rounded values, the others what vD held, and the outcomes are counted. -/
theorem emitLanes_result {word : Word} {f : LReg → Rounded}
    (he : exec i s = .next (withEng s (finish (seen s h word) (emitLanes (seen s h word) w f)))) :
    ∃ v tally, exec i s = .next (withEng s (advance h ((seen s h word).counted w tally ((seen s h word).writeV w.d v (seen s h word).e)))) ∧
      tally = ((lRegs (seen s h word) w).map f).foldl (fun a r => a.plus (tallyScalar (if modBit w 15 then bfTo32 r.bits else r.bits) r)) {} ∧
      ∀ k < laneN (modBit w 15), lane (laneW (modBit w 15)) v k =
        if k ≤ lCnt w then (f ((seen s h word).ti.lreg (lBank w) (lStart w + k))).bits % 2 ^ laneW (modBit w 15)
        else lane (laneW (modBit w 15)) ((seen s h word).v w.d) k := by
  refine ⟨_, _, he, rfl, fun k hk => ?_⟩
  rw [lane_ofLanes_range (laneW_pos _) _ hk, List.getElem?_map, lRegs_getElem?]
  by_cases hc : k ≤ lCnt w
  · rw [if_pos hc, if_pos hc]; rfl
  · rw [if_neg hc, if_neg hc]
    exact Nat.mod_eq_of_lt (lane_lt (laneW_pos _) _ _)

theorem lemitS_runs (hi : issuesVec s h w = true) {word : Word} (hw : word = wordOf 5 1 w)
    (hok : (mod w 13 0 == 0 && (lMismatch (seen s h word) w).isNone) = true)
    (hl : fieldsOk true false false true w (lRange w && decide (lCnt w ≤ 63)) = true) (hg : (seen s h word).i.banks.testBit (lBank w) = true)
    (hb : (seen s h word).ti.bankBusy (lBank w) = false) :
    exec (.lemitS h w) s = .next (withEng s (finish (seen s h word) (emitLanes (seen s h word) w (emitOne w)))) := by
  obtain ⟨hr, hv⟩ := issuesVec_iff.mp hi
  obtain ⟨hm, hn⟩ := Bool.and_eq_true_iff.mp hok
  subst hw
  refine (issue_body _ _ _ _ _ _ _ _ hr (by rw [fieldsOk_and, hl, hm]; rfl) (fun _ => hv)).trans ?_
  rw [Ctx.granted_of _ hg, hb, Option.isNone_iff_eq_none.mp hn]
  rfl

theorem ldivS_runs (hi : issuesVec s h w = true) {word : Word} (hw : word = wordOf 5 3 w)
    (hok : (ldivMod w && (ldivMismatch (seen s h word) w).isNone && (!modBit w 13 || (seen s h word).i.banks.testBit (mod w 12 11))) = true)
    (hl : fieldsOk true false false true w (lRange w && decide (lCnt w ≤ 63)) = true) (hg : (seen s h word).i.banks.testBit (lBank w) = true)
    (hb : (seen s h word).ti.bankBusy (lBank w) = false) (hd : divisorBusy (seen s h word) w = false) :
    exec (.ldivS h w) s = .next (withEng s (finish (seen s h word) (emitLanes (seen s h word) w (ldivOne w (divisor (seen s h word) w))))) := by
  obtain ⟨hr, hv⟩ := issuesVec_iff.mp hi
  obtain ⟨hok, hdg⟩ := Bool.and_eq_true_iff.mp hok
  obtain ⟨hm, hn⟩ := Bool.and_eq_true_iff.mp hok
  subst hw
  refine (issue_body _ _ _ _ _ _ _ _ hr (by rw [fieldsOk_and, hl, hm]; rfl) (fun _ => hv)).trans ?_
  rw [Ctx.granted_of _ hg, divisorGranted_of hdg, hb, hd, Option.isNone_iff_eq_none.mp hn]
  rfl

end Scalar

/-! ### The block forms -/

/-- A block form's targets pass the checks of R119: `n` bytes of elements at `a`, 4 of a tag word at `g`. -/
structure TargetOk (c : Ctx) (w : Opnd) (a g n : Nat) : Prop where
  xa : c.xn w.a = a
  xb : c.xn w.b = g
  bytes : n = if modBit w 15 then 16 else 32
  alignedA : a % 8 = 0
  alignedB : g % 4 = 0
  insideA : c.ti.firstOutside c.i a n = none
  insideB : c.ti.firstOutside c.i g 4 = none
  freeA : c.ti.firstFilling a n = none
  freeB : c.ti.firstFilling g 4 = none

theorem TargetOk.checks {c : Ctx} {w : Opnd} {a g n : Nat} (h : TargetOk c w a g n) (k : Iss) : blockTarget c w k = k := by
  obtain ⟨rfl, rfl, rfl, ha, hb, hoa, hob, hfa, hfb⟩ := h
  rw [blockTarget, aligned_of ha, aligned_of hb, Ctx.claim_of _ hoa, Ctx.claim_of _ hob, Ctx.notFilling_of _ hfa, Ctx.notFilling_of _ hfb]

/-- A block form stores the block's elements at xA and its tag word at xB, and counts its outcome. -/
theorem emitTo_eq (c : Ctx) (w : Opnd) (b : Block) : emitTo c w b = .done (c.counted w (tallyBlock b) (c.modTile (fun ti =>
    (ti.store (c.xn w.a) (natBytes (blockField (if modBit w 15 then 4 else 8) b.elems) (if modBit w 15 then 16 else 32))).store (c.xn w.b)
      (natBytes (tagOf b) 4)))) := by
  unfold emitTo
  cases modBit w 15 <;> rfl

section Blocks
variable {s : State} {h : Hart} {w : Opnd} {word : Word} {a g n : Nat} (hi : issues s h w = true) (ht : TargetOk (seen s h word) w a g n)
  (hl : fieldsOk false true true true w (lRange w && lCnt w == 31) = true) (hg : (seen s h word).i.banks.testBit (lBank w) = true)
  (hb : (seen s h word).ti.bankBusy (lBank w) = false)
include hi ht hl hg hb

/-- LEMIT.B gives the poison block where a register of its range is poisoned, else the emitted block (R62). -/
theorem lemitB_runs (hw : word = wordOf 5 2 w) (hok : (mod w 13 0 == 0 && (lMismatch (seen s h word) w).isNone) = true) :
    exec (.lemitB h w) s = .next (withEng s (finish (seen s h word) (emitTo (seen s h word) w
      (if (lRegs (seen s h word) w).any (·.poison) then poisonBlock else emitBlock (emitQ w) ((lRegs (seen s h word) w).map (·.n)) 1)))) := by
  obtain ⟨hm, hn⟩ := Bool.and_eq_true_iff.mp hok
  subst hw
  have hl' : fieldsOk false true true true w (lRange w && lCnt w == 31 && mod w 13 0 == 0) = true := by rw [fieldsOk_and, hl, hm]; rfl
  refine (issue_body _ _ _ false _ _ _ _ hi hl' (fun hv => nomatch hv)).trans ?_
  rw [Ctx.granted_of _ hg, ht.checks, hb, Option.isNone_iff_eq_none.mp hn, if_neg Bool.false_ne_true, apply_ite (emitTo _ w)]

theorem ldivB_runs (hw : word = wordOf 5 4 w)
    (hok : (ldivMod w && (ldivMismatch (seen s h word) w).isNone && (!modBit w 13 || (seen s h word).i.banks.testBit (mod w 12 11))) = true)
    (hd : divisorBusy (seen s h word) w = false) : exec (.ldivB h w) s = .next (withEng s (finish (seen s h word)
      (emitTo (seen s h word) w (ldivBlock (emitQ w) (divisor (seen s h word) w) (lRegs (seen s h word) w))))) := by
  obtain ⟨hok, hdg⟩ := Bool.and_eq_true_iff.mp hok
  obtain ⟨hm, hn⟩ := Bool.and_eq_true_iff.mp hok
  subst hw
  have hl' : fieldsOk false true true true w (lRange w && lCnt w == 31 && ldivMod w) = true := by rw [fieldsOk_and, hl, hm]; rfl
  refine (issue_body _ _ _ false _ _ _ _ hi hl' (fun hv => nomatch hv)).trans ?_
  rw [Ctx.granted_of _ hg, divisorGranted_of hdg, ht.checks, hb, hd, Option.isNone_iff_eq_none.mp hn]
  rfl

end Blocks

/-- Settles O17: each form runs to `emitLanes` or `emitTo`, which say what is written. -/
theorem emitResults : Obligations.EmitResults := by
  refine ⟨fun s h w hi op i f ok busy => ?_, fun s h w hi op i b ok busy => ?_⟩
  · rintro c (⟨rfl, rfl, rfl, rfl, rfl⟩ | ⟨rfl, rfl, rfl, rfl, rfl⟩) hok hl hg hb hd
    · exact emitLanes_result (lemitS_runs hi rfl hok hl hg hb)
    · exact emitLanes_result (ldivS_runs hi rfl hok hl hg hb hd)
  · intro c a g n hf hok hl hg hb hd ha hg4 hoa hob hfa hfb
    have ht : TargetOk c w a g n := ⟨rfl, rfl, rfl, ha, hg4, hoa, hob, hfa, hfb⟩
    have hx : exec i s = .next (withEng s (finish c (emitTo c w b))) := by
      obtain ⟨rfl, rfl, rfl, rfl, rfl⟩ | ⟨rfl, rfl, rfl, rfl, rfl⟩ := hf
      · exact lemitB_runs hi ht hl hg hb rfl hok
      · exact ldivB_runs hi ht hl hg hb rfl hok hd
    rw [hx, emitTo_eq]
    rfl

end Sys2Proof.Machine
end

section
/-!
PROOFS. Monitors and watch tables (R80, R349, R474 to R479): a watch word reads back as written, what the commands write and clear, and what
a sample changes.
-/
namespace Sys2Proof.Machine

open Sys2Proof.Safety

/-! ### A number split into fields and packed again -/

theorem fld_eq (v hi lo : Nat) : fld v hi lo = v / 2 ^ lo % 2 ^ (hi + 1 - lo) := by rw [fld, Nat.shiftRight_eq_div_pow]

/-- The fields of `v` of the given widths, highest first, each with what stands above it. -/
def splitFields (v : Nat) : List Nat → List (Nat × Nat)
  | [] => []
  | w :: r => (w, v / 2 ^ r.sum) :: splitFields v r

theorem packHigh_splitFields (v : Nat) (ws : List Nat) : packHigh (splitFields v ws) (v / 2 ^ ws.sum) = v := by
  induction ws with
  | nil => simp [splitFields, packHigh]
  | cons w r ih =>
    rw [splitFields, packHigh, List.sum_cons, Nat.add_comm w, Nat.pow_add, ← Nat.div_div_eq_div_mul, Nat.div_add_mod', ih]

/-- A record depends on the bits of each field alone. -/
theorem packHigh_congr {l m : List (Nat × Nat)} (h : l.map (fun x => (x.1, x.2 % 2 ^ x.1)) = m.map (fun x => (x.1, x.2 % 2 ^ x.1))) (acc : Nat) :
    packHigh l acc = packHigh m acc := by
  induction l generalizing m acc with
  | nil => cases m with
    | nil => rfl
    | cons y m => cases h
  | cons x l ih => cases m with
    | nil => cases h
    | cons y m =>
      obtain ⟨hw, hv⟩ := Prod.mk.inj (List.cons.inj h).1
      rw [packHigh, packHigh, ih (List.cons.inj h).2, hv, hw]

theorem pack_eq_of_fields {v : Nat} {ws : List Nat} {l : List (Nat × Nat)} (hv : v < 2 ^ ws.sum)
    (h : l.map (fun x => (x.1, x.2 % 2 ^ x.1)) = (splitFields v ws).map (fun x => (x.1, x.2 % 2 ^ x.1))) : pack l = v := by
  rw [pack, packHigh_congr h, ← Nat.div_eq_of_lt hv, packHigh_splitFields]

/-! ### Watch words (R80, Table 2.7) -/

theorem bnat_bitAt (v i : Nat) : bnat (bitAt v i) = v / 2 ^ i % 2 := by
  rw [bnat, bitAt, Nat.testBit_eq_decide_div_mod_eq]
  split <;> simp_all

/-- Settles O44: field by field, the reserved bits by hypothesis. -/
theorem watchWordRoundTrip : Obligations.WatchWordRoundTrip := by
  intro v hv h0
  replace h0 : v / 4 % 16384 = 0 := (fld_eq v 15 2).symm.trans h0
  refine pack_eq_of_fields (ws := [32, 32, 16, 16, 8, 4, 2, 2, 14, 1, 1]) hv ?_
  simp [splitFields, watchOf, fld_eq, bnat_bitAt, h0]

/-! ### Commands -/

/-- A command that passes the check of its form holds no reserved value (R343). -/
theorem check_eq_none {f : Form} {e : Engine} {now : Nat} {h : Hdr} (hc : f.check e now h = none) : f.reserved = none := by
  cases hr : f.reserved with
  | none => rfl
  | some o =>
    cases hl : f.length with
    | some n => simp [Form.check, hl, ite_eq_iff] at hc
    | none => cases hh : f.header h <;> simp [Form.check, hr, hl, hh, ite_eq_iff] at hc

theorem goes_reserved {s : State} {hd : Hdr} {c : Instr} {f : Form} (hg : goes s hd c f = true) : f.reserved = none := by
  simp only [goes, accepted, Bool.and_eq_true] at hg
  obtain ⟨⟨⟨⟨⟨⟨-, hc⟩, -⟩, -⟩, -⟩, -⟩, -⟩ := hg
  exact check_eq_none (Option.isNone_iff_eq_none.mp hc)

/-- A word that NW_WRITE takes has reserved bits of 0 (R80). -/
theorem watchReserved_eq_none {v : Nat} (h : watchReserved v = none) : fld v 15 2 = 0 := by
  simp only [watchReserved, firstOf, List.findSome?_cons] at h
  by_contra hne
  simp [hne] at h

/-- A command that is executed at once, with its effect rewritten. -/
theorem hostCmd_took {hd : Hdr} {c : Instr} {f : Engine → Form} {run : Hdr → Bool → Nat → Engine → Engine} {s : State} {g : Engine → Engine}
    (hg : goes s hd c (f s.eng) = true) (ha : (f s.eng).atIntake = false) (hr : ∀ e, run (due s hd) false s.now e = g e) :
    hostCmd hd c f run s = took s hd g := (hostCmd_goes _ _ _ _ _ hg ha).trans (congrArg (took s hd) (funext hr))

section Commands
variable {s : State} {hd : Hdr}

/-- MON_READ's effect on an engine that reads `count` entries (R349): they are written to host memory, and counters that a read clears are
cleared (R14). -/
theorem exec_monRead_zero {sel deck part site first count addr : Nat}
    (hg : goes s hd (.monRead hd sel deck part site first count addr) (monReadForm hd sel deck part site first count addr s.eng) = true)
    (hz : count = 0) : exec (.monRead hd sel deck part site first count addr) s = tookOk s hd id := by
  refine hostCmd_took hg rfl fun e => ?_
  simp only [runMonRead, hz, ne_eq, not_true, and_false, if_true, if_false]
  rfl

theorem exec_monRead_some {sel deck part site first count addr : Nat}
    (hg : goes s hd (.monRead hd sel deck part site first count addr) (monReadForm hd sel deck part site first count addr s.eng) = true)
    (hz : count ≠ 0) : exec (.monRead hd sel deck part site first count addr) s = tookOk s hd (fun e =>
        let a := e.dma hd.fn addr ((List.range count).flatMap (fun i =>
          natBytes (e.monEntry sel deck { field := part, site := site } (first + i)) ((selectorOf sel).getD (0, 0)).1))
        if sel = 0x06 then a.modDeck deck (fun d => { d with fab := [] })
        else if sel = 0x07 then a.modDeck deck (fun d => { d with disp := [] }) else a) := by
  refine hostCmd_took hg rfl fun e => ?_
  simp only [runMonRead, hz, ne_eq, not_false_eq_true, and_true, if_false]
  rfl

theorem exec_nwRead {first count addr : Nat} (hg : goes s hd (.nwRead hd first count addr) (nwReadForm hd first count addr s.eng) = true) :
    exec (.nwRead hd first count addr) s = tookOk s hd (fun e =>
      e.dma hd.fn addr ((List.range count).flatMap (fun i => natBytes ((e.part hd.part).watchAt (first + i)).word 16))) :=
  hostCmd_took hg rfl fun _ => rfl

theorem exec_nwWrite {entry : Nat} {v : BitVec 128} (hg : goes s hd (.nwWrite hd entry v) (nwWriteForm entry v s.eng) = true) :
    exec (.nwWrite hd entry v) s = tookOk s hd (fun e =>
      e.modPart hd.part (fun q => { q with watch := mset (fun _ => {}) entry (watchOf v.toNat) q.watch })) :=
  hostCmd_took hg rfl fun _ => rfl

/-- What NW_WRITE takes reads back as written (R80). -/
theorem nwWrite_word {entry : Nat} {v : BitVec 128} (hg : goes s hd (.nwWrite hd entry v) (nwWriteForm entry v s.eng) = true) :
    (watchOf v.toNat).word = v.toNat :=
  watchWordRoundTrip v.toNat v.isLt (watchReserved_eq_none (Option.map_eq_none_iff.mp (goes_reserved hg)))

theorem exec_histRead {mon addr : Nat} (hg : goes s hd (.histRead hd mon addr) (histReadForm hd mon addr s.eng) = true) :
    exec (.histRead hd mon addr) s = tookOk s hd (fun e => e.dma hd.fn addr (natBytes ((e.monitor mon).word mon) 192)) :=
  hostCmd_took hg rfl fun _ => rfl

theorem exec_histClear_one {mon : Nat} (hg : goes s hd (.histClear hd mon) (histClearForm mon s.eng) = true) (hm : mon ≠ 0xFFFFFFFF) :
    exec (.histClear hd mon) s = tookOk s hd (fun e =>
      { e with monitors := mset (fun _ => ({} : Monitor)) mon { cleared := s.now } e.monitors }) :=
  hostCmd_took hg rfl fun _ => by rw [runHistClear, if_neg hm]; rfl

theorem exec_histClear_all {mon : Nat} (hg : goes s hd (.histClear hd mon) (histClearForm mon s.eng) = true) (hm : mon = 0xFFFFFFFF) :
    exec (.histClear hd mon) s = tookOk s hd (fun e =>
      { e with monitors := monitorIndices.foldl (fun ms m => mset (fun _ => ({} : Monitor)) m { cleared := s.now } ms) e.monitors }) :=
  hostCmd_took hg rfl fun _ => by rw [runHistClear, if_pos hm]; rfl

/-- A physical function queries any tenant, a virtual function itself (R347). -/
theorem exec_tenantQuery_own {k addr : Nat} (hg : goes s hd (.tenantQuery hd k addr) (tenantQueryForm hd k addr s.eng) = true)
    (hk : ∀ v, hd.fn = .vf v → v = k) : exec (.tenantQuery hd k addr) s = tookOk s hd (fun e => e.dma hd.fn addr (natBytes (e.tqWord k) 16)) := by
  refine hostCmd_took hg rfl fun e => ?_
  have hf : (due s hd).fn = hd.fn := rfl
  rw [runTenantQuery, hf]
  cases hfn : hd.fn with
  | pf _ => exact if_pos rfl
  | vf v => exact if_pos (beq_iff_eq.mpr (hk v hfn))

theorem exec_tenantQuery_other {k addr v : Nat} (hg : goes s hd (.tenantQuery hd k addr) (tenantQueryForm hd k addr s.eng) = true)
    (hf : hd.fn = .vf v) (hv : v ≠ k) : exec (.tenantQuery hd k addr) s = tookReply s hd .tenant 0 := by
  refine hostCmd_took hg rfl fun e => ?_
  have hf' : (due s hd).fn = .vf v := hf
  rw [runTenantQuery, hf']
  exact if_neg (by simpa using hv)

end Commands

/-! ### Samples (R474 to R477) -/

theorem exec_monitorSample_none (s : State) (m : Nat) (v : Int) (h : monitorScale m = none ∨ s.eng.samples m = false) :
    exec (.monitorSample m v) s = .next s := by
  refine onEng_same (f := fun _ => monitorSample m v) (if_neg ?_)
  rcases h with h | h <;> simp [h]

theorem exec_monitorSample (s : State) (m : Nat) (v : Int) {x : Nat × Nat} (h : monitorScale m = some x) (hs : s.eng.samples m = true) :
    exec (.monitorSample m v) s =
      .next (withEng s { s.eng with monitors := mmod (fun _ => {}) m (fun x => x.sample m v) s.eng.monitors }) :=
  onEng_eq (f := fun _ => monitorSample m v) (if_pos (by simp [h, hs]))

theorem Monitor.sample_eq {m b sc : Nat} (h : monitorScale m = some (b, sc)) (x : Monitor) (v : Int) : x.sample m v = { x with
    lo := min x.lo v, hi := max x.hi v, count := min (2 ^ 64 - 1) (x.count + 1)
    bins := mmod (fun _ => 0) (binOf b sc (sampleValue m v)) (fun n => min 0xFFFFFFFF (n + 1)) x.bins } := by
  simp only [Monitor.sample, h]; rfl

/-- Settles O43: a lemma for each command, and what a sample changes. -/
theorem monitorCommands : Obligations.MonitorCommands := by
  refine ⟨fun s hd => ⟨fun sel deck part site first count addr hg => ⟨exec_monRead_zero hg, exec_monRead_some hg⟩, fun _ _ _ => exec_nwRead,
    fun _ _ hg => ⟨exec_nwWrite hg, nwWrite_word hg⟩, fun _ _ => exec_histRead, fun _ hg => ⟨exec_histClear_one hg, exec_histClear_all hg⟩,
    fun _ _ hg => ⟨exec_tenantQuery_own hg, fun _ => exec_tenantQuery_other hg⟩⟩, fun ms k m x => mget_mset _ _ _ _ _,
    fun s m v => ⟨exec_monitorSample_none s m v, fun b sc h hs => ⟨_, exec_monitorSample s m v h hs, ?_, fun k hk => mget_mmod_ne _ _ _ hk⟩⟩⟩
  rw [mget_mmod_same, Monitor.sample_eq h]
  rfl

end Sys2Proof.Machine
end

section
/-!
PROOFS. Snapshots and restores (R68, R463 to R467): their schedule, the capture and its completion, and the checks of a restore in order.
-/
namespace Sys2Proof.Machine

open Sys2Proof.Safety

/-! ### The schedule of a snapshot or a restore (R463) -/

section Schedule
variable {e : Engine} {now : Nat} {h : Hdr} {x : Snap} {c : Instr}

theorem schedSnap_refused {acc : Bool} (hr : e.snapRefused x.mask = true) : e.schedSnap now h acc x c = e.reply now h .timeout e.node := if_pos hr

/-- A snapshot or restore that no masked partition refuses: accepted, the twins of paired partitions asked, held where its tick is still to
come. -/
theorem schedSnap_accepted (hr : e.snapRefused x.mask = false) : e.schedSnap now h false x c =
    let ps := setBits x.mask 32
    let t := max h.tick (now + leadOf (e.announce ps))
    let ns := (ps.filter (fun p => (e.part p).pair == 1 || (e.part p).pair == 2)).map (fun p => (e.partnerNode, p))
    let keys := ns.map (fun n => n.1 + 4096 * n.2)
    let d := t - ceilDiv (e.announce ps) 10 - 1
    let m : Prepare := { part := 0, epoch := e.acts, what := .snapshot, tick := t, deadline := d, coordinator := e.node }
    let act : Act := { id := e.acts, coordinator := e.node, mine := true, nodes := keys, waiting := keys, deadline := d }
    let e := ({ e.reply now h .accepted 0 with acts := e.acts + 1 } : Engine).sendPrepare now m ns
    let e := if now < h.tick then e.hold { hd := { h with tick := t }, cmd := c, accepted := true, own := true } else e
    { e with snaps := e.snaps ++ [{ x with hd := { h with tick := 0 }, tick := t, act := if ns = [] then none else some act }] } := by
  unfold Engine.schedSnap
  rw [hr, if_neg Bool.false_ne_true]
  simp only [Engine.accept, cond, decide_eq_true_eq, List.isEmpty_iff, Bool.false_eq_true, if_false]

end Schedule

/-- A command that acts at intake, with its effect on the engine that has taken it rewritten. -/
theorem hostCmd_atIntake_took {hd : Hdr} {c : Instr} {f : Engine → Form} {run : Hdr → Bool → Nat → Engine → Engine} {s : State}
    {g : Engine → Engine} (hg : goes s hd c (f s.eng) = true) (ha : (f s.eng).atIntake = true)
    (hr : run (placed s hd) false s.now (taken s hd) = g (taken s hd)) :
    hostCmd hd c f run s = took s hd g := by
  rw [hostCmd_atIntake _ _ _ _ _ hg ha, took, hr, took]

section Restore
variable {mask addr : Nat} {data : List Byte} {h : Hdr} {acc : Bool} {now : Nat} {e : Engine}

theorem runRestore_residue {k : Nat} (hk : regionResidue mask data = some k) :
    runRestore mask addr data h acc now e = e.reply now h .residue k := by rw [runRestore, hk]

theorem runRestore_good (hk : regionResidue mask data = none) : runRestore mask addr data h acc now e =
    e.schedSnap now h acc { hd := h, mask := mask, addr := addr, bytes := data.length, tick := 0, restore := true, data := data }
      (.restore h mask addr data) := by rw [runRestore, hk]

end Restore

/-! ### The capture and its completion (R464, R465) -/

section Capture
variable {s : State} {x : Snap}

theorem exec_snapshotCapture_none (h : s.eng.snaps.find? (fun x => !x.restore && s.eng.snapDue s.now x) = none) : exec .snapshotCapture s = .next s :=
  onEng_same (f := snapshotCapture) (by rw [snapshotCapture, h])

/-- A snapshot that is due is committed at a tick that has come, with its partitions at a boundary (R463). -/
theorem snapDue_spec {e : Engine} {now : Nat} (h : e.snapDue now x = true) :
    x.capturing = false ∧ x.tick ≤ now ∧ (∀ a, x.act = some a → a.decision = some true) ∧ e.atBoundary (setBits x.mask 32) = true := by
  simp only [Engine.snapDue, Bool.and_eq_true, Bool.not_eq_true', decide_eq_true_eq] at h
  obtain ⟨⟨⟨⟨hc, ht⟩, ha⟩, hb⟩, -⟩ := h
  refine ⟨hc, ht, fun a hx => ?_, hb⟩
  rw [hx] at ha
  exact beq_iff_eq.mp ha

section Due
variable (h : s.eng.snaps.find? (fun x => !x.restore && s.eng.snapDue s.now x) = some x)
include h

theorem snapshot_due : s.eng.snapDue s.now x = true := by
  have hp := List.find?_some h
  exact (Bool.and_eq_true_iff.mp hp).2

theorem exec_snapshotCapture_small (hb : x.bytes < s.eng.snapSize x.mask) : exec .snapshotCapture s =
    .next (withEng s ((s.eng.dropSnap x).reply x.tick x.hd .badAddress (mibOf (s.eng.snapSize x.mask)))) :=
  onEng_eq (f := snapshotCapture) (by simp only [snapshotCapture, h, if_pos hb])

theorem exec_snapshotCapture_fits (hb : s.eng.snapSize x.mask ≤ x.bytes) : exec .snapshotCapture s =
    let y : Snap := { x with capturing := true, size := s.eng.snapSize x.mask, data := s.eng.snapBytes x.mask x.tick }
    .next (withEng s ((setBits x.mask 32).foldl (fun e p => e.modPart p (fun q => { q with capture := true }))
      ((({ s.eng with snaps := s.eng.snaps.map (fun z => if z = x then y else z) } : Engine).dropOwn x.hd.turn).keepCaptured x))) :=
  onEng_eq (f := snapshotCapture) (by simp only [snapshotCapture, h, if_neg (Nat.not_lt.mpr hb)])

end Due

theorem exec_snapshotCaptureDone_none (h : s.eng.snaps.find? (fun x => x.capturing) = none) : exec .snapshotCaptureDone s = .next s :=
  onEng_same (f := fun _ => captureDone) (by rw [captureDone, h])

theorem exec_snapshotCaptureDone_some (h : s.eng.snaps.find? (fun x => x.capturing) = some x) : exec .snapshotCaptureDone s =
    .next (withEng s (((setBits x.mask 32).foldl (fun e p => e.modPart p (fun q => { q with capture := false }))
      (((s.eng.dma x.hd.fn (x.addr + 64) (x.data.drop 64)).dma x.hd.fn x.addr (x.data.take 64)).dropSnap x)).reply x.tick x.hd .ok (mibOf x.size))) :=
  onEng_eq (f := fun _ => captureDone) (by simp only [captureDone, h])

end Capture

/-! ### A restore at its boundary (R467) -/

section Apply
variable {e : Engine} {x : Snap} {l : List Section}

theorem applyRestore_unreadable (hl : readSections x.data = none) : e.applyRestore x = (e.dropSnap x).reply x.tick x.hd .reserved 8 := by
  simp only [Engine.applyRestore, hl]

variable (hl : readSections x.data = some l)
include hl

theorem applyRestore_refused {c : Status} {d : Nat} (hr : (setBits x.mask 32).findSome? (fun p => e.restoreRefused l p) = some (c, d)) :
    e.applyRestore x = (e.dropSnap x).reply x.tick x.hd c d := by simp only [Engine.applyRestore, hl, hr]

variable (hr : (setBits x.mask 32).findSome? (fun p => e.restoreRefused l p) = none)
include hr

theorem applyRestore_full (hf : e.freeEntries.length < restoredCount x l) : e.applyRestore x = (e.dropSnap x).reply x.tick x.hd .tableFull 0 := by
  simp only [Engine.applyRestore, hl, hr, if_pos hf]

variable (hf : restoredCount x l ≤ e.freeEntries.length)
include hf

theorem applyRestore_noRows (ha : e.restoreAll x l = none) :
    e.applyRestore x = (e.dropSnap x).reply x.tick x.hd .kvSlots (e.shortOf512 (setBits x.mask 32)) := by
  simp only [Engine.applyRestore, hl, hr, if_neg (Nat.not_lt.mpr hf), ha]

variable {e' : Engine} {maps : List (Nat × List Nat)} (ha : e.restoreAll x l = some (e', maps))
include ha

theorem applyRestore_short (hs : e'.shortOf512 (setBits x.mask 32) ≠ 0) :
    e.applyRestore x = (e.dropSnap x).reply x.tick x.hd .kvSlots (e'.shortOf512 (setBits x.mask 32)) := by
  simp only [Engine.applyRestore, hl, hr, if_neg (Nat.not_lt.mpr hf), ha, if_pos hs]

theorem applyRestore_applied (hs : e'.shortOf512 (setBits x.mask 32) = 0) :
    e.applyRestore x = (e'.writeMaps x l maps).reply x.tick x.hd .ok 0 := by
  simp only [Engine.applyRestore, hl, hr, if_neg (Nat.not_lt.mpr hf), ha, if_neg (not_not.mpr hs)]

end Apply

theorem exec_restoreApply_none {s : State} (h : s.eng.snaps.find? (fun x => x.restore && s.eng.snapDue s.now x) = none) :
    exec .restoreApply s = .next s := onEng_same (f := restoreApply) (by rw [restoreApply, h])

theorem exec_restoreApply_some {s : State} {x : Snap} (h : s.eng.snaps.find? (fun x => x.restore && s.eng.snapDue s.now x) = some x) {e : Engine}
    (he : s.eng.applyRestore x = e) : exec .restoreApply s = .next (withEng s e) := onEng_eq (f := restoreApply) (by simp only [restoreApply, h, he])

/-- Settles O47: the schedule by whether a partition refuses, the events by the snapshot that is due. -/
theorem snapshotResults : Obligations.SnapshotResults := by
  refine ⟨fun s hd mask addr bytes data => ?_, fun _ => exec_snapshotCapture_none,
    fun _ _ h => ⟨snapDue_spec (snapshot_due h), exec_snapshotCapture_small h, exec_snapshotCapture_fits h⟩,
    fun _ => exec_snapshotCaptureDone_none, fun _ _ => exec_snapshotCaptureDone_some, fun _ => exec_restoreApply_none, fun s x h => ?_⟩
  · intro e h sched refused
    refine ⟨fun hg => ⟨fun hr => ?_, fun hr => ?_⟩, fun hg => ⟨fun k hk => ?_, fun hk hr => ?_, fun hk hr => ?_⟩⟩
    · exact hostCmd_atIntake_took hg rfl (schedSnap_accepted hr)
    · exact hostCmd_atIntake_took hg rfl (schedSnap_refused hr)
    · exact hostCmd_atIntake_took hg rfl (runRestore_residue hk)
    · exact hostCmd_atIntake_took hg rfl ((runRestore_good hk).trans (schedSnap_accepted hr))
    · exact hostCmd_atIntake_took hg rfl ((runRestore_good hk).trans (schedSnap_refused hr))
  · intro answer
    have applies {e : Engine} := exec_restoreApply_some (e := e) h
    exact ⟨fun hl => applies (applyRestore_unreadable hl), fun l hl => ⟨fun c d hr => applies (applyRestore_refused hl hr), fun hr =>
      ⟨fun hf => applies (applyRestore_full hl hr hf), fun hf ha => applies (applyRestore_noRows hl hr hf ha), fun e maps hf ha =>
        ⟨fun hs => applies (applyRestore_short hl hr hf ha hs), fun hs => applies (applyRestore_applied hl hr hf ha hs)⟩⟩⟩⟩

end Sys2Proof.Machine
end

section
/-!
PROOFS. What an instruction of the tile's units needs to know: what it sees of its tile, the bytes it reads, and what differs once it has
changed its thread or its tile (R84, R105, R146, R167).
-/
namespace Sys2Proof.Machine

open Sys2Proof.Safety

/-! ### What an instruction sees -/

@[simp] theorem seen_th (s : State) (h : Hart) (word : Word) : (seen s h word).th = thr s h := rfl

@[simp] theorem seen_claimed (s : State) (h : Hart) (word : Word) (i : Instance) (cls : Option Nat) (a : Nat) :
    (seen s h word).ti.claimed i cls a = (s.eng.tile h.loc).claimed i cls a := by rw [seen_ti]; rfl

@[simp] theorem seen_matQ (s : State) (h : Hart) (word : Word) : (seen s h word).ti.matQ = (s.eng.tile h.loc).matQ := by rw [seen_ti]

@[simp] theorem seen_movQ (s : State) (h : Hart) (word : Word) : (seen s h word).ti.movQ = (s.eng.tile h.loc).movQ := by rw [seen_ti]

@[simp] theorem seen_sp (s : State) (h : Hart) (word : Word) : (seen s h word).ti.sp = (s.eng.tile h.loc).sp := by rw [seen_ti]

@[simp] theorem seen_firstFilling (s : State) (h : Hart) (word : Word) (a n : Nat) :
    (seen s h word).ti.firstFilling a n = (s.eng.tile h.loc).firstFilling a n := by rw [seen_ti]; rfl

@[simp] theorem seen_pendingDrd (s : State) (h : Hart) (word : Word) (a n : Nat) :
    (seen s h word).ti.pendingDrd a n = (s.eng.tile h.loc).pendingDrd a n := by rw [seen_ti]; rfl

/-- The tile that an instruction sees is that of the engine it sees. -/
theorem seen_tile (s : State) (h : Hart) (word : Word) : (seen s h word).e.tile h.loc = (seen s h word).ti := rfl

/-! ### Bytes read -/

theorem readBytes_length (m : Memory) (a n : Nat) : (readBytes m a n).length = n := by
  induction n generalizing a with
  | zero => rfl
  | succ n ih => rw [readBytes, List.length_cons, ih]

theorem readBytes_getD (m : Memory) (a n : Nat) {k : Nat} (hk : k < n) : (readBytes m a n).getD k 0 = readByte m (a + k) := by
  induction n generalizing a k with
  | zero => omega
  | succ n ih =>
    cases k with
    | zero => rfl
    | succ k => rw [readBytes, List.getD_cons_succ, ih _ (by omega), Nat.add_right_comm, Nat.add_assoc]

/-- Bytes that no DRD still has to write are read as the scratchpad holds them (R146). -/
theorem Ctx.bytes_of {c : Ctx} {a n : Nat} (h : c.ti.pendingDrd a n = false) : c.bytes a n = readBytes c.ti.sp a n := by
  rw [Ctx.bytes, h]; rfl

theorem Ctx.take_of {c : Ctx} {a n : Nat} (h : c.ti.pendingDrd a n = false) : c.take a n = (readBytes c.ti.sp a n, c) := by
  rw [Ctx.take, Ctx.bytes_of h, Ctx.afterRead, h]; rfl

/-- A source that an operation may read at once: it is filled, sound, and no DRD still has to write it (R105, R146, R167). -/
structure Readable (ti : Tile) (b n : Nat) : Prop where
  filled : ti.fillingIn b n = false
  sound : ti.firstBad b n = none
  settled : ti.pendingDrd b n = false

theorem Readable.seen {s : State} {h : Hart} {word : Word} {b n : Nat} (hr : Readable (seen s h 0).ti b n) : Readable (seen s h word).ti b n :=
  ⟨by simpa using hr.filled, by simpa using hr.sound, by simpa using hr.settled⟩

theorem Readable.reading {c : Ctx} {b n : Nat} (hr : Readable c.ti b n) (k : Iss) : c.reading b n k = k := Ctx.reading_of k hr.filled hr.sound

theorem Readable.take {c : Ctx} {b n : Nat} (hr : Readable c.ti b n) : c.take b n = (readBytes c.ti.sp b n, c) := Ctx.take_of hr.settled

/-! ### The issuing thread changed -/

section OnThread
variable {s : State} {h : Hart} {e : Engine}

/-- The fetch leaves the threads as they are. -/
theorem seen_onlyThread (s : State) (h : Hart) (word : Word) : OnlyThread s (withEng s (seen s h word).e) h := by
  have ht : (seen s h word).e.tile h.loc = _ := seen_ti s h word
  refine ⟨onlyTile_seen s h word, ?_, fun k _ => ?_, fun a ha => ?_⟩
  · simp only [withEng, ht]
  · simp only [withEng, ht]; rfl
  · simp only [withEng, ht]
    exact mget_mset_ne _ _ _ ha

/-- A change of the issuing thread adds nothing to what differs. -/
theorem modThread_onlyThread (ho : OnlyThread s (withEng s e) h) (g : Thread → Thread) :
    OnlyThread s (withEng s (e.modTile h.loc (fun ti => ti.modThread h.thread g))) h := by
  obtain ⟨only, tile, threads, ibuf⟩ := ho
  have ht : (withEng s (e.modTile h.loc (fun ti => ti.modThread h.thread g))).eng.tile h.loc = (e.tile h.loc).modThread h.thread g :=
    Engine.modTile_tile ..
  refine ⟨modTile_onlyTile only _, ?_, fun k hk => ?_, fun a ha => ?_⟩
  · rw [ht]; exact tile
  · rw [ht, Tile.modThread_thread_ne _ _ _ _ hk]; exact threads k hk
  · rw [ht]; exact ibuf a ha

@[simp] theorem thr_modThread (s : State) (h : Hart) (e : Engine) (g : Thread → Thread) :
    thr (withEng s (e.modTile h.loc (fun ti => ti.modThread h.thread g))) h = g (thr (withEng s e) h) := by
  simp [thr, withEng]

@[simp] theorem thr_seen (s : State) (h : Hart) (word : Word) : thr (withEng s (seen s h word).e) h = thr s h := by
  simp only [thr, withEng]
  exact fetched_thread s.eng h _ word h.thread

end OnThread

/-- A thread that goes on with other scalar registers at most. -/
theorem wentTo_of {s t : State} {h : Hart} {pc : BitVec 21} {m : AMap Word}
    (ht : thr t h = { thr s h with pc := pc, run := .running, since := 0, regs := m }) : WentTo s t h pc :=
  ⟨by rw [ht], by rw [ht], by rw [ht], by rw [ht]⟩

/-- The scalar registers are those of the thread after a write of `v` to `d`. -/
theorem wroteX_of {s t : State} {h : Hart} {d : BitVec 5} {v : Word} (hx : ∀ r, (thr t h).x r = ((thr s h).setX d v).x r) : WroteX s t h d v where
  result := by rw [hx, Thread.x_setX, if_pos rfl]
  others r hne := by
    rw [hx, Thread.x_setX, if_neg hne]
    split
    · next h0 => subst h0; rfl
    · rfl

/-- A write to x0 is none (R84). -/
@[simp] theorem Thread.setX_zero (th : Thread) (v : Word) : th.setX 0 v = th := if_pos rfl

/-! ### The issuing tile changed -/

/-- An instruction that has changed its tile by `g`, which leaves the threads and the instruction buffer. -/
theorem issued_modTile (s : State) (h : Hart) {word : Word} {e : Engine} (ho : OnlyTile s (withEng s e) h.loc) (he : e.tile h.loc = (seen s h word).ti)
    {g : Tile → Tile} {keep : Tile → Tile → Tile} (hth : (g (seen s h word).ti).threads = (seen s h word).ti.threads)
    (hib : (g (seen s h word).ti).ibuf = (seen s h word).ti.ibuf)
    (hk : keep { g (seen s h word).ti with threads := (s.eng.tile h.loc).threads, ibuf := (s.eng.tile h.loc).ibuf } (s.eng.tile h.loc) =
      s.eng.tile h.loc) : Issued s (withEng s (advance h (e.modTile h.loc g))) h keep := by
  have ht : (e.modTile h.loc g).tile h.loc = g (seen s h word).ti := (Engine.modTile_tile ..).trans (congrArg g he)
  exact issued_advance s h (modTile_onlyTile ho _) (by rw [ht, hth, seen_ti]) (by rw [ht, hib]) (by rw [ht]; exact hk)

/-- Its tile. -/
theorem advance_modTile_tile (s : State) (h : Hart) (e : Engine) (g : Tile → Tile) :
    (withEng s (advance h (e.modTile h.loc g))).eng.tile h.loc =
      (g (e.tile h.loc)).modThread h.thread (fun th => { th with pc := th.pc + 8, run := .running, since := 0 }) :=
  (advance_tile h).trans (congrArg (Tile.modThread · _ _) (Engine.modTile_tile ..))

end Sys2Proof.Machine
end

section
/-!
PROOFS. Scalar ALU (R124, R125): the values of Table 4.4, and the counts of CLZ, CTZ and POPC.
-/
namespace Sys2Proof.Machine

open Sys2Proof.Safety

/-! ### Values -/

theorem shamt_eq (y : Word) : shamt y = (y.extractLsb' 0 6).toNat := by
  rw [BitVec.extractLsb'_toNat, Nat.shiftRight_zero]; rfl

theorem boolWord_slt (a y : Word) : boolWord (a.slt y) = if a.toInt < y.toInt then 1 else 0 := by
  simp only [boolWord, BitVec.slt, decide_eq_true_eq]

theorem boolWord_ult (a y : Word) : boolWord (a.ult y) = if a.toNat < y.toNat then 1 else 0 := by
  simp only [boolWord, BitVec.ult, decide_eq_true_eq]

/-- A signed product in 128 bits, by its value. -/
theorem signExtend_mul (a y : Word) : a.signExtend 128 * y.signExtend 128 = BitVec.ofInt 128 (a.toInt * y.toInt) := by
  rw [BitVec.signExtend, BitVec.signExtend, BitVec.ofInt_mul]

theorem mulHigh_signed (a y : Word) :
    BitVec.ofInt 64 (a.toInt * y.toInt / 2 ^ 64) = (a.signExtend 128 * y.signExtend 128).extractLsb' 64 64 := by
  apply BitVec.eq_of_toNat_eq
  rw [signExtend_mul, BitVec.extractLsb'_toNat, BitVec.toNat_ofInt, BitVec.toNat_ofInt, Nat.shiftRight_eq_div_pow]
  omega

theorem mulHigh_unsigned (a y : Word) :
    BitVec.ofNat 64 (a.toNat * y.toNat / 2 ^ 64) = (a.zeroExtend 128 * y.zeroExtend 128).extractLsb' 64 64 := by
  have ha := a.isLt; have hy := y.isLt
  have hp : a.toNat * y.toNat < 2 ^ 128 := by nlinarith
  apply BitVec.eq_of_toNat_eq
  rw [BitVec.extractLsb'_toNat, BitVec.toNat_mul, BitVec.toNat_ofNat, Nat.shiftRight_eq_div_pow]
  simp only [BitVec.truncate_eq_setWidth, BitVec.toNat_setWidth]
  rw [Nat.mod_eq_of_lt (show a.toNat < 2 ^ 128 by omega), Nat.mod_eq_of_lt (show y.toNat < 2 ^ 128 by omega), Nat.mod_eq_of_lt hp]

theorem divS_eq (a y : Word) : divS a y = if y = 0 then BitVec.allOnes 64 else a.sdiv y := by
  unfold divS
  split
  · rfl
  · exact BitVec.eq_of_toInt_eq (by rw [BitVec.toInt_ofInt, BitVec.toInt_sdiv])

theorem remS_eq (a y : Word) : remS a y = if y = 0 then a else a.srem y := by
  unfold remS
  split
  · rfl
  · exact BitVec.eq_of_toInt_eq (by rw [BitVec.toInt_ofInt, ← BitVec.toInt_srem, BitVec.toInt_bmod_cancel])

theorem divU_eq (a y : Word) : divU a y = if y = 0 then BitVec.allOnes 64 else a / y := by
  unfold divU
  split
  · rfl
  · rw [← BitVec.toNat_udiv, BitVec.ofNat_toNat, BitVec.setWidth_eq]

theorem remU_eq (a y : Word) : remU a y = if y = 0 then a else a % y := by
  unfold remU
  split
  · rfl
  · rw [← BitVec.toNat_umod, BitVec.ofNat_toNat, BitVec.setWidth_eq]

/-! ### Counts of bits -/

theorem clzFrom_le (v n : Nat) : clzFrom v n ≤ n := by
  induction n with
  | zero => exact Nat.le_refl 0
  | succ n ih => unfold clzFrom; split <;> omega

theorem clzFrom_zeros (v n : Nat) {i : Nat} (hi : i < clzFrom v n) : v.testBit (n - 1 - i) = false := by
  induction n generalizing i with
  | zero => cases hi
  | succ n ih =>
    unfold clzFrom at hi
    split at hi
    · cases hi
    · next hn =>
      cases i with
      | zero => simpa using hn
      | succ i => rw [show n + 1 - 1 - (i + 1) = n - 1 - i by omega]; exact ih (by omega)

theorem clzFrom_one (v n : Nat) (hn : clzFrom v n < n) : v.testBit (n - 1 - clzFrom v n) = true := by
  induction n with
  | zero => cases hn
  | succ n ih =>
    unfold clzFrom at hn ⊢
    split at hn
    · next ht => rw [if_pos ht]; exact ht
    · next ht => rw [if_neg ht, show n + 1 - 1 - (1 + clzFrom v n) = n - 1 - clzFrom v n by omega]; exact ih (by omega)

theorem ctzFrom_le (v n : Nat) : ctzFrom v n ≤ n := by
  induction n generalizing v with
  | zero => exact Nat.le_refl 0
  | succ n ih => have := ih (v / 2); unfold ctzFrom; split <;> omega

theorem ctzFrom_zeros (v n : Nat) {i : Nat} (hi : i < ctzFrom v n) : v.testBit i = false := by
  induction n generalizing v i with
  | zero => cases hi
  | succ n ih =>
    unfold ctzFrom at hi
    split at hi
    · cases hi
    · next hv =>
      cases i with
      | zero => simpa using hv
      | succ i => rw [Nat.testBit_succ]; exact ih _ (by omega)

theorem ctzFrom_one (v n : Nat) (hn : ctzFrom v n < n) : v.testBit (ctzFrom v n) = true := by
  induction n generalizing v with
  | zero => cases hn
  | succ n ih =>
    unfold ctzFrom at hn ⊢
    split at hn
    · next hv => rw [if_pos hv]; simpa using hv
    · next hv => rw [if_neg hv, Nat.add_comm, Nat.testBit_succ]; exact ih _ (by omega)

theorem popFrom_eq_countP (v n : Nat) : popFrom v n = (List.range n).countP (fun i => v.testBit i) := by
  induction n with
  | zero => rfl
  | succ n ih =>
    rw [popFrom, ih, List.range_succ, List.countP_append, List.countP_singleton, Nat.add_comm]; rfl

/-! ### Results -/

/-- A form with an operand y writes its function of xA and y. -/
theorem alu_result {s : State} {h : Hart} {w : Opnd} {i : Instr} (hi : issues s h w = true) (hl : aluLegal w = true) {op : Nat}
    {f : Word → Word → Word} {v : Word} (he : exec i s = alu op f h w s)
    (hv : f ((thr s h).x w.a) (if w.alt then w.imm.signExtend 64 else (thr s h).x w.b) = v) :
    ∃ t, exec i s = .next t ∧ RegResult s t h w.d v := by
  subst hv
  exact ⟨_, he.trans (issue_done hi hl (fun hv => nomatch hv) rfl), regResult_writeX s h w.d _⟩

/-- A form of xA alone writes its function of xA. -/
theorem alu1_result {s : State} {h : Hart} {w : Opnd} {i : Instr} (hi : issues s h w = true)
    (hl : fieldsOk true true false false w (w.imm == 0) = true) {op : Nat} {f : Word → Word} (he : exec i s = alu1 op f h w s) :
    ∃ t, exec i s = .next t ∧ RegResult s t h w.d (f ((thr s h).x w.a)) :=
  ⟨_, he.trans (issue_done hi hl (fun hv => nomatch hv) rfl), regResult_writeX s h w.d _⟩

/-- The word that LIH makes: IMM above the low half of xA. -/
theorem lih_value (a : Word) (m : BitVec 32) : BitVec.ofNat 64 (a.toNat % 2 ^ 32 + m.toNat * 2 ^ 32) = m ++ a.extractLsb' 0 32 := by
  apply BitVec.eq_of_toNat_eq
  have hm := m.isLt
  have ha : a.toNat % 2 ^ 32 < 2 ^ 32 := Nat.mod_lt _ (by decide)
  rw [BitVec.toNat_append, BitVec.extractLsb'_toNat, Nat.shiftRight_zero, Nat.shiftLeft_eq, Nat.mul_comm,
    ← Nat.two_pow_add_eq_or_of_lt ha, BitVec.toNat_ofNat, Nat.mod_eq_of_lt (by omega), Nat.add_comm]

/-- Settles O10: a row for each form with an operand y; CLZ, CTZ, POPC and LIH by themselves. -/
theorem scalarResults : Obligations.ScalarResults := by
  refine ⟨fun s h w hi hl => ?_, fun s h w hi => ⟨fun hl => ⟨?_, ?_, ?_⟩, fun hl => ?_⟩⟩
  · simp only [List.forall_mem_cons]
    refine ⟨alu_result hi hl (show _ = execAdd h w s from rfl) rfl,
      alu_result hi hl (show _ = execSub h w s from rfl) rfl,
      alu_result hi hl (show _ = execAnd h w s from rfl) rfl,
      alu_result hi hl (show _ = execOr h w s from rfl) rfl,
      alu_result hi hl (show _ = execXor h w s from rfl) rfl,
      alu_result hi hl (show _ = execSll h w s from rfl) (by rw [shamt_eq]),
      alu_result hi hl (show _ = execSrl h w s from rfl) (by rw [shamt_eq]),
      alu_result hi hl (show _ = execSra h w s from rfl) (by rw [shamt_eq]),
      alu_result hi hl (show _ = execSlt h w s from rfl) (boolWord_slt ..),
      alu_result hi hl (show _ = execSltu h w s from rfl) (boolWord_ult ..),
      alu_result hi hl (show _ = execMin h w s from rfl) (by simp only [BitVec.slt, decide_eq_true_eq]),
      alu_result hi hl (show _ = execMax h w s from rfl) (by simp only [BitVec.slt, decide_eq_true_eq]),
      alu_result hi hl (show _ = execMinu h w s from rfl) (by simp only [BitVec.ult, decide_eq_true_eq]),
      alu_result hi hl (show _ = execMaxu h w s from rfl) (by simp only [BitVec.ult, decide_eq_true_eq]),
      alu_result hi hl (show _ = execMul h w s from rfl) rfl,
      alu_result hi hl (show _ = execMulh h w s from rfl) (mulHigh_signed ..),
      alu_result hi hl (show _ = execMulhu h w s from rfl) (mulHigh_unsigned ..),
      alu_result hi hl (show _ = execDiv h w s from rfl) (divS_eq ..),
      alu_result hi hl (show _ = execDivu h w s from rfl) (divU_eq ..),
      alu_result hi hl (show _ = execRem h w s from rfl) (remS_eq ..),
      alu_result hi hl (show _ = execRemu h w s from rfl) (remU_eq ..), fun _ hp => nomatch hp⟩
  · obtain ⟨t, he, hr⟩ := alu1_result hi hl (show exec (.clz h w) s = execClz h w s from rfl)
    refine ⟨t, _, he, hr, clzFrom_le .., fun i hi => ?_, fun hn => ?_⟩
    · have := clzFrom_le ((thr s h).x w.a).toNat 64
      rw [BitVec.getMsbD_eq_getLsbD, ← BitVec.testBit_toNat, clzFrom_zeros _ _ hi, Bool.and_false]
    · rw [BitVec.getMsbD_eq_getLsbD, ← BitVec.testBit_toNat, clzFrom_one _ _ hn, decide_eq_true hn]; rfl
  · obtain ⟨t, he, hr⟩ := alu1_result hi hl (show exec (.ctz h w) s = execCtz h w s from rfl)
    refine ⟨t, _, he, hr, ctzFrom_le .., fun i hi => ?_, fun hn => ?_⟩
    · rw [← BitVec.testBit_toNat, ctzFrom_zeros _ _ hi]
    · rw [← BitVec.testBit_toNat, ctzFrom_one _ _ hn]
  · obtain ⟨t, he, hr⟩ := alu1_result hi hl (show exec (.popc h w) s = execPopc h w s from rfl)
    rw [popFrom_eq_countP] at hr
    exact ⟨t, he, hr⟩
  · rw [← lih_value]
    exact ⟨_, issue_done hi hl (fun hv => nomatch hv) rfl, regResult_writeX s h w.d _⟩

end Sys2Proof.Machine
end

section
/-!
PROOFS. Control and synchronisation (R87, R129, R130, R132, R499): what a change of the issuing thread leaves as it is, and where the thread
goes.
-/
namespace Sys2Proof.Machine

open Sys2Proof.Safety

/-! ### Where the thread goes -/

section Ends
variable {s : State} {h : Hart} {word : Word}

/-- An instruction with no result. -/
theorem regResult_none (s : State) (h : Hart) (word : Word) : RegResult s (withEng s (advance h (seen s h word).e)) h 0 0 := by
  have ht : thr (withEng s (advance h (seen s h word).e)) h = { thr s h with pc := (thr s h).pc + 8, run := .running, since := 0 } := by
    simp [advance]
  refine ⟨?_, wentTo_of ht, wroteX_of fun r => by rw [ht, Thread.setX_zero]; rfl⟩
  unfold advance
  exact modThread_onlyThread (seen_onlyThread s h word) _

/-- A jump to `pc` that links `v` in `d`. -/
theorem jump_result (s : State) (h : Hart) (word : Word) (d : BitVec 5) (v : Word) (pc : Nat) :
    OnlyThread s (withEng s (finish (seen s h word) (.jump pc ((seen s h word).writeX d v (seen s h word).e)))) h ∧
    WentTo s (withEng s (finish (seen s h word) (.jump pc ((seen s h word).writeX d v (seen s h word).e)))) h (BitVec.ofNat 21 pc) ∧
    WroteX s (withEng s (finish (seen s h word) (.jump pc ((seen s h word).writeX d v (seen s h word).e)))) h d v := by
  obtain ⟨m, hm⟩ := Thread.setX_frame (thr s h) d v
  have ht : thr (withEng s (finish (seen s h word) (.jump pc ((seen s h word).writeX d v (seen s h word).e)))) h =
      { (thr s h).setX d v with pc := BitVec.ofNat 21 pc, run := .running, since := 0 } := by
    simp [finish, Ctx.writeX, Ctx.withThread]
  refine ⟨?_, wentTo_of (by rw [ht, hm]), wroteX_of fun r => by rw [ht]; rfl⟩
  exact modThread_onlyThread (modThread_onlyThread (seen_onlyThread s h word) _) _

/-- A branch taken to `pc`. -/
theorem branch_taken (s : State) (h : Hart) (word : Word) (pc : Nat) :
    OnlyThread s (withEng s (finish (seen s h word) (.jump pc (seen s h word).e))) h ∧
    WentTo s (withEng s (finish (seen s h word) (.jump pc (seen s h word).e))) h (BitVec.ofNat 21 pc) ∧
    WroteX s (withEng s (finish (seen s h word) (.jump pc (seen s h word).e))) h 0 0 := by
  have ht : thr (withEng s (finish (seen s h word) (.jump pc (seen s h word).e))) h =
      { thr s h with pc := BitVec.ofNat 21 pc, run := .running, since := 0 } := by simp [finish, Ctx.withThread]
  refine ⟨?_, wentTo_of ht, wroteX_of fun r => by rw [ht, Thread.setX_zero]; rfl⟩
  exact modThread_onlyThread (seen_onlyThread s h word) _

end Ends

theorem seen_link (s : State) (h : Hart) (word : Word) : (seen s h word).link = ((thr s h).pc + 8).zeroExtend 64 := BitVec.ofNat_toNat ..

/-- A target that is 8-aligned and inside a code region passes the checks (R129). -/
theorem Ctx.goto_of {c : Ctx} {t : Nat} (ha : t % 8 = 0) (hc : c.ti.claimed c.i (some 1) t = true) (e : Engine) : c.goto t e = .jump t e := by
  rw [Ctx.goto, aligned_of ha, check_of hc]

/-- The sign of a difference of 32 bits (R132). -/
theorem msb_sub_truncate (n : Nat) (x : Word) :
    (BitVec.ofNat 32 n - x.truncate 32).msb = decide ((BitVec.ofNat 32 n - x.extractLsb' 0 32).toInt < 0) := by
  rw [BitVec.msb_eq_toInt, BitVec.truncate_eq_setWidth, BitVec.setWidth_eq_extractLsb' (by decide)]

/-! ### Branches and jumps (R129) -/

section Branches
variable {s : State} {h : Hart} {w : Opnd} (hi : issues s h w = true)
include hi

theorem branch_result {i : Instr} {op : Nat} {f : Word → Word → Bool} {b : Bool} {rel : Nat} (he : exec i s = branch op f h w s)
    (hf : f ((thr s h).x w.a) ((thr s h).x w.b) = b) (hl : fieldsOk false true true false w true = true)
    (hr : rel = (BitVec.ofNat 64 (thr s h).pc.toNat + w.imm.signExtend 64 * 8).toNat) :
    (b = false → ∃ t, exec i s = .next t ∧ RegResult s t h 0 0) ∧
    (b = true → rel % 8 = 0 → (seen s h 0).ti.claimed (seen s h 0).i (some 1) rel = true →
      ∃ t, exec i s = .next t ∧ OnlyThread s t h ∧ WentTo s t h (BitVec.ofNat 21 rel) ∧ WroteX s t h 0 0) := by
  have hx : exec i s = .next (withEng s (finish (seen s h (wordOf 2 op w)) (if b then (seen s h (wordOf 2 op w)).goto rel
      (seen s h (wordOf 2 op w)).e else .done (seen s h (wordOf 2 op w)).e))) := by
    subst hf hr
    exact he.trans (issue_body _ _ _ _ _ _ _ _ hi hl (fun hv => nomatch hv))
  refine ⟨fun hb => ⟨_, hx, ?_⟩, fun hb ha hc => ⟨_, hx, ?_⟩⟩
  · rw [hb]
    exact regResult_none s h _
  · rw [hb, if_pos rfl, Ctx.goto_of ha (by simpa using hc)]
    exact branch_taken s h _ rel

theorem jal_result (hl : fieldsOk true false false false w true = true) {rel : Nat} 
    (hr : rel = (BitVec.ofNat 64 (thr s h).pc.toNat + w.imm.signExtend 64 * 8).toNat) (ha : rel % 8 = 0)
    (hc : (seen s h 0).ti.claimed (seen s h 0).i (some 1) rel = true) :
    ∃ t, exec (.jal h w) s = .next t ∧ OnlyThread s t h ∧ WentTo s t h (BitVec.ofNat 21 rel) ∧
      WroteX s t h w.d (((thr s h).pc + 8).zeroExtend 64) := by
  refine ⟨_, issue_body _ _ _ _ _ _ _ _ hi hl (fun hv => nomatch hv), ?_⟩
  rw [show (seen s h (wordOf 2 8 w)).relative w = rel from hr.symm, Ctx.goto_of ha (by simpa using hc), seen_link]
  exact jump_result s h _ w.d _ rel

theorem jalr_result (hl : fieldsOk true true false false w true = true) {tgt : Nat} (hr : tgt = ((thr s h).x w.a + w.imm.signExtend 64).toNat)
    (ha : tgt % 8 = 0) (hc : (seen s h 0).ti.claimed (seen s h 0).i (some 1) tgt = true) :
    ∃ t, exec (.jalr h w) s = .next t ∧ OnlyThread s t h ∧ WentTo s t h (BitVec.ofNat 21 tgt) ∧
      WroteX s t h w.d (((thr s h).pc + 8).zeroExtend 64) := by
  refine ⟨_, issue_body _ _ _ _ _ _ _ _ hi hl (fun hv => nomatch hv), ?_⟩
  rw [show ((seen s h (wordOf 2 9 w)).x w.a + simm w).toNat = tgt from hr.symm, Ctx.goto_of ha (by simpa using hc), seen_link]
  exact jump_result s h _ w.d _ tgt

/-! ### Synchronisation -/

theorem fence_result (hl : fieldsOk false false false false w (decide (w.imm.toNat < 256)) = true) :
    ((seen s h 0).ti.fenceOpen h.thread w.imm.toNat = false → ∃ t, exec (.fence h w) s = .next t ∧ RegResult s t h 0 0) ∧
    ((seen s h 0).ti.fenceOpen h.thread w.imm.toNat = true →
      exec (.fence h w) s = .next (withEng s (stalled s h (seen s h (wordOf 2 0x10 w)).e))) := by
  have hm : (mod w 31 8 == 0) = decide (w.imm.toNat < 256) := by
    have := w.imm.isLt
    rw [Bool.eq_iff_iff, beq_iff_eq, decide_eq_true_eq, mod, fld, Nat.shiftRight_eq_div_pow]
    omega
  have hl' : w.imm.toNat < 256 := of_decide_eq_true (Bool.and_eq_true_iff.mp hl).2
  have h7 : mod w 7 0 = w.imm.toNat := Nat.mod_eq_of_lt hl'
  have hf : ∀ word, (seen s h word).ti.fenceOpen h.thread (mod w 7 0) = (seen s h 0).ti.fenceOpen h.thread w.imm.toNat := fun word => by
    rw [h7, seen_ti, seen_ti]; rfl
  refine ⟨fun hn => ⟨_, issue_done hi (by rw [hm, hl]) (fun hv => nomatch hv) (e := (seen s h (wordOf 2 0x10 w)).e) ?_, regResult_none s h _⟩,
    fun hn => issue_wait hi (by rw [hm, hl]) (fun hv => nomatch hv) ?_⟩
  · simp only [hf, hn, Bool.false_eq_true, if_false]
  · simp only [hf, hn, if_true]

theorem fenceI_result (hl : fieldsOk false false false false w (w.imm == 0) = true) :
    ∃ t, exec (.fenceI h w) s = .next t ∧ OnlyTile s t h.loc ∧ (t.eng.tile h.loc).ibuf = [] ∧
      { t.eng.tile h.loc with threads := (s.eng.tile h.loc).threads, ibuf := (s.eng.tile h.loc).ibuf } = s.eng.tile h.loc ∧
      WentTo s t h ((thr s h).pc + 8) ∧ WroteX s t h 0 0 ∧
      ∀ k : Nat, k ≠ h.thread → (t.eng.tile h.loc).thread k = (s.eng.tile h.loc).thread k := by
  have he : ((seen s h (wordOf 2 0x11 w)).modTile (fun ti => { ti with ibuf := [] })).tile h.loc = { s.eng.tile h.loc with ibuf := [] } :=
    (Engine.modTile_tile ..).trans (congrArg (fun ti : Tile => { ti with ibuf := [] }) (seen_ti s h _))
  have ht : thr (withEng s (advance h ((seen s h (wordOf 2 0x11 w)).modTile (fun ti => { ti with ibuf := [] })))) h =
      { thr s h with pc := (thr s h).pc + 8, run := .running, since := 0 } := by
    rw [thr_advance, he]; rfl
  refine ⟨_, issue_done hi hl (fun hv => nomatch hv) rfl, advance_onlyTile s h (modTile_onlyTile (onlyTile_seen s h _) _), ?_, ?_, wentTo_of ht,
    wroteX_of fun r => by rw [ht, Thread.setX_zero]; rfl, fun k hk => ?_⟩
  · simp only [withEng, advance_tile, he, Tile.modThread]
  · simp only [withEng, advance_tile, he, Tile.modThread]
  · simp only [withEng, advance_tile, he, Tile.modThread_thread_ne _ _ _ _ hk]; rfl

theorem waitc_result (hl : fieldsOk false true false false w (decide (w.imm.toNat ≤ 5)) = true) {ahead : Int}
    (ha : ahead = (BitVec.ofNat 32 (mget (fun _ => 0) w.imm.toNat (seen s h 0).i.cnt) - ((thr s h).x w.a).extractLsb' 0 32).toInt) :
    (0 ≤ ahead → ∃ t, exec (.waitc h w) s = .next t ∧ RegResult s t h 0 0) ∧
    (ahead < 0 → exec (.waitc h w) s = .next (withEng s (stalled s h (seen s h (wordOf 2 0x13 w)).e))) := by
  have hl' : w.imm.toNat ≤ 5 := of_decide_eq_true (Bool.and_eq_true_iff.mp hl).2
  have h2 : mod w 2 0 = w.imm.toNat := Nat.mod_eq_of_lt (by omega)
  have hm : (BitVec.ofNat 32 (mget (fun _ => 0) (mod w 2 0) (seen s h (wordOf 2 0x13 w)).i.cnt) -
      ((seen s h (wordOf 2 0x13 w)).x w.a).truncate 32).msb = decide (ahead < 0) := by
    rw [h2, ha, seen_i, seen_i]
    exact msb_sub_truncate ..
  refine ⟨fun hn => ⟨_, issue_done hi hl (fun hv => nomatch hv) (e := (seen s h (wordOf 2 0x13 w)).e) ?_, regResult_none s h _⟩,
    fun hn => issue_wait hi hl (fun hv => nomatch hv) ?_⟩
  · simp only [hm, Int.not_lt.mpr hn, decide_false, Bool.false_eq_true, if_false]
  · simp only [hm, hn, decide_true, if_true]

theorem rdpace_result (hl : fieldsOk true false false false w (w.imm == 0) = true) :
    ∃ t, exec (.rdpace h w) s = .next t ∧ OnlyThread s t h ∧ WroteX s t h w.d (BitVec.ofNat 64 (max s.now (thr s h).lastPace)) ∧
      { thr t h with regs := (thr s h).regs } =
        { thr s h with pc := (thr s h).pc + 8, run := .running, since := 0, lastPace := max s.now (thr s h).lastPace } := by
  refine ⟨_, issue_done hi hl (fun hv => nomatch hv) rfl, ?_⟩
  obtain ⟨m, hm⟩ := Thread.setX_frame (thr s h) w.d (BitVec.ofNat 64 (max s.now (thr s h).lastPace))
  have ht : ∀ g, thr (withEng s (advance h ((seen s h (wordOf 2 0x18 w)).withThread (seen s h (wordOf 2 0x18 w)).e g))) h =
      { g (thr s h) with pc := (g (thr s h)).pc + 8, run := .running, since := 0 } := fun g => by
    simp [advance, Ctx.withThread]
  refine ⟨?_, wroteX_of fun r => by rw [ht]; rfl, ?_⟩
  · unfold advance
    exact modThread_onlyThread (modThread_onlyThread (seen_onlyThread s h _) _) _
  · rw [ht]
    exact congrArg (fun th : Thread => { th with
      pc := th.pc + 8, run := .running, since := 0, lastPace := max s.now (thr s h).lastPace, regs := (thr s h).regs }) hm

theorem rdcnt_result (hl : fieldsOk true false false false w (w.imm.toNat < 6 || (decide (8 ≤ w.imm.toNat) && decide (w.imm.toNat ≤ 13))) = true) :
    ∃ t, exec (.rdcnt h w) s = .next t ∧ RegResult s t h w.d (BitVec.ofNat 64 (mget (fun _ => 0) w.imm.toNat
      (if w.imm.toNat < 8 then (seen s h 0).i.cnt else (s.eng.tile h.loc).stepCnt))) := by
  have hm : (decide (w.imm.toNat < 14) && w.imm.toNat != 6 && w.imm.toNat != 7) =
      (decide (w.imm.toNat < 6) || (decide (8 ≤ w.imm.toNat) && decide (w.imm.toNat ≤ 13))) := by
    rw [Bool.eq_iff_iff]
    simp only [Bool.and_eq_true, Bool.or_eq_true, decide_eq_true_eq, bne_iff_ne, ne_eq]
    omega
  have hl' := (Bool.and_eq_true_iff.mp hl).2
  simp only [Bool.and_eq_true, Bool.or_eq_true, decide_eq_true_eq] at hl'
  have h3 : mod w 3 0 = w.imm.toNat := Nat.mod_eq_of_lt (by omega)
  have hc : mget (fun _ => 0) w.imm.toNat (if w.imm.toNat < 8 then (seen s h 0).i.cnt else (s.eng.tile h.loc).stepCnt) =
      (seen s h (wordOf 2 0x19 w)).counter (mod w 3 0) := by
    rw [h3, Ctx.counter, seen_ti, seen_i, seen_i]
    split <;> rfl
  rw [hc]
  exact ⟨_, issue_done hi (by rw [hm, hl]) (fun hv => nomatch hv) rfl, regResult_writeX s h w.d _⟩

end Branches

/-- Settles O13: branches by their condition, and each other instruction by itself. -/
theorem controlResults : Obligations.ControlResults := by
  refine ⟨fun s h w hi => ?_, fun s h w hi => ?_⟩
  · intro c a b rel
    refine ⟨fun hl => ?_, fun hl => jal_result hi hl rfl, fun hl => jalr_result hi hl rfl⟩
    simp only [List.forall_mem_cons]
    refine ⟨branch_result hi (show _ = execBeq h w s from rfl) (b := decide (a = b)) (beq_eq_decide ..) hl rfl,
      branch_result hi (show _ = execBne h w s from rfl) ?_ hl rfl,
      branch_result hi (show _ = execBlt h w s from rfl) rfl hl rfl,
      branch_result hi (show _ = execBge h w s from rfl) ?_ hl rfl,
      branch_result hi (show _ = execBltu h w s from rfl) rfl hl rfl,
      branch_result hi (show _ = execBgeu h w s from rfl) ?_ hl rfl, fun _ hp => nomatch hp⟩
    · rw [bne, beq_eq_decide, decide_not]
    · rw [BitVec.slt, ← decide_not]; exact decide_eq_decide.mpr Int.not_lt
    · rw [BitVec.ult, ← decide_not]; exact decide_eq_decide.mpr Nat.not_lt
  · intro c
    exact ⟨fence_result hi, fenceI_result hi, fun hl => waitc_result hi hl rfl, rdpace_result hi, rdcnt_result hi⟩

end Sys2Proof.Machine
end

section
/-!
PROOFS. Matrix unit (R91 to R94, R142): what a free unit takes from its queue, the checks of an MMA, and the completion of its adds.
-/
namespace Sys2Proof.Machine

open Sys2Proof.Safety

/-! ### The queue and the unit (R92) -/

/-- The unit takes the first n MMAs of the queue: those before which it is free, up to one before which it is not. -/
theorem mmaTake_spec (u q : List MmaJob) : ∃ n ≤ q.length, mmaTake u q = (u ++ q.take n, q.drop n) ∧
    (n < q.length → unitFree (u ++ q.take n) = false) ∧ ∀ k < n, unitFree (u ++ q.take k) = true := by
  induction q generalizing u with
  | nil => exact ⟨0, Nat.le_refl 0, by simp [mmaTake], fun h => absurd h (Nat.lt_irrefl 0), fun k hk => absurd hk (Nat.not_lt_zero k)⟩
  | cons j q ih =>
    by_cases hu : unitFree u = true
    · obtain ⟨n, hn, ht, hstop, hfree⟩ := ih (u ++ [j])
      simp only [List.append_assoc, List.singleton_append] at ht hstop hfree
      refine ⟨n + 1, by simpa using hn, by rw [mmaTake, if_pos hu, ht]; rfl, fun h => hstop (by simpa using h), fun k hk => ?_⟩
      cases k with
      | zero => simpa using hu
      | succ k => exact hfree k (by omega)
    · exact ⟨0, Nat.zero_le _, by rw [mmaTake, if_neg hu]; simp, fun _ => by simpa using hu, fun k hk => absurd hk (Nat.not_lt_zero k)⟩

theorem Tile.feedUnit_spec (ti : Tile) : ∃ n ≤ ti.matQ.length, ti.feedUnit = { ti with matU := ti.matU ++ ti.matQ.take n, matQ := ti.matQ.drop n } ∧
    (n < ti.matQ.length → unitFree (ti.matU ++ ti.matQ.take n) = false) ∧ ∀ k < n, unitFree (ti.matU ++ ti.matQ.take k) = true := by
  obtain ⟨n, hn, ht, hs⟩ := mmaTake_spec ti.matU ti.matQ
  exact ⟨n, hn, by rw [Tile.feedUnit, ht], hs⟩

theorem firstBadBlock_eq_none {f : Fmt} {a : Nat} {bs : List RawBlock} (h : ∀ x ∈ bs, x.good f = true) : firstBadBlock f a bs = none := by
  have : bs.zipIdx.find? (fun x => !x.1.good f) = none :=
    List.find?_eq_none.mpr fun x hx => by simp [h x.1 (List.fst_mem_of_mem_zipIdx hx)]
  rw [firstBadBlock, this]; rfl

/-! ### MMA -/

/-- An MMA of n bytes of weights at `a` and m bytes of activations at `b` passes the checks before the queue's (R95, R119). -/
structure MmaOk (c : Ctx) (w : Opnd) (a n b m : Nat) : Prop where
  granted : c.i.banks.testBit (mod w 31 30) = true
  alignedA : a % 8 = 0
  alignedB : b % 8 = 0
  insideA : c.ti.firstOutside c.i a n = none
  insideB : c.ti.firstOutside c.i b m = none

theorem MmaOk.checks {c : Ctx} {w : Opnd} {a n b m : Nat} (h : MmaOk c w a n b m) (k : Iss) :
    (c.granted (mod w 31 30) <| aligned a 8 <| aligned b 8 <| c.claim a n <| c.claim b m k) = k := by
  rw [Ctx.granted_of _ h.granted, aligned_of h.alignedA, aligned_of h.alignedB, Ctx.claim_of _ h.insideA, Ctx.claim_of _ h.insideB]

/-- The products of an MMA that reads weights `ws` and activations `acts`. -/
def mmaJob (s : State) (h : Hart) (w : Opnd) (ws acts : List RawBlock) : MmaJob :=
  { thread := h.thread, slot := (thr s h).task, bank := mod w 31 30, adds := mmaAdds w ws acts, occ := mmaOcc w }

/-- The queue accepts an MMA, which a free unit takes at once; `n` inputs were flushed. -/
def Tile.acceptMma (ti : Tile) (j : MmaJob) (n : Nat) : Tile := ({ ti with matQ := ti.matQ ++ [j] } : Tile).feedUnit.count 8 n

section Mma
variable {s : State} {h : Hart} {w : Opnd} {c : Ctx} (hi : issues s h w = true)
  (hl : fieldsOk false true true false w (mod w 21 0 == 0 && mod w 23 22 != 3) = true) (hc : c = seen s h (wordOf 6 0 w)) {wa aa wn an : Nat}
  (hwa : wa = ((thr s h).x w.a).toNat) (haa : aa = ((thr s h).x w.b).toNat) (hwn : wn = arrayBytes (mmaW w) (mmaG w))
  (han : an = arrayBytes (mmaA w) (mmaP w)) (hk : MmaOk c w wa wn aa an)
include hi hl hc hwa haa hwn han hk

theorem mma_waits (hq : 4 ≤ c.ti.matQ.length) : exec (.mma h w) s = .next (withEng s (stalled s h c.e)) := by
  subst hc hwa haa hwn han
  exact issue_wait hi hl (fun hv => nomatch hv) ((hk.checks _).trans (if_pos (decide_eq_true hq)))

variable (hq : c.ti.matQ.length < 4) (hfw : c.ti.fillingIn wa wn = false) (hbw : c.ti.firstBad wa wn = none) (hfa : c.ti.fillingIn aa an = false)
  (hba : c.ti.firstBad aa an = none)
include hq hfw hbw hfa hba

/-- With room in the queue, an MMA is decided by the residues of the blocks that it reads. -/
theorem mma_reads {ws acts : List RawBlock} (hws : ws = arrayBlocks (mmaW w) (mmaG w) (c.take wa wn).1)
    (hacts : acts = arrayBlocks (mmaA w) (mmaP w) ((c.take wa wn).2.take aa an).1) :
    exec (.mma h w) s = .next (withEng s (finish c (match (firstBadBlock (mmaW w) wa ws).orElse (fun _ => firstBadBlock (mmaA w) aa acts) with
      | some d => .exc .residue d
      | none => .done (((c.take wa wn).2.take aa an).2.modTile (fun ti => ti.acceptMma (mmaJob s h w ws acts) (mmaFlushed w acts)))))) := by
  subst hc hwa haa hwn han hws hacts
  refine (issue_body _ _ _ false _ _ _ _ hi hl (fun hv => nomatch hv)).trans ?_
  refine congrArg (fun k => Host.Outcome.next (withEng s (finish (seen s h (wordOf 6 0 w)) k))) ((hk.checks _).trans ?_)
  refine (if_neg (by simpa using hq)).trans ((Ctx.reading_of _ hfw hbw).trans ((Ctx.reading_of _ hfa hba).trans ?_))
  rfl

end Mma

/-! ### MMA_COMPLETE -/

theorem mmaComplete_cons {s : State} {u : Loc} {j : MmaJob} {r : List MmaJob} (hu : locOk u = true) (hj : (s.eng.tile u).matU = j :: r) :
    exec (.mmaComplete u) s = .next (withEng s (s.eng.modTile u (fun ti => ({ ti with matU := r } : Tile).feedUnit.addAll j.bank j.adds))) :=
  onUnit_eq hu (Engine.modTile_congr (by rw [mmaDone, hj]))

theorem mmaComplete_nil {s : State} {u : Loc} (hu : locOk u = true) (hj : (s.eng.tile u).matU = []) :
    exec (.mmaComplete u) s = .next (withEng s (s.eng.modTile u id)) :=
  onUnit_eq hu (Engine.modTile_congr (by rw [mmaDone, hj]; rfl))

/-- Settles O19: an MMA by the queue's room and the residues of its blocks, the completion by the unit's oldest MMA. -/
theorem matrixResults : Obligations.MatrixResults := by
  refine ⟨fun s h w hi hl => ?_, fun s u j r hu hj => mmaComplete_cons hu hj, fun s u hu hj => mmaComplete_nil hu hj, Tile.feedUnit_spec⟩
  · intro c wa aa wn an hg ha hb hoa hob
    have hk : MmaOk c w wa wn aa an := ⟨hg, ha, hb, hoa, hob⟩
    refine ⟨mma_waits hi hl rfl rfl rfl rfl rfl hk, fun hq hfw hbw hfa hba => ?_⟩
    intro c1 c2 ws acts job
    have hx := mma_reads hi hl rfl rfl rfl rfl rfl hk hq hfw hbw hfa hba (ws := ws) (acts := acts) rfl rfl
    refine ⟨fun hgw hga => ?_, fun d hd => ?_⟩
    · rw [hx, firstBadBlock_eq_none hgw, firstBadBlock_eq_none hga]; rfl
    · rw [hx, hd]; rfl

end Sys2Proof.Machine
end

section
/-!
PROOFS. Tile mover (R108, R109, R144, R160): the bytes that each operation places, and the completion of the oldest.
-/
namespace Sys2Proof.Machine

open Sys2Proof.Safety

/-! ### Lists of bytes -/

/-- Chunks of m bytes each, one for each number below n. -/
theorem length_flatMap_chunks {f : Nat → List Byte} {m n : Nat} (hf : ∀ i < n, (f i).length = m) : ((List.range n).flatMap f).length = n * m := by
  induction n with
  | zero => simp
  | succ n ih =>
    rw [List.range_succ, List.flatMap_append, List.length_append, ih (fun i hi => hf i (by omega)), List.flatMap_singleton, hf n (by omega), Nat.succ_mul]

theorem getD_flatMap_chunks {f : Nat → List Byte} {m n : Nat} (hf : ∀ i < n, (f i).length = m) {k : Nat} (hk : k < n * m) :
    ((List.range n).flatMap f).getD k 0 = (f (k / m)).getD (k % m) 0 := by
  induction n with
  | zero => omega
  | succ n ih =>
    have hl := length_flatMap_chunks (n := n) (fun i hi => hf i (by omega))
    rw [List.range_succ, List.flatMap_append, List.flatMap_singleton]
    rw [Nat.succ_mul] at hk
    by_cases hkn : k < n * m
    · rw [List.getD_append _ _ _ _ (by rw [hl]; exact hkn), ih (fun i hi => hf i (by omega)) hkn]
    · have hd : k / m = n := Nat.div_eq_of_lt_le (by omega) (by rw [Nat.succ_mul]; omega)
      have hm : k % m = k - n * m := by rw [Nat.mod_eq_sub_mul_div, hd, Nat.mul_comm]
      rw [List.getD_append_right _ _ _ _ (by omega), hl, hd, hm]

/-- n copies of a word are n chunks of its bytes. -/
theorem repeatWord_eq_flatMap (v n : Nat) : repeatWord v n = (List.range n).flatMap (fun _ => natBytes v 8) := by
  induction n with
  | zero => rfl
  | succ n ih => rw [repeatWord, ih, List.range_succ_eq_map, List.flatMap_cons, List.flatMap_map]

theorem repeatWord_length (v n : Nat) : (repeatWord v n).length = n * 8 := by
  rw [repeatWord_eq_flatMap, length_flatMap_chunks (fun _ _ => natBytes_length v 8)]

theorem repeatWord_getD (v : Word) {n k : Nat} (hk : k < n * 8) : (repeatWord v.toNat n).getD k 0 = v.extractLsb' (8 * (k % 8)) 8 := by
  rw [repeatWord_eq_flatMap, getD_flatMap_chunks (fun _ _ => natBytes_length v.toNat 8) hk, natBytes_getD _ _ _ (Nat.mod_lt _ (by decide))]
  exact BitVec.eq_of_toNat_eq (by rw [BitVec.toNat_ofNat, BitVec.extractLsb'_toNat, Nat.shiftRight_eq_div_pow])

/-- Row i of a transposed panel: the words of column i. -/
theorem transposedRow_length {bs : List Byte} (hb : bs.length = 8192) {i : Nat} (hi : i < 32) :
    ((List.range 32).flatMap (fun j => (bs.drop (256 * j + 8 * i)).take 8)).length = 256 :=
  length_flatMap_chunks (m := 8) fun j hj => by rw [List.length_take, List.length_drop]; omega

theorem transposed_length {bs : List Byte} (hb : bs.length = 8192) : (transposed bs).length = 8192 :=
  length_flatMap_chunks (m := 256) fun _ hi => transposedRow_length hb hi

/-- Word (i, j) of a transposed panel is word (j, i) of the panel. -/
theorem transposed_getD {bs : List Byte} (hb : bs.length = 8192) {k : Nat} (hk : k < 8192) :
    (transposed bs).getD k 0 = bs.getD (256 * (k / 8 % 32) + 8 * (k / 256) + k % 8) 0 := by
  have hw : ∀ j < 32, ((bs.drop (256 * j + 8 * (k / 256))).take 8).length = 8 := fun j hj => by
    rw [List.length_take, List.length_drop]; omega
  have hr : k % 256 / 8 = k / 8 % 32 := by omega
  have h8 : k % 256 % 8 = k % 8 := by omega
  rw [transposed, getD_flatMap_chunks (m := 256) (fun _ hi => transposedRow_length hb hi) (by omega),
    getD_flatMap_chunks (m := 8) hw (by omega), hr, h8, List.getD_eq_getElem?_getD, List.getElem?_take, if_pos (by omega), List.getElem?_drop,
    List.getD_eq_getElem?_getD]

/-! ### Operations accepted -/

/-- What a mover operation that places `len` bytes `bs` at `a` does: with room in the queue they are in place at once, else the thread waits. -/
def Placed (s : State) (i : Instr) (h : Hart) (w : Opnd) (op a len : Nat) (bs : Nat → Byte) : Prop :=
  ((seen s h 0).ti.movQ.length < 8 → ∃ t, exec i s = .next t ∧
    Issued s t h (fun x y => { x with sp := y.sp, badWords := y.badWords, movQ := y.movQ }) ∧ Stored s t h.loc a len bs ∧
    (t.eng.tile h.loc).movQ = (s.eng.tile h.loc).movQ ++ [{ thread := h.thread, slot := (thr s h).task }]) ∧
  (8 ≤ (seen s h 0).ti.movQ.length → exec i s = .next (withEng s (stalled s h (seen s h (wordOf 8 op w)).e)))

/-- The mover's queue takes job `j`, which places the bytes `l` at `a` (R109). -/
def Tile.acceptMove (ti : Tile) (a : Nat) (l : List Byte) (j : MoverJob) : Tile := { ti.store a l with movQ := ti.movQ ++ [j] }

theorem moverAccept_store (s : State) (h : Hart) (word : Word) (a : Nat) (l : List Byte) : moverAccept (seen s h word) (fun ti => ti.store a l) =
    .done ((seen s h word).e.modTile h.loc (fun ti => ti.acceptMove a l { thread := h.thread, slot := (thr s h).task })) := rfl

theorem moverFull_room {c : Ctx} (h : c.ti.movQ.length < 8) (k : Iss) : moverFull c k = k := if_neg (by simpa using h)

theorem moverFull_full {c : Ctx} (h : 8 ≤ c.ti.movQ.length) (k : Iss) : moverFull c k = .wait c.e := if_pos (decide_eq_true h)

section Mover
variable {s : State} {h : Hart} {w : Opnd} (hi : issues s h w = true)
include hi

/-- An operation whose checks pass, and which places the bytes `l` once its queue has room. -/
theorem mover_placed {i : Instr} {op : Nat} {legal : Bool} {body : Ctx → Iss} {a : Nat} {l : List Byte} {len : Nat} {bs : Nat → Byte}
    (he : exec i s = issue 8 op legal false h w body s) (hl : legal = true)
    (hb : body (seen s h (wordOf 8 op w)) =
      moverFull (seen s h (wordOf 8 op w)) (moverAccept (seen s h (wordOf 8 op w)) (fun ti => ti.store a l))) (hlen : l.length = len)
    (hbs : ∀ k < len, l.getD k 0 = bs k) : Placed s i h w op a len bs := by
  subst hlen
  refine ⟨fun hq => ?_, fun hq => he.trans (issue_wait hi hl (fun hv => nomatch hv) (hb.trans (moverFull_full (by simpa using hq) _)))⟩
  refine ⟨_, he.trans (issue_done hi hl (fun hv => nomatch hv) (hb.trans ((moverFull_room (by simpa using hq) _).trans (moverAccept_store ..)))),
    issued_modTile s h (onlyTile_seen s h (wordOf 8 op w)) rfl rfl rfl (by rw [Tile.acceptMove, seen_ti]; rfl), ⟨fun k hk => ?_, fun b hb => ?_, fun k => ?_⟩, ?_⟩
  all_goals rw [advance_modTile_tile, seen_tile]; simp only [Tile.modThread, Tile.acceptMove]
  · rw [Tile.readByte_store, if_pos (by omega), Nat.add_sub_cancel_left, hbs k hk]
  · rw [Tile.readByte_store, if_neg (by omega), seen_sp]
  · rw [Tile.mem_badWords_store, seen_ti]
  · rw [seen_movQ]

variable {a b n : Nat} (ha : a = ((thr s h).x w.a).toNat) (hb : b = ((thr s h).x w.b).toNat)
include ha hb

theorem mfill_placed (hl : fieldsOk false true true true w (w.imm == 0) = true) (ha8 : a % 8 = 0) (hb8 : b % 8 = 0) (hlo : 8 ≤ b)
    (hhi : b ≤ 2097152) (ho : (seen s h 0).ti.firstOutside (seen s h 0).i a b = none) (hf : (seen s h 0).ti.firstFilling a b = none) :
    Placed s (.mfill h w) h w 0 a b (fun k => ((thr s h).x w.c).extractLsb' (8 * (k % 8)) 8) := by
  have hlen : b / 8 * 8 = b := by omega
  subst ha hb
  refine mover_placed hi (show _ = execMfill h w s from rfl) hl ?_ ((repeatWord_length ((thr s h).x w.c).toNat _).trans hlen)
    fun k hk => repeatWord_getD _ (by omega)
  simp only [seen_xn]
  rw [aligned_of ha8, lenMultiple, check_of (beq_iff_eq.mpr hb8), lenRange, check_of (by simp [hlo, hhi]), Ctx.claim_of _ (by simpa using ho),
    Ctx.notFilling_of _ (by simpa using hf)]

theorem mcopy_placed (hn : n = ((thr s h).x w.c).toNat) (hl : fieldsOk false true true true w (w.imm == 0) = true) (ha8 : a % 8 = 0) (hb8 : b % 8 = 0)
    (hn8 : n % 8 = 0) (hlo : 8 ≤ n) (hhi : n ≤ 2097152) (hoa : (seen s h 0).ti.firstOutside (seen s h 0).i a n = none)
    (hob : (seen s h 0).ti.firstOutside (seen s h 0).i b n = none) (hf : (seen s h 0).ti.firstFilling a n = none) (hr : Readable (seen s h 0).ti b n) :
    Placed s (.mcopy h w) h w 1 a n (fun k => readByte (s.eng.tile h.loc).sp (b + k)) := by
  subst ha hb hn
  refine mover_placed hi (show _ = execMcopy h w s from rfl) hl ?_ (readBytes_length (s.eng.tile h.loc).sp _ _) fun k hk => readBytes_getD _ _ _ hk
  simp only [seen_xn]
  rw [aligned_of ha8, aligned_of hb8, lenMultiple, check_of (beq_iff_eq.mpr hn8), lenRange, check_of (by simp [hlo, hhi]),
    Ctx.claim_of _ (by simpa using hoa), Ctx.claim_of _ (by simpa using hob), Ctx.notFilling_of _ (by simpa using hf), hr.seen.reading, hr.seen.take,
    seen_sp]

theorem mtrn_placed (hl : fieldsOk false true true false w (w.imm == 0) = true) (ha8 : a % 8192 = 0) (hb8 : b % 8192 = 0)
    (hoa : (seen s h 0).ti.firstOutside (seen s h 0).i a 8192 = none) (hob : (seen s h 0).ti.firstOutside (seen s h 0).i b 8192 = none)
    (hf : (seen s h 0).ti.firstFilling a 8192 = none) (hr : Readable (seen s h 0).ti b 8192) :
    Placed s (.mtrn h w) h w 2 a 8192 (fun k => readByte (s.eng.tile h.loc).sp (b + 256 * (k / 8 % 32) + 8 * (k / 256) + k % 8)) := by
  have hlen := readBytes_length (s.eng.tile h.loc).sp b 8192
  subst ha hb
  refine mover_placed hi (show _ = execMtrn h w s from rfl) hl ?_ (transposed_length hlen) fun k hk => ?_
  · simp only [seen_xn]
    rw [aligned_of ha8, aligned_of hb8, Ctx.claim_of _ (by simpa using hoa), Ctx.claim_of _ (by simpa using hob), Ctx.notFilling_of _ (by simpa using hf),
      hr.seen.reading, hr.seen.take, seen_sp]
  · rw [transposed_getD hlen hk, readBytes_getD _ _ _ (by omega), Nat.add_assoc, Nat.add_assoc, Nat.add_assoc]

end Mover

/-! ### Operations completed -/

theorem moverComplete_cons {s : State} {u : Loc} {j : MoverJob} {r : List MoverJob} (hu : locOk u = true) (hj : (s.eng.tile u).movQ = j :: r) :
    exec (.moverComplete u) s = .next (withEng s (s.eng.modTile u (fun ti => ({ ti with movQ := r } : Tile).modInst j.slot (·.bump 2)))) :=
  onUnit_eq hu (Engine.modTile_congr (by rw [moverDone, hj]))

theorem moverComplete_nil {s : State} {u : Loc} (hu : locOk u = true) (hj : (s.eng.tile u).movQ = []) :
    exec (.moverComplete u) s = .next (withEng s (s.eng.modTile u id)) :=
  onUnit_eq hu (Engine.modTile_congr (by rw [moverDone, hj]; rfl))

/-- Settles O21: each operation by its checks and the bytes that it places, the completion by the queue's oldest. -/
theorem moverResults : Obligations.MoverResults := by
  refine ⟨fun s h w hi => ?_, fun s u hu => ⟨fun _ _ => moverComplete_cons hu, moverComplete_nil hu⟩⟩
  intro c a b n placed
  exact ⟨mfill_placed hi rfl rfl,
    fun hl ha hb hn hlo hhi hoa hob hf hg hs hp => mcopy_placed hi rfl rfl rfl hl ha hb hn hlo hhi hoa hob hf ⟨hg, hs, hp⟩,
    fun hl ha hb hoa hob hf hg hs hp => mtrn_placed hi rfl rfl hl ha hb hoa hob hf ⟨hg, hs, hp⟩⟩

end Sys2Proof.Machine
end

section
/-!
PROOFS. Slab ports (R103 to R106, R120, R145, R146, R197, R198): descriptors accepted, and the ends of NV and DRAM descriptors.
-/
namespace Sys2Proof.Machine

open Sys2Proof.Safety

/-! ### Descriptors of the NV port -/

theorem Ctx.checkOpen_of {c : Ctx} {ok : Bool} (h : ok = true) (k : Iss) : c.checkOpen ok k = k := Ctx.checkFree_of k h _

/-- The head takes its offsets; the rest of the queue is as it was. -/
theorem nvHead_spec (f : Field) (q : List NvJob) : (nvHead f q).length = q.length ∧ (nvHead f q).tail = q.tail ∧
    ∀ j r, q = j :: r → (nvHead f q).head? = some { j with offs := some (j.offs.getD (f.nvOffset 0, f.nvOffset 1)) } := by
  cases q with
  | nil => exact ⟨rfl, rfl, fun _ _ h => nomatch h⟩
  | cons j r =>
    refine ⟨rfl, rfl, fun j' r' h => ?_⟩
    cases h
    obtain ⟨thread, slot, pc, dst, len, first, count, offs⟩ := j
    cases offs <;> rfl

theorem mem_granules {a n g : Nat} : g ∈ granules a n ↔ a / 4096 ≤ g ∧ g ≤ (a + n - 1) / 4096 := by
  simp only [granules, List.mem_map, List.mem_range]
  exact ⟨by rintro ⟨k, hk, rfl⟩; omega, fun h => ⟨g - a / 4096, by omega, by omega⟩⟩

/-- The NV queue takes job `j`; its destination fills (R105). -/
def Tile.acceptNv (ti : Tile) (f : Field) (j : NvJob) : Tile :=
  { ti with
    nvQ := nvHead f (ti.nvQ ++ [j])
    filling := ti.filling ++ (granules j.dst j.len).filter (fun g => !ti.filling.contains g) }

theorem Tile.mem_filling_acceptNv (ti : Tile) (f : Field) (j : NvJob) (g : Nat) :
    g ∈ (ti.acceptNv f j).filling ↔ g ∈ ti.filling ∨ g ∈ granules j.dst j.len := by
  simp only [Tile.acceptNv, List.mem_append, List.mem_filter, Bool.not_eq_true', List.contains_eq_mem, decide_eq_false_iff_not]
  exact ⟨Or.imp_right And.left, fun h => h.elim .inl fun hg => (em (g ∈ ti.filling)).imp_right fun hn => ⟨hg, hn⟩⟩

@[simp] theorem seen_nvQ (s : State) (h : Hart) (word : Word) : (seen s h word).ti.nvQ = (s.eng.tile h.loc).nvQ := by rw [seen_ti]
@[simp] theorem seen_dramQ (s : State) (h : Hart) (word : Word) : (seen s h word).ti.dramQ = (s.eng.tile h.loc).dramQ := by rw [seen_ti]

/-- The job of an NVRD (R145). -/
def nvJobOf (s : State) (h : Hart) (w : Opnd) : NvJob :=
  { thread := h.thread, slot := (thr s h).task, pc := (thr s h).pc.toNat, dst := ((thr s h).x w.a).toNat, len := ((thr s h).x w.c).toNat
    first := ((thr s h).x w.b).toNat, count := mod w 7 0 + 1 }

section Nvrd
variable {s : State} {h : Hart} {w : Opnd} {c : Ctx} (hi : issues s h w = true)
  (hl : fieldsOk false true true true w (mod w 31 8 == 0) = true) (hc : c = seen s h (wordOf 9 0 w)) {a n : Nat}
  (ha : a = ((thr s h).x w.a).toNat) (hn : n = ((thr s h).x w.c).toNat) (ha16 : a % 16384 = 0) (hn4 : n % 4096 = 0) (hn0 : n ≠ 0)
  (ho : c.ti.firstOutside c.i a n = none) (hw : c.inWindow a n = true) (hp : c.pagesOk ((thr s h).x w.b).toNat (mod w 7 0 + 1) = true)
include hi hl hc ha hn ha16 hn4 hn0 ho hw hp

/-- An NVRD that passes the checks is decided by the queue's room. -/
theorem nvrd_runs : exec (.nvrd h w) s = .next (withEng s (finish c (if decide (c.ti.nvQ.length ≥ 16) then .wait c.e else
    .done (c.e.modTile h.loc (fun ti => ti.acceptNv (s.eng.field h.loc.field) (nvJobOf s h w)))))) := by
  subst hc ha hn
  refine (issue_body _ _ _ false _ _ _ _ hi hl (fun hv => nomatch hv)).trans ?_
  simp only [seen_xn]
  rw [aligned_of ha16, lenMultiple, check_of (beq_iff_eq.mpr hn4), check_of (bne_iff_ne.mpr hn0), Ctx.claim_of _ ho, Ctx.checkOpen_of hw,
    Ctx.checkOpen_of hp]
  rfl

theorem nvrd_waits (hq : 16 ≤ c.ti.nvQ.length) : exec (.nvrd h w) s = .next (withEng s (stalled s h c.e)) := by
  rw [nvrd_runs hi hl hc ha hn ha16 hn4 hn0 ho hw hp, if_pos (decide_eq_true hq), hc]; rfl

theorem nvrd_accepted (hq : c.ti.nvQ.length < 16) : ∃ t, exec (.nvrd h w) s = .next t ∧
    Issued s t h (fun x y => { x with nvQ := y.nvQ, filling := y.filling }) ∧
    (t.eng.tile h.loc).nvQ = nvHead (s.eng.field h.loc.field) ((s.eng.tile h.loc).nvQ ++ [nvJobOf s h w]) ∧
    ∀ g, g ∈ (t.eng.tile h.loc).filling ↔ g ∈ (s.eng.tile h.loc).filling ∨ (a / 4096 ≤ g ∧ g < (a + n) / 4096) := by
  have hx := nvrd_runs hi hl hc ha hn ha16 hn4 hn0 ho hw hp
  rw [if_neg (by simpa using hq), hc, finish_done] at hx
  refine ⟨_, hx, issued_modTile s h (onlyTile_seen s h (wordOf 9 0 w)) rfl rfl rfl (by rw [Tile.acceptNv, seen_ti]), ?_, fun g => ?_⟩
  all_goals rw [advance_modTile_tile, seen_tile]; simp only [Tile.modThread]
  · rw [Tile.acceptNv, seen_nvQ]
  · rw [Tile.mem_filling_acceptNv, mem_granules, seen_ti]
    simp only [nvJobOf, ← ha, ← hn]
    refine or_congr_right ?_
    omega

end Nvrd

/-! ### Descriptors of the DRAM port -/

/-- A slab range of `n` bytes at `b`, moved from or to `a`, passes the checks that DRD and DWR share (R146). -/
structure DramOk (c : Ctx) (w : Opnd) (a b n : Nat) : Prop where
  xa : c.xn w.a = a
  xb : c.xn w.b = b
  xc : c.xn w.c = n
  alignedA : a % 64 = 0
  alignedB : b % 64 = 0
  multiple : n % 64 = 0
  low : 64 ≤ n
  high : n ≤ 16384
  inside : c.ti.firstOutside c.i a n = none
  oneSlot : b % 16384 + n ≤ 16384
  slotLow : c.ti.kvLo ≤ b / 16384
  slotHigh : b / 16384 ≤ c.ti.kvHi
  fits : b + n ≤ kvBytes

@[simp] theorem seen_kvLo (s : State) (h : Hart) (word : Word) : (seen s h word).ti.kvLo = (s.eng.tile h.loc).kvLo := by rw [seen_ti]
@[simp] theorem seen_kvHi (s : State) (h : Hart) (word : Word) : (seen s h word).ti.kvHi = (s.eng.tile h.loc).kvHi := by rw [seen_ti]

theorem DramOk.seen {s : State} {h : Hart} {w : Opnd} {a b n : Nat} (hk : DramOk (seen s h 0) w a b n) (word : Word) : DramOk (seen s h word) w a b n := by
  obtain ⟨xa, xb, xc, ha, hb, hn, lo, hi, ho, h1, h2, h3, h4⟩ := hk
  exact ⟨xa, xb, xc, ha, hb, hn, lo, hi, by simpa using ho, h1, by simpa using h2, by simpa using h3, h4⟩

theorem DramOk.checks {c : Ctx} {w : Opnd} {a b n : Nat} (hk : DramOk c w a b n) (k : Iss) :
    dramChecks c w k = if decide (c.ti.dramQ.length ≥ 32) then .wait c.e else k := by
  obtain ⟨rfl, rfl, rfl, ha, hb, hn, lo, hi, ho, h1, h2, h3, h4⟩ := hk
  rw [dramChecks, aligned_of ha, aligned_of hb, lenMultiple, check_of (beq_iff_eq.mpr hn), lenRange, check_of (by simp [lo, hi]), Ctx.claim_of _ ho,
    Ctx.checkOpen_of (by simp [h1, h2, h3, h4])]

/-- The DRAM queue takes job `j`. -/
def Tile.acceptDram (ti : Tile) (j : DramJob) : Tile := { ti with dramQ := ti.dramQ ++ [j] }

/-- The job of a DRD or DWR (R146). -/
def dramJobOf (s : State) (h : Hart) (w : Opnd) (write : Bool) (data : List Byte) : DramJob :=
  { thread := h.thread, slot := (thr s h).task, pc := (thr s h).pc.toNat, write := write, sp := ((thr s h).x w.a).toNat, slab := ((thr s h).x w.b).toNat
    len := ((thr s h).x w.c).toNat, data := data }

section Dram
variable {s : State} {h : Hart} {w : Opnd} {a b n : Nat} (hi : issues s h w = true) (hl : fieldsOk false true true true w (w.imm == 0) = true)
  (hk : DramOk (seen s h 0) w a b n)
include hi hl hk

/-- A descriptor that passes the checks meets a full queue. -/
theorem dram_waits {i : Instr} {op : Nat} {k : Ctx → Iss}
    (he : exec i s = issue 9 op (fieldsOk false true true true w (w.imm == 0)) false h w (fun c => dramChecks c w (k c)) s)
    (hq : 32 ≤ (seen s h 0).ti.dramQ.length) : exec i s = .next (withEng s (stalled s h (seen s h (wordOf 9 op w)).e)) :=
  he.trans (issue_wait hi hl (fun hv => nomatch hv) (((hk.seen _).checks _).trans (if_pos (decide_eq_true (by simpa using hq)))))

/-- A descriptor that passes the checks joins a queue with room; a read before may have moved the counter of free values. -/
theorem dram_accepted {i : Instr} {op m : Nat} {k : Ctx → Iss} {j : DramJob}
    (he : exec i s = issue 9 op (fieldsOk false true true true w (w.imm == 0)) false h w (fun c => dramChecks c w (k c)) s)
    (hq : (seen s h 0).ti.dramQ.length < 32) (hj : k (seen s h (wordOf 9 op w)) =
      .done (({ (seen s h (wordOf 9 op w)).e with freeCtr := m } : Engine).modTile h.loc (fun ti => ti.acceptDram j))) :
    ∃ t, exec i s = .next t ∧ Issued s t h (fun x y => { x with dramQ := y.dramQ }) ∧
      (t.eng.tile h.loc).dramQ = (s.eng.tile h.loc).dramQ ++ [j] := by
  have hr : ¬ decide ((seen s h (wordOf 9 op w)).ti.dramQ.length ≥ 32) = true := by simpa using hq
  refine ⟨_, he.trans (issue_done hi hl (fun hv => nomatch hv) (((hk.seen _).checks _).trans ((if_neg hr).trans hj))),
    issued_modTile s h (freeCtr_onlyTile (onlyTile_seen s h (wordOf 9 op w)) m) rfl rfl rfl (by rw [Tile.acceptDram, seen_ti]), ?_⟩
  rw [advance_modTile_tile, seen_freeCtr_tile]
  simp only [Tile.modThread, Tile.acceptDram, seen_dramQ]

theorem drd_accepted (hq : (seen s h 0).ti.dramQ.length < 32) :
    ∃ t, exec (.drd h w) s = .next t ∧ Issued s t h (fun x y => { x with dramQ := y.dramQ }) ∧
      (t.eng.tile h.loc).dramQ = (s.eng.tile h.loc).dramQ ++ [dramJobOf s h w false []] :=
  dram_accepted hi hl hk (m := s.eng.freeCtr) (show _ = execDrd h w s from rfl) hq rfl

theorem dwr_accepted (hq : (seen s h 0).ti.dramQ.length < 32) (hf : (seen s h 0).ti.fillingIn a n = false) (hb : (seen s h 0).ti.firstBad a n = none) :
    ∃ t, exec (.dwr h w) s = .next t ∧ Issued s t h (fun x y => { x with dramQ := y.dramQ }) ∧
      (t.eng.tile h.loc).dramQ = (s.eng.tile h.loc).dramQ ++ [dramJobOf s h w true ((seen s h 0).bytes a n)] := by
  obtain ⟨m, hm⟩ := (seen s h (wordOf 9 2 w)).afterRead_eq a n
  obtain rfl : ((thr s h).x w.a).toNat = a := hk.xa
  obtain rfl : ((thr s h).x w.c).toNat = n := hk.xc
  refine dram_accepted hi hl hk (m := m) (show _ = execDwr h w s from rfl) hq ?_
  simp only [seen_xn]
  rw [Ctx.reading_of _ (by simpa using hf) (by simpa using hb), ← hm, seen_bytes s h 0 (wordOf 9 2 w)]
  rfl

end Dram

/-! ### Ends of NV descriptors -/

/-- The image bound to the partition of a descriptor's task. -/
def nvImage (e : Engine) (u : Loc) (j : NvJob) : Option Nat := (e.part (match (e.tile u).instOf j.slot with | some i => i.part | none => 0)).image

/-- The slab slot of an image. -/
def slotOf (e : Engine) (img : Option Nat) : Nat := match img with | some i => (e.image i).slot | none => 0

/-- Pages of a descriptor that come from their recovery chains (R402, R403). -/
def nvLost (e : Engine) (u : Loc) (j : NvJob) : List Nat :=
  ((List.range j.count).map (· + j.first)).filter ((e.tile u).viaChain (slotOf e (nvImage e u j)))

/-- A page as the port reads it: from its recovery chain where that has delivered it. -/
def Tile.recovered (ti : Tile) (p : Nat) : List Byte := match ti.recv.find? (fun x => x.1 == p) with | some x => x.2 | none => ti.page p

/-- The tile once the descriptor at the head of the NV queue has written `bs` (R105). -/
def Tile.nvWrote (ti : Tile) (f : Field) (j : NvJob) (r : List NvJob) (bs : List Byte) : Tile :=
  ({ ti.store j.dst bs with nvQ := nvHead f r } : Tile).unfill j.dst j.len

/-- How a descriptor that has written its bytes ends (R106, R120, R145). -/
def nvEnded (now : Nat) (u : Loc) (j : NvJob) (img : Option Nat) (slot : Nat) (e : Engine) : NvEnd → Engine
  | .complete => e.modTile u (fun ti => ti.modInst j.slot (·.bump 0))
  | .overrun p => e.raise now u j.thread j.pc (some j.slot) .claimViolation p
  | .uncorr p =>
    let a := (e.raise now u j.thread j.pc (some j.slot) .nvUncorr p).modTile u (fun ti => { ti with nvBad := ti.nvBad ++ [p] })
    (match img with
      | some i => a.modImage i (fun m => if m.state = ImgState.ready then { m with state := .degraded } else m)
      | none => a).siteEvent now u 0x0204 p slot

section NvEnds
variable {e : Engine} {u : Loc} {j : NvJob} {r : List NvJob} (hq : (e.tile u).nvQ = j :: r) (bad : List (Nat × Int)) (now : Nat)
include hq

theorem nvDone_cons : nvDone u bad now e =
    if (nvLost e u j).any (fun p => !(e.tile u).recv.any (fun x => x.1 == p)) then e else
      let p := nvRead (e.tile u).recovered (fun p => j.fails bad p && !(nvLost e u j).contains p) j.count j.first j.len
      nvEnded now u j (nvImage e u j) (slotOf e (nvImage e u j)) (e.modTile u (fun ti => ({ ti.store j.dst p.1 with
        nvQ := nvHead (e.field u.field) r, recv := ti.recv.filter (fun x => !(nvLost e u j).contains x.1) } : Tile).unfill j.dst j.len)) p.2 := by
  simp only [nvDone, hq]
  rfl

variable (hc : ∀ k, (e.tile u).viaChain (slotOf e (nvImage e u j)) k = false) (hr : (e.tile u).recv = [])
include hc hr

/-- Without recovery, the descriptor's pages are those of the slab. -/
theorem nvDone_slab : nvDone u bad now e = nvEnded now u j (nvImage e u j) (slotOf e (nvImage e u j))
    (e.modTile u (fun ti => ti.nvWrote (e.field u.field) j r (nvRead (e.tile u).page (j.fails bad) j.count j.first j.len).1))
    (nvRead (e.tile u).page (j.fails bad) j.count j.first j.len).2 := by
  have hl : nvLost e u j = [] := List.filter_eq_nil_iff.mpr fun p _ => by rw [hc]; exact Bool.false_ne_true
  have hp : (e.tile u).recovered = (e.tile u).page := funext fun p => by rw [Tile.recovered, hr]; rfl
  have hf : (fun p => j.fails bad p && !([] : List Nat).contains p) = j.fails bad := funext fun p => Bool.and_true _
  rw [nvDone_cons hq, hl, hp, hf, if_neg (by simp)]
  refine congrArg (nvEnded now u j _ _ · _) (Engine.modTile_congr ?_)
  simp only [Tile.nvWrote, Tile.store, hr, List.filter_nil]

end NvEnds

theorem Tile.mem_filling_unfill (ti : Tile) (a n g : Nat) : g ∈ (ti.unfill a n).filling ↔ g ∈ ti.filling ∧ g ∉ granules a n := by
  simp only [Tile.unfill, List.mem_filter, Bool.not_eq_true', List.contains_eq_mem, decide_eq_false_iff_not]

section NvComplete
variable {s : State} {u : Loc} {j : NvJob} {r : List NvJob} (bad : List (Nat × Int)) (hu : locOk u = true) (hq : (s.eng.tile u).nvQ = j :: r)
  (hc : ∀ k, (s.eng.tile u).viaChain (slotOf s.eng (nvImage s.eng u j)) k = false) (hr : (s.eng.tile u).recv = [])
  {p : List Byte × NvEnd} (hp : p = nvRead (s.eng.tile u).page (j.fails bad) j.count j.first j.len)
include hu hq hc hr hp

theorem nvDesc_runs : exec (.nvDescComplete u bad) s = .next (withEng s (nvEnded s.now u j (nvImage s.eng u j) (slotOf s.eng (nvImage s.eng u j))
    (s.eng.modTile u (fun ti => ti.nvWrote (s.eng.field u.field) j r p.1)) p.2)) := by
  subst hp
  exact onUnit_eq hu (nvDone_slab hq bad s.now hc hr)

/-- The end of a descriptor whose pages all fit and are all read. -/
theorem nvDesc_complete (he : p.2 = .complete) :
    ∃ t, exec (.nvDescComplete u bad) s = .next t ∧ OnlyTile s t u ∧ Stored s t u j.dst p.1.length (fun k => p.1.getD k 0) ∧
      ∀ g, g ∈ (t.eng.tile u).filling ↔ g ∈ (s.eng.tile u).filling ∧ g ∉ granules j.dst j.len := by
  refine ⟨_, (nvDesc_runs bad hu hq hc hr hp).trans (by rw [he]; rfl), modTile_onlyTile (onlyTile_modTile s u _) _,
    ⟨fun k hk => ?_, fun b hb => ?_, fun k => ?_⟩, fun g => ?_⟩
  all_goals simp only [withEng, Engine.modTile_tile, Tile.modInst, Tile.nvWrote]
  · exact (Tile.readByte_store ..).trans (by rw [if_pos (by omega), Nat.add_sub_cancel_left])
  · exact (Tile.readByte_store ..).trans (if_neg (by omega))
  · exact Tile.mem_badWords_store ..
  · exact Tile.mem_filling_unfill ..

end NvComplete

/-! ### Ends of DRAM descriptors -/

theorem Tile.touch_frame (ti : Tile) (now k : Nat) : ti.touch now k = { ti with slotUse := (ti.touch now k).slotUse } := by
  unfold Tile.touch
  split <;> rfl

/-- The order of use of the slots does not depend on the queue. -/
theorem Tile.touch_dramQ (ti : Tile) (now k : Nat) (q : List DramJob) : ({ ti with dramQ := q } : Tile).touch now k = { ti.touch now k with dramQ := q } := by
  unfold Tile.touch
  dsimp only
  split <;> rfl

/-- The tile once a DRAM descriptor has moved its bytes and is counted (R106, R146). -/
def Tile.dramMoved (ti : Tile) (now : Nat) (j : DramJob) : Tile :=
  (if j.write then { ti.touch now j.kvSlot with kv := writeBytes ti.kv j.slab j.data }
    else (ti.touch now j.kvSlot).store j.sp (readBytes ti.kv j.slab j.len)).modInst j.slot (·.bump 1)

theorem Tile.dramMoved_write (ti : Tile) (now : Nat) {j : DramJob} (hw : j.write = true) : ti.dramMoved now j =
    ({ ti with slotUse := (ti.touch now j.kvSlot).slotUse, kv := writeBytes ti.kv j.slab j.data } : Tile).modInst j.slot (·.bump 1) := by
  rw [Tile.dramMoved, if_pos hw, Tile.touch_frame]

theorem Tile.dramMoved_read (ti : Tile) (now : Nat) {j : DramJob} (hw : j.write = false) : ti.dramMoved now j =
    (({ ti with slotUse := (ti.touch now j.kvSlot).slotUse } : Tile).store j.sp (readBytes ti.kv j.slab j.len)).modInst j.slot (·.bump 1) := by
  rw [Tile.dramMoved, if_neg (by simp [hw]), Tile.touch_frame]

section StoreCopy
variable (ti : Tile) (m : Memory) (a b n : Nat)

/-- A copy of n bytes from a store. -/
theorem Tile.readByte_copy {k : Nat} (hk : k < n) : readByte (ti.store a (readBytes m b n)).sp (a + k) = readByte m (b + k) := by
  rw [Tile.readByte_store, readBytes_length, if_pos (by omega), Nat.add_sub_cancel_left, readBytes_getD _ _ _ hk]

theorem Tile.readByte_copy_outside {x : Nat} (hx : x < a ∨ a + n ≤ x) : readByte (ti.store a (readBytes m b n)).sp x = readByte ti.sp x := by
  rw [Tile.readByte_store, readBytes_length, if_neg (by omega)]

theorem Tile.mem_badWords_copy (k : Nat) :
    k ∈ (ti.store a (readBytes m b n)).badWords ↔ k ∈ ti.badWords ∧ ¬ (a ≤ 8 * k ∧ 8 * k + 8 ≤ a + n) := by
  rw [Tile.mem_badWords_store, readBytes_length]

end StoreCopy

section DramEnds
variable {s : State} {u : Loc} {i : Nat} {j : DramJob} (hu : locOk u = true) (hj : (s.eng.tile u).dramQ[i]? = some j) (bad : Bool)
include hu hj

theorem dramDesc_waits (hs : dramStarted (s.eng.tile u).dramQ i = false) : exec (.dramDescComplete u i bad) s = .next s :=
  onUnit_same hu (by simp only [dramDone, hj, hs, Bool.not_false, if_true])

variable (hs : dramStarted (s.eng.tile u).dramQ i = true)
include hs

theorem dramDesc_uncorr (hb : bad = true ∨ (j.write = false ∧ (s.eng.tile u).kvBad.contains j.kvSlot = true)) :
    exec (.dramDescComplete u i bad) s = .next (withEng s
      (((s.eng.modTile u (fun ti => { ti with dramQ := ti.dramQ.eraseIdx i })).raise s.now u j.thread j.pc (some j.slot) .dramUncorr j.kvSlot).modTile u
        (fun ti => ti.kvUncorr j.kvSlot))) := by
  have hb' : (bad || (!j.write && (s.eng.tile u).kvBad.contains j.kvSlot)) = true := by
    obtain h | ⟨h1, h2⟩ := hb
    · rw [h]; rfl
    · rw [h1, h2]; exact Bool.or_true _
  exact onUnit_eq hu (by simp only [dramDone, hj, hs, hb', Bool.not_true, Bool.false_eq_true, if_false, if_true])

theorem dramDesc_moves (hb : j.write = true ∨ (s.eng.tile u).kvBad.contains j.kvSlot = false) :
    exec (.dramDescComplete u i false) s = .next (withEng s ((s.eng.modTile u (fun ti => { ti with dramQ := ti.dramQ.eraseIdx i })).modTile u
      (fun ti => ti.dramMoved s.now j))) := by
  have hb' : (!j.write && (s.eng.tile u).kvBad.contains j.kvSlot) = false := by
    obtain h | h := hb
    · rw [h]; rfl
    · rw [h]; exact Bool.and_false _
  refine onUnit_eq hu ?_
  simp only [dramDone, hj, hs, hb', Bool.not_true, Bool.false_eq_true, Bool.or_self, if_false]
  refine Engine.modTile_congr ?_
  rw [Tile.dramMoved, Tile.touch_frame]

theorem dramDesc_result (hb : j.write = true ∨ (s.eng.tile u).kvBad.contains j.kvSlot = false) :
    ∃ t, exec (.dramDescComplete u i false) s = .next t ∧ OnlyTile s t u ∧
      { t.eng.tile u with dramQ := (s.eng.tile u).dramQ, inst := (s.eng.tile u).inst, slotUse := (s.eng.tile u).slotUse,
                          kv := (s.eng.tile u).kv, sp := (s.eng.tile u).sp, badWords := (s.eng.tile u).badWords } = s.eng.tile u ∧
      (t.eng.tile u).dramQ = (s.eng.tile u).dramQ.eraseIdx i ∧ (t.eng.tile u).inst = ((s.eng.tile u).modInst j.slot (·.bump 1)).inst ∧
      (t.eng.tile u).slotUse = ((s.eng.tile u).touch s.now j.kvSlot).slotUse ∧
      (j.write = true → (t.eng.tile u).kv = writeBytes (s.eng.tile u).kv j.slab j.data ∧ (t.eng.tile u).sp = (s.eng.tile u).sp ∧
        (t.eng.tile u).badWords = (s.eng.tile u).badWords) ∧
      (j.write = false → (t.eng.tile u).kv = (s.eng.tile u).kv ∧
        Stored s t u j.sp j.len (fun k => readByte (s.eng.tile u).kv (j.slab + k))) := by
  have ht : (withEng s ((s.eng.modTile u (fun ti => { ti with dramQ := ti.dramQ.eraseIdx i })).modTile u (fun ti => ti.dramMoved s.now j))).eng.tile u =
      ({ s.eng.tile u with dramQ := (s.eng.tile u).dramQ.eraseIdx i } : Tile).dramMoved s.now j :=
    (Engine.modTile_tile ..).trans (congrArg (Tile.dramMoved · s.now j) (Engine.modTile_tile ..))
  refine ⟨_, dramDesc_moves hu hj hs hb, modTile_onlyTile (onlyTile_modTile s u _) _, ?_⟩
  cases hw : j.write with
  | true =>
    rw [Tile.dramMoved_write _ _ hw, Tile.touch_dramQ] at ht
    rw [ht]
    exact ⟨rfl, rfl, rfl, rfl, fun _ => ⟨rfl, rfl, rfl⟩, fun h => absurd h.symm Bool.false_ne_true⟩
  | false =>
    rw [Tile.dramMoved_read _ _ hw, Tile.touch_dramQ] at ht
    rw [ht]
    refine ⟨rfl, rfl, rfl, rfl, fun h => absurd h Bool.false_ne_true, fun _ => ⟨rfl, ?_⟩⟩
    refine ⟨fun k hk => ?_, fun b hb => ?_, fun k => ?_⟩
    all_goals rw [ht]
    · exact Tile.readByte_copy _ _ _ _ _ hk
    · exact Tile.readByte_copy_outside _ _ _ _ _ hb
    · exact Tile.mem_badWords_copy ..

end DramEnds

/-- Settles O22: NVRD, DRD and DWR by their checks and the queue's room, each descriptor's end by what its slab answers. -/
theorem slabPortResults : Obligations.SlabPortResults := by
  refine ⟨⟨fun s h w hi hl => ?_, nvHead_spec, fun s u bad j r hu hq => ?_⟩, fun s h w hi hl => ?_, fun s u i j hu hj => ?_⟩
  · intro c a n ha hn hn0 ho hw hp
    exact ⟨nvrd_waits hi hl rfl rfl rfl ha hn hn0 ho hw hp, nvrd_accepted hi hl rfl rfl rfl ha hn hn0 ho hw hp⟩
  · intro img slot hc hr p e
    have hx := nvDesc_runs bad hu hq hc hr (p := p) rfl
    refine ⟨fun he => ⟨by rw [hx, he]; rfl, nvDesc_complete bad hu hq hc hr rfl he⟩, fun k he => by rw [hx, he]; rfl, fun k he => by rw [hx, he]; rfl⟩
  · intro c a b n ha hb hn lo hi' ho h1 h2 h3 h4 job
    have hk : DramOk c w a b n := ⟨rfl, rfl, rfl, ha, hb, hn, lo, hi', ho, h1, h2, h3, h4⟩
    exact ⟨fun hq => ⟨drd_accepted hi hl hk hq, dwr_accepted hi hl hk hq⟩, fun hq =>
      ⟨dram_waits hi hl hk (show _ = execDrd h w s from rfl) hq, dram_waits hi hl hk (show _ = execDwr h w s from rfl) hq⟩⟩
  · exact ⟨fun hs bad => dramDesc_waits hu hj bad hs, fun hs => ⟨dramDesc_result hu hj hs, fun bad => dramDesc_uncorr hu hj bad hs⟩⟩

end Sys2Proof.Machine
end

section
/-!
PROOFS. Attention lane (R102, R109, R119, R120, R143): a pass accepted, its start at once where none is before it, and the end of the pass that
runs.
-/
namespace Sys2Proof.Machine

open Sys2Proof.Safety

/-! ### What an exception leaves of the lane -/

theorem Tile.haltInst_attQ (ti : Tile) (slot : Nat) : (ti.haltInst slot).attQ = ti.attQ := by
  unfold Tile.haltInst
  split
  · rfl
  · next i hi =>
    clear hi
    generalize i.threads = l
    induction l generalizing ti with
    | nil => rfl
    | cons k r ih => exact ih (ti.modThread k _)

theorem Tile.capture_attQ (ti : Tile) (start : Nat) : (ti.capture start).attQ = ti.attQ := rfl

theorem Engine.strike_attQ (e : Engine) (now : Nat) (t : Loc) : ((e.strike now t).tile t).attQ = (e.tile t).attQ := by
  rw [Engine.strike, Engine.modTile_tile]; rfl

@[simp] theorem Engine.modPart_tile (e : Engine) (p : Nat) (f : Part → Part) (t : Loc) : (e.modPart p f).tile t = e.tile t := rfl

/-- An exception leaves the lane's queue as it is. -/
theorem Engine.raise_attQ (e : Engine) (now : Nat) (t : Loc) (thread pc slot : Nat) (c : Cause) (detail : Nat) :
    ((e.raise now t thread pc (some slot) c detail).tile t).attQ = (e.tile t).attQ := by
  unfold Engine.raise
  dsimp only
  split_ifs
  · rw [Option.getD_none, Engine.strike_attQ]
    split <;> simp only [Engine.modPart_tile, Engine.modTile_tile, Tile.haltInst_attQ, Tile.capture_attQ]
  · split <;> simp only [Engine.modPart_tile, Engine.modTile_tile, Tile.haltInst_attQ, Tile.capture_attQ]

/-! ### The start of a pass -/

theorem laneStart_nil {e : Engine} {t : Loc} (now n : Nat) (h : (e.tile t).attQ = []) : e.laneStart now t n = e := by
  cases n with
  | zero => rfl
  | succ n => simp only [Engine.laneStart, h]

/-- A pass that runs already goes on. -/
theorem laneStart_running {e : Engine} {t : Loc} {j : AttnJob} {rest : List AttnJob} (now n : Nat) (h : (e.tile t).attQ = j :: rest)
    (hr : j.run.isSome = true) : e.laneStart now t n = e := by
  obtain ⟨r, hr⟩ := Option.isSome_iff_exists.mp hr
  cases n with
  | zero => rfl
  | succ n => simp only [Engine.laneStart, h, hr]

/-- The engine once a pass whose checks hold has started. -/
def laneStarted (now : Nat) (t : Loc) (j : AttnJob) (r : AttnRun) (rest : List AttnJob) (e : Engine) : Engine :=
  ({ e with freeCtr := e.freeCtr + 2 ^ 21 } : Engine).modTile t (fun ti =>
    let ti := j.kvSlots.foldl (fun ti k => ti.touch now k) ti
    let ti := if j.attend then { r.clears.foldl (fun ti k => ti.setLreg (numReg j.banks k).1 (numReg j.banks k).2 {}) ti with ad := {} } else ti
    { ti with attQ := { j with run := some r } :: rest })

section Start
variable {e : Engine} {t : Loc} {j : AttnJob} {rest : List AttnJob} {i : Instance} (now n : Nat) (h : (e.tile t).attQ = j :: rest) (hr : j.run = none)
  (hi : (e.tile t).instOf j.slot = some i)
include h hr hi

theorem laneStart_ok {r : AttnRun} (hc : (jobCtx e t j i now).startChecks j.w j.addr = .ok r) :
    e.laneStart now t (n + 1) = laneStarted now t j r rest e := by
  simp only [Engine.laneStart, h, hr, hi, hc]
  rfl

theorem laneStart_error {x : LateErr} (hc : (jobCtx e t j i now).startChecks j.w j.addr = .error x) : e.laneStart now t (n + 1) =
    ((e.modTile t (fun ti => { ti with attQ := rest })).raise now t j.thread j.pc (some j.slot) x.1 x.2).laneStart now t n := by
  simp only [Engine.laneStart, h, hr, hi, hc]

end Start

/-! ### APASS -/

@[simp] theorem seen_attQ (s : State) (h : Hart) (word : Word) : (seen s h word).ti.attQ = (s.eng.tile h.loc).attQ := by rw [seen_ti]
@[simp] theorem seen_badWords (s : State) (h : Hart) (word : Word) : (seen s h word).ti.badWords = (s.eng.tile h.loc).badWords := by rw [seen_ti]

/-- The task of a hart that issues is among those granted. -/
theorem issues_inst {s : State} {h : Hart} {w : Opnd} (hi : issues s h w = true) :
    (s.eng.tile h.loc).instOf (thr s h).task = some (((s.eng.tile h.loc).instOf (thr s h).task).getD {}) := by
  simp only [issues, mayRun, Bool.and_eq_true] at hi
  obtain ⟨i, hi⟩ := Option.isSome_iff_exists.mp hi.1.1.1.2
  rw [hi]; rfl

/-- The operands of an instruction that issues meet no error. -/
theorem issues_ecc {s : State} {h : Hart} {w : Opnd} (hi : issues s h w = true) : { w with ecc := [] } = w := by
  simp only [issues, Bool.and_eq_true, List.isEmpty_iff] at hi
  rw [← hi.2]

/-- The job of an APASS whose descriptor `d` lies at `a` (R109, R143). -/
def attnJobOf (s : State) (h : Hart) (w : Opnd) (c : Ctx) (a d : Nat) : AttnJob :=
  { thread := h.thread, slot := (thr s h).task, pc := (thr s h).pc.toNat, w := w, addr := a, sp := (s.eng.tile h.loc).sp
    badWords := (s.eng.tile h.loc).badWords, kvSlots := c.passSlots d, attend := apKind d == 0
    banks := if apKind d = 0 then (if apPair w then [mod w 31 30, mod w 31 30 + 1] else [mod w 31 30]) else [] }

section Apass
variable {s : State} {h : Hart} {w : Opnd} (hi : issues s h w = true) (hl : fieldsOk false true false false w (apassModOk w) = true) {c : Ctx}
  (hc : c = seen s h (wordOf 7 0 w)) {a d : Nat} (ha : a = ((thr s h).x w.a).toNat) (hd : d = leNat (c.bytes a 64)) (ha64 : a % 64 = 0)
  (ho : c.ti.firstOutside c.i a 64 = none)
include hi hl hc ha hd ha64 ho

theorem apass_runs : exec (.apass h w) s = .next (withEng s (finish c (
    if decide (c.ti.attQ.length ≥ 2) || c.ti.fillingIn a 64 then .wait c.e
    else if descOk w d && c.passWaits w d then .wait c.e
    else .queued (((advance h c.e).modTile h.loc (fun ti => { ti with attQ := ti.attQ ++ [attnJobOf s h w c a d] })).laneStart s.now h.loc 2)))) := by
  subst hc ha hd
  refine (issue_body _ _ _ false _ _ _ _ hi hl (fun hv => nomatch hv)).trans ?_
  simp only [seen_xn]
  rw [aligned_of ha64, Ctx.claim_of _ ho, issues_ecc hi, attnJobOf, seen_sp, seen_badWords]
  rfl

theorem apass_waits (hw : 2 ≤ c.ti.attQ.length ∨ c.ti.fillingIn a 64 = true ∨ (descOk w d = true ∧ c.passWaits w d = true)) :
    exec (.apass h w) s = .next (withEng s (stalled s h c.e)) := by
  rw [apass_runs hi hl hc ha hd ha64 ho]
  obtain hq | hf | ⟨hk, hp⟩ := hw
  · rw [if_pos (by simp [hq]), hc]; rfl
  · rw [if_pos (by simp [hf]), hc]; rfl
  · rw [hk, hp, Bool.and_self, if_pos rfl, ite_self, hc]; rfl

variable (hf : c.ti.fillingIn a 64 = false) (hw : descOk w d = true → c.passWaits w d = false)
include hf hw

/-- A pass that finds room and nothing to wait for joins the queue, and the lane starts what it can. -/
theorem apass_queued (hq : c.ti.attQ.length < 2) : exec (.apass h w) s = .next (withEng s
    (((advance h c.e).modTile h.loc (fun ti => { ti with attQ := ti.attQ ++ [attnJobOf s h w c a d] })).laneStart s.now h.loc 2)) := by
  have hs : (descOk w d && c.passWaits w d) = false := by
    cases hk : descOk w d with
    | true => rw [hw hk]; rfl
    | false => rfl
  rw [apass_runs hi hl hc ha hd ha64 ho, hf, hs, if_neg (by simpa using hq), if_neg Bool.false_ne_true]
  rfl

/-- Behind a pass that runs, it waits in the queue. -/
theorem apass_behind {x : AttnJob} (hx : c.ti.attQ = [x]) (hr : x.run.isSome = true) : exec (.apass h w) s = .next (withEng s
    ((advance h c.e).modTile h.loc (fun ti => { ti with attQ := ti.attQ ++ [attnJobOf s h w c a d] }))) := by
  have hq : ((advance h c.e).tile h.loc).attQ = [x] := by
    rw [advance_tile, hc, seen_tile, ← hc]
    exact hx
  rw [apass_queued hi hl hc ha hd ha64 ho hf hw (by simp [hx]), laneStart_running (j := x) (rest := [attnJobOf s h w c a d]) _ _ _ hr]
  simp only [Engine.modTile_tile, hq, List.singleton_append]

/-- With no pass before it, it is the lane's only pass. -/
theorem apass_first {e : Engine} (he : e = (advance h c.e).modTile h.loc (fun ti => { ti with attQ := ti.attQ ++ [attnJobOf s h w c a d] }))
    (hq : c.ti.attQ = []) : exec (.apass h w) s = .next (withEng s (e.laneStart s.now h.loc 2)) ∧
      (e.tile h.loc).attQ = [attnJobOf s h w c a d] ∧ (e.tile h.loc).instOf (thr s h).task = some c.i := by
  have ht : (advance h c.e).tile h.loc = c.ti.modThread h.thread (fun th => { th with pc := th.pc + 8, run := .running, since := 0 }) := by
    rw [advance_tile, hc, seen_tile]
  subst he
  refine ⟨apass_queued hi hl hc ha hd ha64 ho hf hw (by simp [hq]), ?_, ?_⟩
  · simp only [Engine.modTile_tile, ht, Tile.modThread, hq, List.nil_append]
  · simp only [Engine.modTile_tile, ht]
    rw [hc, seen_ti, seen_i]
    exact issues_inst hi

end Apass

/-! ### ATTN_PASS_END -/

/-- Sums added to the registers of a pass (R100, R102). -/
def Tile.addSums (ti : Tile) (banks : List Nat) (l : List Add) : Tile :=
  l.foldl (fun ti a => ti.setLreg (numReg banks a.reg).1 (numReg banks a.reg).2 ((ti.lreg (numReg banks a.reg).1 (numReg banks a.reg).2).add a).1) ti

theorem Tile.addSums_frame (banks : List Nat) (l : List Add) (ti : Tile) : ti.addSums banks l = { ti with lregs := (ti.addSums banks l).lregs } := by
  induction l generalizing ti with
  | nil => rfl
  | cons a r ih => exact ih (ti.setLreg _ _ _)

/-- The results of a pass written. -/
def Tile.storeAll (ti : Tile) (l : List (Nat × List Byte)) : Tile := l.foldl (fun ti x => ti.store x.1 x.2) ti

theorem Tile.storeAll_frame (l : List (Nat × List Byte)) (ti : Tile) :
    ti.storeAll l = { ti with sp := (ti.storeAll l).sp, badWords := (ti.storeAll l).badWords } := by
  induction l generalizing ti with
  | nil => rfl
  | cons x r ih => exact ih (ti.store x.1 x.2)

/-- What is written does not depend on the registers. -/
theorem Tile.storeAll_regs (l : List (Nat × List Byte)) (ti : Tile) (m : AMap LReg) (ad : LReg) :
    ({ ti with lregs := m, ad := ad } : Tile).storeAll l = { ti.storeAll l with lregs := m, ad := ad } := by
  induction l generalizing ti with
  | nil => rfl
  | cons x r ih => exact ih (ti.store x.1 x.2)

/-- The tile once a pass has ended: its sums, AD, results, counts and CNT_ATT. -/
theorem passEnd_eq {ti : Tile} {j : AttnJob} {r : AttnRun} {rest : List AttnJob} (hq : ti.attQ = j :: rest) (hr : j.run = some r) : passEnd ti =
    { ti with
      lregs := (ti.addSums j.banks r.adds).lregs, ad := if j.attend then r.ad else ti.ad, sp := (ti.storeAll r.writes).sp
      badWords := (ti.storeAll r.writes).badWords, attQ := rest, inst := (ti.modInst j.slot (·.bump 3)).inst
      stepCnt := (((ti.count 8 r.flushedIn).count 9 r.flushedTerms).count 10 r.violations).stepCnt } := by
  obtain ⟨thread, slot, pc, w, addr, sp, badWords, kvSlots, banks, attend, run⟩ := j
  subst hr
  have hsum : (if attend = true then { ti.addSums banks r.adds with ad := r.ad } else ti.addSums banks r.adds) =
      { ti with lregs := (ti.addSums banks r.adds).lregs, ad := if attend then r.ad else ti.ad } := by
    cases attend with
    | true => exact congrArg (fun x : Tile => { x with ad := r.ad }) (Tile.addSums_frame banks r.adds ti)
    | false => exact Tile.addSums_frame banks r.adds ti
  have hres := (congrArg (Tile.storeAll · r.writes) hsum).trans (Tile.storeAll_regs ..)
  rw [Tile.storeAll_frame r.writes ti] at hres
  have hend := congrArg (fun x : Tile =>
    ({ ((x.count 8 r.flushedIn).count 9 r.flushedTerms).count 10 r.violations with attQ := rest } : Tile).modInst slot (·.bump 3)) hres
  unfold passEnd
  rw [hq]
  exact hend

section PassEnd
variable {s : State} {u : Loc} (hu : locOk u = true)
include hu

theorem attnPassEnd_idle (hr : ((s.eng.tile u).attQ.head?.bind (·.run)).isSome = false) : exec (.attnPassEnd u) s = .next s :=
  onUnit_same hu (if_neg (by simp [hr]))

theorem attnPassEnd_ends {j : AttnJob} {r : AttnRun} {rest : List AttnJob} (hq : (s.eng.tile u).attQ = j :: rest) (hr : j.run = some r) :
    exec (.attnPassEnd u) s = .next (withEng s ((s.eng.modTile u (fun _ => passEnd (s.eng.tile u))).laneStart s.now u 2)) := by
  have hm : s.eng.modTile u passEnd = s.eng.modTile u (fun _ => passEnd (s.eng.tile u)) := Engine.modTile_congr rfl
  have hs : ((s.eng.tile u).attQ.head?.bind (·.run)).isSome = true := by rw [hq, List.head?_cons, Option.bind_some, hr]; rfl
  exact onUnit_eq hu ((if_pos hs).trans (by rw [hm]))

end PassEnd

/-- Settles O20: an APASS by what it waits for and what is before it in the queue, the end of a pass by its results. -/
theorem attentionResults : Obligations.AttentionResults := by
  refine ⟨fun s h w hi hl => ?_, fun s u hu => ⟨attnPassEnd_idle hu, fun j r rest hq hr => ?_⟩⟩
  · intro c a d ha ho j e
    refine ⟨apass_waits hi hl rfl rfl rfl ha ho, fun hf hw => ⟨fun x => apass_behind hi hl rfl rfl rfl ha ho hf hw, fun hq => ?_⟩⟩
    obtain ⟨hx, hj, hin⟩ := apass_first hi hl (c := c) rfl rfl rfl ha ho hf hw (e := e) rfl hq
    refine ⟨fun r hr => ?_, fun x hr => ?_⟩
    · rw [hx, laneStart_ok _ 1 hj rfl hin hr]; rfl
    · have hn : (((e.modTile h.loc (fun ti => { ti with attQ := [] })).raise s.now h.loc h.thread (thr s h).pc.toNat (some (thr s h).task) x.1 x.2).tile
          h.loc).attQ = [] := (Engine.raise_attQ ..).trans (by rw [Engine.modTile_tile])
      rw [hx, laneStart_error _ 1 hj rfl hin hr]
      exact congrArg (fun e => Host.Outcome.next (withEng s e)) (laneStart_nil _ _ hn)
  · intro ti done
    have hd : done = _ := passEnd_eq hq hr
    have hx := attnPassEnd_ends hu hq hr
    refine ⟨hx, fun hn => hx.trans ?_, ?_⟩
    · refine congrArg (fun e => Host.Outcome.next (withEng s e)) (laneStart_nil _ _ ?_)
      rw [Engine.modTile_tile]
      exact (congrArg Tile.attQ hd).trans hn
    · rw [hd]
      exact ⟨rfl, rfl, rfl, rfl, rfl, rfl, rfl⟩

end Sys2Proof.Machine
end

section
/-!
PROOFS. Dispatch (R85, R86, R268 to R274): grants in ascending index, the threads of a granted task, releases, and signals.
-/
namespace Sys2Proof.Machine

open Sys2Proof.Safety

/-! ### Grants (R268, R271) -/

/-- Entry j is granted before those of `gang`, whose lowest index is `low`: it is eligible and its claim is free. -/
def Tile.before (ti : Tile) (p : Nat) (idx gang : List Nat) (low j : Nat) : Bool :=
  decide (j < low) && !gang.contains j && ti.eligible j && ti.grantable p idx j

/-- Members of a gang that pass an eligible entry of lower index whose claim is not free (R271). -/
def Tile.passing (ti : Tile) (p : Nat) (idx gang : List Nat) : List Nat :=
  gang.filter (fun g => idx.any (fun j => decide (j < g) && !gang.contains j && ti.eligible j && (ti.grantAll p 0 0 (ti.gangOf idx j)).isNone))

section Grant
variable {e : Engine} {u : Loc} {i p : Nat} {gang : List Nat} {low : Nat} (hi : i ∈ e.taskIdx p u) (hel : ∀ j ∈ gang, (e.tile u).eligible j = true)
  (hw : ∀ st, (e.part p).step = some st → u ∉ st.waits)
include hi hel hw

/-- What keeps an eligible gang from being offered is an entry before it alone. -/
theorem grant_blocked : (!((e.taskIdx p u).contains i && gang.all (e.tile u).eligible) || (e.part p).step.any (fun s => s.waits.contains u) ||
    (e.taskIdx p u).any ((e.tile u).before p (e.taskIdx p u) gang low)) = (e.taskIdx p u).any ((e.tile u).before p (e.taskIdx p u) gang low) := by
  have ha : gang.all (e.tile u).eligible = true := List.all_eq_true.mpr hel
  have hn : (e.part p).step.any (fun s => s.waits.contains u) = false := by
    cases hs : (e.part p).step with
    | none => rfl
    | some st => simpa using hw st hs
  rw [List.contains_iff_mem.mpr hi, ha, hn]
  rfl

variable (hp : e.steppingOn u = some p) (hg : gang = (e.tile u).gangOf (e.taskIdx p u) i) (hlow : low = gang.foldl min i) (now : Nat)
include hp hg hlow

theorem grantTask_waits (hb : (e.taskIdx p u).any ((e.tile u).before p (e.taskIdx p u) gang low) = true) : grantTask u i now e = e := by
  have hbl := (grant_blocked hi hel hw).trans hb
  subst hlow hg
  simp only [grantTask, hp]
  exact if_pos hbl

variable (hb : (e.taskIdx p u).any ((e.tile u).before p (e.taskIdx p u) gang low) = false)
include hb

theorem grantTask_some {ti : Tile} (ht : (e.tile u).grantAll p ((e.vOfLoc p u).getD 0) (e.part p).stepStart gang = some ti) : grantTask u i now e =
    (e.modTile u (fun _ => ti)).modDeck (deckOf u.field) (fun d => d.dispCount 2 ((e.tile u).passing p (e.taskIdx p u) gang).length) := by
  have hbl := (grant_blocked hi hel hw).trans hb
  subst hlow hg
  simp only [grantTask, hp]
  refine (if_neg (Bool.eq_false_iff.mp hbl)).trans ?_
  rw [ht]
  rfl

theorem grantTask_none (ht : (e.tile u).grantAll p ((e.vOfLoc p u).getD 0) (e.part p).stepStart gang = none) : grantTask u i now e = e := by
  have hbl := (grant_blocked hi hel hw).trans hb
  subst hlow hg
  simp only [grantTask, hp]
  refine (if_neg (Bool.eq_false_iff.mp hbl)).trans ?_
  rw [ht]

end Grant

/-! ### Threads replaced one by one -/

section ReplaceThreads
variable (f : Nat → Thread)

/-- Threads `l` replaced, the n-th by `f n` counted from m. -/
def Tile.setThreads (ti : Tile) (l : List Nat) (m : Nat) : Tile := (l.zipIdx m).foldl (fun ti x => ti.modThread x.1 (fun _ => f x.2)) ti

theorem Tile.setThreads_frame (l : List Nat) (m : Nat) (ti : Tile) : ∃ x, ti.setThreads f l m = { ti with threads := x } := by
  induction l generalizing ti m with
  | nil => exact ⟨_, rfl⟩
  | cons k r ih => exact ih (m + 1) (ti.modThread k (fun _ => f m))

theorem Tile.thread_setThreads_of_notMem {l : List Nat} {k : Nat} (hk : k ∉ l) (m : Nat) (ti : Tile) : (ti.setThreads f l m).thread k = ti.thread k := by
  induction l generalizing ti m with
  | nil => rfl
  | cons j r ih =>
    obtain ⟨hj, hr⟩ := not_or.mp (List.mem_cons.not.mp hk)
    exact (ih hr (m + 1) _).trans (Tile.modThread_thread_ne _ _ _ _ hj)

theorem Tile.thread_setThreads {l : List Nat} (hl : l.Nodup) {n k : Nat} (hn : l[n]? = some k) (m : Nat) (ti : Tile) :
    (ti.setThreads f l m).thread k = f (m + n) := by
  induction l generalizing ti m n with
  | nil => cases hn
  | cons j r ih =>
    obtain ⟨hj, hr⟩ := List.nodup_cons.mp hl
    cases n with
    | zero =>
      obtain rfl : j = k := by simpa using hn
      exact (Tile.thread_setThreads_of_notMem f hj (m + 1) _).trans (Tile.modThread_thread ..)
    | succ n => exact (ih hr (by simpa using hn) (m + 1) _).trans (by rw [Nat.add_assoc, Nat.add_comm 1])

end ReplaceThreads

/-- Clearing vector contexts and banks leaves the threads. -/
theorem Tile.clearCtxs_threads (l : List Nat) (ti : Tile) : (l.foldl Tile.clearCtx ti).threads = ti.threads := by
  induction l generalizing ti with
  | nil => rfl
  | cons c r ih => exact ih (ti.clearCtx c)

theorem Tile.clearBanks_threads (l : List Nat) (ti : Tile) : (l.foldl Tile.clearBank ti).threads = ti.threads := by
  induction l generalizing ti with
  | nil => rfl
  | cons b r ih => exact ih (ti.clearBank b)

/-! ### The threads of a granted task (R85) -/

theorem Tile.nodup_freeThreads (ti : Tile) : ti.freeThreads.Nodup := List.nodup_range.filter _

theorem mget_of_notMem (k : Nat) (l : AMap Word) (h : k ∉ l.map (·.1)) : mget (fun _ => 0) k l = 0 := by
  induction l with
  | nil => rfl
  | cons x r ih =>
    obtain ⟨hx, hr⟩ := not_or.mp (List.mem_cons.not.mp h)
    exact (if_neg (Ne.symm hx)).trans (ih hr)

/-- A table of distinct keys reads the same without its entries of the default value. -/
theorem mget_filter_ne_zero (k : Nat) (l : AMap Word) (hl : (l.map (·.1)).Nodup) :
    mget (fun _ => 0) k (l.filter (fun x => x.2 != 0)) = mget (fun _ => 0) k l := by
  induction l with
  | nil => rfl
  | cons x r ih =>
    obtain ⟨j, v⟩ := x
    obtain ⟨hj, hr⟩ := List.nodup_cons.mp hl
    by_cases hv : v = 0
    · rw [List.filter_cons_of_neg (p := fun x : Nat × Word => x.2 != 0) (fun h => bne_iff_ne.mp h hv), ih hr]
      by_cases hk : j = k
      · subst hk
        exact (mget_of_notMem _ _ hj).trans (hv.symm.trans (if_pos rfl).symm)
      · exact (if_neg hk).symm
    · rw [List.filter_cons_of_pos (p := fun x : Nat × Word => x.2 != 0) (bne_iff_ne.mpr hv)]
      simp only [mget, ih hr]

/-- The scalar registers of a thread at its grant (Table 3.2). -/
theorem startThread_x (w slot x1 x3 x5 index : Nat) (ctx : Option Nat) (r : BitVec 5) : (startThread w slot x1 x3 x5 index ctx).x r =
    if r = 0 then 0 else mget (fun _ => 0) r.toNat [(1, BitVec.ofNat 64 x1), (2, BitVec.ofNat 64 (fld w 63 0)), (3, BitVec.ofNat 64 x3),
      (4, BitVec.ofNat 64 index), (5, BitVec.ofNat 64 x5)] :=
  congrArg (fun v => if r = 0 then 0 else v) (mget_filter_ne_zero _ _ (by decide : [1, 2, 3, 4, 5].Nodup))

/-- The threads of a tile after a grant: those taken for the task start, in order. -/
theorem Tile.grant_threads (ti : Tile) (p i x3 x5 : Nat) : ∃ x1 : Nat, ∃ ti' : Tile, ti'.threads = ti.threads ∧ (ti.grant p i x3 x5).threads =
    (ti'.setThreads (fun n => startThread (ti.task i) i x1 x3 x5 n ((ti.freeCtxs.take (tVctx (ti.task i)))[n]?))
      (ti.freeThreads.take (tThreads (ti.task i))) 0).threads :=
  ⟨_, _, (Tile.clearBanks_threads _ _).trans (Tile.clearCtxs_threads _ _), rfl⟩

theorem Tile.grant_thread_kept (ti : Tile) (p i x3 x5 : Nat) {k : Nat} (hk : k ∉ ti.freeThreads.take (tThreads (ti.task i))) :
    (ti.grant p i x3 x5).thread k = ti.thread k := by
  obtain ⟨x1, ti', ht', hg⟩ := ti.grant_threads p i x3 x5
  rw [Tile.thread, hg]
  exact (Tile.thread_setThreads_of_notMem _ hk 0 ti').trans (by rw [Tile.thread, ht', Tile.thread])

theorem Tile.grant_thread_started (ti : Tile) (p i x3 x5 : Nat) {n k : Nat} (hn : (ti.freeThreads.take (tThreads (ti.task i)))[n]? = some k) :
    ∃ x1, (ti.grant p i x3 x5).thread k = startThread (ti.task i) i x1 x3 x5 n ((ti.freeCtxs.take (tVctx (ti.task i)))[n]?) := by
  obtain ⟨x1, ti', -, hg⟩ := ti.grant_threads p i x3 x5
  refine ⟨x1, ?_⟩
  rw [Tile.thread, hg]
  exact (Tile.thread_setThreads _ (ti.nodup_freeThreads.sublist (List.take_sublist ..)) hn 0 ti').trans (by rw [Nat.zero_add])

/-- A register that no grant sets holds 0. -/
theorem startThread_x_high (w slot x1 x3 x5 index : Nat) (ctx : Option Nat) {r : BitVec 5} (hr : 5 < r.toNat) :
    (startThread w slot x1 x3 x5 index ctx).x r = 0 := by
  have h0 : r ≠ 0 := fun h => by rw [h] at hr; exact absurd hr (by decide)
  rw [startThread_x, if_neg h0]
  exact mget_of_notMem _ _ (by simp; omega)

/-! ### Releases (R86) -/

/-- Threads `l` freed. -/
def Tile.freeThreadsOf (ti : Tile) (l : List Nat) : Tile := l.foldl (fun ti k => ti.modThread k (fun _ => {})) ti

theorem Tile.freeThreadsOf_frame (l : List Nat) (ti : Tile) : ∃ x, ti.freeThreadsOf l = { ti with threads := x } := by
  induction l generalizing ti with
  | nil => exact ⟨_, rfl⟩
  | cons k r ih => exact ih (ti.modThread k _)

theorem Tile.thread_freeThreadsOf (l : List Nat) (ti : Tile) (k : Nat) : (ti.freeThreadsOf l).thread k = if k ∈ l then {} else ti.thread k := by
  induction l generalizing ti with
  | nil => rfl
  | cons j r ih =>
    refine (ih (ti.modThread j _)).trans ?_
    by_cases hr : k ∈ r
    · rw [if_pos hr, if_pos (List.mem_cons_of_mem _ hr)]
    · rw [if_neg hr]
      by_cases hj : k = j
      · rw [hj, Tile.modThread_thread, if_pos List.mem_cons_self]
      · rw [Tile.modThread_thread_ne _ _ _ _ hj, if_neg (by simp [hj, hr])]

theorem Tile.freeInst_eq {ti : Tile} {slot : Nat} {i : Instance} (hi : ti.instOf slot = some i) : ti.freeInst slot =
    { ti with
      threads := (ti.freeThreadsOf i.threads).threads, inst := ti.inst.filter (fun x => x.1 != slot), finished := ti.finished ++ [slot]
      mbox := ti.mbox.filter (fun m => m.2.slot != some slot) } := by
  obtain ⟨x, hx⟩ := ti.freeThreadsOf_frame i.threads
  rw [Tile.freeInst, hi]
  change ({ ti.freeThreadsOf i.threads with
    inst := (ti.freeThreadsOf i.threads).inst.filter (fun x => x.1 != slot), finished := (ti.freeThreadsOf i.threads).finished ++ [slot]
    mbox := (ti.freeThreadsOf i.threads).mbox.filter (fun m => m.2.slot != some slot) } : Tile) = _
  rw [hx]

/-- A slot is empty once its task is freed. -/
theorem Tile.instOf_freeInst {ti : Tile} {slot : Nat} {i : Instance} (hi : ti.instOf slot = some i) : (ti.freeInst slot).instOf slot = none := by
  rw [Tile.freeInst_eq hi, Tile.instOf, List.find?_eq_none.mpr fun x hx => ?_]
  · rfl
  · simpa using (List.mem_filter.mp hx).2

section Release
variable {s : State} {u : Loc} {slot p : Nat} {i : Instance} (hu : locOk u = true) (hp : s.eng.steppingOn u = some p)
  (hi : (s.eng.tile u).instOf slot = some i)
include hu hp hi

theorem taskRelease_frees (hd : (∀ k ∈ i.threads, ((s.eng.tile u).thread k).ended = true) ∧ (s.eng.tile u).queuedWork slot = false) :
    exec (.taskRelease u slot) s = .next (withEng s { s.eng.modTile u (fun _ => (s.eng.tile u).freeInst slot) with
      signals := s.eng.signals ++ s.eng.endSignals p u ((s.eng.tile u).task i.entry) }) := by
  have hc : (i.threads.all (fun k => ((s.eng.tile u).thread k).ended) && !(s.eng.tile u).queuedWork slot) = true := by
    rw [List.all_eq_true.mpr hd.1, hd.2]; rfl
  have hm : s.eng.modTile u (fun ti => ti.freeInst slot) = s.eng.modTile u (fun _ => (s.eng.tile u).freeInst slot) := Engine.modTile_congr rfl
  refine onUnit_eq hu ?_
  simp only [releaseTask, hp, hi, hc, if_true, hm]

theorem taskRelease_waits (hd : (∃ k ∈ i.threads, ((s.eng.tile u).thread k).ended = false) ∨ (s.eng.tile u).queuedWork slot = true) :
    exec (.taskRelease u slot) s = .next s := by
  have hc : (i.threads.all (fun k => ((s.eng.tile u).thread k).ended) && !(s.eng.tile u).queuedWork slot) = false := by
    obtain ⟨k, hk, he⟩ | hq := hd
    · rw [List.all_eq_false.mpr ⟨k, hk, by rw [he]; exact Bool.false_ne_true⟩]; rfl
    · rw [hq]; exact Bool.and_false _
  refine onUnit_same hu ?_
  simp only [releaseTask, hp, hi, hc, Bool.false_eq_true, if_false]

end Release

/-! ### Signals (R269, R272) -/

theorem exec_depSignal {s : State} {k i : Nat} {g : Signal} (hk : s.eng.signals[k]? = some g) (hi : s.eng.entryOf g.graph g.dst g.node = some i)
    {w : Nat} (hw : w = (s.eng.tile g.dst).task i) {e : Engine} (he : e = { s.eng with signals := s.eng.signals.eraseIdx k }) :
    exec (.depSignal k) s = .next (withEng s (
      if tStag w ≠ g.stag then e.modDeck (deckOf g.dst.field) (fun d => d.dispCount 0 1)
      else if tCount w ≥ tPred w then (e.modDeck (deckOf g.dst.field) (fun d => d.dispCount 1 1)).modPart g.part Part.faultStep
      else e.modTile g.dst (fun ti => ti.setCount i (tCount w + 1) (tStag w)))) := by
  have hi' : e.entryOf g.graph g.dst g.node = some i := by rw [he]; exact hi
  have ht : e.tile g.dst = s.eng.tile g.dst := by rw [he]; rfl
  rw [show exec (.depSignal k) s = execDepSignal k s from rfl, execDepSignal]
  refine onEng_eq ?_
  simp only [hk, ← he, hw, Engine.deliver, hi', ht]

/-! ### ALL signals (R274) -/

/-- A step changed leaves where a virtual tile lies. -/
theorem Engine.modPart_step_spreadLocs (e : Engine) (p : Nat) (x : Option Step) (n : Node) :
    (e.modPart p (fun q => { q with step := x })).spreadLocs p n = e.spreadLocs p n := by
  have hf : (e.modPart p (fun q => { q with step := x })).partFields p = e.partFields p := by rw [Engine.partFields, Engine.modPart_part]; rfl
  have hl : (e.modPart p (fun q => { q with step := x })).locOfV p = e.locOfV p := by
    funext w
    unfold Engine.locOfV
    rw [hf]
    rfl
  rw [Engine.spreadLocs, hl, Engine.spreadLocs]

/-- The signals that the root of a node broadcasts: one to every tile of each ALL target's spread (R274). -/
def Engine.allSignals (e : Engine) (p : Nat) (n : Node) : List Signal :=
  (n.edges.filter (fun x => x.1 == 1)).flatMap (fun x =>
    match (e.graph (e.part p).graph).nodes[x.2.1]? with
    | some m => (e.spreadLocs p m).map (fun t =>
        ({ part := p, dst := t, graph := (e.part p).graph, node := x.2.1, stag := (e.part p).stepNo % 16 } : Signal))
    | none => [])

theorem Engine.modPart_step_allSignals (e : Engine) (p : Nat) (x : Option Step) (n : Node) :
    (e.modPart p (fun q => { q with step := x })).allSignals p n = e.allSignals p n := by
  unfold Engine.allSignals
  simp only [Engine.modPart_part, Engine.modPart_step_spreadLocs]
  rfl

/-- The step once a cluster's report has come, the last one or not. -/
def reported (st : Step) (node cl : Nat) (last : Bool) : Step :=
  { st with allEnds := st.allEnds ++ [(node, cl)], allDone := if last then st.allDone ++ [node] else st.allDone }

/-- Has every cluster of the node's spread reported? -/
def allReported (st : Step) (node cl : Nat) (locs : List Loc) : Bool := locs.all (fun t => (st.allEnds ++ [(node, cl)]).contains (node, clusterOf t))

theorem allReported_iff {st : Step} {node cl : Nat} {locs : List Loc} :
    allReported st node cl locs = true ↔ ∀ u ∈ locs, clusterOf u = cl ∨ (node, clusterOf u) ∈ st.allEnds := by
  simp only [allReported, List.all_eq_true, List.contains_iff_mem, List.mem_append, List.mem_singleton, Prod.mk.injEq, true_and]
  exact forall₂_congr fun _ _ => or_comm

section Combine
variable {e : Engine} {p node cl : Nat} {st : Step} {n : Node} (hh : st.halted = false) (hm : (node, cl) ∉ st.allEnds) (he : ∃ x ∈ n.edges, x.1 = 1)
  (hc : ∃ u ∈ e.spreadLocs p n, clusterOf u = cl) (hd : ∀ u ∈ e.spreadLocs p n, clusterOf u = cl → e.nodeEnded p node u = true)
include hh hm he hc hd

/-- Nothing keeps the cluster from reporting. -/
theorem combine_open : (st.halted || ((e.spreadLocs p n).filter (fun t => clusterOf t == cl)).isEmpty || st.allEnds.contains (node, cl) ||
    !(((e.spreadLocs p n).filter (fun t => clusterOf t == cl)).all (e.nodeEnded p node)) || n.edges.all (fun x => x.1 != 1)) = false := by
  obtain ⟨x, hx, hx1⟩ := he
  obtain ⟨u, hu, huc⟩ := hc
  have h1 : ((e.spreadLocs p n).filter (fun t => clusterOf t == cl)).isEmpty = false :=
    List.isEmpty_eq_false_iff_exists_mem.mpr ⟨u, List.mem_filter.mpr ⟨hu, beq_iff_eq.mpr huc⟩⟩
  have h2 : ((e.spreadLocs p n).filter (fun t => clusterOf t == cl)).all (e.nodeEnded p node) = true :=
    List.all_eq_true.mpr fun v hv => hd v (List.mem_filter.mp hv).1 (beq_iff_eq.mp (List.mem_filter.mp hv).2)
  have h3 : n.edges.all (fun x => x.1 != 1) = false := List.all_eq_false.mpr ⟨x, hx, by simp [hx1]⟩
  have h4 : st.allEnds.contains (node, cl) = false := by simpa using hm
  rw [hh, h1, h2, h3, h4]
  rfl

variable (hst : (e.part p).step = some st) (hn : (e.graph (e.part p).graph).nodes[node]? = some n) (now : Nat)
include hst hn

theorem combineAll_reports : combineAll p node cl now e =
    if allReported st node cl (e.spreadLocs p n) then { e.modPart p (fun q => { q with step := some (reported st node cl true) }) with
      signals := e.signals ++ e.allSignals p n }
    else e.modPart p (fun q => { q with step := some (reported st node cl false) }) := by
  have ho := combine_open hh hm he hc hd
  simp only [combineAll, hst, hn]
  refine (if_neg (Bool.eq_false_iff.mp ho)).trans ?_
  cases ha : allReported st node cl (e.spreadLocs p n) with
  | false => exact (if_neg (Bool.eq_false_iff.mp ha)).trans (by rw [show (e.spreadLocs p n).all _ = false from ha]; rfl)
  | true =>
    refine (if_pos ha).trans ?_
    rw [show (e.spreadLocs p n).all _ = true from ha, ← Engine.modPart_step_allSignals e p (some (reported st node cl true)) n]
    rfl

end Combine

/-- Settles O26: a boundary's grants, the granted threads, a release, a signal and the broadcast of a node, each by its own lemma above. -/
theorem dispatchResults : Obligations.DispatchResults := by
  unfold Obligations.DispatchResults
  refine ⟨fun s u i p ti hu hp hi => ?_, fun ti p i x3 x5 k => ?_, fun s u slot p i hu hp hi => ?_, fun s k i g hk hi => ?_,
    fun s p node cl st n hp hst hn hh hm he => ?_⟩
  · intro o idx gang low hel hw
    refine ⟨fun hb => ?_, fun hb => ?_⟩
    · have hb' : idx.any (o.before p idx gang low) = false := by
        refine List.any_eq_false.mpr fun j hj hc => ?_
        simp only [Tile.before, Bool.and_eq_true, decide_eq_true_eq, Bool.not_eq_true', List.contains_eq_mem, decide_eq_false_iff_not] at hc
        obtain ⟨⟨⟨hlt, hng⟩, he⟩, hgr⟩ := hc
        rw [hb j hj hlt hng he] at hgr
        cases hgr
      exact ⟨fun ht => ⟨_, onUnit_eq hu (grantTask_some hi hel hw hp rfl rfl s.now hb' ht), rfl⟩,
        fun ht => onUnit_same hu (grantTask_none hi hel hw hp rfl rfl s.now hb' ht)⟩
    · obtain ⟨j, hj, hlt, hng, he, hgr⟩ := hb
      have hj' : o.before p idx gang low j = true := by simp [Tile.before, hlt, hng, he, hgr]
      exact onUnit_same hu (grantTask_waits hi hel hw hp rfl rfl s.now (List.any_eq_true.mpr ⟨j, hj, hj'⟩))
  · refine ⟨Tile.grant_thread_kept ti p i x3 x5, fun n hn => ?_⟩
    obtain ⟨x1, h⟩ := Tile.grant_thread_started ti p i x3 x5 hn
    simp only [h]
    exact ⟨rfl, rfl, rfl, startThread_x .., startThread_x .., startThread_x .., startThread_x .., rfl, fun r hr => startThread_x_high _ _ _ _ _ _ _ hr⟩
  · refine ⟨fun hd => ?_, taskRelease_waits hu hp hi⟩
    intro v
    have hv : v = _ := Tile.freeInst_eq hi
    have ht : ∀ k, v.thread k = if k ∈ i.threads then {} else (s.eng.tile u).thread k := fun k => by
      rw [← Tile.thread_freeThreadsOf, hv]; rfl
    refine ⟨taskRelease_frees hu hp hi hd, Tile.instOf_freeInst hi, fun k hk => (ht k).trans (if_pos hk), fun k hk => (ht k).trans (if_neg hk), ?_, ?_⟩
    · rw [hv]
    · rw [hv]
  · intro w e
    have h := exec_depSignal hk hi rfl rfl
    refine ⟨fun hg hc => ?_, fun hg hc => ?_, fun hg => ?_⟩
    · exact h.trans (by rw [if_neg (not_not.mpr hg), if_neg (Nat.not_le.mpr hc)])
    · exact h.trans (by rw [if_neg (not_not.mpr hg), if_pos hc])
    · exact h.trans (by rw [if_pos hg])
  · intro locs hc hd last
    have h := combineAll_reports hh hm he hc hd hst hn s.now
    cases ha : allReported st node cl locs with
    | false =>
      have hl : ¬ last := fun hl => Bool.eq_false_iff.mp ha (allReported_iff.mpr hl)
      exact ⟨_, reported st node cl false, onUnit_eq (decide_eq_true hp) (h.trans (if_neg (Bool.eq_false_iff.mp ha))), rfl, rfl, rfl,
        fun _ => ⟨rfl, rfl⟩, fun hl' => absurd hl' hl⟩
    | true =>
      have hl : last := allReported_iff.mp ha
      exact ⟨_, reported st node cl true, onUnit_eq (decide_eq_true hp) (h.trans (if_pos ha)), rfl, rfl, rfl,
        fun hl' => absurd hl hl', fun _ => ⟨rfl, rfl⟩⟩

end Sys2Proof.Machine
end

section
/-!
PROOFS. The reset state (Tables 2.8, 5.7, 7.7, 11.4, 12.4, 13.4): every table of it is empty, so each unit reads as its default.
-/
namespace Sys2Proof.Machine

open Sys2Proof.Safety

theorem State.reset_wf : stateWf State.reset = true := by decide

theorem State.reset_tile (u : Loc) : State.reset.eng.tile u = {} := rfl

theorem State.reset_deck (d : Nat) : State.reset.eng.deck d = {} := rfl

/-- A free thread reads 0 in every scalar register (log entry 6). -/
theorem Thread.x_default (r : BitVec 5) : ({} : Thread).x r = 0 := ite_self 0

/-- An entry other than 32 of an empty hem credit table has no bandwidth (log entry 12). -/
theorem Deck.hem_default {n : Nat} (hn : n ≠ 32) : ({} : Deck).hem 1 n = {} := if_neg hn

/-- A queue is disabled at reset (Table 11.4). -/
theorem Ring.enabled_default : ({} : Ring).enabled = false := by decide

/-- Settles O5: every table of the reset state is empty, so its units hold the defaults of their structures. -/
theorem resetState : Obligations.ResetState := by
  unfold Obligations.ResetState
  refine ⟨State.reset_wf, rfl, rfl, rfl, rfl, fun u => ?tile, fun d => ?deck, fun _ => ⟨rfl, rfl⟩, fun _ => rfl, fun _ => rfl, fun _ => rfl, fun _ _ => Ring.enabled_default,
    rfl, rfl, rfl⟩
  case tile =>
    rw [State.reset_tile]
    exact ⟨rfl, rfl, fun _ => rfl, fun _ => rfl, fun _ r => Thread.x_default r⟩
  case deck =>
    rw [State.reset_deck]
    exact ⟨rfl, rfl, rfl, rfl, rfl, fun n hn => Deck.hem_default hn⟩

end Sys2Proof.Machine
end

section
/-!
PROOFS. Words of the tile instructions (R117, R118, R124, R166, R167): the fields of a word, the row that its GROUP and OP name, and what
the errors of its fetch leave as it is.
-/
namespace Sys2Proof.Machine

open Sys2Proof.Safety

/-! ### The fields of a word (Table 4.1) -/

theorem gopOf_lt {group op : Nat} {w : Opnd} (hg : group < 16) (ho : op < 128) : gopOf group op w < 4096 := by
  unfold gopOf
  split
  · exact BitVec.isLt _
  · split <;> omega

/-- A word's value by its fields. -/
theorem wordOf_toNat (group op : Nat) (w : Opnd) : (wordOf group op w).toNat =
    gopOf group op w % 4096 * 2 ^ 52 + w.d.toNat * 2 ^ 47 + w.a.toNat * 2 ^ 42 + w.b.toNat * 2 ^ 37 + w.c.toNat * 2 ^ 32 + w.imm.toNat := by
  have hd := w.d.isLt; have ha := w.a.isLt; have hb := w.b.isLt; have hc := w.c.isLt; have hi := w.imm.isLt
  rw [wordOf, BitVec.toNat_ofNat]
  simp only [pack, packHigh]
  omega

theorem wordOf_gop {group op : Nat} {w : Opnd} (hlt : gopOf group op w < 4096) :
    ((wordOf group op w).extractLsb' 52 12).toNat = gopOf group op w := by
  have hd := w.d.isLt; have ha := w.a.isLt; have hb := w.b.isLt; have hc := w.c.isLt; have hi := w.imm.isLt
  rw [BitVec.extractLsb'_toNat, wordOf_toNat, Nat.shiftRight_eq_div_pow]
  omega

/-- The fields below GROUP and OP are those that the word was made of. -/
theorem fieldsOf_wordOf (group op : Nat) (w : Opnd) : fieldsOf (wordOf group op w) = { d := w.d, a := w.a, b := w.b, c := w.c, imm := w.imm } := by
  have hd := w.d.isLt; have ha := w.a.isLt; have hb := w.b.isLt; have hc := w.c.isLt; have hi := w.imm.isLt
  unfold fieldsOf
  congr 1
  all_goals
    apply BitVec.eq_of_toNat_eq
    rw [BitVec.extractLsb'_toNat, wordOf_toNat, Nat.shiftRight_eq_div_pow]
    omega

/-- A word is that of its own fields. -/
theorem wordOf_fieldsOf (group op : Nat) (v : Word) : wordOf group op { fieldsOf v with other := some (v.extractLsb' 52 12) } = v := by
  have hv := v.isLt
  apply BitVec.eq_of_toNat_eq
  rw [wordOf_toNat]
  simp only [gopOf, fieldsOf, BitVec.extractLsb'_toNat, Nat.shiftRight_eq_div_pow]
  omega

/-! ### The row that GROUP and OP name -/

/-- GROUP has 4 bits, and OP leaves bit 7 to the immediate form. -/
theorem opLines_small : ∀ x ∈ opLines, x.1 < 16 ∧ x.2.1 < 128 := by decide

/-- No two rows have the same GROUP and OP. -/
theorem opLines_nodup : (opLines.map (fun x => (x.1, x.2.1))).Nodup := by decide

/-- Does a row have this GROUP and OP, or have them in its immediate form? -/
def OpLine.named (gop : Nat) (x : OpLine) : Bool :=
  x.1 == gop / 256 && (x.2.1 == gop % 256 || (hasImmForm x.1 x.2.1 && x.2.1 + 0x80 == gop % 256))

theorem lineOf_eq_find (gop : Nat) : lineOf gop = opLines.find? (OpLine.named gop) := rfl

theorem OpLine.named_iff {x : OpLine} (hx : x ∈ opLines) (g op : Nat) (alt : Bool) (ho : op < 128) :
    x.named (g * 256 + op + if alt then 0x80 else 0) = true ↔ x.1 = g ∧ x.2.1 = op ∧ (alt = true → hasImmForm x.1 x.2.1 = true) := by
  obtain ⟨-, hop⟩ := opLines_small x hx
  have hb : (if alt then 0x80 else 0) = 0x80 ∧ alt = true ∨ (if alt then 0x80 else 0) = 0 ∧ alt = false := by cases alt <;> simp
  generalize (if alt then 0x80 else 0) = m at hb ⊢
  simp only [OpLine.named, Bool.and_eq_true, Bool.or_eq_true, beq_iff_eq]
  have hd : (g * 256 + op + m) / 256 = g := by omega
  have hm : (g * 256 + op + m) % 256 = op + m := by omega
  rw [hd, hm]
  obtain ⟨rfl, rfl⟩ | ⟨rfl, rfl⟩ := hb
  · have : x.2.1 ≠ op + 0x80 := by omega
    simp [this, and_comm]
  · have : x.2.1 + 0x80 ≠ op := by omega
    simp [this]

/-- A row is found by its GROUP and OP, in its immediate form too where it has one. -/
theorem lineOf_row {x : OpLine} (hx : x ∈ opLines) {alt : Bool} (ha : alt = true → hasImmForm x.1 x.2.1 = true) :
    lineOf (x.1 * 256 + x.2.1 + if alt then 0x80 else 0) = some x := by
  obtain ⟨-, hop⟩ := opLines_small x hx
  have hp := (OpLine.named_iff hx x.1 x.2.1 alt hop).mpr ⟨rfl, rfl, ha⟩
  obtain ⟨y, hy⟩ := Option.isSome_iff_exists.mp (List.find?_isSome.mpr ⟨x, hx, hp⟩)
  have hm := List.mem_of_find?_eq_some hy
  obtain ⟨h1, h2, -⟩ := (OpLine.named_iff hm x.1 x.2.1 alt hop).mp (List.find?_some hy)
  rw [lineOf_eq_find, hy, List.inj_on_of_nodup_map opLines_nodup hm hx (Prod.ext h1 h2)]

/-- A word whose GROUP and OP name a row is that row with the word's fields. -/
theorem instrOf_of_line (h : Hart) {v : Word} {x : OpLine} (hv : lineOf (v.extractLsb' 52 12).toNat = some x) :
    instrOf h v = x.2.2 h { fieldsOf v with alt := x.2.1 != (v.extractLsb' 52 12).toNat % 256 } := by
  unfold instrOf
  simp only [hv]

theorem instrOf_row (h : Hart) {x : OpLine} (hx : x ∈ opLines) {w : Opnd} (ho : w.other = none) (he : w.ecc = [])
    (ha : w.alt = true → hasImmForm x.1 x.2.1 = true) : instrOf h (wordOf x.1 x.2.1 w) = x.2.2 h w := by
  obtain ⟨hg, hop⟩ := opLines_small x hx
  have hgop : ((wordOf x.1 x.2.1 w).extractLsb' 52 12).toNat = x.1 * 256 + x.2.1 + if w.alt then 0x80 else 0 := by
    rw [wordOf_gop (gopOf_lt hg hop), gopOf, ho]
  have halt : (x.2.1 != (x.1 * 256 + x.2.1 + if w.alt then 0x80 else 0) % 256) = w.alt := by
    cases w.alt <;> simp <;> omega
  rw [instrOf_of_line h ((congrArg lineOf hgop).trans (lineOf_row hx ha)), hgop, halt, fieldsOf_wordOf]
  obtain ⟨alt, other, ecc, d, a, b, c, imm⟩ := w
  subst ho he
  rfl

theorem instrOf_unlisted (h : Hart) {v : Word} (hv : lineOf (v.extractLsb' 52 12).toNat = none) :
    instrOf h v = .add h { fieldsOf v with other := some (v.extractLsb' 52 12) } := by
  simp only [instrOf, hv]

/-! ### What the errors of a fetch leave as it is (R166, R167) -/

/-- `e'` has the fields, and tile `t` of it the threads and the tasks that run, that `e` has. -/
structure Engine.SameHarts (e : Engine) (t : Loc) (e' : Engine) : Prop where
  fields : e'.fields = e.fields
  threads : (e'.tile t).threads = (e.tile t).threads
  inst : (e'.tile t).inst = (e.tile t).inst

section SameHarts
variable {e e' : Engine} {t : Loc}

theorem Engine.SameHarts.refl (e : Engine) (t : Loc) : e.SameHarts t e := ⟨rfl, rfl, rfl⟩

/-- An engine that differs outside its tiles and fields. -/
theorem Engine.SameHarts.update {e'' : Engine} (k : e.SameHarts t e') (ht : e''.tiles = e'.tiles := by rfl) (hf : e''.fields = e'.fields := by rfl) :
    e.SameHarts t e'' := by
  have htile : e''.tile t = e'.tile t := congrArg (mget (fun _ => ({} : Tile)) (locKey t)) ht
  exact ⟨hf.trans k.fields, by rw [htile, k.threads], by rw [htile, k.inst]⟩

theorem Engine.SameHarts.modTile {f : Tile → Tile} (hth : ∀ ti, (f ti).threads = ti.threads) (hin : ∀ ti, (f ti).inst = ti.inst)
    (k : e.SameHarts t e') : e.SameHarts t (e'.modTile t f) :=
  ⟨k.fields, by rw [Engine.modTile_tile, hth, k.threads], by rw [Engine.modTile_tile, hin, k.inst]⟩

theorem Engine.SameHarts.ite {c : Prop} [Decidable c] {a b : Engine} (ha : e.SameHarts t a) (hb : e.SameHarts t b) : e.SameHarts t (if c then a else b) := by
  split
  · exact ha
  · exact hb

theorem Engine.SameHarts.foldl {α : Type} {f : Engine → α → Engine} {l : List α} (hf : ∀ e' x, e.SameHarts t e' → e.SameHarts t (f e' x))
    (k : e.SameHarts t e') : e.SameHarts t (l.foldl f e') := List.foldlRecOn l f k fun e' k x _ => hf e' x k

theorem Engine.SameHarts.msix {f v} (k : e.SameHarts t e') : e.SameHarts t (e'.msix f v) := .ite (.update k) (.update k)

theorem Engine.SameHarts.journal {d x} (k : e.SameHarts t e') : e.SameHarts t (e'.journal d x) := .ite (.update k) (.update k)

theorem Engine.SameHarts.ledgerVector {d} (k : e.SameHarts t e') : e.SameHarts t (e'.ledgerVector d) := .foldl (fun _ _ k => .msix k) k

/-- An event changes a ledger, the journal and the functions only. -/
theorem Engine.SameHarts.eventIn {now d unit x} (k : e.SameHarts t e') : e.SameHarts t (e'.eventIn now d unit x) :=
  have hs : e.SameHarts t _ := .ite (.journal (.update k)) (.update k)
  .ite (.ledgerVector hs) hs

theorem Engine.SameHarts.foundBad {now j} (k : e.SameHarts t e') : e.SameHarts t (e'.foundBad now t j) :=
  .ite k (.eventIn (.modTile (fun _ => rfl) (fun _ => rfl) k))

theorem Engine.SameHarts.meets {now l} (k : e.SameHarts t e') : e.SameHarts t (e'.meets now t l) :=
  .foldl (fun _ _ k => .ite k (.ite (.foundBad k) (.modTile (fun _ => rfl) (fun _ => rfl) k))) k

end SameHarts

/-! ### Which threads issue (R84, R133) -/

/-- The hart's thread runs or waits and has not ended, and its task runs on an ACTIVE site. -/
structure HartReady (e : Engine) (h : Hart) (i : Instance) : Prop where
  run : ((e.tile h.loc).thread h.thread).run = .running ∨ ((e.tile h.loc).thread h.thread).run = .waiting
  notEnded : ((e.tile h.loc).thread h.thread).ended = false
  active : e.siteState h.loc = .active
  inst : (e.tile h.loc).instOf ((e.tile h.loc).thread h.thread).task = some i

theorem HartReady.mayIssue {e : Engine} {h : Hart} {i : Instance} (hr : HartReady e h i) : mayIssue e h =
    some { now := 0, e := e, h := h, th := (e.tile h.loc).thread h.thread, ti := e.tile h.loc, i := i } := by
  obtain ⟨hrun, hopen, hact, hinst⟩ := hr
  simp only [Machine.mayIssue, hrun, hopen, hact, and_self, if_true, hinst, Option.map_some]

/-- It still does in an engine with the same threads and tasks. -/
theorem HartReady.sameHarts {e e' : Engine} {h : Hart} {i : Instance} (hr : HartReady e h i) (k : e.SameHarts h.loc e') :
    HartReady e' h i ∧ (e'.tile h.loc).thread h.thread = (e.tile h.loc).thread h.thread := by
  have hth : (e'.tile h.loc).thread h.thread = (e.tile h.loc).thread h.thread := congrArg (mget (fun _ => ({} : Thread)) h.thread) k.threads
  refine ⟨⟨hth ▸ hr.run, hth ▸ hr.notEnded, ?_, ?_⟩, hth⟩
  · rw [← hr.active, Engine.siteState, Engine.field, k.fields]; rfl
  · rw [hth, ← hr.inst, Tile.instOf, k.inst]; rfl

/-- A hart that may run is one whose thread is ready and whose fetch meets no word known as uncorrectable. -/
theorem mayRun_ready {s : State} {h : Hart} (hm : mayRun s h = true) :
    hartOk h = true ∧ (∃ i, HartReady s.eng h i) ∧ (s.eng.tile h.loc).firstBad (thr s h).pc.toNat 8 = none := by
  simp only [mayRun, Bool.and_eq_true, Bool.or_eq_true, Bool.not_eq_true', beq_iff_eq, Option.isNone_iff_eq_none, Option.isSome_iff_exists] at hm
  obtain ⟨⟨⟨⟨⟨hok, hrun⟩, hopen⟩, hact⟩, i, hi⟩, hf⟩ := hm
  exact ⟨hok, ⟨i, hrun, hopen, hact, hi⟩, hf⟩

/-! ### What an issue does before the instruction's own checks -/

section Issue
variable {group op : Nat} {legal vec : Bool} {h : Hart} {w : Opnd} {body : Ctx → Iss} {s : State}

theorem issue_of_hartOk (hh : hartOk h = true) : issue group op legal vec h w body s = .next (withEng s (issueOn group op legal vec h w body s.now s.eng)) :=
  if_pos hh

/-- A word whose own GROUP and OP name another row is no command of this one. -/
theorem issue_spellsRow (hh : hartOk h = true) (hw : spellsRow w = true) : issue group op legal vec h w body s = .next s := by
  rw [issue_of_hartOk hh, issueOn, if_pos hw]; rfl

/-- The instruction runs on the tile as the errors of its fetch and reads leave it (R166, R167). -/
theorem issue_meets (hh : hartOk h = true) {i : Instance} (hr : HartReady s.eng h i) (hw : spellsRow w = false) :
    issue group op legal vec h w body s = issue group op legal vec h { w with ecc := [] } body (withEng s (s.eng.meets s.now h.loc w.ecc)) := by
  obtain ⟨hr', hth⟩ := hr.sameHarts (Engine.SameHarts.meets (now := s.now) (l := w.ecc) (.refl s.eng h.loc))
  have hw' : spellsRow { w with ecc := [] } = false := hw
  have he : (withEng s (s.eng.meets s.now h.loc w.ecc)).eng = s.eng.meets s.now h.loc w.ecc := rfl
  rw [issue_of_hartOk hh, issue_of_hartOk hh, he]
  simp only [issueOn, hw, hw', Bool.false_eq_true, if_false, hr.mayIssue, hr'.mayIssue, hth]
  rfl

/-- An illegal encoding raises ILLEGAL_OP and has no other effect (R118). -/
theorem issue_illegalOp (hm : mayRun s h = true) (hw : spellsRow w = false) (hl : (legal && w.other.isNone) = false) (he : w.ecc = []) :
    issue group op legal vec h w body s = .next (withEng s (raised s h (wordOf group op w) .illegalOp 0)) := by
  obtain ⟨hh, ⟨i, hr⟩, hf⟩ := mayRun_ready hm
  have hb : ((s.eng.fetched h (thr s h).pc.toNat (wordOf group op w)).tile h.loc).firstBad (thr s h).pc.toNat 8 = none :=
    (seen_firstBad s h _ _ 8).trans hf
  have hpc : ((s.eng.tile h.loc).thread h.thread).pc = (thr s h).pc := rfl
  rw [issue_of_hartOk hh]
  simp only [issueOn, hw, Bool.false_eq_true, if_false, hr.mayIssue, he, Engine.meets, List.foldl_nil, hpc, hb, hl, check]
  rfl

/-- A fetch that finds an uncorrectable word raises SRAM_UNCORR with it (R167). -/
theorem issue_badFetch (hh : hartOk h = true) {i : Instance} (hr : HartReady s.eng h i) (hw : spellsRow w = false) (he : w.ecc = []) {k : Nat}
    (hk : (s.eng.tile h.loc).firstBad (thr s h).pc.toNat 8 = some k) :
    issue group op legal vec h w body s = .next (withEng s (raised s h (wordOf group op w) .sramUncorr k)) := by
  have hb : ((s.eng.fetched h (thr s h).pc.toNat (wordOf group op w)).tile h.loc).firstBad (thr s h).pc.toNat 8 = some k :=
    (seen_firstBad s h _ _ 8).trans hk
  have hpc : ((s.eng.tile h.loc).thread h.thread).pc = (thr s h).pc := rfl
  rw [issue_of_hartOk hh]
  simp only [issueOn, hw, Bool.false_eq_true, if_false, hr.mayIssue, he, Engine.meets, List.foldl_nil, hpc, hb]
  rfl

end Issue

/-- The word of an encoding that no table lists is its own, whatever row holds it. -/
theorem wordOf_other {w : Opnd} (ho : w.other.isSome = true) (group op : Nat) : wordOf group op w = wordOf 0 0 w := by
  obtain ⟨g, hg⟩ := Option.isSome_iff_exists.mp ho
  simp only [wordOf, gopOf, hg]

/-- Settles O60: words by their fields and rows, and an issue by what comes before the instruction's own checks. -/
theorem instructionWords : Obligations.InstructionWords := by
  refine ⟨fun h x hx w ho he ha => instrOf_row h hx ho he ha, fun h v hv => ?_, fun s h x hx w => ?_⟩
  · exact ⟨_, instrOf_unlisted h hv, wordOf_fieldsOf 0 0 v, by rw [spellsRow, Option.any_some, hv]; rfl⟩
  · obtain ⟨legal, vec, body, hrow⟩ := rows_issue x hx
    obtain ⟨hex, hbody, hlegal, hvec⟩ := hrow h w s
    refine ⟨fun hh hw => ?spells, fun hm hw ho he => ?illegal, fun hm hw => ?meets, fun k hh hrun hopen hact hinst hk ho he => ?fetch⟩
    case spells => rw [hex, issue_spellsRow hh hw]
    case illegal =>
      have hl : (legal w && w.other.isNone) = false := by simp [Option.isNone_eq_false_iff.mpr ho]
      rw [hex, issue_illegalOp hm hw hl he, wordOf_other ho]
    case meets =>
      obtain ⟨hh, ⟨i, hr⟩, -⟩ := mayRun_ready hm
      rw [hex, issue_meets hh hr hw, (hrow h _ _).1, ← hbody, ← hlegal, ← hvec]
    case fetch =>
      obtain ⟨i, hi⟩ := Option.isSome_iff_exists.mp hinst
      exact hex.trans (issue_badFetch hh ⟨hrun, hopen, hact, hi⟩ (by simp [spellsRow, ho]) he hk)

end Sys2Proof.Machine
end

section
/-!
PROOFS. Scalar ALU exceptions (R118, R125): a form that Table 4.4 does not give raises ILLEGAL_OP; every other form writes a register, at the
corners of division too.
-/
namespace Sys2Proof.Machine

open Sys2Proof.Safety

/-- A hart that issues meets no error, and its row is that of its own GROUP and OP. -/
theorem issues_iff {s : State} {h : Hart} {w : Opnd} : issues s h w = true ↔ mayRun s h = true ∧ w.other = none ∧ w.ecc = [] := by
  simp only [issues, Bool.and_eq_true, Option.isNone_iff_eq_none, List.isEmpty_iff, and_assoc]

/-- TILE_EXC is none of a thread's. -/
theorem onlyThread_exc {s t : State} {h : Hart} (ho : OnlyThread s t h) : (t.eng.tile h.loc).exc = (s.eng.tile h.loc).exc := by
  simpa only using congrArg Tile.exc ho.tile

section Scalar
variable {s : State} {h : Hart} {w : Opnd} (hi : issues s h w = true)
include hi

theorem issue_illegal {group op : Nat} {legal vec : Bool} {body : Ctx → Iss} (hl : legal = false) :
    issue group op legal vec h w body s = .next (withEng s (raised s h (wordOf group op w) .illegalOp 0)) := by
  obtain ⟨hm, ho, he⟩ := issues_iff.mp hi
  exact issue_illegalOp hm (by rw [spellsRow, ho]; rfl) (by rw [hl]; rfl) he

/-- An instruction that only writes a scalar register raises nothing but ILLEGAL_OP. -/
theorem writeX_outcome {i : Instr} {group op : Nat} {legal : Bool} {v : Ctx → Word}
    (he : exec i s = issue group op legal false h w (fun c => .done (c.writeX w.d (v c) c.e)) s) :
    (legal = false → exec i s = .next (withEng s (raised s h (wordOf group op w) .illegalOp 0))) ∧
      (legal = true → ∃ t, exec i s = .next t ∧ (t.eng.tile h.loc).exc = (s.eng.tile h.loc).exc ∧ (thr t h).run = .running) := by
  refine ⟨fun hl => he.trans (issue_illegal hi hl), fun hl => ?_⟩
  have hr := regResult_writeX s h (word := wordOf group op w) w.d (v (seen s h (wordOf group op w)))
  exact ⟨_, he.trans (issue_done hi hl (fun hv => nomatch hv) rfl), onlyThread_exc hr.frame, hr.goes.run⟩

end Scalar

/-! ### Corners of division (R125) -/

theorem divS_zero (a : Word) : divS a 0 = BitVec.allOnes 64 := if_pos rfl

theorem divU_zero (a : Word) : divU a 0 = BitVec.allOnes 64 := if_pos rfl

theorem remS_zero (a : Word) : remS a 0 = a := if_pos rfl

theorem remU_zero (a : Word) : remU a 0 = a := if_pos rfl

/-- The quotient that does not fit: -2^63 by -1 stays -2^63. -/
theorem divS_intMin_neg_one : divS (BitVec.intMin 64) (BitVec.allOnes 64) = BitVec.intMin 64 := by decide

theorem remS_intMin_neg_one : remS (BitVec.intMin 64) (BitVec.allOnes 64) = 0 := by decide

/-- Settles O7: every form is an issue that writes xD, and the values of division are those of Table 4.4 at its corners. -/
theorem scalarExceptions : Obligations.ScalarExceptions := by
  intro s h w hi
  refine ⟨?forms, ?unary, fun hl => ?corners⟩
  case forms =>
    simp only [List.forall_mem_cons]
    exact ⟨writeX_outcome hi rfl, writeX_outcome hi rfl, writeX_outcome hi rfl, writeX_outcome hi rfl, writeX_outcome hi rfl, writeX_outcome hi rfl,
      writeX_outcome hi rfl, writeX_outcome hi rfl, writeX_outcome hi rfl, writeX_outcome hi rfl, writeX_outcome hi rfl, writeX_outcome hi rfl,
      writeX_outcome hi rfl, writeX_outcome hi rfl, writeX_outcome hi rfl, writeX_outcome hi rfl, writeX_outcome hi rfl, writeX_outcome hi rfl,
      writeX_outcome hi rfl, writeX_outcome hi rfl, writeX_outcome hi rfl, fun _ hp => nomatch hp⟩
  case unary =>
    simp only [List.forall_mem_cons]
    exact ⟨writeX_outcome hi rfl, writeX_outcome hi rfl, writeX_outcome hi rfl, writeX_outcome hi rfl, fun _ hp => nomatch hp⟩
  case corners =>
    intro a y
    refine ⟨fun hy => ?_, fun ha hy => ⟨?_, ?_⟩⟩
    · simp only [List.forall_mem_cons]
      exact ⟨⟨alu_result hi hl (show _ = execDiv h w s from rfl) ((congrArg (divS a) hy).trans (divS_zero a)),
          alu_result hi hl (show _ = execDivu h w s from rfl) ((congrArg (divU a) hy).trans (divU_zero a)), fun _ hp => nomatch hp⟩,
        alu_result hi hl (show _ = execRem h w s from rfl) ((congrArg (remS a) hy).trans (remS_zero a)),
        alu_result hi hl (show _ = execRemu h w s from rfl) ((congrArg (remU a) hy).trans (remU_zero a)), fun _ hp => nomatch hp⟩
    · exact alu_result hi hl (show _ = execDiv h w s from rfl) ((congrArg₂ divS ha hy).trans divS_intMin_neg_one)
    · exact alu_result hi hl (show _ = execRem h w s from rfl) ((congrArg₂ remS ha hy).trans remS_intMin_neg_one)

end Sys2Proof.Machine
end

section
/-!
PROOFS. NaNs and zeros of both signs (R55, R88, R135): what VMIN, VMAX and VCMP answer on a lane, by the lane's own bits.
-/
namespace Sys2Proof.Machine

open Sys2Proof.Safety

/-! ### Lanes as FP32 patterns -/

/-- The FP32 pattern of a lane's bits. -/
def laneFp (bf : Bool) (r : Nat) : Nat := if bf then bfTo32 r else r

theorem fp_eq_laneFp (bf : Bool) (v k : Nat) : fp bf v k = laneFp bf (lane (laneW bf) v k) := by
  cases bf <;> simp [fp, laneFp, laneW]

/-- Fraction bits of a lane. -/
def fracW (bf : Bool) : Nat := if bf then 7 else 23

/-- A lane is a NaN: its exponent is all ones and its fraction is not 0 (R55). -/
def laneNan (bf : Bool) (r : Nat) : Bool := decide (r / 2 ^ fracW bf % 256 = 255) && decide (r % 2 ^ fracW bf ≠ 0)

/-- The zero with the sign bit set. -/
def negZero (bf : Bool) : Nat := 2 ^ (laneW bf - 1)

theorem fpNan_laneFp (bf : Bool) (r : Nat) : fpNan (laneFp bf r) = laneNan bf r := by
  rw [Bool.eq_iff_iff]
  simp only [fpNan, fpExp, fpFrac, fld, Nat.shiftRight_eq_div_pow, laneNan, Bool.and_eq_true, beq_iff_eq, bne_iff_ne, decide_eq_true_eq]
  cases bf with
  | false => simp [laneFp, fracW]
  | true => simp only [laneFp, fracW, bfTo32, if_true]; omega

theorem fpNanBits_lt (bf : Bool) : fpNanBits (prec bf) < 2 ^ laneW bf := by cases bf <;> decide

theorem fpNanBits_eq (bf : Bool) : fpNanBits (prec bf) = if bf then 0x7FC0 else 0x7FC00000 := by cases bf <;> rfl

/-! ### VMIN and VMAX -/

/-- What VMIN (`low`) and VMAX answer on the lanes r and t. -/
def lanePick (bf low : Bool) (r t : Nat) : Nat := fpPick (prec bf) low (laneFp bf r) (laneFp bf t) r t

section Pick
variable {bf : Bool} (low : Bool) {r t : Nat}

theorem lanePick_nan_left (hr : laneNan bf r = true) (ht : laneNan bf t = false) : lanePick bf low r t = t := by
  simp [lanePick, fpPick, fpNan_laneFp, hr, ht]

theorem lanePick_nan_right (hr : laneNan bf r = false) (ht : laneNan bf t = true) : lanePick bf low r t = r := by
  simp [lanePick, fpPick, fpNan_laneFp, hr, ht]

theorem lanePick_nan_both (hr : laneNan bf r = true) (ht : laneNan bf t = true) : lanePick bf low r t = fpNanBits (prec bf) := by
  simp [lanePick, fpPick, fpNan_laneFp, hr, ht]

/-- -0 is less than +0. -/
theorem lanePick_zeros (h : (r = negZero bf ∧ t = 0) ∨ (r = 0 ∧ t = negZero bf)) : lanePick bf low r t = if low then negZero bf else 0 := by
  obtain ⟨rfl, rfl⟩ | ⟨rfl, rfl⟩ := h <;> cases bf <;> cases low <;> decide

theorem lanePick_lt (hr : r < 2 ^ laneW bf) (ht : t < 2 ^ laneW bf) : lanePick bf low r t < 2 ^ laneW bf := by
  unfold lanePick fpPick
  split
  · exact fpNanBits_lt bf
  · split_ifs <;> assumption

end Pick

/-- VMIN and VMAX, on the lanes of vA and vB. -/
theorem pick_result {s : State} {h : Hart} {w : Opnd} {i : Instr} (hi : issuesVec s h w = true) (hl : vlegal true false 0 w = true) {op : Nat}
    {low : Bool} (he : exec i s = lanewise op true false 0
      (fun x w k => fpPick (prec (isBf w)) low (la x w k) (lb x w k) (raw x w w.a k) (raw x w w.b k)) h w s) {k : Nat} (hk : k < laneN (isBf w))
    {r u : Nat} (hr : r = raw (seen s h 0) w w.a k) (hu : u = raw (seen s h 0) w w.b k) :
    ∃ t v, exec i s = .next t ∧ VecResult s t h w.d v ∧
      (laneNan (isBf w) r = true → laneNan (isBf w) u = false → lane (laneW (isBf w)) v.toNat k = u) ∧
      (laneNan (isBf w) r = false → laneNan (isBf w) u = true → lane (laneW (isBf w)) v.toNat k = r) ∧
      (laneNan (isBf w) r = true → laneNan (isBf w) u = true → lane (laneW (isBf w)) v.toNat k = if isBf w then 0x7FC0 else 0x7FC00000) ∧
      ((r = negZero (isBf w) ∧ u = 0) ∨ (r = 0 ∧ u = negZero (isBf w)) →
        lane (laneW (isBf w)) v.toNat k = if low then negZero (isBf w) else 0) := by
  obtain ⟨t, v, ht, hv, hlane⟩ := lanewise_result hi he
    (g := fun k => lanePick (isBf w) low (raw (seen s h 0) w w.a k) (raw (seen s h 0) w w.b k))
    (fun k => by simp only [la, lb, raw, lanePick, fp_eq_laneFp, seen_v]) hl
  have hp : lane (laneW (isBf w)) v.toNat k = lanePick (isBf w) low r u := by
    subst hr hu
    exact (hlane k hk).trans (Nat.mod_eq_of_lt (lanePick_lt low (lane_lt (laneW_pos _) _ _) (lane_lt (laneW_pos _) _ _)))
  refine ⟨t, v, ht, hv, ?_⟩
  rw [hp]
  exact ⟨lanePick_nan_left low, lanePick_nan_right low, fun hr hu => (lanePick_nan_both low hr hu).trans (fpNanBits_eq _),
    lanePick_zeros low⟩

/-! ### VCMP -/

theorem fpPred_nan (sub : Nat) {bf : Bool} {r t : Nat} (h : laneNan bf r = true ∨ laneNan bf t = true) :
    fpPred sub (laneFp bf r) (laneFp bf t) = (sub == 1 || sub == 4) := by
  unfold fpPred
  rw [fpNan_laneFp, fpNan_laneFp, if_pos (by simpa using h)]

/-- UNORDERED is false without a NaN. -/
theorem fpPred_unordered {bf : Bool} {r t : Nat} (hr : laneNan bf r = false) (ht : laneNan bf t = false) :
    fpPred 4 (laneFp bf r) (laneFp bf t) = false := by
  unfold fpPred
  rw [fpNan_laneFp, fpNan_laneFp, hr, ht]; rfl

/-- VCMP gives each lane all ones where its predicate holds. -/
theorem vcmp_result {s : State} {h : Hart} {w : Opnd} (hi : issuesVec s h w = true) (hl : vlegal true false 4 w = true) :
    ∃ t v, exec (.vcmp h w) s = .next t ∧ VecResult s t h w.d v ∧ ∀ k < laneN (isBf w), lane (laneW (isBf w)) v.toNat k =
      if fpPred (mod w 29 26) (laneFp (isBf w) (raw (seen s h 0) w w.a k)) (laneFp (isBf w) (raw (seen s h 0) w w.b k)) then 2 ^ laneW (isBf w) - 1
      else 0 := by
  obtain ⟨t, v, ht, hv, hk⟩ := lanewise_result hi (show exec (.vcmp h w) s = execVcmp h w s from rfl) (g := fun k =>
      if fpPred (mod w 29 26) (laneFp (isBf w) (raw (seen s h 0) w w.a k)) (laneFp (isBf w) (raw (seen s h 0) w w.b k)) then 2 ^ laneW (isBf w) - 1
      else 0) (fun k => by simp only [la, lb, raw, fp_eq_laneFp, seen_v]) hl
  refine ⟨t, v, ht, hv, fun k hlt => (hk k hlt).trans (Nat.mod_eq_of_lt ?_)⟩
  have := Nat.two_pow_pos (laneW (isBf w))
  split <;> omega

/-- Settles O9: VMIN and VMAX by the NaNs and zeros among the two lanes, VCMP by its predicate. -/
theorem nanRules : Obligations.NanRules := by
  intro s h w k hi hk x m nan a b negZ
  refine ⟨fun hl => ?_, fun hl => ?_⟩
  · simp only [List.forall_mem_cons]
    exact ⟨pick_result hi hl (low := true) (show _ = execVmin h w s from rfl) hk rfl rfl,
      pick_result hi hl (low := false) (show _ = execVmax h w s from rfl) hk rfl rfl, fun _ hp => nomatch hp⟩
  · obtain ⟨t, v, ht, hv, hlane⟩ := vcmp_result hi hl
    refine ⟨t, v, ht, hv, fun hn => ?_, fun ha hb hs => ?_⟩
    · rw [hlane k hk, fpPred_nan _ hn]
      simp
    · rw [hlane k hk, hs, fpPred_unordered ha hb]
      rfl

end Sys2Proof.Machine
end

section
/-!
PROOFS. Scalar loads, stores and atomics (R118, R119, R126, R127, R146): the value that a load extends, what a store leaves in the tile, and
the frame of both after reads that have used free values.
-/
namespace Sys2Proof.Machine

open Sys2Proof.Safety

/-! ### Bytes and values -/

theorem leNat_lt (l : List Byte) : leNat l < 2 ^ (8 * l.length) := by
  induction l with
  | nil => exact Nat.one_pos
  | cons b r ih =>
    have hb := b.isLt
    rw [leNat, List.length_cons, Nat.mul_succ, Nat.pow_add]
    omega

theorem Ctx.bytes_length (c : Ctx) (a n : Nat) : (c.bytes a n).length = n := by
  unfold Ctx.bytes
  split
  · rw [List.length_map, List.length_range]
  · exact readBytes_length ..

theorem toSigned_eq {w : Nat} (hw : 0 < w) (v : Nat) : toSigned w v = (BitVec.ofNat w v).toInt := by
  have hp : 2 ^ w = 2 * 2 ^ (w - 1) := by rw [← Nat.pow_succ', Nat.succ_eq_add_one, Nat.sub_add_cancel hw]
  rw [BitVec.toInt_eq_toNat_cond, BitVec.toNat_ofNat, toSigned]
  split <;> split <;> first | rfl | omega

/-- The value of n bytes, sign- or zero-extended (R126). -/
theorem extend_eq {n : Nat} (hn : 0 < n) (sg : Bool) {v : Nat} (hv : v < 2 ^ (8 * n)) :
    extend n sg v = if sg then (BitVec.ofNat (8 * n) v).signExtend 64 else (BitVec.ofNat (8 * n) v).zeroExtend 64 := by
  cases sg with
  | true => rw [extend, if_pos rfl, if_pos rfl, toSigned_eq (by omega)]; rfl
  | false =>
    rw [extend, if_neg Bool.false_ne_true, if_neg Bool.false_ne_true]
    apply BitVec.eq_of_toNat_eq
    rw [BitVec.toNat_ofNat, BitVec.zeroExtend, BitVec.toNat_setWidth, BitVec.toNat_ofNat, Nat.mod_eq_of_lt hv]

/-- Byte k of a register's low bytes. -/
theorem natBytes_getD_word (v : Word) {n k : Nat} (hk : k < n) : (natBytes v.toNat n).getD k 0 = v.extractLsb' (8 * k) 8 := by
  rw [natBytes_getD _ _ _ hk]
  exact BitVec.eq_of_toNat_eq (by rw [BitVec.toNat_ofNat, BitVec.extractLsb'_toNat, Nat.shiftRight_eq_div_pow])

/-- A range without a filling granule may be read (R105). -/
theorem Tile.fillingIn_of_firstFilling {ti : Tile} {a n : Nat} (h : ti.firstFilling a n = none) : ti.fillingIn a n = false := by
  refine List.any_eq_false.mpr fun g hg hc => ?_
  simp only [Bool.and_eq_true, decide_eq_true_eq] at hc
  have := List.find?_eq_none.mp h g (mem_granules.mpr hc)
  exact this (List.contains_iff_mem.mpr hg)

/-! ### An instruction that writes a scalar register after its reads -/

section Written
variable {s : State} {h : Hart} {e : Engine}

theorem freeCtr_onlyThread (ho : OnlyThread s (withEng s e) h) (n : Nat) : OnlyThread s (withEng s { e with freeCtr := n }) h :=
  ⟨freeCtr_onlyTile ho.only n, ho.tile, ho.threads, ho.ibuf⟩

/-- A scalar register written where the issuing thread is as it was. -/
theorem regResult_writeX_of (ho : OnlyThread s (withEng s e) h) (hth : thr (withEng s e) h = thr s h) (word : Word) (d : BitVec 5) (v : Word) :
    RegResult s (withEng s (advance h ((seen s h word).writeX d v e))) h d v := by
  obtain ⟨m, hm⟩ := Thread.setX_frame (thr s h) d v
  have ht : thr (withEng s (advance h ((seen s h word).writeX d v e))) h =
      { (thr s h).setX d v with pc := ((thr s h).setX d v).pc + 8, run := .running, since := 0 } := by
    simp [advance, Ctx.writeX, Ctx.withThread, hth]
  refine ⟨modThread_onlyThread (modThread_onlyThread ho _) _, wentTo_of (m := m) (by rw [ht, hm]), wroteX_of fun r => by rw [ht]; rfl⟩

theorem regResult_writeX_freeCtr (s : State) (h : Hart) (word : Word) (n : Nat) (d : BitVec 5) (v : Word) :
    RegResult s (withEng s (advance h ((seen s h word).writeX d v { (seen s h word).e with freeCtr := n }))) h d v :=
  regResult_writeX_of (freeCtr_onlyThread (seen_onlyThread s h word) n) (thr_seen s h word) word d v

/-- No result, after reads. -/
theorem regResult_none_freeCtr (s : State) (h : Hart) (word : Word) (n : Nat) :
    RegResult s (withEng s (advance h { (seen s h word).e with freeCtr := n })) h 0 0 := by
  have ht : thr (withEng s (advance h { (seen s h word).e with freeCtr := n })) h =
      { thr s h with pc := (thr s h).pc + 8, run := .running, since := 0 } :=
    (thr_modThread ..).trans (by rw [show thr (withEng s { (seen s h word).e with freeCtr := n }) h = thr s h from thr_seen s h word])
  exact ⟨modThread_onlyThread (freeCtr_onlyThread (seen_onlyThread s h word) n) _, wentTo_of ht, wroteX_of fun r => by rw [ht, Thread.setX_zero]; rfl⟩

end Written

/-! ### An instruction that stores bytes -/

/-- The frame of a store of the bytes `l` at `a`, with a scalar register written or none (`d` 0). -/
theorem storeResult_advance {s : State} {h : Hart} {word : Word} {e : Engine} {a n : Nat} {l : List Byte} {bs : Nat → Byte} {d : BitVec 5} {v : Word}
    {m : AMap Thread} (ho : OnlyTile s (withEng s e) h.loc) (he : e.tile h.loc = { (seen s h word).ti.store a l with threads := m })
    (hth : thr (withEng s e) h = (thr s h).setX d v) (hoth : ∀ k, k ≠ h.thread → (e.tile h.loc).thread k = (s.eng.tile h.loc).thread k)
    (hlen : l.length = n) (hbs : ∀ k < n, l.getD k 0 = bs k) : StoreResult s (withEng s (advance h e)) h a n bs d v := by
  subst hlen
  obtain ⟨m, hm⟩ := Thread.setX_frame (thr s h) d v
  have ht : thr (withEng s (advance h e)) h = { (thr s h).setX d v with pc := ((thr s h).setX d v).pc + 8, run := .running, since := 0 } := by
    simp [advance, hth]
  refine ⟨advance_onlyTile s h ho, ?tile, fun k hk => ?threads, fun b hb => ?ibuf, ⟨fun k hk => ?inside, fun b hb => ?outside, fun k => ?words⟩,
    wentTo_of (by rw [ht, hm]), wroteX_of fun r => by rw [ht]; rfl⟩
  case threads => simp only [withEng, advance_tile, Tile.modThread_thread_ne _ _ _ _ hk, hoth k hk]
  all_goals simp only [withEng, advance_tile, Tile.modThread, he]
  case tile => rw [Tile.store, seen_ti]
  case ibuf => rw [Tile.store, seen_ti]; exact mget_mset_ne _ _ _ hb
  case inside => rw [Tile.readByte_store, if_pos (by omega), Nat.add_sub_cancel_left, hbs k hk]
  case outside => rw [Tile.readByte_store, if_neg (by omega), seen_sp]
  case words => rw [Tile.mem_badWords_store, seen_badWords]

/-! ### The forms -/

section Forms
variable {s : State} {h : Hart} {w : Opnd} {i : Instr} {op : Nat} (hi : issues s h w = true)
include hi

/-- A load whose checks pass writes the extended value of its bytes (R126). -/
theorem load_result {n : Nat} {sg : Bool} (he : exec i s = load op n sg h w s) (hn : 0 < n) (hl : fieldsOk true true false false w true = true)
    {a : Nat} (ha : a = ((thr s h).x w.a + w.imm.signExtend 64).toNat) (hal : a % n = 0)
    (ho : (seen s h 0).ti.firstOutside (seen s h 0).i a n = none) (hf : (seen s h 0).ti.fillingIn a n = false)
    (hb : (seen s h 0).ti.firstBad a n = none) :
    ∃ t, exec i s = .next t ∧ RegResult s t h w.d (if sg then (BitVec.ofNat (8 * n) (leNat ((seen s h 0).bytes a n))).signExtend 64
      else (BitVec.ofNat (8 * n) (leNat ((seen s h 0).bytes a n))).zeroExtend 64) := by
  obtain ⟨m, hm⟩ := (seen s h (wordOf 1 op w)).afterRead_eq a n
  have hv : leNat ((seen s h 0).bytes a n) < 2 ^ (8 * n) := by simpa only [Ctx.bytes_length] using leNat_lt ((seen s h 0).bytes a n)
  rw [← extend_eq hn sg hv, seen_bytes s h 0 (wordOf 1 op w)]
  have haddr : (seen s h (wordOf 1 op w)).addr w = a := ha.symm
  refine ⟨_, he.trans (issue_done hi hl (fun hv => nomatch hv) (e := (seen s h (wordOf 1 op w)).writeX w.d
    (extend n sg (leNat ((seen s h (wordOf 1 op w)).bytes a n))) { (seen s h (wordOf 1 op w)).e with freeCtr := m }) ?_),
    regResult_writeX_freeCtr s h _ m w.d _⟩
  simp only [haddr]
  rw [aligned_of hal, Ctx.claim_of _ (by simpa using ho), Ctx.reading_of _ (by simpa using hf) (by simpa using hb), hm]

/-- A store whose checks pass leaves the low bytes of xB (R126). -/
theorem store_result {n : Nat} (he : exec i s = store op n h w s) (hl : fieldsOk false true true false w true = true)
    {a : Nat} (ha : a = ((thr s h).x w.a + w.imm.signExtend 64).toNat) (hal : a % n = 0)
    (ho : (seen s h 0).ti.firstOutside (seen s h 0).i a n = none) (hf : (seen s h 0).ti.firstFilling a n = none) :
    ∃ t, exec i s = .next t ∧ StoreResult s t h a n (fun k => ((thr s h).x w.b).extractLsb' (8 * k) 8) 0 0 := by
  have haddr : (seen s h (wordOf 1 op w)).addr w = a := ha.symm
  have ht : ((seen s h (wordOf 1 op w)).modTile (fun ti => ti.store a (natBytes ((thr s h).x w.b).toNat n))).tile h.loc =
      (seen s h (wordOf 1 op w)).ti.store a (natBytes ((thr s h).x w.b).toNat n) := Engine.modTile_tile ..
  refine ⟨_, he.trans (issue_done hi hl (fun hv => nomatch hv) (e := (seen s h (wordOf 1 op w)).modTile
    (fun ti => ti.store a (natBytes ((thr s h).x w.b).toNat n))) ?_), storeResult_advance (word := wordOf 1 op w)
      (modTile_onlyTile (onlyTile_seen s h _) _) ht ?_ (fun k _ => ?_) (natBytes_length _ _) fun k hk => natBytes_getD_word _ hk⟩
  · simp only [haddr, seen_xn]
    rw [aligned_of hal, Ctx.claim_of _ (by simpa using ho), Ctx.notFilling_of _ (by simpa using hf)]
  · rw [Thread.setX_zero, thr, withEng, ht, seen_ti]; rfl
  · rw [ht, seen_ti]; rfl

/-- An atomic whose checks pass gives xD the word and leaves the new one (R127). -/
theorem atomic_result {f : Ctx → Word → Word} (he : exec i s = atomic op f h w s) (hl : fieldsOk true true true false w (w.imm == 0) = true)
    {a : Nat} (ha : a = ((thr s h).x w.a).toNat) (hal : a % 8 = 0) (ho : (seen s h 0).ti.firstOutside (seen s h 0).i a 8 = none)
    (hf : (seen s h 0).ti.firstFilling a 8 = none) (hb : (seen s h 0).ti.firstBad a 8 = none) {old new : Word}
    (hold : old = BitVec.ofNat 64 (leNat ((seen s h 0).bytes a 8))) (hnew : f (seen s h (wordOf 1 op w)) old = new) :
    ∃ t, exec i s = .next t ∧ StoreResult s t h a 8 (fun k => new.extractLsb' (8 * k) 8) w.d old := by
  obtain ⟨m, hm⟩ := (seen s h (wordOf 1 op w)).afterRead_eq a 8
  rw [seen_bytes s h 0 (wordOf 1 op w)] at hold
  have ht : ((seen s h (wordOf 1 op w)).writeX w.d old (({ (seen s h (wordOf 1 op w)).e with freeCtr := m } : Engine).modTile h.loc
      (fun ti => ti.store a (natBytes new.toNat 8)))).tile h.loc =
      ((seen s h (wordOf 1 op w)).ti.store a (natBytes new.toNat 8)).modThread h.thread (fun th => th.setX w.d old) :=
    (Engine.modTile_tile ..).trans (congrArg (fun ti => Tile.modThread ti h.thread (fun th => th.setX w.d old)) (Engine.modTile_tile ..))
  refine ⟨_, he.trans (issue_done hi hl (fun hv => nomatch hv) (e := (seen s h (wordOf 1 op w)).writeX w.d old
    (({ (seen s h (wordOf 1 op w)).e with freeCtr := m } : Engine).modTile h.loc (fun ti => ti.store a (natBytes new.toNat 8)))) ?_),
    storeResult_advance (word := wordOf 1 op w) (modTile_onlyTile (modTile_onlyTile (freeCtr_onlyTile (onlyTile_seen s h _) m) _) _) ht
      ?_ (fun k hk => ?_) (natBytes_length _ _) fun k hk => natBytes_getD_word _ hk⟩
  · simp only [seen_xn, ← ha]
    rw [aligned_of hal, Ctx.claim_of _ (by simpa using ho), Ctx.notFilling_of _ (by simpa using hf),
      Ctx.reading_of _ (Tile.fillingIn_of_firstFilling (by simpa using hf)) (by simpa using hb), ← hold, hnew, hm]
    rfl
  · rw [thr, withEng, ht, Tile.modThread_thread, seen_ti]; rfl
  · rw [ht, Tile.modThread_thread_ne _ _ _ _ hk, seen_ti]; rfl

end Forms

/-- Settles O11: a row for each load, store and atomic. -/
theorem scratchpadResults : Obligations.ScratchpadResults := by
  refine ⟨fun s h w hi hl => ?loads, fun s h w hi hl => ?stores, fun s h w hi hl => ?atomics⟩
  case loads =>
    simp only [List.forall_mem_cons]
    exact ⟨load_result hi (show _ = execLdb h w s from rfl) (by decide) hl rfl, load_result hi (show _ = execLdh h w s from rfl) (by decide) hl rfl,
      load_result hi (show _ = execLdw h w s from rfl) (by decide) hl rfl, load_result hi (show _ = execLdd h w s from rfl) (by decide) hl rfl,
      load_result hi (show _ = execLdbu h w s from rfl) (by decide) hl rfl, load_result hi (show _ = execLdhu h w s from rfl) (by decide) hl rfl,
      load_result hi (show _ = execLdwu h w s from rfl) (by decide) hl rfl, fun _ hp => nomatch hp⟩
  case stores =>
    simp only [List.forall_mem_cons]
    exact ⟨store_result hi (show _ = execStb h w s from rfl) hl rfl, store_result hi (show _ = execSth h w s from rfl) hl rfl,
      store_result hi (show _ = execStw h w s from rfl) hl rfl, store_result hi (show _ = execStd h w s from rfl) hl rfl, fun _ hp => nomatch hp⟩
  case atomics =>
    intro a c hal ho hf hb old
    simp only [List.forall_mem_cons]
    exact ⟨atomic_result hi (show _ = execAmoadd h w s from rfl) hl rfl hal ho hf hb rfl rfl,
      atomic_result hi (show _ = execAmoswap h w s from rfl) hl rfl hal ho hf hb rfl rfl,
      atomic_result hi (show _ = execCas h w s from rfl) hl rfl hal ho hf hb rfl rfl, fun _ hp => nomatch hp⟩

end Sys2Proof.Machine
end

section
/-!
PROOFS. RCHK and RGET (R149): blocks whose residues agree or do not, and a block's two residues.
-/
namespace Sys2Proof.Machine

open Sys2Proof.Safety

/-! ### Bytes read one range after the other -/

/-- A read leaves everything but the counter of free values, which it moves whatever the word fetched (log entry 3). -/
theorem seen_take (s : State) (h : Hart) (a n : Nat) :
    ∃ m, ∀ word, ((seen s h word).take a n).2 = { seen s h word with e := { (seen s h word).e with freeCtr := m } } := by
  refine ⟨if (s.eng.tile h.loc).pendingDrd a n then s.eng.freeCtr + 2 ^ 21 else s.eng.freeCtr, fun word => ?_⟩
  rw [Ctx.take, Ctx.afterRead, seen_pendingDrd]
  split <;> rfl

/-- The bytes of a second read do not depend on the word fetched. -/
theorem seen_take_bytes (s : State) (h : Hart) (word word' : Word) (a n b k : Nat) :
    (((seen s h word).take a n).2.take b k).1 = (((seen s h word').take a n).2.take b k).1 := by
  obtain ⟨m, hm⟩ := seen_take s h a n
  rw [hm, hm]
  simp only [Ctx.take, Ctx.bytes, seen_ti]
  rfl

/-- An instruction that raises. -/
theorem issue_exc {group op : Nat} {legal vec : Bool} {h : Hart} {w : Opnd} {body : Ctx → Iss} {s : State} (hi : issues s h w = true) (hl : legal = true)
    (hv : vec = true → (thr s h).vctx.isSome = true) {c : Cause} {d : Nat} (hb : body (seen s h (wordOf group op w)) = .exc c d) :
    issue group op legal vec h w body s = .next (withEng s (raised s h (wordOf group op w) c d)) := by
  rw [issue_body _ _ _ _ _ _ _ _ hi hl hv, hb, finish_exc]

section Rchk
variable {s : State} {h : Hart} {w : Opnd} {f : Fmt} {a n : Nat} {c : Ctx} (hi : issues s h w = true)
  (hf : f = (fmtOf (mod w 3 0)).getD (.int 1)) (ha : a = ((thr s h).x w.a).toNat) (hn : n = mod w 12 8 + 1) (hc : c = seen s h (wordOf 0xB 0 w))
  (hl : fieldsOk false true false false w (decide (mod w 3 0 ≤ 10) && mod w 7 4 == 0 && mod w 31 13 == 0) = true) (hal : a % 8 = 0)
  (ho : c.ti.firstOutside c.i a (arrayBytes f n) = none) (hg : c.ti.fillingIn a (arrayBytes f n) = false)
  (hb : c.ti.firstBad a (arrayBytes f n) = none)
include hi hf ha hn hc hl hal ho hg hb

theorem rchk_agrees (hx : ∀ x ∈ arrayBlocks f n (c.bytes a (arrayBytes f n)), x.good f = true) :
    ∃ t, exec (.rchk h w) s = .next t ∧ RegResult s t h 0 0 := by
  obtain ⟨m, hm⟩ := c.afterRead_eq a (arrayBytes f n)
  subst hc
  refine ⟨_, issue_done hi hl (fun hv => nomatch hv) (e := { (seen s h (wordOf 0xB 0 w)).e with freeCtr := m }) ?_, regResult_none_freeCtr s h _ m⟩
  simp only [seen_xn, ← ha, ← hf, ← hn]
  rw [aligned_of hal, Ctx.claim_of _ ho, Ctx.reading_of _ hg hb]
  simp only [Ctx.take, firstBadBlock_eq_none hx, hm]

theorem rchk_raises {d : Nat} (hd : firstBadBlock f a (arrayBlocks f n (c.bytes a (arrayBytes f n))) = some d) :
    exec (.rchk h w) s = .next (withEng s (raised s h (wordOf 0xB 0 w) .residue d)) := by
  subst hc
  refine (show exec (.rchk h w) s = execRchk h w s from rfl).trans (issue_exc (vec := false) hi hl (fun hv => nomatch hv) ?_)
  simp only [seen_xn, ← ha, ← hf, ← hn]
  rw [aligned_of hal, Ctx.claim_of _ ho, Ctx.reading_of _ hg hb]
  simp only [Ctx.take, hd]

end Rchk

/-- RGET gives xD the two residues of a readable block. -/
theorem rget_result {s : State} {h : Hart} {w : Opnd} {f : Fmt} {a b : Nat} (hi : issues s h w = true) (hf : f = (fmtOf (mod w 3 0)).getD (.int 1))
    (ha : a = ((thr s h).x w.a).toNat) (hb : b = ((thr s h).x w.b).toNat)
    (hl : fieldsOk true true true false w (decide (mod w 3 0 ≤ 10) && mod w 31 4 == 0) = true) {word : Word}
    (hr : BlockReadable (seen s h word) f a b) {blk : RawBlock}
    (hblk : blk = rawBlock f ((seen s h word).take a f.bytes).1 (((seen s h word).take a f.bytes).2.take b 4).1) :
    ∃ t, exec (.rget h w) s = .next t ∧ RegResult s t h w.d (BitVec.ofNat 64 (blk.residue f + 256 * blk.stored)) := by
  have hr' : BlockReadable (seen s h (wordOf 0xB 1 w)) f a b := by
    obtain ⟨h1, h2, h3, h4, h5, h6, h7, h8⟩ := hr
    exact ⟨h1, h2, by simpa using h3, by simpa using h4, by simpa using h5, by simpa using h6, by simpa using h7, by simpa using h8⟩
  have htake : ((seen s h word).take a f.bytes).1 = ((seen s h (wordOf 0xB 1 w)).take a f.bytes).1 := seen_bytes ..
  rw [htake, seen_take_bytes s h word (wordOf 0xB 1 w)] at hblk
  obtain ⟨m, hm⟩ := seen_take s h a f.bytes
  obtain ⟨m', hm'⟩ := ((seen s h (wordOf 0xB 1 w)).take a f.bytes).2.afterRead_eq b 4
  have he : (((seen s h (wordOf 0xB 1 w)).take a f.bytes).2.take b 4).2.e = { (seen s h (wordOf 0xB 1 w)).e with freeCtr := m' } :=
    hm'.trans (by rw [hm])
  refine ⟨_, issue_done hi hl (fun hv => nomatch hv) (e := (seen s h (wordOf 0xB 1 w)).writeX w.d (BitVec.ofNat 64 (blk.residue f + 256 * blk.stored))
    { (seen s h (wordOf 0xB 1 w)).e with freeCtr := m' }) ?_, regResult_writeX_freeCtr s h _ m' w.d _⟩
  simp only [seen_xn, ← ha, ← hb, ← hf]
  rw [hr'.checks, ← he, hblk]
  rfl

/-- Settles O24: RCHK by the first bad block, RGET by the block that it reads. -/
theorem residueResults : Obligations.ResidueResults := by
  intro s h w hi c f n a b hal
  exact ⟨fun hl ho hg hb => ⟨rchk_agrees hi rfl rfl rfl rfl hl hal ho hg hb, fun d => rchk_raises hi rfl rfl rfl rfl hl hal ho hg hb⟩,
    fun hl hbl hoa hob hga hba hgb hbb => rget_result hi rfl rfl rfl hl ⟨hal, hbl, hoa, hob, hga, hba, hgb, hbb⟩ rfl⟩

end Sys2Proof.Machine
end

section
/-!
PROOFS. Barriers (R131, R133): the threads that a release lets go on, at one barrier and, when a thread ends, at every barrier that all the
others have reached.
-/
namespace Sys2Proof.Machine

open Sys2Proof.Safety

/-! ### Threads released -/

/-- A thread goes on after its TBAR. -/
def Thread.leaves (th : Thread) : Thread := { th with pc := th.pc + 8, run := .running, since := 0, barrier := none }

/-- The thread waits at barrier k. -/
abbrev Thread.waitsAt (th : Thread) (k : Nat) : Prop := th.ended = false ∧ th.barrier = some k

theorem Thread.not_leaves_waitsAt (th : Thread) (k : Nat) : ¬ th.leaves.waitsAt k := fun h => nomatch h.2

/-- Thread j released where it waits at barrier k. -/
def Tile.releaseOne (self k : Nat) (ti : Tile) (j : Nat) : Tile :=
  if j != self && !(ti.thread j).ended && (ti.thread j).barrier == some k then ti.modThread j Thread.leaves else ti

theorem Tile.release_eq (ti : Tile) (i : Instance) (self k : Nat) : ti.release i self k = i.threads.foldl (Tile.releaseOne self k) ti := rfl

theorem Tile.thread_releaseOne (ti : Tile) (self k x j : Nat) : (ti.releaseOne self k x).thread j =
    if j = x ∧ j ≠ self ∧ (ti.thread j).waitsAt k then (ti.thread j).leaves else ti.thread j := by
  by_cases hj : j = x
  · subst hj
    by_cases hc : j ≠ self ∧ (ti.thread j).waitsAt k
    · rw [if_pos ⟨rfl, hc⟩, Tile.releaseOne, if_pos (by simp [hc.1, hc.2.1, hc.2.2]), Tile.modThread_thread]
    · rw [if_neg (fun h => hc h.2), Tile.releaseOne, if_neg (fun h => hc (by simpa [Thread.waitsAt, and_assoc] using h))]
  · rw [if_neg (fun h => hj h.1), Tile.releaseOne]
    split
    · exact Tile.modThread_thread_ne _ _ _ _ hj
    · rfl

/-- A release lets the task's other threads that wait at the barrier go on. -/
theorem Tile.thread_release (ti : Tile) (i : Instance) (self k j : Nat) : (ti.release i self k).thread j =
    if j ∈ i.threads ∧ j ≠ self ∧ (ti.thread j).waitsAt k then (ti.thread j).leaves else ti.thread j := by
  rw [Tile.release_eq]
  generalize i.threads = l
  induction l generalizing ti with
  | nil => simp
  | cons x r ih =>
    rw [List.foldl_cons, ih, Tile.thread_releaseOne]
    by_cases hx : j = x ∧ j ≠ self ∧ (ti.thread j).waitsAt k
    · rw [if_pos hx, if_neg (fun h => Thread.not_leaves_waitsAt _ _ h.2.2), if_pos ⟨by simp [hx.1], hx.2⟩]
    · rw [if_neg hx]
      refine if_congr ?_ rfl rfl
      rw [List.mem_cons]
      tauto

theorem Tile.releaseOne_frame (self k : Nat) (ti : Tile) (j : Nat) : ∃ m, ti.releaseOne self k j = { ti with threads := m } := by
  unfold Tile.releaseOne
  split
  · exact ⟨_, rfl⟩
  · exact ⟨ti.threads, rfl⟩

/-- An operation that changes threads only, applied for each element of a list. -/
theorem Tile.foldl_threads {α : Type} {f : Tile → α → Tile} (hf : ∀ ti x, ∃ m, f ti x = { ti with threads := m }) (l : List α) (ti : Tile) :
    ∃ m, l.foldl f ti = { ti with threads := m } := by
  induction l generalizing ti with
  | nil => exact ⟨ti.threads, rfl⟩
  | cons x r ih =>
    obtain ⟨m, hm⟩ := hf ti x
    obtain ⟨m', h'⟩ := ih (f ti x)
    exact ⟨m', by rw [List.foldl_cons, h', hm]⟩

theorem Tile.release_frame (ti : Tile) (i : Instance) (self k : Nat) : ∃ m, ti.release i self k = { ti with threads := m } :=
  Tile.foldl_threads (fun ti x => ti.releaseOne_frame self k x) i.threads ti

/-! ### Threads at a barrier -/

theorem Tile.othersAt_iff {ti : Tile} {i : Instance} {self k : Nat} :
    ti.othersAt i self k = true ↔ ∀ j ∈ i.threads, j = self ∨ (ti.thread j).ended = true ∨ (ti.thread j).barrier = some k := by
  simp only [Tile.othersAt, List.all_eq_true, Bool.or_eq_true, beq_iff_eq, or_assoc]

/-- Every barrier below n that all the other threads have reached, released in ascending order. -/
def Tile.releaseAll (ti : Tile) (i : Instance) (self n : Nat) : Tile :=
  (List.range n).foldl (fun ti k => if ti.othersAt i self k then ti.release i self k else ti) ti

theorem Tile.releaseAll_succ (ti : Tile) (i : Instance) (self n : Nat) : ti.releaseAll i self (n + 1) =
    if (ti.releaseAll i self n).othersAt i self n then (ti.releaseAll i self n).release i self n else ti.releaseAll i self n := by
  rw [Tile.releaseAll, List.range_succ, List.foldl_append]; rfl

theorem Tile.releaseAll_frame (ti : Tile) (i : Instance) (self n : Nat) : ∃ m, ti.releaseAll i self n = { ti with threads := m } := by
  refine Tile.foldl_threads (fun ti k => ?_) (List.range n) ti
  split
  · exact ti.release_frame i self k
  · exact ⟨ti.threads, rfl⟩

/-- Thread j is released at a barrier below n that it waits at. -/
abbrev Tile.Released (ti : Tile) (i : Instance) (self n j : Nat) : Prop :=
  j ∈ i.threads ∧ j ≠ self ∧ ∃ k < n, (ti.thread j).waitsAt k ∧ ti.othersAt i self k = true

/-- Releases at the barriers below n leave those above as reached as they were, for a thread waits at one barrier. -/
theorem Tile.othersAt_of_released {ti ti' : Tile} {i : Instance} {self n : Nat}
    (hr : ∀ j, ti'.thread j = if ti.Released i self n j then (ti.thread j).leaves else ti.thread j) {k : Nat} (hk : n ≤ k) :
    ti'.othersAt i self k = ti.othersAt i self k := by
  rw [Bool.eq_iff_iff, Tile.othersAt_iff, Tile.othersAt_iff]
  refine forall₂_congr fun j hj => or_congr_right ?_
  rw [hr]
  by_cases hrel : ti.Released i self n j
  · rw [if_pos hrel]
    obtain ⟨-, -, m, hm, ⟨hend, hbar⟩, -⟩ := hrel
    have hne : m ≠ k := by omega
    simp [Thread.leaves, hend, hbar, hne]
  · rw [if_neg hrel]

theorem Tile.thread_releaseAll (ti : Tile) (i : Instance) (self n j : Nat) : (ti.releaseAll i self n).thread j =
    if ti.Released i self n j then (ti.thread j).leaves else ti.thread j := by
  induction n generalizing j with
  | zero => rw [if_neg (by rintro ⟨-, -, k, hk, -⟩; omega)]; rfl
  | succ n ih =>
    have hs : ti.Released i self (n + 1) j ↔
        ti.Released i self n j ∨ (j ∈ i.threads ∧ j ≠ self ∧ (ti.thread j).waitsAt n ∧ ti.othersAt i self n = true) := by
      simp only [Tile.Released, Nat.exists_lt_succ_right, and_or_left]
    rw [Tile.releaseAll_succ, Tile.othersAt_of_released ih (Nat.le_refl n)]
    by_cases hrel : ti.Released i self n j
    · rw [if_pos (hs.mpr (.inl hrel))]
      split
      · rw [Tile.thread_release, ih, if_pos hrel, if_neg (fun h => Thread.not_leaves_waitsAt _ _ h.2.2)]
      · rw [ih, if_pos hrel]
    · split
      · next ho =>
        rw [Tile.thread_release, ih, if_neg hrel]
        exact if_congr (by rw [hs, or_iff_right hrel]; simp only [ho, and_true]) rfl rfl
      · next ho => rw [ih, if_neg hrel, if_neg (fun h => (hs.mp h).elim hrel fun h => ho h.2.2.2)]

/-! ### Threads changed -/

/-- Nothing but the threads of the hart's tile, and the instruction buffer's copy of its word, differs. -/
def ThreadsOnly (s t : State) (h : Hart) : Prop := OnlyTile s t h.loc ∧
  { t.eng.tile h.loc with threads := (s.eng.tile h.loc).threads, ibuf := (s.eng.tile h.loc).ibuf } = s.eng.tile h.loc ∧
  ∀ a : Nat, a ≠ (thr s h).pc.toNat → mget (fun _ => (0 : Word)) a (t.eng.tile h.loc).ibuf = mget (fun _ => (0 : Word)) a (s.eng.tile h.loc).ibuf

theorem threadsOnly_modTile {s : State} {h : Hart} {e : Engine} (k : ThreadsOnly s (withEng s e) h) {f : Tile → Tile}
    (hf : ∃ m, f (e.tile h.loc) = { e.tile h.loc with threads := m }) : ThreadsOnly s (withEng s (e.modTile h.loc f)) h := by
  obtain ⟨only, tile, ibuf⟩ := k
  obtain ⟨m, hm⟩ := hf
  have ht : (withEng s (e.modTile h.loc f)).eng.tile h.loc = { e.tile h.loc with threads := m } := (Engine.modTile_tile ..).trans hm
  refine ⟨modTile_onlyTile only f, ?_, fun a ha => ?_⟩
  · rw [ht]; exact tile
  · rw [ht]; exact ibuf a ha

theorem threadsOnly_seen (s : State) (h : Hart) (word : Word) : ThreadsOnly s (withEng s (seen s h word).e) h :=
  have ho := seen_onlyThread s h word
  ⟨ho.only, ho.tile, ho.ibuf⟩

@[simp] theorem seen_thread (s : State) (h : Hart) (word : Word) (j : Nat) : (seen s h word).ti.thread j = (s.eng.tile h.loc).thread j := by
  rw [seen_ti]; rfl

@[simp] theorem seen_othersAt (s : State) (h : Hart) (word : Word) (i : Instance) (self k : Nat) :
    (seen s h word).ti.othersAt i self k = (s.eng.tile h.loc).othersAt i self k := by
  simp only [Tile.othersAt, seen_thread]

/-! ### TBAR and END -/

theorem mod_31_4_eq_zero (w : Opnd) : (mod w 31 4 == 0) = decide (w.imm.toNat < 16) := by
  have := w.imm.isLt
  rw [Bool.eq_iff_iff, beq_iff_eq, decide_eq_true_eq, mod, fld, Nat.shiftRight_eq_div_pow]
  omega

theorem mod_3_0_of_lt {w : Opnd} (h : w.imm.toNat < 16) : mod w 3 0 = w.imm.toNat := by
  rw [mod_low, BitVec.extractLsb'_toNat, Nat.shiftRight_zero, Nat.mod_eq_of_lt h]

/-- A thread that goes on waiting keeps the tick from which it waits (R108). -/
theorem Thread.waitFrom_eq (th : Thread) (now : Nat) :
    th.waitFrom now = { th with run := .waiting, since := if th.run = .waiting then th.since else now } := by
  unfold Thread.waitFrom
  by_cases hw : th.run = .waiting
  · rw [if_pos hw, if_pos hw, ← hw]
  · rw [if_neg hw, if_neg hw]

section Barrier
variable {s : State} {h : Hart} {w : Opnd} (hi : issues s h w = true)
include hi

section Tbar
variable {k : Nat} (hk : k = w.imm.toNat) (hl : fieldsOk false false false false w (decide (w.imm.toNat < 16)) = true)
include hk hl

/-- The last thread to arrive goes on and releases the others (R131). -/
theorem tbar_last (ha : (seen s h 0).ti.othersAt (seen s h 0).i h.thread k = true) : ∃ t, exec (.tbar h w) s = .next t ∧ ThreadsOnly s t h ∧
    thr t h = (thr s h).leaves ∧ ∀ j, j ≠ h.thread → (t.eng.tile h.loc).thread j =
      if j ∈ (seen s h 0).i.threads ∧ ((seen s h 0).ti.thread j).waitsAt k then ((seen s h 0).ti.thread j).leaves else (seen s h 0).ti.thread j := by
  have hlt : w.imm.toNat < 16 := of_decide_eq_true (Bool.and_eq_true_iff.mp hl).2
  refine ⟨withEng s (advance h ((seen s h (wordOf 2 0x12 w)).e.modTile h.loc
      (fun ti => (ti.release (seen s h 0).i h.thread k).modThread h.thread (fun th => { th with barrier := none })))),
    issue_done hi (by rw [mod_31_4_eq_zero, hl]) (fun hv => nomatch hv) ?runs, ?only, ?self, fun j hj => ?others⟩
  case runs =>
    simp only [mod_3_0_of_lt hlt, ← hk]
    exact if_pos (by simpa using ha)
  case only =>
    refine threadsOnly_modTile (threadsOnly_modTile (threadsOnly_seen s h _) ?_) ⟨_, rfl⟩
    obtain ⟨m, hm⟩ := ((seen s h (wordOf 2 0x12 w)).e.tile h.loc).release_frame (seen s h 0).i h.thread k
    exact ⟨_, (congrArg (fun ti => Tile.modThread ti h.thread (fun th => { th with barrier := none })) hm).trans rfl⟩
  case self =>
    rw [thr_advance, Engine.modTile_tile, Tile.modThread_thread, Tile.thread_release, if_neg (fun hc => hc.2.1 rfl), seen_tile, seen_thread]
    rfl
  case others =>
    simp only [withEng, advance_tile, Tile.modThread_thread_ne _ _ _ _ hj, Engine.modTile_tile, Tile.thread_release, seen_tile, seen_thread]
    exact if_congr (by simp [hj]) rfl rfl

/-- An earlier thread waits (R108, R131). -/
theorem tbar_waits (ha : (seen s h 0).ti.othersAt (seen s h 0).i h.thread k = false) : ∃ t, exec (.tbar h w) s = .next t ∧ OnlyThread s t h ∧
    thr t h = { thr s h with barrier := some k, run := .waiting, since := if (thr s h).run = .waiting then (thr s h).since else s.now } := by
  have hlt : w.imm.toNat < 16 := of_decide_eq_true (Bool.and_eq_true_iff.mp hl).2
  refine ⟨withEng s (stalled s h ((seen s h (wordOf 2 0x12 w)).e.modTile h.loc (fun ti => ti.modThread h.thread (fun th => { th with barrier := some k })))),
    issue_wait hi (by rw [mod_31_4_eq_zero, hl]) (fun hv => nomatch hv) ?runs,
    modThread_onlyThread (modThread_onlyThread (seen_onlyThread s h _) _) _, ?self⟩
  case runs =>
    simp only [mod_3_0_of_lt hlt, ← hk]
    exact if_neg (by simpa using ha)
  case self =>
    rw [stalled, thr_modThread, thr_modThread, thr_seen, Thread.waitFrom_eq]

end Tbar

/-- END marks its thread ended on the tile whose barriers it has released. -/
theorem endThread_runs (hl : fieldsOk false false false false w (w.imm == 0) = true) :
    exec (.endThread h w) s = .next (withEng s (((seen s h (wordOf 2 0x1F w)).e.modTile h.loc
      (fun ti => ti.releaseAll (seen s h (wordOf 2 0x1F w)).i h.thread 16)).modTile h.loc
      (fun ti => ti.modThread h.thread (fun th => { th with ended := true, run := .running, since := 0 })))) := by
  rw [show exec (.endThread h w) s = execEndThread h w s from rfl, execEndThread, issue_body _ _ _ false _ _ _ _ hi hl (fun hv => nomatch hv)]
  simp only [finish, Ctx.withThread, Ctx.modTile, seen_h, Tile.releaseAll]

/-- A thread that ends counts as arrived at every barrier (R131, R133). -/
theorem endThread_releases (hl : fieldsOk false false false false w (w.imm == 0) = true) : ∃ t, exec (.endThread h w) s = .next t ∧ ThreadsOnly s t h ∧
    thr t h = { thr s h with ended := true, run := .running, since := 0 } ∧ ∀ j, j ≠ h.thread →
      (t.eng.tile h.loc).thread j = ((seen s h 0).ti.releaseAll (seen s h 0).i h.thread 16).thread j := by
  refine ⟨_, endThread_runs hi hl, threadsOnly_modTile (threadsOnly_modTile (threadsOnly_seen s h _) (Tile.releaseAll_frame ..)) ⟨_, rfl⟩, ?self,
    fun j hj => ?others⟩
  case self =>
    rw [thr_modThread, thr, withEng, Engine.modTile_tile, Tile.thread_releaseAll, if_neg (fun hr => hr.2.1 rfl), seen_tile, seen_thread]
    rfl
  case others =>
    simp only [withEng, Engine.modTile_tile, Tile.modThread_thread_ne _ _ _ _ hj, seen_tile, Tile.thread_releaseAll, Tile.Released, seen_thread,
      seen_othersAt, seen_i]

end Barrier

/-- Settles O14: TBAR by whether the others have arrived, END by the barriers that it releases. -/
theorem barrierResults : Obligations.BarrierResults := by
  intro s h w hi c released threadsOnly allAt
  have hall : ∀ k, allAt k ↔ c.ti.othersAt c.i h.thread k = true := fun k => Tile.othersAt_iff.symm
  refine ⟨fun hl => ?tbar, fun hl => ?ends⟩
  case tbar =>
    intro k
    exact ⟨fun ha => tbar_last hi rfl hl ((hall k).mp ha), fun ha => tbar_waits hi rfl hl (Bool.eq_false_iff.mpr fun hc => ha ((hall k).mpr hc))⟩
  case ends =>
    obtain ⟨t, ht, honly, hself, hoth⟩ := endThread_releases hi hl
    refine ⟨t, ht, honly, hself, fun j hj => ⟨fun k hk hmem hend hbar ha => ?_, fun hno => ?_⟩⟩
    · rw [hoth j hj, Tile.thread_releaseAll, if_pos ⟨hmem, hj, k, hk, ⟨hend, hbar⟩, (hall k).mp ha⟩]
      rfl
    · rw [hoth j hj, Tile.thread_releaseAll, if_neg]
      rintro ⟨hmem, -, k, hk, ⟨hend, hbar⟩, ha⟩
      exact hno k hk hmem hend hbar ((hall k).mpr ha)

end Sys2Proof.Machine
end

section
/-!
PROOFS. Messages (R109, R147, R148, R216): a SEND by its checks and the queue's room, the message that leaves, a buffer posted, and a message
delivered into it.
-/
namespace Sys2Proof.Machine

open Sys2Proof.Safety

@[simp] theorem seen_sendQ (s : State) (h : Hart) (word : Word) : (seen s h word).ti.sendQ = (s.eng.tile h.loc).sendQ := by rw [seen_ti]

/-! ### SEND -/

/-- The operands of a SEND of the n bytes at `a` to the word `v` pass its checks before the queue's (R119, R147). -/
structure SendOk (c : Ctx) (a v n : Nat) : Prop where
  aligned : a % 8 = 0
  multiple : n % 8 = 0
  lo : 8 ≤ n
  hi : n ≤ 4096
  word : v < 2 ^ 28
  grid : c.e.inGrid c.i.part v = true
  inside : c.ti.firstOutside c.i a n = none

theorem SendOk.checks {c : Ctx} {a v n : Nat} (k : SendOk c a v n) (x : Iss) :
    (Machine.aligned a 8 <| lenMultiple n 8 <| lenRange 8 4096 n <| c.checkOpen (sendWordOk v && c.e.inGrid c.i.part v) <| c.claim a n x) = x := by
  have hw : sendWordOk v = true := by
    rw [sendWordOk, Nat.shiftRight_eq_div_pow, Nat.div_eq_of_lt k.word]; rfl
  rw [aligned_of k.aligned, lenMultiple, check_of (beq_iff_eq.mpr k.multiple), lenRange, check_of (by simp [k.lo, k.hi]),
    Ctx.checkOpen_of (by rw [hw, k.grid]; rfl), Ctx.claim_of _ k.inside]

/-- The packet of a message, empty where no site serves the virtual tile (R147). -/
def sendPacket (s : State) (h : Hart) (p v : Nat) (bs : List Byte) : Option Loc → Packet
  | some dst => { src := h.loc, dst := dst, part := p, sys := false, epoch := (s.eng.part p).epoch, body := .msg (fld v 27 24) bs }
  | none => { src := h.loc, dst := h.loc, part := p, sys := false, epoch := (s.eng.part p).epoch, body := .other }

/-- A message that no site takes counts in FAB_STAT of the sender's deck. -/
def Engine.countDrop (e : Engine) (h : Hart) : Engine :=
  e.modDeck (deckOf h.loc.field) (fun d => { d with fab := mmod (fun _ => 0) 1 (fun k => satAdd 0xFFFF k 1) d.fab })

/-- The count is none of the tile's. -/
theorem withEng_advance_countDrop (s : State) (h : Hart) (e : Engine) : withEng s (advance h (e.countDrop h)) =
    withEng (withEng s (advance h e)) ((withEng s (advance h e)).eng.countDrop h) := rfl

/-- A message joins the queue and nothing else of the tile but its thread differs. -/
def Queued (s t : State) (h : Hart) (p : Packet) : Prop := Issued s t h (fun x y => { x with sendQ := y.sendQ }) ∧
  (t.eng.tile h.loc).sendQ = (s.eng.tile h.loc).sendQ ++ [{ thread := h.thread, slot := (thr s h).task, pkt := p }]

/-- The engine once a message has joined the send queue after the reads of its bytes. -/
def sendEngine (s : State) (h : Hart) (word : Word) (m : Nat) (p : Packet) : Engine :=
  ({ (seen s h word).e with freeCtr := m } : Engine).modTile h.loc
    (fun ti => { ti with sendQ := ti.sendQ ++ [{ thread := h.thread, slot := (thr s h).task, pkt := p }] })

/-- The same with the count of a message that no site takes. -/
def sendOutcome (s : State) (h : Hart) (word : Word) (m : Nat) (p : Packet) : Option Loc → Engine
  | some _ => sendEngine s h word m p
  | none => (sendEngine s h word m p).countDrop h

theorem sendEngine_queued (s : State) (h : Hart) (word : Word) (m : Nat) (p : Packet) : Queued s (withEng s (advance h (sendEngine s h word m p))) h p := by
  refine ⟨issued_modTile s h (freeCtr_onlyTile (onlyTile_seen s h word) m) (seen_freeCtr_tile s h word m) rfl rfl (by rw [seen_ti]), ?_⟩
  rw [sendEngine, advance_modTile_tile, seen_freeCtr_tile]
  simp only [Tile.modThread, seen_sendQ]

section Send
variable {s : State} {h : Hart} {w : Opnd} {a v n : Nat} {c : Ctx} (hi : issues s h w = true) (hc : c = seen s h (wordOf 0xA 0 w))
  (ha : a = ((thr s h).x w.a).toNat) (hv : v = ((thr s h).x w.b).toNat) (hn : n = ((thr s h).x w.c).toNat)
  (hl : fieldsOk false true true true w (w.imm == 0) = true) (hk : SendOk c a v n)
include hi hc ha hv hn hl hk

theorem send_waits (hq : 16 ≤ c.ti.sendQ.length) : exec (.send h w) s = .next (withEng s (stalled s h c.e)) := by
  subst hc ha hv hn
  exact issue_wait hi hl (fun hv => nomatch hv) ((hk.checks _).trans (if_pos (decide_eq_true hq)))

/-- With room in the queue, the message joins it with the bytes it has at issue (R109). -/
theorem send_queues (hq : c.ti.sendQ.length < 16) (hf : c.ti.fillingIn a n = false) (hb : c.ti.firstBad a n = none) : ∃ m, ∀ dst,
    c.e.locOfV c.i.part v = dst → exec (.send h w) s = .next (withEng s (advance h
      (sendOutcome s h (wordOf 0xA 0 w) m (sendPacket s h c.i.part v (c.bytes a n) dst) dst))) := by
  obtain ⟨m, hm⟩ := c.afterRead_eq a n
  subst hc ha hv hn
  refine ⟨m, fun dst hd => issue_done (vec := false) hi hl (fun hv => nomatch hv)
    ((hk.checks _).trans ((if_neg (by simpa using hq)).trans ((Ctx.reading_of _ hf hb).trans ?_)))⟩
  have hd' : ({ (seen s h (wordOf 0xA 0 w)).e with freeCtr := m } : Engine).locOfV (seen s h (wordOf 0xA 0 w)).i.part ((thr s h).x w.b).toNat = dst := hd
  cases dst with
  | some dst =>
    simp only [seen_xn, Ctx.take, hm, hd', Option.isSome_some, if_true, Option.getD_some]
    rfl
  | none =>
    simp only [seen_xn, Ctx.take, hm, hd', Option.isSome_none, Bool.false_eq_true, if_false, Option.getD_none]
    rfl

end Send

/-! ### SEND_COMPLETE -/

theorem sendComplete_cons {s : State} {u : Loc} {j : SendJob} {r : List SendJob} (hu : locOk u = true) (hj : (s.eng.tile u).sendQ = j :: r) {e : Engine}
    (he : e = s.eng.modTile u (fun ti => ({ ti with sendQ := r } : Tile).modInst j.slot (·.bump 5))) :
    exec (.sendComplete u) s = .next (withEng s (if j.pkt.body = .other then e else { e with flight := s.eng.flight ++ [j.pkt] })) := by
  subst he
  exact onUnit_eq hu (by simp only [sendDone, hj]; rfl)

theorem sendComplete_nil {s : State} {u : Loc} (hu : locOk u = true) (hj : (s.eng.tile u).sendQ = []) : exec (.sendComplete u) s = .next s :=
  onUnit_same hu (by simp only [sendDone, hj])

/-! ### RECV -/

/-- A buffer of n bytes at `a` that the hart posts. -/
def postedBuffer (s : State) (h : Hart) (a n : Nat) : Mailbox :=
  { addr := a, len := n, off := 0, thread := h.thread, slot := some (thr s h).task, pc := (thr s h).pc.toNat }

theorem recv_posts {s : State} {h : Hart} {w : Opnd} {a n : Nat} (hi : issues s h w = true) (ha : a = ((thr s h).x w.a).toNat)
    (hn : n = ((thr s h).x w.b).toNat) (hl : fieldsOk false true true false w (decide (w.imm.toNat < 16)) = true) (ha8 : a % 8 = 0) (hn8 : n % 8 = 0)
    (hn0 : n ≠ 0) (ho : (seen s h 0).ti.firstOutside (seen s h 0).i a n = none) :
    ∃ t, exec (.recv h w) s = .next t ∧ Issued s t h (fun x y => { x with mbox := y.mbox }) ∧
      ∀ m, mget (fun _ => {}) m (t.eng.tile h.loc).mbox =
        if m = w.imm.toNat then postedBuffer s h a n else mget (fun _ => {}) m (s.eng.tile h.loc).mbox := by
  have hlt : w.imm.toNat < 16 := of_decide_eq_true (Bool.and_eq_true_iff.mp hl).2
  refine ⟨_, issue_done hi (by rw [mod_31_4_eq_zero, hl]) (fun hv => nomatch hv) (e := (seen s h (wordOf 0xA 1 w)).e.modTile h.loc
    (fun ti => { ti with mbox := mset (fun _ => {}) w.imm.toNat (postedBuffer s h a n) ti.mbox })) ?runs,
    issued_modTile s h (onlyTile_seen s h _) rfl rfl rfl (by rw [seen_ti]), fun m => ?box⟩
  case runs =>
    simp only [seen_xn, ← ha, ← hn]
    rw [aligned_of ha8, lenMultiple, check_of (beq_iff_eq.mpr hn8), check_of (by simpa using hn0), Ctx.claim_of _ (by simpa using ho),
      mod_3_0_of_lt hlt]
    rfl
  case box =>
    rw [advance_modTile_tile, seen_tile, seen_ti]
    exact mget_mset ..

/-! ### MSG_DELIVERY -/

/-- A tile whose scratchpad differs by a store. -/
theorem stored_of_store {s t : State} {u : Loc} {a : Nat} {bs : List Byte} (hsp : (t.eng.tile u).sp = ((s.eng.tile u).store a bs).sp)
    (hbad : (t.eng.tile u).badWords = ((s.eng.tile u).store a bs).badWords) : Stored s t u a bs.length (fun k => bs.getD k 0) where
  inside k hk := by rw [hsp, Tile.readByte_store, if_pos (by omega), Nat.add_sub_cancel_left]
  outside x hx := by rw [hsp, Tile.readByte_store, if_neg (by omega)]
  words k := by rw [hbad, Tile.mem_badWords_store]

section Delivery
variable {s : State} {u : Loc} {m slot : Nat} {bs : List Byte} {rest : List Packet} {b : Mailbox} (hu : locOk u = true) (hm : m < 16)
  (ht : takeHeld m (s.eng.tile u).held = some (bs, rest)) (hb : b = mget (fun _ => ({} : Mailbox)) m (s.eng.tile u).mbox) (hs : b.slot = some slot)
include hu hm ht hb hs

/-- A message that fits is stored behind what the buffer holds; CNT_RECV counts it. -/
def Tile.deliverInto (ti : Tile) (m slot : Nat) (b : Mailbox) (bs : List Byte) : Tile :=
  ({ ti.store (b.addr + b.off) bs with mbox := mset (fun _ => {}) m { b with off := b.off + bs.length } ti.mbox } : Tile).modInst slot (·.bump 4)

theorem msgDelivery_runs : exec (.msgDelivery u m) s = .next (withEng s (if b.off + bs.length ≤ b.len then
      (s.eng.modTile u (fun ti => { ti with held := rest })).modTile u (fun ti => ti.deliverInto m slot b bs)
    else (s.eng.modTile u (fun ti => { ti with held := rest })).raise s.now u b.thread b.pc (some slot) .claimViolation m)) := by
  subst hb
  refine onUnit_eq (by simp [hu, hm]) ?_
  simp only [deliver, Tile.deliverInto, ht, hs]

theorem msgDelivery_result (hl : b.off + bs.length ≤ b.len) :
    ∃ t, exec (.msgDelivery u m) s = .next t ∧ OnlyTile s t u ∧ (t.eng.tile u).held = rest ∧
      Stored s t u (b.addr + b.off) bs.length (fun k => bs.getD k 0) ∧
      (∀ k, mget (fun _ => ({} : Mailbox)) k (t.eng.tile u).mbox =
        if k = m then { b with off := b.off + bs.length } else mget (fun _ => ({} : Mailbox)) k (s.eng.tile u).mbox) ∧
      (t.eng.tile u).inst = ((s.eng.tile u).modInst slot (·.bump 4)).inst ∧
      { t.eng.tile u with held := (s.eng.tile u).held, sp := (s.eng.tile u).sp, badWords := (s.eng.tile u).badWords,
                          mbox := (s.eng.tile u).mbox, inst := (s.eng.tile u).inst } = s.eng.tile u := by
  have hte : ((s.eng.modTile u (fun ti => { ti with held := rest })).modTile u (fun ti => ti.deliverInto m slot b bs)).tile u =
      ({ s.eng.tile u with held := rest } : Tile).deliverInto m slot b bs :=
    (Engine.modTile_tile ..).trans (congrArg (fun ti : Tile => ti.deliverInto m slot b bs) (Engine.modTile_tile ..))
  refine ⟨_, (msgDelivery_runs hu hm ht hb hs).trans (by rw [if_pos hl]), modTile_onlyTile (onlyTile_modTile s u _) _, ?_⟩
  have hsp : (Tile.deliverInto { s.eng.tile u with held := rest } m slot b bs).sp = ((s.eng.tile u).store (b.addr + b.off) bs).sp := rfl
  have hbad : (Tile.deliverInto { s.eng.tile u with held := rest } m slot b bs).badWords = ((s.eng.tile u).store (b.addr + b.off) bs).badWords := rfl
  refine ⟨?_, stored_of_store ((congrArg Tile.sp hte).trans hsp) ((congrArg Tile.badWords hte).trans hbad), ?_⟩
  all_goals simp only [withEng, hte]
  · rfl
  · exact ⟨fun k => mget_mset .., rfl, rfl⟩

end Delivery

/-- Settles O23: SEND by its checks and the queue's room, and each other event by what it finds in the tile. -/
theorem messageResults : Obligations.MessageResults := by
  refine ⟨fun s h w hi hl => ?send, fun s u hu => ⟨fun j r hj => sendComplete_cons hu hj rfl, sendComplete_nil hu⟩,
    fun s h w hi hl => fun ha hn hn0 ho => recv_posts hi rfl rfl hl ha hn hn0 ho, fun s u m slot bs rest hu hm ht hs => ?delivery⟩
  case send =>
    intro c a v n ha hn8 hlo hhi hv hg ho
    have hk : SendOk c a v n := ⟨ha, hn8, hlo, hhi, hv, hg, ho⟩
    refine ⟨send_waits hi rfl rfl rfl rfl hl hk, fun hq hf hb => ?_⟩
    obtain ⟨m, hx⟩ := send_queues hi rfl rfl rfl rfl hl hk hq hf hb
    exact ⟨fun dst hd => ⟨_, hx _ hd, sendEngine_queued ..⟩,
      fun hd => ⟨_, sendEngine_queued s h _ m _, (hx _ hd).trans (congrArg _ (withEng_advance_countDrop ..))⟩⟩
  case delivery =>
    exact ⟨msgDelivery_result hu hm ht rfl hs,
      fun hl => (msgDelivery_runs hu hm ht rfl hs).trans (by rw [if_neg (Nat.not_le.mpr hl)])⟩

end Sys2Proof.Machine
end

section
/-!
PROOFS. The maintenance commands (R168, R280, R406, R419, R455 to R459): a remap and a tile reset by the state of the site, every other command
by its effect.
-/
namespace Sys2Proof.Machine

open Sys2Proof.Safety

/-- A command that is executed at once, with its effect rewritten on the engine that has taken it. -/
theorem hostCmd_tookAt {hd : Hdr} {c : Instr} {f : Engine → Form} {run : Hdr → Bool → Nat → Engine → Engine} {s : State} {g : Engine → Engine}
    (hg : goes s hd c (f s.eng) = true) (ha : (f s.eng).atIntake = false) (hr : run (due s hd) false s.now (taken s hd) = g (taken s hd)) :
    hostCmd hd c f run s = took s hd g := by
  rw [hostCmd_goes _ _ _ _ _ hg ha, took, hr, took]

@[simp] theorem Engine.reply_remaps (e : Engine) (now : Nat) (h : Hdr) (c : Status) (d : Nat) : (e.reply now h c d).remaps = e.remaps := by
  unfold Engine.reply; split <;> rfl

@[simp] theorem Engine.reply_siteResets (e : Engine) (now : Nat) (h : Hdr) (c : Status) (d : Nat) :
    (e.reply now h c d).siteResets = e.siteResets := by
  unfold Engine.reply; split <;> rfl

theorem Engine.accept_first (e : Engine) (now : Nat) (h : Hdr) (d : Nat) : e.accept now h false d = e.reply now h .accepted d := rfl

/-! ### DARN_REMAP (R281, R406) -/

section Remap
variable {e : Engine} {now field site : Nat} {h : Hdr}

theorem runDarnRemap_active {v p : Nat} (hs : e.siteState { field := field, site := site } = .active) (hv : (e.field field).vOf site = some v)
    (hp : e.partOf field = some p) : runDarnRemap field site h false now e =
      { e.reply now h .accepted 0 with remaps := e.remaps ++ [(h, { field := field, site := site })] } := by
  simp only [runDarnRemap, hs, hv, hp, Engine.accept_first, Engine.reply_remaps]

theorem runDarnRemap_covered {v : Nat} (hs : e.siteState { field := field, site := site } = .covered) (hv : (e.field field).vOf site = some v) :
    runDarnRemap field site h false now e =
      { e.reply now h .accepted 0 with remaps := e.remaps ++ [(h, { field := field, site := site })] } := by
  simp only [runDarnRemap, hs, hv, Engine.accept_first, Engine.reply_remaps]

/-- A site of a field of no partition is swapped at once. -/
theorem runDarnRemap_loose {v : Nat} (hs : e.siteState { field := field, site := site } = .active) (hv : (e.field field).vOf site = some v)
    (hp : e.partOf field = none) : runDarnRemap field site h false now e =
      ((e.reply now h .accepted 0).swapSite now { field := field, site := site } v).okReply now h := by
  simp only [runDarnRemap, hs, hv, hp, Engine.accept_first]

theorem runDarnRemap_unmapped (hv : (e.field field).vOf site = none) : runDarnRemap field site h false now e = e.reply now h .badIndex 2 := by
  cases hs : e.siteState { field := field, site := site } <;> simp only [runDarnRemap, hs, hv]

theorem runDarnRemap_otherSite (ha : e.siteState { field := field, site := site } ≠ .active)
    (hc : e.siteState { field := field, site := site } ≠ .covered) : runDarnRemap field site h false now e = e.reply now h .badIndex 2 := by
  cases hs : e.siteState { field := field, site := site } with
  | active => exact absurd hs ha
  | covered => exact absurd hs hc
  | spare | retired | dark => simp only [runDarnRemap, hs]

end Remap

/-! ### RESET of a tile (R459) -/

/-- A tile cleared and tested: its site goes on in a state, or is retired (R400, R459). -/
def Engine.resetTested (e : Engine) (now : Nat) (u : Loc) (st : SiteState) : Engine :=
  let e' : Engine := { e.modTile u Tile.cleared with freeCtr := e.freeCtr + 1 }
  if e.tested u then e'.setSite u st
  else (e'.setSite u .retired).event now (deckOf u.field) { code := 0x0304, field := u.field, site := u.site, arg0 := 0xFFFFFF, arg1 := 0x3FF }

section TileReset
variable {e : Engine} {now : Nat} {h : Hdr} {u : Loc}

/-- The site of a running tile of a partition waits for its cover. -/
theorem resetTile_waits {p : Nat} (hs : e.siteState u = .active) (hp : e.partOf u.field = some p) :
    e.resetTile now h false u = { e.reply now h .accepted 0 with siteResets := e.siteResets ++ [(h, u)] } := by
  simp only [Engine.resetTile, hs, hp, Engine.accept_first, Engine.reply_siteResets]

theorem resetTile_loose {v : Nat} (hs : e.siteState u = .active) (hp : e.partOf u.field = none) (hv : (e.field u.field).vOf u.site = some v) :
    e.resetTile now h false u =
      (if e.tested u then ({ e.modTile u Tile.cleared with freeCtr := e.freeCtr + 1 } : Engine).replaceGraphs u
       else ({ e with freeCtr := e.freeCtr + 1 } : Engine).swapSite now u v).okReply now h := by
  simp only [Engine.resetTile, hs, hp, hv]
  split <;> rfl

theorem resetTile_unmapped (hs : e.siteState u = .active) (hp : e.partOf u.field = none) (hv : (e.field u.field).vOf u.site = none) :
    e.resetTile now h false u = (e.resetTested now u .active).okReply now h := by
  simp only [Engine.resetTile, hs, hp, hv]
  rfl

theorem resetTile_spare (hs : e.siteState u = .spare) : e.resetTile now h false u = (e.resetTested now u .spare).okReply now h := by
  simp only [Engine.resetTile, hs]
  rfl

theorem resetTile_covered (hs : e.siteState u = .covered) : e.resetTile now h false u = (e.resetTested now u .covered).okReply now h := by
  simp only [Engine.resetTile, hs]
  rfl

theorem resetTile_otherSite (ha : e.siteState u ≠ .active) (hp : e.siteState u ≠ .spare) (hc : e.siteState u ≠ .covered) :
    e.resetTile now h false u = e.reply now h .badIndex 4 := by
  cases hs : e.siteState u with
  | active => exact absurd hs ha
  | spare => exact absurd hs hp
  | covered => exact absurd hs hc
  | retired | dark => simp only [Engine.resetTile, hs]

end TileReset

/-! ### Commands -/

section Commands
variable {s : State} {hd : Hdr}

theorem exec_darnRead {field addr : Nat} (hg : goes s hd (.darnRead hd field addr) (darnReadForm hd field addr s.eng) = true) :
    exec (.darnRead hd field addr) s = tookOk s hd (fun e => e.dma hd.fn addr (e.field field).darnBytes) :=
  hostCmd_took hg rfl fun _ => rfl

theorem exec_darnRemap {field site : Nat} {g : Engine → Engine}
    (hg : goes s hd (.darnRemap hd field site) (darnRemapForm field site s.eng) = true)
    (hr : runDarnRemap field site (due s hd) false s.now (taken s hd) = g (taken s hd)) :
    exec (.darnRemap hd field site) s = took s hd g :=
  hostCmd_tookAt (f := darnRemapForm field site) hg rfl hr

theorem exec_rinseSet {deck : Nat} {v : BitVec 32} (hg : goes s hd (.rinseSet hd deck v) (rinseSetForm deck v s.eng) = true) :
    exec (.rinseSet hd deck v) s = tookOk s hd (fun e => e.modDeck deck (fun d => { d with scrub := v })) :=
  hostCmd_took hg rfl fun _ => rfl

theorem exec_selfTest {scope deck : Nat} (hg : goes s hd (.selfTest hd scope deck) (selfTestForm scope deck s.eng) = true) :
    exec (.selfTest hd scope deck) s = tookOk s hd (fun e =>
      ((if scope = 0 then [0, 1] else [deck]).flatMap e.idleSpares).foldl (fun e u => e.testSpare s.now u) (e.reply s.now (due s hd) .accepted 0)) :=
  hostCmd_took hg rfl fun _ => rfl

theorem exec_journalRead {first addr : Nat} (hg : goes s hd (.journalRead hd first addr) (journalReadForm hd first addr s.eng) = true) :
    exec (.journalRead hd first addr) s = tookOk s hd (fun e => e.dma hd.fn addr
      (e.journalHeader first ++ (e.sup.journalFrom first).flatMap (fun x => natBytes x.word 32))) :=
  hostCmd_took hg rfl fun _ => rfl

theorem exec_reset {scope deck field site : Nat} {g : Engine → Engine}
    (hg : goes s hd (.reset hd scope deck field site) (resetForm scope deck field site s.eng) = true)
    (hr : runReset scope deck field site (due s hd) false s.now (taken s hd) = g (taken s hd)) :
    exec (.reset hd scope deck field site) s = took s hd g :=
  hostCmd_tookAt (f := resetForm scope deck field site) hg rfl hr

end Commands

/-- Settles O46: a remap and a tile reset by the state of the site and its field's partition, a deck reset by its latch. -/
theorem maintenanceCommands : Obligations.MaintenanceCommands := by
  intro s hd e
  refine ⟨fun _ _ => exec_darnRead, fun field site hg => ?remap, fun _ _ => exec_rinseSet, fun _ _ => exec_selfTest,
    fun deck field site hg => ⟨fun hl => exec_reset hg (if_pos hl), fun hl => exec_reset hg (if_neg (ne_true_of_eq_false hl))⟩,
    fun deck field site hg => exec_reset hg rfl, fun deck field site hg => ?tile, fun _ _ => exec_journalRead⟩
  case remap =>
    exact ⟨fun v p hs hv hp => exec_darnRemap hg (runDarnRemap_active hs hv hp), fun v hs hv => exec_darnRemap hg (runDarnRemap_covered hs hv),
      fun v hs hv hp => exec_darnRemap hg (runDarnRemap_loose hs hv hp), fun h => exec_darnRemap hg
        (h.elim (fun ⟨ha, hc⟩ => runDarnRemap_otherSite ha hc) runDarnRemap_unmapped)⟩
  case tile =>
    exact ⟨fun p hs hp => exec_reset hg (resetTile_waits hs hp), fun v hs hp hv => exec_reset hg (resetTile_loose hs hp hv),
      fun hs hp hv => exec_reset hg (resetTile_unmapped hs hp hv), fun hs => exec_reset hg (resetTile_spare hs),
      fun hs => exec_reset hg (resetTile_covered hs), fun ha hp hc => exec_reset hg (resetTile_otherSite ha hp hc)⟩

end Sys2Proof.Machine
end

section
/-!
PROOFS. Upkeep: rinse and guarded banks (R166 to R170), KV rinse, refresh and NV patrol (R198, R260, R261), and the commit unit's work on KV
slots: zero-fills, spills, reserve pages (R202, R238, R262, R263).
-/
namespace Sys2Proof.Machine

open Sys2Proof.Safety

/-! ### Banks (R166, R169) -/

/-- The banks of a tile after one of them has been changed. -/
theorem Tile.mget_modBank (ti : Tile) (b m : Nat) (f : SpBank → SpBank) : mget (fun _ => ({} : SpBank)) m (ti.modBank b f).bank =
    (let o := mget (fun _ => ({} : SpBank)) m ti.bank
     if m = b then f o else o) := by
  refine (mget_mmod ..).trans ?_
  split
  · next h => rw [h]
  · rfl

/-- A corrected error counts in the bank of its word (R166, Table 5.8). -/
theorem Tile.mget_corrected (ti : Tile) (k m : Nat) : mget (fun _ => ({} : SpBank)) m (ti.corrected k).bank =
    (let o := mget (fun _ => ({} : SpBank)) m ti.bank
     if m = bankOf (8 * k) then { o with ce := satAdd 0xFFFF o.ce 1, win := satAdd 0xFF o.win 1, last := k } else o) :=
  ti.mget_modBank (bankOf (8 * k)) m _

/-- Banks changed one by one are the tile's banks changed one by one. -/
theorem Tile.foldl_modBank (f : SpBank → SpBank) (l : List Nat) (ti : Tile) : l.foldl (fun ti b => ti.modBank b f) ti =
    { ti with bank := (l.foldl (fun ti b => ti.modBank b f) ti).bank } := by
  induction l generalizing ti with
  | nil => rfl
  | cons b l ih => exact ih (ti.modBank b f)

/-- The windows of the listed banks restarted: theirs are 0, the others' what they were. -/
theorem Tile.mget_foldl_restart (l : List Nat) (ti : Tile) (b : Nat) :
    mget (fun _ => ({} : SpBank)) b (l.foldl (fun ti b => ti.modBank b (fun x => { x with win := 0 })) ti).bank =
      (let o := mget (fun _ => ({} : SpBank)) b ti.bank
       if b ∈ l then { o with win := 0 } else o) := by
  induction l generalizing ti with
  | nil => rfl
  | cons k l ih =>
    rw [List.foldl_cons, ih, Tile.mget_modBank]
    by_cases hk : b = k <;> by_cases hl : b ∈ l <;> simp [hk, hl]

/-- The tile that has been changed, in the state after it. -/
theorem withEng_modTile_tile (s : State) (u : Loc) (f : Tile → Tile) : (withEng s (s.eng.modTile u f)).eng.tile u = f (s.eng.tile u) :=
  Engine.modTile_tile ..

/-! ### Rinse (R166 to R168) -/

/-- A pass that meets one word of the scratchpad outside the filling granules. -/
theorem Tile.filter_rinsed {ti : Tile} {k : Nat} (hk : k < 262144) (hf : k / 512 ∉ ti.filling) : [k].filter ti.rinsed = [k] :=
  List.filter_cons_of_pos (by simp [Tile.rinsed, hk, hf])

theorem Engine.foundBad_new {e : Engine} {now k : Nat} {u : Loc} (h : k ∉ (e.tile u).badWords) : e.foundBad now u k =
    (e.modTile u (fun ti => ({ ti with badWords := ti.badWords ++ [k] } : Tile).modBank (bankOf (8 * k)) (fun x =>
      { x with ue := satAdd 0xFF x.ue 1, last := k }))).siteEvent now u 0x0201 k (bankOf (8 * k)) :=
  if_neg (by simpa using h)

theorem rinsePass_active {e : Engine} {now : Nat} {u : Loc} {corr bad : List Nat} (h : e.siteState u = .active) : rinsePass u corr bad now e =
    (bad.filter (e.tile u).rinsed).foldl (fun e k => e.foundBad now u k)
      (e.modTile u (fun ti => { (corr.filter (e.tile u).rinsed).foldl Tile.corrected ti with rinses := ti.rinses + 1 })) :=
  if_neg (not_not.mpr h)

section Rinse
variable {s : State} {u : Loc} {k : Nat} (hu : locOk u = true)
include hu

theorem exec_rinsePass_gated (c b : List Nat) (hs : s.eng.siteState u ≠ .active) : exec (.rinsePass u c b) s = .next s :=
  onUnit_same (f := rinsePass u c b) hu (if_pos hs)

section Active
variable (hs : s.eng.siteState u = .active) (hk : k < 262144) (hf : k / 512 ∉ (s.eng.tile u).filling)
include hs hk hf

theorem exec_rinsePass_corrected : exec (.rinsePass u [k] []) s =
    .next (withEng s (s.eng.modTile u (fun ti => { ti.corrected k with rinses := ti.rinses + 1 }))) :=
  onUnit_eq (f := rinsePass u [k] []) hu (by rw [rinsePass_active hs, Tile.filter_rinsed hk hf]; rfl)

theorem rinsePass_corrected_result : ∃ t, exec (.rinsePass u [k] []) s = .next t ∧ OnlyTile s t u ∧
    { t.eng.tile u with bank := (s.eng.tile u).bank, rinses := (s.eng.tile u).rinses } = s.eng.tile u ∧
    (t.eng.tile u).sp = (s.eng.tile u).sp ∧ (t.eng.tile u).rinses = (s.eng.tile u).rinses + 1 ∧
    ∀ m, mget (fun _ => ({} : SpBank)) m (t.eng.tile u).bank =
      (let o := mget (fun _ => ({} : SpBank)) m (s.eng.tile u).bank
       if m = bankOf (8 * k) then { o with ce := satAdd 0xFFFF o.ce 1, win := satAdd 0xFF o.win 1, last := k } else o) := by
  refine ⟨_, exec_rinsePass_corrected hu hs hk hf, onlyTile_modTile s u _, ?_⟩
  rw [withEng_modTile_tile]
  exact ⟨rfl, rfl, rfl, fun m => (s.eng.tile u).mget_corrected k m⟩

/-- A word that is found uncorrectable is counted and reported after the pass itself is counted. -/
theorem exec_rinsePass_found (hb : k ∉ (s.eng.tile u).badWords) : exec (.rinsePass u [] [k]) s =
    .next (withEng s (((s.eng.modTile u (fun ti => { ti with rinses := ti.rinses + 1 })).modTile u (fun ti =>
      ({ ti with badWords := ti.badWords ++ [k] } : Tile).modBank (bankOf (8 * k)) (fun x => { x with ue := satAdd 0xFF x.ue 1, last := k }))).siteEvent
        s.now u 0x0201 k (bankOf (8 * k)))) :=
  onUnit_eq (f := rinsePass u [] [k]) hu (by
    rw [rinsePass_active hs, Tile.filter_rinsed hk hf]
    exact Engine.foundBad_new (by simpa using hb))

end Active

/-! ### Guarded banks (R169, R170) -/

section Guard
variable {b : Nat} (hb : b < 32)
include hb

theorem exec_bankGuarded_reached (hg : (mget (fun _ => ({} : SpBank)) b (s.eng.tile u).bank).guarded = false)
    (hw : (s.eng.deck (deckOf u.field)).guardCe ≤ (mget (fun _ => ({} : SpBank)) b (s.eng.tile u).bank).win) (hs : s.eng.siteState u = .active) :
    exec (.bankGuarded u b) s = .next (withEng s
      ((s.eng.modTile u (fun ti => ti.modBank b (fun x => { x with guarded := true, conv := true }))).siteEvent s.now u 0x0202
        (mget (fun _ => ({} : SpBank)) b (s.eng.tile u).bank).win b)) :=
  onUnit_eq (f := bankGuarded u b) (by simp [hu, hb]) (if_neg (by simp [hg, hs, Nat.not_lt.mpr hw]))

theorem exec_bankGuarded_not (h : (mget (fun _ => ({} : SpBank)) b (s.eng.tile u).bank).guarded = true ∨
    (mget (fun _ => ({} : SpBank)) b (s.eng.tile u).bank).win < (s.eng.deck (deckOf u.field)).guardCe) : exec (.bankGuarded u b) s = .next s :=
  onUnit_same (f := bankGuarded u b) (by simp [hu, hb]) (if_pos (h.imp id .inl))

theorem guardConversionDone_result : ∃ t, exec (.guardConversionDone u b) s = .next t ∧ OnlyTile s t u ∧
    { t.eng.tile u with bank := (s.eng.tile u).bank } = s.eng.tile u ∧
    ∀ m, mget (fun _ => ({} : SpBank)) m (t.eng.tile u).bank =
      (let o := mget (fun _ => ({} : SpBank)) m (s.eng.tile u).bank
       if m = b then { o with conv := false } else o) := by
  refine ⟨_, onUnit_of (by simp [hu, hb]), onlyTile_modTile s u _, ?_⟩
  rw [withEng_modTile_tile]
  exact ⟨rfl, fun m => Tile.mget_modBank _ _ m _⟩

end Guard

theorem exec_guardWindowEnd_open (h : (s.eng.tile u).rinses < (s.eng.deck (deckOf u.field)).guardWin) : exec (.guardWindowEnd u) s = .next s :=
  onUnit_same (f := fun _ => guardWindowEnd u) hu (if_pos h)

/-- After its rinse periods the window of every bank restarts. -/
theorem guardWindowEnd_result (h : (s.eng.deck (deckOf u.field)).guardWin ≤ (s.eng.tile u).rinses) :
    ∃ t, exec (.guardWindowEnd u) s = .next t ∧ OnlyTile s t u ∧
      { t.eng.tile u with bank := (s.eng.tile u).bank, rinses := (s.eng.tile u).rinses } = s.eng.tile u ∧
      (t.eng.tile u).rinses = 0 ∧ ∀ b, mget (fun _ => ({} : SpBank)) b (t.eng.tile u).bank =
        (let o := mget (fun _ => ({} : SpBank)) b (s.eng.tile u).bank
         if b < 32 then { o with win := 0 } else o) := by
  refine ⟨_, onUnit_eq (f := fun _ => guardWindowEnd u) hu (if_neg (Nat.not_lt.mpr h)), onlyTile_modTile s u _, ?_⟩
  rw [withEng_modTile_tile]
  refine ⟨?_, ?_, fun b => (Tile.mget_foldl_restart _ _ b).trans (by simp only [List.mem_range])⟩
  all_goals rw [Tile.foldl_modBank]

/-! ### KV rinse (R261) -/

theorem exec_kvRinse (bad : List Nat) : exec (.kvRinse u bad) s = .next (withEng s
    (let e := s.eng.modTile u (fun ti => (bad.filter (fun k => decide (k < kvSlots))).foldl Tile.kvUncorr ti)
     if e.siteIdle u then e.resolveTile s.now u else e)) := onUnit_of (f := kvRinse u bad) hu

end Rinse

/-! ### NV patrol (R198) -/

theorem Field.nvOffset_waferOf (f : Field) (k : Nat) : (if waferOf k = 0 then f.nvOffset 0 else f.nvOffset 1) = f.nvOffset (waferOf k) := by
  by_cases h : waferOf k = 0 <;> simp [Field.nvOffset, h]

/-- The retries that a page needs count the reads before the first that the page code can correct (R197, R198). -/
theorem patrolRetries_eq (f : Field) (bad : List (Nat × Int)) (k : Nat) : patrolRetries f bad k =
    (let b := f.nvOffset (waferOf k)
     min 4 (([b, b + 12, b - 12, b + 24, b - 24] : List Int).findIdx (fun o => !bad.contains (k, o)))) := by
  simp only [patrolRetries, NvJob.tries, Option.getD_some, Field.nvOffset_waferOf]

/-- A page at which every read can be corrected needs no retry. -/
theorem patrolRetries_nil (f : Field) (k : Nat) : patrolRetries f [] k = 0 := by
  simp [patrolRetries, NvJob.tries, List.findIdx_cons]

/-- The largest value of one page listed once or more. -/
theorem foldl_max_replicate (r : Nat → Nat) (k m x : Nat) : (List.replicate (m + 1) k).foldl (fun a p => max a (r p)) x = max x (r k) := by
  induction m generalizing x with
  | zero => rfl
  | succ m ih => rw [List.replicate_succ, List.foldl_cons, ih, max_assoc, max_self]

/-- A stripe flagged and reported with the most retries that one of its pages needed. -/
def Engine.flagStripe (e : Engine) (now : Nat) (u : Loc) (k n : Nat) : Engine :=
  (e.modTile u (fun ti => { ti with flagged := insertOnce k ti.flagged })).siteEvent now u 0x0203 k n

/-- The pages that a patrol flags: those that came near the limit of the page code and those that needed a retry. -/
def patrolFlagged (f : Field) (bad : List (Nat × Int)) (near : List Nat) : List Nat :=
  ((bad.map (·.1)) ++ near).filter (fun p => decide (p < slabPages) && (near.contains p || decide (0 < patrolRetries f bad p)))

section Flagged
variable {u : Loc} {bad : List (Nat × Int)} {near : List Nat} {now : Nat} {e : Engine}

/-- A patrol flags the stripes of these pages, each once (R198). -/
theorem nvPatrol_eq {pages : List Nat} (h : patrolFlagged (e.field u.field) bad near = pages) : nvPatrol u bad near now e =
    ((pages.map (· / 32)).dedup).foldl (fun e' k =>
      e'.flagStripe now u k ((pages.filter (fun p => p / 32 == k)).foldl (fun m p => max m (patrolRetries (e.field u.field) bad p)) 0)) e := by
  subst h
  rfl

theorem nvPatrol_nothing (h : patrolFlagged (e.field u.field) bad near = []) : nvPatrol u bad near now e = e := nvPatrol_eq h

/-- Where one page alone is flagged, its stripe is reported with its retries. -/
theorem nvPatrol_page {k m : Nat} (h : patrolFlagged (e.field u.field) bad near = List.replicate (m + 1) k) :
    nvPatrol u bad near now e = e.flagStripe now u (k / 32) (patrolRetries (e.field u.field) bad k) := by
  rw [nvPatrol_eq h, List.map_replicate, List.replicate_dedup (Nat.succ_ne_zero m), List.foldl_cons, List.foldl_nil]
  simp only [List.filter_replicate, beq_self_eq_true, if_true, foldl_max_replicate, Nat.zero_max]

end Flagged

section Patrol
variable {s : State} {u : Loc} {bad : List (Nat × Int)} {k : Nat}

/-- The reads of one page are its name, as often as it is listed. -/
theorem map_fst_eq_replicate (hb : ∀ x ∈ bad, x.1 = k) : bad.map (·.1) = List.replicate bad.length k :=
  List.eq_replicate_iff.mpr ⟨List.length_map _, fun _ hx => (List.mem_map.mp hx).elim fun x ⟨hm, he⟩ => he ▸ hb x hm⟩

theorem exec_nvPatrol_none (hu : locOk u = true) : exec (.nvPatrol u [] []) s = .next s :=
  onUnit_same (f := nvPatrol u [] []) hu (nvPatrol_nothing rfl)

variable (hu : locOk u = true) (hb : ∀ x ∈ bad, x.1 = k)
include hu hb

theorem exec_nvPatrol_read (h : patrolRetries (s.eng.field u.field) bad k = 0) : exec (.nvPatrol u bad []) s = .next s :=
  onUnit_same (f := nvPatrol u bad []) hu (nvPatrol_nothing (by simp [patrolFlagged, map_fst_eq_replicate hb, h]))

variable (hk : k < slabPages)
include hk

theorem exec_nvPatrol_retried (h : 0 < patrolRetries (s.eng.field u.field) bad k) : exec (.nvPatrol u bad []) s =
    .next (withEng s (s.eng.flagStripe s.now u (k / 32) (patrolRetries (s.eng.field u.field) bad k))) := by
  obtain ⟨m, hm⟩ : ∃ m, bad.length = m + 1 := Nat.exists_eq_succ_of_ne_zero fun h0 => by
    rw [List.length_eq_zero_iff.mp h0, patrolRetries_nil] at h
    exact Nat.lt_irrefl 0 h
  exact onUnit_eq (f := nvPatrol u bad []) hu
    (nvPatrol_page (m := m) (by simp [patrolFlagged, map_fst_eq_replicate hb, h, hk, hm]))

theorem exec_nvPatrol_near : exec (.nvPatrol u bad [k]) s =
    .next (withEng s (s.eng.flagStripe s.now u (k / 32) (patrolRetries (s.eng.field u.field) bad k))) :=
  onUnit_eq (f := nvPatrol u bad [k]) hu (nvPatrol_page (m := bad.length) (by
    simp [patrolFlagged, map_fst_eq_replicate hb, hk, List.replicate_succ']))

end Patrol

/-! ### Refresh (R260) -/

section Refresh
variable {s : State} {f : Nat} (hf : f < 96)
include hf

theorem exec_dramRefresh_early (h : s.now < (s.eng.field f).refresh + refreshTicks (s.eng.field f).dBand) : exec (.dramRefresh f) s = .next s :=
  onUnit_same (f := dramRefresh f) (by simp [hf]) (if_pos h)

theorem exec_dramRefresh_due (h : (s.eng.field f).refresh + refreshTicks (s.eng.field f).dBand ≤ s.now) : exec (.dramRefresh f) s =
    .next (withEng s (s.eng.modField f (fun x => { x with refresh := s.now }))) :=
  onUnit_eq (f := dramRefresh f) (by simp [hf]) (if_neg (Nat.not_lt.mpr h))

end Refresh

/-! ### Zero-fills (R238) -/

theorem Tile.useOf_setUse (ti : Tile) (k j : Nat) (x : SlotUse) : (ti.setUse k x).useOf j = if j = k then x else ti.useOf j := mget_mset ..

section ZeroFill
variable {s : State} {u : Loc} {k : Nat} (hu : locOk u = true) (hk : k < kvSlots)
include hu hk

theorem slotZeroFillDone_result (h : (s.eng.tile u).useOf k = .zeroing) : ∃ t, exec (.slotZeroFillDone u k) s = .next t ∧ OnlyTile s t u ∧
    (t.eng.tile u).useOf k = .free ∧ { t.eng.tile u with kv := (s.eng.tile u).kv, slotUse := (s.eng.tile u).slotUse } = s.eng.tile u ∧
    (∀ a, k * 16384 ≤ a → a < (k + 1) * 16384 → readByte (t.eng.tile u).kv a = 0) ∧
    (∀ a, a < k * 16384 ∨ (k + 1) * 16384 ≤ a → readByte (t.eng.tile u).kv a = readByte (s.eng.tile u).kv a) ∧
    ∀ j, j ≠ k → (t.eng.tile u).useOf j = (s.eng.tile u).useOf j := by
  refine ⟨_, onUnit_eq (f := fun _ => zeroFillDone u k) (by simp [hu, hk]) (if_pos h), onlyTile_modTile s u _, ?_⟩
  rw [withEng_modTile_tile]
  exact ⟨(Tile.useOf_setUse ..).trans (if_pos rfl), rfl, fun a hl hh => (readByte_zeroRange ..).trans (if_pos (by omega)),
    fun a ha => (readByte_zeroRange ..).trans (if_neg (by omega)), fun j hj => (Tile.useOf_setUse ..).trans (if_neg hj)⟩

theorem exec_slotZeroFillDone_other (h : (s.eng.tile u).useOf k ≠ .zeroing) : exec (.slotZeroFillDone u k) s = .next s :=
  onUnit_same (f := fun _ => zeroFillDone u k) (by simp [hu, hk]) (if_neg h)

end ZeroFill

/-! ### Spills (R262) -/

section Spill
variable {s : State} {u : Loc} {p : Nat} (hu : locOk u = true) (hp : s.eng.partOf u.field = some p)
include hu hp

theorem exec_kvSpill_copyOut : exec (.kvSpill u .copyOut) s = .next (withEng s
    (if (s.eng.part p).kvRegion.isNone ∨ (s.eng.part p).kvLow ≤ (s.eng.tile u).freeSlots.length then s.eng else s.eng.spillSome p u s.now 4110)) :=
  onUnit_eq (f := kvSpill u .copyOut) hu (by simp only [kvSpill, hp])

theorem exec_kvSpill_replace : exec (.kvSpill u .replace) s = .next (withEng s (if s.eng.atBoundary [p] then
      ((s.eng.tile u).spills.foldl (fun e x => e.replaceUnit u (s.eng.graph (s.eng.part p).graph) x) s.eng).modTile u (fun ti => { ti with spills := [] })
    else s.eng)) :=
  onUnit_eq (f := kvSpill u .replace) hu (by simp only [kvSpill, hp])

theorem exec_kvSpill_above (h : (s.eng.part p).kvRegion = none ∨ (s.eng.part p).kvLow ≤ (s.eng.tile u).freeSlots.length) :
    exec (.kvSpill u .copyOut) s = .next s :=
  (exec_kvSpill_copyOut hu hp).trans (by rw [if_pos (h.imp_left Option.isNone_iff_eq_none.mpr)]; rfl)

theorem exec_kvSpill_below {r : Nat × Nat × Fn} (hr : (s.eng.part p).kvRegion = some r) (hl : (s.eng.tile u).freeSlots.length < (s.eng.part p).kvLow) :
    exec (.kvSpill u .copyOut) s = .next (withEng s (s.eng.spillSome p u s.now 4110)) :=
  (exec_kvSpill_copyOut hu hp).trans (by rw [if_neg (by simp [hr, hl])])

theorem exec_kvSpill_stepping (h : s.eng.atBoundary [p] = false) : exec (.kvSpill u .replace) s = .next s :=
  (exec_kvSpill_replace hu hp).trans (by rw [if_neg (ne_true_of_eq_false h)]; rfl)

theorem exec_kvSpill_boundary (h : s.eng.atBoundary [p] = true) : exec (.kvSpill u .replace) s = .next (withEng s
    (((s.eng.tile u).spills.foldl (fun e x => e.replaceUnit u (s.eng.graph (s.eng.part p).graph) x) s.eng).modTile u (fun ti => { ti with spills := [] }))) :=
  (exec_kvSpill_replace hu hp).trans (by rw [if_pos h])

end Spill

/-- A unit for whose flits the tile holds no reservation is not copied out (R226). -/
theorem spillUnit_unreserved {e : Engine} {p n addr bytes : Nat} {u : Loc} {v : Victim} {fn : Fn} (hr : (e.part p).kvRegion = some (addr, bytes, fn))
    (h : mget (fun _ => 0) (2 * e.fnDeck fn) (e.tile u).hemBal < 256 * v.pages.length) : e.spillUnit p u v n = none := by
  have hs : e.spendReserved n u (e.fnDeck fn) (256 * v.pages.length) = none := if_neg (Nat.not_le.mpr h)
  simp [Engine.spillUnit, hr, hs]

/-! ### Reserve pages (R202, R226, R263) -/

section Fetch
variable {e : Engine} {u : Loc} {p page slot addr bytes now : Nat} {fn : Fn} {data : List Byte} (hp : e.partOf u.field = some p)
  (hr : (e.part p).kvRegion = some (addr, bytes, fn)) (hh : e.sup.safeHold = false) (hused : ∃ r, (page, r) ∈ (e.part p).kvUsed)
  (hnew : ∀ x ∈ (e.tile u).kvCacheOf p, x.2.1 ≠ page) (hlru : lruSlot ((e.tile u).kvCacheOf p) = some slot) (hlen : data.length = 16384)
  (hlink : e.linkUp fn = true)
include hp hr hh hused hnew hlru hlen hlink

/-- A page of the region that the cache does not hold comes in where a window holds it and its credit is there. -/
theorem kvFetch_eq : kvFetch u page slot data now e = if e.windowOk fn (addr + page * 16384) 16384 false then
      (e.takeHem (e.fnDeck fn) 0 p 256).elim e (fun e =>
        ((e.modTile u (fun ti => ti.setUse slot (.kvcache p page now))).setKvBytes (u, slot) 0 data).listFetched p u)
    else e.windowEvent now fn (addr + page * 16384) := by
  obtain ⟨r, hm⟩ := hused
  have hu : (e.part p).kvUsed.any (fun x => x.1 == page) = true := List.any_eq_true.mpr ⟨_, hm, beq_self_eq_true page⟩
  have hc : ((e.tile u).kvCacheOf p).any (fun x => x.2.1 == page) = false := by simpa using hnew
  simp only [kvFetch, hp, hr, hh, hu, hc, hlru, hlen, hlink, bne_self_eq_false, Bool.not_true, Bool.or_false, Bool.false_eq_true, if_false]
  cases e.windowOk fn (addr + page * 16384) 16384 false with
  | false => rfl
  | true => cases e.takeHem (e.fnDeck fn) 0 p 256 <;> rfl

end Fetch

section CacheFill
variable {e : Engine} {u : Loc} {sl page k addr bytes now : Nat} {fn : Fn} {i : Nat} {im : Image} {data : List Byte}
  (hi : e.images.find? (fun x => x.2.slot == sl && x.2.state != .absent && x.2.footprint.testBit u.field) = some (i, im))
  (hr : im.region = some (addr, bytes, fn)) (hlru : lruSlot ((e.tile u).rCacheOf sl) = some k) (hh : e.sup.safeHold = false)
  (hnew : ∀ x ∈ (e.tile u).rCacheOf sl, x.2.1 ≠ page) (hin : (page + 1) * 16384 ≤ bytes) (hlen : data.length = 16384) (hlink : e.linkUp fn = true)
include hi hr hlru hh hnew hin hlen hlink

theorem cacheFill_eq : cacheFill u sl page data now e = if e.windowOk fn (addr + page * 16384) 16384 false then
      (e.takeHem (e.fnDeck fn) 0 ((e.partOf u.field).getD 32) 256).elim e (fun e =>
        (e.modTile u (fun ti => ti.setUse k (.rcache sl page now))).setKvBytes (u, k) 0 data)
    else e.windowEvent now fn (addr + page * 16384) := by
  have hc : ((e.tile u).rCacheOf sl).any (fun x => x.2.1 == page) = false := by simpa using hnew
  simp only [cacheFill, hi, hr, hlru, hh, hc, decide_eq_false (Nat.not_lt.mpr hin), hlen, hlink, bne_self_eq_false, Bool.not_true, Bool.or_false,
    Bool.false_eq_true, if_false]
  cases e.windowOk fn (addr + page * 16384) 16384 false with
  | false => rfl
  | true => cases e.takeHem (e.fnDeck fn) 0 ((e.partOf u.field).getD 32) 256 <;> rfl

end CacheFill

/-! ### The statement -/

/-- Settles O30: a lemma for each event and condition. -/
theorem upkeepResults : Obligations.UpkeepResults := by
  refine ⟨⟨fun s u hu => ⟨exec_rinsePass_gated hu, fun hs k hk hf => rinsePass_corrected_result hu hs hk hf,
      fun hs k hk hf hb => exec_rinsePass_found hu hs hk hf hb, fun b hb => ?guard, exec_guardWindowEnd_open hu, guardWindowEnd_result hu,
      fun bad => ?kvRinse, exec_nvPatrol_none hu, fun bad k hk hb => ?patrol⟩, fun s f hf => ⟨exec_dramRefresh_early hf, exec_dramRefresh_due hf⟩⟩,
    fun s u k hu hk => ⟨slotZeroFillDone_result hu hk, exec_slotZeroFillDone_other hu hk⟩,
    fun s u p hu hp => ⟨exec_kvSpill_above hu hp, fun r => exec_kvSpill_below hu hp, exec_kvSpill_stepping hu hp, exec_kvSpill_boundary hu hp⟩,
    fun e p n u v addr bytes fn hr h => spillUnit_unreserved hr h, ?fetch, ?fill⟩
  case guard =>
    exact ⟨exec_bankGuarded_reached hu hb, exec_bankGuarded_not hu hb, guardConversionDone_result hu hb⟩
  case kvRinse =>
    exact ⟨fun h => (exec_kvRinse hu bad).trans (by rw [if_pos h]), fun h => (exec_kvRinse hu bad).trans (by rw [if_neg (ne_true_of_eq_false h)])⟩
  case patrol =>
    intro b n flagged
    have hn : patrolRetries (s.eng.field u.field) bad k = n := patrolRetries_eq ..
    have hf : flagged = withEng s (s.eng.flagStripe s.now u (k / 32) n) := rfl
    rw [hf, ← hn]
    exact ⟨exec_nvPatrol_read hu hb, exec_nvPatrol_retried hu hb hk, exec_nvPatrol_near hu hb hk⟩
  case fetch =>
    intro s u p page slot addr bytes fn data e hu hk hp hr hh hused hnew hlru hlen hlink
    have hx := onUnit_eq (ok := locOk u && decide (slot < kvSlots)) (s := s) (f := kvFetch u page slot data) (by simp [hu, hk])
      (kvFetch_eq hp hr hh hused hnew hlru hlen hlink)
    exact ⟨fun hw => hx.trans (by rw [hw]; rfl), fun hw ht => hx.trans (by rw [hw, ht]; rfl), fun hw ht => hx.trans (by rw [hw, ht]; rfl)⟩
  case fill =>
    rintro s u sl page k addr bytes fn ⟨i, im⟩ data e hu hsl hi hr hlru hh hnew hin hlen hlink p
    have hx := onUnit_eq (ok := locOk u && decide (sl < 16)) (s := s) (f := cacheFill u sl page data) (by simp [hu, hsl])
      (cacheFill_eq hi hr hlru hh hnew hin hlen hlink)
    exact ⟨fun hw ht => hx.trans (by rw [hw, ht]; rfl), fun hw ht => hx.trans (by rw [hw, ht]; rfl), fun hw => hx.trans (by rw [hw]; rfl)⟩

end Sys2Proof.Machine
end

section
/-!
PROOFS. Image commands (R185 to R192, R201): imprint sessions from begin to end, tiers, releases, keys, and their refusals.
-/
namespace Sys2Proof.Machine

open Sys2Proof.Safety

/-! ### What refuses a session (R186) -/

section Refused
variable {e : Engine}

theorem sessionRefused_strap (h : e.sup.imprintEn = false) : e.sessionRefused = some (.strapOpen, 0) := by simp [Engine.sessionRefused, h]

theorem sessionRefused_cartridge (hs : e.sup.imprintEn = true) (hc : e.cartsOk = false) : e.sessionRefused = some (.cartridge, 0) := by
  simp [Engine.sessionRefused, hs, hc]

theorem sessionRefused_none (hs : e.sup.imprintEn = true) (hc : e.cartsOk = true) : e.sessionRefused = none := by
  simp [Engine.sessionRefused, hs, hc]

end Refused

/-! ### IMG_FIT (R203) -/

section Fit
variable {e : Engine} {now fields addr : Nat} {h : Hdr} {manifest : List Byte} {acc : Bool}

theorem runImgFit_refused {c : Status} {d : Nat} (hm : e.manifestRefused manifest = some (c, d)) :
    runImgFit manifest fields addr h acc now e = e.reply now h c d := by
  simp only [runImgFit, hm]

theorem runImgFit_reported (hm : e.manifestRefused manifest = none) : runImgFit manifest fields addr h acc now e =
    (e.dma h.fn addr (natBytes (e.fit (readManifest manifest) fields 0xFF).word 32)).okReply now h := by
  simp only [runImgFit, hm]

end Fit

/-! ### IMG_BEGIN (R188) -/

section Begin
variable {e : Engine} {now fields ports zport : Nat} {h : Hdr} {manifest : List Byte} {c : Status} {d : Nat}

theorem runImgBegin_busy {acc : Bool} (hs : e.session.state ≠ .idle) :
    runImgBegin manifest fields ports zport h acc now e = e.reply now h .sessionState 0 := if_pos hs

variable (hs : e.session.state = .idle)
include hs

theorem runImgBegin_refused {acc : Bool} (hr : e.sessionRefused = some (c, d)) :
    runImgBegin manifest fields ports zport h acc now e = e.reply now h c d := by
  rw [runImgBegin, if_neg (not_not_intro hs), hr]

variable (hr : e.sessionRefused = none)
include hr

theorem runImgBegin_badManifest {acc : Bool} (hm : e.manifestRefused manifest = some (c, d)) :
    runImgBegin manifest fields ports zport h acc now e = e.reply now h c d := by
  rw [runImgBegin, if_neg (not_not_intro hs), hr, hm]

variable (hm : e.manifestRefused manifest = none)
include hm

/-- A manifest that is accepted begins a session where its fit allows it and the table has room. -/
theorem runImgBegin_fit : runImgBegin manifest fields ports zport h false now e =
    let f := e.fit (readManifest manifest) fields ports
    if f.outcome = 0xC then e.reply now h .partState (partCode .stepping)
    else if 8 ≤ f.outcome then e.reply now h .fitRefused (min f.shortTotal 0xFFFFFFFF)
    else (e.newImage fields).elim (e.reply now h .tableFull 0) fun x =>
      (e.reply now h .accepted x.1).openSession now (readManifest manifest) fields ports zport x.1 x.2 h := by
  rw [runImgBegin, if_neg (not_not_intro hs), hr, hm]
  cases e.newImage fields <;> rfl

theorem runImgBegin_stepping (ho : (e.fit (readManifest manifest) fields ports).outcome = 0xC) :
    runImgBegin manifest fields ports zport h false now e = e.reply now h .partState (partCode .stepping) :=
  (runImgBegin_fit hs hr hm).trans (if_pos ho)

theorem runImgBegin_unfit (hne : (e.fit (readManifest manifest) fields ports).outcome ≠ 0xC)
    (ho : 8 ≤ (e.fit (readManifest manifest) fields ports).outcome) : runImgBegin manifest fields ports zport h false now e =
      e.reply now h .fitRefused (min (e.fit (readManifest manifest) fields ports).shortTotal 0xFFFFFFFF) :=
  (runImgBegin_fit hs hr hm).trans ((if_neg hne).trans (if_pos ho))

variable (ho : (e.fit (readManifest manifest) fields ports).outcome < 8)
include ho

theorem runImgBegin_fits : runImgBegin manifest fields ports zport h false now e =
    (e.newImage fields).elim (e.reply now h .tableFull 0) fun x =>
      (e.reply now h .accepted x.1).openSession now (readManifest manifest) fields ports zport x.1 x.2 h :=
  (runImgBegin_fit hs hr hm).trans ((if_neg (by omega)).trans (if_neg (Nat.not_le.mpr ho)))

theorem runImgBegin_tableFull (hn : e.newImage fields = none) :
    runImgBegin manifest fields ports zport h false now e = e.reply now h .tableFull 0 :=
  (runImgBegin_fits hs hr hm ho).trans (by rw [hn]; rfl)

theorem runImgBegin_opens {img slot : Nat} (hn : e.newImage fields = some (img, slot)) : runImgBegin manifest fields ports zport h false now e =
    (e.reply now h .accepted img).openSession now (readManifest manifest) fields ports zport img slot h :=
  (runImgBegin_fits hs hr hm ho).trans (by rw [hn]; rfl)

end Begin

/-! ### Commands of the open session (R189, R190, R192) -/

section Session
variable {img now : Nat} {ok : Session → Bool} {run : Hdr → Bool → Nat → Engine → Engine} {h : Hdr} {acc : Bool} {e : Engine}

theorem inSession_open (hs : e.session.state ≠ .idle) (hi : e.session.image = img) (hk : ok e.session = true) :
    inSession img ok run h acc now e = run h acc now e := if_pos ⟨hs, hi, hk⟩

/-- A session in state `st`, which is not IDLE, is open. -/
theorem inSession_state {st : SessState} (hs : e.session.state = st) (hst : st ≠ .idle) (hi : e.session.image = img) (hk : ok e.session = true) :
    inSession img ok run h acc now e = run h acc now e := inSession_open (hs ▸ hst) hi hk

theorem inSession_other (hn : e.session.state = .idle ∨ e.session.image ≠ img ∨ ok e.session = false) :
    inSession img ok run h acc now e = e.reply now h .sessionState 0 :=
  if_neg fun ⟨hs, hi, hk⟩ => hn.elim hs (·.elim (· hi) (Bool.eq_false_iff.mp · hk))

end Session

/-- The frames are taken in order, after their flits are charged to the host's hem: 306 to a frame (R189, R190). -/
theorem runImgStream_eq (frames : List (List Byte)) (h : Hdr) (acc : Bool) (now : Nat) (e : Engine) : runImgStream frames h acc now e =
    let e := e.spendHem (e.fnDeck h.fn) 0 32 (306 * frames.length)
    let e' := frames.foldl (fun e b => e.takeFrame now b) e
    e'.reply now h .ok (e'.session.discarded - e.session.discarded) := by
  have hf : frames.length * ceilDiv (16 + 19520) 64 = 306 * frames.length := Nat.mul_comm ..
  rw [runImgStream, hf]

section Patch
variable {e : Engine} {now : Nat} {h : Hdr} {acc : Bool}

theorem runImgPatch_refused {c : Status} {d : Nat} (hr : e.sessionRefused = some (c, d)) : runImgPatch h acc now e = e.reply now h c d := by
  rw [runImgPatch, hr]

theorem runImgPatch_reopens (hr : e.sessionRefused = none) :
    runImgPatch h acc now e = (e.reopenSlices.modSup (fun s => { s with nvEnable := true })).okReply now h := by
  rw [runImgPatch, hr]

end Patch

/-! ### IMG_TIER_LOAD (R201, R202) -/

section Tier
variable {e : Engine} {img now region bytes cache : Nat} {frames : List (List Byte)} {h : Hdr}

theorem runTierLoad_otherState {acc : Bool} (hs : (e.image img).state ≠ .incomplete) :
    runTierLoad img frames region bytes cache h acc now e = e.reply now h .imageState (imgCode (e.image img).state) := if_pos hs

variable (hs : (e.image img).state = .incomplete)
include hs

theorem runTierLoad_badPages {acc : Bool} (hp : (e.image img).tierPages (frames.map readFrame) = none) :
    runTierLoad img frames region bytes cache h acc now e = e.reply now h .imageState (imgCode (e.image img).state) :=
  (if_neg (not_not_intro hs)).trans (by rw [hp])

variable {ls : List (Nat × Slice × List (List Byte))} (hp : (e.image img).tierPages (frames.map readFrame) = some ls)
include hp

/-- Tier pages that are all there are loaded where every tile has the slots and the region the room. -/
theorem runTierLoad_pages : runTierLoad img frames region bytes cache h false now e =
    let im := e.image img
    let im' := im.withTier ls region bytes h.fn
    if e.tierLack im ls cache ≠ 0 then e.reply now h .kvSlots (e.tierLack im ls cache)
    else if bytes < im'.tierBytes then e.reply now h .badAddress 24
    else ((((e.reply now h .accepted 0).fillTier im ls cache).writeTier h.fn im' region ls).modImage img
      (fun _ => { im' with state := if im.recovered.isEmpty then .ready else .degraded })).okReply now h :=
  (if_neg (not_not_intro hs)).trans (by rw [hp]; rfl)

theorem runTierLoad_fewSlots (hl : e.tierLack (e.image img) ls cache ≠ 0) :
    runTierLoad img frames region bytes cache h false now e = e.reply now h .kvSlots (e.tierLack (e.image img) ls cache) :=
  (runTierLoad_pages hs hp).trans (if_pos hl)

variable (hl : e.tierLack (e.image img) ls cache = 0)
include hl

theorem runTierLoad_smallRegion (hb : bytes < ((e.image img).withTier ls region bytes h.fn).tierBytes) :
    runTierLoad img frames region bytes cache h false now e = e.reply now h .badAddress 24 :=
  (runTierLoad_pages hs hp).trans ((if_neg (not_not_intro hl)).trans (if_pos hb))

theorem runTierLoad_loads (hb : ((e.image img).withTier ls region bytes h.fn).tierBytes ≤ bytes) :
    runTierLoad img frames region bytes cache h false now e =
      let im' := (e.image img).withTier ls region bytes h.fn
      ((((e.reply now h .accepted 0).fillTier (e.image img) ls cache).writeTier h.fn im' region ls).modImage img
        (fun _ => { im' with state := if (e.image img).recovered.isEmpty then .ready else .degraded })).okReply now h :=
  (runTierLoad_pages hs hp).trans ((if_neg (not_not_intro hl)).trans (if_neg (Nat.not_lt.mpr hb)))

end Tier

/-! ### IMG_RELEASE (R185) -/

/-- The graphs of an image removed; the load of one that is still LOADING ends with the graph's state (Table 9.15). -/
def Engine.removeGraphsOf (e : Engine) (now img : Nat) : Engine :=
  (e.graphs.filter (fun x => x.2.image == img && x.2.state != .free)).foldl (fun e x =>
    match x.2.hd with
    | some h => (e.removeGraph x.1).reply now h .graphState (graphCode .free)
    | none => e.removeGraph x.1) e

/-- What the tiles of its footprint, the repairs and the recovery chains hold of an image, given up. -/
def Engine.freeImage (e : Engine) (img : Nat) (im : Image) : Engine :=
  { e with
      tiles := e.tiles.foldl (fun m x =>
        if im.footprint.testBit (x.1 / 720) then mset (fun _ => {}) x.1 (x.2.releaseImage img im.slot) m else m) e.tiles
      repairs := e.repairs.filter (fun r => r.img != img)
      chains := e.chains.filter (fun c => c.img != img) }

section Release
variable {e : Engine} {img now : Nat} {h : Hdr} {acc : Bool}

/-- Some partition is bound to the image. -/
theorem any_part_image_iff (e : Engine) (img : Nat) : e.parts.any (fun x => x.2.image == some img) = true ↔ ∃ x ∈ e.parts, x.2.image = some img := by
  simp only [List.any_eq_true, beq_iff_eq]

theorem runImgRelease_absent (hs : (e.image img).state = .absent) : runImgRelease img h acc now e = e.okReply now h := if_pos hs

theorem runImgRelease_busy (hs : (e.image img).state ≠ .absent) (hb : (e.image img).state = .imprinting ∨ ∃ x ∈ e.parts, x.2.image = some img) :
    runImgRelease img h acc now e = e.reply now h .imageState (imgCode (e.image img).state) :=
  (if_neg hs).trans (if_pos (hb.imp_right (any_part_image_iff e img).mpr))

/-- The requests that run it end, its graphs go, and what it held is free. -/
theorem runImgRelease_releases (hs : (e.image img).state ≠ .absent)
    (hb : ¬ ((e.image img).state = .imprinting ∨ ∃ x ∈ e.parts, x.2.image = some img)) : runImgRelease img h acc now e =
      ((((e.endWhere now 0xC (fun r => r.image == img && r.state != .idle)).removeGraphsOf now img).freeImage img (e.image img)).modImage img
        (fun _ => {})).okReply now h :=
  (if_neg hs).trans (if_neg (mt (Or.imp_right (any_part_image_iff e img).mp) hb))

end Release

/-! ### KEY_ENROL (R187) -/

section Key
variable {e : Engine} {slot now : Nat} {key sig : List Byte} {h : Hdr} {acc : Bool}

theorem runKeyEnrol_strap (hs : e.sup.imprintEn = false) : runKeyEnrol slot key sig h acc now e = e.reply now h .strapOpen 0 :=
  if_pos (by rw [hs]; rfl)

variable (hs : e.sup.imprintEn = true)
include hs

/-- With the strap closed, the slot's key decides. -/
theorem runKeyEnrol_closed : runKeyEnrol slot key sig h acc now e =
    let old := mget (fun _ => []) slot e.sup.keys
    if old ≠ [] ∧ ecdsaOk old (natBytes slot 8 ++ key) sig = false then e.reply now h .key 0
    else (e.modSup (fun s => { s with keys := mset (fun _ => []) slot (if key.all (· == 0) then [] else key) s.keys })).okReply now h :=
  if_neg (by simp [hs])

theorem runKeyEnrol_unsigned (ho : mget (fun _ => []) slot e.sup.keys ≠ [])
    (hg : ecdsaOk (mget (fun _ => []) slot e.sup.keys) (natBytes slot 8 ++ key) sig = false) :
    runKeyEnrol slot key sig h acc now e = e.reply now h .key 0 := (runKeyEnrol_closed hs).trans (if_pos ⟨ho, hg⟩)

theorem runKeyEnrol_enrols
    (ho : mget (fun _ => []) slot e.sup.keys = [] ∨ ecdsaOk (mget (fun _ => []) slot e.sup.keys) (natBytes slot 8 ++ key) sig = true) :
    runKeyEnrol slot key sig h acc now e =
      (e.modSup (fun s => { s with keys := mset (fun _ => []) slot (if key.all (· == 0) then [] else key) s.keys })).okReply now h :=
  (runKeyEnrol_closed hs).trans (if_neg fun ⟨hn, hg⟩ => ho.elim hn (Bool.eq_false_iff.mp hg))

end Key

/-! ### The commands through intake -/

section Commands
variable {s : State} {hd : Hdr} {g : Engine → Engine} {img addr fields : Nat}

theorem exec_imgFit {maddr : Nat} {manifest : List Byte}
    (hg : goes s hd (.imgFit hd maddr manifest fields addr) (imgFitForm hd maddr manifest fields addr s.eng) = true)
    (hr : runImgFit manifest fields addr (due s hd) false s.now (taken s hd) = g (taken s hd)) :
    exec (.imgFit hd maddr manifest fields addr) s = took s hd g :=
  hostCmd_tookAt (f := imgFitForm hd maddr manifest fields addr) hg rfl hr

theorem exec_imgBegin {maddr ports zport : Nat} {manifest : List Byte}
    (hg : goes s hd (.imgBegin hd maddr manifest fields ports zport) (imgBeginForm hd maddr manifest fields ports zport s.eng) = true)
    (hr : runImgBegin manifest fields ports zport (due s hd) false s.now (taken s hd) = g (taken s hd)) :
    exec (.imgBegin hd maddr manifest fields ports zport) s = took s hd g :=
  hostCmd_tookAt (f := imgBeginForm hd maddr manifest fields ports zport) hg rfl hr

theorem exec_imgStream {frames : List (List Byte)} (hg : goes s hd (.imgStream hd img addr frames) (imgStreamForm hd img addr frames) = true)
    (hr : inSession img (fun x => x.state == .streaming && x.fromPort hd.fn) (runImgStream frames) (due s hd) false s.now (taken s hd) =
      g (taken s hd)) : exec (.imgStream hd img addr frames) s = took s hd g :=
  hostCmd_tookAt (f := fun _ => imgStreamForm hd img addr frames) hg rfl hr

theorem exec_imgEnd (hg : goes s hd (.imgEnd hd img addr) (imgEndForm hd img addr s.eng) = true)
    (hr : inSession img (fun x => x.state == .streaming) (runImgEnd addr) (due s hd) false s.now (taken s hd) = g (taken s hd)) :
    exec (.imgEnd hd img addr) s = took s hd g :=
  hostCmd_tookAt (f := imgEndForm hd img addr) hg rfl hr

theorem exec_imgAbort (hg : goes s hd (.imgAbort hd img) (imgAbortForm img s.eng) = true)
    (hr : inSession img (fun _ => true) runImgAbort (due s hd) false s.now (taken s hd) = g (taken s hd)) :
    exec (.imgAbort hd img) s = took s hd g :=
  hostCmd_tookAt (f := imgAbortForm img) hg rfl hr

theorem exec_imgPatch {id : Word} (hg : goes s hd (.imgPatch hd img id) (imgPatchForm img s.eng) = true)
    (hr : inSession img (fun x => x.state == .failed && ((taken s hd).image img).id == id) runImgPatch (due s hd) false s.now (taken s hd) =
      g (taken s hd)) : exec (.imgPatch hd img id) s = took s hd g :=
  hostCmd_tookAt (f := imgPatchForm img) hg rfl hr

theorem exec_imgTierLoad {frames : List (List Byte)} {region bytes cache : Nat}
    (hg : goes s hd (.imgTierLoad hd img addr frames region bytes cache) (imgTierLoadForm hd img addr frames region bytes cache s.eng) = true)
    (hr : runTierLoad img frames region bytes cache (due s hd) false s.now (taken s hd) = g (taken s hd)) :
    exec (.imgTierLoad hd img addr frames region bytes cache) s = took s hd g :=
  hostCmd_tookAt (f := imgTierLoadForm hd img addr frames region bytes cache) hg rfl hr

theorem exec_imgRelease (hg : goes s hd (.imgRelease hd img) (imgReleaseForm img s.eng) = true)
    (hr : runImgRelease img (due s hd) false s.now (taken s hd) = g (taken s hd)) : exec (.imgRelease hd img) s = took s hd g :=
  hostCmd_tookAt (f := imgReleaseForm img) hg rfl hr

theorem exec_imgQuery (hg : goes s hd (.imgQuery hd img addr) (imgQueryForm hd img addr s.eng) = true) :
    exec (.imgQuery hd img addr) s = tookOk s hd (fun e => e.dma hd.fn addr
      (natBytes (e.image img).id.toNat 8 ++ natBytes (e.image img).footprint 12 ++ natBytes (imgCode (e.image img).state) 1 ++
        natBytes (e.image img).slot 1)) :=
  hostCmd_took hg rfl fun _ => rfl

theorem exec_keyEnrol {slot : Nat} {key sig : List Byte} (hg : goes s hd (.keyEnrol hd slot key sig) (keyEnrolForm slot s.eng) = true)
    (hr : runKeyEnrol slot key sig (due s hd) false s.now (taken s hd) = g (taken s hd)) :
    exec (.keyEnrol hd slot key sig) s = took s hd g :=
  hostCmd_tookAt (f := keyEnrolForm slot) hg rfl hr

end Commands

/-- Settles O42: for each command the branches of its effect, in the order in which it tests them. -/
theorem imageCommands : Obligations.ImageCommands := by
  refine ⟨fun s hd => ?sessions, fun s hd => ?others⟩
  case sessions =>
    intro e
    refine ⟨fun _ _ _ _ hg => ⟨fun hm => exec_imgFit hg (runImgFit_reported hm), fun _ _ hm => exec_imgFit hg (runImgFit_refused hm)⟩,
      fun maddr manifest fields ports zport hg => ?begin, fun img addr frames hg => ?stream, fun img addr hg => ?finish, fun img hg => ?abort,
      fun img id hg => ?patch⟩
    case begin =>
      intro c o
      refine ⟨fun hs => exec_imgBegin hg (runImgBegin_busy hs), fun hs hn => exec_imgBegin hg (runImgBegin_refused hs (sessionRefused_strap hn)),
        fun hs hn hc => exec_imgBegin hg (runImgBegin_refused hs (sessionRefused_cartridge hn hc)), fun hs hn hc => ?_⟩
      have hr : e.sessionRefused = none := sessionRefused_none hn hc
      exact ⟨fun _ _ hm => exec_imgBegin hg (runImgBegin_badManifest hs hr hm), fun hm =>
        ⟨fun ho => exec_imgBegin hg (runImgBegin_stepping hs hr hm ho), fun hne ho => exec_imgBegin hg (runImgBegin_unfit hs hr hm hne ho),
          fun ho hi => exec_imgBegin hg (runImgBegin_tableFull hs hr hm ho hi),
          fun _ _ ho hi => exec_imgBegin hg (runImgBegin_opens hs hr hm ho hi)⟩⟩
    case stream =>
      refine ⟨fun hs hi hp => exec_imgStream hg ((inSession_state hs nofun hi (by simp [hs, hp])).trans (runImgStream_eq ..)),
        fun hn => exec_imgStream hg (inSession_other (.inr ?_))⟩
      rcases hn with hs | hi | hp
      · exact .inr (Bool.and_eq_false_iff.mpr (.inl (beq_false_of_ne hs)))
      · exact .inl hi
      · exact .inr (Bool.and_eq_false_iff.mpr (.inr hp))
    case finish =>
      exact ⟨fun hs hi => exec_imgEnd hg (inSession_state hs nofun hi (beq_iff_eq.mpr hs)),
        fun hn => exec_imgEnd hg (inSession_other (.inr (hn.symm.imp_right beq_eq_false_iff_ne.mpr)))⟩
    case abort =>
      exact ⟨fun hs hi => exec_imgAbort hg (inSession_open hs hi rfl), fun hn => exec_imgAbort hg (inSession_other (hn.imp_right .inl))⟩
    case patch =>
      intro isOpen
      have hrun (ho : isOpen) : inSession img (fun x => x.state == .failed && (e.image img).id == id) runImgPatch (due s hd) false s.now e =
          runImgPatch (due s hd) false s.now e := by
        obtain ⟨hs, hi, hid⟩ := ho
        exact inSession_state hs nofun hi (by simp [hs, hid])
      refine ⟨fun hn => exec_imgPatch hg (if_neg ?_),
        fun ho hs => exec_imgPatch hg ((hrun ho).trans (runImgPatch_refused (sessionRefused_strap hs))),
        fun ho hs hc => exec_imgPatch hg ((hrun ho).trans (runImgPatch_refused (sessionRefused_cartridge hs hc))),
        fun ho hs hc => exec_imgPatch hg ((hrun ho).trans (runImgPatch_reopens (sessionRefused_none hs hc)))⟩
      rintro ⟨-, hi, hk⟩
      obtain ⟨hs, hid⟩ : e.session.state = .failed ∧ (e.image img).id = id := by simpa using hk
      exact hn ⟨hs, hi, hid⟩
  case others =>
    intro e
    refine ⟨fun img addr frames region bytes cache hg => ?tier, fun img hg => ?release, fun _ _ => exec_imgQuery, fun slot key sig hg => ?key⟩
    case tier =>
      exact ⟨fun hs => exec_imgTierLoad hg (runTierLoad_otherState hs), fun hs hp => exec_imgTierLoad hg (runTierLoad_badPages hs hp),
        fun ls hs hp => ⟨fun hl => exec_imgTierLoad hg (runTierLoad_fewSlots hs hp hl),
          fun hl hb => exec_imgTierLoad hg (runTierLoad_smallRegion hs hp hl hb), fun hl hb => exec_imgTierLoad hg (runTierLoad_loads hs hp hl hb)⟩⟩
    case release =>
      exact ⟨fun hs => exec_imgRelease hg (runImgRelease_absent hs), fun hs hb => exec_imgRelease hg (runImgRelease_busy hs hb),
        fun hs hb => exec_imgRelease hg (runImgRelease_releases hs hb)⟩
    case key =>
      exact ⟨fun hs => exec_keyEnrol hg (runKeyEnrol_strap hs), fun hs ho hk => exec_keyEnrol hg (runKeyEnrol_unsigned hs ho hk),
        fun hs ho => exec_keyEnrol hg (runKeyEnrol_enrols hs ho)⟩

end Sys2Proof.Machine
end

section
/-!
PROOFS. The fabric: packets at their destination router (R211, R214, R216, R375), fold flits combined on their way and received by their
owner (R221, R222), proxy reads of COVERED sites (R115) and recovery chains (R403).
-/
namespace Sys2Proof.Machine

open Sys2Proof.Safety

/-! ### Errors corrected on a packet's way (R214) -/

/-- Each router on the way counts its own corrections. -/
theorem Engine.routerCorr_correctedAt (l : List Loc) (e : Engine) (v : Loc) :
    ((e.correctedAt l).tile v).routerCorr = (e.tile v).routerCorr + (l.filter (fun r => locKey r == locKey v)).length := by
  induction l generalizing e with
  | nil => rfl
  | cons u r ih =>
    refine (ih _).trans ?_
    by_cases h : locKey u = locKey v
    · have ht : ((e.modTile u (fun ti => { ti with routerCorr := ti.routerCorr + 1 })).tile v).routerCorr = (e.tile v).routerCorr + 1 := by
        simp [Engine.tile, Engine.modTile, h]
      rw [ht, List.filter_cons_of_pos (by simpa using h), List.length_cons]
      omega
    · rw [Engine.modTile_tile_ne _ _ _ _ (Ne.symm h), List.filter_cons_of_neg (by simpa using h)]

/-- The engine once the k-th packet has left the fabric, with what the routers on its way have corrected. -/
def Engine.takenOff (e : Engine) (k : Nat) (l : List Loc) : Engine := ({ e with flight := e.flight.eraseIdx k } : Engine).correctedAt l

theorem Engine.correctedAt_frame (l : List Loc) (e : Engine) : ∃ m, e.correctedAt l = { e with tiles := m } := by
  induction l generalizing e with
  | nil => exact ⟨e.tiles, rfl⟩
  | cons u r ih => exact ih (e.modTile u _)

theorem Engine.takenOff_frame (e : Engine) (k : Nat) (l : List Loc) :
    ∃ m, e.takenOff k l = { e with flight := e.flight.eraseIdx k, tiles := m } := Engine.correctedAt_frame l _

section TakenOff
variable (e : Engine) (k : Nat) (l : List Loc)

@[simp] theorem Engine.takenOff_part (p : Nat) : (e.takenOff k l).part p = e.part p := by
  obtain ⟨m, h⟩ := e.takenOff_frame k l
  rw [h]; rfl

@[simp] theorem Engine.takenOff_partOf (f : Nat) : (e.takenOff k l).partOf f = e.partOf f := by
  obtain ⟨m, h⟩ := e.takenOff_frame k l
  rw [h]; rfl

@[simp] theorem Engine.takenOff_siteState (u : Loc) : (e.takenOff k l).siteState u = e.siteState u := by
  obtain ⟨m, h⟩ := e.takenOff_frame k l
  rw [h]; rfl

@[simp] theorem Engine.takenOff_proxyAt (x : Packet) : (e.takenOff k l).proxyAt x = e.proxyAt x := by
  obtain ⟨m, h⟩ := e.takenOff_frame k l
  rw [h]; rfl

end TakenOff

/-! ### A packet at its destination (R211, R375) -/

section Arrive
variable {e : Engine} {x : Packet} {now : Nat}

theorem Engine.proxyAt_covered {q : ProxyReq} (hs : e.siteState x.dst = .covered) (hb : x.body = .proxy q) : e.proxyAt x = some q := by
  simp [Engine.proxyAt, hb, hs]

theorem Engine.proxyAt_active (hs : e.siteState x.dst = .active) : e.proxyAt x = none := by
  unfold Engine.proxyAt
  split
  · exact if_neg (by simp [hs])
  · rfl

theorem Engine.arrive_otherPart (hs : x.sys = false) (hp : e.partOf x.dst.field ≠ some x.part) :
    e.arrive now x = e.modDeck (deckOf x.dst.field) (fun y => y.fabCount 0 1) := if_pos (by simp [hs, hp])

/-- The packet is the engine's own, or of the partition that its destination belongs to. -/
def Engine.admits (e : Engine) (x : Packet) : Prop := x.sys = true ∨ e.partOf x.dst.field = some x.part

variable (hp : e.admits x)
include hp

theorem Engine.not_otherPart_of_admits : ¬ (!x.sys && e.partOf x.dst.field != some x.part) = true := by
  rcases hp with h | h <;> simp [h]

theorem Engine.arrive_proxy {q : ProxyReq} (hq : e.proxyAt x = some q) : e.arrive now x = e.proxyAnswer x.dst q x.src := by
  rw [Engine.arrive, if_neg (Engine.not_otherPart_of_admits hp), hq]

theorem Engine.arrive_outOfService (hq : e.proxyAt x = none) (hs : e.siteState x.dst ≠ .active) :
    e.arrive now x = e.modDeck (deckOf x.dst.field) (fun y => y.fabCount 1 1) := by
  rw [Engine.arrive, if_neg (Engine.not_otherPart_of_admits hp), hq]
  exact if_pos hs

theorem Engine.arrive_accepted (hs : e.siteState x.dst = .active) (he : x.epoch = (e.part x.part).epoch) :
    e.arrive now x = e.accepted x := by
  rw [Engine.arrive, if_neg (Engine.not_otherPart_of_admits hp), Engine.proxyAt_active hs]
  exact (if_neg (not_not.mpr hs)).trans (if_pos (by simp [he]))

end Arrive

theorem Engine.accepted_msg {e : Engine} {x : Packet} {m : Nat} {bs : List Byte} (h : x.body = .msg m bs) :
    e.accepted x = e.modTile x.dst (fun ti => { ti with held := ti.held ++ [x] }) := by rw [Engine.accepted, h]

theorem Engine.accepted_fold {e : Engine} {x : Packet} {f : Flit} (h : x.body = .fold f) :
    e.accepted x = e.modTile x.dst (fun ti => { ti with foldIn := ti.foldIn ++ [f] }) := by rw [Engine.accepted, h]

/-! ### PACKET_ARRIVAL (R214, R216) -/

section Arrival
variable {s : State} {k : Nat} {x : Packet} {l : List Loc}

/-- No packet before the k-th took the same channel from the same source to the same site. -/
def Engine.leads (e : Engine) (k : Nat) (x : Packet) : Prop :=
  ∀ y ∈ e.flight.take k, ¬ (y.src = x.src ∧ y.dst = x.dst ∧ y.channel = x.channel)

theorem Engine.follows_iff (e : Engine) :
    (e.flight.take k).any (fun y => y.src == x.src && y.dst == x.dst && y.channel == x.channel) = true ↔ ¬ e.leads k x := by
  simp [Engine.leads, and_assoc]

variable (hx : s.eng.flight[k]? = some x) (hl : ∀ u ∈ l, locOk u = true)
include hx hl

theorem exec_packetArrival_follows (hf : ¬ s.eng.leads k x) (b : Bool) : exec (.packetArrival k b l) s = .next s :=
  onUnit_same (f := packetArrival k l b) (List.all_eq_true.mpr hl) (by
    rw [packetArrival, hx]
    exact if_pos (s.eng.follows_iff.mpr hf))

theorem exec_packetArrival_leads (hf : s.eng.leads k x) (b : Bool) : exec (.packetArrival k b l) s =
    .next (withEng s (if b then (s.eng.takenOff k l).stepFault x.part else (s.eng.takenOff k l).arrive s.now x)) :=
  onUnit_eq (f := packetArrival k l b) (List.all_eq_true.mpr hl) (by
    rw [packetArrival, hx]
    exact if_neg (mt s.eng.follows_iff.mp (not_not.mpr hf)))

/-- A packet that no other holds back, and that needed no correction it could not get, arrives. -/
theorem exec_packetArrival_arrives (hf : s.eng.leads k x) {e : Engine} (h : (s.eng.takenOff k l).arrive s.now x = e) :
    exec (.packetArrival k false l) s = .next (withEng s e) := h ▸ exec_packetArrival_leads hx hl hf false

end Arrival

/-! ### FOLD_COMBINE (R221) -/

section Combine
variable {e : Engine} {r : Loc} {i j now : Nat} {x y : Packet} {f g : Flit} (hi : e.flight[i]? = some x) (hj : e.flight[j]? = some y)
  (hx : x.body = .fold f) (hy : y.body = .fold g)
include hi hj hx hy

theorem foldCombine_unlike (hc : combinable x y f g = false) : foldCombine r i j now e = e := by
  simp [foldCombine, hi, hj, hx, hy, hc]

variable (hne : i ≠ j) (hc : combinable x y f g = true)
include hne hc

theorem foldCombine_fits (hw : (addFlits r f g).inWindow = true) : foldCombine r i j now e =
    { e with flight := (e.flight.set i { x with body := .fold (addFlits r f g) }).eraseIdx j } := by
  simp [foldCombine, hi, hj, hx, hy, hc, hne, hw]

theorem foldCombine_overflows (hw : (addFlits r f g).inWindow = false) : foldCombine r i j now e =
    e.modDeck (deckOf r.field) (fun d => d.fabCount 2 1) := by
  simp [foldCombine, hi, hj, hx, hy, hc, hne, hw]

end Combine

/-! ### FOLD_RECEIVE (R112, R222) -/

/-- Adds change a tile's long registers only, and depend on them only. -/
theorem Tile.addAll_of_lregs (b : Nat) (l : List Add) {ti tj : Tile} (h : tj.lregs = ti.lregs) :
    tj.addAll b l = { tj with lregs := (ti.addAll b l).lregs } := by
  induction l generalizing ti tj with
  | nil => exact congrArg (fun m => { tj with lregs := m }) h
  | cons a r ih =>
    refine ih (ti := ti.setLreg b a.reg ((ti.lreg b a.reg).add a).1) ?_
    simp only [Tile.setLreg, Tile.lreg, h]

/-- A tile whose first fold flit has been taken; counter 11 counts a whole one (R217). -/
def Tile.tookFlit (ti : Tile) (f : Flit) (r : List Flit) : Tile := { if f.whole then ti.count 11 1 else ti with foldIn := r }

theorem Tile.tookFlit_eq (ti : Tile) (f : Flit) (r : List Flit) : ti.tookFlit f r =
    { ti with foldIn := r, stepCnt := if f.whole then (ti.count 11 1).stepCnt else ti.stepCnt } := by
  cases h : f.whole <;> simp [Tile.tookFlit, h, Tile.count]

/-- The tile after the flit's slots have been added and its contributions have been paid. -/
def Tile.addFlit (ti : Tile) (f : Flit) : Tile :=
  { ti.addAll f.bank f.adds with pend := mset (fun _ => 0) f.bank (ti.pending f.bank - f.count * f.slots.length) ti.pend }

theorem Tile.addFlit_tookFlit (ti : Tile) (f : Flit) (r : List Flit) : (ti.tookFlit f r).addFlit f =
    { ti with
      foldIn := r, stepCnt := if f.whole then (ti.count 11 1).stepCnt else ti.stepCnt, lregs := (ti.addAll f.bank f.adds).lregs
      pend := mset (fun _ => 0) f.bank (ti.pending f.bank - f.count * f.slots.length) ti.pend } := by
  have h : (ti.tookFlit f r).lregs = ti.lregs := by rw [Tile.tookFlit_eq]
  rw [Tile.addFlit, Tile.addAll_of_lregs _ _ h, Tile.tookFlit_eq]
  rfl

section Receive
variable {e : Engine} {u : Loc} {now : Nat} {f : Flit} {r : List Flit} (hf : (e.tile u).foldIn = f :: r)
include hf

theorem foldReceive_unexpected (hn : (e.tile u).pending f.bank < f.count * f.slots.length) : foldReceive u now e =
    (e.modTile u (·.tookFlit f r)).raiseBank now u f.bank .foldUnexpected (f.bank + 4 * f.reg) none := by
  rw [foldReceive, hf]
  exact if_pos hn

variable (hn : f.count * f.slots.length ≤ (e.tile u).pending f.bank)
include hn

theorem foldReceive_residue {x : Nat × Int × Nat} (hx : f.slots.find? (fun y => !slotOk y) = some x) : foldReceive u now e =
    (e.modTile u (·.tookFlit f r)).raiseBank now u f.bank .residue (f.bank + 4 * (f.reg + x.1)) (if f.rfault then f.rfaultAt else none) := by
  have hbad : (!f.slots.all slotOk || f.rfault) = true := by
    have hx' : ¬ slotOk x = true := by simpa using List.find?_some hx
    simp only [Bool.or_eq_true, Bool.not_eq_true', List.all_eq_false]
    exact .inl ⟨x, List.mem_of_find?_eq_some hx, hx'⟩
  rw [foldReceive, hf]
  refine (if_neg (Nat.not_lt.mpr hn)).trans ((if_pos hbad).trans ?_)
  simp only [hx]
  rfl

theorem foldReceive_adds (hr : f.rfault = false) (hs : ∀ x ∈ f.slots, slotOk x = true) : foldReceive u now e =
    (e.modTile u (·.tookFlit f r)).modTile u (·.addFlit f) := by
  have hgood : ¬ (!f.slots.all slotOk || f.rfault) = true := by simpa [hr] using hs
  rw [foldReceive, hf]
  exact (if_neg (Nat.not_lt.mpr hn)).trans (if_neg hgood)

end Receive

/-- A flit that passes the owner's checks is added slot by slot, and pays its contributions. -/
theorem foldReceive_adds_result {s : State} {u : Loc} {f : Flit} {r : List Flit} (hu : locOk u = true) (hf : (s.eng.tile u).foldIn = f :: r)
    (hn : f.count * f.slots.length ≤ (s.eng.tile u).pending f.bank) (hr : f.rfault = false) (hs : ∀ x ∈ f.slots, slotOk x = true) :
    ∃ t, exec (.foldReceive u) s = .next t ∧ OnlyTile s t u ∧ (t.eng.tile u).foldIn = r ∧
      (∀ b, (t.eng.tile u).pending b =
        if b = f.bank then (s.eng.tile u).pending f.bank - f.count * f.slots.length else (s.eng.tile u).pending b) ∧
      (t.eng.tile u).lregs = ((s.eng.tile u).addAll f.bank f.adds).lregs ∧
      { t.eng.tile u with foldIn := (s.eng.tile u).foldIn, lregs := (s.eng.tile u).lregs, pend := (s.eng.tile u).pend,
                          stepCnt := (s.eng.tile u).stepCnt } = s.eng.tile u ∧
      (t.eng.tile u).stepCnt = if f.whole then ((s.eng.tile u).count 11 1).stepCnt else (s.eng.tile u).stepCnt := by
  refine ⟨_, onUnit_eq (f := foldReceive u) hu (foldReceive_adds hf hn hr hs), modTile_onlyTile (onlyTile_modTile s u _) _, ?_⟩
  have ht : (withEng s ((s.eng.modTile u (·.tookFlit f r)).modTile u (·.addFlit f))).eng.tile u = ((s.eng.tile u).tookFlit f r).addFlit f := by
    simp [withEng]
  rw [ht, Tile.addFlit_tookFlit]
  exact ⟨rfl, fun b => mget_mset .., rfl, rfl, rfl⟩

/-! ### PROXY_READ (R115, R211) -/

section Proxy
variable {e : Engine} {u v : Loc} {q : ProxyReq}

theorem proxyRead_covered (h : e.siteState u = .covered) : proxyRead u q v e = e.proxyAnswer u q v := by rw [proxyRead, h]

theorem proxyRead_active (h : e.siteState u = .active) : proxyRead u q v e = e := by rw [proxyRead, h]

theorem proxyRead_outOfService (hc : e.siteState u ≠ .covered) (ha : e.siteState u ≠ .active) :
    proxyRead u q v e = e.modDeck (deckOf u.field) (fun d => d.fabCount 1 1) := by
  unfold proxyRead
  split
  · next h => exact absurd h hc
  · next h => exact absurd h ha
  · rfl

end Proxy

theorem exec_proxyRead_kvSlot {s : State} {u v : Loc} {k : Nat} {e : Engine} (hu : locOk u = true) (hv : locOk v = true) (hk : k < kvSlots)
    (h : proxyRead u (.kvSlot k) v s.eng = e) : exec (.proxyRead u (.kvSlot k) v) s = .next (withEng s e) :=
  onUnit_eq (f := fun _ => proxyRead u (.kvSlot k) v) (by simp [hu, hv, hk]) h

theorem exec_proxyRead_nvPage {s : State} {u v : Loc} {k : Nat} {e : Engine} (hu : locOk u = true) (hv : locOk v = true) (hk : k < slabPages)
    (h : proxyRead u (.nvPage k) v s.eng = e) : exec (.proxyRead u (.nvPage k) v) s = .next (withEng s e) :=
  onUnit_eq (f := fun _ => proxyRead u (.nvPage k) v) (by simp [hu, hv, hk]) h

/-! ### RECOVERY_CHAIN_PAGE (R403) -/

section ChainStep
variable (e : Engine) (c : Chain)

@[simp] theorem Engine.chainStep_img : (e.chainStep c).img = c.img := by unfold Engine.chainStep; split <;> rfl

@[simp] theorem Engine.chainStep_page : (e.chainStep c).page = c.page := by unfold Engine.chainStep; split <;> rfl

@[simp] theorem Engine.chainStep_dst : (e.chainStep c).dst = c.dst := by unfold Engine.chainStep; split <;> rfl

end ChainStep

section Chain
variable {e : Engine} {u : Loc} {k : Nat} {c : Chain} (hc : e.chains[k]? = some c)
include hc

theorem min_chain_index : min k (e.chains.length - 1) = k := by
  have := (List.getElem?_eq_some_iff.mp hc).1
  omega

theorem chainPageStep_otherSite (ha : e.chainAt c u = false) : chainPageStep u k e = e := by
  simp [chainPageStep, hc, min_chain_index hc, ha]

variable (ha : e.chainAt c u = true)
include ha

theorem chainPageStep_forwards (hl : (e.chainStep c).left ≠ []) : chainPageStep u k e = { e with chains := e.chains.set k (e.chainStep c) } := by
  simp [chainPageStep, hc, min_chain_index hc, ha, hl]

variable (hl : (e.chainStep c).left = [])
include hl

theorem chainPageStep_delivers {pg : Nat} (hp : extPage (e.readExtents c.dst c.img (e.image c.img).slot) c.page = some pg) :
    chainPageStep u k e = ({ e with chains := e.chains.eraseIdx k } : Engine).modTile c.dst (fun ti =>
      { ti with recv := ti.recv ++ [(pg, (e.chainStep c).acc)] }) := by
  simp [chainPageStep, hc, min_chain_index hc, ha, hl, hp]

theorem chainPageStep_undelivered (hp : extPage (e.readExtents c.dst c.img (e.image c.img).slot) c.page = none) :
    chainPageStep u k e = { e with chains := e.chains.eraseIdx k } := by
  simp [chainPageStep, hc, min_chain_index hc, ha, hl, hp]

end Chain

theorem exec_recoveryChainPage {s : State} {u : Loc} {k : Nat} {e : Engine} (hu : locOk u = true) (h : chainPageStep u k s.eng = e) :
    exec (.recoveryChainPage u k) s = .next (withEng s e) := onUnit_eq (f := fun _ => chainPageStep u k) hu h

/-! ### The statement -/

/-- Settles O28: an arrival by the checks of its router in their order, each other event by what it finds. -/
theorem fabricResults : Obligations.FabricResults := by
  refine ⟨fun s k x l hx hl => ?arrival, fun e u v l => ⟨Engine.routerCorr_correctedAt l e v, rfl⟩,
    fun s r i j x y f g hr hne hi hj hf hg => ?combine, fun s u f r hu hf => ?receive, fun s u v hu hv => ?proxy, fun s u k c hu hc => ?chain⟩
  case arrival =>
    intro first e d here
    have arrives {e' : Engine} (hf : first) (h : e.arrive s.now x = e') := exec_packetArrival_arrives hx hl hf h
    have served (hh : x.sys = true ∨ here) : e.admits x := hh.imp_right (Engine.takenOff_partOf s.eng k l _).trans
    have hstate : e.siteState x.dst = s.eng.siteState x.dst := s.eng.takenOff_siteState k l _
    refine ⟨fun hf b => exec_packetArrival_follows hx hl hf b, fun hf => exec_packetArrival_leads hx hl hf true, fun hf hs hh => ?_,
      fun hf hh hs hq => ?_, fun hf hh q hs hb => ?_, fun hf hh hs he => ?_⟩
    · exact arrives hf (Engine.arrive_otherPart hs ((s.eng.takenOff_partOf k l _).trans_ne hh))
    · exact arrives hf (Engine.arrive_outOfService (served hh) ((s.eng.takenOff_proxyAt k l x).trans hq) (hstate.trans_ne hs))
    · exact arrives hf (Engine.arrive_proxy (served hh) (Engine.proxyAt_covered (hstate.trans hs) hb))
    · have ha : e.arrive s.now x = e.accepted x :=
        Engine.arrive_accepted (served (.inr hh)) (hstate.trans hs) (he.trans (congrArg Part.epoch (s.eng.takenOff_part k l _).symm))
      exact ⟨fun m bs hb => arrives hf (ha.trans (Engine.accepted_msg hb)), fun f hb => arrives hf (ha.trans (Engine.accepted_fold hb))⟩
  case combine =>
    exact ⟨fun hc hw => onUnit_eq (f := foldCombine r i j) hr (foldCombine_fits hi hj hf hg hne hc hw),
      fun hc hw => onUnit_eq (f := foldCombine r i j) hr (foldCombine_overflows hi hj hf hg hne hc hw),
      fun hc => onUnit_same (f := foldCombine r i j) hr (foldCombine_unlike hi hj hf hg hc)⟩
  case receive =>
    exact ⟨fun hn => onUnit_eq (f := foldReceive u) hu (foldReceive_unexpected hf hn),
      fun x hn hx => onUnit_eq (f := foldReceive u) hu (foldReceive_residue hf hn hx), fun hn hr hs => foldReceive_adds_result hu hf hn hr hs⟩
  case proxy =>
    exact ⟨fun hs => ⟨fun k hk => exec_proxyRead_kvSlot hu hv hk (proxyRead_covered hs),
        fun k hk => exec_proxyRead_nvPage hu hv hk (proxyRead_covered hs)⟩,
      fun hs k hk => exec_proxyRead_kvSlot hu hv hk (proxyRead_active hs),
      fun hc ha k hk => exec_proxyRead_kvSlot hu hv hk (proxyRead_outOfService hc ha)⟩
  case chain =>
    exact ⟨fun ha => exec_recoveryChainPage hu (chainPageStep_otherSite hc ha),
      fun ha hl => exec_recoveryChainPage hu (chainPageStep_forwards hc ha hl),
      fun pg ha hl hp => exec_recoveryChainPage hu (chainPageStep_delivers hc ha hl hp),
      fun ha hl hp => exec_recoveryChainPage hu (chainPageStep_undelivered hc ha hl hp)⟩

end Sys2Proof.Machine
end

section
/-!
PROOFS. Hem credit and faulty links: reservations, their return, and the refill of both tables (R225, R226, R229), express stops (R500) and
lanes of the bridge (R224).
-/
namespace Sys2Proof.Machine

open Sys2Proof.Safety

/-! ### Decks and credit tables -/

@[simp] theorem withEng_eng (s : State) (e : Engine) : (withEng s e).eng = e := rfl

@[simp] theorem Engine.modTile_deck (e : Engine) (u : Loc) (f : Tile → Tile) (d : Nat) : (e.modTile u f).deck d = e.deck d := rfl

@[simp] theorem Engine.modDeck_tile (e : Engine) (d : Nat) (f : Deck → Deck) (u : Loc) : (e.modDeck d f).tile u = e.tile u := rfl

theorem Engine.tile_modTile (e : Engine) (u v : Loc) (f : Tile → Tile) :
    (e.modTile u f).tile v = if locKey v = locKey u then f (e.tile u) else e.tile v := mget_mmod ..

theorem Engine.deck_modDeck (e : Engine) (i j : Nat) (f : Deck → Deck) : (e.modDeck i f).deck j = if j = i then f (e.deck i) else e.deck j :=
  mget_mmod ..

/-- An entry of one of a deck's two tables after an entry has been written. -/
theorem Deck.hem_setHem (d : Deck) (table table' n m : Nat) (c : HemCr) : (d.setHem table n c).hem table' m =
    if m = n ∧ (table' = 0 ↔ table = 0) then c else d.hem table' m := by
  by_cases h : table = 0 <;> by_cases h' : table' = 0 <;> simp [Deck.setHem, Deck.hem, h, h', mget_mset]

theorem Deck.hem_setHem_same (d : Deck) (table n : Nat) (c : HemCr) : (d.setHem table n c).hem table n = c := by simp [Deck.hem_setHem]

/-! ### HEM_RESERVATION (R225, R229) -/

section Reserve
variable {e : Engine} {u : Loc} {d p flits now : Nat} {z : Bool} (hp : e.partOf u.field = some p)
include hp

theorem hemReserve_holds (hn : min flits 64 ≤ ((e.deck d).hem (bnat z) p).outBucket) : hemReserve u d z flits now e =
    (e.modDeck d (fun x => x.setHem (bnat z) p
      { (e.deck d).hem (bnat z) p with outBucket := ((e.deck d).hem (bnat z) p).outBucket - min flits 64 })).modTile u
        (fun ti => { ti with hemBal := mmod (fun _ => 0) (2 * d + bnat z) (· + min flits 64) ti.hemBal, hemLast := now }) := by
  rw [hemReserve, hp]
  exact if_pos hn

theorem hemReserve_waits (hn : ((e.deck d).hem (bnat z) p).outBucket < min flits 64) : hemReserve u d z flits now e =
    e.modDeck d (fun x => if now < x.waitAt then x else { x.fabCount 3 1 with waitAt := now + 1 }) := by
  rw [hemReserve, hp]
  exact if_neg (Nat.not_le.mpr hn)

end Reserve

/-- A count of a table raised. -/
theorem mget_mmod_add (k m n : Nat) (l : AMap Nat) :
    mget (fun _ => 0) m (mmod (fun _ => 0) k (· + n) l) = mget (fun _ => 0) m l + if m = k then n else 0 := by
  rw [mget_mmod]
  split
  · next h => rw [h]
  · rfl

theorem hemReservation_result {s : State} {u : Loc} {d p flits : Nat} {z : Bool} (hu : locOk u = true) (hd : d < 2)
    (hp : s.eng.partOf u.field = some p) (hn : min flits 64 ≤ ((s.eng.deck d).hem (bnat z) p).outBucket) :
    let n := min flits 64
    let c := (s.eng.deck d).hem (bnat z) p
    ∃ t, exec (.hemReservation u d z flits) s = .next t ∧
      t = withEng s { s.eng with decks := t.eng.decks, tiles := t.eng.tiles } ∧
      (∀ k, t.eng.deck k = if k = d then (s.eng.deck d).setHem (bnat z) p { c with outBucket := c.outBucket - n } else s.eng.deck k) ∧
      ((t.eng.deck d).hem (bnat z) p) = { c with outBucket := c.outBucket - n } ∧
      (∀ v, locKey v ≠ locKey u → t.eng.tile v = s.eng.tile v) ∧
      { t.eng.tile u with hemBal := (s.eng.tile u).hemBal, hemLast := (s.eng.tile u).hemLast } = s.eng.tile u ∧
      (∀ m, mget (fun _ => 0) m (t.eng.tile u).hemBal = mget (fun _ => 0) m (s.eng.tile u).hemBal + (if m = 2 * d + bnat z then n else 0)) ∧
      (t.eng.tile u).hemLast = s.now := by
  intro n c
  refine ⟨_, onUnit_eq (f := hemReserve u d z flits) (by simp [hu, hd]) (hemReserve_holds hp hn), rfl, ?_⟩
  simp only [withEng_eng, Engine.modTile_deck, Engine.modDeck_deck, Engine.modTile_tile, Engine.modDeck_tile, true_and, and_true]
  exact ⟨fun k => Engine.deck_modDeck .., Deck.hem_setHem_same .., fun v hv => Engine.modTile_tile_ne _ _ _ _ hv, fun m => mget_mmod_add ..⟩

/-! ### HEM_RESERVATION_RETURN (R226) -/

/-- What a tile holds of one bucket given back, up to BURST. -/
def Deck.giveBack (d : Deck) (table p n : Nat) : Deck :=
  d.setHem table p { d.hem table p with outBucket := min (d.hem table p).burst ((d.hem table p).outBucket + n) }

/-- All that a tile holds given back, by deck and table. -/
def Engine.giveBackAll (e : Engine) (p : Nat) (l : AMap Nat) : Engine :=
  l.foldl (fun e x => e.modDeck (x.1 / 2) (fun d => d.giveBack (x.1 % 2) p x.2)) e

theorem Engine.giveBackAll_frame (p : Nat) (l : AMap Nat) (e : Engine) : e.giveBackAll p l = { e with decks := (e.giveBackAll p l).decks } := by
  induction l generalizing e with
  | nil => rfl
  | cons x r ih => exact ih (e.modDeck _ _)

section Return
variable {e : Engine} {u : Loc} {p now : Nat} (hp : e.partOf u.field = some p)
include hp

theorem hemReturn_early (h : now < (e.tile u).hemLast + 16) : hemReturn u now e = e := by
  rw [hemReturn, hp]
  exact if_pos h

theorem hemReturn_due (h : (e.tile u).hemLast + 16 ≤ now) : hemReturn u now e =
    (e.giveBackAll p (e.tile u).hemBal).modTile u (fun ti => { ti with hemBal := [] }) := by
  rw [hemReturn, hp]
  exact if_neg (Nat.not_lt.mpr h)

end Return

theorem hemReservationReturn_result {s : State} {u : Loc} {p : Nat} (hu : locOk u = true) (hp : s.eng.partOf u.field = some p)
    (h : (s.eng.tile u).hemLast + 16 ≤ s.now) : ∃ t, exec (.hemReservationReturn u) s = .next t ∧
      t = withEng s { s.eng with decks := t.eng.decks, tiles := t.eng.tiles } ∧
      (∀ v, t.eng.tile v = if locKey v = locKey u then { s.eng.tile u with hemBal := [] } else s.eng.tile v) ∧
      ((s.eng.tile u).hemBal = [] → ∀ k, t.eng.deck k = s.eng.deck k) ∧
      ∀ k n, (s.eng.tile u).hemBal = [(k, n)] → k < 4 →
        (∀ d, d ≠ k / 2 → t.eng.deck d = s.eng.deck d) ∧
        t.eng.deck (k / 2) = (s.eng.deck (k / 2)).setHem (k % 2) p ((t.eng.deck (k / 2)).hem (k % 2) p) ∧
        (t.eng.deck (k / 2)).hem (k % 2) p = { (s.eng.deck (k / 2)).hem (k % 2) p with
          outBucket := min ((s.eng.deck (k / 2)).hem (k % 2) p).burst (((s.eng.deck (k / 2)).hem (k % 2) p).outBucket + n) } := by
  refine ⟨_, onUnit_eq (f := hemReturn u) hu (hemReturn_due hp h), ?_, fun v => ?_, fun hb k => ?_, fun k n hb _ => ?_⟩
  · rw [Engine.giveBackAll_frame]; rfl
  · rw [Engine.giveBackAll_frame]
    exact Engine.tile_modTile ..
  · rw [hb]; rfl
  · rw [hb, withEng_eng]
    simp only [Engine.modTile_deck]
    have hk : (s.eng.giveBackAll p [(k, n)]).deck (k / 2) = (s.eng.deck (k / 2)).giveBack (k % 2) p n := s.eng.modDeck_deck (k / 2) _
    have hm : ((s.eng.giveBackAll p [(k, n)]).deck (k / 2)).hem (k % 2) p = { (s.eng.deck (k / 2)).hem (k % 2) p with
        outBucket := min ((s.eng.deck (k / 2)).hem (k % 2) p).burst (((s.eng.deck (k / 2)).hem (k % 2) p).outBucket + n) } := by
      rw [hk]; exact Deck.hem_setHem_same ..
    exact ⟨fun d hd => s.eng.modDeck_deck_ne _ _ d hd, hk.trans (congrArg _ hm.symm), hm⟩

/-! ### HEM_BUCKET_REFILL (R226) -/

/-- Entry n of both tables refilled. -/
def Deck.refillEntry (d : Deck) (n : Nat) : Deck := (d.setHem 0 n (d.hem 0 n).refill).setHem 1 n (d.hem 1 n).refill

/-- Every table number but 0 names the Zarog table. -/
theorem Deck.hem_table (d : Deck) {table : Nat} (h : table ≠ 0) (n : Nat) : d.hem table n = d.hem 1 n := by simp [Deck.hem, h]

theorem Deck.hem_refillEntry (d : Deck) (n m table : Nat) :
    (d.refillEntry n).hem table m = if m = n then (d.hem table n).refill else d.hem table m := by
  by_cases ht : table = 0 <;> by_cases hm : m = n <;> simp [Deck.refillEntry, Deck.hem_setHem, Deck.hem_table, ht, hm]

theorem Deck.hem_refillEntries (d : Deck) (k m table : Nat) :
    ((List.range k).foldl Deck.refillEntry d).hem table m = if m < k then (d.hem table m).refill else d.hem table m := by
  induction k generalizing m with
  | zero => rfl
  | succ k ih =>
    rw [List.range_succ, List.foldl_append, List.foldl_cons, List.foldl_nil, Deck.hem_refillEntry, ih, ih]
    by_cases h : m = k
    · simp [h]
    · simp [h, show m < k + 1 ↔ m < k by omega]

theorem Deck.refillEntries_frame (l : List Nat) (d : Deck) : ∃ a b, l.foldl Deck.refillEntry d = { d with hostCr := a, zarogCr := b } := by
  induction l generalizing d with
  | nil => exact ⟨_, _, rfl⟩
  | cons n r ih =>
    obtain ⟨a, b, h⟩ := ih (d.refillEntry n)
    exact ⟨a, b, h⟩

section Refill
variable {d : Deck} {now : Nat}

theorem Deck.refill_early (h : now < d.fillAt) : d.refill now = d := if_pos h

theorem Deck.refill_due (h : d.fillAt ≤ now) : d.refill now = (List.range 33).foldl Deck.refillEntry { d with fillAt := now + 1 } :=
  if_neg (Nat.not_lt.mpr h)

theorem Deck.refill_frame (d : Deck) (now : Nat) :
    { d.refill now with hostCr := d.hostCr, zarogCr := d.zarogCr, fillAt := d.fillAt } = d := by
  by_cases h : now < d.fillAt
  · rw [Deck.refill_early h]
  · obtain ⟨a, b, hr⟩ := Deck.refillEntries_frame (List.range 33) { d with fillAt := now + 1 }
    rw [Deck.refill_due (Nat.not_lt.mp h), hr]

theorem Deck.fillAt_refill (h : d.fillAt ≤ now) : (d.refill now).fillAt = now + 1 := by
  obtain ⟨a, b, hr⟩ := Deck.refillEntries_frame (List.range 33) { d with fillAt := now + 1 }
  rw [Deck.refill_due h, hr]

theorem Deck.hem_refill (h : d.fillAt ≤ now) {n : Nat} (hn : n < 33) (table : Nat) : (d.refill now).hem table n = (d.hem table n).refill := by
  rw [Deck.refill_due h, Deck.hem_refillEntries, if_pos hn]
  rfl

end Refill

/-- Both decks of an engine changed by the same function. -/
theorem Engine.deck_modBoth (e : Engine) (f : Deck → Deck) {d : Nat} (hd : d < 2) : ((e.modDeck 0 f).modDeck 1 f).deck d = f (e.deck d) := by
  obtain rfl | rfl : d = 0 ∨ d = 1 := by omega
  · exact (Engine.modDeck_deck_ne _ _ _ _ Nat.zero_ne_one).trans (Engine.modDeck_deck ..)
  · exact (Engine.modDeck_deck ..).trans (congrArg f (Engine.modDeck_deck_ne _ _ _ _ Nat.one_ne_zero))

theorem hemBucketRefill_result (s : State) : ∃ t, exec .hemBucketRefill s = .next t ∧ t = withEng s { s.eng with decks := t.eng.decks } ∧
    ∀ d < 2,
      { t.eng.deck d with hostCr := (s.eng.deck d).hostCr, zarogCr := (s.eng.deck d).zarogCr, fillAt := (s.eng.deck d).fillAt } = s.eng.deck d ∧
      (s.now < (s.eng.deck d).fillAt → t.eng.deck d = s.eng.deck d) ∧
      ((s.eng.deck d).fillAt ≤ s.now → (t.eng.deck d).fillAt = s.now + 1 ∧ ∀ n < 33, ∀ table < 2, ((t.eng.deck d).hem table n) =
        { (s.eng.deck d).hem table n with
          inBucket := min ((s.eng.deck d).hem table n).burst (((s.eng.deck d).hem table n).inBucket + ((s.eng.deck d).hem table n).inRate)
          outBucket := min ((s.eng.deck d).hem table n).burst (((s.eng.deck d).hem table n).outBucket + ((s.eng.deck d).hem table n).outRate) }) := by
  refine ⟨_, onEng_eq (f := fun now e => (e.modDeck 0 (·.refill now)).modDeck 1 (·.refill now)) rfl, rfl, fun d hd => ?_⟩
  have hr : (withEng s ((s.eng.modDeck 0 (·.refill s.now)).modDeck 1 (·.refill s.now))).eng.deck d = (s.eng.deck d).refill s.now :=
    s.eng.deck_modBoth _ hd
  rw [hr]
  exact ⟨Deck.refill_frame _ _, Deck.refill_early, fun h => ⟨Deck.fillAt_refill h, fun n hn table _ => Deck.hem_refill h hn table⟩⟩

/-! ### What a ledger event leaves as it is -/

/-- The tiles, the fields and the partitions are as they were. -/
structure Engine.SamePlant (e t : Engine) : Prop where
  tiles : t.tiles = e.tiles
  fields : t.fields = e.fields
  parts : t.parts = e.parts

section SamePlant
variable {e t : Engine}

theorem Engine.SamePlant.refl (e : Engine) : e.SamePlant e := ⟨rfl, rfl, rfl⟩

theorem Engine.SamePlant.field (k : e.SamePlant t) (g : Nat) : t.field g = e.field g := by rw [Engine.field, k.fields, Engine.field]

theorem Engine.SamePlant.ite {c : Prop} [Decidable c] {a b : Engine} (ha : e.SamePlant a) (hb : e.SamePlant b) :
    e.SamePlant (if c then a else b) := by
  split
  · exact ha
  · exact hb

theorem Engine.SamePlant.foldl {α : Type} {f : Engine → α → Engine} {l : List α} (hf : ∀ t x, e.SamePlant t → e.SamePlant (f t x))
    (k : e.SamePlant t) : e.SamePlant (l.foldl f t) := List.foldlRecOn l f k fun t k x _ => hf t x k

theorem Engine.SamePlant.modDeck {d f} (k : e.SamePlant t) : e.SamePlant (t.modDeck d f) := ⟨k.tiles, k.fields, k.parts⟩

theorem Engine.SamePlant.msix {f v} (k : e.SamePlant t) : e.SamePlant (t.msix f v) :=
  .ite ⟨k.tiles, k.fields, k.parts⟩ ⟨k.tiles, k.fields, k.parts⟩

theorem Engine.SamePlant.journal {d x} (k : e.SamePlant t) : e.SamePlant (t.journal d x) := .ite k.modDeck ⟨k.tiles, k.fields, k.parts⟩

theorem Engine.SamePlant.ledgerVector {d} (k : e.SamePlant t) : e.SamePlant (t.ledgerVector d) := .foldl (fun _ _ k => .msix k) k

theorem Engine.SamePlant.event {now d x} (k : e.SamePlant t) : e.SamePlant (t.event now d x) :=
  have hs : e.SamePlant _ := .ite (.journal k.modDeck) k.modDeck
  .ite (.ledgerVector hs) hs

end SamePlant

/-! ### XSTOP_DISABLED (R500) -/

theorem Engine.disableStop_plant (e : Engine) (now f c n : Nat) :
    (e.modField f (fun x => { x with xstop := x.xstop ||| 2 ^ c })).SamePlant (e.disableStop now f c n) := .event (.refl _)

theorem Engine.testBit_disableStop (e : Engine) (now f c n g k : Nat) : ((e.disableStop now f c n).field g).xstop.testBit k = true ↔
    ((e.field g).xstop.testBit k = true ∨ (f = g ∧ c = k)) := by
  have h : (e.disableStop now f c n).field g = (e.modField f (fun x => { x with xstop := x.xstop ||| 2 ^ c })).field g :=
    (e.disableStop_plant now f c n).field g
  rw [h]
  by_cases hg : g = f
  · subst hg
    simp [Nat.testBit_two_pow]
  · rw [Engine.modField_field_ne _ _ _ _ hg]
    simp [Ne.symm hg]

/-- Every faulty stop of a list disabled. -/
def Engine.disableAll (e : Engine) (now : Nat) (l : List (Nat × Nat × Nat)) : Engine := l.foldl (fun e x => e.disableStop now x.1 x.2.1 x.2.2) e

theorem Engine.testBit_disableAll (now g k : Nat) (l : List (Nat × Nat × Nat)) (e : Engine) :
    ((e.disableAll now l).field g).xstop.testBit k = true ↔ ((e.field g).xstop.testBit k = true ∨ ∃ x ∈ l, x.1 = g ∧ x.2.1 = k) := by
  induction l generalizing e with
  | nil => simp [Engine.disableAll]
  | cons x r ih =>
    refine (ih _).trans ?_
    rw [Engine.testBit_disableStop, List.exists_mem_cons_iff, or_assoc]

theorem Engine.disableAll_frame (now : Nat) (l : List (Nat × Nat × Nat)) (e : Engine) :
    (e.disableAll now l).tiles = e.tiles ∧ (e.disableAll now l).parts = e.parts := by
  induction l generalizing e with
  | nil => exact ⟨rfl, rfl⟩
  | cons x r ih =>
    have h := e.disableStop_plant now x.1 x.2.1 x.2.2
    obtain ⟨ht, hp⟩ := ih (e.disableStop now x.1 x.2.1 x.2.2)
    exact ⟨ht.trans h.tiles, hp.trans h.parts⟩

theorem Engine.disableStops_rest {e : Engine} (now : Nat) (h : ∀ k < 32, (e.part k).atRest = true) :
    e.disableStops now = { e.disableAll now e.xstopDue with xstopDue := [] } :=
  if_pos (by simpa using h)

/-- A step with a hardware fault still runs. -/
theorem Engine.stepFault_atRest (e : Engine) (p k : Nat) : ((e.stepFault p).part k).atRest = (e.part k).atRest := by
  by_cases h : k = p
  · subst h
    rw [Engine.stepFault, Engine.modPart_part]
    cases hs : (e.part k).step <;> simp [Part.atRest, hs]
  · rw [Engine.stepFault, Engine.modPart_part_ne _ _ _ _ h]

theorem Engine.partOf_lt {e : Engine} {f p : Nat} (h : e.partOf f = some p) : p < 32 := List.mem_range.mp (List.mem_of_find?_eq_some h)

section Xstop
variable {e : Engine} {f c now : Nat} {b : Bool}

/-- The stop is disabled already, or waits for it. -/
def Engine.stopKnown (e : Engine) (f c : Nat) : Prop := (e.field f).xstop.testBit c = true ∨ ∃ x ∈ e.xstopDue, x.1 = f ∧ x.2.1 = c

theorem Engine.stopKnown_iff : ((e.field f).xstop.testBit c || e.xstopDue.any (fun x => x.1 == f && x.2.1 == c)) = true ↔ e.stopKnown f c := by
  simp [Engine.stopKnown]

/-- A stop found faulty waits until it can be disabled. -/
def Engine.oweStop (e : Engine) (f c : Nat) (b : Bool) : Engine := { e with xstopDue := e.xstopDue ++ [(f, c, bnat b)] }

/-- The step that a field's partition runs has a hardware fault (R113). -/
def Engine.faultRunning (e : Engine) (f : Nat) : Engine :=
  match e.partOf f with
  | some p => if (e.part p).atRest then e else e.stepFault p
  | none => e

theorem Engine.faultRunning_running {p : Nat} (hp : e.partOf f = some p) (hr : (e.part p).atRest = false) : e.faultRunning f = e.stepFault p := by
  rw [Engine.faultRunning, hp]
  exact if_neg (by simp [hr])

theorem Engine.faultRunning_resting (h : ∀ p, e.partOf f = some p → (e.part p).atRest = true) : e.faultRunning f = e := by
  unfold Engine.faultRunning
  split
  · next p hp => exact if_pos (h p hp)
  · rfl

theorem xstopDisabled_known (h : e.stopKnown f c) : xstopDisabled f c b now e = e := if_pos (Engine.stopKnown_iff.mpr h)

theorem xstopDisabled_unknown (h : ¬ e.stopKnown f c) : xstopDisabled f c b now e = ((e.oweStop f c b).faultRunning f).disableStops now :=
  if_neg (mt Engine.stopKnown_iff.mp h)

end Xstop

section ExecXstop
variable {s : State} {f c : Nat} {b : Bool} (hf : f < 96) (hc : c < 36)
include hf hc

theorem exec_xstopDisabled {e : Engine} (h : xstopDisabled f c b s.now s.eng = e) : exec (.xstopDisabled f c b) s = .next (withEng s e) :=
  onUnit_eq (f := xstopDisabled f c b) (by simp [hf, hc]) h

variable (hk : ¬ s.eng.stopKnown f c)
include hk

/-- The running step of the field's partition has a hardware fault; the stop itself waits for the steps' ends. -/
theorem exec_xstopDisabled_running {p : Nat} (hp : s.eng.partOf f = some p) (hr : (s.eng.part p).atRest = false) :
    exec (.xstopDisabled f c b) s = .next (withEng s ((s.eng.oweStop f c b).stepFault p)) := by
  refine exec_xstopDisabled hf hc ((xstopDisabled_unknown hk).trans ?_)
  rw [Engine.faultRunning_running (e := s.eng.oweStop f c b) hp hr]
  exact disableStops_busy ⟨p, Engine.partOf_lt hp, (Engine.stepFault_atRest ..).trans hr⟩

theorem exec_xstopDisabled_otherRuns (hb : ∃ k < 32, (s.eng.part k).atRest = false)
    (hr : ∀ p, s.eng.partOf f = some p → (s.eng.part p).atRest = true) :
    exec (.xstopDisabled f c b) s = .next (withEng s (s.eng.oweStop f c b)) := by
  refine exec_xstopDisabled hf hc ((xstopDisabled_unknown hk).trans ?_)
  rw [Engine.faultRunning_resting (e := s.eng.oweStop f c b) hr]
  exact disableStops_busy hb

/-- With every partition at a step boundary, the stop and those that wait are disabled, and no other. -/
theorem xstopDisabled_rest_result (hr : ∀ k < 32, (s.eng.part k).atRest = true) :
    let e := s.eng.oweStop f c b
    ∃ t, exec (.xstopDisabled f c b) s = .next t ∧
      t = withEng s { e.xstopDue.foldl (fun e x => e.disableStop s.now x.1 x.2.1 x.2.2) e with xstopDue := [] } ∧
      (t.eng.field f).xstop.testBit c = true ∧ t.eng.tiles = s.eng.tiles ∧ t.eng.parts = s.eng.parts ∧
      ∀ k, k ≠ c → (∀ x ∈ s.eng.xstopDue, x.1 = f → x.2.1 ≠ k) → (t.eng.field f).xstop.testBit k = (s.eng.field f).xstop.testBit k := by
  intro e
  have hx : xstopDisabled f c b s.now s.eng = { e.disableAll s.now e.xstopDue with xstopDue := [] } := by
    rw [xstopDisabled_unknown hk, Engine.faultRunning_resting (e := s.eng.oweStop f c b) fun p hp => hr p (Engine.partOf_lt hp)]
    exact Engine.disableStops_rest s.now hr
  have bit (k : Nat) : ((e.disableAll s.now e.xstopDue).field f).xstop.testBit k = true ↔
      ((s.eng.field f).xstop.testBit k = true ∨ ∃ x ∈ s.eng.xstopDue ++ [(f, c, bnat b)], x.1 = f ∧ x.2.1 = k) :=
    Engine.testBit_disableAll s.now f k _ e
  obtain ⟨ht, hp⟩ := Engine.disableAll_frame s.now e.xstopDue e
  refine ⟨_, exec_xstopDisabled hf hc hx, rfl, (bit c).mpr (.inr ⟨(f, c, bnat b), by simp, rfl, rfl⟩), ht, hp, fun k hne hd => ?_⟩
  rw [Bool.eq_iff_iff]
  refine (bit k).trans (or_iff_left ?_)
  rintro ⟨x, hx, h1, h2⟩
  rcases List.mem_append.mp hx with hx | hx
  · exact hd x hx h1 h2
  · rw [List.mem_singleton.mp hx] at h2
    exact hne h2.symm

end ExecXstop

/-! ### BRIDGE_LANE_DISABLED (R224) -/

theorem mem_insertOnce (l k : Nat) (r : List Nat) : k ∈ insertOnce l r ↔ k = l ∨ k ∈ r := by
  induction r with
  | nil => simp [insertOnce]
  | cons x r ih =>
    unfold insertOnce
    split
    · simp
    · split
      · next h => simp [h]
      · rw [List.mem_cons, ih, List.mem_cons]
        tauto

theorem bridgeLaneDisabled_result (s : State) {l : Nat} (hl : l < 36) : ∃ t, exec (.bridgeLaneDisabled l) s = .next t ∧
    t = withEng s { s.eng with decks := t.eng.decks } ∧
    ∀ d < 2, { t.eng.deck d with lanes := (s.eng.deck d).lanes } = s.eng.deck d ∧ l ∈ (t.eng.deck d).lanes ∧
      ∀ k, k ≠ l → (k ∈ (t.eng.deck d).lanes ↔ k ∈ (s.eng.deck d).lanes) := by
  refine ⟨_, onUnit_of (f := fun _ => laneDisabled l) (decide_eq_true hl), rfl, fun d hd => ?_⟩
  have h : (laneDisabled l s.eng).deck d = { s.eng.deck d with lanes := insertOnce l (s.eng.deck d).lanes } := s.eng.deck_modBoth _ hd
  rw [withEng_eng, h]
  exact ⟨rfl, (mem_insertOnce ..).mpr (.inl rfl), fun k hk => (mem_insertOnce ..).trans (or_iff_right hk)⟩

/-! ### The statement -/

/-- Settles O29: a lemma for each event and for each state of the bucket, the tick or the partitions in which it acts. -/
theorem creditAndLinkResults : Obligations.CreditAndLinkResults := by
  refine ⟨fun s u d p flits z hu hd hp => ⟨hemReservation_result hu hd hp, fun hn => ?_⟩,
    fun s u p hu hp => ⟨fun h => ?_, hemReservationReturn_result hu hp⟩, hemBucketRefill_result, fun s f c b hf hc => ?_,
    fun s l hl => bridgeLaneDisabled_result s hl⟩
  · exact onUnit_eq (f := hemReserve u d z flits) (by simp [hu, hd]) (hemReserve_waits hp hn)
  · exact onUnit_same (f := hemReturn u) hu (hemReturn_early hp h)
  · exact ⟨fun hk => exec_xstopDisabled hf hc (xstopDisabled_known hk), fun hk =>
      ⟨fun hb => ⟨fun p => exec_xstopDisabled_running hf hc hk, exec_xstopDisabled_otherRuns hf hc hk hb⟩, xstopDisabled_rest_result hf hc hk⟩⟩

end Sys2Proof.Machine
end

section
/-!
PROOFS. Partition commands: pause, resume and reset (R315, R457), tenants (R302), hem credit (R225, R227), reserve regions (R262) and mode
epochs at their coordinator (R372).
-/
namespace Sys2Proof.Machine

open Sys2Proof.Safety

/-! ### PART_PAUSE and PART_RESUME (R315) -/

section PauseResume
variable {e : Engine} {h : Hdr} {acc : Bool} {now : Nat}

theorem runPartPause_active (hs : (e.part h.part).state = .idle ∨ (e.part h.part).state = .stepping ∨ (e.part h.part).state = .held) :
    runPartPause h acc now e = (e.pausePart h.part now .host).okReply now h := by
  rcases hs with hs | hs | hs <;> rw [runPartPause, hs]

theorem runPartPause_paused (hs : (e.part h.part).state = .paused) : runPartPause h acc now e = e.okReply now h := by rw [runPartPause, hs]

theorem runPartPause_unbound (hs : (e.part h.part).state = .free ∨ (e.part h.part).state = .rebinding) :
    runPartPause h acc now e = e.reply now h .partState (partCode (e.part h.part).state) := by
  rcases hs with hs | hs <;> rw [runPartPause, hs, Engine.badPart, hs]

theorem runPartResume_refused {c : Status} {d : Nat} (hr : e.resumeRefused h.part = some (c, d)) :
    runPartResume h acc now e = e.reply now h c d := by rw [runPartResume, hr]

variable (hr : e.resumeRefused h.part = none)
include hr

theorem runPartResume_paused (hs : (e.part h.part).state = .paused) : runPartResume h acc now e =
    ((e.resumeAll h.part).modPart h.part (fun q => { q with state := .idle, causes := [] })).okReply now h := by
  rw [runPartResume, hr]
  exact if_pos hs

theorem runPartResume_running (hs : (e.part h.part).state ≠ .paused) : runPartResume h acc now e = e.okReply now h := by
  rw [runPartResume, hr]
  exact if_neg hs

end PauseResume

/-! ### HEM_SET (R225, R227) -/

section HemSet
variable {e : Engine} {h : Hdr} {acc : Bool} {now deck table entry i o b : Nat}

/-- What the other entries of a table leave of the segment's capacity. -/
def Engine.hemLeft (e : Engine) (deck table entry : Nat) (g : HemCr → Nat) : Nat := hemCapacity table - (e.deck deck).hemSum table entry g

theorem runHemSet_noInRate (hi : e.hemLeft deck table entry HemCr.inRate < i) : runHemSet deck table entry i o b h acc now e =
    e.reply now h .hemCapacity (e.hemLeft deck table entry HemCr.inRate) := if_pos hi

variable (hi : i ≤ e.hemLeft deck table entry HemCr.inRate)
include hi

theorem runHemSet_noOutRate (ho : e.hemLeft deck table entry HemCr.outRate < o) : runHemSet deck table entry i o b h acc now e =
    e.reply now h .hemCapacity (e.hemLeft deck table entry HemCr.outRate) := (if_neg (Nat.not_lt.mpr hi)).trans (if_pos ho)

theorem runHemSet_sets (ho : o ≤ e.hemLeft deck table entry HemCr.outRate) : runHemSet deck table entry i o b h acc now e =
    (e.modDeck deck (fun d => d.setHem table entry { d.hem table entry with inRate := i, outRate := o, burst := b })).okReply now h :=
  (if_neg (Nat.not_lt.mpr hi)).trans (if_neg (Nat.not_lt.mpr ho))

end HemSet

/-! ### KV_RESERVE (R201, R262) -/

theorem foldl_max_eq_zero {α : Type} (f : α → Nat) (l : List α) (m : Nat) :
    l.foldl (fun m x => max m (f x)) m = 0 ↔ m = 0 ∧ ∀ x ∈ l, f x = 0 := by
  induction l generalizing m with
  | nil => simp
  | cons x r ih =>
    rw [List.foldl_cons, ih, List.forall_mem_cons, Nat.max_eq_zero_iff, and_assoc]

/-- Most slots by which some tile of a partition falls short of what a cache needs on each. -/
def Engine.kvLack (e : Engine) (p cache : Nat) : Nat :=
  max (e.slotDeficit (e.partTiles p) (fun _ => cache)) ((e.partTiles p).foldl (fun m t => max m (cache - (e.tile t).freeSlots.length)) 0)

/-- The cache fits on every tile of the partition. -/
def Engine.kvFits (e : Engine) (p cache : Nat) : Prop :=
  ∀ t ∈ e.partTiles p, 512 + cache ≤ (e.tile t).openSlots ∧ cache ≤ (e.tile t).freeSlots.length

theorem Engine.kvLack_eq_zero (e : Engine) (p cache : Nat) : e.kvLack p cache = 0 ↔ e.kvFits p cache := by
  rw [Engine.kvLack, Nat.max_eq_zero_iff, Engine.slotDeficit, foldl_max_eq_zero, foldl_max_eq_zero]
  simp only [true_and, Nat.sub_eq_zero_iff_le, Engine.kvFits, ← forall_and]

section KvReserve
variable {e : Engine} {h : Hdr} {acc : Bool} {now addr bytes cache low : Nat}

theorem runKvReserve_spilled (hu : (e.part h.part).kvUsed ≠ []) : runKvReserve addr bytes cache low h acc now e =
    e.reply now h .partState (partCode (e.part h.part).state) := if_pos (by simpa using hu)

variable (hu : (e.part h.part).kvUsed = [])
include hu

theorem runKvReserve_givenUp (hb : bytes = 0) : runKvReserve addr bytes cache low h acc now e = (e.dropReserve h.part).okReply now h :=
  (if_neg (by simp [hu])).trans (if_pos hb)

variable (hb : bytes ≠ 0)
include hb

theorem runKvReserve_unfit (hf : ¬ (e.dropReserve h.part).kvFits h.part cache) : runKvReserve addr bytes cache low h acc now e =
    e.reply now h .kvSlots ((e.dropReserve h.part).kvLack h.part cache) :=
  (if_neg (by simp [hu])).trans ((if_neg hb).trans (if_pos (mt (Engine.kvLack_eq_zero ..).mp hf)))

theorem runKvReserve_registers (hf : (e.dropReserve h.part).kvFits h.part cache) : runKvReserve addr bytes cache low h acc now e =
    (let e1 := e.dropReserve h.part
     (if cache = 0 then e1
      else (e1.partTiles h.part).foldl (fun e t => e.modTile t (fun ti => ti.takeSlots cache (.kvcache h.part noPage 0))) e1).modPart h.part
        (fun q => { q with kvRegion := some (addr, bytes, h.fn), kvLow := low })).okReply now h :=
  (if_neg (by simp [hu])).trans ((if_neg hb).trans (if_neg (not_not.mpr ((Engine.kvLack_eq_zero ..).mpr hf))))

end KvReserve

/-! ### PART_MODE (R372) -/

section PartMode
variable {e : Engine} {h : Hdr} {now mask bits retr cap : Nat}

/-- A mode epoch of the partition has been prepared, or is not decided yet. -/
def Part.inEpoch (q : Part) : Prop := q.prepared.isSome = true ∨ ∃ c, q.coord = some c ∧ c.decision = none

theorem Part.inEpoch_iff (q : Part) : (q.prepared.isSome || q.coord.any (fun c => c.decision.isNone)) = true ↔ q.inEpoch := by
  simp [Part.inEpoch, Option.any_eq_true]

/-- The partition is FREE or REBINDING (Table 10.7). -/
abbrev Part.unbound (q : Part) : Prop := q.state = .free ∨ q.state = .rebinding

/-- The tick at which a mode change takes effect: the command's, or the earliest that every participant can be told (R372, R376). -/
def Engine.modeTick (e : Engine) (now tick p : Nat) : Nat := max tick (now + leadOf (e.announce [p]))

theorem Engine.lt_modeTick (e : Engine) (now tick p : Nat) : now < e.modeTick now tick p :=
  lt_max_of_lt_right (by unfold leadOf; omega)

/-- The prepare message of a mode change (R372). -/
def Engine.modePrepare (e : Engine) (now tick p : Nat) (new : Modes) : Prepare :=
  { part := p, epoch := ((e.part p).epoch + 1) % 256, what := .modes new, tick := e.modeTick now tick p,
    deadline := e.modeTick now tick p - ceilDiv (e.announce [p]) 10 - 1, coordinator := e.node }

theorem runPartMode_inEpoch {acc : Bool} (hq : (e.part h.part).inEpoch) : runPartMode mask bits retr cap h acc now e =
    e.reply now h .partState (partCode (e.part h.part).state) := if_pos ((Part.inEpoch_iff _).mpr hq)

variable (hq : ¬ (e.part h.part).inEpoch)
include hq

theorem runPartMode_unbound {acc : Bool} (hs : (e.part h.part).unbound) : runPartMode mask bits retr cap h acc now e =
    e.reply now h .timeout e.node := (if_neg (mt (Part.inEpoch_iff _).mp hq)).trans (if_pos hs)

variable (hs : ¬ (e.part h.part).unbound)
include hs

theorem runPartMode_trainsSpan {acc : Bool} (hl : (e.part h.part).spanLast ≠ 0)
    (ht : (changeModes (e.part h.part).modes mask bits retr cap).train = true) : runPartMode mask bits retr cap h acc now e =
      e.reply now h .graphState (graphCode (e.graph (e.part h.part).graph).state) :=
  (if_neg (mt (Part.inEpoch_iff _).mp hq)).trans ((if_neg hs).trans (if_pos ⟨hl, ht⟩))

theorem runPartMode_prepares
    (ht : (e.part h.part).spanLast = 0 ∨ (changeModes (e.part h.part).modes mask bits retr cap).train = false) :
    runPartMode mask bits retr cap h false now e =
      (let new := changeModes (e.part h.part).modes mask bits retr cap
       let t := e.modeTick now h.tick h.part
       let os := e.others h.part
       let m := e.modePrepare now h.tick h.part new
       let e := if now + 100 < t then e.reply now h .accepted 0 else e
       let e := if now < h.tick then e.hold { hd := { h with tick := t }, cmd := .partMode h mask bits retr cap, accepted := true, own := true } else e
       (e.sendPrepare now m os).modPart h.part (fun q =>
         { q with
             prepared := some { msg := m, modes := new, turn := h.turn, decided := if os = [] then some true else none }
             coord := some { msg := m, nodes := os, waiting := os.map (·.1), decision := if os = [] then some true else none,
                             hd := some { h with tick := 0 }, nextSend := now + 100 } })) := by
  have hn : ¬ ((e.part h.part).spanLast ≠ 0 ∧ (changeModes (e.part h.part).modes mask bits retr cap).train = true) := by
    rcases ht with ht | ht <;> simp [ht]
  refine (if_neg (mt (Part.inEpoch_iff _).mp hq)).trans ((if_neg hs).trans ((if_neg hn).trans ?_))
  simp only [cond, decide_eq_true_eq, List.isEmpty_iff]
  rfl

end PartMode

/-! ### The commands through intake -/

section Commands
variable {s : State} {hd : Hdr} {g : Engine → Engine}

theorem exec_partPause (hg : goes s hd (.partPause hd) (partPauseForm hd s.eng) = true)
    (hr : runPartPause (due s hd) false s.now (taken s hd) = g (taken s hd)) : exec (.partPause hd) s = took s hd g :=
  hostCmd_tookAt (f := partPauseForm hd) hg rfl hr

theorem exec_partResume (hg : goes s hd (.partResume hd) (partResumeForm hd s.eng) = true)
    (hr : runPartResume (due s hd) false s.now (taken s hd) = g (taken s hd)) : exec (.partResume hd) s = took s hd g :=
  hostCmd_tookAt (f := partResumeForm hd) hg rfl hr

theorem exec_partReset (hg : goes s hd (.partReset hd) (partResetForm hd s.eng) = true) :
    exec (.partReset hd) s = tookOk s hd (fun e => e.resetPart hd.part s.now) := hostCmd_took (f := partResetForm hd) hg rfl fun _ => rfl

theorem exec_tenantSet {t weight maxReq mask : Nat} {enable : Bool}
    (hg : goes s hd (.tenantSet hd t weight maxReq enable mask) (tenantSetForm t weight maxReq mask s.eng) = true) :
    exec (.tenantSet hd t weight maxReq enable mask) s = tookOk s hd (fun e => e.modTenant t (fun q =>
      { q with
          weight := if mask.testBit 0 then weight else q.weight
          maxReq := if mask.testBit 1 then maxReq else q.maxReq
          enable := if mask.testBit 2 then enable else q.enable })) :=
  hostCmd_took (f := tenantSetForm t weight maxReq mask) hg rfl fun _ => rfl

theorem exec_hemSet {deck table entry i o b : Nat}
    (hg : goes s hd (.hemSet hd deck table entry i o b) (hemSetForm deck table entry i o b s.eng) = true)
    (hr : runHemSet deck table entry i o b (due s hd) false s.now (taken s hd) = g (taken s hd)) :
    exec (.hemSet hd deck table entry i o b) s = took s hd g :=
  hostCmd_tookAt (f := hemSetForm deck table entry i o b) hg rfl hr

theorem exec_kvReserve {addr bytes cache low : Nat}
    (hg : goes s hd (.kvReserve hd addr bytes cache low) (kvReserveForm hd addr bytes cache low s.eng) = true)
    (hr : runKvReserve addr bytes cache low (due s hd) false s.now (taken s hd) = g (taken s hd)) :
    exec (.kvReserve hd addr bytes cache low) s = took s hd g :=
  hostCmd_tookAt (f := kvReserveForm hd addr bytes cache low) hg rfl hr

theorem exec_partMode {mask modes retr cap : Nat}
    (hg : goes s hd (.partMode hd mask modes retr cap) (partModeForm hd mask modes retr cap s.eng) = true)
    (hr : runPartMode mask modes retr cap (placed s hd) false s.now (taken s hd) = g (taken s hd)) :
    exec (.partMode hd mask modes retr cap) s = took s hd g :=
  hostCmd_atIntake_took (f := partModeForm hd mask modes retr cap) hg rfl hr

end Commands

/-! ### The statement -/

/-- Settles O40: for each command the branches of its effect, in the order in which it tests them. -/
theorem partitionCommands : Obligations.PartitionCommands := by
  refine ⟨fun s hd => ⟨fun hg => ?pause, fun hg => ?resume, exec_partReset, fun _ _ _ _ _ => exec_tenantSet⟩, fun s hd => ?_⟩
  case pause =>
    exact ⟨fun hs => exec_partPause hg (runPartPause_active hs), fun hs => exec_partPause hg (runPartPause_paused hs),
      fun hs => exec_partPause hg (runPartPause_unbound hs)⟩
  case resume =>
    exact ⟨fun hr hs => exec_partResume hg (runPartResume_paused hr hs), fun hr hs => exec_partResume hg (runPartResume_running hr hs),
      fun c d hr => exec_partResume hg (runPartResume_refused hr)⟩
  refine ⟨fun deck table entry i o b => ?hem, fun addr bytes cache low hg => ?kv, fun mask modes retr cap hg => ?mode⟩
  case hem =>
    intro left hg
    exact ⟨fun hi => exec_hemSet hg (runHemSet_noInRate hi), fun hi ho => exec_hemSet hg (runHemSet_noOutRate hi ho),
      fun hi ho => exec_hemSet hg (runHemSet_sets hi ho)⟩
  case kv =>
    intro e1 ts fit
    exact ⟨fun hu => exec_kvReserve hg (runKvReserve_spilled hu), fun hu hb => exec_kvReserve hg (runKvReserve_givenUp hu hb),
      fun hu hb hf => exec_kvReserve hg (runKvReserve_registers hu hb hf),
      fun hu hb hf => ⟨e1.kvLack hd.part cache, mt (e1.kvLack_eq_zero hd.part cache).mp hf, exec_kvReserve hg (runKvReserve_unfit hu hb hf)⟩⟩
  case mode =>
    intro q new a t os m h busy
    refine ⟨Engine.lt_modeTick .., fun hq => ?_, fun hq hs => ?_, fun hq hf hr hl ht => ?_, fun hq hf hr ht => ?_⟩
    · exact exec_partMode hg (runPartMode_inEpoch (h := placed s hd) hq)
    · exact exec_partMode hg (runPartMode_unbound (h := placed s hd) hq hs)
    · exact exec_partMode hg (runPartMode_trainsSpan (h := placed s hd) hq (not_or.mpr ⟨hf, hr⟩) hl ht)
    · exact exec_partMode hg (runPartMode_prepares (h := placed s hd) hq (not_or.mpr ⟨hf, hr⟩) ht)

end Sys2Proof.Machine
end

section
/-!
PROOFS. Graph commands: loading and unloading a step graph (R288, R289), its entries and blobs on a tile (R290), its query (R347) and the
adapter area (R292, R293).
-/
namespace Sys2Proof.Machine

open Sys2Proof.Safety

/-! ### GRAPH_LOAD (R288) -/

/-- The graph handle that the next load takes: the lowest that is free. -/
def Engine.freeHandle (e : Engine) : Option Nat := (List.range 64).find? (fun k => (e.graph k).state == .free)

/-- A partition's adapter area as a load leaves it: at least the slots that the graph asks for. -/
def Engine.withAdapt (e : Engine) (p a : Nat) : Engine :=
  if a = 0 then e else e.modPart p (fun q => { q with adaptSlots := max q.adaptSlots a })

section Load
variable {e : Engine} {h : Hdr} {now img : Nat} {pkg : List Byte}

theorem runGraphLoad_badPackage {acc : Bool} {x : LoadFail} (hc : e.checkPackage pkg img h.part = .error x) :
    runGraphLoad pkg img h acc now e = e.reply now h x.status x.detail := by rw [runGraphLoad, hc]

variable {g : Graph} (hc : e.checkPackage pkg img h.part = .ok g)
include hc

theorem runGraphLoad_noHandle {acc : Bool} (hk : e.freeHandle = none) : runGraphLoad pkg img h acc now e =
    e.reply now h ({ code := 0x0B, record := 0 } : LoadFail).status ({ code := 0x0B, record := 0 } : LoadFail).detail := by
  rw [Engine.freeHandle] at hk
  simp only [runGraphLoad, hc, hk]

variable {k : Nat} (hk : e.freeHandle = some k)
include hk

theorem runGraphLoad_unplaced {acc : Bool} {x : LoadFail} (hp : e.placeGraph k g = .error x) :
    runGraphLoad pkg img h acc now e = e.reply now h x.status x.detail := by
  rw [Engine.freeHandle] at hk
  simp only [runGraphLoad, hc, hk, hp]

/-- The graph is LOADING in its handle, every tile of it due, and LOADED at once where it has no tile. -/
theorem runGraphLoad_places {e' : Engine} {pls : List (Nat × Placement)} (hp : e.placeGraph k g = .ok (e', pls)) :
    runGraphLoad pkg img h false now e = ((((e'.reply now h .accepted k).withAdapt h.part g.adapt).modGraph k (fun _ =>
      { g with placed := pls, entriesDue := pls.map (·.1), blobsDue := pls.map (·.1), hd := some h })).finishLoad k now) := by
  rw [Engine.freeHandle] at hk
  simp only [runGraphLoad, hc, hk, hp, Engine.accept_first, Engine.withAdapt]

end Load

/-! ### BLOB_TRANSFER (R290) -/

/-- A graph's entries written on one of its tiles, at this boundary of its partition. -/
def Engine.enterOn (e : Engine) (g : Nat) (u : Loc) (pl : Placement) : Engine :=
  let x := e.graph g
  ((e.modTile u (fun ti => ti.enter g x pl (e.image x.image).slot)).modGraph g (fun y =>
    { y with entriesDue := y.entriesDue.filter (· != locKey u) })).modPart x.part (fun q => { q with loadStep := some q.stepNo })

/-- A graph's bytes written on one of its tiles; with the last of them the load ends. -/
def Engine.fillOn (e : Engine) (g : Nat) (u : Loc) (m : Memory) (now : Nat) : Engine :=
  ((e.modTile u (fun ti => ti.fill m)).modGraph g (fun y => { y with blobsDue := y.blobsDue.filter (· != locKey u) })).finishLoad g now

/-- The tile stands for a virtual tile of the graph's image, and a loading graph still owes it its blobs. -/
structure Engine.OwesTile (e : Engine) (g : Nat) (u : Loc) (pl : Placement) (w : Nat) : Prop where
  placed : (e.graph g).placed.find? (fun x => x.1 == locKey u) = some (locKey u, pl)
  word : e.wordInSet (e.image (e.graph g).image).footprint u = some w
  loading : (e.graph g).state = .loading
  due : (e.graph g).blobsDue.contains (locKey u) = true

section Transfer
variable {e : Engine} {g now w : Nat} {u : Loc} {pl : Placement} (ho : e.OwesTile g u pl w)
include ho

theorem transferBlobs_entriesDue (he : (e.graph g).entriesDue.contains (locKey u) = true) :
    transferBlobs g u now e = if e.loadBoundary (e.graph g).part then e.enterOn g u pl else e := by
  obtain ⟨hp, hw, hl, hb⟩ := ho
  simp only [transferBlobs, hp, hw, hl, hb, he, Engine.enterOn, ne_eq, not_true_eq_false, Bool.true_eq_false, or_self, if_true, if_false]

variable (he : (e.graph g).entriesDue.contains (locKey u) = false)
include he

theorem transferBlobs_claimed (hc : (e.tile u).claimsAny pl = true) : transferBlobs g u now e = e := by
  obtain ⟨hp, hw, hl, hb⟩ := ho
  simp only [transferBlobs, hp, hw, hl, hb, he, hc, ne_eq, not_true_eq_false, Bool.true_eq_false, Bool.false_eq_true, or_self, if_true, if_false]

theorem transferBlobs_fills {m : Memory} (hc : (e.tile u).claimsAny pl = false) (hm : e.loadBytes u w (e.graph g) pl = .ok m) :
    transferBlobs g u now e = e.fillOn g u m now := by
  obtain ⟨hp, hw, hl, hb⟩ := ho
  simp only [transferBlobs, hp, hw, hl, hb, he, hc, hm, Engine.fillOn, ne_eq, not_true_eq_false, Bool.true_eq_false, Bool.false_eq_true, or_self,
    if_false]

end Transfer

/-- A boundary at which the load unit writes is one of the partition's. -/
theorem Engine.atBoundary_of_loadBoundary {e : Engine} {p : Nat} (h : e.loadBoundary p = true) : e.atBoundary [p] = true :=
  (Bool.and_eq_true_iff.mp h).1

/-! ### GRAPH_UNLOAD (R289) -/

section Unload
variable {e : Engine} {h : Hdr} {acc : Bool} {now g : Nat}

theorem runGraphUnload_loaded (hs : (e.graph g).state = .loaded) : runGraphUnload g h acc now e = (e.removeGraph g).okReply now h := if_pos hs

theorem runGraphUnload_otherState (hs : (e.graph g).state ≠ .loaded) :
    runGraphUnload g h acc now e = e.reply now h .graphState (graphCode (e.graph g).state) := if_neg hs

end Unload

/-! ### ADAPT_SAVE and ADAPT_RESTORE (R293) -/

section Adapt
variable {e : Engine} {h : Hdr} {acc : Bool} {now addr bytes half : Nat} {data : List Byte}

theorem runAdaptSave_stepping (hs : (e.part h.part).state = .stepping) :
    runAdaptSave addr bytes half h acc now e = e.reply now h .partState (partCode (e.part h.part).state) := if_pos hs

theorem runAdaptRestore_stepping (hs : (e.part h.part).state = .stepping) :
    runAdaptRestore data half h acc now e = e.reply now h .partState (partCode (e.part h.part).state) := if_pos hs

variable (hs : (e.part h.part).state ≠ .stepping)
include hs

theorem runAdaptSave_short (hb : bytes < e.adaptSize h.part half) : runAdaptSave addr bytes half h acc now e = e.reply now h .badAddress 8 :=
  (if_neg hs).trans (if_pos hb)

theorem runAdaptSave_saves (hb : e.adaptSize h.part half ≤ bytes) :
    runAdaptSave addr bytes half h acc now e = (e.dma h.fn addr (e.adaptBytes h.part half)).okReply now h :=
  (if_neg hs).trans (if_neg (Nat.not_lt.mpr hb))

theorem runAdaptRestore_short (hb : data.length < e.adaptSize h.part half) :
    runAdaptRestore data half h acc now e = e.reply now h .badAddress 8 := (if_neg hs).trans (if_pos hb)

theorem runAdaptRestore_restores (hb : e.adaptSize h.part half ≤ data.length) :
    runAdaptRestore data half h acc now e = (e.setAdapt h.part half data).okReply now h := (if_neg hs).trans (if_neg (Nat.not_lt.mpr hb))

end Adapt

/-! ### The commands through intake -/

section Commands
variable {s : State} {hd : Hdr} {f : Engine → Engine}

theorem exec_graphLoad {addr img : Nat} {pkg : List Byte}
    (hg : goes s hd (.graphLoad hd addr pkg img) (graphLoadForm hd addr pkg img s.eng) = true)
    (hr : runGraphLoad pkg img (due s hd) false s.now (taken s hd) = f (taken s hd)) : exec (.graphLoad hd addr pkg img) s = took s hd f :=
  hostCmd_tookAt (f := graphLoadForm hd addr pkg img) hg rfl hr

theorem exec_graphUnload {g : Nat} (hg : goes s hd (.graphUnload hd g) (graphUnloadForm g s.eng) = true)
    (hr : runGraphUnload g (due s hd) false s.now (taken s hd) = f (taken s hd)) : exec (.graphUnload hd g) s = took s hd f :=
  hostCmd_tookAt (f := graphUnloadForm g) hg rfl hr

theorem exec_graphQuery {g addr : Nat} (hg : goes s hd (.graphQuery hd g addr) (graphQueryForm hd g addr s.eng) = true) :
    let x := (taken s hd).graph g
    exec (.graphQuery hd g addr) s = tookOk s hd (fun e => e.dma hd.fn addr
      (natBytes (pack [(32, x.placed.length - x.blobsDue.length), (8, 0), (8, x.part), (8, x.image), (8, graphCode x.state)]) 8)) :=
  hostCmd_tookAt (f := graphQueryForm hd g addr) hg rfl rfl

theorem exec_adaptSave {addr bytes half : Nat}
    (hg : goes s hd (.adaptSave hd addr bytes half) (adaptSaveForm hd addr bytes half s.eng) = true)
    (hr : runAdaptSave addr bytes half (due s hd) false s.now (taken s hd) = f (taken s hd)) :
    exec (.adaptSave hd addr bytes half) s = took s hd f :=
  hostCmd_tookAt (f := adaptSaveForm hd addr bytes half) hg rfl hr

theorem exec_adaptRestore {addr half : Nat} {data : List Byte}
    (hg : goes s hd (.adaptRestore hd addr data half) (adaptRestoreForm hd addr data half s.eng) = true)
    (hr : runAdaptRestore data half (due s hd) false s.now (taken s hd) = f (taken s hd)) :
    exec (.adaptRestore hd addr data half) s = took s hd f :=
  hostCmd_tookAt (f := adaptRestoreForm hd addr data half) hg rfl hr

theorem exec_blobTransfer {g : Nat} {u : Loc} {e : Engine} (hg : g < 64) (hu : locOk u = true) (he : transferBlobs g u s.now s.eng = e) :
    exec (.blobTransfer g u) s = .next (withEng s e) :=
  onUnit_eq (f := transferBlobs g u) (by simp [hg, hu]) he

end Commands

/-! ### The statement -/

/-- Settles O41: a load by the first of its checks that fails, a tile by what the graph still owes it, the other commands by the branches of
their effects. -/
theorem graphCommands : Obligations.GraphCommands := by
  intro s hd e
  refine ⟨fun addr pkg img hg => ?load, fun g u pl w hg hu hp hw hl hb => ?transfer, fun _ _ => Engine.atBoundary_of_loadBoundary,
    fun g hg => ?unload, fun _ _ => exec_graphQuery, fun addr bytes half hg => ?save, fun addr data half hg => ?restore⟩
  case load =>
    exact ⟨fun _ hc => exec_graphLoad hg (runGraphLoad_badPackage (h := due s hd) hc),
      fun _ hc hk => exec_graphLoad hg (runGraphLoad_noHandle (h := due s hd) hc hk),
      fun _ _ _ hc hk hp => exec_graphLoad hg (runGraphLoad_unplaced (h := due s hd) hc hk hp),
      fun _ _ _ _ hc hk hp => exec_graphLoad hg (runGraphLoad_places (h := due s hd) hc hk hp)⟩
  case transfer =>
    have ho : s.eng.OwesTile g u pl w := ⟨hp, hw, hl, hb⟩
    refine ⟨fun he => ⟨fun hx => ?_, fun hx => ?_⟩, fun he => ⟨fun hc => ?_, fun m hc hm => ?_⟩⟩
    · exact exec_blobTransfer hg hu ((transferBlobs_entriesDue ho he).trans (if_pos hx))
    · exact exec_blobTransfer hg hu ((transferBlobs_entriesDue ho he).trans (if_neg (Bool.eq_false_iff.mp hx)))
    · exact exec_blobTransfer hg hu (transferBlobs_claimed ho he hc)
    · exact exec_blobTransfer hg hu (transferBlobs_fills ho he hc hm)
  case unload =>
    exact ⟨fun hs => exec_graphUnload hg (runGraphUnload_loaded hs), fun hs => exec_graphUnload hg (runGraphUnload_otherState hs)⟩
  case save =>
    exact ⟨fun hs => exec_adaptSave hg (runAdaptSave_stepping (h := due s hd) hs),
      fun hs hb => exec_adaptSave hg (runAdaptSave_short (h := due s hd) hs hb),
      fun hs hb => exec_adaptSave hg (runAdaptSave_saves (h := due s hd) hs hb)⟩
  case restore =>
    exact ⟨fun hs => exec_adaptRestore hg (runAdaptRestore_stepping (h := due s hd) hs),
      fun hs hb => exec_adaptRestore hg (runAdaptRestore_short (h := due s hd) hs hb),
      fun hs hb => exec_adaptRestore hg (runAdaptRestore_restores (h := due s hd) hs hb)⟩

end Sys2Proof.Machine
end

section
/-!
PROOFS. Submissions (R295, R297, R302, R348, R366): the entry that a submission takes, and the checks before it.
-/
namespace Sys2Proof.Machine

open Sys2Proof.Safety

/-- The entry that a submission through a deck takes: the lowest free one, of the deck's own half first (R297). -/
def Engine.submitEntry (e : Engine) (d : Nat) : Option Nat := (e.freeEntry d).orElse (fun _ => e.freeEntry (1 - d))

theorem Engine.submitEntry_eq_some {e : Engine} {d i : Nat} :
    e.submitEntry d = some i ↔ e.freeEntry d = some i ∨ (e.freeEntry d = none ∧ e.freeEntry (1 - d) = some i) := by
  unfold Engine.submitEntry
  cases e.freeEntry d <;> simp

/-- Without an IDLE entry neither half of the table has a free one. -/
theorem Engine.freeEntry_eq_none {e : Engine} {d : Nat} (hd : d < 2) (hb : ∀ i < 32768, (e.req i).state ≠ .idle) : e.freeEntry d = none := by
  rw [Engine.freeEntry, Option.map_eq_none_iff, List.find?_eq_none]
  intro i hi
  have hi := List.mem_range.mp hi
  simpa using hb (d * 16384 + i) (by omega)

theorem Engine.submitEntry_eq_none {e : Engine} {d : Nat} (hd : d < 2) (hb : ∀ i < 32768, (e.req i).state ≠ .idle) : e.submitEntry d = none := by
  rw [Engine.submitEntry, freeEntry_eq_none hd hb, freeEntry_eq_none (by omega) hb]
  rfl

/-- A half of the table with a free entry is the deck's own or the other one. -/
theorem Engine.submitEntry_of_free {e : Engine} {d : Nat} (hd : d < 2) (hf : ∃ k < 2, e.freeEntry k ≠ none) : ∃ i, e.submitEntry d = some i := by
  obtain ⟨k, hk, hf⟩ := hf
  obtain ⟨j, hj⟩ := Option.ne_none_iff_exists'.mp hf
  cases hd' : e.freeEntry d with
  | some i => exact ⟨i, submitEntry_eq_some.mpr (.inl hd')⟩
  | none =>
    have hne : k ≠ d := fun h => by rw [h, hd'] at hj; cases hj
    obtain rfl : k = 1 - d := by omega
    exact ⟨j, submitEntry_eq_some.mpr (.inr ⟨hd', hj⟩)⟩

/-- The tenant has as many entries as it may hold (R302). -/
abbrev Engine.atLimit (e : Engine) (t : Nat) : Prop :=
  (e.tenant t).maxReq ≠ 0 ∧ (e.tenant t).maxReq ≤ (e.reqsWhere (fun r => r.tenant == t && r.state != .idle)).length

/-- A function may submit for a tenant: a PF for any, a VF for its own (R302). -/
def speaksFor (f : Fn) (t : Nat) : Bool := match f with | .pf _ => true | .vf k => k == t

theorem speaksFor_iff {f : Fn} {t : Nat} : speaksFor f t = true ↔ ∀ k, f = .vf k → k = t := by
  cases f <;> simp [speaksFor]

/-- A submission for a tenant that is open to it, with the entry that is free for it. -/
def Engine.placeSubmission (e : Engine) (q : SubmitParams) (h : Hdr) (now : Nat) : Option Nat → Engine
  | none => e.reply now h .tableFull 0
  | some i =>
    if e.atLimit q.tenant then e.reply now h .tenantLimit 0
    else (e.modReq i (fun _ => newRequest h q ((e.tenant q.tenant).nextPart.getD (e.tenant q.tenant).part))).reply now h .ok i

section Submit
variable {e : Engine} {q : SubmitParams} {h : Hdr} {acc : Bool} {now : Nat}

theorem runSubmit_otherTenant (hm : speaksFor h.fn q.tenant = false) : runSubmit q h acc now e = e.reply now h .tenant 0 :=
  if_pos (Bool.not_eq_true' _ |>.mpr hm)

variable (hm : speaksFor h.fn q.tenant = true)
include hm

theorem runSubmit_laterRank (hp : (e.image q.image).partIndex ≠ 0) :
    runSubmit q h acc now e = e.reply now h .imageState (imgCode (e.image q.image).state) :=
  (if_neg (ne_of_eq_of_ne (congrArg _ hm) Bool.false_ne_true)).trans (if_pos hp)

variable (hp : (e.image q.image).partIndex = 0)
include hp

theorem runSubmit_closedTenant (ht : ((e.tenant q.tenant).enable && (e.tenant q.tenant).bound) = false) :
    runSubmit q h acc now e = e.reply now h .tenantState 0 :=
  (if_neg (ne_of_eq_of_ne (congrArg _ hm) Bool.false_ne_true)).trans ((if_neg (not_not.mpr hp)).trans (if_pos (congrArg _ ht)))

variable (ht : ((e.tenant q.tenant).enable && (e.tenant q.tenant).bound) = true)
include ht

theorem runSubmit_openTenant : runSubmit q h acc now e = e.placeSubmission q h now (e.submitEntry (e.fnDeck h.fn)) := by
  refine (if_neg (ne_of_eq_of_ne (congrArg _ hm) Bool.false_ne_true)).trans ((if_neg (not_not.mpr hp)).trans
    ((if_neg (ne_of_eq_of_ne (congrArg _ ht) Bool.false_ne_true)).trans ?_))
  rw [Engine.submitEntry]
  cases (e.freeEntry (e.fnDeck h.fn)).orElse (fun _ => e.freeEntry (1 - e.fnDeck h.fn)) <;> rfl

theorem runSubmit_full (hi : e.submitEntry (e.fnDeck h.fn) = none) : runSubmit q h acc now e = e.reply now h .tableFull 0 := by
  rw [runSubmit_openTenant hm hp ht, hi, Engine.placeSubmission]

variable {i : Nat} (hi : e.submitEntry (e.fnDeck h.fn) = some i)
include hi

theorem runSubmit_atLimit (hl : e.atLimit q.tenant) : runSubmit q h acc now e = e.reply now h .tenantLimit 0 := by
  rw [runSubmit_openTenant hm hp ht, hi, Engine.placeSubmission, if_pos hl]

theorem runSubmit_fills (hl : ¬ e.atLimit q.tenant) : runSubmit q h acc now e =
    (e.modReq i (fun _ => newRequest h q ((e.tenant q.tenant).nextPart.getD (e.tenant q.tenant).part))).reply now h .ok i := by
  rw [runSubmit_openTenant hm hp ht, hi, Engine.placeSubmission, if_neg hl]

end Submit

/-- A submission executed at once, with its effect rewritten. -/
theorem exec_reqSubmit {s : State} {hd : Hdr} {q : SubmitParams} {g : Engine → Engine}
    (hg : goes s hd (.reqSubmit hd q) (submitForm q s.eng) = true) (hr : runSubmit q (due s hd) false s.now (taken s hd) = g (taken s hd)) :
    exec (.reqSubmit hd q) s = took s hd g := hostCmd_tookAt (f := submitForm q) hg rfl hr

/-- Settles O31: the checks of a submission in their order, and the entry that is free for it. -/
theorem submitResults : Obligations.SubmitResults := by
  refine ⟨fun s hd q i hg => ?fills, fun s hd q hg => ?refused⟩
  case fills =>
    intro e t hm hp he hb hi hl
    have ht := Bool.and_eq_true_iff.mpr ⟨he, hb⟩
    have hn : ¬ e.atLimit q.tenant := fun h => hl.elim h.1 (Nat.not_lt.mpr h.2)
    exact exec_reqSubmit hg (runSubmit_fills (h := due s hd) (speaksFor_iff.mpr hm) hp ht (Engine.submitEntry_eq_some.mpr hi) hn)
  case refused =>
    intro e t mine answer
    refine ⟨fun hm => ?_, fun hm hp => ?_, fun hm hp ht => ?_, fun hm hp ht => ⟨fun hb hk => ?_, fun hf hk h0 hl => ?_⟩⟩
    · exact exec_reqSubmit hg (runSubmit_otherTenant (h := due s hd) (Bool.eq_false_iff.mpr (mt speaksFor_iff.mp hm)))
    · exact exec_reqSubmit hg (runSubmit_laterRank (h := due s hd) (speaksFor_iff.mpr hm) hp)
    · exact exec_reqSubmit hg (runSubmit_closedTenant (h := due s hd) (speaksFor_iff.mpr hm) hp ht)
    · exact exec_reqSubmit hg (runSubmit_full (h := due s hd) (speaksFor_iff.mpr hm) hp ht (Engine.submitEntry_eq_none hk hb))
    · obtain ⟨i, hi⟩ := Engine.submitEntry_of_free hk hf
      exact exec_reqSubmit hg (runSubmit_atLimit (h := due s hd) (speaksFor_iff.mpr hm) hp ht hi ⟨h0, hl⟩)

end Sys2Proof.Machine
end

section
/-!
PROOFS. Prompt fetches (R300, R341), and result packets moving place by place towards the host: held packets (R310), the loss store (R311) and
the token rings (R330, R334).
-/
namespace Sys2Proof.Machine

open Sys2Proof.Safety

/-! ### PROMPT_FETCH (R300, R341) -/

/-- Where the prompt tokens of a request go on that have not been fetched yet. -/
abbrev Request.fetchPos (r : Request) : Nat := r.len + r.prompt.length

/-- The request lacks prompt tokens, and its tenant's function can read host memory now (R300, R391). -/
def Engine.mayFetch (e : Engine) (idx : Nat) : Prop :=
  e.sup.safeHold = false ∧ ((e.req idx).state = .queued ∨ (e.req idx).state = .prefill) ∧ (e.req idx).fetchPos < (e.req idx).promptEnd ∧
    e.linkUp (.vf (e.req idx).tenant) = true

section Fetch
variable {e : Engine} {idx now : Nat}

theorem Engine.mayFetch_iff : (e.sup.safeHold || !(((e.req idx).state == .queued || (e.req idx).state == .prefill) &&
    decide ((e.req idx).fetchPos < (e.req idx).promptEnd) && e.linkUp (.vf (e.req idx).tenant))) = false ↔ e.mayFetch idx := by
  simp [Engine.mayFetch, and_assoc, or_iff_not_imp_left]

theorem promptFetch_blocked (hm : ¬ e.mayFetch idx) (x : Option (List Nat)) : promptFetch idx x now e = e :=
  if_pos (Bool.not_eq_false _ |>.mp (mt Engine.mayFetch_iff.mp hm))

variable (hm : e.mayFetch idx)
include hm

theorem promptFetch_failed : promptFetch idx none now e = e.doneReq idx now 0xA false := if_neg (Bool.eq_false_iff.mp (Engine.mayFetch_iff.mpr hm))

/-- The tokens of a read that the request still lacks. -/
abbrev Request.lacking (r : Request) (ts : List Nat) : List Nat := ts.take (r.promptEnd - r.fetchPos)

/-- The address of the next prompt token in host memory. -/
abbrev Request.fetchAddr (r : Request) : Nat := r.promptAddr + 4 * (r.fetchPos - r.promptBase)

variable {ts : List Nat}

theorem promptFetch_noWindow
    (hw : e.windowOk (.vf (e.req idx).tenant) (e.req idx).fetchAddr (4 * ((e.req idx).lacking ts).length) false = false) :
    promptFetch idx (some ts) now e = (e.windowEvent now (.vf (e.req idx).tenant) (e.req idx).fetchAddr).doneReq idx now 0xA false :=
  (if_neg (Bool.eq_false_iff.mp (Engine.mayFetch_iff.mpr hm))).trans (if_neg (Bool.eq_false_iff.mp hw))

variable (hw : e.windowOk (.vf (e.req idx).tenant) (e.req idx).fetchAddr (4 * ((e.req idx).lacking ts).length) false = true)
include hw

theorem promptFetch_noCredit
    (hc : e.takeHem (e.fnDeck (.vf (e.req idx).tenant)) 0 (e.req idx).part (ceilDiv (4 * ((e.req idx).lacking ts).length) 64) = none) :
    promptFetch idx (some ts) now e = e := by
  refine (if_neg (Bool.eq_false_iff.mp (Engine.mayFetch_iff.mpr hm))).trans ((if_pos hw).trans ?_)
  rw [hc]

theorem promptFetch_fetches {e' : Engine}
    (hc : e.takeHem (e.fnDeck (.vf (e.req idx).tenant)) 0 (e.req idx).part (ceilDiv (4 * ((e.req idx).lacking ts).length) 64) = some e') :
    promptFetch idx (some ts) now e =
      e'.modReq idx (fun x => { x with prompt := x.prompt ++ ((e.req idx).lacking ts).map (· % 2 ^ 32) }) := by
  refine (if_neg (Bool.eq_false_iff.mp (Engine.mayFetch_iff.mpr hm))).trans ((if_pos hw).trans ?_)
  rw [hc]

end Fetch

/-! ### HELD_PACKET_WRITE (R310) -/

/-- No entry before `idx` in the request table holds a packet of the tenant whose packets it holds (R310). -/
def Engine.holdsFirst (e : Engine) (idx : Nat) : Prop :=
  ∀ i ∈ e.holders (e.heldBy idx) ++ (e.tenant (e.heldBy idx)).heldEnds.map (·.req), idx ≤ i

section Held
variable {e : Engine} {idx now : Nat}

theorem Engine.holdsFirst_iff : ¬ (e.holders (e.heldBy idx) ++ (e.tenant (e.heldBy idx)).heldEnds.map (·.req)).any (fun i => decide (i < idx)) = true ↔
    e.holdsFirst idx := by
  simp only [Engine.holdsFirst, List.any_eq_true, decide_eq_true_eq, not_exists, not_and, not_lt]

theorem writeHeld_waits (hw : fifoDepth ≤ (e.tenant (e.heldBy idx)).fifo.length ∨ ¬ e.holdsFirst idx) : writeHeld idx now e = e :=
  if_pos (hw.imp_right fun h => not_not.mp (mt Engine.holdsFirst_iff.mp h))

variable (hr : (e.tenant (e.heldBy idx)).fifo.length < fifoDepth) (hf : e.holdsFirst idx)
include hr hf

theorem writeHeld_endPacket {k : TokenPacket} (hk : (e.tenant (e.heldBy idx)).heldEnds.find? (fun k => k.req == idx) = some k) :
    writeHeld idx now e = e.modTenant (e.heldBy idx) (fun x => { x.write k with heldEnds := x.heldEnds.erase k }) := by
  refine (if_neg (not_or.mpr ⟨Nat.not_le.mpr hr, Engine.holdsFirst_iff.mpr hf⟩)).trans ?_
  rw [hk]

theorem writeHeld_packet {k : TokenPacket} {r : List TokenPacket}
    (hk : (e.tenant (e.heldBy idx)).heldEnds.find? (fun k => k.req == idx) = none) (hp : (e.req idx).heldPkts = k :: r) :
    writeHeld idx now e = (e.modReq idx (fun x => { x with heldPkts := r })).modTenant (e.heldBy idx) (fun x => x.write k) := by
  refine (if_neg (not_or.mpr ⟨Nat.not_le.mpr hr, Engine.holdsFirst_iff.mpr hf⟩)).trans ?_
  rw [hk, hp]

end Held

/-! ### LOSS_STORE_DRAIN (R311) -/

/-- A tenant's token FIFO has room, and no held packet goes before another one (R310). -/
def Engine.fifoOpen (e : Engine) (t : Nat) : Prop := (e.tenant t).fifo.length < fifoDepth ∧ e.holders t = [] ∧ (e.tenant t).heldEnds = []

theorem Engine.fifoOpen_iff {e : Engine} {t : Nat} :
    ¬ ((e.tenant t).fifo.length ≥ fifoDepth ∨ (!(e.holders t).isEmpty) = true ∨ (!(e.tenant t).heldEnds.isEmpty) = true) ↔ e.fifoOpen t := by
  simp [Engine.fifoOpen]

/-- Do the losses of request `q` end it, with none of them left in `rest`? -/
def Engine.lossesEnd (e : Engine) (q : Nat) (rest : List (Nat × Nat × Nat × Nat)) : Bool :=
  (e.req q).state == .done && (e.req q).reason == 7 && !rest.any (fun y => y.1 == q)

/-- The packet of the losses `x :: r`, with `rest` behind them in the store (R311). -/
def Engine.lossPacket (e : Engine) (x : Nat × Nat × Nat × Nat) (r rest : List (Nat × Nat × Nat × Nat)) : TokenPacket :=
  { ({ e.req x.1 with outCnt := ((e.req x.1).outCnt + (r.length + 1)) % 2 ^ 32 } : Request).packet x.1 x.2.2.2 ((x :: r).map (·.2.2.1))
      (if e.lossesEnd x.1 rest then 7 else 0) (e.lossesEnd x.1 rest) with kind := 1, len := x.2.1 }

section Losses
variable {e : Engine} {p now : Nat} {x : Nat × Nat × Nat × Nat} {r : List (Nat × Nat × Nat × Nat)} (hl : lossRun (e.part p).losses = x :: r)
include hl

theorem drainLosses_waits (hf : ¬ e.fifoOpen (e.req x.1).tenant) : drainLosses p now e = e := by
  rw [drainLosses, hl]
  exact if_pos (not_not.mp (mt Engine.fifoOpen_iff.mp hf))

theorem drainLosses_writes (hf : e.fifoOpen (e.req x.1).tenant) : drainLosses p now e =
    (let rest := (e.part p).losses.drop (r.length + 1)
     ((e.modPart p (fun y => { y with losses := rest })).modReq x.1 (fun y => { y with outCnt := (y.outCnt + (r.length + 1)) % 2 ^ 32 })).modTenant
       (e.req x.1).tenant (fun y => y.write (e.lossPacket x r rest))) := by
  rw [drainLosses, hl]
  refine (if_neg (Engine.fifoOpen_iff.mpr hf)).trans ?_
  simp only [Engine.modReq_req, Engine.lossPacket, Engine.lossesEnd]
  rfl

end Losses

/-! ### TOKEN_DELIVERY (R330, R334) -/

theorem Tenant.present_eq {t : Tenant} {k : TokenPacket} {r : List TokenPacket} (hf : t.fifo = k :: r) (words : Nat) :
    t.present words = if r = [] then min 8 (max words t.fwd) else 8 := by
  simp only [Tenant.present, hf, List.length_cons, Nat.add_eq_right, List.length_eq_zero_iff]

/-- The address in host memory of the unit of a tenant's token ring that the next packet takes. -/
abbrev Engine.tokAddr (e : Engine) (t : Nat) : Nat :=
  ((e.fn (.vf t)).ring 2).base.toNat + 64 * (((e.fn (.vf t)).ring 2).ptr % ((e.fn (.vf t)).ring 2).units)

section Tokens
variable {e : Engine} {t words now : Nat} {par : Parity} {k : TokenPacket} {r : List TokenPacket} (hf : (e.tenant t).fifo = k :: r)
include hf

theorem deliverToken_blocked (hb : e.sup.safeHold = true ∨ e.ringReady (.vf t) 2 = false) : deliverToken t par words now e = e := by
  simp only [deliverToken, hf]
  exact if_pos (by simpa using hb)

variable (hs : e.sup.safeHold = false) (hr : e.ringReady (.vf t) 2 = true)
include hs hr

theorem deliverToken_noWindow (hw : e.windowOk (.vf t) (e.tokAddr t) 64 true = false) :
    deliverToken t par words now e = e.windowEvent now (.vf t) (e.tokAddr t) := by
  simp only [deliverToken, hf]
  exact (if_neg (by simp [hs, hr])).trans (if_pos (congrArg _ hw))

variable (hw : e.windowOk (.vf t) (e.tokAddr t) 64 true = true)
include hw

theorem deliverToken_whole (hn : (e.tenant t).present words = 8) : deliverToken t par words now e =
    ((e.modTenant t (fun x => { x with fifo := r, fwd := 0, wr := if r = [] then none else x.wr })).toRing now (.vf t) 2 3 (natBytes k.word 64) par).delivered k := by
  simp only [deliverToken, hf]
  exact (if_neg (by simp [hs, hr])).trans ((if_neg (by simp [hw])).trans (if_neg (by omega)))

variable (hn : (e.tenant t).present words < 8)
include hn

theorem deliverToken_keeps (hc : (e.tenant t).present words < ((e.fn (.vf t)).ring 2).ctWords ∨ (e.tenant t).present words ≤ (e.tenant t).fwd) :
    deliverToken t par words now e = e.modTenant t (fun x => { x with wr := some ((e.tenant t).present words) }) := by
  simp only [deliverToken, hf]
  exact (if_neg (by simp [hs, hr])).trans ((if_neg (by simp [hw])).trans ((if_pos hn).trans (if_pos hc)))

theorem deliverToken_forwards (hc : ((e.fn (.vf t)).ring 2).ctWords ≤ (e.tenant t).present words) (hd : (e.tenant t).fwd < (e.tenant t).present words) :
    deliverToken t par words now e =
      (let n := (e.tenant t).present words
       ((e.modTenant t (fun x => { x with wr := some n })).modTenant t (fun x => { x with fwd := n })).dma (.vf t) (e.tokAddr t + 8 * (e.tenant t).fwd)
         (((natBytes k.word 64).take (8 * n)).drop (8 * (e.tenant t).fwd))) := by
  simp only [deliverToken, hf]
  exact (if_neg (by simp [hs, hr])).trans ((if_neg (by simp [hw])).trans ((if_pos hn).trans (if_neg (by omega))))

end Tokens

/-! ### The events -/

section Exec
variable {s : State} {e : Engine}

theorem exec_promptFetch {idx : Nat} {x : Option (List Nat)} (hi : idx < 32768) (h : promptFetch idx x s.now s.eng = e) :
    exec (.promptFetch idx x) s = .next (withEng s e) := onUnit_eq (decide_eq_true hi) h

theorem exec_heldPacketWrite {idx : Nat} (hi : idx < 32768) (h : writeHeld idx s.now s.eng = e) :
    exec (.heldPacketWrite idx) s = .next (withEng s e) := onUnit_eq (decide_eq_true hi) h

theorem exec_lossStoreDrain {p : Nat} (hp : p < 32) (h : drainLosses p s.now s.eng = e) : exec (.lossStoreDrain p) s = .next (withEng s e) :=
  onUnit_eq (decide_eq_true hp) h

theorem exec_tokenDelivery {t words : Nat} {par : Parity} (ht : t < 256) (h : deliverToken t par words s.now s.eng = e) :
    exec (.tokenDelivery t par words) s = .next (withEng s e) := onUnit_eq (decide_eq_true ht) h

end Exec

/-! ### The statement -/

/-- Settles O33: one lemma for each event and each state in which it acts. -/
theorem packetResults : Obligations.PacketResults := by
  refine ⟨fun s idx hi => ?fetch, fun s idx hi => ?held, fun s p x r hp hl => ?losses, fun s t words par k r ht hf => ?tokens⟩
  case fetch =>
    intro r next may
    refine ⟨fun hm x => exec_promptFetch hi (promptFetch_blocked hm x), fun hm => ⟨exec_promptFetch hi (promptFetch_failed hm), fun ts => ?_⟩⟩
    exact ⟨fun hw => ⟨fun e hc => exec_promptFetch hi (promptFetch_fetches hm hw hc), fun hc => exec_promptFetch hi (promptFetch_noCredit hm hw hc)⟩,
      fun hw => exec_promptFetch hi (promptFetch_noWindow hm hw)⟩
  case held =>
    intro t q first
    exact ⟨fun hw => exec_heldPacketWrite hi (writeHeld_waits hw), fun hr hf => ⟨fun k hk => exec_heldPacketWrite hi (writeHeld_endPacket hr hf hk),
      fun k r hk hp => exec_heldPacketWrite hi (writeHeld_packet hr hf hk hp)⟩⟩
  case losses =>
    intro q n rest room
    refine ⟨fun hf => exec_lossStoreDrain hp (drainLosses_waits hl hf), fun hf => ⟨s.eng.lossPacket x r rest, exec_lossStoreDrain hp (drainLosses_writes hl hf), ?_⟩⟩
    exact ⟨rfl, rfl, rfl, rfl, List.length_map .., rfl, rfl, rfl, rfl, rfl, rfl⟩
  case tokens =>
    intro x ring a n
    have hn : x.present words = n := Tenant.present_eq hf words
    rw [← hn]
    refine ⟨fun hb => exec_tokenDelivery ht (deliverToken_blocked hf hb), fun hs hr => ⟨fun hw => exec_tokenDelivery ht (deliverToken_noWindow hf hs hr hw), fun hw => ?_⟩⟩
    exact ⟨fun hn => exec_tokenDelivery ht (deliverToken_whole hf hs hr hw hn), fun hn hc => exec_tokenDelivery ht (deliverToken_keeps hf hs hr hw hn hc),
      fun hn hc hd => exec_tokenDelivery ht (deliverToken_forwards hf hs hr hw hn hc hd)⟩

end Sys2Proof.Machine
end

section
/-!
PROOFS. What a command's way through intake, its reply and the ends of requests leave as it is: the schedule tables, and for intake and the reply
the requests and tenants too.
-/
namespace Sys2Proof.Machine

open Sys2Proof.Safety

/-- The schedule tables of an engine, and which deck serves a function, are those of another. -/
structure Engine.SameSched (e t : Engine) : Prop where
  sched : ∀ d, (t.deck d).sched = (e.deck d).sched
  ports : t.ports = e.ports
  vfAssign : t.vfAssign = e.vfAssign

section SameSched
variable {e t u : Engine}

theorem Engine.SameSched.refl (e : Engine) : e.SameSched e := ⟨fun _ => rfl, rfl, rfl⟩

theorem Engine.SameSched.trans (k : e.SameSched t) (l : t.SameSched u) : e.SameSched u :=
  ⟨fun d => (l.sched d).trans (k.sched d), l.ports.trans k.ports, l.vfAssign.trans k.vfAssign⟩

/-- The length of the schedule table that holds a function's commands. -/
def Engine.heldOf (e : Engine) (f : Fn) : Nat := (e.deck (e.fnDeck f)).sched.length

theorem Engine.SameSched.fnDeck (k : e.SameSched t) (f : Fn) : t.fnDeck f = e.fnDeck f := by
  cases f with
  | pf _ => rfl
  | vf n => unfold Engine.fnDeck Engine.fnPort Engine.vfWord Engine.hport; rw [k.ports, k.vfAssign]

theorem Engine.SameSched.heldOf (k : e.SameSched t) (f : Fn) : t.heldOf f = e.heldOf f := by
  rw [Engine.heldOf, k.fnDeck, k.sched, Engine.heldOf]

/-- An update of other tables. -/
theorem Engine.SameSched.update (k : e.SameSched t) (hd : u.decks = t.decks := by rfl) (hp : u.ports = t.ports := by rfl)
    (hv : u.vfAssign = t.vfAssign := by rfl) : e.SameSched u :=
  ⟨fun d => by rw [Engine.deck, hd]; exact k.sched d, hp.trans k.ports, hv.trans k.vfAssign⟩

theorem Engine.SameSched.ite {c : Prop} [Decidable c] {a b : Engine} (ha : e.SameSched a) (hb : e.SameSched b) :
    e.SameSched (if c then a else b) := by
  split
  · exact ha
  · exact hb

theorem Engine.SameSched.foldl {α : Type} {f : Engine → α → Engine} {l : List α} (hf : ∀ t x, e.SameSched t → e.SameSched (f t x))
    (k : e.SameSched t) : e.SameSched (l.foldl f t) := List.foldlRecOn l f k fun t k x _ => hf t x k

theorem Engine.SameSched.modDeck {d : Nat} {f : Deck → Deck} (hf : ∀ x, (f x).sched = x.sched) (k : e.SameSched t) : e.SameSched (t.modDeck d f) :=
  ⟨fun j => by
    by_cases hj : j = d
    · rw [hj, Engine.modDeck_deck, hf, k.sched]
    · rw [Engine.modDeck_deck_ne _ _ _ _ hj, k.sched], k.ports, k.vfAssign⟩

/-! ### The ends of requests (R309, R310, R314) -/

theorem Engine.SameSched.modReq {q f} (k : e.SameSched t) : e.SameSched (t.modReq q f) := k.update

theorem Engine.SameSched.modTenant {q f} (k : e.SameSched t) : e.SameSched (t.modTenant q f) := k.update

theorem Engine.SameSched.freePages {q} (k : e.SameSched t) : e.SameSched (t.freePages q) := k.update

theorem Engine.SameSched.idleReq {q} (k : e.SameSched t) : e.SameSched (t.idleReq q) := (k.freePages (q := q)).update

theorem Engine.SameSched.putPacket {x} (k : e.SameSched t) : e.SameSched (t.putPacket x) := .ite k.modTenant (.ite k.modTenant k.modReq)

theorem Engine.SameSched.endReq {q tick reason} (k : e.SameSched t) : e.SameSched (t.endReq q tick reason) := .ite k.idleReq k.idleReq.putPacket

theorem Engine.SameSched.endWhere {tick reason f} (k : e.SameSched t) : e.SameSched (t.endWhere tick reason f) := .foldl (fun _ _ k => k.endReq) k

end SameSched

/-- With its schedule tables, an engine has kept the requests and tenants of another. -/
structure Engine.SameRequests (e t : Engine) : Prop extends e.SameSched t where
  reqs : t.reqs = e.reqs
  tenants : t.tenants = e.tenants

section SameRequests
variable {e t u : Engine} {now : Nat} {f : Fn}

theorem Engine.SameRequests.refl (e : Engine) : e.SameRequests e := ⟨.refl e, rfl, rfl⟩

theorem Engine.SameRequests.req (k : e.SameRequests t) (i : Nat) : t.req i = e.req i := by rw [Engine.req, k.reqs, Engine.req]

theorem Engine.SameRequests.tenant (k : e.SameRequests t) (i : Nat) : t.tenant i = e.tenant i := by rw [Engine.tenant, k.tenants, Engine.tenant]

theorem Engine.SameRequests.trans (k : e.SameRequests t) (l : t.SameRequests u) : e.SameRequests u :=
  ⟨k.toSameSched.trans l.toSameSched, l.reqs.trans k.reqs, l.tenants.trans k.tenants⟩

theorem Engine.SameRequests.foldl {α : Type} {f : Engine → α → Engine} {l : List α} (hf : ∀ t x, e.SameRequests t → e.SameRequests (f t x))
    (k : e.SameRequests t) : e.SameRequests (l.foldl f t) := List.foldlRecOn l f k fun t k x _ => hf t x k

theorem Engine.SameRequests.modDeck {d : Nat} {f : Deck → Deck} (hf : ∀ x, (f x).sched = x.sched) (k : e.SameRequests t) :
    e.SameRequests (t.modDeck d f) := ⟨k.toSameSched.modDeck hf, k.reqs, k.tenants⟩

theorem Engine.SameRequests.modFn {g} (k : e.SameRequests t) : e.SameRequests (t.modFn f g) := ⟨k.toSameSched.update, k.reqs, k.tenants⟩

theorem Engine.SameRequests.reply {h c d} (k : e.SameRequests t) : e.SameRequests (t.reply now h c d) := by
  unfold Engine.reply
  split
  · exact k
  · exact k.modFn

/-! ### Intake (R331 to R333, R337) -/

theorem Engine.SameRequests.leaveIntake {x} (k : e.SameRequests t) : e.SameRequests (t.leaveIntake x) := k.modDeck fun _ => rfl

theorem Engine.SameRequests.answerBad {n} (k : e.SameRequests t) : e.SameRequests (answerBad f now n t) := by
  induction n generalizing t with
  | zero => exact k
  | succ n ih =>
    unfold Machine.answerBad
    split
    · exact k
    · split
      · exact k
      · split
        · exact k
        · exact ih k.leaveIntake.modFn.reply

theorem Engine.SameRequests.copyCap {w} (k : e.SameRequests t) : e.SameRequests (t.copyCap w) := by
  cases w with
  | none => exact k
  | some w => exact ⟨k.toSameSched.update, k.reqs, k.tenants⟩

theorem Engine.SameRequests.packetIn {ptr x} (k : e.SameRequests t) : e.SameRequests (t.packetIn now f ptr x) :=
  have ho : e.SameRequests { t with order := t.order + 1 } := ⟨k.toSameSched.update, k.reqs, k.tenants⟩
  .answerBad (.modDeck (fun _ => rfl) (.copyCap ho))

theorem Engine.SameRequests.dwTry (k : e.SameRequests t) : e.SameRequests (t.dwTry now f) := by
  rw [Engine.dwTry]
  split
  · exact k.modFn.packetIn
  · exact k

theorem Engine.SameRequests.intakeMoves (k : e.SameRequests t) : e.SameRequests (t.intakeMoves now f) := k.answerBad.dwTry

/-- A command that its deck takes from intake (R331, R344). -/
theorem taken_sameRequests (s : State) (hd : Hdr) : s.eng.SameRequests (taken s hd) := by
  unfold taken
  split
  · exact (Engine.SameRequests.refl _).leaveIntake.modFn
  · exact ⟨(Engine.SameSched.refl _).update, rfl, rfl⟩

/-- What follows in intake once a command has left it. -/
theorem after_sameRequests (s : State) (hd : Hdr) (e : Engine) : e.SameRequests (after s hd e) := by
  unfold after
  split
  · exact (Engine.SameRequests.refl e).intakeMoves
  · exact .refl e

/-! ### Zero-fills (Table 5.5) -/

theorem Engine.SameRequests.zeroRegions {p} (k : e.SameRequests t) : e.SameRequests (t.zeroRegions p) := ⟨k.toSameSched.update, k.reqs, k.tenants⟩

theorem Engine.SameRequests.zeroAdapter {p} (k : e.SameRequests t) : e.SameRequests (t.zeroAdapter p) := ⟨k.toSameSched.update, k.reqs, k.tenants⟩

end SameRequests

end Sys2Proof.Machine
end

section
/-!
PROOFS. Binding field sets, images and tenants (R316 to R319), and the stages of a re-binding (R320).
-/
namespace Sys2Proof.Machine

open Sys2Proof.Safety

/-! ### PART_BIND_FIELDS (R316, R317) -/

/-- No re-binding of the partition is under way, no entry of it stands in the way, and no imprint session shares the fields (R190, R317). -/
def Engine.mayRebind (e : Engine) (p fields : Nat) (force : Bool) : Prop :=
  (e.part p).rebind = none ∧ (force = true ∨ e.reqsWhere (fun r => r.part == p && r.holds) = []) ∧ e.sessionOn fields = false

theorem Engine.mayRebind_iff {e : Engine} {p fields : Nat} {force : Bool} :
    ¬ ((e.part p).rebind.isSome = true ∨ (e.reqsWhere (fun r => r.part == p && r.holds) ≠ [] ∧ force = false) ∨ e.sessionOn fields = true) ↔
      e.mayRebind p fields force := by
  refine not_or.trans (and_congr (by simp) (not_or.trans (and_congr ?_ (by simp))))
  rw [not_and_or, not_not, Bool.not_eq_false, or_comm]

section BindFields
variable {e : Engine} {h : Hdr} {acc : Bool} {now fields img : Nat} (hk : ∀ k ∈ setBits fields 96, (e.deck (deckOf k)).latchedOff = false)
include hk

theorem find_latchedOff_eq_none : ¬ ((setBits fields 96).find? (fun k => (e.deck (deckOf k)).latchedOff)).isSome = true := by
  simpa using hk

theorem runBindFields_barred (hf : ¬ e.mayRebind h.part fields h.force) :
    runBindFields fields img h acc now e = e.reply now h .partState (partCode (e.part h.part).state) :=
  (if_neg (find_latchedOff_eq_none hk)).trans (if_pos (not_not.mp (mt Engine.mayRebind_iff.mp hf)))

variable (hf : e.mayRebind h.part fields h.force)
include hf

theorem runBindFields_taken {k : Nat} (ht : e.fieldTaken h.part fields = some k) :
    runBindFields fields img h acc now e = e.reply now h .fieldInUse k := by
  refine (if_neg (find_latchedOff_eq_none hk)).trans ((if_neg (Engine.mayRebind_iff.mpr hf)).trans ?_)
  rw [ht]

variable (ht : e.fieldTaken h.part fields = none)
include ht

theorem runBindFields_refused {c : Status} {d : Nat} (h0 : fields ≠ 0) (hr : e.bindRefused h.part fields img = some (c, d)) :
    runBindFields fields img h acc now e = e.reply now h c d := by
  refine (if_neg (find_latchedOff_eq_none hk)).trans ((if_neg (Engine.mayRebind_iff.mpr hf)).trans ?_)
  rw [ht, if_neg h0, hr]

theorem runBindFields_starts (hr : fields = 0 ∨ e.bindRefused h.part fields img = none) :
    runBindFields fields img h false now e = (e.reply now h .accepted 0).modPart h.part (fun q =>
      { q with state := if q.state = .free then .free else .rebinding,
               rebind := some { old := q.fields, fields := fields, image := img, stage := .drain, hd := h } }) := by
  have hr : (if fields = 0 then none else e.bindRefused h.part fields img) = none := ite_eq_left_iff.mpr hr.resolve_left
  refine (if_neg (find_latchedOff_eq_none hk)).trans ((if_neg (Engine.mayRebind_iff.mpr hf)).trans ?_)
  rw [ht, hr, Engine.accept_first]

end BindFields

/-! ### PART_BIND_IMAGE (R319) -/

section BindImage
variable {e : Engine} {h : Hdr} {acc : Bool} {now img : Nat}

theorem runBindImage_rebinding (hb : (e.part h.part).rebind.isSome = true) :
    runBindImage img h acc now e = e.reply now h .partState (partCode (e.part h.part).state) := if_pos hb

variable (hb : (e.part h.part).rebind = none)
include hb

theorem runBindImage_refused {c : Status} {d : Nat} (hr : e.bindRefused h.part (e.part h.part).fields img = some (c, d)) :
    runBindImage img h acc now e = e.reply now h c d := by
  refine (if_neg (by simp [hb])).trans ?_
  rw [hr]

theorem runBindImage_binds (hr : e.bindRefused h.part (e.part h.part).fields img = none) :
    runBindImage img h acc now e = ((e.bindImage h.part img now).zeroRegions h.part).okReply now h := by
  refine (if_neg (by simp [hb])).trans ?_
  rw [hr]

end BindImage

/-! ### FIELD_SET_REBIND_STAGE (R320) -/

/-- A re-binding of the partition at another stage. -/
def Engine.rebindAt (e : Engine) (p : Nat) (r : Rebind) (g : RebindStage) : Engine :=
  e.modPart p (fun q => { q with rebind := some { r with stage := g } })

/-- The partition as the end of a re-binding leaves it, before an image is bound to it. -/
def Engine.rebound (e : Engine) (p : Nat) (state : PartState) : Engine :=
  e.modPart p (fun q => { q with rebind := none, state := state, causes := [] })

/-- The partition PAUSED for each cause that its new fields give, and recorded in the commit (R407, R408, R425, R433). -/
def Engine.pauseFor (e : Engine) (p now : Nat) (causes : List PauseCause) : Engine := (causes.foldl (fun e c => e.pausePart p now c) e).commitPart p

section Stages
variable {e : Engine} {p now : Nat} {r : Rebind}

theorem endRebind_free (h0 : r.fields = 0) : e.endRebind p now r = ((e.rebound p .free).commitPart p).okReply now r.hd := by
  simp only [Engine.endRebind, h0, if_true]
  rfl

theorem endRebind_binds (h0 : r.fields ≠ 0) (hr : (e.rebound p .idle).bindRefused p r.fields r.image = none) : e.endRebind p now r =
    (((e.rebound p .idle).bindImage p r.image now).pauseFor p now ((e.rebound p .idle).bindCauses r.fields)).okReply now r.hd := by
  rw [Engine.rebound] at hr
  simp only [Engine.endRebind, h0, if_false, Engine.pauseFor, Engine.rebound, hr]
  rfl

theorem endRebind_refused (h0 : r.fields ≠ 0) {c : Status} {d : Nat} (hr : (e.rebound p .idle).bindRefused p r.fields r.image = some (c, d)) :
    e.endRebind p now r = ((e.rebound p .idle).pauseFor p now ((e.rebound p .idle).bindCauses r.fields)).reply now r.hd c d := by
  rw [Engine.rebound] at hr
  simp only [Engine.endRebind, h0, if_false, Engine.pauseFor, Engine.rebound, hr]
  rfl

variable (hr : (e.part p).rebind = some r)
include hr

theorem rebindStage_drain (hs : r.stage = .drain) :
    rebindStage p now e = if e.atBoundary [p] then (e.drain p now r.hd.force).rebindAt p r .kvRelease else e := by
  simp only [rebindStage, hr, hs, Engine.rebindAt]

theorem rebindStage_kvRelease (hs : r.stage = .kvRelease) : rebindStage p now e = if e.zeroing p then e else e.rebindAt p r .route := by
  simp only [rebindStage, hr, hs, Engine.rebindAt]

theorem rebindStage_route (hs : r.stage = .route) :
    rebindStage p now e = ((e.unbind p).modPart p (fun q => { q with fields := r.fields })).rebindAt p r .fill := by
  simp only [rebindStage, hr, hs, Engine.rebindAt]

theorem rebindStage_fill (hs : r.stage = .fill) :
    rebindStage p now e = ((e.zeroLeft p (r.old - (r.old &&& r.fields))).zeroRegions p).rebindAt p r .journal := by
  simp only [rebindStage, hr, hs, Engine.rebindAt]

theorem rebindStage_journal (hs : r.stage = .journal) : rebindStage p now e = e.endRebind p now r := by
  simp only [rebindStage, hr, hs]

end Stages

/-! ### TENANT_BIND (R318) -/

/-- The entries of a table in canonical form are what its keys read as. -/
theorem le_of_mem_mwfFrom {α : Type} [DecidableEq α] {d : Nat → α} {m : AMap α} {lo : Nat} (hw : mwfFrom d lo m = true) {x : Nat × α} (hx : x ∈ m) :
    lo ≤ x.1 := by
  induction m generalizing lo with
  | nil => cases hx
  | cons y r ih =>
    simp only [mwfFrom, Bool.and_eq_true, decide_eq_true_eq] at hw
    obtain rfl | hx := List.mem_cons.mp hx
    · exact hw.1.1
    · exact (hw.1.1.trans (Nat.le_succ _)).trans (ih hw.2 hx)

theorem mget_of_mem {α : Type} [DecidableEq α] {d : Nat → α} {m : AMap α} {lo : Nat} (hw : mwfFrom d lo m = true) {x : Nat × α} (hx : x ∈ m) :
    mget d x.1 m = x.2 := by
  induction m generalizing lo with
  | nil => cases hx
  | cons y r ih =>
    simp only [mwfFrom, Bool.and_eq_true] at hw
    rw [mget]
    obtain rfl | hx := List.mem_cons.mp hx
    · exact if_pos rfl
    · exact (if_neg (Nat.ne_of_lt (le_of_mem_mwfFrom hw.2 hx))).trans (ih hw.2 hx)

/-- The entries of a canonical request table that satisfy a test which an unlisted one fails. -/
theorem Engine.mem_reqsWhere {e : Engine} {f : Request → Bool} (hw : mwf (fun _ => ({} : Request)) e.reqs = true) (hf : f {} = false) {i : Nat} :
    i ∈ e.reqsWhere f ↔ f (e.req i) = true := by
  simp only [Engine.reqsWhere, List.mem_map, List.mem_filter]
  constructor
  · rintro ⟨x, ⟨hx, hfx⟩, rfl⟩
    rwa [Engine.req, mget_of_mem hw hx]
  · intro hi
    obtain h | h := mem_mget (d := fun _ => ({} : Request)) (k := i) (m := e.reqs)
    · rw [Engine.req, h, hf] at hi
      cases hi
    · exact ⟨_, ⟨h, hi⟩, rfl⟩

theorem Engine.req_modReq (e : Engine) (k i : Nat) (f : Request → Request) : (e.modReq k f).req i = if i = k then f (e.req i) else e.req i := by
  split
  · next h => rw [h, Engine.modReq_req]
  · next h => exact Engine.modReq_req_ne _ _ _ _ h

/-- The QUEUED entries of a tenant sent to another partition. -/
def Engine.moveReqs (e : Engine) (p : Nat) (l : List Nat) : Engine := l.foldl (fun e k => e.modReq k (fun r => { r with part := p })) e

theorem Engine.req_moveReqs (p i : Nat) (l : List Nat) (e : Engine) :
    (e.moveReqs p l).req i = if i ∈ l then { e.req i with part := p } else e.req i := by
  induction l generalizing e with
  | nil => rfl
  | cons k l ih =>
    rw [Engine.moveReqs, List.foldl_cons, ← Engine.moveReqs, ih, Engine.req_modReq]
    by_cases hk : i = k <;> by_cases hl : i ∈ l <;> simp [hk, hl]

theorem Engine.moveReqs_tenants (p : Nat) (l : List Nat) (e : Engine) : (e.moveReqs p l).tenants = e.tenants :=
  List.foldlRecOn (motive := fun (b : Engine) => b.tenants = e.tenants) l _ rfl fun _ h _ _ => h

/-- A tenant bound to a partition (R318). -/
def Engine.setHome (e : Engine) (t p : Nat) : Engine :=
  e.modTenant t (fun q => { q with part := p, bound := true, deficit := 0, nextPart := none })

/-- The RETAIN = 0 regions of partitions zero-filled, and their adapter areas unless these are kept (Table 5.5, R293). -/
def Engine.zeroParts (e : Engine) (keep : Bool) (ps : List Nat) : Engine :=
  ps.foldl (fun e p => if keep then e.zeroRegions p else (e.zeroRegions p).zeroAdapter p) e

theorem Engine.zeroParts_sameRequests (e : Engine) (keep : Bool) (ps : List Nat) : e.SameRequests (e.zeroParts keep ps) := by
  refine Engine.SameRequests.foldl (fun t p k => ?_) (.refl e)
  split
  · exact k.zeroRegions
  · exact k.zeroRegions.zeroAdapter

/-- A tenant moved to a partition: what its entries hold is ended, those QUEUED go along, and both partitions are zero-filled (R318). -/
def Engine.moveTenant (e : Engine) (t p now : Nat) (keep : Bool) : Engine :=
  let x := e.endWhere now 8 (fun r => r.tenant == t && r.holds)
  ((x.moveReqs p (x.reqsWhere (fun r => r.tenant == t && r.state == .queued))).setHome t p).zeroParts keep
    (if (e.tenant t).bound then [(e.tenant t).part, p].eraseDups else [p])

section Tenant
variable {e : Engine} {t now : Nat} {h : Hdr} {acc : Bool}

theorem runTenantBind_refused (hn : e.reqsWhere (fun r => r.tenant == t && r.holds) ≠ []) (hf : h.force = false) :
    runTenantBind t h acc now e = (e.modTenant t (fun q => { q with nextPart := none })).reply now h .tenantState 0 := if_pos ⟨hn, hf⟩

theorem runTenantBind_moves (hn : e.reqsWhere (fun r => r.tenant == t && r.holds) = [] ∨ h.force = true) :
    runTenantBind t h acc now e = (e.moveTenant t h.part now h.keepAdapt).okReply now h :=
  if_neg fun ⟨h0, hf⟩ => hn.elim h0 (Bool.eq_false_iff.mp hf)

theorem Engine.moveReqs_sameSched (e : Engine) (p : Nat) (l : List Nat) : e.SameSched (e.moveReqs p l) := .foldl (fun _ _ k => k.modReq) (.refl e)

theorem Engine.moveTenant_sameSched (e : Engine) (t p now : Nat) (keep : Bool) : e.SameSched (e.moveTenant t p now keep) :=
  ((Engine.SameSched.refl e).endWhere.trans (moveReqs_sameSched ..)).modTenant.trans (zeroParts_sameRequests ..).toSameSched

/-- TENANT_BIND leaves the schedule tables as they are. -/
theorem runTenantBind_sameSched : e.SameSched (runTenantBind t h acc now e) := by
  by_cases hn : e.reqsWhere (fun r => r.tenant == t && r.holds) ≠ [] ∧ h.force = false
  · rw [runTenantBind_refused hn.1 hn.2]
    exact (Engine.SameSched.refl e).modTenant.trans (Engine.SameRequests.refl _).reply.toSameSched
  · rw [runTenantBind_moves (by rwa [not_and_or, not_not, Bool.not_eq_false] at hn)]
    exact (Engine.moveTenant_sameSched ..).trans (Engine.SameRequests.refl _).reply.toSameSched

/-- Where no entry of the tenant is in progress, its move sends those QUEUED along and changes no other. -/
theorem Engine.req_moveTenant (hn : e.reqsWhere (fun r => r.tenant == t && r.holds) = []) (hw : mwf (fun _ => ({} : Request)) e.reqs = true)
    (p : Nat) (keep : Bool) (i : Nat) : (e.moveTenant t p now keep).req i =
      if (e.req i).tenant = t ∧ (e.req i).state = .queued then { e.req i with part := p } else e.req i := by
  have hx : e.endWhere now 8 (fun r => r.tenant == t && r.holds) = e := by rw [Engine.endWhere, hn]; rfl
  have hm : i ∈ e.reqsWhere (fun r => r.tenant == t && r.state == .queued) ↔ (e.req i).tenant = t ∧ (e.req i).state = .queued := by
    rw [mem_reqsWhere hw (by simp)]
    simp
  rw [Engine.moveTenant, hx, (zeroParts_sameRequests ..).req]
  exact (req_moveReqs ..).trans (by simp only [hm])

theorem Engine.tenant_moveTenant (hn : e.reqsWhere (fun r => r.tenant == t && r.holds) = []) (p : Nat) (keep : Bool) (k : Nat) :
    (e.moveTenant t p now keep).tenant k = (e.setHome t p).tenant k := by
  have hx : e.endWhere now 8 (fun r => r.tenant == t && r.holds) = e := by rw [Engine.endWhere, hn]; rfl
  rw [Engine.moveTenant, hx, (zeroParts_sameRequests ..).tenant, Engine.setHome, Engine.setHome, Engine.modTenant, Engine.modTenant, Engine.tenant,
    Engine.tenant, moveReqs_tenants]

end Tenant

/-! ### The commands through intake, and the event -/

theorem accepted_fnOk {s : State} {hd : Hdr} {c : Instr} {f : Form} (ha : accepted s hd c f = true) : fnOk hd.fn = true := by
  simp only [accepted, arrives, Bool.and_eq_true] at ha
  obtain ⟨⟨⟨⟨⟨⟨⟨hf, -⟩, -⟩, -⟩, -⟩, -⟩, -⟩, -⟩ := ha
  exact hf

section Commands
variable {s : State} {hd : Hdr} {g : Engine → Engine}

theorem exec_partBindFields {fields img : Nat} (hg : goes s hd (.partBindFields hd fields img) (partBindFieldsForm hd fields img s.eng) = true)
    (hr : runBindFields fields img (due s hd) false s.now (taken s hd) = g (taken s hd)) : exec (.partBindFields hd fields img) s = took s hd g :=
  hostCmd_tookAt (f := partBindFieldsForm hd fields img) hg rfl hr

theorem exec_partBindImage {img : Nat} (hg : goes s hd (.partBindImage hd img) (partBindImageForm hd img s.eng) = true)
    (hr : runBindImage img (due s hd) false s.now (taken s hd) = g (taken s hd)) : exec (.partBindImage hd img) s = took s hd g :=
  hostCmd_tookAt (f := partBindImageForm hd img) hg rfl hr

/-- One that executes at once adds nothing to the schedule table, so that submissions are not redirected (R318). -/
theorem exec_tenantBind {t : Nat} (hg : goes s hd (.tenantBind hd t) (tenantBindForm hd t s.eng) = true)
    (hr : runTenantBind t (due s hd) false s.now (taken s hd) = g (taken s hd)) : exec (.tenantBind hd t) s = took s hd g := by
  have hok : fnOk hd.fn = true := by
    simp only [goes, Bool.and_eq_true] at hg
    exact accepted_fnOk hg.1.1.1
  have hc : hostCmd hd (.tenantBind hd t) (tenantBindForm hd t) (runTenantBind t) s = took s hd g := hostCmd_tookAt hg rfl hr
  rw [hostCmd, onUnit_of hok, took] at hc
  have he : s.eng.command s.now hd (.tenantBind hd t) (tenantBindForm hd t s.eng) (runTenantBind t) = after s hd (g (taken s hd)) :=
    congrArg State.eng (Host.Outcome.next.inj hc)
  have hs : s.eng.SameSched (after s hd (g (taken s hd))) := hr ▸
    ((taken_sameRequests s hd).toSameSched.trans runTenantBind_sameSched).trans (after_sameRequests s hd _).toSameSched
  have hn : ¬ s.eng.heldOf hd.fn < (s.eng.command s.now hd (.tenantBind hd t) (tenantBindForm hd t s.eng) (runTenantBind t)).heldOf hd.fn :=
    he ▸ (hs.heldOf hd.fn).not_gt
  exact onUnit_eq hok ((if_neg hn).trans he)

end Commands

theorem exec_fieldSetRebindStage {s : State} {p : Nat} {e : Engine} (hp : p < 32) (h : rebindStage p s.now s.eng = e) :
    exec (.fieldSetRebindStage p) s = .next (withEng s e) := onUnit_eq (decide_eq_true hp) h

/-! ### The statement -/

/-- A tenant of which nothing is in progress moves with its QUEUED entries, and no other entry or tenant changes. -/
theorem tenantBind_result {s : State} {hd : Hdr} {t : Nat} (hg : goes s hd (.tenantBind hd t) (tenantBindForm hd t s.eng) = true)
    (hn : (taken s hd).reqsWhere (fun r => r.tenant == t && r.holds) = []) (hw : mwf (fun _ => ({} : Request)) s.eng.reqs = true) :
    ∃ u, exec (.tenantBind hd t) s = .next u ∧ (u.eng.tenant t).part = hd.part ∧ (u.eng.tenant t).bound = true ∧
      (u.eng.tenant t).deficit = 0 ∧ (∀ k, k ≠ t → u.eng.tenant k = s.eng.tenant k) ∧
      ∀ i, u.eng.req i = if (s.eng.req i).tenant = t ∧ (s.eng.req i).state = .queued then { s.eng.req i with part := hd.part } else s.eng.req i := by
  have ht := taken_sameRequests s hd
  have hm := runTenantBind_moves (h := due s hd) (acc := false) (now := s.now) (.inl hn)
  have hu : ((taken s hd).moveTenant t hd.part s.now hd.keepAdapt).SameRequests _ :=
    (Engine.SameRequests.refl _).reply.trans (after_sameRequests s hd (((taken s hd).moveTenant t hd.part s.now hd.keepAdapt).okReply s.now (due s hd)))
  have hk (k : Nat) := (hu.tenant k).trans (Engine.tenant_moveTenant hn hd.part hd.keepAdapt k)
  refine ⟨_, exec_tenantBind (g := fun e => (e.moveTenant t hd.part s.now hd.keepAdapt).okReply s.now (due s hd)) hg hm, ?_, ?_, ?_, fun k hne => ?_, fun i => ?_⟩
  · exact (congrArg Tenant.part (hk t)).trans (by simp [Engine.setHome])
  · exact (congrArg Tenant.bound (hk t)).trans (by simp [Engine.setHome])
  · exact (congrArg Tenant.deficit (hk t)).trans (by simp [Engine.setHome])
  · exact (hk k).trans ((Engine.modTenant_tenant_ne _ _ _ _ hne).trans (ht.tenant k))
  · exact (hu.req i).trans ((Engine.req_moveTenant hn (ht.reqs ▸ hw) hd.part hd.keepAdapt i).trans (by rw [ht.req]))

/-- Settles O39: each command by the branches of its effect, and a re-binding by its stage. -/
theorem bindingCommands : Obligations.BindingCommands := by
  refine ⟨fun s hd => ⟨fun fields img hg hk => ?fields, fun img hg => ?image, fun t hg => ?tenant⟩, fun s p r hp hr => ?stage⟩
  case fields =>
    intro free
    refine ⟨fun hf => exec_partBindFields hg (runBindFields_barred (h := due s hd) hk hf), fun hf => ⟨fun k ht => ?_, fun c d ht h0 hr => ?_, fun ht hr => ?_⟩⟩
    · exact exec_partBindFields hg (runBindFields_taken (h := due s hd) hk hf ht)
    · exact exec_partBindFields hg (runBindFields_refused (h := due s hd) hk hf ht h0 hr)
    · exact exec_partBindFields hg (runBindFields_starts (h := due s hd) hk hf ht hr)
  case image =>
    exact ⟨fun hb => exec_partBindImage hg (runBindImage_rebinding (h := due s hd) hb), fun hb =>
      ⟨fun hr => exec_partBindImage hg (runBindImage_binds (h := due s hd) hb hr), fun c d hr => exec_partBindImage hg (runBindImage_refused (h := due s hd) hb hr)⟩⟩
  case tenant =>
    intro none'
    exact ⟨fun hn hf => exec_tenantBind hg (runTenantBind_refused (h := due s hd) hn hf),
      fun hn => exec_tenantBind hg (runTenantBind_moves (h := due s hd) hn), fun hn hw => tenantBind_result hg hn hw⟩
  case stage =>
    intro into
    refine ⟨fun hs => ⟨fun hb => ?_, fun hb => ?_⟩, fun hs => ⟨fun hz => ?_, fun hz => ?_⟩, fun hs => ?_, fun hs => ?_, fun hs h0 => ?_, fun hs h0 => ⟨fun hb => ?_, fun c d hb => ?_⟩⟩
    · exact exec_fieldSetRebindStage hp ((rebindStage_drain hr hs).trans (if_pos hb))
    · exact exec_fieldSetRebindStage hp ((rebindStage_drain hr hs).trans (if_neg (Bool.eq_false_iff.mp hb)))
    · exact exec_fieldSetRebindStage hp ((rebindStage_kvRelease hr hs).trans (if_neg (Bool.eq_false_iff.mp hz)))
    · exact exec_fieldSetRebindStage hp ((rebindStage_kvRelease hr hs).trans (if_pos hz))
    · exact exec_fieldSetRebindStage hp (rebindStage_route hr hs)
    · exact exec_fieldSetRebindStage hp (rebindStage_fill hr hs)
    · exact exec_fieldSetRebindStage hp ((rebindStage_journal hr hs).trans (endRebind_free h0))
    · exact exec_fieldSetRebindStage hp ((rebindStage_journal hr hs).trans (endRebind_binds h0 hb))
    · exact exec_fieldSetRebindStage hp ((rebindStage_journal hr hs).trans (endRebind_refused h0 hb))

end Sys2Proof.Machine
end

section
/-!
PROOFS. Actions announced by tick (R315, R367, R372, R373, R378): a participant's answer to a prepare, the coordinator's decision and its resends.
-/
namespace Sys2Proof.Machine

open Sys2Proof.Safety

/-! ### EPOCH_PREPARE (R367, R372, R378) -/

/-- The partition takes part in an action: no other epoch is open on it, it is bound, and the deadline has not passed (R372). -/
def Engine.takesPart (e : Engine) (m : Prepare) (now : Nat) : Prop :=
  (e.part m.part).prepared = none ∧ (e.part m.part).state ≠ .free ∧ (e.part m.part).state ≠ .rebinding ∧ now ≤ m.deadline

theorem Engine.mayPrepare_iff {e : Engine} {m : Prepare} {now : Nat} : e.mayPrepare m now = true ↔ e.takesPart m now := by
  simp [Engine.mayPrepare, Engine.takesPart, and_assoc]

theorem Engine.mayPrepare_eq_false {e : Engine} {m : Prepare} {now : Nat} : e.mayPrepare m now = false ↔ ¬ e.takesPart m now := by
  rw [← Engine.mayPrepare_iff, Bool.not_eq_true]

/-- The answer to a prepare of a two-phase action, to its coordinator: 1 acknowledges, 2 refuses. -/
def Engine.answerPrepare (e : Engine) (now : Nat) (m : Prepare) (phase : Nat) : Engine :=
  if m.twoPhase = true then e.ctrl now m.coordinator m.part (.epoch m.part m.epoch phase) else e

section Prepare
variable {e : Engine} {m : Prepare} {now : Nat}

theorem epochPrepare_modes_refuses {x : Modes} (hw : m.what = .modes x) (ht : ¬ e.takesPart m now) : epochPrepare m now e = e.answerPrepare now m 2 := by
  simp only [epochPrepare, hw]
  exact if_neg (mt Engine.mayPrepare_iff.mp ht)

theorem epochPrepare_modes_takes {x : Modes} (hw : m.what = .modes x) (ht : e.takesPart m now) : epochPrepare m now e =
    Engine.answerPrepare (({ e with order := e.order + 1 } : Engine).modPart m.part (fun q => { q with
      prepared := some { msg := m, modes := x, turn := { tick := now, deck := e.partDeck m.part, seq := e.order } } })) now m 1 := by
  simp only [epochPrepare, hw]
  exact if_pos (Engine.mayPrepare_iff.mpr ht)

theorem epochPrepare_snapshot (hw : m.what = .snapshot) : epochPrepare m now e = e.answerPrepare now m (if e.mayPrepare m now then 1 else 2) := by
  simp only [epochPrepare, hw]
  rfl

theorem epochPrepare_failed {l : List Nat} (hw : m.what = .failed l) : epochPrepare m now e =
    e.modPart m.part (fun q => { q with failed := if q.step.isSome then q.failed ++ l else q.failed }) := by
  simp only [epochPrepare, hw]

theorem epochPrepare_stop {g : Bool} (hw : m.what = .stop g) : epochPrepare m now e = e.stopPartStep m.part now g := by
  simp only [epochPrepare, hw]

theorem stopPartStep_abandons {p : Nat} (hs : (e.part p).step ≠ none) : e.stopPartStep p now true = e.abandonStep p now :=
  if_pos (by simpa using Option.isSome_iff_ne_none.mpr hs)

theorem stopPartStep_pausesAfter {p : Nat} (hs : (e.part p).step ≠ none) :
    e.stopPartStep p now false = e.modPart p (fun q => { q with pauseAfter := true }) :=
  (if_neg (by simp)).trans (if_pos (Option.isSome_iff_ne_none.mpr hs))

theorem stopPartStep_pauses {p : Nat} {g : Bool} (hs : (e.part p).step = none) :
    e.stopPartStep p now g = e.pausePart p now (if g then .graphFault else .normWatch) :=
  (if_neg (by simp [hs])).trans (if_neg (by simp [hs]))

section Command
variable {fn : Fn} {bs : List Byte} (hw : m.what = .command fn bs)
include hw

theorem epochPrepare_command_unread (hc : commandOf fn bs [] = none) : epochPrepare m now e = e.answerPrepare now m 2 := by
  simp only [epochPrepare, hw, hc]
  rfl

variable {c : Instr} {f : Engine → Form} {run : Hdr → Bool → Nat → Engine → Engine} (hc : commandOf fn bs [] = some c)
  (hq : ∀ h k a, c ≠ .reqQuery h k a) (hr : hostEffect c = some (f, run))
include hc hq hr

theorem epochPrepare_command : epochPrepare m now e = if m.twoPhase && !e.mayPrepare m now then e.answerPrepare now m 2
    else (e.holdForwarded m fn bs c (f e) now).answerPrepare now m 1 := by
  simp only [epochPrepare, hw, hc, hr]
  rfl

theorem epochPrepare_command_refuses (h2 : m.twoPhase = true) (ht : ¬ e.takesPart m now) : epochPrepare m now e = e.answerPrepare now m 2 :=
  (epochPrepare_command hw hc hq hr).trans (if_pos (by simp [h2, Engine.mayPrepare_eq_false.mpr ht]))

theorem epochPrepare_command_holds (ht : m.twoPhase = false ∨ e.takesPart m now) :
    epochPrepare m now e = (e.holdForwarded m fn bs c (f e) now).answerPrepare now m 1 := by
  refine (epochPrepare_command hw hc hq hr).trans (if_neg ?_)
  rcases ht with h2 | ht
  · simp [h2]
  · simp [Engine.mayPrepare_iff.mpr ht]

end Command

end Prepare

/-! ### EPOCH_ACK (R372) -/

theorem filter_bne_eq_nil {l : List Nat} {n : Nat} : l.filter (· != n) = [] ↔ ∀ j ∈ l, j = n := by
  simp [List.filter_eq_nil_iff]

theorem filter_bne_ne_nil {l : List Nat} {n : Nat} : l.filter (· != n) ≠ [] ↔ ∃ j ∈ l, j ≠ n := by
  simp

section ModeAck
variable {e : Engine} {p n k now : Nat} {c : Coord}

theorem epochAck_noCoord {ok : Bool} (hk : k < 256) (hc : (e.part p).coord = none) : epochAck p n k ok now e = e := by
  simp only [epochAck, hc]
  exact if_neg (Nat.not_le.mpr hk)

variable (hk : k < 256) (hc : (e.part p).coord = some c)
include hk hc

theorem epochAck_coord {ok : Bool} : epochAck p n k ok now e = if c.msg.epoch = k then e.ackEpoch now p c n ok else e := by
  simp only [epochAck, hc]
  exact if_neg (Nat.not_le.mpr hk)

theorem epochAck_ignored {ok : Bool} (h : c.msg.epoch ≠ k ∨ c.decision ≠ none ∨ n ∉ c.waiting) : epochAck p n k ok now e = e := by
  rw [epochAck_coord hk hc]
  refine ite_eq_right_iff.mpr fun he => if_pos ?_
  have h := h.resolve_left (not_not.mpr he)
  simpa [Option.isSome_iff_ne_none] using h

variable (he : c.msg.epoch = k) (hd : c.decision = none) (hn : n ∈ c.waiting)
include he hd hn

theorem epochAck_aborts : epochAck p n k false now e = e.abortEpoch now p c n :=
  (epochAck_coord hk hc).trans ((if_pos he).trans ((if_neg (by simp [hd, hn])).trans (if_pos rfl)))

theorem epochAck_waits (hl : ∃ j ∈ c.waiting, j ≠ n) : epochAck p n k true now e =
    e.modPart p (fun q => { q with coord := some { c with waiting := c.waiting.filter (· != n) } }) :=
  (epochAck_coord hk hc).trans ((if_pos he).trans ((if_neg (by simp [hd, hn])).trans ((if_neg (by simp)).trans (if_pos (filter_bne_ne_nil.mpr hl)))))

theorem epochAck_commits (hl : ∀ j ∈ c.waiting, j = n) : epochAck p n k true now e =
    (e.epochMsg now c.nodes c.msg.epoch 3).modPart p (fun q => { q with
      prepared := q.prepared.map (fun x => { x with decided := some true })
      coord := some { c with waiting := [], decision := some true, nextSend := now + 100 } }) :=
  (epochAck_coord hk hc).trans ((if_pos he).trans ((if_neg (by simp [hd, hn])).trans ((if_neg (by simp)).trans
    (if_neg (not_not.mpr (filter_bne_eq_nil.mpr hl))))))

end ModeAck

section ActAck
variable {e : Engine} {p n k d now : Nat} {x : Held} {a : Act} (hk : 256 ≤ k) (hx : e.actHeld k = some (d, x)) (ha : x.act = some a)
include hk hx ha

theorem epochAck_act_ignored {ok : Bool} (h : a.decision ≠ none ∨ n + 4096 * p ∉ a.waiting) : epochAck p n k ok now e = e := by
  refine (if_pos hk).trans ?_
  simp only [Engine.ackAct, hx, ha]
  exact if_pos (by simpa [Option.isSome_iff_ne_none] using h)

variable (hd : a.decision = none) (hn : n + 4096 * p ∈ a.waiting)
include hd hn

theorem epochAck_act_aborts : epochAck p n k false now e = e.abortHeld now d x a n := by
  refine (if_pos hk).trans ?_
  simp only [Engine.ackAct, hx, ha]
  exact (if_neg (by simp [hd, hn])).trans (if_pos rfl)

theorem epochAck_act_accepted : epochAck p n k true now e = if (a.acked (n + 4096 * p)).decision.isSome
    then (e.setAct d x (a.acked (n + 4096 * p))).decideAct now (x.parts.headD 0) (a.acked (n + 4096 * p)) true
    else e.setAct d x (a.acked (n + 4096 * p)) := by
  refine (if_pos hk).trans ?_
  simp only [Engine.ackAct, hx, ha]
  exact (if_neg (by simp [hd, hn])).trans (if_neg (by simp))

theorem epochAck_act_waits (hl : ∃ j ∈ a.waiting, j ≠ n + 4096 * p) : epochAck p n k true now e = e.setAct d x (a.acked (n + 4096 * p)) := by
  have hl : (a.waiting.filter (· != n + 4096 * p)).isEmpty = false := by
    rw [List.isEmpty_eq_false_iff]
    exact filter_bne_ne_nil.mpr hl
  refine (epochAck_act_accepted hk hx ha hd hn).trans (if_neg ?_)
  simp [Act.acked, hl, hd]

theorem epochAck_act_commits (hl : ∀ j ∈ a.waiting, j = n + 4096 * p) : epochAck p n k true now e =
    (e.setAct d x (a.acked (n + 4096 * p))).decideAct now (x.parts.headD 0) (a.acked (n + 4096 * p)) true := by
  refine (epochAck_act_accepted hk hx ha hd hn).trans (if_pos ?_)
  simp [Act.acked, filter_bne_eq_nil.mpr hl]

end ActAck

/-! ### EPOCH_DEADLINE and EPOCH_DECISION_RESEND (R372, R373) -/

section Coordinator
variable {e : Engine} {p now : Nat}

/-- The partition's mode epoch aborted, where its deadline has passed without a decision. -/
def Engine.abortLate (e : Engine) (p now : Nat) : Option Coord → Engine
  | some c => if c.decision = none ∧ c.msg.deadline ≤ now then e.abortEpoch now p c (c.waiting.headD 0) else e
  | none => e

/-- A snapshot or restore aborted, where its deadline has passed without a decision. -/
def Engine.abortLateSnap (now : Nat) (e : Engine) (x : Snap) : Engine :=
  match x.act with
  | some a => if a.decision = none ∧ a.deadline ≤ now then e.abortSnap now x a (a.waiting.headD 0 % 4096) else e
  | none => e

theorem epochDeadline_eq : epochDeadline p now e =
    (let e1 := e.abortLate p now (e.part p).coord
     let e2 := (e1.lateHeld p now).foldl (fun e x => e.abortHeld now x.1 x.2.1 x.2.2 (x.2.2.waiting.headD 0 % 4096)) e1
     (e2.snaps.filter (fun x => x.mask.testBit p)).foldl (Engine.abortLateSnap now) e2) := by
  simp only [epochDeadline, Bool.and_eq_true, Option.isNone_iff_eq_none, decide_eq_true_eq]
  cases (e.part p).coord <;> rfl

/-- The decision of the partition's last mode epoch sent again, where 100 ticks have passed. -/
def Engine.resendMode (e : Engine) (p now : Nat) : Option Coord → Engine
  | some c => match c.decision with
    | some d => if now < c.nextSend then e
      else (e.epochMsg now c.nodes c.msg.epoch (if d then 3 else 4)).modPart p (fun q => { q with coord := some { c with nextSend := now + 100 } })
    | none => e
  | none => e

theorem decisionResend_eq : decisionResend p now e =
    (let e1 := e.resendMode p now (e.part p).coord
     (((e1.part p).told.filter (fun x => decide (x.2.2.2 ≤ now))).foldl (fun e x =>
       e.epochMsg now (x.2.1.map (fun n => (n % 4096, n / 4096))) x.1 (if x.2.2.1 then 3 else 4)) e1).modPart p (fun q =>
         { q with told := q.told.map (fun x => if x.2.2.2 ≤ now then (x.1, x.2.1, x.2.2.1, now + 100) else x) })) := by
  unfold decisionResend
  cases (e.part p).coord with
  | none => rfl
  | some c =>
    obtain ⟨-, -, -, decision, -, -⟩ := c
    cases decision <;> rfl

end Coordinator

/-! ### EPOCH_DECISION (R373) -/

/-- The partition coordinates an epoch that is not decided yet. -/
def Part.leads (q : Part) : Prop := ∃ c, q.coord = some c ∧ c.decision = none

theorem Part.leads_iff (q : Part) : q.coord.any (fun c => c.decision.isNone) = true ↔ q.leads := by
  simp [Part.leads, Option.any_eq_true]

section Decision
variable {e : Engine} {p n : Nat} {b : Bool}

theorem epochDecision_noEpoch (hn : n < 256) (hx : (e.part p).prepared = none) : epochDecision p n b e = e := by
  simp only [epochDecision, hx]
  exact if_neg (Nat.not_le.mpr hn)

variable {x : Prepared} (hn : n < 256) (hx : (e.part p).prepared = some x)
include hn hx

theorem epochDecision_ignored (h : x.msg.epoch ≠ n ∨ x.decided ≠ none ∨ (e.part p).leads) : epochDecision p n b e = e := by
  simp only [epochDecision, hx]
  refine (if_neg (Nat.not_le.mpr hn)).trans (if_pos ?_)
  rwa [Part.leads_iff, Option.isSome_iff_ne_none]

theorem epochDecision_takes (he : x.msg.epoch = n) (hd : x.decided = none) (hl : ¬ (e.part p).leads) : epochDecision p n b e =
    e.modPart p (fun q => { q with prepared := if b then some { x with decided := some true } else none }) := by
  simp only [epochDecision, hx]
  refine (if_neg (Nat.not_le.mpr hn)).trans (if_neg ?_)
  rw [Part.leads_iff]
  simp [he, hd, hl]

end Decision

/-! ### The events -/

section Exec
variable {s : State} {e : Engine} {p n : Nat} (hp : p < 32)

theorem exec_epochPrepare {m : Prepare} (hp : m.part < 32) (h : epochPrepare m s.now s.eng = e) : exec (.epochPrepare m) s = .next (withEng s e) :=
  onUnit_eq (decide_eq_true hp) h

include hp

theorem exec_epochAck {k : Nat} {ok : Bool} (h : epochAck p n k ok s.now s.eng = e) : exec (.epochAck p n ok k) s = .next (withEng s e) :=
  onUnit_eq (decide_eq_true hp) h

theorem exec_epochDeadline (h : epochDeadline p s.now s.eng = e) : exec (.epochDeadline p) s = .next (withEng s e) := onUnit_eq (decide_eq_true hp) h

theorem exec_epochDecisionResend (h : decisionResend p s.now s.eng = e) : exec (.epochDecisionResend p) s = .next (withEng s e) :=
  onUnit_eq (decide_eq_true hp) h

theorem exec_epochDecision {b : Bool} (h : epochDecision p n b s.eng = e) : exec (.epochDecision p n b) s = .next (withEng s e) :=
  onUnit_eq (f := fun _ e => epochDecision p n b e) (decide_eq_true hp) h

end Exec

end Sys2Proof.Machine
end

section
/-!
PROOFS. The parts of a span (R365, R366): an announcement of another part, and what a part receives from the engines of the others in a step.
-/
namespace Sys2Proof.Machine

open Sys2Proof.Safety

/-! ### SPAN_ANNOUNCE (R365) -/

/-- Partitions changed in turn. -/
def Engine.modParts (e : Engine) (f : Part → Part) (l : List Nat) : Engine := l.foldl (fun e p => e.modPart p f) e

theorem Engine.modParts_frame (f : Part → Part) (l : List Nat) (e : Engine) : e.modParts f l = { e with parts := (e.modParts f l).parts } :=
  List.foldlRecOn (motive := fun (x : Engine) => x = { e with parts := x.parts }) l _ rfl fun x h p _ => by rw [h]; rfl

theorem Engine.part_modParts (f : Part → Part) {l : List Nat} (hl : l.Nodup) (e : Engine) (k : Nat) :
    (e.modParts f l).part k = if k ∈ l then f (e.part k) else e.part k := by
  induction l generalizing e with
  | nil => rfl
  | cons p l ih =>
    obtain ⟨hp, hl⟩ := List.nodup_cons.mp hl
    rw [Engine.modParts, List.foldl_cons, ← Engine.modParts, ih hl]
    by_cases hk : k = p
    · subst hk
      rw [if_neg hp, Engine.modPart_part, if_pos (List.mem_cons_self ..)]
    · simp only [Engine.modPart_part_ne _ _ _ _ hk, List.mem_cons, hk, false_or]

/-- The partition holds another part of the span that an announcement speaks of. -/
def Engine.holdsOther (e : Engine) (a : SpanPart) (p : Nat) : Bool :=
  let q := e.part p
  q.spanLast != 0 && decide (a.part ≤ q.spanLast) && a.part != q.spanIndex && (match q.image with | some i => (e.image i).id == a.id | none => false)

theorem Engine.holdsOther_iff {e : Engine} {a : SpanPart} {p : Nat} : e.holdsOther a p = true ↔
    (e.part p).spanLast ≠ 0 ∧ a.part ≤ (e.part p).spanLast ∧ a.part ≠ (e.part p).spanIndex ∧
      ∃ i, (e.part p).image = some i ∧ (e.image i).id = a.id := by
  cases hi : (e.part p).image <;> simp [Engine.holdsOther, hi, and_assoc]

/-- An announcement kept in place of an earlier one of the same part. -/
def Engine.keepHeard (e : Engine) (a : SpanPart) : Engine :=
  { e with heard := e.heard.filter (fun b => !(b.id == a.id && b.part == a.part)) ++ [a] }

/-- The partitions that hold another part told where the announced one is. -/
def Engine.tellHeard (e : Engine) (a : SpanPart) : Engine :=
  e.modParts (fun q => { q with spanOf := mset (fun _ => 0xFFF) a.part (a.node + 4096 * a.partition) q.spanOf })
    ((List.range 32).filter (e.holdsOther a))

section Announce
variable {e : Engine} {a : SpanPart} {now : Nat}

theorem Engine.part_tellHeard (k : Nat) : (e.tellHeard a).part k = if k < 32 ∧ e.holdsOther a k = true
    then { e.part k with spanOf := mset (fun _ => 0xFFF) a.part (a.node + 4096 * a.partition) (e.part k).spanOf } else e.part k := by
  simp only [Engine.tellHeard, part_modParts _ (List.nodup_range.filter _), List.mem_filter, List.mem_range]

theorem spanAnnounce_known (h : heardPart a ∈ e.heard) : spanAnnounce a now e = (e.keepHeard (heardPart a)).tellHeard (heardPart a) :=
  if_neg (by simpa using h)

theorem spanAnnounce_news (h : heardPart a ∉ e.heard) : spanAnnounce a now e =
    ((e.keepHeard (heardPart a)).tellHeard (heardPart a)).announceParts now (fun b => b.id == a.id) (fun _ _ => true) :=
  if_pos (by simpa using h)

end Announce

/-! ### SPAN_BATCH_RECEIVE (R33, R366) -/

section Batch
variable {e : Engine} {p now : Nat} {batch : List Byte} {dirs : List (Loc × List Byte)}

theorem spanBatch_busy (h : (e.part p).step.isSome = true ∨ (e.part p).capture = true ∨ e.serving = false) : spanBatch p batch dirs now e = e :=
  if_pos (by simpa [or_assoc] using h)

theorem spanBatch_free (hs : (e.part p).step = none) (hc : (e.part p).capture = false) (hv : e.serving = true) :
    spanBatch p batch dirs now e =
      (let b := (e.disableStops now).boundary p now
       if b.mayFollow p now then b.followStep p now batch dirs else b) := if_neg (by simp [hs, hc, hv])

end Batch

/-! ### SPAN_HANDOFF, SPAN_RECORDS_RETURN, SPAN_ACCEPTED_PATH (R366) -/

section Idle
variable {e : Engine} {p r now : Nat} {data : List Byte} (hs : (e.part p).step = none)
include hs

theorem spanHandoff_idle : spanHandoff p r data e = e := by simp only [spanHandoff, hs]

theorem spanRecords_idle : spanRecords p r data e = e := by simp only [spanRecords, hs]

theorem spanPaths_idle {paths : List (Nat × Nat × List Nat)} : spanPaths p paths now e = e := by simp only [spanPaths, hs]

end Idle

section Running
variable {e : Engine} {p r now : Nat} {u : Loc} {data : List Byte} {st : Step} (hs : (e.part p).step = some st)
include hs

theorem spanHandoff_noTile (hr : (e.batchTiles p)[r]? = none) : spanHandoff p r data e = e := by simp only [spanHandoff, hs, hr]

theorem spanHandoff_unawaited (hr : (e.batchTiles p)[r]? = some u) (hu : u ∉ st.waits) : spanHandoff p r data e = e := by
  simp only [spanHandoff, hs, hr]
  exact if_pos (by simpa using hu)

theorem spanHandoff_awaited (hr : (e.batchTiles p)[r]? = some u) (hu : u ∈ st.waits) : spanHandoff p r data e =
    (e.toRoleAt p u 1 (ceilDiv (64 + 32 * st.batch.length) 64 * 64) data).modPart p (fun q =>
      { q with step := q.step.map (fun x => { x with waits := x.waits.filter (· != u) }) }) := by
  simp only [spanHandoff, hs, hr]
  exact if_neg (by simpa using hu)

theorem spanRecords_noTile (hr : (e.sampleSites p)[r]? = none) : spanRecords p r data e = e := by simp only [spanRecords, hs, hr]

theorem spanRecords_unawaited (hr : (e.sampleSites p)[r]? = some u)
    (h : (e.part p).spanIndex ≠ 0 ∨ st.handed = false ∨ r ∈ st.records) : spanRecords p r data e = e := by
  simp only [spanRecords, hs, hr]
  exact if_pos (by rwa [List.contains_iff_mem])

theorem spanRecords_awaited (hr : (e.sampleSites p)[r]? = some u) (h0 : (e.part p).spanIndex = 0) (hh : st.handed = true) (hn : r ∉ st.records) :
    spanRecords p r data e = (e.toSample p u data).modPart p (fun q => { q with step := q.step.map (fun x => { x with records := x.records ++ [r] }) }) := by
  simp only [spanRecords, hs, hr]
  exact if_neg (by simp [h0, hh, hn])

variable {paths : List (Nat × Nat × List Nat)}

theorem spanPaths_unawaited (h : (e.part p).spanIndex = 0 ∨ st.handed = false) : spanPaths p paths now e = e := by
  simp only [spanPaths, hs]
  exact if_pos h

/-- The part's slots as the accepted paths of a step leave them (R255). -/
def Engine.applyPaths (e : Engine) (p : Nat) (st : Step) (paths : List (Nat × Nat × List Nat)) : Engine :=
  paths.foldl (fun e' x => e'.applyPath (e.dirPages p) x.1 (((st.batch.find? (fun b => b.req == x.1)).map (·.len)).getD x.2.1) x.2.1 x.2.2) e

theorem spanPaths_ends (h0 : (e.part p).spanIndex ≠ 0) (hh : st.handed = true) : spanPaths p paths now e =
    ((e.applyPaths p st paths).watch now p st.batch ((st.batch.map (·.req)).eraseDups)).1.endStep p now st.start := by
  simp only [spanPaths, hs]
  exact if_neg (by simp [h0, hh])

end Running

/-! ### The events -/

section Exec
variable {s : State} {e : Engine} {p r : Nat} {data : List Byte}

theorem exec_spanAnnounce {a : SpanPart} (ha : a.part < 4) (h : spanAnnounce a s.now s.eng = e) :
    exec (.spanAnnounce a.id a.part a.node a.partition a.knows a.samples a.batches a.handoff a.room) s = .next (withEng s e) :=
  onUnit_eq (f := spanAnnounce a) (decide_eq_true ha) h

variable (hp : p < 32)
include hp

theorem exec_spanBatchReceive {batch : List Byte} {dirs : List (Loc × List Byte)} (hd : ∀ x ∈ dirs, locOk x.1 = true)
    (h : spanBatch p batch dirs s.now s.eng = e) : exec (.spanBatchReceive p batch dirs) s = .next (withEng s e) :=
  onUnit_eq (Bool.and_eq_true_iff.mpr ⟨decide_eq_true hp, List.all_eq_true.mpr hd⟩) h

theorem exec_spanHandoff (h : spanHandoff p r data s.eng = e) : exec (.spanHandoff p r data) s = .next (withEng s e) :=
  onUnit_eq (f := fun _ e => spanHandoff p r data e) (decide_eq_true hp) h

theorem exec_spanRecordsReturn (h : spanRecords p r data s.eng = e) : exec (.spanRecordsReturn p r data) s = .next (withEng s e) :=
  onUnit_eq (f := fun _ e => spanRecords p r data e) (decide_eq_true hp) h

theorem exec_spanAcceptedPath {paths : List (Nat × Nat × List Nat)} (h : spanPaths p paths s.now s.eng = e) :
    exec (.spanAcceptedPath p paths) s = .next (withEng s e) := onUnit_eq (decide_eq_true hp) h

end Exec

/-! ### The statement -/

/-- Settles O53: an action by the side that the partition has in it, a part of a span by each message of another. -/
theorem spanResults : Obligations.SpanResults := by
  refine ⟨⟨?prepare, ?modeAck, ?noCoord, ?actAck, fun s p hp => exec_epochDeadline hp epochDeadline_eq,
    fun s p hp => exec_epochDecisionResend hp decisionResend_eq, ?decision⟩, ?announce, ?batch, ?idle, ?running⟩
  case prepare =>
    intro s m hm q ok say
    refine ⟨fun x hw => ⟨fun ht => ?_, fun ht => ?_⟩, fun hw => ⟨fun ht => ?_, fun ht => ?_⟩, fun g hw => ⟨fun hs hg => ?_, fun hs hg => ?_, fun hs => ?_⟩,
      fun l hw => exec_epochPrepare hm (epochPrepare_failed hw), fun fn bs hw => ⟨fun hc => ?_, fun c f run hc hq hr => ⟨fun h2 ht => ?_, fun ht => ?_⟩⟩⟩
    · exact exec_epochPrepare hm (epochPrepare_modes_refuses hw ht)
    · exact exec_epochPrepare hm (epochPrepare_modes_takes hw ht)
    · exact exec_epochPrepare hm ((epochPrepare_snapshot hw).trans (by rw [Engine.mayPrepare_eq_false.mpr ht]; rfl))
    · exact exec_epochPrepare hm ((epochPrepare_snapshot hw).trans (by rw [Engine.mayPrepare_iff.mpr ht]; rfl))
    · exact exec_epochPrepare hm ((epochPrepare_stop hw).trans (hg ▸ stopPartStep_abandons hs))
    · exact exec_epochPrepare hm ((epochPrepare_stop hw).trans (hg ▸ stopPartStep_pausesAfter hs))
    · exact exec_epochPrepare hm ((epochPrepare_stop hw).trans (stopPartStep_pauses hs))
    · exact exec_epochPrepare hm (epochPrepare_command_unread hw hc)
    · exact exec_epochPrepare hm (epochPrepare_command_refuses hw hc hq hr h2 ht)
    · exact exec_epochPrepare hm (epochPrepare_command_holds hw hc hq hr ht)
  case modeAck =>
    intro s p n k c hp hk hc
    exact ⟨fun h ok => exec_epochAck hp (epochAck_ignored hk hc h), fun he hd hn => ⟨exec_epochAck hp (epochAck_aborts hk hc he hd hn),
      fun hl => exec_epochAck hp (epochAck_waits hk hc he hd hn hl), fun hl => exec_epochAck hp (epochAck_commits hk hc he hd hn hl)⟩⟩
  case noCoord => exact fun s p n k ok hp hk hc => exec_epochAck hp (epochAck_noCoord hk hc)
  case actAck =>
    intro s p n k d x a hp hk hx ha code b
    exact ⟨fun h ok => exec_epochAck hp (epochAck_act_ignored hk hx ha h), fun hd hn => ⟨exec_epochAck hp (epochAck_act_aborts hk hx ha hd hn),
      fun hl => exec_epochAck hp (epochAck_act_waits hk hx ha hd hn hl), fun hl => exec_epochAck hp (epochAck_act_commits hk hx ha hd hn hl)⟩⟩
  case decision =>
    intro s p n b hp
    refine ⟨fun hn => exec_epochDecision hp (if_pos hn), fun hn hx => exec_epochDecision hp (epochDecision_noEpoch hn hx), fun x hn hx => ?_⟩
    exact ⟨fun h => exec_epochDecision hp (epochDecision_ignored hn hx h), fun he hd hl => exec_epochDecision hp (epochDecision_takes hn hx he hd hl)⟩
  case announce =>
    intro s a ha b e1
    refine ⟨e1.tellHeard b, e1.modParts_frame .., fun p => ?_, fun h => exec_spanAnnounce ha (spanAnnounce_known h),
      fun h => exec_spanAnnounce ha (spanAnnounce_news h)⟩
    intro q on
    have hon : p < 32 ∧ e1.holdsOther b p = true ↔ on := and_congr_right' Engine.holdsOther_iff
    exact ⟨fun h => (Engine.part_tellHeard p).trans (if_pos (hon.mpr h)), fun h => (Engine.part_tellHeard p).trans (if_neg (mt hon.mp h))⟩
  case batch =>
    intro s p batch dirs hp hd e
    refine ⟨fun h => exec_spanBatchReceive hp hd (spanBatch_busy h), fun hs hc hv => ⟨fun hm => ?_, fun hm => ?_⟩⟩
    · exact exec_spanBatchReceive hp hd ((spanBatch_free hs hc hv).trans (if_neg (Bool.eq_false_iff.mp hm)))
    · exact exec_spanBatchReceive hp hd ((spanBatch_free hs hc hv).trans (if_pos hm))
  case idle =>
    intro s p r data hp hs
    simp only [List.forall_mem_cons, List.not_mem_nil, false_implies, implies_true, and_true]
    exact ⟨exec_spanHandoff hp (spanHandoff_idle hs), exec_spanRecordsReturn hp (spanRecords_idle hs), exec_spanAcceptedPath hp (spanPaths_idle hs)⟩
  case running =>
    intro s p st hp hs
    refine ⟨fun r data hr => exec_spanHandoff hp (spanHandoff_noTile hs hr), fun r u data hr => ⟨fun hu => ?_, fun hu => ?_⟩,
      fun r data hr => exec_spanRecordsReturn hp (spanRecords_noTile hs hr), fun r u data hr => ⟨fun h => ?_, fun h0 hh hn => ?_⟩,
      fun paths h => exec_spanAcceptedPath hp (spanPaths_unawaited hs h), fun paths h0 hh => exec_spanAcceptedPath hp (spanPaths_ends hs h0 hh)⟩
    · exact exec_spanHandoff hp (spanHandoff_unawaited hs hr hu)
    · exact exec_spanHandoff hp (spanHandoff_awaited hs hr hu)
    · exact exec_spanRecordsReturn hp (spanRecords_unawaited hs hr h)
    · exact exec_spanRecordsReturn hp (spanRecords_awaited hs hr h0 hh hn)

end Sys2Proof.Machine
end

section
/-!
PROOFS. Rings and interrupts (R328 to R331, R338): a reply delivered, the interrupt of a coalesced completion, a packet fetched, and writes of a
doorbell or of RING_CFG.
-/
namespace Sys2Proof.Machine

open Sys2Proof.Safety

/-! ### STATUS_DELIVERY (R330) -/

/-- The address in host memory of the unit of a function's status ring that the next reply takes. -/
abbrev Engine.stsAddr (e : Engine) (f : Fn) : Nat := ((e.fn f).ring 1).base.toNat + 16 * (((e.fn f).ring 1).ptr % ((e.fn f).ring 1).units)

section Status
variable {e : Engine} {f : Fn} {par : Parity} {now : Nat} {k : Reply} {r : List Reply} (hs : (e.fn f).status = k :: r)
include hs

theorem deliverStatus_blocked (hr : e.ringReady f 1 = false) : deliverStatus f par now e = e := by
  simp only [deliverStatus, hs]
  exact if_pos (congrArg _ hr)

variable (hr : e.ringReady f 1 = true)
include hr

theorem deliverStatus_noWindow (hw : e.windowOk f (e.stsAddr f) 16 true = false) :
    deliverStatus f par now e = e.windowEvent now f (e.stsAddr f) := by
  simp only [deliverStatus, hs]
  exact (if_neg (by simp [hr])).trans (if_pos (congrArg _ hw))

theorem deliverStatus_delivers (hw : e.windowOk f (e.stsAddr f) 16 true = true) : deliverStatus f par now e =
    ((e.modFn f (fun x => { x with status := r ++ x.waitStatus.take 1, waitStatus := x.waitStatus.drop 1 })).toRing now f 1 2
      (natBytes (pack [(64, k.tick), (32, k.detail), (16, k.status), (16, k.tag)]) 16) par).intakeMoves now f := by
  simp only [deliverStatus, hs]
  exact (if_neg (by simp [hr])).trans (if_neg (by simp [hw]))

end Status

/-! ### COMMAND_FETCH (R329, R331, R339) -/

/-- The packet between the fetch pointer and the published tail, of `n` units, can enter intake now (R329, R331). -/
def Engine.fetchReady (e : Engine) (f : Fn) (n : Nat) : Prop :=
  let r := (e.fn f).ring 0
  let avail := (r.host + r.modulus - r.ptr) % r.modulus
  e.linkUp f = true ∧ r.enabled = true ∧ 0 < avail ∧ n ≤ avail ∧ e.intakeRoom f n = true

/-- Bytes of a packet that its header announces; a header with an error stands for one unit (R339). -/
abbrev fetchBytes (k : RawPacket) : Nat := if k.headerBad then 64 else 16 + fld (bytesAt k.bytes 0 8) 43 32

section Fetch
variable {e : Engine} {f : Fn} {k : RawPacket} {now : Nat}

theorem Engine.fetchReady_iff {n : Nat} : e.fetchReady f n ↔
    (e.linkUp f && ((e.fn f).ring 0).enabled &&
      decide (0 < (((e.fn f).ring 0).host + ((e.fn f).ring 0).modulus - ((e.fn f).ring 0).ptr) % ((e.fn f).ring 0).modulus) &&
      decide (n ≤ (((e.fn f).ring 0).host + ((e.fn f).ring 0).modulus - ((e.fn f).ring 0).ptr) % ((e.fn f).ring 0).modulus) &&
      e.intakeRoom f n) = true := by
  simp only [Engine.fetchReady, Bool.and_eq_true, decide_eq_true_eq, and_assoc]

theorem fetchCommand_blocked (hr : ¬ e.fetchReady f (packetUnits (fetchBytes k))) : fetchCommand f k now e = e :=
  if_pos (by rw [Bool.not_eq_true', ← Bool.not_eq_true]; exact mt Engine.fetchReady_iff.mpr hr)

variable (hr : e.fetchReady f (packetUnits (fetchBytes k)))
include hr

theorem fetchCommand_noWindow (hw : e.windowOk f ((e.fn f).ring 0).base.toNat (64 * ((e.fn f).ring 0).units) false = false) :
    fetchCommand f k now e = e.windowEvent now f ((e.fn f).ring 0).base.toNat :=
  (if_neg (by rw [Bool.not_eq_true']; exact Bool.not_eq_false _ |>.mpr (Engine.fetchReady_iff.mp hr))).trans (if_pos (congrArg _ hw))

theorem fetchCommand_fetches (hw : e.windowOk f ((e.fn f).ring 0).base.toNat (64 * ((e.fn f).ring 0).units) false = true) :
    fetchCommand f k now e =
      (((((e.packetIn now f ((e.fn f).ring 0).ptr { k with bytes := k.bytes.take (fetchBytes k) }).modRing f 0
        (fun r => { r with ptr := (r.ptr + packetUnits (fetchBytes k)) % r.modulus })).modFn f
        (fun x => { x with dwBefore := x.dwBefore - packetUnits (fetchBytes k) })).completed now f 0 1).dwTry now f) :=
  (if_neg (by rw [Bool.not_eq_true']; exact Bool.not_eq_false _ |>.mpr (Engine.fetchReady_iff.mp hr))).trans (if_neg (by simp [hw]))

end Fetch

/-! ### DOORBELL (R329, R330) -/

/-- A pointer that ring q takes from the host: in range, and not past what the other side has published (R329, R330). -/
def Ring.takes (r : Ring) (q x : Nat) : Prop :=
  x < r.modulus ∧ if q = 0 then (x + r.modulus - r.ptr) % r.modulus ≤ r.units else (x + r.modulus - r.host) % r.modulus ≤ r.used

section Doorbell
variable {e : Engine} {f : Fn} {q v : Nat}

theorem Ring.takes_iff {r : Ring} {x : Nat} : r.takes q x ↔ x < r.modulus ∧
    (if q = 0 then decide ((x + r.modulus - r.ptr) % r.modulus ≤ r.units) else decide ((x + r.modulus - r.host) % r.modulus ≤ r.used)) = true := by
  unfold Ring.takes
  split <;> rw [decide_eq_true_eq]

theorem doorbellWrite_noRing (h : hasRing f q = false) : doorbellWrite f q v e = e := if_pos (congrArg _ h)

variable (h : hasRing f q = true)
include h

theorem doorbellWrite_takes (ht : ((e.fn f).ring q).takes q (v % 2 ^ 17)) :
    doorbellWrite f q v e = e.modRing f q (fun r => { r with host := v % 2 ^ 17 }) :=
  (if_neg (by simp [h])).trans (if_pos (Ring.takes_iff.mp ht))

theorem doorbellWrite_drops (ht : ¬ ((e.fn f).ring q).takes q (v % 2 ^ 17)) : doorbellWrite f q v e = e.ringDrop f q :=
  (if_neg (by simp [h])).trans (if_neg (mt Ring.takes_iff.mpr ht))

end Doorbell

/-! ### RING_CFG (R328) -/

/-- What a write of RING_CFG ends beside the ring: a CMD ring publishes nothing any more, and no word of a packet has been forwarded to the
unit of a TOK ring. -/
def Engine.clearedFor (e : Engine) (f : Fn) (q : Nat) : Engine :=
  if q = 0 then e.modFn f (fun x => { x with dwBefore := 0 })
  else match f with
    | .vf t => if q = 2 then e.modTenant t (fun x => { x with fwd := 0 }) else e
    | .pf _ => e

/-- The windows of the function hold the ring and its write-back record (R328, R339). -/
abbrev Engine.ringWindows (e : Engine) (f : Fn) (q : Nat) (r : Ring) : Bool :=
  e.windowOk f r.base.toNat (unitBytes q * r.units) (q != 0) && e.windowOk f r.wbAddr.toNat 16 true

section Config
variable {e : Engine} {f : Fn} {q now : Nat} {v : Word}

theorem ringConfig_noRing (h : hasRing f q = false) : ringConfig f q v now e = e := if_pos (by simp [h])

variable (hp : (e.fnPort f).isSome = true) (h : hasRing f q = true)
include hp h

theorem ringConfig_not_barred : ¬ (!hasRing f q || (e.fnPort f).isNone) = true := by simpa [h] using Option.isSome_iff_ne_none.mp hp

theorem ringConfig_disables (hb : bitAt v.toNat 63 = false) : ringConfig f q v now e = ((e.clearedFor f q).modRing f q
    (fun _ => { (e.fn f).ring q with cfg := BitVec.ofNat 64 (setFld (((e.fn f).ring q).configure q v.toNat) 63 63 0) })).dwTry now f :=
  (if_neg (ringConfig_not_barred hp h)).trans (congrArg (Engine.dwTry · now f) (if_neg (Bool.eq_false_iff.mp hb)))

variable (hb : bitAt v.toNat 63 = true)
include hb

theorem ringConfig_enables
    (hw : e.ringWindows f q { (e.fn f).ring q with cfg := BitVec.ofNat 64 (((e.fn f).ring q).configure q v.toNat) } = true) :
    ringConfig f q v now e = ((e.clearedFor f q).modRing f q (fun _ => { (e.fn f).ring q with
      cfg := BitVec.ofNat 64 (setFld (setFld (((e.fn f).ring q).configure q v.toNat) 63 63 1) 61 61 0), ptr := 0, host := 0 })).dwTry now f :=
  (if_neg (ringConfig_not_barred hp h)).trans (congrArg (Engine.dwTry · now f) ((if_pos hb).trans (if_pos hw)))

theorem ringConfig_refuses
    (hw : e.ringWindows f q { (e.fn f).ring q with cfg := BitVec.ofNat 64 (((e.fn f).ring q).configure q v.toNat) } = false) :
    ringConfig f q v now e = ((e.clearedFor f q).modRing f q (fun _ => { (e.fn f).ring q with
      cfg := BitVec.ofNat 64 (setFld (setFld (((e.fn f).ring q).configure q v.toNat) 63 63 0) 61 61 1) })).dwTry now f :=
  (if_neg (ringConfig_not_barred hp h)).trans (congrArg (Engine.dwTry · now f) ((if_pos hb).trans (if_neg (Bool.eq_false_iff.mp hw))))

end Config

/-! ### The events -/

section Exec
variable {s : State} {f : Fn} {e : Engine} (hf : fnOk f = true)
include hf

theorem exec_statusDelivery {par : Parity} (h : deliverStatus f par s.now s.eng = e) : exec (.statusDelivery f par) s = .next (withEng s e) :=
  onUnit_eq hf h

theorem exec_commandFetch {k : RawPacket} (h : fetchCommand f k s.now s.eng = e) : exec (.commandFetch f k) s = .next (withEng s e) := onUnit_eq hf h

theorem exec_ringCfgEnable {q : Nat} {v : Word} (h : ringConfig f q v s.now s.eng = e) : exec (.ringCfgEnable f q v) s = .next (withEng s e) :=
  onUnit_eq hf h

theorem exec_doorbell {q : Nat} {v : Word} (hp : (s.eng.fnPort f).isSome = true) (h : doorbellWrite f q v.toNat s.eng = e) :
    exec (.doorbell f q v) s = .next (withEng s e) := onUnit_eq hf ((if_pos hp).trans h)

theorem exec_msixCoalesceTimeout_early {q : Nat} (ht : s.now < ((s.eng.fn f).ring q).firstAt + ((s.eng.fn f).ring q).coalUs) :
    exec (.msixCoalesceTimeout f q) s = .next s := onUnit_same hf (if_neg (by simp [ht]))

variable {q : Nat} (hi : ((s.eng.fn f).ring q).irq = true) (hn : ((s.eng.fn f).ring q).since ≠ 0) (hc : ((s.eng.fn f).ring q).coalUs ≠ 0)
include hi hn hc

theorem exec_msixCoalesceTimeout_due (ht : ((s.eng.fn f).ring q).firstAt + ((s.eng.fn f).ring q).coalUs ≤ s.now) :
    exec (.msixCoalesceTimeout f q) s = .next (withEng s (s.eng.fire f q)) := onUnit_eq hf (if_pos (by simp [hi, hn, hc, ht]))

end Exec

/-! ### The statement -/

/-- Settles O34: one lemma for each event and each state in which it acts. -/
theorem ringResults : Obligations.RingResults := by
  refine ⟨⟨fun s f par k r hf hs => ?status, fun s f q hf => ?interrupt⟩, fun s f k hf => ?fetch, fun s f q v hf hp => ?doorbell,
    fun s f q v hf hp => ?config⟩
  case status =>
    exact ⟨fun hr => exec_statusDelivery hf (deliverStatus_blocked hs hr), fun hr hw => exec_statusDelivery hf (deliverStatus_noWindow hs hr hw),
      fun hr hw => exec_statusDelivery hf (deliverStatus_delivers hs hr hw)⟩
  case interrupt =>
    intro r hi hn hc
    exact ⟨fun ht => exec_msixCoalesceTimeout_due hf hi hn hc ht, fun ht => exec_msixCoalesceTimeout_early hf ht⟩
  case fetch =>
    exact ⟨fun hr => exec_commandFetch hf (fetchCommand_blocked hr), fun hr hw => exec_commandFetch hf (fetchCommand_noWindow hr hw),
      fun hr hw => exec_commandFetch hf (fetchCommand_fetches hr hw)⟩
  case doorbell =>
    exact ⟨fun h => exec_doorbell hf hp (doorbellWrite_noRing h), fun h ht => exec_doorbell hf hp (doorbellWrite_takes h ht),
      fun h ht => exec_doorbell hf hp (doorbellWrite_drops h ht)⟩
  case config =>
    intro r c units windows written cleared
    have hc : cleared = s.eng.clearedFor f q := by
      obtain _ | _ | _ | q := q <;> cases f <;> rfl
    rw [hc]
    exact ⟨fun h => exec_ringCfgEnable hf (ringConfig_noRing h), fun h => ⟨fun hb hw => exec_ringCfgEnable hf (ringConfig_enables hp h hb hw),
      fun hb hw => exec_ringCfgEnable hf (ringConfig_refuses hp h hb hw), fun hb => exec_ringCfgEnable hf (ringConfig_disables hp h hb)⟩⟩

end Sys2Proof.Machine
end

section
/-!
PROOFS. The direct window (R326, R337): bytes that gather in its buffer, and a launch that enters intake or waits.
-/
namespace Sys2Proof.Machine

open Sys2Proof.Safety

theorem Engine.modFn_congr {e : Engine} {f : Fn} {g h : FnState → FnState} (hg : g (e.fn f) = h (e.fn f)) : e.modFn f g = e.modFn f h := by
  simp only [Engine.modFn, mmod_congr (d := fun _ => ({} : FnState)) hg]

theorem Engine.modFn_fn_ne (e : Engine) {f g : Fn} (h : fnKey g ≠ fnKey f) (x : FnState → FnState) : (e.modFn f x).fn g = e.fn g :=
  mget_mmod_ne _ _ _ h

/-! ### DW_DATA_WRITE (R337) -/

/-- An aligned write of 4 to 64 bytes inside the buffer of the direct window. -/
def dwFits (off n : Nat) : Prop := ([4, 8, 16, 32, 64] : List Nat).contains n = true ∧ off % n = 0 ∧ off + n ≤ 4096

section Write
variable {e : Engine} {f : Fn} {off : Nat} {bs : List Byte} (hp : (e.fnPort f).isSome = true)
include hp

theorem dwBarred_iff : ((e.fnPort f).isNone || !([4, 8, 16, 32, 64].contains bs.length && off % bs.length == 0 && decide (off + bs.length ≤ 4096))) = true ↔
    ¬ dwFits off bs.length := by
  rw [Option.isNone_eq_false_iff.mpr hp, Bool.false_or, Bool.not_eq_true', ← Bool.not_eq_true, dwFits, Bool.and_eq_true, Bool.and_eq_true,
    beq_iff_eq, decide_eq_true_eq, and_assoc]

theorem dwWrite_unfit (h : ¬ dwFits off bs.length) : dwWrite f off bs e = e := if_pos ((dwBarred_iff hp).mpr h)

variable (h : dwFits off bs.length)
include h

theorem dwWrite_busy (hb : (e.fn f).dwBusy = true) : dwWrite f off bs e = e.modFn f FnState.dwDrop :=
  (if_neg (mt (dwBarred_iff hp).mp (not_not.mpr h))).trans (Engine.modFn_congr (if_pos hb))

theorem dwWrite_gathers (hb : (e.fn f).dwBusy = false) : dwWrite f off bs e = e.modFn f (fun x => { x with dw := writeBytes x.dw off bs }) :=
  (if_neg (mt (dwBarred_iff hp).mp (not_not.mpr h))).trans (Engine.modFn_congr (if_neg (Bool.eq_false_iff.mp hb)))

end Write

/-! ### DW_LAUNCH (R337) -/

/-- The registers of a function with a launch of `n` bytes that has not entered intake yet. -/
def FnState.launch (x : FnState) (n : Nat) (wb hb : Bool) : FnState :=
  { x with dwBusy := true, dwCount := n, dwBefore := x.published, dwWordBad := wb, dwHeaderBad := hb }

section Launch
variable {e : Engine} {f : Fn} {v now : Nat} {wb hb : Bool} (hp : (e.fnPort f).isSome = true)
include hp

theorem fnPort_not_isNone : ¬ (e.fnPort f).isNone = true := Bool.eq_false_iff.mp (Option.isNone_eq_false_iff.mpr hp)

theorem dwLaunched_busy (hb' : (e.fn f).dwBusy = true) : dwLaunched f v wb hb now e = e.modFn f FnState.dwDrop :=
  (if_neg (fnPort_not_isNone hp)).trans (if_pos hb')

variable (hi : (e.fn f).dwBusy = false)
include hi

theorem dwLaunched_badCount (hn : v % 2 ^ 13 < 16 ∨ 4096 < v % 2 ^ 13) : dwLaunched f v wb hb now e = e :=
  (if_neg (fnPort_not_isNone hp)).trans ((if_neg (Bool.eq_false_iff.mp hi)).trans (if_pos hn))

variable (h1 : 16 ≤ v % 2 ^ 13) (h2 : v % 2 ^ 13 ≤ 4096)
include h1 h2

theorem dwLaunched_tries : dwLaunched f v wb hb now e = (e.modFn f (fun x => x.launch (v % 2 ^ 13) wb hb)).dwTry now f :=
  (if_neg (fnPort_not_isNone hp)).trans ((if_neg (Bool.eq_false_iff.mp hi)).trans (if_neg (by rw [fld_low]; omega)))

end Launch

section Try
variable (e : Engine) (f : Fn) (n now : Nat) (wb hb : Bool)

/-- A launch changes neither the intake of the function's deck nor what other functions hold there. -/
theorem intakeRoom_launch : (e.modFn f (fun x => x.launch n wb hb)).intakeRoom f (packetUnits n) = e.intakeRoom f (packetUnits n) := by
  cases f <;> rfl

variable {e f n}

theorem dwTry_launch_enters (hu : (e.fn f).published = 0) (hr : e.intakeRoom f (packetUnits n) = true) :
    (e.modFn f (fun x => x.launch n wb hb)).dwTry now f = ((e.modFn f (fun x => x.launch n wb hb)).modFn f (fun x => { x with dwBusy := false })).packetIn now f 0
      { bytes := readBytes (e.fn f).dw 0 n, wordBad := wb, headerBad := hb } := by
  have hc := intakeRoom_launch e f n wb hb
  simp only [Engine.dwTry, Engine.modFn_fn, FnState.launch] at hc ⊢
  exact if_pos (by simp [hc, hu, hr])

theorem dwTry_launch_waits (h : (e.fn f).published ≠ 0 ∨ e.intakeRoom f (packetUnits n) = false) :
    (e.modFn f (fun x => x.launch n wb hb)).dwTry now f = e.modFn f (fun x => x.launch n wb hb) := by
  have hc := intakeRoom_launch e f n wb hb
  simp only [Engine.dwTry, Engine.modFn_fn, FnState.launch] at hc ⊢
  refine if_neg ?_
  obtain h | h := h
  · simp [h]
  · simp [hc, h]

end Try

/-! ### The events -/

section Exec
variable {s : State} {f : Fn} {e : Engine} (hf : fnOk f = true)
include hf

theorem exec_dwDataWrite {off : Nat} {bs : List Byte} (h : dwWrite f off bs s.eng = e) : exec (.dwDataWrite f off bs) s = .next (withEng s e) :=
  onUnit_eq hf h

theorem exec_dwLaunch {v : Word} {wb hb : Bool} (h : dwLaunched f v.toNat wb hb s.now s.eng = e) : exec (.dwLaunch f v wb hb) s = .next (withEng s e) :=
  onUnit_eq hf h

end Exec

/-- Bytes that the buffer takes: those of the write, with the rest of the buffer and of the function as they were. -/
theorem dwDataWrite_gathers {s : State} {f : Fn} {off : Nat} {bs : List Byte} (hf : fnOk f = true) (hp : (s.eng.fnPort f).isSome = true)
    (h : dwFits off bs.length) (hb : (s.eng.fn f).dwBusy = false) : ∃ t, exec (.dwDataWrite f off bs) s = .next t ∧
      t = withEng s { s.eng with fns := t.eng.fns } ∧ (∀ g, fnKey g ≠ fnKey f → t.eng.fn g = s.eng.fn g) ∧
      { t.eng.fn f with dw := (s.eng.fn f).dw } = s.eng.fn f ∧
      (∀ k < bs.length, readByte (t.eng.fn f).dw (off + k) = bs.getD k 0) ∧
      (∀ b, b < off ∨ off + bs.length ≤ b → readByte (t.eng.fn f).dw b = readByte (s.eng.fn f).dw b) := by
  refine ⟨_, exec_dwDataWrite hf (dwWrite_gathers hp h hb), rfl, fun g hg => Engine.modFn_fn_ne _ hg _, ?_, fun k hk => ?_, fun b hb => ?_⟩
  all_goals simp only [withEng, Engine.modFn_fn]
  · exact (readByte_writeBytes ..).trans ((if_pos (by omega)).trans (by rw [Nat.add_sub_cancel_left]))
  · exact (readByte_writeBytes ..).trans (if_neg (by omega))

/-- Settles O35: a write by its size and BUSY, a launch by BUSY, its count, and what has to enter intake before it. -/
theorem directWindowResults : Obligations.DirectWindowResults := by
  intro s f hf hp x
  refine ⟨fun off bs => ?write, fun v wb hb => ?launch⟩
  case write =>
    exact ⟨fun h hb => dwDataWrite_gathers hf hp h hb, fun h hb => exec_dwDataWrite hf (dwWrite_busy hp h hb),
      fun h => exec_dwDataWrite hf (dwWrite_unfit hp h)⟩
  case launch =>
    intro n e
    refine ⟨fun hb => exec_dwLaunch hf (dwLaunched_busy hp hb), fun hi hn => exec_dwLaunch hf (dwLaunched_badCount hp hi hn),
      fun hi h1 h2 => ⟨fun hu hr => ?_, fun h => ?_⟩⟩
    · exact exec_dwLaunch hf ((dwLaunched_tries hp hi h1 h2).trans (dwTry_launch_enters _ _ _ hu hr))
    · exact exec_dwLaunch hf ((dwLaunched_tries hp hi h1 h2).trans (dwTry_launch_waits _ _ _ h))

end Sys2Proof.Machine
end

section
/-!
PROOFS. What an FLR of a VF leaves of its requests and packets (R324): the decisions told to other engines first, then each request in turn, then
the packets that are left.
-/
namespace Sys2Proof.Machine

open Sys2Proof.Safety

/-! ### Decisions told to other engines (R373) -/

/-- Nothing differs but the Zarog ports, what has been sent and lost there, and what partitions keep besides their field sets. -/
structure Engine.OnlyTells (e t : Engine) : Prop where
  frame : t = { e with zports := t.zports, zdrops := t.zdrops, out := t.out, parts := t.parts }
  fields : ∀ p, (t.part p).fields = (e.part p).fields

section OnlyTells
variable {e t u : Engine} {now : Nat}

theorem Engine.OnlyTells.refl (e : Engine) : e.OnlyTells e := ⟨rfl, fun _ => rfl⟩

theorem Engine.OnlyTells.trans (k : e.OnlyTells t) (l : t.OnlyTells u) : e.OnlyTells u :=
  ⟨by rw [l.frame, k.frame], fun p => (l.fields p).trans (k.fields p)⟩

theorem Engine.OnlyTells.of_outputs (h : OutputsOnly e t) : e.OnlyTells t := by
  unfold OutputsOnly at h
  rw [h]
  exact ⟨rfl, fun _ => rfl⟩

theorem Engine.OnlyTells.foldl {α : Type} {f : Engine → α → Engine} {l : List α} (hf : ∀ t x, e.OnlyTells t → e.OnlyTells (f t x))
    (k : e.OnlyTells t) : e.OnlyTells (l.foldl f t) := List.foldlRecOn l f k fun t k x _ => hf t x k

/-- A message of no step joins an output or is counted as lost (R363). -/
theorem Engine.OnlyTells.ctrl {node dpart b} (k : e.OnlyTells t) : e.OnlyTells (t.ctrl now node dpart b) := by
  refine k.trans ?_
  obtain ⟨z, -, h⟩ | h := zoriginate_cases t now { p := t.zheader 2 node dpart 0 0 true [], b := b }
  · rw [Engine.ctrl, h]
    exact .of_outputs (zput_outputs ..)
  · rw [Engine.ctrl, h]
    exact ⟨rfl, fun _ => rfl⟩

theorem Engine.OnlyTells.epochMsg {ns id phase} (k : e.OnlyTells t) : e.OnlyTells (t.epochMsg now ns id phase) := .foldl (fun _ _ k => k.ctrl) k

theorem Engine.OnlyTells.modPart {p : Nat} {f : Part → Part} (hf : ∀ x, (f x).fields = x.fields) (k : e.OnlyTells t) : e.OnlyTells (t.modPart p f) := by
  refine k.trans ⟨rfl, fun j => ?_⟩
  by_cases hj : j = p
  · rw [hj, Engine.modPart_part, hf]
  · rw [Engine.modPart_part_ne _ _ _ _ hj]

theorem Engine.OnlyTells.decideAct {p a commit} (k : e.OnlyTells t) : e.OnlyTells (t.decideAct now p a commit) := k.epochMsg.modPart fun _ => rfl

theorem Engine.abortActs_onlyTells (e : Engine) (f : Fn) (now : Nat) : e.OnlyTells (e.abortActs f now) := by
  refine .foldl (fun t d k => .foldl (fun t x k => ?_) k) (.refl e)
  split
  · split
    · exact k.decideAct
    · exact k
  · exact k

theorem Engine.OnlyTells.fns (k : e.OnlyTells t) : t.fns = e.fns := by rw [k.frame]

theorem Engine.OnlyTells.reqs (k : e.OnlyTells t) : t.reqs = e.reqs := by rw [k.frame]

theorem Engine.OnlyTells.tenants (k : e.OnlyTells t) : t.tenants = e.tenants := by rw [k.frame]

theorem Engine.OnlyTells.tiles (k : e.OnlyTells t) : t.tiles = e.tiles := by rw [k.frame]

theorem Engine.OnlyTells.fn (k : e.OnlyTells t) (f : Fn) : t.fn f = e.fn f := by rw [Engine.fn, k.fns, Engine.fn]

theorem Engine.OnlyTells.req (k : e.OnlyTells t) (i : Nat) : t.req i = e.req i := by rw [Engine.req, k.reqs, Engine.req]

theorem Engine.OnlyTells.tenant (k : e.OnlyTells t) (i : Nat) : t.tenant i = e.tenant i := by rw [Engine.tenant, k.tenants, Engine.tenant]

theorem Engine.OnlyTells.tile (k : e.OnlyTells t) (v : Loc) : t.tile v = e.tile v := by rw [Engine.tile, k.tiles, Engine.tile]

end OnlyTells

/-! ### One request of a VF that is reset (R44, R309, R324) -/

/-- A request cancelled without an end packet, with OUT_CNT at the delivered count (R310, R324). -/
def Request.cancelled (r : Request) : Request :=
  { r with state := .cancelling, pauseReq := false, resumeReq := false, tree := none, heldPkts := [], outCnt := r.delivered, silentEnd := true }

/-- OUT_CNT back at the delivered count (R462). -/
def Request.recount (r : Request) : Request := { r with outCnt := r.delivered }

/-- What an FLR makes of a request: one that is DONE becomes IDLE, any other is cancelled (OUT_CNT aside). -/
def Request.DroppedAs (r r' : Request) : Prop := (r.state = .done → r' = {}) ∧ (r.state ≠ .done → r'.recount = r.cancelled)

/-- A request dropped by the FLR of its function. -/
def Engine.dropReq (e : Engine) (q : Nat) : Engine := if (e.req q).state = .done then e.idleReq q else e.cancelReq q true

/-- What dropping request `q` can change. -/
structure Engine.DropsReq (e : Engine) (q : Nat) (t : Engine) : Prop where
  frame : t = { e with tiles := t.tiles, parts := t.parts, tenants := t.tenants, reqs := t.reqs }
  self : (e.req q).DroppedAs (t.req q)
  req : ∀ i, i ≠ q → t.req i = e.req i
  canon : mwf (fun _ => ({} : Request)) e.reqs = true → mwf (fun _ => ({} : Request)) t.reqs = true
  tenant : ∀ k, k ≠ (e.req q).tenant → t.tenant k = e.tenant k
  packets : ∀ k, (t.tenant k).noPackets = (e.tenant k).noPackets
  fifo : ∀ k, (e.tenant k).fifo = [] → (t.tenant k).fifo = []
  part : ∀ p, p ≠ (e.req q).part → t.part p = e.part p
  fields : ∀ p, (t.part p).fields = (e.part p).fields
  tile : ∀ v, locOk v = true → ((e.req q).state = .done → (e.part (e.req q).part).fields.testBit v.field = false) → t.tile v = e.tile v

theorem Engine.fields_modPart {e : Engine} {p : Nat} {f : Part → Part} (hf : ∀ x, (f x).fields = x.fields) (j : Nat) :
    ((e.modPart p f).part j).fields = (e.part j).fields := ((Engine.OnlyTells.refl e).modPart hf).fields j

theorem Engine.canon_modReq {e : Engine} {q : Nat} {f : Request → Request} (hw : mwf (fun _ => ({} : Request)) e.reqs = true) :
    mwf (fun _ => ({} : Request)) (e.modReq q f).reqs = true := mwf_mset _ _ _ _ hw

/-- A change of the tiles of a partition leaves the sites of other fields as they are. -/
theorem Engine.tile_modPartTiles (e : Engine) {p : Nat} (f : Tile → Tile) {v : Loc} (hv : locOk v = true) (h : (e.part p).fields.testBit v.field = false) :
    (e.modPartTiles p f).tile v = e.tile v := by
  refine List.foldlRecOn (motive := fun m => mget (fun _ => ({} : Tile)) (locKey v) m = e.tile v) e.tiles _ rfl fun m hm x _ => ?_
  split
  · next hx =>
    refine (mget_mset_ne _ _ _ fun hk => ?_).trans hm
    have hd : locKey v / 720 = v.field := by
      simp only [locOk, Bool.and_eq_true, decide_eq_true_eq] at hv
      unfold locKey
      omega
    rw [← hk, hd, h] at hx
    cases hx
  · exact hm

section DropReq
variable (e : Engine) (q : Nat)

theorem Engine.reqs_idleReq : (e.idleReq q).reqs = ((e.modReq q (fun r => { r with pageHead := noPage, rows := 0 })).modReq q (fun _ => {})).reqs := rfl

theorem Engine.part_freePages : ((e.freePages q).req q).part = (e.req q).part := by
  have h := congrArg Request.part (Engine.modReq_req e q (fun r => { r with pageHead := noPage, rows := 0 }))
  exact h

theorem Engine.tile_freePages {v : Loc} (hv : locOk v = true) (h : (e.part (e.req q).part).fields.testBit v.field = false) :
    (e.freePages q).tile v = e.tile v := by
  simp only [Engine.freePages, Engine.tile, Engine.modReq_tiles, Engine.modPart_tiles]
  exact Engine.tile_modPartTiles e _ hv h

theorem Engine.parts_idleReq : (e.idleReq q).parts = ((e.modPart (e.req q).part (fun x => { x with kvUsed := x.kvUsed.filter (fun y => y.2 != q) })).modPart
    (e.req q).part (fun x => { x with losses := x.losses.filter (fun l => l.1 != q) })).parts :=
  congrArg (fun p => ((e.modPart (e.req q).part (fun x => { x with kvUsed := x.kvUsed.filter (fun y => y.2 != q) })).modPart p
    (fun x => { x with losses := x.losses.filter (fun l => l.1 != q) })).parts) (e.part_freePages q)

theorem Engine.idleReq_drops (hd : (e.req q).state = .done) : e.DropsReq q (e.idleReq q) := by
  have hreq (i : Nat) := congrArg (mget (fun _ => ({} : Request)) i) (e.reqs_idleReq q)
  have hpart (p : Nat) := congrArg (mget (fun _ => ({} : Part)) p) (e.parts_idleReq q)
  constructor
  case frame => rfl
  case self => exact ⟨fun _ => (hreq q).trans (Engine.modReq_req ..), fun h => absurd hd h⟩
  case req => exact fun i hi => (hreq i).trans ((Engine.modReq_req_ne _ _ _ _ hi).trans (Engine.modReq_req_ne _ _ _ _ hi))
  case canon =>
    intro hw
    rw [e.reqs_idleReq q]
    exact Engine.canon_modReq (Engine.canon_modReq hw)
  case tenant => exact fun _ _ => rfl
  case packets => exact fun _ => rfl
  case fifo => exact fun _ h => h
  case part => exact fun p h => (hpart p).trans ((Engine.modPart_part_ne _ _ _ _ h).trans (Engine.modPart_part_ne _ _ _ _ h))
  case fields =>
    exact fun p => (congrArg Part.fields (hpart p)).trans
      ((Engine.fields_modPart (by exact fun _ => rfl) p).trans (Engine.fields_modPart (by exact fun _ => rfl) p))
  case tile => exact fun v hv h => e.tile_freePages q hv (h hd)

/-- A request's losses and a packet of it in the writing discarded (R311, R335). -/
def Engine.cutPackets : Engine :=
  cond ((e.tenant (e.req q).tenant).writing q) (fun x => x.modTenant (e.req q).tenant Tenant.dropRemainder) (e.dropLosses q)

theorem Tenant.noPackets_dropRemainder (t : Tenant) : t.dropRemainder.noPackets = t.noPackets := by
  unfold Tenant.dropRemainder
  split <;> rfl

theorem Tenant.fifo_dropRemainder {t : Tenant} (h : t.fifo = []) : t.dropRemainder.fifo = [] := by
  unfold Tenant.dropRemainder
  split
  · exact congrArg List.dropLast h
  · exact h

theorem Engine.cutPackets_cases : e.cutPackets q = e.dropLosses q ∨
    e.cutPackets q = (e.dropLosses q).modTenant (e.req q).tenant Tenant.dropRemainder := by
  unfold Engine.cutPackets cond
  split
  · exact .inr rfl
  · exact .inl rfl

theorem Engine.cutPackets_frame : e.cutPackets q = { e with parts := (e.dropLosses q).parts, tenants := (e.cutPackets q).tenants } := by
  obtain h | h := e.cutPackets_cases q <;> rw [h] <;> rfl

theorem Engine.tenant_cutPackets (k : Nat) : (e.cutPackets q).tenant k = e.tenant k ∨
    (k = (e.req q).tenant ∧ (e.cutPackets q).tenant k = (e.tenant k).dropRemainder) := by
  obtain h | h := e.cutPackets_cases q
  · exact .inl (by rw [h]; rfl)
  · rw [h]
    by_cases hk : k = (e.req q).tenant
    · exact .inr ⟨hk, by rw [hk]; exact Engine.modTenant_tenant ..⟩
    · exact .inl (Engine.modTenant_tenant_ne _ _ _ _ hk)

/-- A cancellation, with its discards first. -/
theorem Engine.cancelReq_cuts : ∃ cut, e.cancelReq q true = (e.cutPackets q).modReq q (fun r => { r with
    state := .cancelling, pauseReq := false, resumeReq := false, tree := none, heldPkts := []
    outCnt := if r.heldPkts.isEmpty && !cut then r.outCnt else r.delivered
    silentEnd := r.silentEnd || true }) := ⟨_, rfl⟩

theorem Engine.cancelReq_drops (hd : (e.req q).state ≠ .done) : e.DropsReq q (e.cancelReq q true) := by
  have hf := e.cutPackets_frame q
  have hr : (e.cutPackets q).reqs = e.reqs := by rw [hf]
  have hreq (i : Nat) : (e.cutPackets q).req i = e.req i := congrArg (mget (fun _ => ({} : Request)) i) hr
  have hpart (p : Nat) : (e.cancelReq q true).part p = (e.dropLosses q).part p :=
    congrArg (mget (fun _ => ({} : Part)) p) (show (e.cutPackets q).parts = _ by rw [hf])
  have hten (k : Nat) : (e.cancelReq q true).tenant k = (e.cutPackets q).tenant k := rfl
  constructor
  case frame =>
    obtain ⟨c, hc⟩ := e.cancelReq_cuts q
    rw [hc]
    obtain h | h := e.cutPackets_cases q <;> rw [h] <;> rfl
  case self =>
    refine ⟨fun h => absurd h hd, fun _ => ?_⟩
    refine (congrArg Request.recount (Engine.modReq_req (e.cutPackets q) q _)).trans ?_
    rw [hreq]
    simp [Request.recount, Request.cancelled]
  case req => exact fun i hi => (Engine.modReq_req_ne (e.cutPackets q) _ _ _ hi).trans (hreq i)
  case canon => exact fun hw => Engine.canon_modReq (hr ▸ hw)
  case tenant =>
    exact fun k hk => (hten k).trans ((e.tenant_cutPackets q k).resolve_right fun h => hk h.1)
  case packets =>
    intro k
    rw [hten]
    obtain h | ⟨-, h⟩ := e.tenant_cutPackets q k <;> rw [h]
    exact Tenant.noPackets_dropRemainder _
  case fifo =>
    intro k hk
    rw [hten]
    obtain h | ⟨-, h⟩ := e.tenant_cutPackets q k <;> rw [h]
    · exact hk
    · exact Tenant.fifo_dropRemainder hk
  case part => exact fun p hp => (hpart p).trans (Engine.modPart_part_ne _ _ _ _ hp)
  case fields => exact fun p => (congrArg Part.fields (hpart p)).trans (Engine.fields_modPart (by exact fun _ => rfl) p)
  case tile =>
    exact fun v _ _ => congrArg (mget (fun _ => ({} : Tile)) (locKey v)) (show (e.cutPackets q).tiles = _ by rw [hf])

theorem Engine.dropReq_drops : e.DropsReq q (e.dropReq q) := by
  by_cases hd : (e.req q).state = .done
  · rw [Engine.dropReq, if_pos hd]
    exact e.idleReq_drops q hd
  · rw [Engine.dropReq, if_neg hd]
    exact e.cancelReq_drops q hd

end DropReq

/-! ### Several requests in turn -/

/-- Requests dropped one after another. -/
def Engine.dropReqs (e : Engine) (l : List Nat) : Engine := l.foldl Engine.dropReq e

section DropReqs
variable {e : Engine} {l : List Nat}

theorem Engine.dropReqs_cons (e : Engine) (q : Nat) (l : List Nat) : e.dropReqs (q :: l) = (e.dropReq q).dropReqs l := rfl

/-- What dropping any request keeps. -/
theorem Engine.dropReqs_keeps {M : Engine → Prop} (h0 : M e) (hs : ∀ x, ∀ q ∈ l, M x → M (x.dropReq q)) : M (e.dropReqs l) :=
  List.foldlRecOn l Engine.dropReq h0 fun x hx q hq => hs x q hq hx

/-- What dropping the requests keeps, each of them as it was in the engine `e` when its turn comes. -/
theorem Engine.dropReqs_keeps_of_nodup {M : Engine → Prop} (hn : l.Nodup) (h0 : M e)
    (hs : ∀ x, ∀ q ∈ l, x.req q = e.req q → M x → M (x.dropReq q)) : M (e.dropReqs l) := by
  suffices h : ∀ x, (∀ q ∈ l, x.req q = e.req q) → M x → M (x.dropReqs l) from h e (fun _ _ => rfl) h0
  induction l with
  | nil => exact fun _ _ h => h
  | cons q l ih =>
    obtain ⟨hq, hn⟩ := List.nodup_cons.mp hn
    intro x hx h
    refine ih hn (fun y j hj => hs y j (List.mem_cons_of_mem _ hj)) _ (fun j hj => ?_) (hs x q (List.mem_cons_self ..) (hx q (List.mem_cons_self ..)) h)
    exact ((x.dropReq_drops q).req j fun h => hq (h ▸ hj)).trans (hx j (List.mem_cons_of_mem _ hj))

theorem Engine.dropReqs_frame (e : Engine) (l : List Nat) : e.dropReqs l =
    { e with tiles := (e.dropReqs l).tiles, parts := (e.dropReqs l).parts, tenants := (e.dropReqs l).tenants, reqs := (e.dropReqs l).reqs } :=
  dropReqs_keeps (M := fun x => x = { e with tiles := x.tiles, parts := x.parts, tenants := x.tenants, reqs := x.reqs }) rfl
    fun x q _ h => by rw [(x.dropReq_drops q).frame, h]

theorem Engine.req_dropReqs_of_notMem {i : Nat} (hi : i ∉ l) : (e.dropReqs l).req i = e.req i :=
  dropReqs_keeps (M := fun x => x.req i = e.req i) rfl fun x q hq h => ((x.dropReq_drops q).req i fun hiq => hi (hiq ▸ hq)).trans h

theorem Engine.req_dropReqs_of_mem (hn : l.Nodup) {i : Nat} (hi : i ∈ l) : (e.req i).DroppedAs ((e.dropReqs l).req i) := by
  induction l generalizing e with
  | nil => cases hi
  | cons q l ih =>
    obtain ⟨hq, hn⟩ := List.nodup_cons.mp hn
    rw [dropReqs_cons]
    by_cases hiq : i = q
    · rw [hiq, req_dropReqs_of_notMem hq]
      exact (e.dropReq_drops q).self
    · rw [← (e.dropReq_drops q).req i hiq]
      exact ih hn ((List.mem_cons.mp hi).resolve_left hiq)

theorem Engine.canon_dropReqs (hw : mwf (fun _ => ({} : Request)) e.reqs = true) : mwf (fun _ => ({} : Request)) (e.dropReqs l).reqs = true :=
  dropReqs_keeps (M := fun x => mwf (fun _ => ({} : Request)) x.reqs = true) hw fun x q _ h => (x.dropReq_drops q).canon h

theorem Engine.packets_dropReqs (e : Engine) (l : List Nat) (k : Nat) : ((e.dropReqs l).tenant k).noPackets = (e.tenant k).noPackets :=
  dropReqs_keeps (M := fun x => (x.tenant k).noPackets = (e.tenant k).noPackets) rfl fun x q _ h => ((x.dropReq_drops q).packets k).trans h

theorem Engine.fifo_dropReqs {k : Nat} (h : (e.tenant k).fifo = []) : ((e.dropReqs l).tenant k).fifo = [] :=
  dropReqs_keeps (M := fun x => (x.tenant k).fifo = []) h fun x q _ h => (x.dropReq_drops q).fifo k h

theorem Engine.tenant_dropReqs (hn : l.Nodup) {k : Nat} (h : ∀ q ∈ l, k ≠ (e.req q).tenant) : (e.dropReqs l).tenant k = e.tenant k :=
  dropReqs_keeps_of_nodup (M := fun x => x.tenant k = e.tenant k) hn rfl
    fun x q hq hx hk => ((x.dropReq_drops q).tenant k (hx ▸ h q hq)).trans hk

theorem Engine.part_dropReqs (hn : l.Nodup) {p : Nat} (h : ∀ q ∈ l, p ≠ (e.req q).part) : (e.dropReqs l).part p = e.part p :=
  dropReqs_keeps_of_nodup (M := fun x => x.part p = e.part p) hn rfl
    fun x q hq hx hp => ((x.dropReq_drops q).part p (hx ▸ h q hq)).trans hp

/-- A site outside the partitions of the requests that are DONE. -/
theorem Engine.tile_dropReqs (hn : l.Nodup) {v : Loc} (hv : locOk v = true)
    (h : ∀ q ∈ l, (e.req q).state = .done → (e.part (e.req q).part).fields.testBit v.field = false) : (e.dropReqs l).tile v = e.tile v := by
  refine (dropReqs_keeps_of_nodup (M := fun x => (∀ p, (x.part p).fields = (e.part p).fields) ∧ x.tile v = e.tile v) hn ⟨fun _ => rfl, rfl⟩ ?_).2
  intro x q hq hx ⟨hf, ht⟩
  have hd := x.dropReq_drops q
  refine ⟨fun p => (hd.fields p).trans (hf p), (hd.tile v hv ?_).trans ht⟩
  rw [hx, hf]
  exact h q hq

end DropReqs

/-! ### The requests and packets of a VF (R324, R335, R462) -/

/-- OUT_CNT of requests back at their delivered counts. -/
def Engine.recountReqs (e : Engine) (l : List Nat) : Engine := l.foldl (fun e q => e.modReq q Request.recount) e

theorem Engine.recountReqs_frame (e : Engine) (l : List Nat) : e.recountReqs l = { e with reqs := (e.recountReqs l).reqs } :=
  List.foldlRecOn (motive := fun (x : Engine) => x = { e with reqs := x.reqs }) l _ rfl fun x h q _ => by rw [h]; rfl

theorem Engine.req_recountReqs (e : Engine) (l : List Nat) (i : Nat) : (e.recountReqs l).req i = if i ∈ l then (e.req i).recount else e.req i := by
  induction l generalizing e with
  | nil => rfl
  | cons q l ih =>
    rw [Engine.recountReqs, List.foldl_cons, ← Engine.recountReqs, ih, Engine.req_modReq]
    by_cases hq : i = q <;> by_cases hl : i ∈ l <;> simp [hq, hl, Request.recount]

/-- The entries of a canonical request table that satisfy a test are listed once each. -/
theorem Engine.nodup_reqsWhere {e : Engine} (hw : mwf (fun _ => ({} : Request)) e.reqs = true) (f : Request → Bool) : (e.reqsWhere f).Nodup := by
  refine List.Nodup.sublist (List.filter_sublist.map _) ?_
  suffices h : ∀ (m : AMap Request) (lo : Nat), mwfFrom (fun _ => ({} : Request)) lo m = true → (m.map (·.1)).Nodup from h _ 0 hw
  intro m
  induction m with
  | nil => exact fun _ _ => List.nodup_nil
  | cons x m ih =>
    intro lo hm
    simp only [mwfFrom, Bool.and_eq_true] at hm
    refine List.nodup_cons.mpr ⟨fun hx => ?_, ih _ hm.2⟩
    obtain ⟨y, hy, hyx⟩ := List.mem_map.mp hx
    exact Nat.not_succ_le_self _ ((le_of_mem_mwfFrom hm.2 hy).trans (Nat.le_of_eq hyx))

/-- A request of tenant `t` that is not IDLE. -/
def Request.heldFor (t : Nat) (r : Request) : Bool := r.tenant == t && r.state != .idle

theorem Request.heldFor_iff {t : Nat} {r : Request} : r.heldFor t = true ↔ r.tenant = t ∧ r.state ≠ .idle := by
  simp [Request.heldFor]

theorem Request.heldFor_default (t : Nat) : ({} : Request).heldFor t = false := by simp [Request.heldFor]

/-- A tenant's requests dropped, then its packets, with the counts of what is left. -/
def Engine.sweep (e : Engine) (t : Nat) : Engine :=
  let x := (e.dropReqs (e.reqsWhere (Request.heldFor t))).modTenant t Tenant.noPackets
  x.recountReqs (x.reqsWhere (Request.heldFor t))

section Sweep
variable (e : Engine) (t : Nat)

theorem Engine.sweep_drops : e.sweep t = { (e.dropReqs (e.reqsWhere (Request.heldFor t))).modTenant t Tenant.noPackets with reqs := (e.sweep t).reqs } :=
  Engine.recountReqs_frame _ _

theorem Engine.sweep_frame : e.sweep t =
    { e with tiles := (e.sweep t).tiles, parts := (e.sweep t).parts, tenants := (e.sweep t).tenants, reqs := (e.sweep t).reqs } := by
  have hd := e.dropReqs_frame (e.reqsWhere (Request.heldFor t))
  rw [sweep_drops, hd]
  rfl

theorem Engine.tenant_sweep (k : Nat) : (e.sweep t).tenant k = ((e.dropReqs (e.reqsWhere (Request.heldFor t))).modTenant t Tenant.noPackets).tenant k := by
  rw [sweep_drops]
  rfl

theorem Engine.tenant_sweep_self : (e.sweep t).tenant t = (e.tenant t).noPackets := by
  rw [tenant_sweep, Engine.modTenant_tenant, packets_dropReqs]

theorem Engine.fifo_sweep : ((e.sweep t).tenant t).fifo = [] := congrArg Tenant.fifo (e.tenant_sweep_self t)

variable {e t}

theorem Engine.fifo_sweep_of_nil {k : Nat} (h : (e.tenant k).fifo = []) : ((e.sweep t).tenant k).fifo = [] := by
  by_cases hk : k = t
  · rw [hk, fifo_sweep]
  · rw [tenant_sweep, Engine.modTenant_tenant_ne _ _ _ _ hk, fifo_dropReqs h]

variable (hw : mwf (fun _ => ({} : Request)) e.reqs = true)
include hw

theorem Engine.mem_heldFor {i : Nat} : i ∈ e.reqsWhere (Request.heldFor t) ↔ (e.req i).heldFor t = true :=
  mem_reqsWhere hw (Request.heldFor_default t)

theorem Engine.tenant_sweep_other {k : Nat} (hk : k ≠ t) : (e.sweep t).tenant k = e.tenant k := by
  rw [tenant_sweep, Engine.modTenant_tenant_ne _ _ _ _ hk]
  refine tenant_dropReqs (nodup_reqsWhere hw _) fun q hq => ?_
  rw [(Request.heldFor_iff.mp ((mem_heldFor hw).mp hq)).1]
  exact hk

theorem Engine.part_sweep {p : Nat} (h : ∀ i, (e.req i).heldFor t = true → (e.req i).part ≠ p) : (e.sweep t).part p = e.part p := by
  rw [sweep_drops]
  exact part_dropReqs (nodup_reqsWhere hw _) fun q hq => (h q ((mem_heldFor hw).mp hq)).symm

theorem Engine.tile_sweep {v : Loc} (hv : locOk v = true)
    (h : ∀ i, (e.req i).heldFor t = true → (e.req i).state = .done → (e.part (e.req i).part).fields.testBit v.field = false) :
    (e.sweep t).tile v = e.tile v := by
  rw [sweep_drops]
  exact tile_dropReqs (nodup_reqsWhere hw _) hv fun q hq => h q ((mem_heldFor hw).mp hq)

/-- A request after the FLR, by what it is once the tenant's requests have been dropped. -/
theorem Engine.req_sweep (i : Nat) : (e.sweep t).req i =
    let r := (e.dropReqs (e.reqsWhere (Request.heldFor t))).req i
    if r.heldFor t = true then r.recount else r := by
  have hm : i ∈ ((e.dropReqs (e.reqsWhere (Request.heldFor t))).modTenant t Tenant.noPackets).reqsWhere (Request.heldFor t) ↔
      ((e.dropReqs (e.reqsWhere (Request.heldFor t))).req i).heldFor t = true :=
    mem_heldFor (e := (e.dropReqs (e.reqsWhere (Request.heldFor t))).modTenant t Tenant.noPackets) (canon_dropReqs hw)
  exact (req_recountReqs _ _ i).trans (by simp only [hm]; rfl)

variable {i : Nat}

theorem Engine.req_sweep_other (hi : (e.req i).heldFor t = false) : (e.sweep t).req i = e.req i := by
  have hn : i ∉ e.reqsWhere (Request.heldFor t) := mt (mem_heldFor hw).mp (Bool.eq_false_iff.mp hi)
  rw [req_sweep hw, req_dropReqs_of_notMem hn]
  exact if_neg (Bool.eq_false_iff.mp hi)

variable (hi : (e.req i).heldFor t = true)
include hi

theorem Engine.req_sweep_done (hd : (e.req i).state = .done) : (e.sweep t).req i = {} := by
  have h := (req_dropReqs_of_mem (nodup_reqsWhere hw _) ((mem_heldFor hw).mpr hi)).1 hd
  rw [req_sweep hw, h]
  exact if_neg (Bool.eq_false_iff.mp (Request.heldFor_default t))

theorem Engine.req_sweep_cancelled (hd : (e.req i).state ≠ .done) : (e.sweep t).req i = (e.req i).cancelled := by
  have h := (req_dropReqs_of_mem (nodup_reqsWhere hw _) ((mem_heldFor hw).mpr hi)).2 hd
  have ht := (congrArg Request.tenant h).trans (Request.heldFor_iff.mp hi).1
  have hs := ne_of_eq_of_ne (congrArg Request.state h) (show ReqState.cancelling ≠ .idle by decide)
  rw [req_sweep hw]
  exact (if_pos (Request.heldFor_iff.mpr ⟨ht, hs⟩)).trans h

end Sweep

end Sys2Proof.Machine
end

section
/-!
PROOFS. FLR of a VF and of a PF, hot resets (R324, R486), and the link of a port that goes down or comes up (R325, R394).
-/
namespace Sys2Proof.Machine

open Sys2Proof.Safety

/-! ### FLR of a VF (R324) -/

/-- Registers of a VF after its FLR: its rings are disabled, and it has nothing launched, nothing open and no reply. -/
def FnState.vfReset (x : FnState) : FnState :=
  { x with
    rings := x.rings.map (fun y => (y.1, { y.2 with cfg := BitVec.ofNat 64 (setFld y.2.cfg.toNat 63 63 0), since := 0 }))
    status := [], waitStatus := [], opened := 0, dwBusy := false, dwBefore := 0 }

/-- A VF's commands withdrawn, and its registers reset. -/
def Engine.silenced (e : Engine) (t : Nat) : Engine :=
  ((e.modDeck 0 (fun d => d.withdraw (.vf t))).modDeck 1 (fun d => d.withdraw (.vf t))).modFn (.vf t) FnState.vfReset

theorem Engine.deck_silenced (e : Engine) (t d : Nat) :
    (e.silenced t).deck d = if d < 2 then (e.deck d).withdraw (.vf t) else e.deck d := by
  split
  · next hd => exact e.deck_modBoth (fun d => d.withdraw (.vf t)) hd
  · next hd =>
    exact (Engine.modDeck_deck_ne (e.modDeck 0 (fun d => d.withdraw (.vf t))) 1 (fun d => d.withdraw (.vf t)) d (by omega)).trans
      (Engine.modDeck_deck_ne e 0 _ d (by omega))

section Silenced
variable (e : Engine) (t : Nat)

theorem Engine.silenced_frame : ∃ decks fns, e.silenced t = { e with decks := decks, fns := fns } := by
  unfold Engine.silenced Engine.modFn Engine.modDeck
  exact ⟨_, _, rfl⟩

theorem Engine.req_silenced (i : Nat) : (e.silenced t).req i = e.req i := by
  obtain ⟨_, _, h⟩ := e.silenced_frame t
  rw [h, Engine.req, Engine.req]

theorem Engine.tenant_silenced (k : Nat) : (e.silenced t).tenant k = e.tenant k := by
  obtain ⟨_, _, h⟩ := e.silenced_frame t
  rw [h, Engine.tenant, Engine.tenant]

theorem Engine.part_silenced (p : Nat) : (e.silenced t).part p = e.part p := by
  obtain ⟨_, _, h⟩ := e.silenced_frame t
  rw [h, Engine.part, Engine.part]

theorem Engine.tile_silenced (v : Loc) : (e.silenced t).tile v = e.tile v := by
  obtain ⟨_, _, h⟩ := e.silenced_frame t
  rw [h, Engine.tile, Engine.tile]

end Silenced

/-- A VF silenced, and what its tenant has in progress swept. -/
def Engine.resetVf (e : Engine) (t : Nat) : Engine := (e.silenced t).sweep t

section ResetVf
variable (e : Engine) (t : Nat)

theorem Engine.resetVf_frame : ∃ tiles parts tenants reqs, e.resetVf t =
    { e.silenced t with tiles := tiles, parts := parts, tenants := tenants, reqs := reqs } := ⟨_, _, _, _, Engine.sweep_frame _ t⟩

/-- The tables that the FLR of a VF changes beyond the decisions that it tells. -/
theorem Engine.resetVf_tables : e.resetVf t = { e with
    decks := (e.resetVf t).decks, fns := (e.resetVf t).fns, reqs := (e.resetVf t).reqs, tenants := (e.resetVf t).tenants
    parts := (e.resetVf t).parts, tiles := (e.resetVf t).tiles } := by
  obtain ⟨_, _, _, _, h⟩ := e.resetVf_frame t
  obtain ⟨_, _, hs⟩ := e.silenced_frame t
  rw [h, hs]

theorem Engine.deck_resetVf (d : Nat) : (e.resetVf t).deck d = if d < 2 then (e.deck d).withdraw (.vf t) else e.deck d := by
  obtain ⟨_, _, _, _, h⟩ := e.resetVf_frame t
  rw [h]
  exact e.deck_silenced t d

theorem Engine.fn_resetVf_self : (e.resetVf t).fn (.vf t) = (e.fn (.vf t)).vfReset := by
  obtain ⟨_, _, _, _, h⟩ := e.resetVf_frame t
  rw [h]
  exact Engine.modFn_fn e (.vf t) FnState.vfReset

theorem Engine.fn_resetVf_other {g : Fn} (hg : fnKey g ≠ fnKey (.vf t)) : (e.resetVf t).fn g = e.fn g := by
  obtain ⟨_, _, _, _, h⟩ := e.resetVf_frame t
  rw [h]
  exact mget_mmod_ne _ _ _ hg

theorem Engine.fifo_resetVf : ((e.resetVf t).tenant t).fifo = [] := Engine.fifo_sweep _ t

theorem Engine.fifo_resetVf_of_nil {k : Nat} (h : (e.tenant k).fifo = []) : ((e.resetVf t).tenant k).fifo = [] := by
  rw [← e.tenant_silenced t] at h
  exact Engine.fifo_sweep_of_nil h

theorem Engine.canon_silenced (hw : mwf (fun _ => ({} : Request)) e.reqs = true) : mwf (fun _ => ({} : Request)) (e.silenced t).reqs = true := hw

variable {e t} (hw : mwf (fun _ => ({} : Request)) e.reqs = true)
include hw

theorem Engine.tenant_resetVf (k : Nat) : (e.resetVf t).tenant k = if k = t then (e.tenant t).noPackets else e.tenant k := by
  simp only [← e.tenant_silenced t]
  split
  · next hk => rw [hk]; exact (e.silenced t).tenant_sweep_self t
  · next hk => exact Engine.tenant_sweep_other (e.canon_silenced t hw) hk

theorem Engine.req_resetVf (i : Nat) :
    (¬ ((e.req i).tenant = t ∧ (e.req i).state ≠ .idle) → (e.resetVf t).req i = e.req i) ∧
    ((e.req i).tenant = t ∧ (e.req i).state ≠ .idle → (e.req i).state = .done → (e.resetVf t).req i = {}) ∧
    ((e.req i).tenant = t ∧ (e.req i).state ≠ .idle → (e.req i).state ≠ .done → (e.resetVf t).req i = (e.req i).cancelled) := by
  have hw := e.canon_silenced t hw
  rw [← Request.heldFor_iff, ← e.req_silenced t]
  exact ⟨fun hi => Engine.req_sweep_other hw (Bool.eq_false_iff.mpr hi), fun hi => Engine.req_sweep_done hw hi,
    fun hi => Engine.req_sweep_cancelled hw hi⟩

theorem Engine.part_resetVf {p : Nat} (h : ∀ i, (e.req i).tenant = t ∧ (e.req i).state ≠ .idle → (e.req i).part ≠ p) :
    (e.resetVf t).part p = e.part p := by
  simp only [← Request.heldFor_iff, ← e.req_silenced t] at h
  exact (Engine.part_sweep (e.canon_silenced t hw) h).trans (e.part_silenced t p)

theorem Engine.tile_resetVf {v : Loc} (hv : locOk v = true) (h : ∀ i, (e.req i).tenant = t ∧ (e.req i).state ≠ .idle → (e.req i).state = .done →
    (e.part (e.req i).part).fields.testBit v.field = false) : (e.resetVf t).tile v = e.tile v := by
  simp only [← Request.heldFor_iff, ← e.req_silenced t, ← e.part_silenced t] at h
  exact (Engine.tile_sweep (e.canon_silenced t hw) hv h).trans (e.tile_silenced t v)

end ResetVf

theorem flrOf_vf (t now : Nat) (e : Engine) : flrOf (.vf t) now e = (e.abortActs (.vf t) now).resetVf t := rfl

theorem exec_flr_vf {s : State} {t : Nat} (ht : t < 256) : exec (.flr (.vf t)) s = .next (withEng s ((s.eng.abortActs (.vf t) s.now).resetVf t)) :=
  onUnit_eq (decide_eq_true ht) (flrOf_vf ..)

/-! ### FLR of a PF (R324, R465) -/

/-- Registers of a PF after its FLR. -/
def FnState.pfReset (x : FnState) : FnState := { x with rings := [], dw := [], dwBusy := false, dwBefore := 0, opened := 0 }

/-- The snapshots but the one that is being captured for a function. -/
def Engine.keptSnaps (e : Engine) (f : Fn) : List Snap := e.snaps.filter (fun x => !(x.hd.fn == f && x.capturing))

theorem Engine.dropCapture_frame (e : Engine) (f : Fn) : ∃ parts, e.dropCapture f = { e with snaps := e.keptSnaps f, parts := parts } := by
  refine List.foldlRecOn (motive := fun (x : Engine) => ∃ parts, x = { e with snaps := e.keptSnaps f, parts := parts }) _ _ ⟨_, rfl⟩ fun x hx y _ => ?_
  refine List.foldlRecOn (motive := fun (x : Engine) => ∃ parts, x = { e with snaps := e.keptSnaps f, parts := parts }) _ _ hx fun x hx p _ => ?_
  obtain ⟨_, rfl⟩ := hx
  exact ⟨_, rfl⟩

theorem muteFor_fn (f : Fn) (h : Hdr) : (muteFor f h).fn = h.fn := by
  unfold muteFor
  split <;> rfl

theorem Deck.withdraw_pf_sched (d : Deck) (k : Nat) : (d.withdraw (.pf k)).sched = d.sched.map (fun x => { x with hd := muteFor (.pf k) x.hd }) := by
  simp [Deck.withdraw]

theorem Deck.withdraw_intake {d : Deck} {f : Fn} {x : Intake} (hx : x ∈ (d.withdraw f).intake) : x.fn ≠ f := by
  simpa using (List.mem_filter.mp hx).2

section FlrPf
variable (k now : Nat) (e : Engine)

/-- A PF's commands not yet executed withdrawn, and its registers reset. -/
def Engine.silencedPf : Engine := ((e.modDeck 0 (fun d => d.withdraw (.pf k))).modDeck 1 (fun d => d.withdraw (.pf k))).modFn (.pf k) FnState.pfReset

theorem flrOf_pf : flrOf (.pf k) now e = ((e.silencedPf k).dropCapture (.pf k)).muteScheduled (.pf k) := rfl

theorem flrOf_pf_frame : ∃ parts, flrOf (.pf k) now e = { e.silencedPf k with
    snaps := (e.keptSnaps (.pf k)).map (fun x => { x with hd := muteFor (.pf k) x.hd }), parts := parts } := by
  obtain ⟨_, h⟩ := (e.silencedPf k).dropCapture_frame (.pf k)
  rw [flrOf_pf, h]
  exact ⟨_, rfl⟩

theorem flrOf_pf_fn : (flrOf (.pf k) now e).fn (.pf k) = (e.fn (.pf k)).pfReset := by
  obtain ⟨_, h⟩ := flrOf_pf_frame k now e
  rw [h]
  exact Engine.modFn_fn e (.pf k) FnState.pfReset

/-- The FLR of a PF leaves requests, tenants and tiles as they are. -/
theorem flrOf_pf_keeps : (flrOf (.pf k) now e).reqs = e.reqs ∧ (flrOf (.pf k) now e).tenants = e.tenants ∧ (flrOf (.pf k) now e).tiles = e.tiles := by
  obtain ⟨_, h⟩ := flrOf_pf_frame k now e
  rw [h]
  exact ⟨rfl, rfl, rfl⟩

theorem flrOf_pf_deck {d : Nat} (hd : d < 2) : (flrOf (.pf k) now e).deck d = (e.deck d).withdraw (.pf k) := by
  obtain ⟨_, h⟩ := flrOf_pf_frame k now e
  rw [h]
  exact e.deck_modBoth (fun d => d.withdraw (.pf k)) hd

/-- What is left of the function's snapshots applies without a reply. -/
theorem flrOf_pf_snaps {x : Snap} (hx : x ∈ (flrOf (.pf k) now e).snaps) (hf : x.hd.fn = .pf k) : x.capturing = false ∧ x.hd.muted = true := by
  obtain ⟨_, h⟩ := flrOf_pf_frame k now e
  rw [h] at hx
  obtain ⟨y, hy, rfl⟩ := List.mem_map.mp hx
  have hfn : y.hd.fn = .pf k := (muteFor_fn _ _).symm.trans hf
  have hc := (List.mem_filter.mp hy).2
  exact ⟨by simpa [hfn] using hc, congrArg Hdr.muted (if_pos hfn)⟩

end FlrPf

/-! ### HOT_RESET (R324, R486) -/

/-- The VFs that respond on a port, in the order of their numbers (R323). -/
def Engine.portVfs (e : Engine) (p : Nat) : List Fn := (List.range 256).filterMap (fun i => e.vfNumber p (i + 1))

theorem Engine.mem_portVfs_vf {e : Engine} {p : Nat} {f : Fn} (h : f ∈ e.portVfs p) : ∃ t, f = .vf t := by
  obtain ⟨i, -, hi⟩ := List.mem_filterMap.mp h
  unfold Engine.vfNumber at hi
  split at hi
  · obtain ⟨t, -, rfl⟩ := Option.map_eq_some_iff.mp hi
    exact ⟨t, rfl⟩
  · cases hi

/-- Every tenant assigned to a port with VF Enable is one of its VFs. -/
theorem Engine.mem_portVfs {e : Engine} {p t : Nat} (hv : (e.hport p).vfEnable = true) (ht : t < 256) (hp : e.vfWord t % 8 = p)
    (ha : bitAt (e.vfWord t) 7 = true) : .vf t ∈ e.portVfs p := by
  have hm : t ∈ e.tenantsAt p := List.mem_filter.mpr ⟨List.mem_range.mpr ht, by simp [fld_low, hp, ha]⟩
  obtain ⟨i, hi, rfl⟩ := List.getElem_of_mem hm
  have hl : (e.tenantsAt p).length ≤ 256 := (List.length_filter_le _ _).trans (List.length_range).le
  refine List.mem_filterMap.mpr ⟨i, List.mem_range.mpr (by omega), ?_⟩
  refine (if_pos ?_).trans ?_
  · rw [hv, Bool.true_and, Bool.and_eq_true, decide_eq_true_eq, decide_eq_true_eq]
    exact ⟨Nat.le_add_left .., hi.trans_le hl⟩
  · rw [Nat.add_sub_cancel, List.getElem?_eq_getElem hi]
    rfl

/-- A property that every step of a fold keeps, and one of them establishes, holds at its end. -/
theorem foldl_establishes {α β : Type} {f : α → β → α} {M : α → Prop} {l : List β} (hk : ∀ x, ∀ y ∈ l, M x → M (f x y)) {y : β} (hy : y ∈ l)
    (he : ∀ x, M (f x y)) (x : α) : M (l.foldl f x) := by
  obtain ⟨a, b, rfl⟩ := List.append_of_mem hy
  rw [List.foldl_append, List.foldl_cons]
  exact List.foldlRecOn b f (he _) fun x hx z hz => hk x z (List.mem_append_right _ (List.mem_cons_of_mem _ hz)) hx

/-- No token packet and no reply of tenant `t` waits. -/
def Engine.Quiet (e : Engine) (t : Nat) : Prop := (e.tenant t).fifo = [] ∧ (e.fn (.vf t)).status = []

theorem fnKey_vf_ne {t k : Nat} (h : t ≠ k) : fnKey (.vf t) ≠ fnKey (.vf k) := mt Nat.add_left_cancel h

theorem fnKey_pf_ne_vf {p : Nat} (hp : p < 8) (t : Nat) : fnKey (.pf p) ≠ fnKey (.vf t) := Nat.ne_of_lt (hp.trans_le (Nat.le_add_right 8 t))

theorem quiet_flrOf_self (t now : Nat) (e : Engine) : (flrOf (.vf t) now e).Quiet t := by
  rw [flrOf_vf]
  exact ⟨Engine.fifo_resetVf _ t, congrArg FnState.status (Engine.fn_resetVf_self _ t)⟩

theorem quiet_flrOf {t : Nat} (k now : Nat) {e : Engine} (h : e.Quiet t) : (flrOf (.vf k) now e).Quiet t := by
  by_cases hk : t = k
  · rw [hk]
    exact quiet_flrOf_self k now e
  · have ha := e.abortActs_onlyTells (.vf k) now
    obtain ⟨hf, hs⟩ := h
    rw [flrOf_vf]
    refine ⟨Engine.fifo_resetVf_of_nil _ _ (by rwa [ha.tenant]), ?_⟩
    rwa [Engine.fn_resetVf_other _ _ (fnKey_vf_ne hk), ha.fn]

section HotReset
variable {p now : Nat} {e : Engine}

theorem hotReset_eq : hotReset p now e = (e.portVfs p).foldl (fun e f => flrOf f now e) (flrOf (.pf p) now e) := rfl

/-- The FLRs of VFs leave a PF without rings. -/
theorem rings_hotReset (hp : p < 8) : ((hotReset p now e).fn (.pf p)).rings = [] := by
  rw [hotReset_eq]
  refine List.foldlRecOn (motive := fun (x : Engine) => (x.fn (.pf p)).rings = []) (e.portVfs p) _ (congrArg FnState.rings (flrOf_pf_fn p now e)) ?_
  intro x hx f hf
  obtain ⟨t, rfl⟩ := Engine.mem_portVfs_vf hf
  show ((flrOf (.vf t) now x).fn (.pf p)).rings = []
  rwa [flrOf_vf, Engine.fn_resetVf_other _ _ (fnKey_pf_ne_vf hp t), (x.abortActs_onlyTells (.vf t) now).fn]

theorem quiet_hotReset {t : Nat} (h : .vf t ∈ e.portVfs p) : (hotReset p now e).Quiet t := by
  rw [hotReset_eq]
  refine foldl_establishes (f := fun e f => flrOf f now e) (M := fun x => x.Quiet t) (fun x f hf hx => ?_) h (by exact fun x => quiet_flrOf_self t now x) _
  obtain ⟨k, rfl⟩ := Engine.mem_portVfs_vf hf
  exact quiet_flrOf k now hx

end HotReset

/-! ### PCIE_LINK_DOWN (R325, R465) -/

section LinkDown
variable {e : Engine} {p now : Nat}

theorem linkDown_already (h : (e.hport p).up = false) : linkDown p now e = e := if_pos (congrArg _ h)

/-- A link that goes down while no snapshot through it is being captured. -/
theorem linkDown_uncaptured (h : (e.hport p).up = true) (hs : ∀ x ∈ e.snaps, x.capturing = false ∨ e.fnPort x.hd.fn ≠ some p) : linkDown p now e =
    (e.modHport p (fun h => { h with up := false })).event now (p / 4) { code := 0x0501, arg0 := (e.hport p).stat, arg1 := p } := by
  have hn : e.snaps.filter (fun x => x.capturing && e.fnPort x.hd.fn == some p) = [] := by
    refine List.filter_eq_nil_iff.mpr fun x hx => ?_
    obtain h | h := hs x hx <;> simp [h]
  unfold linkDown
  rw [if_neg (by simp [h]), hn]
  rfl

end LinkDown

/-! ### PCIE_LINK_UP (R325, R394) -/

/-- DMA writes and no more: nothing differs but what has been sent, and what waits at ports whose link is down. -/
structure Engine.OnlyDma (e t : Engine) : Prop where
  frame : t = { e with ports := t.ports, out := t.out }
  vfEnable : ∀ j, (t.hport j).vfEnable = (e.hport j).vfEnable

section OnlyDma
variable {e t u : Engine}

theorem Engine.OnlyDma.refl (e : Engine) : e.OnlyDma e := ⟨rfl, fun _ => rfl⟩

theorem Engine.OnlyDma.trans (k : e.OnlyDma t) (l : t.OnlyDma u) : e.OnlyDma u :=
  ⟨by rw [l.frame, k.frame], fun j => (l.vfEnable j).trans (k.vfEnable j)⟩

theorem Engine.OnlyDma.modHport {p : Nat} {g : HostPort → HostPort} (hg : ∀ x, (g x).vfEnable = x.vfEnable) : e.OnlyDma (e.modHport p g) := by
  refine ⟨rfl, fun j => ?_⟩
  by_cases hj : j = p
  · rw [hj, Engine.modHport_hport, hg]
  · rw [Engine.modHport_hport_ne _ _ _ _ hj]

theorem Engine.OnlyDma.vfWord (k : e.OnlyDma t) (i : Nat) : t.vfWord i = e.vfWord i := by rw [k.frame]; rfl

theorem Engine.OnlyDma.fnPort (k : e.OnlyDma t) (f : Fn) : t.fnPort f = e.fnPort f := by
  cases f with
  | pf _ => rfl
  | vf i => simp only [Engine.fnPort, k.vfWord, k.vfEnable]

theorem Engine.OnlyDma.portVfs (k : e.OnlyDma t) (p : Nat) : t.portVfs p = e.portVfs p := by
  simp only [Engine.portVfs, Engine.vfNumber, Engine.tenantsAt, k.vfWord, k.vfEnable]

theorem Engine.OnlyDma.fn (k : e.OnlyDma t) (f : Fn) : t.fn f = e.fn f := by rw [k.frame]; rfl

theorem Engine.OnlyDma.windowOk (k : e.OnlyDma t) (f : Fn) (a n : Nat) (w : Bool) : t.windowOk f a n w = e.windowOk f a n w := by
  rw [Engine.windowOk, k.fn, Engine.windowOk]

/-- What a DMA write does: nothing, the write itself, or the write waits at the function's port (R325, R339). -/
theorem Engine.dma_cases (e : Engine) (f : Fn) (a : Nat) (bs : List Byte) : e.dma f a bs = e ∨ e.dma f a bs = e.send (.dma f a bs) ∨
    ∃ p, (e.hport p).up = false ∧ e.dma f a bs = e.modHport p (fun h => { h with waiting := h.waiting ++ [(f, a, bs)] }) := by
  unfold Engine.dma
  split
  · exact .inl rfl
  · next p _ =>
    split
    · next h => exact .inr (.inr ⟨p, by simpa using h, rfl⟩)
    · split
      · exact .inr (.inl rfl)
      · exact .inl rfl

theorem Engine.dma_onlyDma (e : Engine) (f : Fn) (a : Nat) (bs : List Byte) : e.OnlyDma (e.dma f a bs) := by
  obtain h | h | ⟨p, -, h⟩ := e.dma_cases f a bs <;> rw [h]
  · exact .refl e
  · exact ⟨rfl, fun _ => rfl⟩
  · exact .modHport fun _ => rfl

/-- A DMA write leaves the port of an up link as it is. -/
theorem Engine.hport_dma {p : Nat} (hp : (e.hport p).up = true) (f : Fn) (a : Nat) (bs : List Byte) : (e.dma f a bs).hport p = e.hport p := by
  obtain h | h | ⟨j, hj, h⟩ := e.dma_cases f a bs <;> rw [h]
  · rfl
  · refine Engine.modHport_hport_ne _ _ _ _ fun hpj => ?_
    rw [hpj, hj] at hp
    cases hp

theorem Engine.dma_sends {p : Nat} (hp : (e.hport p).up = true) {f : Fn} {a : Nat} {bs : List Byte} (hf : e.fnPort f = some p)
    (hw : e.windowOk f a bs.length true = true) : e.dma f a bs = e.send (.dma f a bs) := by
  simp [Engine.dma, hf, hp, hw]

end OnlyDma

/-- DMA writes issued one after another. -/
def Engine.dmaAll (e : Engine) (w : List (Fn × Nat × List Byte)) : Engine := w.foldl (fun e x => e.dma x.1 x.2.1 x.2.2) e

section DmaAll
variable {e : Engine} {p : Nat}

theorem Engine.dmaAll_onlyDma (e : Engine) (w : List (Fn × Nat × List Byte)) : e.OnlyDma (e.dmaAll w) :=
  List.foldlRecOn w _ (.refl e) fun x h _ _ => h.trans (x.dma_onlyDma ..)

variable (hp : (e.hport p).up = true)
include hp

theorem Engine.hport_dmaAll (w : List (Fn × Nat × List Byte)) : (e.dmaAll w).hport p = e.hport p :=
  List.foldlRecOn (motive := fun (x : Engine) => x.hport p = e.hport p) w _ rfl
    fun _ h _ _ => (Engine.hport_dma ((congrArg HostPort.up h).trans hp) ..).trans h

/-- Writes through the port of an up link, each inside a window, go out in their order. -/
theorem Engine.out_dmaAll {w : List (Fn × Nat × List Byte)} (hw : ∀ x ∈ w, e.fnPort x.1 = some p ∧ e.windowOk x.1 x.2.1 x.2.2.length true = true) :
    (e.dmaAll w).out = w.reverse.map (fun x => Sent.dma x.1 x.2.1 x.2.2) ++ e.out := by
  induction w generalizing e with
  | nil => rfl
  | cons x w ih =>
    obtain ⟨hf, hx⟩ := hw x (List.mem_cons_self ..)
    have hs : e.dmaAll (x :: w) = (e.send (.dma x.1 x.2.1 x.2.2)).dmaAll w := congrArg (Engine.dmaAll · w) (Engine.dma_sends hp hf hx)
    rw [hs, ih (e := e.send (.dma x.1 x.2.1 x.2.2)) hp fun y hy => hw y (List.mem_cons_of_mem _ hy)]
    simp [Engine.send]

end DmaAll

/-- The vectors of functions that pend and may go out now (R338). -/
def Engine.pendAll (e : Engine) (l : List Fn) : Engine := l.foldl (fun e f => (List.range 5).foldl (fun e v => e.pendingMsix f v) e) e

section PendAll
variable {e : Engine}

theorem Engine.pendingMsix_ports (e : Engine) (f : Fn) (v : Nat) : (e.pendingMsix f v).ports = e.ports := by
  unfold Engine.pendingMsix
  split <;> rfl

theorem Engine.pendAll_ports (e : Engine) (l : List Fn) : (e.pendAll l).ports = e.ports :=
  List.foldlRecOn (motive := fun (x : Engine) => x.ports = e.ports) l _ rfl fun _ h f _ =>
    List.foldlRecOn (motive := fun (x : Engine) => x.ports = e.ports) (List.range 5) _ h fun x h v _ => (x.pendingMsix_ports f v).trans h

theorem Engine.pendingMsix_none {f : Fn} (h : (e.fn f).pba = 0) (v : Nat) : e.pendingMsix f v = e := if_neg (by simp [h])

theorem Engine.pendAll_none (h : ∀ f, (e.fn f).pba = 0) (l : List Fn) : e.pendAll l = e :=
  List.foldlRecOn (motive := fun (x : Engine) => x = e) l _ rfl fun _ hx f _ =>
    List.foldlRecOn (motive := fun (x : Engine) => x = e) (List.range 5) _ hx fun _ hx v _ => by rw [hx, Engine.pendingMsix_none (h f)]

end PendAll

/-- A port whose link has just come up: nothing waits at it any more. -/
def HostPort.raised (rate width : Nat) (h : HostPort) : HostPort := { h with up := true, rate := rate % 16, width := width % 32, waiting := [] }

section LinkUp
variable {e : Engine} {p rate width : Nat}

/-- A link can come up: it is down, its port is enabled, and the host interface has power (R325, R394). -/
def Engine.mayRaise (e : Engine) (p : Nat) : Prop := (e.hport p).up = false ∧ (e.hport p).enable = true ∧ 4 ≤ e.power.stage

theorem Engine.mayRaise_iff : e.mayRaise p ↔ ((e.hport p).up || !(e.hport p).enable || decide (e.power.stage < 4)) = false := by
  simp [Engine.mayRaise, and_assoc]

theorem linkUpAgain_blocked (h : ¬ e.mayRaise p) : linkUpAgain p rate width e = e :=
  if_pos (Bool.not_eq_false _ |>.mp (mt Engine.mayRaise_iff.mpr h))

theorem linkUpAgain_raises (h : e.mayRaise p) : linkUpAgain p rate width e =
    ((e.modHport p (HostPort.raised rate width)).dmaAll (e.hport p).waiting).pendAll (.pf p :: e.portVfs p) := by
  have k : e.OnlyDma ((e.modHport p (HostPort.raised rate width)).dmaAll (e.hport p).waiting) :=
    .trans (.modHport (g := HostPort.raised rate width) fun _ => rfl) (Engine.dmaAll_onlyDma ..)
  rw [← k.portVfs]
  exact if_neg (Bool.eq_false_iff.mp (Engine.mayRaise_iff.mp h))

/-- The port of a link that has come up, after the writes that waited there and the vectors that pended. -/
theorem hport_raised (e : Engine) (p rate width : Nat) (w : List (Fn × Nat × List Byte)) (l : List Fn) :
    (((e.modHport p (HostPort.raised rate width)).dmaAll w).pendAll l).hport p = (e.hport p).raised rate width := by
  have hr : (e.modHport p (HostPort.raised rate width)).hport p = (e.hport p).raised rate width := Engine.modHport_hport ..
  rw [Engine.hport, Engine.pendAll_ports]
  exact (Engine.hport_dmaAll (congrArg HostPort.up hr) w).trans hr

/-- The writes that waited go out, oldest first, where every one has its window and no vector pends. -/
theorem out_raised {w : List (Fn × Nat × List Byte)} (hw : ∀ x ∈ w, e.fnPort x.1 = some p ∧ e.windowOk x.1 x.2.1 x.2.2.length true = true)
    (hb : ∀ f, (e.fn f).pba = 0) (l : List Fn) :
    (((e.modHport p (HostPort.raised rate width)).dmaAll w).pendAll l).out = w.reverse.map (fun x => Sent.dma x.1 x.2.1 x.2.2) ++ e.out := by
  have k : e.OnlyDma (e.modHport p (HostPort.raised rate width)) := .modHport fun _ => rfl
  have hu := congrArg HostPort.up (Engine.modHport_hport e p (HostPort.raised rate width))
  rw [Engine.pendAll_none fun f => (congrArg FnState.pba ((k.trans (Engine.dmaAll_onlyDma ..)).fn f)).trans (hb f)]
  exact Engine.out_dmaAll hu fun x hx => ⟨(k.fnPort _).trans (hw x hx).1, (k.windowOk ..).trans (hw x hx).2⟩

end LinkUp

/-! ### The statement -/

/-- Settles O37: an FLR by the kind of its function, a hot reset as the FLRs of a port's functions, a link by its state. -/
theorem functionResets : Obligations.FunctionResets := by
  refine ⟨⟨fun s t ht hw => ?vf, fun s k hk => ?pf, fun s k hk => ?hot⟩, fun s p hp => ⟨fun hu hs => ?down, fun hd => ?same, fun rate width => ?up⟩⟩
  case vf =>
    intro e mine
    have ha : s.eng.OnlyTells e := s.eng.abortActs_onlyTells _ _
    have hx : exec (.flr (.vf t)) s = .next (withEng s (e.resetVf t)) := exec_flr_vf ht
    clear_value e
    refine ⟨_, hx, ?_⟩
    have hw : mwf (fun _ => ({} : Request)) e.reqs = true := ha.reqs ▸ hw
    have hi := Engine.req_resetVf (t := t) hw
    simp only [ha.req] at hi
    exact ⟨congrArg (withEng s) (e.resetVf_tables t), e.deck_resetVf t, fun _ => e.fn_resetVf_other t, e.fn_resetVf_self t, Engine.tenant_resetVf hw, hi,
      fun p hp => Engine.part_resetVf hw (by simpa only [ha.req] using hp),
      fun v hv hf => (Engine.tile_resetVf hw hv (by simpa only [ha.req, ha.fields] using hf)).trans (ha.tile v)⟩
  case pf =>
    have hf := flrOf_pf_fn k s.now s.eng
    have hst : (s.eng.fn (.pf k)).pfReset.status = (s.eng.fn (.pf k)).status := rfl
    obtain ⟨hr, hn, ht⟩ := flrOf_pf_keeps k s.now s.eng
    refine ⟨_, onUnit_of (decide_eq_true hk), rfl, congrArg FnState.rings hf, congrArg FnState.dwBusy hf, congrArg FnState.opened hf,
      (congrArg FnState.status hf).trans hst, hr, hn, ht, fun x hx h => flrOf_pf_snaps k s.now s.eng hx h, fun d hd => ⟨fun x hx => ?_, ?_⟩⟩
    · exact Deck.withdraw_intake (flrOf_pf_deck k s.now s.eng hd ▸ hx)
    · exact (congrArg Deck.sched (flrOf_pf_deck k s.now s.eng hd)).trans (Deck.withdraw_pf_sched _ k)
  case hot =>
    exact ⟨_, onUnit_of (decide_eq_true hk), rfl, rings_hotReset hk, fun hv t ht hp ha => quiet_hotReset (Engine.mem_portVfs hv ht hp ha)⟩
  case down => exact onUnit_eq (decide_eq_true hp) (linkDown_uncaptured hu hs)
  case same => exact onUnit_same (decide_eq_true hp) (linkDown_already hd)
  case up =>
    refine ⟨fun hm => onUnit_same (f := fun _ e => linkUpAgain p rate width e) (decide_eq_true hp) (linkUpAgain_blocked hm), fun hm => ?_⟩
    have hr := hport_raised s.eng p rate width (s.eng.hport p).waiting (.pf p :: s.eng.portVfs p)
    exact ⟨_, onUnit_eq (f := fun _ e => linkUpAgain p rate width e) (decide_eq_true hp) (linkUpAgain_raises hm), rfl, congrArg HostPort.up hr,
      congrArg HostPort.waiting hr, congrArg HostPort.rate hr, congrArg HostPort.width hr, fun hw hb => out_raised hw hb _⟩

end Sys2Proof.Machine
end

section
/-!
PROOFS. The bins of the monitors (R475).
-/
namespace Sys2Proof.Machine

open Sys2Proof.Safety

/-- A condition that holds of each number below one of which it holds: as many numbers below `n` meet it as there are before the first that
does not. -/
theorem lt_length_filter_range_iff {p : Nat → Bool} (hp : ∀ i j, i ≤ j → p j = true → p i = true) {n j : Nat} (hj : j < n) :
    j < ((List.range n).filter p).length ↔ p j = true := by
  induction n with
  | zero => omega
  | succ n ih =>
    rw [List.range_succ, List.filter_append, List.length_append]
    by_cases hn : p n = true
    · have hall : (List.range n).filter p = List.range n :=
        List.filter_eq_self.mpr fun i hi => hp i n (List.mem_range.mp hi).le hn
      simp [hall, hn, hj, hp j n (by omega) hn]
    · have hlast : [n].filter p = [] := by simp [hn]
      rw [hlast, List.length_nil, Nat.add_zero]
      obtain hlt | rfl := Nat.lt_succ_iff_lt_or_eq.mp hj
      · exact ih hlt
      · have hle : ((List.range j).filter p).length ≤ j := by simpa using List.length_filter_le p (List.range j)
        simp [hn, hle]

section Bins
variable {b r v : Nat}

theorem binOf_le (b r v : Nat) : binOf b r v ≤ 31 := by
  unfold binOf
  split
  · omega
  · simpa using List.length_filter_le _ (List.range 31)

/-- From B on, the bounds that `v ^ r` has reached are those before its bin. -/
theorem lt_binOf_iff (hv : b ≤ v) {j : Nat} (hj : j < 31) : j < binOf b r v ↔ b ^ r * 2 ^ j ≤ v ^ r := by
  rw [binOf, if_neg (Nat.not_lt.mpr hv), lt_length_filter_range_iff (fun i j hij h => ?_) hj, decide_eq_true_eq]
  rw [decide_eq_true_eq] at h ⊢
  exact (Nat.mul_le_mul_left _ (Nat.pow_le_pow_right two_pos hij)).trans h

theorem binOf_eq_zero_iff (b r v : Nat) : binOf b r v = 0 ↔ v < b := by
  by_cases hv : v < b
  · simp [binOf, hv]
  · have h0 : 0 < binOf b r v := (lt_binOf_iff (Nat.not_lt.mp hv) (by omega)).mpr (by simpa using Nat.pow_le_pow_left (Nat.not_lt.mp hv) r)
    simp [hv, h0.ne']

theorem le_of_binOf_pos (h : 1 ≤ binOf b r v) : b ≤ v := Nat.not_lt.mp fun hv => by simp [(binOf_eq_zero_iff b r v).mpr hv] at h

theorem binOf_lower (h : 1 ≤ binOf b r v) : b ^ r * 2 ^ (binOf b r v - 1) ≤ v ^ r :=
  (lt_binOf_iff (le_of_binOf_pos h) (by have := binOf_le b r v; omega)).mp (by omega)

theorem binOf_upper (h : 1 ≤ binOf b r v) (h30 : binOf b r v ≤ 30) : v ^ r < b ^ r * 2 ^ binOf b r v :=
  Nat.not_le.mp (mt (lt_binOf_iff (le_of_binOf_pos h) (by omega)).mpr (lt_irrefl _))

end Bins

/-- Settles O8: the bin of a value by the bounds that it has reached; the sample counts that bin. -/
theorem histogramBins : Obligations.HistogramBins := by
  refine ⟨fun s m b r q hm hs => ?_, fun m hm => if_pos (Nat.lt_succ_iff.mp hm), by decide, by decide⟩
  refine ⟨_, _, exec_monitorSample s m q hm hs, binOf_le b r (sampleValue m q), binOf_eq_zero_iff .., binOf_lower, binOf_upper, fun i => ?_⟩
  rw [withEng_eng, Engine.monitor, mget_mmod_same, Monitor.sample_eq hm, mget_mmod]
  split
  · next hi => rw [hi, Engine.monitor]
  · rfl

end Sys2Proof.Machine
end

section
/-!
PROOFS. The power commands (R393, R430, R445, R446, R450 to R452).
-/
namespace Sys2Proof.Machine

open Sys2Proof.Safety

/-! ### PWR_STATE (R450 to R452) -/

@[simp] theorem Engine.reply_power (e : Engine) (now : Nat) (h : Hdr) (c : Status) (d : Nat) : (e.reply now h c d).power = e.power := by
  unfold Engine.reply; split <;> rfl

section PwrState
variable {e : Engine} {h : Hdr} {now target : Nat}

/-- What PWR_STATE writes in every state: the target, and the command among those that wait for it. -/
def Power.aimed (p : Power) (t : PwrState) (h : Hdr) : Power := { p with target := t, goal := t, hds := p.hds ++ [h] }

/-- A sequence begun from a settled state. -/
def Power.begun (p : Power) (t : PwrState) (now : Nat) : Power :=
  { p with since := now, up := decide (pwrCode p.state < pwrCode t), down := !decide (pwrCode p.state < pwrCode t) }

theorem runPwrState_runs (hr : e.power.up = true ∨ e.power.down = true) : runPwrState target h false now e =
    (e.reply now h .accepted 0).modPower (fun p => p.aimed (pwrOf target) h) := by
  have ho : (e.power.up || e.power.down) = true := by simpa using hr
  have hn : ¬ (!e.power.up && !e.power.down && e.power.state == pwrOf target) = true := by rcases hr with hr | hr <;> simp [hr]
  exact (if_neg hn).trans (if_pos ho)

variable (hu : e.power.up = false) (hd : e.power.down = false)
include hu hd

theorem runPwrState_settled (hs : e.power.state = pwrOf target) : runPwrState target h false now e = e.reply now h .ok e.pwrDetail :=
  if_pos (by simp [hu, hd, hs])

theorem runPwrState_begins (hs : e.power.state ≠ pwrOf target) : runPwrState target h false now e =
    (let e' := (e.reply now h .accepted 0).modPower (fun p => (p.aimed (pwrOf target) h).begun (pwrOf target) now)
     if pwrOf target = .off ∧ e.power.state = .standby then e'.pwrReplies now else e') := by
  have hn : ¬ (!e.power.up && !e.power.down && e.power.state == pwrOf target) = true := by simp [hs]
  have ho : ¬ (e.power.up || e.power.down) = true := by simp [hu, hd]
  refine (if_neg hn).trans ((if_neg ho).trans ?_)
  simp only [Engine.accept_first, Engine.modPower, Engine.reply_power, Power.aimed, Power.begun]

end PwrState

/-! ### PWR_CAP (R393, R430) -/

/-- The cap of a PF's packet that enters intake without a fault of its own is that of the packet (R393). -/
theorem arrivingCap_pf {s : State} {hd : Hdr} {k watts : Nat} (hf : hd.fn = .pf k) (hp : 4 ≤ s.eng.power.stage)
    (hw : s.eng.intakeWaits (pwrCapForm watts) hd = false) (hc : (pwrCapForm watts).check s.eng s.now hd = none) (hn : first s hd = none) :
    s.eng.arrivingCap s.now hd watts = some watts := by
  have he : s.eng.waitingOf (.pf k) = [] := List.head?_eq_none_iff.mp (hf ▸ hn)
  simp [Engine.arrivingCap, hf, hp, hw, hc, he]

/-! ### The commands through intake -/

section Commands
variable {s : State} {hd : Hdr}

theorem exec_pwrState {target : Nat} {g : Engine → Engine} (hg : goes s hd (.pwrState hd target) (pwrStateForm target s.eng) = true)
    (hr : runPwrState target (due s hd) false s.now (taken s hd) = g (taken s hd)) : exec (.pwrState hd target) s = took s hd g :=
  hostCmd_tookAt (f := pwrStateForm target) hg rfl hr

/-- Two effects of a command, one after the other. -/
theorem onUnit_withEng (ok : Bool) (s : State) (f g : Nat → Engine → Engine) :
    onUnit ok (withEng s (f s.now s.eng)) g = onUnit ok s (fun now e => g now (f now e)) := by cases ok <;> rfl

/-- The supervisor has the packet's cap as it enters intake; the command then goes through intake as any other (R393). -/
theorem exec_pwrCap_eq (s : State) (hd : Hdr) (watts : Nat) : exec (.pwrCap hd watts) s =
    hostCmd hd (.pwrCap hd watts) (fun _ => pwrCapForm watts) (runPwrCap watts) (withEng s (s.eng.copyCap (s.eng.arrivingCap s.now hd watts))) :=
  (onUnit_withEng (fnOk hd.fn) s (fun now e => e.copyCap (e.arrivingCap now hd watts))
    (fun now e => e.command now hd (.pwrCap hd watts) (pwrCapForm watts) (runPwrCap watts))).symm

theorem exec_pwrCap {watts : Nat}
    (hg : goes (withEng s (s.eng.copyCap (s.eng.arrivingCap s.now hd watts))) hd (.pwrCap hd watts) (pwrCapForm watts) = true) :
    exec (.pwrCap hd watts) s = took (withEng s (s.eng.copyCap (s.eng.arrivingCap s.now hd watts))) hd
      (runPwrCap watts (due (withEng s (s.eng.copyCap (s.eng.arrivingCap s.now hd watts))) hd) false s.now) :=
  (exec_pwrCap_eq s hd watts).trans (hostCmd_goes (f := fun _ => pwrCapForm watts) (hg := hg) (ha := rfl) ..)

theorem exec_thermQuery {addr : Nat} (hg : goes s hd (.thermQuery hd addr) (thermQueryForm hd addr s.eng) = true) :
    exec (.thermQuery hd addr) s = tookOk s hd (fun e => e.dma hd.fn addr
      (natBytes (e.thermHeader s.now) 64 ++ (List.range 96).flatMap (fun k => natBytes (e.field k).therm 8))) :=
  hostCmd_took (f := thermQueryForm hd addr) hg rfl fun _ => rfl

theorem exec_throttleQuery {addr : Nat} (hg : goes s hd (.throttleQuery hd addr) (throttleQueryForm hd addr s.eng) = true) :
    exec (.throttleQuery hd addr) s = tookOk s hd (fun e => ({ e with freeCtr := e.freeCtr + 60 } : Engine).dma hd.fn addr
      ((List.range 60).flatMap (fun d => natBytes (e.throttleWord d) 8))) :=
  hostCmd_took (f := throttleQueryForm hd addr) hg rfl fun _ => rfl

end Commands

/-- Settles O45: PWR_STATE by whether a sequence runs and the target is reached; the cap is taken before the command goes through intake. -/
theorem powerCommands : Obligations.PowerCommands := by
  intro s hd e
  refine ⟨fun target hg => ?state, fun watts => ?cap, fun e w => ⟨rfl, rfl⟩, fun k watts => arrivingCap_pf, fun _ => exec_thermQuery,
    fun _ => exec_throttleQuery⟩
  case state =>
    exact ⟨fun hu hn hs => exec_pwrState hg (runPwrState_settled hu hn hs), fun hu hn hs => exec_pwrState hg (runPwrState_begins hu hn hs),
      fun hr => exec_pwrState hg (runPwrState_runs hr)⟩
  case cap =>
    intro s' hg
    exact exec_pwrCap hg

end Sys2Proof.Machine
end

section
/-!
PROOFS. What leaves the power sequence, the graphs and the engine's own number as they are: ledger events, the ends of steps, of an imprint
session, of repairs and of the links, monitors, commits, and what recovery writes.
-/
namespace Sys2Proof.Machine

open Sys2Proof.Safety

/-- The power sequence, the graphs and the engine's number are those of another engine. -/
structure Engine.SameSetup (e t : Engine) : Prop where
  power : t.power = e.power
  graphs : t.graphs = e.graphs
  engineId : t.engineId = e.engineId

section SameSetup
variable {e t u : Engine} {now : Nat}

theorem Engine.SameSetup.refl (e : Engine) : e.SameSetup e := ⟨rfl, rfl, rfl⟩

/-- An update of other parts of the engine. -/
theorem Engine.SameSetup.update (k : e.SameSetup t) (hp : u.power = t.power := by rfl) (hg : u.graphs = t.graphs := by rfl)
    (hi : u.engineId = t.engineId := by rfl) : e.SameSetup u := ⟨hp.trans k.power, hg.trans k.graphs, hi.trans k.engineId⟩

theorem Engine.SameSetup.ite {c : Prop} [Decidable c] {a b : Engine} (ha : e.SameSetup a) (hb : e.SameSetup b) :
    e.SameSetup (if c then a else b) := by
  split
  · exact ha
  · exact hb

theorem Engine.SameSetup.foldl {α : Type} {f : Engine → α → Engine} {l : List α} (hf : ∀ t x, e.SameSetup t → e.SameSetup (f t x))
    (k : e.SameSetup t) : e.SameSetup (l.foldl f t) := List.foldlRecOn l f k fun t k x _ => hf t x k

theorem Engine.SameSetup.node (k : e.SameSetup t) : t.node = e.node := by rw [Engine.node, k.engineId, Engine.node]

/-! ### Updates of one unit -/

theorem Engine.SameSetup.modTile {i f} (k : e.SameSetup t) : e.SameSetup (t.modTile i f) := k.update

theorem Engine.SameSetup.modDeck {i f} (k : e.SameSetup t) : e.SameSetup (t.modDeck i f) := k.update

theorem Engine.SameSetup.modPart {i f} (k : e.SameSetup t) : e.SameSetup (t.modPart i f) := k.update

theorem Engine.SameSetup.modReq {i f} (k : e.SameSetup t) : e.SameSetup (t.modReq i f) := k.update

theorem Engine.SameSetup.modTenant {i f} (k : e.SameSetup t) : e.SameSetup (t.modTenant i f) := k.update

theorem Engine.SameSetup.modImage {i f} (k : e.SameSetup t) : e.SameSetup (t.modImage i f) := k.update

theorem Engine.SameSetup.modZport {i f} (k : e.SameSetup t) : e.SameSetup (t.modZport i f) := k.update

theorem Engine.SameSetup.modHport {i f} (k : e.SameSetup t) : e.SameSetup (t.modHport i f) := k.update

theorem Engine.SameSetup.modFn {i f} (k : e.SameSetup t) : e.SameSetup (t.modFn i f) := k.update

theorem Engine.SameSetup.modSup {f} (k : e.SameSetup t) : e.SameSetup (t.modSup f) := k.update

/-! ### Events and replies -/

theorem Engine.SameSetup.msix {f v} (k : e.SameSetup t) : e.SameSetup (t.msix f v) := .ite k.modFn k.update

theorem Engine.SameSetup.journal {d x} (k : e.SameSetup t) : e.SameSetup (t.journal d x) := .ite k.modDeck k.modSup

theorem Engine.SameSetup.event {d x} (k : e.SameSetup t) : e.SameSetup (t.event now d x) :=
  have hs : e.SameSetup _ := .ite (.journal k.modDeck) k.modDeck
  .ite (.foldl (fun _ _ k => k.msix) hs) hs

theorem Engine.SameSetup.reply {h c d} (k : e.SameSetup t) : e.SameSetup (t.reply now h c d) := by
  unfold Engine.reply
  split
  · exact k
  · exact k.modFn

/-! ### Steps -/

theorem Engine.SameSetup.faultOf {p} (k : e.SameSetup t) : e.SameSetup (t.faultOf p) := by
  cases p with
  | none => exact k
  | some p => exact k.modPart

theorem Engine.SameSetup.clearStep {p} (k : e.SameSetup t) : e.SameSetup (t.clearStep p) :=
  .update (Engine.SameSetup.foldl (fun _ _ k => k.modDeck) k)

theorem Engine.SameSetup.dropStep {p} (k : e.SameSetup t) : e.SameSetup (t.dropStep p) :=
  .ite k (.modPart (.clearStep (.foldl (fun _ _ k => k.modReq) k)))

theorem Engine.SameSetup.dropSteps (k : e.SameSetup t) : e.SameSetup t.dropSteps := .foldl (fun _ _ k => k.dropStep) k

theorem Engine.SameSetup.haltStep {p f} (k : e.SameSetup t) : e.SameSetup (t.haltStep p f) := .modPart (.clearStep k)

theorem Engine.SameSetup.redoDrawn {p} (k : e.SameSetup t) : e.SameSetup (t.redoDrawn p) := by
  unfold Engine.redoDrawn
  split
  · exact .ite k.haltStep k
  · exact k

/-! ### Packets and the pair -/

theorem Engine.SameSetup.putPacket {x} (k : e.SameSetup t) : e.SameSetup (t.putPacket x) := .ite k.modTenant (.ite k.modTenant k.modReq)

theorem Engine.SameSetup.releaseStep {p f} (k : e.SameSetup t) : e.SameSetup (t.releaseStep p f) := .foldl (fun _ _ k => k.putPacket) k.modPart

theorem Engine.SameSetup.unpair (k : e.SameSetup t) : e.SameSetup t.unpair :=
  .update (Engine.SameSetup.foldl (fun _ _ k => k.releaseStep.redoDrawn.modPart) k)

/-! ### Links, repairs, sessions and snapshots -/

theorem Engine.SameSetup.leaveUp {z st r} (k : e.SameSetup t) : e.SameSetup (t.leaveUp now z st r) :=
  .event (.foldl (fun _ _ k => k.faultOf) k.modZport)

theorem Engine.SameSetup.zmove {z st r} (k : e.SameSetup t) : e.SameSetup (t.zmove now z st r) := .ite k.leaveUp k.modZport.modZport

theorem Engine.SameSetup.dropZports {f} (k : e.SameSetup t) : e.SameSetup (t.dropZports now f) := .foldl (fun _ _ k => k.zmove.modZport) k

theorem Engine.SameSetup.dropRepair {r} (k : e.SameSetup t) : e.SameSetup (t.dropRepair r) := k.update

theorem Engine.SameSetup.dropRepairs {f} (k : e.SameSetup t) : e.SameSetup (t.dropRepairs f) := .foldl (fun _ _ k => k.dropRepair) k

theorem Engine.SameSetup.closeSession (k : e.SameSetup t) : e.SameSetup t.closeSession :=
  .modSup (.foldl (fun _ _ k => k.modDeck) k.update)

theorem Engine.SameSetup.abortSession {why} (k : e.SameSetup t) : e.SameSetup (t.abortSession now why) := by
  unfold Engine.abortSession
  extract_lets _ e1 e2
  have h1 : e.SameSetup e1 := .foldl (fun _ _ k => k.modTile) k
  have h2 : e.SameSetup e2 := h1.modImage.closeSession
  refine .ite k ?_
  split
  · exact h2.reply
  · exact h2

theorem Engine.SameSetup.breakSession {why} (k : e.SameSetup t) : e.SameSetup (t.breakSession now why) := .ite k k.abortSession

theorem Engine.SameSetup.loseSnaps (k : e.SameSetup t) : e.SameSetup t.loseSnaps := k.update

/-! ### Monitors, commits and recovery -/

theorem Engine.SameSetup.clearMonitors {l} (k : e.SameSetup t) : e.SameSetup (t.clearMonitors now l) := k.update

theorem Engine.SameSetup.commitAll (k : e.SameSetup t) : e.SameSetup (t.commitAll now) := k.update

theorem Engine.SameSetup.recoverParts {f} (k : e.SameSetup t) : e.SameSetup (t.recoverParts f) := .foldl (fun _ _ k => k.modPart) k

theorem Engine.SameSetup.recoverReqs {f} (k : e.SameSetup t) : e.SameSetup (t.recoverReqs now f) :=
  .foldl (fun _ _ k => k.putPacket) (.foldl (fun _ _ k => k.modReq) k.update)

end SameSetup

end Sys2Proof.Machine
end

section
/-!
PROOFS. The commands to Zarog ports (R358, R361), the pace unit (R368), the pair (R377, R382, R383) and the route table (R362, R363, R365).
-/
namespace Sys2Proof.Machine

open Sys2Proof.Safety

/-! ### ZPORT_CTL (R358, R394) -/

section ZportCtl
variable {e : Engine} {h : Hdr} {acc : Bool} {now z action : Nat}

/-- A port back in DETECT with no attempt counted. -/
def Engine.restartPort (e : Engine) (now z : Nat) : Engine := (e.zstate now z .detect).modZport z (fun k => { k with attempts := 0 })

theorem runZportCtl_disables (ha : action = 0) (hs : (e.zport z).state ≠ .disabled) :
    runZportCtl z action h acc now e = (e.zmove now z .disabled 7).okReply now h :=
  (if_pos ha).trans (congrArg (Engine.okReply · now h) (if_neg hs))

theorem runZportCtl_isDisabled (ha : action = 0) (hs : (e.zport z).state = .disabled) : runZportCtl z action h acc now e = e.okReply now h :=
  (if_pos ha).trans (congrArg (Engine.okReply · now h) (if_pos hs))

theorem runZportCtl_notEnabled (ha : action ≠ 0) (he : (e.zport z).enable = false) :
    runZportCtl z action h acc now e = e.reply now h .engineState z := (if_neg ha).trans (if_pos (by simp [he]))

variable (he : (e.zport z).enable = true)
include he

theorem runZportCtl_enables (ha : action = 1) (hs : (e.zport z).state = .disabled ∨ (e.zport z).state = .parked) :
    runZportCtl z action h acc now e = (e.restartPort now z).okReply now h := by
  subst ha
  rcases hs with hs | hs <;> simp [runZportCtl, he, hs, Engine.restartPort]

theorem runZportCtl_isEnabled (ha : action = 1) (hd : (e.zport z).state ≠ .disabled) (hp : (e.zport z).state ≠ .parked) :
    runZportCtl z action h acc now e = e.okReply now h := by
  subst ha
  cases hs : (e.zport z).state with
  | disabled => exact absurd hs hd
  | parked => exact absurd hs hp
  | _ => simp [runZportCtl, he, hs]

theorem runZportCtl_unparks (ha : action = 2) (hs : (e.zport z).state = .parked) :
    runZportCtl z action h acc now e = (e.restartPort now z).okReply now h := by
  subst ha
  simp [runZportCtl, he, hs, Engine.restartPort]

theorem runZportCtl_staysDisabled (ha : action = 2) (hs : (e.zport z).state = .disabled) : runZportCtl z action h acc now e = e.okReply now h := by
  subst ha
  simp [runZportCtl, he, hs]

theorem runZportCtl_retrains (ha : action = 2) (hd : (e.zport z).state ≠ .disabled) (hp : (e.zport z).state ≠ .parked) :
    runZportCtl z action h acc now e = (e.zmove now z .detect (e.zport z).reason).okReply now h := by
  subst ha
  cases hs : (e.zport z).state with
  | disabled => exact absurd hs hd
  | parked => exact absurd hs hp
  | _ => simp [runZportCtl, he, hs]

end ZportCtl

/-! ### PACE_SRC (R368, R370) -/

section PaceSrc
variable {e : Engine} {h : Hdr} {acc : Bool} {now src port value : Nat}

/-- The source is selected already. -/
def Pace.selects (x : Pace) (src port : Nat) : Prop := x.src = src ∧ (src = 3 → x.port = port)

/-- The source shows a time more than one tick from PACE_NOW. -/
def paceJumps (src value now : Nat) : Prop := (src = 2 ∨ src = 3) ∧ (value + 1 < now ∨ now + 1 < value)

/-- The pace unit with another source. -/
def Pace.selected (x : Pace) (src port now : Nat) : Pace :=
  { x with
    src := src, port := if src = 3 then port else 0, state := if src = 4 then 2 else 1, steer := 0, lastEdge := now, lastSync := now, master := 0xFFF, hops := 0
    holdSince := if src = 4 ∧ x.state ≠ 2 then now else x.holdSince }

theorem Pace.selects_iff (x : Pace) : (x.src == src && (src != 3 || x.port == port)) = true ↔ x.selects src port := by
  simp [Pace.selects, imp_iff_not_or]

theorem paceJumps_iff : ((src == 2 || src == 3) && decide (1 < max value now - min value now)) = true ↔ paceJumps src value now := by
  simp only [Bool.and_eq_true, Bool.or_eq_true, beq_iff_eq, decide_eq_true_eq, paceJumps]
  refine and_congr_right fun _ => ?_
  omega

theorem runPaceSrc_selected (hs : e.pace.selects src port) : runPaceSrc src port value h acc now e = e.reply now h .ok (e.pace.detail now) := by
  have hb := (Pace.selects_iff e.pace).mpr hs
  simp only [runPaceSrc, hb, Bool.not_true, Bool.false_and, Bool.false_eq_true, if_false, if_true]

variable (hs : ¬ e.pace.selects src port)
include hs

theorem runPaceSrc_refused {p : Nat} (hj : paceJumps src value now) (hp : (List.range 32).find? (fun p => (e.part p).image.isSome) = some p) :
    runPaceSrc src port value h acc now e = e.reply now h .partState (partCode (e.part p).state) := by
  have hb := Bool.eq_false_iff.mpr (mt (Pace.selects_iff e.pace).mp hs)
  simp only [runPaceSrc, hb, Bool.not_false, Bool.true_and, paceJumps_iff.mpr hj, if_true, hp]

theorem runPaceSrc_selects (hj : ¬ paceJumps src value now ∨ ∀ p, p < 32 → (e.part p).image = none) :
    runPaceSrc src port value h acc now e =
      ({ e with pace := e.pace.selected src port now } : Engine).reply now h .ok ((e.pace.selected src port now).detail now) := by
  have hb := Bool.eq_false_iff.mpr (mt (Pace.selects_iff e.pace).mp hs)
  rcases hj with hj | hj
  · have hj' := Bool.eq_false_iff.mpr (mt paceJumps_iff.mp hj)
    simp only [runPaceSrc, hb, Bool.not_false, Bool.true_and, hj', Bool.false_eq_true, if_false]
    rfl
  · have hn : (List.range 32).find? (fun p => (e.part p).image.isSome) = none := by simpa [List.find?_eq_none] using hj
    simp only [runPaceSrc, hb, hn, ite_self, Bool.false_eq_true, if_false]
    rfl

end PaceSrc

/-! ### PAIR_CFG (R377) -/

section PairCfg
variable {e : Engine} {h : Hdr} {acc : Bool} {now mode mask : Nat} {licence : List Byte}

/-- The partner that PAIR_CFG's mask names. -/
def Engine.partnerOn (e : Engine) (mask : Nat) : Word := e.partnerId ((setBits mask 24).headD 0)

/-- The licence names the two engines, in either order, and the engine's grade allows a pair (R377, note N7). -/
def Engine.pairLicensed (e : Engine) (mask : Nat) (licence : List Byte) : Prop :=
  e.grade = 96 ∧ (Config.licenceIds licence = some (e.engineId, e.partnerOn mask) ∨ Config.licenceIds licence = some (e.partnerOn mask, e.engineId))

theorem Engine.pairLicensed_iff (e : Engine) : (e.grade != 96 || !(Config.licenceIds licence == some (e.engineId, e.partnerOn mask) ||
    Config.licenceIds licence == some (e.partnerOn mask, e.engineId))) = true ↔ ¬ e.pairLicensed mask licence := by
  simp [Engine.pairLicensed, imp_iff_not_or]

/-- No partition has a part on another engine. -/
def Engine.spansNone (e : Engine) : Prop := ∀ p, p < 32 → (e.part p).spanLast = 0

theorem Engine.spansNone.find?_eq (hn : e.spansNone) : (List.range 32).find? (fun p => (e.part p).spanLast != 0) = none := by
  rw [List.find?_eq_none]
  intro p hp
  simpa using hn p (List.mem_range.mp hp)

theorem runPairCfg_single : runPairCfg 0 mask licence h acc now e = e.unpair.okReply now h := rfl

variable (hm : mode ≠ 0)
include hm

theorem runPairCfg_spans {p : Nat} (hp : (List.range 32).find? (fun p => (e.part p).spanLast != 0) = some p) :
    runPairCfg mode mask licence h acc now e = e.reply now h .partState (partCode (e.part p).state) :=
  (if_neg hm).trans (by rw [hp])

variable (hn : e.spansNone)
include hn

theorem runPairCfg_badLinks (hb : e.badLinks mask ≠ []) : runPairCfg mode mask licence h acc now e =
    e.reply now h .engineState ((e.badLinks mask).foldl (fun m z => m + 2 ^ z) 0) := by
  rw [runPairCfg, if_neg hm, hn.find?_eq]
  exact if_pos hb

variable (hb : e.badLinks mask = [])
include hb

theorem runPairCfg_unlicensed (hl : ¬ e.pairLicensed mask licence) : runPairCfg mode mask licence h acc now e = e.reply now h .licence 0 := by
  rw [runPairCfg, if_neg hm, hn.find?_eq]
  exact (if_neg (not_not.mpr hb)).trans (if_pos (e.pairLicensed_iff.mpr hl))

theorem runPairCfg_pairs (hl : e.pairLicensed mask licence) : runPairCfg mode mask licence h false now e =
    (e.unpair.reply now h .accepted 0).modPair (fun _ =>
      { mode := mode, mask := mask, primary := decide (e.node < (e.partnerOn mask).toNat % 4096), partner := e.partnerOn mask, lastBeat := now, nextBeat := now,
        pendingCfg := some (h, now + 60000000) }) := by
  rw [runPairCfg, if_neg hm, hn.find?_eq]
  refine (if_neg (not_not.mpr hb)).trans ((if_neg (mt e.pairLicensed_iff.mp (not_not.mpr hl))).trans ?_)
  have hs : (e.unpair.reply now h .accepted 0).node = e.node := (Engine.SameSetup.refl e).unpair.reply.node
  rw [← hs]
  rfl

end PairCfg

/-! ### PAIR_TAKEOVER (R382, R383) -/

section PairTakeover
variable {e : Engine} {h : Hdr} {acc : Bool} {now : Nat}

theorem runPairTakeover_refused (hp : e.pair.mode = 0 ∨ (e.pair.primary = true ∧ e.pair.mode = 1)) :
    runPairTakeover h acc now e = e.reply now h .engineState 0 := if_pos hp

theorem runPairTakeover_secondary (hm : e.pair.mode ≠ 0) (hp : e.pair.primary = false) :
    runPairTakeover h acc now e = (e.takeover now).okReply now h := (if_neg (by simp [hm, hp])).trans (if_neg (by simp [hp]))

theorem runPairTakeover_standbyPrimary (hm : e.pair.mode ≠ 0) (h1 : e.pair.mode ≠ 1) (hp : e.pair.primary = true) :
    runPairTakeover h acc now e = ((e.modPair (fun x => { x with handover := true })).tryHandover now).okReply now h :=
  (if_neg (by simp [hm, h1])).trans (if_pos hp)

end PairTakeover

/-! ### ZROUTE_SET (R362, R363, R365) -/

section ZrouteSet
variable {e : Engine} {h : Hdr} {acc : Bool} {now mask : Nat} {peer : Word}

/-- Every Zarog port is DISABLED or PARKED. -/
def Engine.portsStill (e : Engine) : Prop := ∀ z, z < 24 → (e.zport z).state = .disabled ∨ (e.zport z).state = .parked

theorem Engine.portsStill_iff (e : Engine) :
    (List.range 24).all (fun z => (e.zport z).state == .disabled || (e.zport z).state == .parked) = true ↔ e.portsStill := by
  simp only [List.all_eq_true, List.mem_range, Bool.or_eq_true, beq_iff_eq, Engine.portsStill]

theorem runZrouteSet_ownId (hm : mask = 0xFFFFFF) (hs : e.portsStill) :
    runZrouteSet peer mask h acc now e = ({ e with engineId := peer } : Engine).okReply now h :=
  (if_pos hm).trans (if_pos (e.portsStill_iff.mpr hs))

theorem runZrouteSet_moving (hm : mask = 0xFFFFFF) (hs : ¬ e.portsStill) : runZrouteSet peer mask h acc now e = e.reply now h .engineState 0 :=
  (if_pos hm).trans (if_neg (mt e.portsStill_iff.mp hs))

theorem runZrouteSet_noNode (hm : mask ≠ 0xFFFFFF) (hn : e.node = 0xFFF) : runZrouteSet peer mask h acc now e = e.reply now h .engineState 0 :=
  (if_neg hm).trans (if_pos hn)

theorem runZrouteSet_route (hm : mask ≠ 0xFFFFFF) (hn : e.node ≠ 0xFFF) : runZrouteSet peer mask h acc now e =
    (({ e with zroute := mset (fun _ => 0) (peer.toNat % 4096) mask e.zroute } : Engine).announceParts now (fun _ => true) (fun _ _ => true)).okReply now h :=
  (if_neg hm).trans (if_neg hn)

end ZrouteSet

/-! ### The commands through intake -/

section Commands
variable {s : State} {hd : Hdr} {g : Engine → Engine}

theorem exec_zportCtl {z action : Nat} (hg : goes s hd (.zportCtl hd z action) (zportCtlForm z action s.eng) = true)
    (hr : runZportCtl z action (due s hd) false s.now (taken s hd) = g (taken s hd)) : exec (.zportCtl hd z action) s = took s hd g :=
  hostCmd_tookAt (f := zportCtlForm z action) hg rfl hr

theorem exec_zportQuery {z addr : Nat} (hg : goes s hd (.zportQuery hd z addr) (zportQueryForm hd z addr s.eng) = true) :
    exec (.zportQuery hd z addr) s = tookOk s hd (fun e => e.dma hd.fn addr (natBytes (e.zport z).stat 16)) :=
  hostCmd_took (f := zportQueryForm hd z addr) hg rfl fun _ => rfl

theorem exec_paceSrc {src port value : Nat} (hg : goes s hd (.paceSrc hd src port value) (paceSrcForm src port s.eng) = true)
    (hr : runPaceSrc src port value (due s hd) false s.now (taken s hd) = g (taken s hd)) : exec (.paceSrc hd src port value) s = took s hd g :=
  hostCmd_tookAt (f := paceSrcForm src port) hg rfl hr

theorem exec_pairCfg {mode mask addr : Nat} {licence : List Byte}
    (hg : goes s hd (.pairCfg hd mode mask addr licence) (pairCfgForm hd mode mask addr licence s.eng) = true)
    (hr : runPairCfg mode mask licence (due s hd) false s.now (taken s hd) = g (taken s hd)) :
    exec (.pairCfg hd mode mask addr licence) s = took s hd g :=
  hostCmd_tookAt (f := pairCfgForm hd mode mask addr licence) hg rfl hr

theorem exec_pairTakeover (hg : goes s hd (.pairTakeover hd) (pairTakeoverForm s.eng) = true)
    (hr : runPairTakeover (due s hd) false s.now (taken s hd) = g (taken s hd)) : exec (.pairTakeover hd) s = took s hd g :=
  hostCmd_tookAt (f := pairTakeoverForm) hg rfl hr

theorem exec_zrouteSet {peer : Word} {mask : Nat} (hg : goes s hd (.zrouteSet hd peer mask) (zrouteSetForm peer mask s.eng) = true)
    (hr : runZrouteSet peer mask (due s hd) false s.now (taken s hd) = g (taken s hd)) : exec (.zrouteSet hd peer mask) s = took s hd g :=
  hostCmd_tookAt (f := zrouteSetForm peer mask) hg rfl hr

end Commands

/-- Settles O48: for each command the branches of its effect, in the order in which it tests them. -/
theorem zarogCommands : Obligations.ZarogCommands := by
  intro s hd e
  refine ⟨fun z action hg => ?ctl, fun _ _ => exec_zportQuery, fun src port value hg => ?src, fun mask addr licence hg => exec_pairCfg hg runPairCfg_single,
    fun mode mask addr licence hg hm => ?pair, fun hg => ?takeover, fun peer mask hg => ?route⟩
  case ctl =>
    exact ⟨fun ha hs => exec_zportCtl hg (runZportCtl_disables ha hs), fun ha hs => exec_zportCtl hg (runZportCtl_isDisabled ha hs),
      fun ha he => exec_zportCtl hg (runZportCtl_notEnabled ha he), fun ha he hs => exec_zportCtl hg (runZportCtl_enables he ha hs),
      fun ha he hd hp => exec_zportCtl hg (runZportCtl_isEnabled he ha hd hp), fun ha he hs => exec_zportCtl hg (runZportCtl_unparks he ha hs),
      fun ha he hs => exec_zportCtl hg (runZportCtl_staysDisabled he ha hs), fun ha he hd hp => exec_zportCtl hg (runZportCtl_retrains he ha hd hp)⟩
  case src =>
    exact ⟨fun hs => exec_paceSrc hg (runPaceSrc_selected hs), fun p hs hj hp => exec_paceSrc hg (runPaceSrc_refused hs hj hp),
      fun hs hj => exec_paceSrc hg (runPaceSrc_selects hs hj)⟩
  case pair =>
    exact ⟨fun p hp => exec_pairCfg hg (runPairCfg_spans hm hp), fun hn => ⟨fun hb => exec_pairCfg hg (runPairCfg_badLinks hm hn hb),
      fun hb hl => exec_pairCfg hg (runPairCfg_unlicensed hm hn hb hl), fun hb hl => exec_pairCfg hg (runPairCfg_pairs hm hn hb hl)⟩⟩
  case takeover =>
    exact ⟨fun hp => exec_pairTakeover hg (runPairTakeover_refused hp), fun hm hp => exec_pairTakeover hg (runPairTakeover_secondary hm hp),
      fun hm h1 hp => exec_pairTakeover hg (runPairTakeover_standbyPrimary hm h1 hp)⟩
  case route =>
    exact ⟨fun hm hs => exec_zrouteSet hg (runZrouteSet_ownId hm hs), fun hm hs => exec_zrouteSet hg (runZrouteSet_moving hm hs),
      fun hm hn => exec_zrouteSet hg (runZrouteSet_noNode hm hn), fun hm hn => exec_zrouteSet hg (runZrouteSet_route hm hn)⟩

end Sys2Proof.Machine
end

section
/-!
PROOFS. The events of a Zarog port, and its training (R358 to R360).
-/
namespace Sys2Proof.Machine

open Sys2Proof.Safety

/-! ### Updates of one entry after another -/

theorem mdel_minsert {α : Type} (k : Nat) (v : α) (m : AMap α) : mdel k (minsert k v m) = mdel k m := by
  induction m with
  | nil => simp [minsert, mdel]
  | cons x r ih =>
    simp only [minsert]
    split
    · simp only [mdel, List.filter_cons] at ih ⊢
      rw [ih]
    · simp [mdel]

theorem mdel_mdel {α : Type} (k : Nat) (m : AMap α) : mdel k (mdel k m) = mdel k m := by simp [mdel]

theorem mdel_mset {α : Type} [DecidableEq α] (d : Nat → α) (k : Nat) (v : α) (m : AMap α) : mdel k (mset d k v m) = mdel k m := by
  unfold mset
  split
  · exact mdel_mdel k m
  · rw [mdel_minsert, mdel_mdel]

theorem mset_mset {α : Type} [DecidableEq α] (d : Nat → α) (k : Nat) (v w : α) (m : AMap α) : mset d k v (mset d k w m) = mset d k v m := by
  rw [mset, mdel_mset, mset]

theorem mmod_mmod {α : Type} [DecidableEq α] (d : Nat → α) (k : Nat) (f g : α → α) (m : AMap α) :
    mmod d k g (mmod d k f m) = mmod d k (fun x => g (f x)) m := by
  simp only [mmod, mget_mset_same, mset_mset]

theorem Engine.modZport_modZport (e : Engine) (z : Nat) (f g : ZPort → ZPort) : (e.modZport z f).modZport z g = e.modZport z (fun k => g (f k)) := by
  simp only [Engine.modZport, mmod_mmod]

theorem Engine.modZport_congr {e : Engine} {z : Nat} {f g : ZPort → ZPort} (h : f (e.zport z) = g (e.zport z)) : e.modZport z f = e.modZport z g := by
  simp only [Engine.modZport, mmod_congr (d := fun _ => ({} : ZPort)) h]

/-! ### Events of a port -/

section Zevent
variable {s : State} {z : Nat} {st : ZState} {ok : Nat → ZPort → Bool} {f : Nat → Engine → Engine} {e : Engine} (hz : z < 24)
include hz

/-- An event of a port that is in the event's state when its time has come. -/
theorem zevent_fires (hl : s.eng.zlive z = true) (hs : (s.eng.zport z).state = st) (ho : ok s.now (s.eng.zport z) = true) (hf : f s.now s.eng = e) :
    zevent z st ok f s = .next (withEng s e) :=
  onUnit_eq (decide_eq_true hz) ((if_pos (by simp [hl, hs, ho])).trans hf)

theorem zevent_dead (hl : s.eng.zlive z = false) : zevent z st ok f s = .next s := onUnit_same (decide_eq_true hz) (if_neg (by simp [hl]))

theorem zevent_otherState (hs : (s.eng.zport z).state ≠ st) : zevent z st ok f s = .next s :=
  onUnit_same (decide_eq_true hz) (if_neg (by simp [hs]))

theorem zevent_early (ho : ok s.now (s.eng.zport z) = false) : zevent z st ok f s = .next s :=
  onUnit_same (decide_eq_true hz) (if_neg (by simp [ho]))

end Zevent

/-! ### The commands that are events of a port -/

section Commands
variable {s : State} {z : Nat}

theorem exec_zportSignalDetect : exec (.zportSignalDetect z) s = zevent z .detect (fun _ k => k.powered) (fun now e => e.zstate now z .train) s := rfl

theorem exec_zportTrainDone : exec (.zportTrainDone z) s = zevent z .train (fun _ _ => true) (fun now e => e.zstate now z .align) s := rfl

theorem exec_zportTrainTimeout : exec (.zportTrainTimeout z) s = zevent z .train (ZPort.after 500000) (fun now e => e.zbackoff now z 2) s := rfl

theorem exec_zportAlignDone {w : Word} {pp : Nat} : exec (.zportAlignDone z w pp) s = zevent z .align (fun _ _ => true) (zaligned z w pp) s := rfl

theorem exec_zportAlignTimeout : exec (.zportAlignTimeout z) s = zevent z .align (ZPort.after 10000) (fun now e => e.zbackoff now z 3) s := rfl

theorem exec_zportCreditDone {rtt : Nat} : exec (.zportCreditDone z rtt) s = zevent z .credit (fun _ _ => true) (credited z rtt) s := rfl

theorem exec_zportCreditTimeout : exec (.zportCreditTimeout z) s = zevent z .credit (ZPort.after 10000) (fun now e => e.zbackoff now z 4) s := rfl

theorem exec_zportLossOfSignal : exec (.zportLossOfSignal z) s = zevent z .up (fun _ _ => true) (fun now e => e.leaveUp now z .detect 1) s := rfl

theorem exec_zportBackoffElapsed : exec (.zportBackoffElapsed z) s =
    zevent z .backoff (fun now k => ZPort.after (backoffTicks k.attempts) now k) (fun now e => e.zstate now z .detect) s := rfl

theorem exec_zportUpStable : exec (.zportUpStable z) s =
    zevent z .up (ZPort.after 10000000) (fun _ e => e.modZport z (fun k => { k with attempts := 0 })) s := rfl

theorem exec_zarogCodewordReceive {cw : Codeword} : exec (.zarogCodewordReceive z cw) s = zevent z .up (fun _ _ => true) (zcodeword z cw) s := rfl

theorem exec_zarogNak {n : Nat} : exec (.zarogNak z n) s = zevent z .up (fun _ _ => true) (zreplay z n) s := rfl

theorem exec_zportReplayLimit : exec (.zportReplayLimit z) s =
    zevent z .up (fun now k => decide (16 < (k.replayTicks.filter (fun x => decide (now < x + 1000))).length)) (fun now e => e.leaveUp now z .detect 6) s := rfl

theorem exec_linkFlit {f : LinkFlit} : exec (.linkFlit z f) s =
    zevent z .up (fun _ _ => true) (fun now e => (e.modZport z (fun k => k.link f)).zmoves now z) s := rfl

theorem exec_zarogPacketReceive {p : ZPacket} : exec (.zarogPacketReceive z p) s = zevent z .up (fun _ _ => true) (zpacket z p) s := rfl

end Commands

theorem ZPort.after_of_le {n now : Nat} {k : ZPort} (h : k.since + n ≤ now) : k.after n now = true := decide_eq_true h

theorem ZPort.not_after_of_lt {n now : Nat} {k : ZPort} (h : now < k.since + n) : k.after n now = false := decide_eq_false (Nat.not_le.mpr h)

/-! ### Training (R358 to R360) -/

section Training
variable {e : Engine} {now z r : Nat}

theorem zbackoff_retries (h : (e.zport z).attempts + 1 < 16) : e.zbackoff now z r =
    e.modZport z (fun k => { k with attempts := k.attempts + 1, state := .backoff, since := now, reason := r }) := by
  refine (if_neg (Nat.not_le.mpr h)).trans ?_
  rw [Engine.zstate, Engine.modZport_modZport, Engine.modZport_modZport]
  exact Engine.modZport_congr rfl

/-- The sixteenth attempt parks the port. -/
theorem zbackoff_parks (h : 16 ≤ (e.zport z).attempts + 1) : e.zbackoff now z r =
    (e.modZport z (fun k => { k with attempts := k.attempts + 1, state := .parked, since := now, reason := 8 })).zportEvent now z 0x0503 := by
  refine (if_pos h).trans (congrArg (Engine.zportEvent · now z 0x0503) ?_)
  rw [Engine.zstate, Engine.modZport_modZport, Engine.modZport_modZport]
  exact Engine.modZport_congr rfl

/-- The partner's number belongs to the same fleet and is not this engine's; both are set (R358, R362). -/
def Engine.takesPartner (e : Engine) (w : Word) : Prop :=
  w.toNat / 4096 = e.engineId.toNat / 4096 ∧ w.toNat % 4096 ≠ e.node ∧ w.toNat % 4096 ≠ 0xFFF ∧ e.node ≠ 0xFFF

theorem zaligned_accepts {w : Word} {pp : Nat} (h : e.takesPartner w) : zaligned z w pp now e =
    e.modZport z (fun k => { k with state := .credit, since := now, pnode := w.toNat % 4096, pport := pp % 32 }) := by
  obtain ⟨hf, hn, hw, he⟩ := h
  exact (if_neg (by simp [hf, hn, hw, he])).trans (Engine.modZport_modZport ..)

theorem zaligned_parks {w : Word} {pp : Nat} (h : w.toNat / 4096 ≠ e.engineId.toNat / 4096 ∨ w.toNat % 4096 = e.node ∨ w.toNat % 4096 = 0xFFF ∨ e.node = 0xFFF) :
    zaligned z w pp now e = e.modZport z (fun k => { k with state := .parked, since := now, reason := 5 }) :=
  (if_pos h).trans (Engine.modZport_modZport ..)

theorem credited_eq {rtt : Nat} : credited z rtt now e = ((e.modZport z (fun k => { k with
      state := .up, since := now, rtt := rtt % 65536, credits := firstCredits, rxSeq := 0, txPos := 0, acked := 0
      rxSince := 0, queue := [], inFlight := [], owed := [], rr := 5, nextPace := now + 64 })).sendPace now z).announceParts now
        (fun _ => true) (fun _ m => m.testBit z) := by
  rw [credited, Engine.zstate, Engine.modZport_modZport]

end Training

section Tried
variable {s : State} {z r : Nat} {i : Instr}

/-- A training step that has failed: the port waits for its next attempt, or the sixteenth parks it (R359). -/
theorem exec_zbackoff (h : exec i s = .next (withEng s (s.eng.zbackoff s.now z r))) :
    ((s.eng.zport z).attempts + 1 < 16 → exec i s = .next (withEng s (s.eng.modZport z (fun k =>
      { k with attempts := k.attempts + 1, state := .backoff, since := s.now, reason := r })))) ∧
    (16 ≤ (s.eng.zport z).attempts + 1 → exec i s = .next (withEng s ((s.eng.modZport z (fun k =>
      { k with attempts := k.attempts + 1, state := .parked, since := s.now, reason := 8 })).zportEvent s.now z 0x0503))) :=
  ⟨fun hn => by rw [h, zbackoff_retries hn], fun hn => by rw [h, zbackoff_parks hn]⟩

end Tried

/-- Settles O50: each event by the port's state and its time there. -/
theorem portTraining : Obligations.PortTraining := by
  intro s z hz
  refine ⟨fun hl w pp rtt => ?dead, fun hl => ?live⟩
  case dead =>
    simp [exec_zportSignalDetect, exec_zportTrainDone, exec_zportTrainTimeout, exec_zportAlignDone, exec_zportAlignTimeout, exec_zportCreditDone,
      exec_zportCreditTimeout, exec_zportLossOfSignal, exec_zportBackoffElapsed, exec_zportUpStable, zevent_dead hz hl]
  case live =>
    intro k into tried
    refine ⟨fun hs hp => exec_zportSignalDetect.trans (zevent_fires hz hl hs hp rfl),
      fun h => exec_zportSignalDetect.trans (h.elim (zevent_otherState hz) fun hp => zevent_early (ok := fun _ k => k.powered) hz hp),
      fun hs => exec_zportTrainDone.trans (zevent_fires hz hl hs rfl rfl),
      fun hs => ⟨exec_zportTrainDone.trans (zevent_otherState hz hs), exec_zportTrainTimeout.trans (zevent_otherState hz hs)⟩,
      fun hs ht => exec_zbackoff (exec_zportTrainTimeout.trans (zevent_fires hz hl hs (ZPort.after_of_le ht) rfl)),
      fun ht => exec_zportTrainTimeout.trans (zevent_early hz (ZPort.not_after_of_lt ht)),
      fun hs w pp => ⟨exec_zportAlignDone.trans (zevent_otherState hz hs), exec_zportAlignTimeout.trans (zevent_otherState hz hs)⟩,
      fun hs ht => exec_zbackoff (exec_zportAlignTimeout.trans (zevent_fires hz hl hs (ZPort.after_of_le ht) rfl)),
      fun hs rtt => ⟨exec_zportCreditDone.trans (zevent_otherState hz hs), exec_zportCreditTimeout.trans (zevent_otherState hz hs)⟩,
      fun hs ht => exec_zbackoff (exec_zportCreditTimeout.trans (zevent_fires hz hl hs (ZPort.after_of_le ht) rfl)),
      fun ht => ?early, fun w pp hs => ?align,
      fun rtt hs => exec_zportCreditDone.trans (zevent_fires hz hl hs rfl credited_eq),
      fun hs => exec_zportLossOfSignal.trans (zevent_fires hz hl hs rfl rfl),
      fun hs => ⟨exec_zportLossOfSignal.trans (zevent_otherState hz hs), exec_zportUpStable.trans (zevent_otherState hz hs)⟩,
      fun hs ht => exec_zportBackoffElapsed.trans (zevent_fires hz hl hs (ZPort.after_of_le ht) rfl),
      fun h => exec_zportBackoffElapsed.trans (h.elim (zevent_otherState hz) fun ht => zevent_early hz (ZPort.not_after_of_lt ht)),
      fun hs ht => exec_zportUpStable.trans (zevent_fires hz hl hs (ZPort.after_of_le ht) rfl),
      fun ht => exec_zportUpStable.trans (zevent_early hz (ZPort.not_after_of_lt ht))⟩
    case early => simp [exec_zportAlignTimeout, exec_zportCreditTimeout, zevent_early hz (ZPort.not_after_of_lt ht)]
    case align =>
      exact ⟨fun hf hn hw he => exec_zportAlignDone.trans (zevent_fires hz hl hs rfl (zaligned_accepts ⟨hf, hn, hw, he⟩)),
        fun h => exec_zportAlignDone.trans (zevent_fires hz hl hs rfl (zaligned_parks h))⟩

end Sys2Proof.Machine
end

section
/-!
PROOFS. What a Zarog port receives while it is UP: codewords and NAKs (R354, R355), LINK flits (R357), packets (R356, R363, R364); modules and
connectors (R394, R487).
-/
namespace Sys2Proof.Machine

open Sys2Proof.Safety

/-! ### Codewords (R354, R355) -/

section Codewords
variable {e : Engine} {now z : Nat} {cw : Codeword}

/-- Corrected codewords once a correctable one has been counted. -/
def ZPort.corrected (k : ZPort) (cw : Codeword) : Nat := if cw.errors = 0 then k.corrRaw else min 65535999 (k.corrRaw + 1)

/-- A codeword in order has been accepted; `n` corrected ones have been counted. -/
def ZPort.accepted (n : Nat) (k : ZPort) : ZPort := { k with corrRaw := n, rxSeq := (k.rxSeq + 1) % 65536, nak := none, rxSince := k.rxSince + 1 }

theorem ZPort.counts_uncorrectable (k : ZPort) (h : 15 < cw.errors) : k.counts cw = { k with uncorr := min 0xFFFF (k.uncorr + 1) } := if_pos h

theorem ZPort.counts_correctable (k : ZPort) (h : cw.errors ≤ 15) : k.counts cw = { k with corrRaw := k.corrected cw } := by
  rw [ZPort.counts, if_neg (Nat.not_lt.mpr h), ZPort.corrected]
  split <;> rfl

theorem zcodeword_uncorrectable (h : 15 < cw.errors) : zcodeword z cw now e =
    (e.modZport z (fun k => { k with uncorr := min 0xFFFF (k.uncorr + 1), nak := some k.rxSeq })).sendLink now z (some (e.zport z).rxSeq) := by
  simp only [zcodeword, if_pos h, Engine.modZport_zport, Engine.modZport_modZport, ZPort.counts_uncorrectable _ h]

variable (h : cw.errors ≤ 15)
include h

theorem modZport_counts : e.modZport z (fun k => k.counts cw) = e.modZport z (fun k => { k with corrRaw := (e.zport z).corrected cw }) :=
  Engine.modZport_congr (ZPort.counts_correctable _ h)

theorem zcodeword_otherSeq (hs : cw.seq % 65536 ≠ (e.zport z).rxSeq) : zcodeword z cw now e =
    e.modZport z (fun k => { k with corrRaw := (e.zport z).corrected cw }) := by
  simp only [zcodeword, if_neg (Nat.not_lt.mpr h), modZport_counts h, Engine.modZport_zport]
  exact if_pos hs

variable (hs : cw.seq % 65536 = (e.zport z).rxSeq)
include hs

theorem zcodeword_inOrder : zcodeword z cw now e =
    if 32 ≤ (e.zport z).rxSince + 1 then (e.modZport z (ZPort.accepted ((e.zport z).corrected cw))).sendLink now z none
    else e.modZport z (ZPort.accepted ((e.zport z).corrected cw)) := by
  simp only [zcodeword, if_neg (Nat.not_lt.mpr h), modZport_counts h, Engine.modZport_zport, Engine.modZport_modZport]
  exact if_neg (not_not.mpr hs)

theorem zcodeword_accepted (hn : (e.zport z).rxSince + 1 < 32) :
    zcodeword z cw now e = e.modZport z (ZPort.accepted ((e.zport z).corrected cw)) := (zcodeword_inOrder h hs).trans (if_neg (Nat.not_le.mpr hn))

theorem zcodeword_acknowledged (hn : 32 ≤ (e.zport z).rxSince + 1) :
    zcodeword z cw now e = (e.modZport z (ZPort.accepted ((e.zport z).corrected cw))).sendLink now z none := (zcodeword_inOrder h hs).trans (if_pos hn)

end Codewords

/-! ### Packets (R356, R363, R364) -/

section Packets
variable {e : Engine} {now z : Nat} {p : ZPacket}

theorem zpacket_malformed (hf : packetFormed p = false) : zpacket z p now e = e.zdiscard z p := if_pos (by simp [hf])

section Formed
variable (hf : packetFormed p = true)
include hf

theorem zpacket_formed : zpacket z p now e =
    if p.snode = e.node then (e.zdiscard z p).leaveUp now z .parked 5
    else if p.dnode = e.node then e.zlocal now z p
    else if p.ttl ≤ 1 then e.zdiscard z p
    else match e.portTo none p.dnode p.siteSum with
      | none => e.zdiscard z p
      | some y => if 32768 < e.rxHeld z + zpacketFlits p then e else e.zput now y { p := { p with ttl := p.ttl - 1 }, via := some z } :=
  if_neg (by simp [hf])

theorem zpacket_returned (hs : p.snode = e.node) : zpacket z p now e = (e.zdiscard z p).leaveUp now z .parked 5 :=
  (zpacket_formed hf).trans (if_pos hs)

variable (hs : p.snode ≠ e.node)
include hs

theorem zpacket_local (hd : p.dnode = e.node) : zpacket z p now e = e.zlocal now z p :=
  (zpacket_formed hf).trans ((if_neg hs).trans (if_pos hd))

variable (hd : p.dnode ≠ e.node)
include hd

theorem zpacket_expired (ht : p.ttl ≤ 1) : zpacket z p now e = e.zdiscard z p :=
  (zpacket_formed hf).trans ((if_neg hs).trans ((if_neg hd).trans (if_pos ht)))

variable (ht : 1 < p.ttl)
include ht

theorem zpacket_unrouted (hr : e.portTo none p.dnode p.siteSum = none) : zpacket z p now e = e.zdiscard z p :=
  (zpacket_formed hf).trans ((if_neg hs).trans ((if_neg hd).trans ((if_neg (Nat.not_le.mpr ht)).trans (by rw [hr]))))

variable {y : Nat} (hr : e.portTo none p.dnode p.siteSum = some y)
include hr

theorem zpacket_routed : zpacket z p now e =
    if 32768 < e.rxHeld z + zpacketFlits p then e else e.zput now y { p := { p with ttl := p.ttl - 1 }, via := some z } :=
  (zpacket_formed hf).trans ((if_neg hs).trans ((if_neg hd).trans ((if_neg (Nat.not_le.mpr ht)).trans (by rw [hr]))))

theorem zpacket_noRoom (hn : 32768 < e.rxHeld z + zpacketFlits p) : zpacket z p now e = e := (zpacket_routed hf hs hd ht hr).trans (if_pos hn)

theorem zpacket_forwarded (hn : e.rxHeld z + zpacketFlits p ≤ 32768) :
    zpacket z p now e = e.zput now y { p := { p with ttl := p.ttl - 1 }, via := some z } :=
  (zpacket_routed hf hs hd ht hr).trans (if_neg (Nat.not_lt.mpr hn))

end Formed

/-! ### Packets for this engine -/

/-- A message for a tile that is not there. -/
theorem zlocal_noTile (ht : p.type = 1) (hu : e.locOfV p.dpart p.dvtile = none) : e.zlocal now z p = e.zdiscard z p := by
  simp only [Engine.zlocal, ht, hu]

section Message
variable {u : Loc} (ht : p.type = 1) (hu : e.locOfV p.dpart p.dvtile = some u)
include ht hu

theorem zlocal_message_waits (hc : e.takeHem (z / 12) 1 (if p.sys then 32 else p.dpart) (zpacketFlits p) = none) : e.zlocal now z p = e := by
  simp only [Engine.zlocal, ht, hu, zportDeck, hc]

theorem zlocal_message {t : Engine} (hc : e.takeHem (z / 12) 1 (if p.sys then 32 else p.dpart) (zpacketFlits p) = some t) : e.zlocal now z p =
    ({ t with flight := t.flight ++ [{
      src := u, dst := u, part := p.dpart, sys := p.sys, epoch := p.epoch, body := .msg p.mbox p.payload }] } : Engine).owe z p.vc (zpacketFlits p) := by
  simp only [Engine.zlocal, ht, hu, zportDeck, hc]

end Message

theorem zlocal_heartbeat (ht : p.type = 5) : e.zlocal now z p =
    ({ e with pair := { e.pair with lastBeat := now } } : Engine).owe z p.vc (zpacketFlits p) := by simp only [Engine.zlocal, ht]

theorem zlocal_frame_waits (ht : p.type = 6) (hc : e.takeHem (z / 12) 1 32 (zpacketFlits p) = none) : e.zlocal now z p = e := by
  simp only [Engine.zlocal, ht, zportDeck, hc]

theorem zlocal_frame {t : Engine} (ht : p.type = 6) (hc : e.takeHem (z / 12) 1 32 (zpacketFlits p) = some t) :
    e.zlocal now z p = (t.takeFrame now p.payload).owe z p.vc (zpacketFlits p) := by simp only [Engine.zlocal, ht, zportDeck, hc]

theorem zlocal_internal (ht : p.type = 2 ∨ p.type = 3) : e.zlocal now z p = e.owe z p.vc (zpacketFlits p) := by
  rcases ht with ht | ht <;> simp only [Engine.zlocal, ht]

end Packets

/-! ### Modules and connectors (R394, R487) -/

theorem connectorFault_zarog (e : Engine) (z now : Nat) : connectorFault (.zarog z) now e =
    (let e' := e.modZport z (fun k => { k with enable := false })
     if (e.zport z).state = .up then e'.leaveUp now z .detect 1 else e') := by
  simp only [connectorFault, Engine.modZport_zport]

/-! ### The statement -/

/-- What an UP port receives, by what arrives. -/
theorem portTraffic_up {s : State} {z : Nat} (hz : z < 24) (hl : s.eng.zlive z = true) (hs : (s.eng.zport z).state = .up) {i : Instr}
    {f : Nat → Engine → Engine} {e : Engine} (hi : exec i s = zevent z .up (fun _ _ => true) f s) (hf : f s.now s.eng = e) :
    exec i s = .next (withEng s e) := hi.trans (zevent_fires hz hl hs rfl hf)

/-- Settles O51: each event by what the port receives, a packet by the checks it passes in order. -/
theorem portTraffic : Obligations.PortTraffic := by
  refine ⟨fun s z hz => ⟨fun h cw n f p => ?down, fun hl hs => ?up⟩, fun s z c w hz => onUnit_eq (decide_eq_true hz) rfl,
    fun s z hz => onUnit_eq (f := connectorFault (.zarog z)) (decide_eq_true hz) (connectorFault_zarog s.eng z s.now),
    fun s k hk => onUnit_eq (f := connectorFault (.pcie k)) (decide_eq_true hk) rfl⟩
  case down =>
    have hd (ok : Nat → ZPort → Bool) (g : Nat → Engine → Engine) : zevent z .up ok g s = .next s := h.elim (zevent_dead hz) (zevent_otherState hz)
    simp [exec_zarogCodewordReceive, exec_zarogNak, exec_zportReplayLimit, exec_linkFlit, exec_zarogPacketReceive, hd]
  case up =>
    intro k into
    have fires {i : Instr} {f : Nat → Engine → Engine} {e : Engine} : exec i s = zevent z .up (fun _ _ => true) f s → f s.now s.eng = e →
      exec i s = .next (withEng s e) := portTraffic_up hz hl hs
    refine ⟨fun cw => ⟨fun hc => ?_, fun hc => ?correctable⟩, fun n => ?nak, fun hn => ?few, fun hn => ?many, fun f => fires exec_linkFlit rfl, fun p => ?packet⟩
    · exact fires exec_zarogCodewordReceive (zcodeword_uncorrectable hc)
    case correctable =>
      exact ⟨fun hq => fires exec_zarogCodewordReceive (zcodeword_otherSeq hc hq), fun hq hn => fires exec_zarogCodewordReceive (zcodeword_accepted hc hq hn),
        fun hq hn => fires exec_zarogCodewordReceive (zcodeword_acknowledged hc hq hn)⟩
    case nak => exact ⟨fun hn => fires exec_zarogNak (if_pos hn), fun hn => fires exec_zarogNak (if_neg (Nat.not_le.mpr hn))⟩
    case few =>
      exact exec_zportReplayLimit.trans (zevent_early (ok := fun now k => decide (16 < (k.replayTicks.filter (fun x => decide (now < x + 1000))).length)) hz
        (decide_eq_false (Nat.not_lt.mpr hn)))
    case many => exact exec_zportReplayLimit.trans (zevent_fires hz hl hs (decide_eq_true hn) rfl)
    case packet =>
      have receives {e : Engine} : zpacket z p s.now s.eng = e → exec (.zarogPacketReceive z p) s = .next (withEng s e) := fires exec_zarogPacketReceive
      refine ⟨fun hf => receives (zpacket_malformed hf), fun hf hs => receives (zpacket_returned hf hs),
        fun hf hs hd ht => receives (zpacket_expired hf hs hd ht), fun ⟨hf, hs, hd, ht⟩ hr => receives (zpacket_unrouted hf hs hd ht hr),
        fun y ⟨hf, hs, hd, ht⟩ hr => ⟨fun hn => receives (zpacket_noRoom hf hs hd ht hr hn), fun hn => receives (zpacket_forwarded hf hs hd ht hr hn)⟩, ?_⟩
      have mine {e : Engine} : (packetFormed p = true ∧ p.snode ≠ s.eng.node ∧ p.dnode = s.eng.node) → s.eng.zlocal s.now z p = e →
          exec (.zarogPacketReceive z p) s = .next (withEng s e) := fun ⟨hf, hs, hd⟩ h => receives ((zpacket_local hf hs hd).trans h)
      exact ⟨fun hm ht hu => mine hm (zlocal_noTile ht hu), fun u hm ht hu => ⟨fun hc => mine hm (zlocal_message_waits ht hu hc),
        fun e hc => mine hm (zlocal_message ht hu hc)⟩, fun hm ht => mine hm (zlocal_heartbeat ht), fun hm ht => ⟨fun hc => mine hm (zlocal_frame_waits ht hc),
        fun e hc => mine hm (zlocal_frame ht hc)⟩, fun hm ht => mine hm (zlocal_internal ht)⟩

end Sys2Proof.Machine
end

section
/-!
PROOFS. The pace unit: holdover and its end (R368, R369), PACE packets (R371), PTP messages (R489) and the edges of its input.
-/
namespace Sys2Proof.Machine

open Sys2Proof.Safety

/-! ### Holdover (R369) -/

section Holdover
variable {e : Engine} {now : Nat} {p : Pace}

/-- Holdover by what the pace unit was: nothing where it is there already, its event otherwise. -/
theorem enterHoldover_of_pace (hp : e.pace = p) : e.enterHoldover now =
    if p.state = 2 then e else ({ e with pace := { p with state := 2, holdSince := now, steer := 0 } } : Engine).supEvent now 0x0504 p.src 0 := by
  subst hp; rfl

theorem paceLocked_none (h : e.pace.src = 4 ∨ e.pace.state = 0) : paceLocked now e = e := if_pos h

theorem paceLocked_locks (h4 : e.pace.src ≠ 4) (h0 : e.pace.state ≠ 0) : paceLocked now e =
    ({ e with pace := { e.pace with state := 0 } } : Engine).supEvent now 0x0505 e.pace.src
      (if e.pace.state = 2 then min 0xFFFF ((now - e.pace.holdSince) / 1000000) else 0) := if_neg (not_or.mpr ⟨h4, h0⟩)

theorem exec_paceHoldover_none {s : State} (h : s.eng.sourceLost s.now = false) : exec .paceHoldover s = .next s :=
  onEng_same (f := fun now e => cond (e.sourceLost now) (fun e => e.enterHoldover now) e) (if_neg (ne_true_of_eq_false h))

theorem exec_paceHoldover_lost {s : State} (h : s.eng.sourceLost s.now = true) : exec .paceHoldover s = .next (withEng s (s.eng.enterHoldover s.now)) :=
  onEng_eq (f := fun now e => cond (e.sourceLost now) (fun e => e.enterHoldover now) e) (if_pos h)

end Holdover

/-! ### PACE packets (R371) -/

section Exchange
variable {e : Engine} {now z : Nat} {x : PaceInfo}

/-- The engine once a port has sent its PACE packet and recorded the link's delays. -/
def Engine.paceSent (e : Engine) (now z : Nat) (x : PaceInfo) : Engine :=
  (e.sendPace now z).modZport z (fun k => { k with nextPace := now + 64, delayOut := x.delayOutNs, delayIn := x.delayInNs })

theorem paceSent_outputs (e : Engine) (now z : Nat) (x : PaceInfo) : OutputsOnly e (e.paceSent now z x) :=
  (sendPace_outputs e now z).trans (modZport_outputs ..)

theorem Engine.paceSent_pace (e : Engine) (now z : Nat) (x : PaceInfo) : (e.paceSent now z x).pace = e.pace :=
  (congrArg Engine.pace (paceSent_outputs e now z x)).trans rfl

theorem Engine.paceSent_node (e : Engine) (now z : Nat) (x : PaceInfo) : (e.paceSent now z x).node = e.node :=
  (congrArg Engine.node (paceSent_outputs e now z x)).trans rfl

theorem paceExchange_none (h : (e.zport z).state ≠ .up ∨ now < (e.zport z).nextPace) : paceExchange z x now e = e := if_pos h

variable (hs : (e.zport z).state = .up) (ht : (e.zport z).nextPace ≤ now)
include hs ht

theorem paceExchange_due : paceExchange z x now e =
    if e.pace.src ≠ 3 ∨ e.pace.port ≠ z then e.paceSent now z x
    else if 15 < x.hops ∨ x.master = e.node then (e.paceSent now z x).enterHoldover now
    else { e.paceSent now z x with pace := { e.pace with steer := steerFor x.offsetNs, master := x.master, hops := x.hops + 1 } } := by
  rw [← e.paceSent_pace now z x, ← e.paceSent_node now z x]
  exact if_neg (by simp [hs, ht])

theorem paceExchange_otherSource (hp : e.pace.src ≠ 3 ∨ e.pace.port ≠ z) : paceExchange z x now e = e.paceSent now z x :=
  (paceExchange_due hs ht).trans (if_pos hp)

variable (h3 : e.pace.src = 3) (hp : e.pace.port = z)
include h3 hp

/-- Too many hops, or a chain that returns to this engine, is a loss of the source. -/
theorem paceExchange_loses (hx : 15 < x.hops ∨ x.master = e.node) : paceExchange z x now e = (e.paceSent now z x).enterHoldover now :=
  (paceExchange_due hs ht).trans ((if_neg (by simp [h3, hp])).trans (if_pos hx))

theorem paceExchange_steers (hx : x.hops ≤ 15) (hm : x.master ≠ e.node) : paceExchange z x now e =
    { e.paceSent now z x with pace := { e.pace with steer := steerFor x.offsetNs, master := x.master, hops := x.hops + 1 } } :=
  (paceExchange_due hs ht).trans ((if_neg (by simp [h3, hp])).trans (if_neg (not_or.mpr ⟨Nat.not_lt.mpr hx, hm⟩)))

end Exchange

/-! ### PTP messages and edges (R368, R489) -/

section Sources
variable {e : Engine} {now : Nat}

theorem ptpMessage_none {isPtp : Bool} {kind : PtpKind} {v : Nat} (h : isPtp = false ∨ kind ≠ .sync ∨ e.pace.src ≠ 2) : ptpMessage isPtp kind v now e = e :=
  if_pos (by simpa [or_assoc] using h)

theorem ptpMessage_sync {v : Nat} (h : e.pace.src = 2) : ptpMessage true .sync v now e =
    { e with pace := { e.pace with lastSync := now, steer := steerFor ((v : Int) - now) } } := if_neg (by simp [h])

theorem paceEdge_otherSource {o : Int} (h : e.pace.src ≠ 0) : paceEdge o now e = e := if_pos h

theorem paceEdge_near {o : Int} (h : e.pace.src = 0) (ho : o.natAbs ≤ 1000) : paceEdge o now e =
    { e with pace := { e.pace with lastEdge := now, steer := steerFor (-o) } } := (if_neg (not_not.mpr h)).trans (if_neg (Nat.not_lt.mpr ho))

theorem paceEdge_far {o : Int} (h : e.pace.src = 0) (ho : 1000 < o.natAbs) : paceEdge o now e = e.enterHoldover now :=
  (if_neg (not_not.mpr h)).trans (if_pos ho)

/-- When each source is lost (Table 12.6). -/
theorem sourceLost_edge (h : e.pace.src = 0) : e.sourceLost now = true ↔ e.pace.lastEdge + 2100000 ≤ now := by
  simp only [Engine.sourceLost, h, decide_eq_true_eq]

theorem sourceLost_ptp (h : e.pace.src = 2) : e.sourceLost now = true ↔ e.pace.lastSync + 3000000 ≤ now := by
  simp only [Engine.sourceLost, h, decide_eq_true_eq]

theorem sourceLost_zarog (h : e.pace.src = 3) : e.sourceLost now = true ↔ (e.zport e.pace.port).state ≠ .up := by
  simp only [Engine.sourceLost, h, bne_iff_ne]

theorem sourceLost_free (h : e.pace.src = 4) : e.sourceLost now = false := by simp only [Engine.sourceLost, h]

end Sources

/-- Settles O52: each event of the unit by its selected source. -/
theorem paceResults : Obligations.PaceResults := by
  refine ⟨fun s => ?_, fun e now => ⟨sourceLost_edge, sourceLost_ptp, sourceLost_zarog, sourceLost_free⟩⟩
  intro p lost steer
  have hold : s.eng.enterHoldover s.now = lost s.eng := enterHoldover_of_pace rfl
  refine ⟨exec_paceHoldover_none, fun h => hold ▸ exec_paceHoldover_lost h, fun h => onEng_same (f := paceLocked) (paceLocked_none h),
    fun h4 h0 => onEng_eq (f := paceLocked) (paceLocked_locks h4 h0), fun z x hz => ?exchange,
    fun isPtp kind v h => onEng_same (f := ptpMessage isPtp kind v) (ptpMessage_none h), fun v h => onEng_eq (f := ptpMessage true .sync v) (ptpMessage_sync h),
    fun o => ⟨fun h => onEng_same (f := paceEdge o) (paceEdge_otherSource h), fun h ho => onEng_eq (f := paceEdge o) (paceEdge_near h ho),
      fun h ho => onEng_eq (f := paceEdge o) ((paceEdge_far h ho).trans hold)⟩⟩
  case exchange =>
    have exec_eq {e : Engine} (h : paceExchange z x s.now s.eng = e) : exec (.paceExchange z x) s = .next (withEng s e) :=
      onUnit_eq (f := paceExchange z x) (decide_eq_true hz) h
    exact ⟨fun h => exec_eq (paceExchange_none h), fun hs ht hp => exec_eq (paceExchange_otherSource hs ht hp),
      fun hs ht h3 hp hx => exec_eq ((paceExchange_loses hs ht h3 hp hx).trans (enterHoldover_of_pace (s.eng.paceSent_pace s.now z x))),
      fun hs ht h3 hp hx hm => exec_eq (paceExchange_steers hs ht h3 hp hx hm)⟩

end Sys2Proof.Machine
end

section
/-!
PROOFS. The pair: heartbeats and their loss (R379, R382, R383), readiness (R377, R379), the mirror digest (R380), replication and its
acknowledgement (R381).
-/
namespace Sys2Proof.Machine

open Sys2Proof.Safety

/-! ### Heartbeats and their loss (R379, R382, R383) -/

section Heartbeats
variable {e : Engine} {now : Nat}

theorem pairHeartbeat_none (h : e.pair.mode = 0 ∨ now < e.pair.nextBeat) : pairHeartbeat now e = e := if_pos h

theorem pairHeartbeat_beats (hm : e.pair.mode ≠ 0) (ht : e.pair.nextBeat ≤ now) : pairHeartbeat now e =
    ((((setBits e.pair.mask 24).filter (fun z => (e.zport z).state == .up)).foldl (fun e z =>
      e.zput now z { p := e.zheader 5 e.partnerNode 0 0 0 true [], b := .heartbeat }) e).modPair (fun y => { y with nextBeat := now + 100 })) :=
  if_neg (not_or.mpr ⟨hm, Nat.not_lt.mpr ht⟩)

/-- 5 ms without a heartbeat, in a pair that is configured and goes on with its twin, where some paired partition is not orphaned. -/
def Engine.twinSilent (e : Engine) (now : Nat) : Prop :=
  e.pair.mode ≠ 0 ∧ e.pair.lastBeat + 5000 ≤ now ∧ e.pair.alone = false ∧ e.pair.pendingCfg = none ∧ ∃ p ∈ e.pairedParts, (e.part p).pair ≠ 3

theorem Engine.not_twinSilent_iff (e : Engine) (now : Nat) : (e.pair.mode = 0 ∨ now < e.pair.lastBeat + 5000 ∨ e.pair.alone = true ∨
    e.pair.pendingCfg.isSome = true ∨ (!e.pairedParts.any (fun p => (e.part p).pair != 3)) = true) ↔ ¬ e.twinSilent now := by
  simp only [Engine.twinSilent, not_and_or, not_not, Nat.not_le, Bool.not_eq_false, Option.isSome_iff_ne_none, ne_eq, Bool.not_eq_true',
    ← Bool.not_eq_true (List.any ..), List.any_eq_true, bne_iff_ne]

theorem pairSilence_none (h : ¬ e.twinSilent now) : e.pairSilence now = e := if_pos ((e.not_twinSilent_iff now).mpr h)

section Silent
variable (h : e.twinSilent now)
include h

theorem pairSilence_eq : e.pairSilence now =
    if e.pair.mode = 1 ∧ e.pair.primary = true then e.goAlone now
    else if e.pair.mode = 1 ∨ e.pair.primary = true then e.stopPaired now
    else e.takeover now := by
  refine (if_neg (mt (e.not_twinSilent_iff now).mp (not_not.mpr h))).trans ?_
  split <;> simp_all

theorem pairSilence_mirrorPrimary (hm : e.pair.mode = 1) (hp : e.pair.primary = true) : e.pairSilence now = e.goAlone now :=
  (pairSilence_eq h).trans (if_pos ⟨hm, hp⟩)

theorem pairSilence_mirrorSecondary (hm : e.pair.mode = 1) (hp : e.pair.primary = false) : e.pairSilence now = e.stopPaired now :=
  (pairSilence_eq h).trans ((if_neg (by simp [hp])).trans (if_pos (.inl hm)))

theorem pairSilence_standbyPrimary (hm : e.pair.mode ≠ 1) (hp : e.pair.primary = true) : e.pairSilence now = e.stopPaired now :=
  (pairSilence_eq h).trans ((if_neg (by simp [hm])).trans (if_pos (.inr hp)))

theorem pairSilence_standbySecondary (hm : e.pair.mode ≠ 1) (hp : e.pair.primary = false) : e.pairSilence now = e.takeover now :=
  (pairSilence_eq h).trans ((if_neg (by simp [hm])).trans (if_neg (by simp [hm, hp])))

end Silent

/-- A secondary of a configured pair with a partition that it follows. -/
def Engine.isSecond (e : Engine) : Prop :=
  e.pair.mode ≠ 0 ∧ e.pair.primary = false ∧ e.pair.pendingCfg = none ∧ ∃ p ∈ e.pairedParts, (e.part p).pair = 2

theorem Engine.isSecond_iff (e : Engine) :
    (e.pair.mode != 0 && !e.pair.primary && e.pair.pendingCfg.isNone && e.pairedParts.any (fun p => (e.part p).pair == 2)) = true ↔ e.isSecond := by
  simp only [Engine.isSecond, Bool.and_eq_true, bne_iff_ne, Bool.not_eq_true', Option.isNone_iff_eq_none, List.any_eq_true, beq_iff_eq, and_assoc]

theorem heartbeatLoss_notSecond (h : ¬ e.isSecond) {n : PairNews} (hn : n = .stopped ∨ n = .handover) : heartbeatLoss n now e = e := by
  have hf := Bool.eq_false_iff.mpr (mt e.isSecond_iff.mp h)
  rcases hn with rfl | rfl <;> simp only [heartbeatLoss, hf, Bool.false_and, Bool.false_eq_true, if_false]

theorem heartbeatLoss_stopped (h : e.isSecond) : heartbeatLoss .stopped now e = e.takeover now := if_pos (e.isSecond_iff.mpr h)

theorem heartbeatLoss_handover_mirror (h2 : e.pair.mode ≠ 2) : heartbeatLoss .handover now e = e := if_neg (by simp [h2])

theorem heartbeatLoss_handover (h : e.isSecond) (h2 : e.pair.mode = 2) :
    heartbeatLoss .handover now e = (e.takeover now).modPair (fun y => { y with alone := false }) :=
  if_pos (Bool.and_eq_true_iff.mpr ⟨e.isSecond_iff.mpr h, beq_iff_eq.mpr h2⟩)

end Heartbeats

/-! ### Readiness (R377, R379) -/

section Ready
variable {e : Engine} {now p : Nat}

theorem pairCfgTimeout_none (h : e.pair.pendingCfg = none) : pairCfgTimeout now e = e := by rw [pairCfgTimeout, h]

section Pending
variable {h : Hdr} {n : Nat} (hc : e.pair.pendingCfg = some (h, n))
include hc

theorem pairCfgTimeout_early (hn : now < n) : pairCfgTimeout now e = e := by rw [pairCfgTimeout, hc]; exact if_pos hn

theorem pairCfgTimeout_due (hn : n ≤ now) : pairCfgTimeout now e = ({ e with pair := {} } : Engine).reply now h .timeout 0 := by
  rw [pairCfgTimeout, hc]
  exact if_neg (Nat.not_lt.mpr hn)

end Pending

/-- The engine once PAIR_CFG, where it waits for the twin, has its final reply. -/
def Engine.pairAnswered (e : Engine) (now : Nat) : Engine :=
  match e.pair.pendingCfg with
  | some (h, _) => ({ e with pair := { e.pair with pendingCfg := none } } : Engine).okReply now h
  | none => e

/-- A partition that the twin's report pairs: bound, in no span, and not orphaned. -/
def Part.pairs (q : Part) : Prop := q.image.isSome = true ∧ q.spanLast = 0 ∧ q.pair ≠ 3

theorem Part.not_pairs_iff (q : Part) : (q.image.isNone || q.spanLast != 0 || q.pair == 3) = true ↔ ¬ q.pairs := by
  simp only [Part.pairs, Bool.or_eq_true, bne_iff_ne, beq_iff_eq, not_and_or, not_not, Bool.not_eq_true, Option.isSome_eq_false_iff, or_assoc, ne_eq]

theorem pairReady_single (hm : e.pair.mode = 0) : pairReady p now e = e := if_pos hm

section Configured
variable (hm : e.pair.mode ≠ 0)
include hm

theorem pairReady_unpaired (h : ¬ ((e.pairAnswered now).part p).pairs) : pairReady p now e = e.pairAnswered now :=
  (if_neg hm).trans (if_pos ((Part.not_pairs_iff _).mpr h))

theorem pairReady_pairs (h : ((e.pairAnswered now).part p).pairs) : pairReady p now e = (e.pairAnswered now).modPart p (fun q =>
    { q with twinReady := true, pair := if q.pair = 0 then (if (e.pairAnswered now).pair.primary then 1 else 2) else q.pair }) :=
  (if_neg hm).trans (if_neg (mt (Part.not_pairs_iff _).mp (not_not.mpr h)))

end Configured

end Ready

/-! ### The mirror digest (R380) -/

section Mirror
variable {e : Engine} {now p : Nat} {d : Word}

theorem mirrorDigest_none (h : (e.part p).step = none ∨ e.mirrored p = false) : mirrorDigest p d now e = e := by
  unfold mirrorDigest
  split
  · rfl
  · next st hs => exact if_pos (by simpa [hs] using h)

variable {st : Step} (hs : (e.part p).step = some st) (hm : e.mirrored p = true)
include hs hm

theorem mirrorDigest_step : mirrorDigest p d now e =
    if !st.drawn || st.halted then e.modPart p (fun q => { q with digest := some d })
    else match e.drawStep p st with
      | .tokens ds => e.compareDigest p now st ds d
      | _ => e := by
  rw [mirrorDigest, hs]
  exact if_neg (by simp [hm])

theorem mirrorDigest_early (h : st.drawn = false ∨ st.halted = true) : mirrorDigest p d now e = e.modPart p (fun q => { q with digest := some d }) :=
  (mirrorDigest_step hs hm).trans (if_pos (by simpa using h))

variable (hd : st.drawn = true) (hh : st.halted = false)
include hd hh

theorem mirrorDigest_compares {ds : List (Nat × Option Nat)} (ht : e.drawStep p st = .tokens ds) :
    mirrorDigest p d now e = e.compareDigest p now st ds d :=
  (mirrorDigest_step hs hm).trans ((if_neg (by simp [hd, hh])).trans (by rw [ht]))

theorem mirrorDigest_noTokens (ht : ∀ ds, e.drawStep p st ≠ .tokens ds) : mirrorDigest p d now e = e := by
  refine (mirrorDigest_step hs hm).trans ((if_neg (by simp [hd, hh])).trans ?_)
  split
  · next ds hds => exact absurd hds (ht ds)
  · rfl

end Mirror

/-! ### Replication (R381) -/

section Replicate
variable {e : Engine} {now p : Nat} {rep : Replication}

/-- A replicated step's state in the secondary's own stores. -/
def Engine.placeReplica (e : Engine) (p : Nat) (rep : Replication) : Engine :=
  let g := e.graph (e.part p).graph
  let e := rep.reqs.foldl (fun e x => e.placeRequest p rep.newest x) e
  let e := rep.kv.foldl (fun e k => e.placeEntry g k) e
  let e := rep.reqs.foldl (fun e x => if (e.req x.1).state = .idle then e else e.advance x.1 (fld x.2 287 256) g) e
  let e := rep.freed.foldl (fun e x => e.freeRows x.1 x.2 g) e
  rep.adapter.foldl (fun e x =>
    ((e.adaptHalf p x.1 1).zipIdx).foldl (fun e k => e.setKvBytes (x.1, k.1) 0 ((x.2.drop (k.2 * 16384)).take 16384)) e) e

theorem standbyReplication_none (h : e.pair.mode ≠ 2 ∨ (e.part p).pair ≠ 2) : standbyReplication p rep now e = e := if_pos h

theorem standbyReplication_places (hm : e.pair.mode = 2) (hp : (e.part p).pair = 2) : standbyReplication p rep now e =
    ((e.placeReplica p rep).modPart p (fun q => { q with
      stepNo := rep.stepNo, lastAcked := rep.stepNo, adaptSel := if rep.adapter = [] then q.adaptSel else 1 - q.adaptSel })).pairMsg now p 5 rep.stepNo := by
  simp only [← List.isEmpty_iff]
  exact if_neg (by simp [hm, hp])

theorem replicationAck_none {n : Nat} (h : n ∉ (e.part p).unacked) : replicationAck p n now e = e := if_pos (by simpa using h)

theorem replicationAck_releases {n : Nat} (h : n ∈ (e.part p).unacked) : replicationAck p n now e =
    (((e.modPart p (fun q => { q with unacked := q.unacked.filter (· != n), lastAcked := n })).releaseStep p (· == n)).tryHandover now) :=
  if_neg (by simpa using h)

end Replicate

/-- Settles O54: the pair's events by its mode and role, those of a partition by what it has of the step. -/
theorem pairResults : Obligations.PairResults := by
  refine ⟨fun s => ?engine, fun s p hp => ?part⟩
  case engine =>
    intro x
    have loss {n : PairNews} {e : Engine} (h : heartbeatLoss n s.now s.eng = e) : exec (.pairHeartbeatLoss n) s = .next (withEng s e) :=
      onEng_eq (f := heartbeatLoss n) h
    refine ⟨fun h => onEng_same (f := pairHeartbeat) (pairHeartbeat_none h), fun hm ht => onEng_eq (f := pairHeartbeat) (pairHeartbeat_beats hm ht),
      ⟨fun h => loss (n := .silence) (pairSilence_none h), fun h hm hp => loss (n := .silence) (pairSilence_mirrorPrimary h hm hp),
        fun h hm hp => loss (n := .silence) (pairSilence_mirrorSecondary h hm hp), fun h hm hp => loss (n := .silence) (pairSilence_standbyPrimary h hm hp),
        fun h hm hp => loss (n := .silence) (pairSilence_standbySecondary h hm hp)⟩,
      ⟨fun h n hn => loss (heartbeatLoss_notSecond h (by simpa using hn)), fun h => loss (heartbeatLoss_stopped h),
        fun _ h2 => loss (heartbeatLoss_handover_mirror h2), fun h h2 => loss (heartbeatLoss_handover h h2)⟩,
      fun h => onEng_same (f := pairCfgTimeout) (pairCfgTimeout_none h), fun h n hc => ⟨fun hn => onEng_same (f := pairCfgTimeout) (pairCfgTimeout_early hc hn),
        fun hn => onEng_eq (f := pairCfgTimeout) (pairCfgTimeout_due hc hn)⟩⟩
  case part =>
    have ok := decide_eq_true hp
    refine ⟨fun hm => onUnit_same (f := pairReady p) ok (pairReady_single hm), fun hm => ⟨fun h => onUnit_eq (f := pairReady p) ok (pairReady_unpaired hm h),
        fun h => onUnit_eq (f := pairReady p) ok (pairReady_pairs hm h)⟩,
      fun d h => onUnit_same (f := mirrorDigest p d) ok (mirrorDigest_none h), fun d st hs hm => ⟨fun h => onUnit_eq (f := mirrorDigest p d) ok (mirrorDigest_early hs hm h),
        fun ds hd hh ht => onUnit_eq (f := mirrorDigest p d) ok (mirrorDigest_compares hs hm hd hh ht),
        fun hd hh ht => onUnit_same (f := mirrorDigest p d) ok (mirrorDigest_noTokens hs hm hd hh ht)⟩,
      fun rep h => onUnit_same (f := standbyReplication p rep) ok (standbyReplication_none h),
      fun rep hm hq => onUnit_eq (f := standbyReplication p rep) ok (standbyReplication_places hm hq),
      fun n h => onUnit_same (f := replicationAck p n) ok (replicationAck_none h), fun n h => onUnit_eq (f := replicationAck p n) ok (replicationAck_releases h)⟩

end Sys2Proof.Machine
end

section
/-!
PROOFS. Power sequences and resets (R370, R448 to R456, R480): what begins them, the stages in order, and what a reset leaves.
-/
namespace Sys2Proof.Machine

open Sys2Proof.Safety

/-! ### Requests (R450, R491) -/

section Request
variable {e : Engine} {now : Nat} {t : PwrState}

theorem askFor_kept (h : e.keptOff = true ∨ e.fed = false) : e.askFor now t = e := if_pos (by simpa using h)

section Able
variable (hk : e.keptOff = false) (hf : e.fed = true)
include hk hf

theorem askFor_running (hr : e.power.up = true ∨ e.power.down = true) : e.askFor now t = e.modPower (fun p => { p with goal := t }) :=
  (if_neg (by simp [hk, hf])).trans (if_pos (by simpa using hr))

variable (hu : e.power.up = false) (hd : e.power.down = false)
include hu hd

theorem askFor_off (hs : e.power.stage = 0) : e.askFor now t = e.modPower (fun p => { p with goal := t, up := true, since := now }) :=
  (if_neg (by simp [hk, hf])).trans ((if_neg (by simp [hu, hd])).trans (if_pos hs))

theorem askFor_settled (hs : e.power.stage ≠ 0) : e.askFor now t = e :=
  (if_neg (by simp [hk, hf])).trans ((if_neg (by simp [hu, hd])).trans (if_neg hs))

end Able

/-- The contact has been closed for 100 ms, and has not counted since (R491). -/
def Engine.contactCounts (e : Engine) (now : Nat) : Prop := e.sup.pwrOn = true ∧ e.sup.pwrUsed = false ∧ e.sup.pwrSince + 100000 ≤ now

theorem Engine.contactCounts_iff (e : Engine) (now : Nat) :
    (e.sup.pwrOn && !e.sup.pwrUsed && decide (e.sup.pwrSince + 100000 ≤ now)) = true ↔ e.contactCounts now := by
  simp only [Engine.contactCounts, Bool.and_eq_true, Bool.not_eq_true', decide_eq_true_eq, and_assoc]

theorem pwrOnRequest_contact_none (h : ¬ e.contactCounts now) : pwrOnRequest false now e = e := if_neg (mt (e.contactCounts_iff now).mp h)

theorem pwrOnRequest_contact (h : e.contactCounts now) :
    pwrOnRequest false now e = (e.modSup (fun x => { x with pwrUsed := true })).askFor now .ready := if_pos ((e.contactCounts_iff now).mpr h)

theorem pwrOnRequest_feeds_none (h : e.sup.bothAbsent = none ∨ e.fed = false) : pwrOnRequest true now e = e :=
  if_pos (by simpa using h)

section Feeds
variable (ha : e.sup.bothAbsent ≠ none) (hf : e.fed = true)
include ha hf

/-- The feeds are back after both were absent. -/
theorem pwrOnRequest_feeds : pwrOnRequest true now e =
    (let e' := e.modSup (fun x => { x with bothAbsent := none })
     if e.power.target = .off ∨ e.power.stage ≠ 0 ∨ e.power.up = true then e' else e'.askFor now e.power.target) :=
  if_neg (by simp [ha, hf])

theorem pwrOnRequest_feeds_stays (h : e.power.target = .off ∨ e.power.stage ≠ 0 ∨ e.power.up = true) :
    pwrOnRequest true now e = e.modSup (fun x => { x with bothAbsent := none }) := (pwrOnRequest_feeds ha hf).trans (if_pos h)

theorem pwrOnRequest_feeds_asks (ht : e.power.target ≠ .off) (hs : e.power.stage = 0) (hu : e.power.up = false) :
    pwrOnRequest true now e = (e.modSup (fun x => { x with bothAbsent := none })).askFor now e.power.target :=
  (pwrOnRequest_feeds ha hf).trans (if_neg (by simp [ht, hs, hu]))

end Feeds

end Request

/-! ### Power-up (R370, R449) -/

section PowerUp
variable {e : Engine} {now : Nat} {rep : StageReport}

/-- The engine on the count that a stage begins, its own timers moved with it (R370). -/
def Engine.rebased (e : Engine) (now t : Nat) : Engine := if t = now then e else e.rebase now t

theorem Engine.rebased_up (e : Engine) (now t : Nat) : (e.rebased now t).power.up = e.power.up := by unfold Engine.rebased; split <;> rfl

theorem Engine.rebased_stage (e : Engine) (now t : Nat) : (e.rebased now t).power.stage = e.power.stage := by unfold Engine.rebased; split <;> rfl

theorem powerUpStage_down (hu : e.power.up = false) : powerUpStage rep now e = deckResetStage rep now e := if_neg (ne_true_of_eq_false hu)

section Rising
variable {n : Nat} (hu : e.power.up = true) (hs : e.power.stage + 1 = n)
include hu hs

theorem powerUpStage_completes (hd : e.stageDone now n rep = true) : powerUpStage rep now e = (e.upStage now n rep).atStage now n := by
  subst hs
  exact (if_pos hu).trans (if_pos hd)

theorem powerUpStage_waits (hd : e.stageDone now n rep = false) : powerUpStage rep now e = e := by
  subst hs
  exact (if_pos hu).trans (if_neg (ne_true_of_eq_false hd))

end Rising

theorem deckResetStage_none (h : e.runningReset = none) : deckResetStage rep now e = e := by rw [deckResetStage, h]

section Running
variable {r : PendingReset} (h : e.runningReset = some r)
include h

theorem deckResetStage_otherScope (hr : r.scope ≠ 1) : deckResetStage rep now e = e := by
  rw [deckResetStage, h]
  exact if_pos hr

variable (hr : r.scope = 1)
include hr

theorem deckResetStage_running : deckResetStage rep now e =
    (let d := e.deckStage now r.deck (r.stage + 1) rep
     { d with resets := if r.stage + 1 = 8 then d.resets.filter (· != r) else { r with stage := r.stage + 1 } :: d.resets.filter (· != r) }) := by
  rw [deckResetStage, h]
  exact if_neg (not_not.mpr hr)

theorem deckResetStage_last (h8 : r.stage + 1 = 8) : deckResetStage rep now e =
    (let d := e.deckStage now r.deck (r.stage + 1) rep
     { d with resets := d.resets.filter (· != r) }) := by
  rw [deckResetStage_running h hr]
  simp only [h8, if_true]

theorem deckResetStage_next (h8 : r.stage + 1 ≠ 8) : deckResetStage rep now e =
    (let d := e.deckStage now r.deck (r.stage + 1) rep
     { d with resets := { r with stage := r.stage + 1 } :: d.resets.filter (· != r) }) := by
  rw [deckResetStage_running h hr]
  simp only [h8, if_false]

end Running

section Exec
variable {s : State}

theorem exec_powerUpStage (s : State) (rep : StageReport) : exec (.powerUpStage rep) s =
    .next { s with now := s.eng.paceAt s.now rep, eng := powerUpStage rep (s.eng.paceAt s.now rep) (s.eng.rebased s.now (s.eng.paceAt s.now rep)) } := rfl

/-- PACE_NOW stays outside the engine's own sequence. -/
theorem exec_powerUpStage_down (hu : s.eng.power.up = false) : exec (.powerUpStage rep) s = .next (withEng s (deckResetStage rep s.now s.eng)) := by
  have ht : s.eng.paceAt s.now rep = s.now := if_neg (by simp [hu])
  have he : s.eng.rebased s.now s.now = s.eng := if_pos rfl
  rw [exec_powerUpStage, ht, he, powerUpStage_down hu]
  rfl

end Exec

end PowerUp

/-! ### Power-down (R451) -/

section PowerDown
variable {e : Engine} {now : Nat}

theorem powerDownStage_none (hd : e.power.down = false) : powerDownStage now e = e := if_pos (by simp [hd])

/-- Nothing steps any more, or 50 ms have passed. -/
def Engine.stepsOver (e : Engine) (now : Nat) : Prop := (∀ x ∈ e.parts, x.2.step = none) ∨ e.power.since + 50000 ≤ now

theorem Engine.stepsOver_iff (e : Engine) (now : Nat) :
    (e.parts.all (fun x => x.2.step.isNone) = true ∨ e.power.since + 50000 ≤ now) ↔ e.stepsOver now := by
  simp only [Engine.stepsOver, List.all_eq_true, Option.isNone_iff_eq_none]

/-- The FIFOs are delivered, or 100 ms have passed. -/
def Engine.fifosOver (e : Engine) (now : Nat) : Prop := e.fifosEmpty = true ∨ e.power.since + 100000 ≤ now

theorem Engine.fifosOver_iff (e : Engine) (now : Nat) : (e.fifosEmpty || decide (e.power.since + 100000 ≤ now)) = true ↔ e.fifosOver now := by
  simp only [Engine.fifosOver, Bool.or_eq_true, decide_eq_true_eq]

variable (hd : e.power.down = true)
include hd

/-- A stage of the power-down by its number. -/
theorem powerDownStage_eight (hs : e.power.stage = 8) : powerDownStage now e =
    if e.parts.all (fun x => x.2.step.isNone) = true ∨ e.power.since + 50000 ≤ now then (e.downEight now).atStage now 7 else e := by
  simp only [powerDownStage, hd, hs, Bool.not_true, Bool.false_eq_true, if_false]

theorem powerDownStage_seven (hs : e.power.stage = 7 ∨ e.power.stage = 6) : powerDownStage now e =
    if e.fifosEmpty || decide (e.power.since + 100000 ≤ now) then e.downSeven.atStage now 5 else e := by
  rcases hs with hs | hs <;> simp only [powerDownStage, hd, hs, Bool.not_true, Bool.false_eq_true, if_false]

theorem powerDownStage_five (hs : e.power.stage = 5) : powerDownStage now e = (e.downSix now).atStage now 4 := by
  simp only [powerDownStage, hd, hs, Bool.not_true, Bool.false_eq_true, if_false]

theorem powerDownStage_four (hs : e.power.stage = 4) : powerDownStage now e =
    if e.power.since + 10000 ≤ now then e.downFour.atStage now 3 else e := by
  simp only [powerDownStage, hd, hs, Bool.not_true, Bool.false_eq_true, if_false]

theorem powerDownStage_three (hs : e.power.stage = 3) : powerDownStage now e = (e.unpowered now).atStage now 2 := by
  simp only [powerDownStage, hd, hs, Bool.not_true, Bool.false_eq_true, if_false]

theorem powerDownStage_last (hs : e.power.stage < 3 ∨ 8 < e.power.stage) : powerDownStage now e = e.downTwo now := by
  refine (if_neg (by simp [hd])).trans ?_
  split
  case h_7 => rfl
  all_goals omega

end PowerDown

/-! ### Resets that are due (R456) -/

section TakeEffect
variable {e : Engine} {now : Nat}

/-- The oldest reset that may take effect now. -/
def Engine.resetDue (e : Engine) (now : Nat) : Option PendingReset :=
  e.resets.find? (fun r => decide (r.due ≤ now) && (r.scope == 0 || (e.power.stage == 8 && !e.sup.safeHold && !(e.deck r.deck).latchedOff)))

theorem resetTakeEffect_busy (h : e.power.up = true ∨ e.power.down = true ∨ e.runningReset ≠ none) : resetTakeEffect now e = e :=
  if_pos (by simpa [Option.isSome_iff_ne_none, or_assoc] using h)

variable (hu : e.power.up = false) (hd : e.power.down = false) (hr : e.runningReset = none)
include hu hd hr

theorem resetTakeEffect_none (h : e.resetDue now = none) : resetTakeEffect now e = e := by
  refine (if_neg (by simp [hu, hd, hr])).trans ?_
  rw [Engine.resetDue] at h
  rw [h]

variable {r : PendingReset} (h : e.resetDue now = some r)
include h

theorem resetTakeEffect_due : resetTakeEffect now e = if r.scope = 0 then e.resetEngine now r else e.resetDeck now r := by
  refine (if_neg (by simp [hu, hd, hr])).trans ?_
  rw [Engine.resetDue] at h
  rw [h]

theorem resetTakeEffect_engine (h0 : r.scope = 0) : resetTakeEffect now e = e.resetEngine now r := (resetTakeEffect_due hu hd hr h).trans (if_pos h0)

theorem resetTakeEffect_deck (h0 : r.scope ≠ 0) : resetTakeEffect now e = e.resetDeck now r := (resetTakeEffect_due hu hd hr h).trans (if_neg h0)

end TakeEffect

/-! ### When a stage is complete, and what the last ones leave (R449, R454) -/

section Stages
variable (e : Engine) (now : Nat) (rep : StageReport)

theorem stageDone_one : e.stageDone now 1 rep = true ↔ rep.ok = true ∧ e.keptOff = false := by
  simp only [Engine.stageDone, Bool.and_eq_true, Bool.not_eq_true']

theorem stageDone_two : e.stageDone now 2 rep = true ↔
    (∀ b : Bool, (e.cart b).present = true → (e.cart b).charged = true) ∨ e.power.since + 120000000 ≤ now := by
  simp [Engine.stageDone, Bool.forall_bool, imp_iff_not_or]

theorem stageDone_three : e.stageDone now 3 rep = true ↔ ∀ d ∈ [0, 1], (e.deck d).latchedOff = false → (e.deck d).attempts = 0 := by
  rw [List.forall_mem_cons, List.forall_mem_singleton]
  simp [Engine.stageDone, Engine.liveDecks, List.all_filter, imp_iff_not_or]

theorem stageDone_later {n : Nat} (hn : 3 < n) : e.stageDone now n rep = true := by
  unfold Engine.stageDone
  split
  case h_4 => rfl
  all_goals omega

theorem upStage_eight_graphs : (e.upStage now 8 rep).graphs = [] :=
  have hp : Engine.SameSetup { e with graphs := [] } (((({ e with graphs := [], tenants := e.commit.tenants.map (fun (x : Nat × Tenant) =>
      (x.1, x.2.recovered)) } : Engine).dropTiers (fun _ => true)).recoverParts (fun _ => true)).recoverReqs now (fun _ _ => true)) :=
    .recoverReqs (.recoverParts ⟨rfl, rfl, rfl⟩)
  hp.graphs

end Stages

/-! ### What an engine reset leaves (R456) -/

section Reset
variable (e : Engine) (now : Nat) (r : PendingReset)

theorem resetEngine_power : (e.resetEngine now r).power =
    { e.power with state := .standby, stage := 3, up := true, down := false, goal := .ready, since := now } := by
  unfold Engine.resetEngine
  extract_lets e1 _ e2 e3 e4 e5 e6 e7
  have k1 : e.SameSetup e1 := (Engine.SameSetup.refl e).dropSteps.commitAll.loseSnaps
  clear_value e1
  have k2 : e.SameSetup e2 := .dropRepairs (.breakSession k1.update)
  have k4 : e.SameSetup e4 := .foldl (fun _ _ k => k.modZport) k2.dropZports
  have k5 : e.SameSetup e5 := .foldl (fun _ _ k => k.modHport) k4
  have k6 : e.SameSetup e6 := .foldl (fun _ _ k => k.modDeck) k5
  have k7 : e.SameSetup e7 := k6.clearMonitors
  exact congrArg (fun p : Power => { p with state := .standby, stage := 3, up := true, down := false, goal := .ready, since := now }) k7.power

theorem Engine.clearMonitors_deck (l : List Nat) (k : Nat) : (e.clearMonitors now l).deck k = e.deck k := rfl

theorem resetEngine_deck {k : Nat} (hk : k < 2) : ((e.resetEngine now r).deck k).intake = [] ∧ ((e.resetEngine now r).deck k).sched = [] := by
  unfold Engine.resetEngine
  extract_lets _ _ _ _ _ e5 e6 e7
  have h6 : e6.deck k = { e5.deck k with intake := [], sched := [], epochHold := [] } := Engine.deck_modBoth e5 _ hk
  have h7 : e7.deck k = e6.deck k := Engine.clearMonitors_deck ..
  clear_value e7
  exact ⟨congrArg Deck.intake (h7.trans h6), congrArg Deck.sched (h7.trans h6)⟩

end Reset

/-! ### The statement -/

/-- Settles O59: requests by what keeps the engine off, the stages by their order, resets by their turn. -/
theorem sequencingResults : Obligations.SequencingResults := by
  refine ⟨fun s => ?events, fun e now t => ⟨askFor_kept, fun hk hf => ⟨askFor_running hk hf, askFor_off hk hf, askFor_settled hk hf⟩⟩,
    fun e now rep => ⟨stageDone_one e now rep, stageDone_two e now rep, stageDone_three e now rep, fun n => stageDone_later e now rep⟩,
    fun e now rep => ⟨rfl, rfl, upStage_eight_graphs e now rep⟩, fun e now r => ⟨resetEngine_power e now r, rfl, rfl, rfl, fun k => resetEngine_deck e now r⟩⟩
  intro p su able
  refine ⟨fun h => onEng_same (f := pwrOnRequest false) (pwrOnRequest_contact_none h), fun h => onEng_eq (f := pwrOnRequest false) (pwrOnRequest_contact h),
    fun h => onEng_same (f := pwrOnRequest true) (pwrOnRequest_feeds_none h), fun ha hf => ?feeds, fun rep => ?up,
    fun hd => onEng_same (f := powerDownStage) (powerDownStage_none hd), fun hd => ?down, fun h => onEng_same (f := resetTakeEffect) (resetTakeEffect_busy h),
    fun hu hd hr => ?reset⟩
  case feeds =>
    exact ⟨fun h => onEng_eq (f := pwrOnRequest true) (pwrOnRequest_feeds_stays ha hf h),
      fun ht hs hu => onEng_eq (f := pwrOnRequest true) (pwrOnRequest_feeds_asks ha hf ht hs hu)⟩
  case up =>
    intro t e n
    have hn : e.power.stage + 1 = n := congrArg (· + 1) (s.eng.rebased_stage s.now t)
    have exec_eq {x : Engine} (h : powerUpStage rep t e = x) : exec (.powerUpStage rep) s = .next { s with now := t, eng := x } :=
      (exec_powerUpStage s rep).trans (congrArg (fun x => Host.Outcome.next { s with now := t, eng := x }) h)
    refine ⟨fun hu hc => exec_eq (powerUpStage_completes ((s.eng.rebased_up s.now t).trans hu) hn hc),
      fun hu hc => exec_eq (powerUpStage_waits ((s.eng.rebased_up s.now t).trans hu) hn hc),
      fun hu hr => (exec_powerUpStage_down hu).trans (by rw [deckResetStage_none hr]; rfl), fun r hu hr => ?_⟩
    · exact ⟨fun h1 => (exec_powerUpStage_down hu).trans (by rw [deckResetStage_otherScope hr h1]; rfl),
        fun h1 => ⟨fun h8 => (exec_powerUpStage_down hu).trans (by rw [deckResetStage_last hr h1 h8]),
          fun h8 => (exec_powerUpStage_down hu).trans (by rw [deckResetStage_next hr h1 h8])⟩⟩
  case down =>
    have exec_eq {e : Engine} (h : powerDownStage s.now s.eng = e) : exec .powerDownStage s = .next (withEng s e) := onEng_eq (f := powerDownStage) h
    refine ⟨fun hs hi => exec_eq ((powerDownStage_eight hd hs).trans (if_neg (mt (s.eng.stepsOver_iff s.now).mp hi))),
      fun hs hi => exec_eq ((powerDownStage_eight hd hs).trans (if_pos ((s.eng.stepsOver_iff s.now).mpr hi))),
      fun hs hf => exec_eq ((powerDownStage_seven hd hs).trans (if_neg (mt (s.eng.fifosOver_iff s.now).mp hf))),
      fun hs hf => exec_eq ((powerDownStage_seven hd hs).trans (if_pos ((s.eng.fifosOver_iff s.now).mpr hf))),
      fun hs => exec_eq (powerDownStage_five hd hs), fun hs ht => exec_eq ((powerDownStage_four hd hs).trans (if_neg (Nat.not_le.mpr ht))),
      fun hs ht => exec_eq ((powerDownStage_four hd hs).trans (if_pos ht)), fun hs => exec_eq (powerDownStage_three hd hs),
      fun hs => exec_eq (powerDownStage_last hd hs)⟩
  case reset =>
    intro due
    exact ⟨fun h => onEng_same (f := resetTakeEffect) (resetTakeEffect_none hu hd hr h),
      fun r h h0 => onEng_eq (f := resetTakeEffect) (resetTakeEffect_engine hu hd hr h h0),
      fun r h h0 => onEng_eq (f := resetTakeEffect) (resetTakeEffect_deck hu hd hr h h0)⟩

end Sys2Proof.Machine
end

section
/-!
PROOFS. The supervisor: the chair latch and its votes (R386 to R389), the watchdogs (R390), Safe Hold (R391) and the journal's bucket (R418).
-/
namespace Sys2Proof.Machine

open Sys2Proof.Safety

theorem Engine.modSup_of_eq {e : Engine} {f : Supervisor → Supervisor} {x : Supervisor} (h : f e.sup = x) : e.modSup f = { e with sup := x } := by
  rw [Engine.modSup, h]

/-! ### The chair latch (R386) -/

section Chair
variable {e : Engine} {now d cause : Nat}

theorem chairRequest_granted (hm : e.mayHold d = true) (hv : e.sup.chairValue = .none) : chairRequest d true now e = e.setChair (.deck d) :=
  (if_pos rfl).trans (if_pos (by simp [hm, hv]))

theorem chairRequest_refused (h : e.mayHold d = false ∨ e.sup.chairValue ≠ .none) : chairRequest d true now e = e :=
  (if_pos rfl).trans (if_neg (by rcases h with h | h <;> simp [h]))

theorem passChair_otherHolder (hv : e.sup.chairValue ≠ .deck d) : e.passChair now d cause = e := if_pos hv

section Holder
variable (hv : e.sup.chairValue = .deck d)
include hv

theorem passChair_passes (hm : e.mayHold (1 - d) = true) :
    e.passChair now d cause = (e.setChair (.deck (1 - d))).supEvent now 0x0402 (1 - d) cause := (if_neg (not_not.mpr hv)).trans (if_pos hm)

theorem passChair_drops (hm : e.mayHold (1 - d) = false) : e.passChair now d cause = e.setChair .none :=
  (if_neg (not_not.mpr hv)).trans (if_neg (ne_true_of_eq_false hm))

end Holder

/-- The deck holds the chair and does not follow the other's claim. -/
def Engine.holdsChair (e : Engine) (d : Nat) : Prop := e.sup.chairValue = .deck d ∧ (e.deck d).ctl.follow = false

theorem chairOnlyWrite_other {cw : ChairWrite} (h : ¬ e.holdsChair d) : chairOnlyWrite d cw now e =
    ({ e with freeCtr := e.freeCtr + 1 } : Engine).supEvent now 0x010A (Config.unstatedArg e.freeCtr).toNat d := if_neg h

theorem chairOnlyWrite_holder {cw : ChairWrite} (h : e.holdsChair d) : chairOnlyWrite d cw now e = e.chairWrite cw := if_pos h

/-- Each write of the chair's holder, and the record that every other deck's write leaves. -/
theorem chairOnlyWrite_results {s : State} {cw : ChairWrite} (hd : d < 2) (hcw : chairWriteOk cw = true) :
    (¬ s.eng.holdsChair d → exec (.chairOnlyWrite d cw) s = .next (withEng s
      (({ s.eng with freeCtr := s.eng.freeCtr + 1 } : Engine).supEvent s.now 0x010A (Config.unstatedArg s.eng.freeCtr).toNat d))) ∧
    (∀ f i x, cw = .darnMap f i x → s.eng.holdsChair d → exec (.chairOnlyWrite d cw) s = .next (withEng s (s.eng.modField f (fun y =>
      { y with darnMap := mset darnMapReset i (x &&& 0x83FF#16) y.darnMap })))) ∧
    (∀ f i st, cw = .darnSite f i st → s.eng.holdsChair d → exec (.chairOnlyWrite d cw) s = .next (withEng s (s.eng.setSite { field := f, site := i } st))) ∧
    (∀ n, cw = .engineAction n → s.eng.holdsChair d → exec (.chairOnlyWrite d cw) s = .next s) ∧
    (∀ on, cw = .nvEnable on → s.eng.holdsChair d → exec (.chairOnlyWrite d cw) s = .next (withEng s (s.eng.modSup (fun x => { x with
      nvEnable := on && x.imprintEn && s.eng.cartsOk && s.eng.session.state != .idle })))) := by
  have ok : (decide (d < 2) && chairWriteOk cw) = true := by simp [hd, hcw]
  have holder (h : s.eng.holdsChair d) : chairOnlyWrite d cw s.now s.eng = s.eng.chairWrite cw := chairOnlyWrite_holder h
  refine ⟨fun h => onUnit_eq (f := chairOnlyWrite d cw) ok (chairOnlyWrite_other h), fun f i x hw h => ?_, fun f i st hw h => ?_, fun n hw h => ?_,
    fun on hw h => ?_⟩ <;> subst hw
  case _ => exact onUnit_eq (f := chairOnlyWrite d _) ok (holder h)
  case _ => exact onUnit_eq (f := chairOnlyWrite d _) ok (holder h)
  case _ => exact onUnit_same (f := chairOnlyWrite d _) ok (holder h)
  case _ => exact onUnit_eq (f := chairOnlyWrite d _) ok (holder h)

end Chair

/-! ### Votes of the latch (R387, R389) -/

theorem threeWays_iff (a b c : Chair) : threeWays [a, b, c] = true ↔ a ≠ b ∧ b ≠ c ∧ a ≠ c := by
  simp only [threeWays, Bool.and_eq_true, decide_eq_true_eq, and_assoc]

section Outvoted
variable (a b c : Chair)

theorem outvoted_eq : outvoted [a, b, c] =
    if a = b ∧ b = c then none else if b = c then some 0 else if a = c then some 1 else if a = b then some 2 else none := rfl

/-- Each copy is outvoted where the two others agree against it. -/
theorem outvoted_first : outvoted [a, b, c] = some 0 ↔ a ≠ b ∧ b = c := by
  rw [outvoted_eq]; grind

theorem outvoted_second : outvoted [a, b, c] = some 1 ↔ a ≠ b ∧ a = c := by
  rw [outvoted_eq]; grind

theorem outvoted_third : outvoted [a, b, c] = some 2 ↔ a = b ∧ b ≠ c := by
  rw [outvoted_eq]; grind

end Outvoted

section Vote
variable {e : Engine} {now : Nat} {flip : Option (Nat × Chair)}

/-- The latch after the upset of a copy. -/
def Engine.upset (e : Engine) (flip : Option (Nat × Chair)) : Engine :=
  match flip with
  | none => e
  | some (k, x) => e.modSup (fun y => { y with chair := y.chair.set k x })

/-- The outvoted copy rewritten, with the record of its failed vote. -/
def Engine.rewriteCopy (e : Engine) (now k : Nat) : Engine :=
  let e1 := (e.setChair e.sup.chairValue).modSup (fun y => { y with voteFails := y.voteFails.filter (fun x => x.1 != k) ++ [(k, now)] })
  e1.unlistedEvent now e1.chairDeck 0xFF 1

/-- A copy that has failed a vote within the last second. -/
theorem voteFails_any_iff (l : List (Nat × Nat)) (k : Nat) :
    l.any (fun x => x.1 == k && decide (now ≤ x.2 + 1000000)) = true ↔ ∃ t, (k, t) ∈ l ∧ now ≤ t + 1000000 := by
  simp [List.any_eq_true]

theorem chairVote_threeWays (h : threeWays (e.upset flip).sup.chair = true) : chairVote flip now e = (e.upset flip).latchFault now := if_pos h

section Majority
variable (h : threeWays (e.upset flip).sup.chair = false)
include h

theorem chairVote_agrees (ho : outvoted (e.upset flip).sup.chair = none) : chairVote flip now e = e.upset flip := by
  refine (if_neg (ne_true_of_eq_false h)).trans ?_
  split
  · rfl
  · next k hk => cases ho.symm.trans hk

variable {k : Nat} (ho : outvoted (e.upset flip).sup.chair = some k)
include ho

theorem chairVote_outvoted : chairVote flip now e =
    if (e.upset flip).sup.voteFails.any (fun x => x.1 == k && decide (now ≤ x.2 + 1000000)) then ((e.upset flip).rewriteCopy now k).latchFault now
    else (e.upset flip).rewriteCopy now k := by
  refine (if_neg (ne_true_of_eq_false h)).trans ?_
  split
  · next hk => cases ho.symm.trans hk
  · next j hj =>
    obtain rfl : k = j := Option.some.inj (ho.symm.trans hj)
    rfl

theorem chairVote_rewrites (hf : ∀ t, (k, t) ∈ (e.upset flip).sup.voteFails → t + 1000000 < now) :
    chairVote flip now e = (e.upset flip).rewriteCopy now k := by
  refine (chairVote_outvoted h ho).trans (if_neg fun ha => ?_)
  obtain ⟨t, ht, hn⟩ := (voteFails_any_iff _ _).mp ha
  exact absurd (hf t ht) (Nat.not_lt.mpr hn)

theorem chairVote_failsAgain (hf : ∃ t, (k, t) ∈ (e.upset flip).sup.voteFails ∧ now ≤ t + 1000000) :
    chairVote flip now e = ((e.upset flip).rewriteCopy now k).latchFault now :=
  (chairVote_outvoted h ho).trans (if_pos ((voteFails_any_iff _ _).mpr hf))

end Majority

theorem flip_ok (h : ∀ k x, flip = some (k, x) → k < 3 ∧ chairOk x = true) : flip.all (fun x => decide (x.1 < 3) && chairOk x.2) = true := by
  cases flip with
  | none => rfl
  | some f => simpa using h f.1 f.2 rfl

end Vote

/-! ### Claims (R388) -/

section Claims
variable {e : Engine} {now d : Nat} {claim : Bool}

/-- Claims in a row of a deck that does not hold the chair. -/
def Engine.claimCount (e : Engine) (d : Nat) (claim : Bool) : Nat :=
  if claim = true ∧ e.sup.chairValue ≠ .deck d then (e.deck d).ctl.claims + 1 else 0

/-- The deck with a claim counted; from the tenth on it follows the other. -/
def Engine.countClaim (e : Engine) (d : Nat) (claim : Bool) : Engine :=
  e.modDeck d (fun k => { k with ctl := { k.ctl with
    claims := min 10 (e.claimCount d claim), follow := (k.ctl.follow && claim) || decide (10 ≤ e.claimCount d claim) } })

theorem sampleClaim_eq : e.sampleClaim now d claim =
    if (e.deck d).ctl.follow = true ∨ e.claimCount d claim < 10 then e.countClaim d claim
    else ({ e.countClaim d claim with freeCtr := e.freeCtr + 1 } : Engine).supEvent now 0x0401 d
      (match e.sup.chairValue with | .deck h => h | .none => (Config.unstatedArg e.freeCtr).toNat % 2 ^ 32) := by
  have hn : (if claim && e.sup.chairValue != .deck d then (e.deck d).ctl.claims + 1 else 0) = e.claimCount d claim := by
    simp only [Engine.claimCount, Bool.and_eq_true, bne_iff_ne]
  simp only [Engine.sampleClaim, hn, Bool.or_eq_true, decide_eq_true_eq]
  rfl

end Claims

/-! ### Watchdogs (R390) -/

section Watchdog
variable {e : Engine} {now d : Nat}

/-- The write that keeps a running controller's watchdog quiet. -/
def watchdogKick (d now : Nat) (e : Engine) : Engine := if (e.deck d).ctl.running then e.modCtl d (fun c => { c with lastWatchdog := now }) else e

theorem watchdogRestart_low (hp : e.power.stage < 4) : watchdogRestart d now e = e := if_pos hp

section Booted
variable (hp : 4 ≤ e.power.stage)
include hp

theorem watchdogRestart_stopped (hr : (e.deck d).ctl.running = false) : watchdogRestart d now e = e.checkControllers now :=
  (if_neg (Nat.not_lt.mpr hp)).trans (if_pos (by simp [hr]))

variable (hr : (e.deck d).ctl.running = true)
include hr

theorem watchdogRestart_inTime (ht : now < (e.deck d).ctl.lastWatchdog + 200000) : watchdogRestart d now e = e :=
  (if_neg (Nat.not_lt.mpr hp)).trans ((if_neg (by simp [hr])).trans (if_pos ht))

variable (ht : (e.deck d).ctl.lastWatchdog + 200000 ≤ now)
include ht

theorem watchdogRestart_restarts (hl : ((e.deck d).ctl.recent now).length < 3) : watchdogRestart d now e =
    ((e.modCtl d (fun c => { c with running := false, restarts := (e.deck d).ctl.recent now ++ [now], claims := 0, follow := false })).supEvent now 0x0403
      (((e.deck d).ctl.recent now).length + 1) d).passChair now d 1 :=
  (if_neg (Nat.not_lt.mpr hp)).trans ((if_neg (by simp [hr])).trans ((if_neg (Nat.not_lt.mpr ht)).trans (if_neg (Nat.not_le.mpr hl))))

theorem watchdogRestart_holds (hl : 3 ≤ ((e.deck d).ctl.recent now).length) : watchdogRestart d now e =
    ((e.modCtl d (fun c => { c with running := false, heldReset := true, claims := 0, follow := false })).passChair now d 1).checkControllers now :=
  (if_neg (Nat.not_lt.mpr hp)).trans ((if_neg (by simp [hr])).trans ((if_neg (Nat.not_lt.mpr ht)).trans (if_pos hl)))

end Booted

/-- A controller that a restart brings back. -/
theorem restartDone_none (h : e.power.stage < 4 ∨ (e.deck d).ctl.running = true ∨ (e.deck d).ctl.heldReset = true ∨ (e.deck d).latchedOff = true) :
    restartDone d now e = e := if_pos h

theorem restartDone_runs (hp : 4 ≤ e.power.stage) (hr : (e.deck d).ctl.running = false) (hh : (e.deck d).ctl.heldReset = false)
    (hl : (e.deck d).latchedOff = false) : restartDone d now e =
      (let e' := (e.keptBack now d).foldl (fun e x => e.partEvent now (x.2.parts.headD 0) 0x0106 x.1 (now - x.2.hd.tick)) e
       let e' := e'.modCtl d (fun c => { c with running := true, lastWatchdog := now })
       (((e'.deck d).intake.map (·.fn)).eraseDups).foldl (fun e f => e.intakeMoves now f) e') :=
  if_neg (by simp [hr, hh, hl, hp])

end Watchdog

/-! ### Self-check and bucket (R391, R418) -/

section SelfCheck
variable {s : State}

theorem exec_supervisorSelfCheck (s : State) (ok : Bool) : exec (.supervisorSelfCheck ok) s =
    onEng s (fun now e => if ok || decide (e.power.stage < 4) then e else e.enterSafeHold now 2) := rfl

theorem exec_journalBucketRefill (s : State) : exec .journalBucketRefill s = onEng s (fun now e => e.modSup (fun x => x.refill now)) := rfl

end SelfCheck

/-- Settles O55: the latch by its holder, the vote by the copies, the watchdogs by stage, controller and time. -/
theorem supervisorResults : Obligations.SupervisorResults := by
  refine ⟨fun s d hd => ?deck, fun s flip hf => ?vote, fun a b c => ⟨threeWays_iff a b c, outvoted_first a b c, outvoted_second a b c, outvoted_third a b c⟩,
    fun s c0 c1 => rfl, fun e now d claim => ?claims, fun e now c => ⟨fun h => if_pos h, fun h => if_neg (ne_true_of_eq_false h)⟩, fun s => ?check⟩
  case deck =>
    intro k v
    have ok : decide (d < 2) = true := decide_eq_true hd
    exact ⟨fun hm hv => onUnit_eq (f := chairRequest d true) ok (chairRequest_granted hm hv),
      fun h => onUnit_same (f := chairRequest d true) ok (chairRequest_refused h),
      fun hv => onUnit_same (f := chairRequest d false) ok (passChair_otherHolder hv),
      fun hv hm => onUnit_eq (f := chairRequest d false) ok (passChair_passes hv hm),
      fun hv hm => onUnit_eq (f := chairRequest d false) ok (passChair_drops hv hm),
      fun cw hcw => chairOnlyWrite_results hd hcw,
      fun hr => onUnit_eq (f := watchdogKick d) ok (if_pos hr), fun hr => onUnit_same (f := watchdogKick d) ok (if_neg (ne_true_of_eq_false hr)),
      fun hp => onUnit_same (f := watchdogRestart d) ok (watchdogRestart_low hp),
      fun hp hr => onUnit_eq (f := watchdogRestart d) ok (watchdogRestart_stopped hp hr),
      fun hp hr ht => onUnit_same (f := watchdogRestart d) ok (watchdogRestart_inTime hp hr ht),
      fun hp hr ht => ⟨fun hl => onUnit_eq (f := watchdogRestart d) ok (watchdogRestart_restarts hp hr ht hl),
        fun hl => onUnit_eq (f := watchdogRestart d) ok (watchdogRestart_holds hp hr ht hl)⟩,
      fun hp hr hh hl => onUnit_eq (f := restartDone d) ok (restartDone_runs hp hr hh hl),
      fun h => onUnit_same (f := restartDone d) ok (restartDone_none h)⟩
  case vote =>
    intro e fault
    have ok := flip_ok hf
    exact ⟨fun h => onUnit_eq (f := chairVote flip) ok (chairVote_threeWays h), fun h ho => onUnit_eq (f := chairVote flip) ok (chairVote_agrees h ho),
      fun k h ho => ⟨fun hv => onUnit_eq (f := chairVote flip) ok (chairVote_rewrites h ho hv),
        fun hv => onUnit_eq (f := chairVote flip) ok (chairVote_failsAgain h ho hv)⟩⟩
  case claims =>
    exact ⟨fun h => sampleClaim_eq.trans (if_pos h), fun hf hn => sampleClaim_eq.trans (if_neg (not_or.mpr ⟨ne_true_of_eq_false hf, Nat.not_lt.mpr hn⟩))⟩
  case check =>
    exact ⟨rfl, fun h => (exec_supervisorSelfCheck s false).trans (onEng_same (if_pos (by simpa using h))),
      fun h => (exec_supervisorSelfCheck s false).trans (onEng_eq (if_neg (by simpa using h))),
      fun h => (exec_journalBucketRefill s).trans (onEng_same (Engine.modSup_of_eq (if_pos h))),
      fun h => (exec_journalBucketRefill s).trans (onEng_eq (Engine.modSup_of_eq (if_neg (Nat.not_lt.mpr h))))⟩

end Sys2Proof.Machine
end

section
/-!
PROOFS. Feeds, converter phases and shorts (R384, R421 to R427, R431, R482).
-/
namespace Sys2Proof.Machine

open Sys2Proof.Safety

/-! ### Feeds (R384, R421, R431) -/

section Feeds
variable {e : Engine} {b : Bool} {now cv x y : Nat}

theorem feedLoss_none (h : (e.feed b).lost = true ∨ 4000 ≤ cv) : feedLoss b cv now e = e := if_pos h

theorem feedLoss_loses (hl : (e.feed b).lost = false) (hv : cv < 4000) : feedLoss b cv now e =
    (e.loseFeed now b cv).powerEvent now false (e.loseFeed now b cv).chairDeck 0xFF 0x060A (e.loseFeed now b cv).feedVolts (e.loseFeed now b cv).feedsLost :=
  if_neg (by simp [hl, hv])

theorem feedReturn_carries (hl : (e.feed b).lost = true) (hm : (e.feed b).mated = true) (hv : 4000 ≤ cv) : feedReturn b cv now e =
    (e.modFeed b (fun f => { f with lost := false, cv := cv })).modSup (fun x =>
      { x with bothAbsent := x.bothAbsent.filter (fun t => decide (t + 5000000 ≤ now)) }) :=
  if_neg (by simp [hl, hm, hv])

theorem feedReturn_none (h : (e.feed b).lost = false ∨ (e.feed b).mated = false ∨ cv < 4000) : feedReturn b cv now e = e :=
  if_pos (by rcases h with h | h | h <;> simp [h])

/-- Both feeds lost at the voltages measured. -/
def Engine.loseBoth (e : Engine) (now x y : Nat) : Engine := (e.loseFeed now false x).loseFeed now true y

theorem powerLoss_none (h : 4000 ≤ x ∨ 4000 ≤ y) : powerLoss x y now e = e := if_pos h

theorem powerLoss_stageZero (hx : x < 4000) (hy : y < 4000) (h : (e.loseBoth now x y).power.stage = 0) : powerLoss x y now e = e.loseBoth now x y :=
  (if_neg (by omega)).trans (if_pos h)

/-- The loss of both feeds reported, with whether a commit ran. -/
def Engine.lossEvent (e : Engine) (now : Nat) (ran : Bool) : Engine :=
  let us := if ran then Config.commitTime e.freeCtr else 0
  let e' := { e with freeCtr := e.freeCtr + 1 }
  e'.powerEvent now false e'.chairDeck 0xFF 0x060A e'.feedVolts (3 + 4 * bnat ran + 65536 * (us % 65536))

theorem powerLoss_falls (hx : x < 4000) (hy : y < 4000) (h : (e.loseBoth now x y).power.stage ≠ 0) : powerLoss x y now e =
    (let ran := (e.loseBoth now x y).holdUp && decide (5 ≤ (e.loseBoth now x y).power.stage)
     ((e.loseBoth now x y).lossEvent now ran).fallOff now ran) :=
  (if_neg (by omega)).trans (if_neg h)

/-- Both feeds absent for 5 s. -/
def Engine.feedsDark (e : Engine) (now : Nat) : Prop := e.feedsLost = 3 ∧ ∃ a, e.sup.bothAbsent = some a ∧ a + 5000000 ≤ now

theorem feedsDark_iff : e.feedsDark now ↔ e.feedsLost = 3 ∧ e.sup.bothAbsent.any (fun t => decide (t + 5000000 ≤ now)) = true := by
  simp only [Engine.feedsDark, Option.any_eq_true, decide_eq_true_eq]

theorem latchClear_clears (h : e.feedsDark now) : latchClear now e =
    ((e.modDeck 0 (fun k => { k with latchedOff := false, attempts := 0 })).modDeck 1 (fun k => { k with latchedOff := false, attempts := 0 })).modSup (fun x =>
      { x with thermLatch := false, leakLatch := false, leak := 0 }) := if_pos (feedsDark_iff.mp h)

theorem latchClear_none (h : ¬ e.feedsDark now) : latchClear now e = e := if_neg (mt feedsDark_iff.mpr h)

end Feeds

/-! ### Phases (R424, R425) -/

section Phases
variable {e : Engine} {f k now : Nat} {c : ShedCause}

theorem shed_contains_false (hk : k ∉ (e.field f).shed) : ¬ (e.field f).shed.contains k = true := by simpa using hk

theorem shedPhase_shed (hk : k ∈ (e.field f).shed) : e.shedPhase now f k c = e := if_pos (by simpa using hk)

/-- A healthy phase shed: its event by the zone's healthy phases, the levels and what follows. -/
theorem shedPhase_sheds (hk : k ∉ (e.field f).shed) : e.shedPhase now f k c =
    (let e' := e.modField f (fun x => { x with shed := x.shed ++ [k] })
     let n := (e'.field f).healthy
     ((e'.powerEvent now true (deckOf f) f 0x0603 (k + 16 * shedCode c + 256 * n) (if n ≤ 2 then 15 else phaseLevel n)).throttled now 1 e).zoneFell now f) :=
  if_neg (shed_contains_false hk)

/-- PHASE_SHED's effect. -/
def shedPowered (f k : Nat) (c : ShedCause) (now : Nat) (e : Engine) : Engine := if e.railsUp (deckOf f) then e.shedPhase now f k c else e

theorem shedPowered_none (h : e.railsUp (deckOf f) = false ∨ k ∈ (e.field f).shed) : shedPowered f k c now e = e := by
  rcases h with h | h
  · exact if_neg (ne_true_of_eq_false h)
  · exact (congrArg (ite _ · e) (shedPhase_shed h)).trans (ite_self e)

theorem phaseOvercurrent_none {amps : Nat} (h : e.railsUp (deckOf f) = false ∨ k ∈ (e.field f).shed) : phaseOvercurrent f k amps now e = e :=
  if_pos (by rcases h with h | h <;> simp [h])

theorem phaseOvercurrent_sheds {amps : Nat} (hu : e.railsUp (deckOf f) = true) (hk : k ∉ (e.field f).shed) : phaseOvercurrent f k amps now e =
    (e.powerEvent now true (deckOf f) f 0x0602 (amps % 65536 + 65536 * k) (e.field f).healthy).shedPhase now f k .overcurrent :=
  if_neg (by simp [hu, hk])

theorem phaseDisagree_counts (hu : e.railsUp (deckOf f) = true) (hd : (e.field f).disagree = false) : phaseDisagree f now e =
    ((e.modField f (fun x => { x with disagree := true })).throttled now 1 e).zoneFell now f := if_neg (by simp [hu, hd])

theorem phaseDisagree_none (h : e.railsUp (deckOf f) = false ∨ (e.field f).disagree = true) : phaseDisagree f now e = e :=
  if_pos (by rcases h with h | h <;> simp [h])

end Phases

/-! ### Shorts (R426, R427) -/

section Shorts
variable {e : Engine} {d r now : Nat} {o : Option Nat}

theorem deckShort_latchedOff (hl : (e.deck d).latchedOff = true) : deckShort d r now e = e := if_pos hl

theorem deckShort_inService (hl : (e.deck d).latchedOff = false) (hs : e.softStarting = false) (hu : e.railsUp d = true) :
    deckShort d r now e = (e.shortEvent now d r 0 true).latchDeck now d :=
  (if_neg (ne_true_of_eq_false hl)).trans ((if_neg (ne_true_of_eq_false hs)).trans (if_pos hu))

theorem deckShort_unpowered (hs : e.softStarting = false) (hu : e.railsUp d = false) : deckShort d r now e = e := by
  simp only [deckShort, hs, hu, Bool.false_eq_true, if_false, ite_self]

theorem deckShort_firstAttempt (hl : (e.deck d).latchedOff = false) (hs : e.softStarting = true) (hn : (e.deck d).attempts = 0) :
    deckShort d r now e = (e.modDeck d (fun k => { k with attempts := 1 })).shortEvent now d r 1 false :=
  (if_neg (ne_true_of_eq_false hl)).trans ((if_pos hs).trans (if_pos hn))

theorem deckShort_retrying (hs : e.softStarting = true) (hn : (e.deck d).attempts ≠ 0) : deckShort d r now e = e := by
  simp only [deckShort, hs, hn, if_true, if_false, ite_self]

theorem softStartRetry_none (h : e.softStarting = false ∨ (e.deck d).latchedOff = true ∨ (e.deck d).attempts = 0) : softStartRetry d o now e = e :=
  if_pos (by rcases h with h | h | h <;> simp [h])

section Retrying
variable (hl : (e.deck d).latchedOff = false) (hs : e.softStarting = true) (hn : (e.deck d).attempts ≠ 0)
include hl hs hn

theorem softStartRetry_comesUp : softStartRetry d none now e = e.modDeck d (fun k => { k with attempts := 0 }) := if_neg (by simp [hl, hs, hn])

theorem softStartRetry_failsAgain (h : (e.deck d).attempts < 3) : softStartRetry d (some r) now e =
    (e.modDeck d (fun k => { k with attempts := (e.deck d).attempts + 1 })).shortEvent now d r ((e.deck d).attempts + 1) false :=
  (if_neg (by simp [hl, hs, hn])).trans (if_pos (Nat.succ_lt_succ h))

theorem softStartRetry_latches (h : 3 ≤ (e.deck d).attempts) : softStartRetry d (some r) now e =
    ((e.modDeck d (fun k => { k with attempts := (e.deck d).attempts + 1 })).shortEvent now d r ((e.deck d).attempts + 1) true).latchCold now d :=
  (if_neg (by simp [hl, hs, hn])).trans (if_neg (Nat.not_lt.mpr (Nat.succ_le_succ h)))

end Retrying

end Shorts

/-- Settles O56: each event by the state of its feed, its phase or its deck. -/
theorem feedAndPhaseResults : Obligations.FeedAndPhaseResults := by
  refine ⟨fun s b => ?feeds, fun e now => ⟨rfl, rfl, rfl, rfl⟩, fun s f hf => ?phases, fun s d hd => ?shorts⟩
  case feeds =>
    refine ⟨fun cv h => onEng_same (f := feedLoss b cv) (feedLoss_none h), fun cv hl hv => onEng_eq (f := feedLoss b cv) (feedLoss_loses hl hv),
      fun cv hl hm hv => onEng_eq (f := feedReturn b cv) (feedReturn_carries hl hm hv), fun cv h => onEng_same (f := feedReturn b cv) (feedReturn_none h), rfl,
      fun x y h => onEng_same (f := powerLoss x y) (powerLoss_none h), fun x y hx hy => ?_, ?_⟩
    · exact ⟨fun h => onEng_eq (f := powerLoss x y) (powerLoss_stageZero hx hy h), fun h => onEng_eq (f := powerLoss x y) (powerLoss_falls hx hy h)⟩
    · exact ⟨fun h => onEng_eq (f := latchClear) (latchClear_clears h), fun h => onEng_same (f := latchClear) (latchClear_none h)⟩
  case phases =>
    have okf : decide (f < 96) = true := decide_eq_true hf
    have ok {k : Nat} (hk : k < 12) : (decide (f < 96) && decide (k < 12)) = true := by simp [hf, hk]
    exact ⟨fun k amps hk h => onUnit_same (f := phaseOvercurrent f k amps) (ok hk) (phaseOvercurrent_none h),
      fun k amps hk hu hs => onUnit_eq (f := phaseOvercurrent f k amps) (ok hk) (phaseOvercurrent_sheds hu hs),
      fun k c hk hu hs => onUnit_eq (f := shedPowered f k c) (ok hk) ((if_pos hu).trans (shedPhase_sheds hs)),
      fun k c hk h => onUnit_same (f := shedPowered f k c) (ok hk) (shedPowered_none h),
      fun hu hd => onUnit_eq (f := phaseDisagree f) okf (phaseDisagree_counts hu hd), fun h => onUnit_same (f := phaseDisagree f) okf (phaseDisagree_none h),
      onUnit_of (f := phaseAgree f) okf⟩
  case shorts =>
    have short {r : Nat} (hr : r < 5) {e : Engine} (h : deckShort d r s.now s.eng = e) : exec (.deckShort d r) s = .next (withEng s e) :=
      onUnit_eq (f := deckShort d r) (by simp [hd, hr]) h
    have retry {o : Option Nat} (ho : ∀ k, o = some k → k < 5) {e : Engine} (h : softStartRetry d o s.now s.eng = e) :
        exec (.softStartRetry d o) s = .next (withEng s e) := onUnit_eq (f := softStartRetry d o) (by cases o <;> simp_all) h
    have some_lt {r : Nat} (hr : r < 5) (k : Nat) (hk : some r = some k) : k < 5 := Option.some.inj hk ▸ hr
    refine ⟨fun r hr => ⟨fun hl => short hr (deckShort_latchedOff hl), fun hl hs hu => short hr (deckShort_inService hl hs hu),
      fun hs hu => short hr (deckShort_unpowered hs hu), fun hl hs hn => short hr (deckShort_firstAttempt hl hs hn),
      fun hs hn => short hr (deckShort_retrying hs hn)⟩, fun h r hr => retry hr (softStartRetry_none h), fun hl hs hn => ?_⟩
    exact ⟨retry (by simp) (softStartRetry_comesUp hl hs hn), fun r hr => ⟨fun h => retry (some_lt hr) (softStartRetry_failsAgain hl hs hn h),
      fun h => retry (some_lt hr) (softStartRetry_latches hl hs hn h)⟩⟩

end Sys2Proof.Machine
end

section
/-!
PROOFS. Cracked connections, the input cap, commits and cartridges (R429, R430, R432 to R434).
-/
namespace Sys2Proof.Machine

open Sys2Proof.Safety

/-! ### Cracked connections (R429) -/

section Crack
variable {e : Engine} {f amps uohm now : Nat}

theorem crackDrop_none (h : e.railsUp (deckOf f) = false ∨ amps < 100) : crackDrop f amps uohm now e = e :=
  if_pos (by rcases h with h | h <;> simp [h])

section Measured
variable (hu : e.railsUp (deckOf f) = true) (ha : 100 ≤ amps)
include hu ha

/-- A window with current in a powered zone is compared with the baseline. -/
theorem crackDrop_measured : crackDrop f amps uohm now e =
    if uohm * 4 ≤ e.baseline f (e.field f).cBand * 5 then e.modField f (fun x => { x with highWin := 0 })
    else if (e.field f).highWin = 15 then
      (e.modField f (fun x => { x with highWin := min 16 (x.highWin + 1) })).holdCrack now f (e.baseline f (e.field f).cBand) uohm
    else e.modField f (fun x => { x with highWin := min 16 (x.highWin + 1) }) := if_neg (by simp [hu, ha])

theorem crackDrop_low (hb : uohm * 4 ≤ e.baseline f (e.field f).cBand * 5) :
    crackDrop f amps uohm now e = e.modField f (fun x => { x with highWin := 0 }) := (crackDrop_measured hu ha).trans (if_pos hb)

variable (hb : e.baseline f (e.field f).cBand * 5 < uohm * 4)
include hb

theorem crackDrop_high (hw : (e.field f).highWin ≠ 15) : crackDrop f amps uohm now e = e.modField f (fun x => { x with highWin := min 16 (x.highWin + 1) }) :=
  (crackDrop_measured hu ha).trans ((if_neg (Nat.not_le.mpr hb)).trans (if_neg hw))

theorem crackDrop_holds (hw : (e.field f).highWin = 15) : crackDrop f amps uohm now e =
    (e.modField f (fun x => { x with highWin := min 16 (x.highWin + 1) })).holdCrack now f (e.baseline f (e.field f).cBand) uohm :=
  (crackDrop_measured hu ha).trans ((if_neg (Nat.not_le.mpr hb)).trans (if_pos hw))

end Measured

end Crack

/-! ### The input cap (R430) -/

section Cap
variable {e : Engine} {w a b now : Nat}

/-- The input above the cap in force or a feed above its limit. -/
def Engine.inputAbove (e : Engine) (w a b : Nat) : Bool := decide (e.capInForce < w) || decide (10500 < a) || decide (10500 < b)

/-- The input at 98 % of its limits or less. -/
def Engine.inputLow (e : Engine) (w a b : Nat) : Bool :=
  decide (w * 100 ≤ e.capInForce * 98) && decide (a * 100 ≤ 10500 * 98) && decide (b * 100 ≤ 10500 * 98)

/-- Decisions in a row at 98 % or less. -/
def Engine.lowCount (e : Engine) (w a b : Nat) : Nat := if e.inputLow w a b then min 10 (e.sup.capLow + 1) else 0

/-- The cap's level after a decision. -/
def Engine.nextCapLevel (e : Engine) (w a b : Nat) : Nat :=
  if e.inputAbove w a b then min 9 (e.sup.capLevel + 1) else if e.lowCount w a b = 10 then e.sup.capLevel - 1 else e.sup.capLevel

theorem capDecision_eq : capDecision w a b now e =
    (((e.modFeed false (fun f => { f with amps := a })).modFeed true (fun f => { f with amps := b })).modSup (fun x =>
      { x with
        inputW := w, capLow := e.lowCount w a b, capLevel := e.nextCapLevel w a b
        startsHeld := decide (e.capInForce < w) && (x.startsHeld || e.sup.capLevel == 9) })).throttled now 2 e := rfl

theorem inputAbove_iff : e.inputAbove w a b = true ↔ e.capInForce < w ∨ 10500 < a ∨ 10500 < b := by
  simp only [Engine.inputAbove, Bool.or_eq_true, decide_eq_true_eq, or_assoc]

theorem inputLow_iff : e.inputLow w a b = true ↔ w * 100 ≤ e.capInForce * 98 ∧ a * 100 ≤ 10500 * 98 ∧ b * 100 ≤ 10500 * 98 := by
  simp only [Engine.inputLow, Bool.and_eq_true, decide_eq_true_eq, and_assoc]

end Cap

/-! ### Commits (R433) -/

section Commit
variable {α : Type} [DecidableEq α] {d : Nat → α} {j lo : Nat} {l : AMap α}

/-- Writing a table's entries leaves a key it does not list. -/
theorem mget_foldl_mset_unlisted (hl : ∀ x ∈ l, x.1 ≠ j) (m : AMap α) : mget d j (l.foldl (fun m x => mset d x.1 x.2 m) m) = mget d j m := by
  induction l generalizing m with
  | nil => rfl
  | cons x xs ih =>
    have hx := hl x List.mem_cons_self
    exact (ih (fun y hy => hl y (List.mem_cons_of_mem _ hy)) _).trans (mget_mset_ne d _ _ hx.symm)

/-- Writing a table's entries over one without the key gives the table's value at the key. -/
theorem mget_foldl_mset_default (hl : mwfFrom d lo l = true) {m : AMap α} (hm : mget d j m = d j) :
    mget d j (l.foldl (fun m x => mset d x.1 x.2 m) m) = mget d j l := by
  induction l generalizing m lo with
  | nil => exact hm
  | cons x xs ih =>
    obtain ⟨k, v⟩ := x
    simp only [mwfFrom, Bool.and_eq_true] at hl
    obtain ⟨-, hxs⟩ := hl
    by_cases hj : j = k
    · subst hj
      have hgt (y) (hy : y ∈ xs) : y.1 ≠ j := Nat.ne_of_gt (le_of_mem_mwfFrom hxs hy)
      simp only [List.foldl_cons, mget_foldl_mset_unlisted hgt, mget_mset_same, mget, if_pos]
    · simp only [mget, if_neg (Ne.symm hj)]
      exact ih hxs ((mget_mset_ne d _ _ hj).trans hm)

end Commit

/-- What a commit holds of a request entry: the entry where it is selected, and otherwise what it held. -/
theorem Engine.commitWhere_req (e : Engine) (now : Nat) (f : Nat → Bool) (i : Nat) (hw : mwf (fun _ => ({} : Request)) e.reqs = true) :
    mget (fun _ => {}) i (e.commitWhere now f).commit.reqs = if f i then e.req i else mget (fun _ => {}) i e.commit.reqs := by
  by_cases hf : f i = true
  · have hold : mget (fun _ => ({} : Request)) i (e.commit.reqs.filter (fun x => !f x.1)) = {} := by
      rw [mget_filter _ (fun k => !f k)]; simp [hf]
    have hnew : mget (fun _ => ({} : Request)) i (e.reqs.filter (fun x => f x.1)) = e.req i := (mget_filter _ f i e.reqs).trans (if_pos hf)
    exact (mget_foldl_mset_default (mwfFrom_filter _ _ 0 _ hw) hold).trans (hnew.trans (if_pos hf).symm)
  · have unlisted (x) (hx : x ∈ e.reqs.filter (fun x => f x.1)) : x.1 ≠ i := fun h => hf (h ▸ (List.mem_filter.mp hx).2)
    have hold : mget (fun _ => ({} : Request)) i (e.commit.reqs.filter (fun x => !f x.1)) = mget (fun _ => {}) i e.commit.reqs :=
      (mget_filter _ (fun k => !f k) i e.commit.reqs).trans (if_pos (by simp [hf]))
    exact (mget_foldl_mset_unlisted unlisted _).trans (hold.trans (if_neg hf).symm)

theorem Engine.commitAll_req (e : Engine) (now i : Nat) (hw : mwf (fun _ => ({} : Request)) e.reqs = true) :
    mget (fun _ => {}) i (e.commitAll now).commit.reqs = if (e.deck (i / 16384)).latchedOff then mget (fun _ => {}) i e.commit.reqs else e.req i := by
  refine (e.commitWhere_req now _ i hw).trans ?_
  cases h : (e.deck (i / 16384)).latchedOff <;> simp [entryDeck, h]

section Period
variable {s : State}

theorem Engine.commitPeriod_eq (e : Engine) :
    e.commitPeriod = if (∀ b : Bool, (e.cart b).present = true ∧ (e.cart b).charged = true) then 1000000 else 10000 :=
  if_congr (by simp) rfl rfl

/-- PERIODIC_COMMIT's effect. -/
def commitDue (now : Nat) (e : Engine) : Engine := if e.power.stage = 8 ∧ e.commit.tick + e.commitPeriod ≤ now then e.commitAll now else e

theorem exec_periodicCommit_none (h : s.eng.power.stage ≠ 8 ∨ s.now < s.eng.commit.tick + s.eng.commitPeriod) : exec .periodicCommit s = .next s :=
  onEng_same (f := commitDue) (if_neg (by omega))

theorem exec_periodicCommit_commits (h8 : s.eng.power.stage = 8) (ht : s.eng.commit.tick + s.eng.commitPeriod ≤ s.now) :
    exec .periodicCommit s = .next (withEng s (s.eng.commitAll s.now)) := onEng_eq (f := commitDue) (if_pos ⟨h8, ht⟩)

end Period

/-! ### Cartridges (R432, R434) -/

section Cartridge
variable {e : Engine} {b : Bool} {now x y j : Nat}

/-- CARTRIDGE_END_OF_LIFE's effect. -/
def cartridgeWorn (b : Bool) (joules now : Nat) (e : Engine) : Engine :=
  if !(e.cart b).present || (e.cart b).eol || decide (50 ≤ joules) then e
  else (e.modCart b (fun c => { c with eol := true, joules := joules })).cartEvent now b 4

theorem cartridgeCharged_low (hx : min x y < 90) : cartridgeCharged b x y now e = e := if_pos (by simp only [hx, decide_true, Bool.or_true])

theorem cartridgeDisagree_near (hx : max x y ≤ min x y + 20) : cartridgeDisagree b x y now e = e := if_pos (by simp only [hx, decide_true, Bool.or_true])

theorem cartridgeWorn_none (hj : (e.cart b).eol = true ∨ 50 ≤ j) : cartridgeWorn b j now e = e := if_pos (by rcases hj with hj | hj <;> simp [hj])

section Absent
variable (h : (e.cart b).present = false)
include h

theorem cartridgeRemoval_absent : cartridgeRemoval b now e = e := if_pos (by simp [h])

theorem cartridgeCharged_absent : cartridgeCharged b x y now e = e := if_pos (by simp [h])

theorem cartridgeDisagree_absent : cartridgeDisagree b x y now e = e := if_pos (by simp [h])

theorem cartridgeWorn_absent : cartridgeWorn b j now e = e := if_pos (by simp [h])

theorem cartridgeInsertion_inserts : cartridgeInsertion b now e =
    (({ e with freeCtr := e.freeCtr + 1 } : Engine).modCart b (fun c =>
      let g := Config.gauge e.freeCtr
      { c with
        present := true, charged := false, charging := e.power.stage != 0, coulomb := g.1.toNat, voltage := g.2.1.toNat, joules := g.2.2.toNat, eol := false })).cartEvent
      now b 1 := if_neg (ne_true_of_eq_false h)

end Absent

section Present
variable (h : (e.cart b).present = true)
include h

theorem cartridgeInsertion_present : cartridgeInsertion b now e = e := if_pos h

theorem cartridgeRemoval_removes : cartridgeRemoval b now e =
    (let e' := (e.modCart b (fun c => { c with present := false, charged := false, charging := false })).cartEvent now b 0
     let e' := if (e.cart b).charging then e'.cartEvent now b 3 else e'
     (e'.breakSession now .cartridge).checkEnable) := if_neg (by simp [h])

theorem cartridgeCharged_charges (hx : 90 ≤ min x y) : cartridgeCharged b x y now e =
    (e.modCart b (fun c => { c with charged := true, coulomb := x, voltage := y })).cartEvent now b 2 :=
  if_neg (by simp only [h, Bool.not_true, Bool.false_or, decide_eq_true_eq, Nat.not_lt.mpr hx, not_false_eq_true])

theorem cartridgeDisagree_far (hx : min x y + 20 < max x y) : cartridgeDisagree b x y now e =
    ((e.modCart b (fun c => { c with coulomb := x, voltage := y, charged := c.charged && decide (90 ≤ min x y) })).cartEvent now b 5).checkEnable :=
  if_neg (by simp only [h, Bool.not_true, Bool.false_or, decide_eq_true_eq, Nat.not_le.mpr hx, not_false_eq_true])

theorem cartridgeWorn_wears (he : (e.cart b).eol = false) (hj : j < 50) : cartridgeWorn b j now e =
    (e.modCart b (fun c => { c with eol := true, joules := j })).cartEvent now b 4 := if_neg (by simp [h, he, hj])

end Present

end Cartridge

/-- Settles O57: windows by the baseline, decisions by the cap, commits by the cartridges, and each cartridge by its estimates. -/
theorem capAndCartridgeResults : Obligations.CapAndCartridgeResults := by
  refine ⟨fun s f amps uohm hf => ?crack, fun s w a b => ?cap, fun s => ?commit, fun s b => ⟨fun h => ?absent, fun h => ?present⟩⟩
  case crack =>
    have exec_eq {e : Engine} (h : crackDrop f amps uohm s.now s.eng = e) : exec (.crackDrop f amps uohm) s = .next (withEng s e) :=
      onUnit_eq (f := crackDrop f amps uohm) (decide_eq_true hf) h
    exact ⟨fun h => exec_eq (crackDrop_none h), fun hu ha => ⟨fun hb => exec_eq (crackDrop_low hu ha hb), fun hb hw => exec_eq (crackDrop_high hu ha hb hw),
      fun hb hw => exec_eq (crackDrop_holds hu ha hb hw)⟩⟩
  case cap =>
    exact ⟨s.eng.lowCount w a b, s.eng.nextCapLevel w a b, fun h => if_pos (inputLow_iff.mpr h), fun h => if_neg (mt inputLow_iff.mp h),
      fun h => if_pos (inputAbove_iff.mpr h), fun h hn => (if_neg (mt inputAbove_iff.mp h)).trans (if_pos hn),
      fun h hn => (if_neg (mt inputAbove_iff.mp h)).trans (if_neg hn), onEng_eq (f := capDecision w a b) capDecision_eq⟩
  case commit =>
    intro n
    have hn : s.eng.commitPeriod = n := s.eng.commitPeriod_eq
    exact ⟨fun h => exec_periodicCommit_none (hn ▸ h), fun h8 ht => ⟨(s.eng.commitAll s.now).commit, exec_periodicCommit_commits h8 (hn ▸ ht), rfl, rfl, rfl,
      fun hw i => s.eng.commitAll_req s.now i hw⟩⟩
  case absent =>
    exact ⟨onEng_same (f := cartridgeRemoval b) (cartridgeRemoval_absent h), fun x y => ⟨onEng_same (f := cartridgeCharged b x y) (cartridgeCharged_absent h),
      onEng_same (f := cartridgeDisagree b x y) (cartridgeDisagree_absent h)⟩, fun j => onEng_same (f := cartridgeWorn b j) (cartridgeWorn_absent h),
      onEng_eq (f := cartridgeInsertion b) (cartridgeInsertion_inserts h)⟩
  case present =>
    exact ⟨onEng_same (f := cartridgeInsertion b) (cartridgeInsertion_present h), onEng_eq (f := cartridgeRemoval b) (cartridgeRemoval_removes h),
      fun x y hx => onEng_same (f := cartridgeCharged b x y) (cartridgeCharged_low hx),
      fun x y hx => onEng_eq (f := cartridgeCharged b x y) (cartridgeCharged_charges h hx),
      fun x y hx => onEng_same (f := cartridgeDisagree b x y) (cartridgeDisagree_near hx),
      fun x y hx => onEng_eq (f := cartridgeDisagree b x y) (cartridgeDisagree_far h hx),
      fun j hj => onEng_same (f := cartridgeWorn b j) (cartridgeWorn_none hj), fun j he hj => onEng_eq (f := cartridgeWorn b j) (cartridgeWorn_wears h he hj)⟩

end Sys2Proof.Machine
end

section
/-!
PROOFS. Temperatures and coolant (R435, R436, R440 to R444) and the contacts (R490, R491).
-/
namespace Sys2Proof.Machine

open Sys2Proof.Safety

/-! ### A sample of working sensors (R435, R436) -/

section Sample
variable {c : Int} {l : List Int} {r : Nat → Int} {b k : Nat}

theorem foldl_max_lt {m x : Int} (hx : x < m) (hl : ∀ y ∈ l, y < m) : l.foldl max x < m :=
  List.foldlRecOn (motive := fun z => z < m) l max hx fun _ hx y hy => Int.max_lt.mpr ⟨hx, hl y hy⟩

/-- Numbers within 240 of another one: so is their mean. -/
theorem foldl_add_near (hl : ∀ x ∈ l, c - x ≤ 240 ∧ x - c ≤ 240) (a : Int) :
    l.length * c - (l.foldl (· + ·) a - a) ≤ 240 * l.length ∧ (l.foldl (· + ·) a - a) - l.length * c ≤ 240 * l.length := by
  induction l generalizing a with
  | nil => simp
  | cons x xs ih =>
    have hx := hl x List.mem_cons_self
    have hxs := ih (fun y hy => hl y (List.mem_cons_of_mem _ hy)) (a + x)
    simp only [List.foldl_cons, List.length_cons, Nat.cast_add, Nat.cast_one, Int.add_mul, Int.one_mul, Int.mul_add, Int.mul_one]
    omega

theorem sensorNeighbours_lt : ∀ k < 48, ∀ j ∈ sensorNeighbours k, j < 48 := by decide

theorem strays_of_near (h : ∀ j ∈ sensorNeighbours k, r k - r j ≤ 240 ∧ r j - r k ≤ 240) : strays r [] k = false := by
  have hs := foldl_add_near (c := r k) (l := ((sensorNeighbours k).filter (fun j => !([] : List Nat).contains j)).map r)
    (by rintro x hx; obtain ⟨j, hj, rfl⟩ := List.mem_map.mp hx; exact h j (List.mem_filter.mp hj).1) 0
  simp only [List.length_map, Int.sub_zero] at hs
  simp only [strays, Bool.and_eq_false_iff, Bool.or_eq_false_iff, decide_eq_false_iff_not]
  exact .inr (by omega)

theorem newlyFailed_none (hr : ∀ k < 48, 0 ≤ r k ∧ r k < 720) (hd : ∀ k < 48, ∀ j < 48, r k - r j ≤ 240) : newlyFailed r [] = [] := by
  have inRange (k) (hk : k < 48) : outOfRange (r k) = false := by
    have := hr k hk
    simp only [outOfRange, Bool.or_eq_false_iff, decide_eq_false_iff_not]
    omega
  have hbad : (List.range 48).filter (fun k => outOfRange (r k)) ++ [] = [] := by
    simp only [List.append_nil, List.filter_eq_nil_iff, List.mem_range]
    exact fun k hk => ne_true_of_eq_false (inRange k hk)
  simp only [newlyFailed, hbad, List.filter_eq_nil_iff, List.mem_range]
  intro k hk
  have hs : strays r [] k = false := strays_of_near fun j hj =>
    have hj := sensorNeighbours_lt k hk j hj
    ⟨hd k hk j hj, hd j hj k hk⟩
  simp [inRange k hk, hs]

/-- Below 45 °C the lowest band stays. -/
theorem nextBand_cool {h : Int} (hh : h < 720) : nextBand 0 h = 0 := by
  have hup : ([1, 2, 3, 4].filter (fun k => decide (bandLimit k ≤ h))) = [] := by
    refine List.filter_eq_nil_iff.mpr fun k _ => ?_
    have hk : h < bandLimit k := by
      unfold bandLimit
      split_ifs <;> omega
    simpa using hk
  simp only [nextBand, hup, List.length_nil, Nat.lt_irrefl, if_false, Nat.zero_min]

/-- A field whose 48 sensors work and read below 45 °C. -/
structure CoolSample (f : Field) (rs : List Int) : Prop where
  length : rs.length = 48
  failed : f.sensors.failed = []
  range : ∀ r ∈ rs, (0 : Int) ≤ r ∧ r < 720
  near : ∀ r ∈ rs, ∀ q ∈ rs, r - q ≤ 240
  band : f.cBand = 0

section Cool
variable {f : Field} {rs : List Int} {o : Int} (h : CoolSample f rs)
include h

theorem CoolSample.mem (hk : k < 48) : rs.getD k 0 ∈ rs := by
  have hk : k < rs.length := h.length.symm ▸ hk
  rw [List.getD_eq_getElem _ _ hk]
  exact List.getElem_mem hk

theorem CoolSample.newlyFailed : newlyFailed (fun k => rs.getD k 0) f.sensors.failed = [] := by
  rw [h.failed]
  exact newlyFailed_none (fun k hk => h.range _ (h.mem hk)) (fun k hk j hj => h.near _ (h.mem hk) _ (h.mem hj))

theorem CoolSample.sampled_failed : (f.sampled rs o).sensors.failed = [] := by
  show f.sensors.failed ++ Machine.newlyFailed _ f.sensors.failed = []
  rw [h.newlyFailed, h.failed, List.append_nil]

theorem CoolSample.sampled_readings : (f.sampled rs o).sensors.readings = rs := by
  have hf : f.sensors.failed ++ Machine.newlyFailed (fun k => rs.getD k 0) f.sensors.failed = [] := h.sampled_failed (o := o)
  show (List.range 48).map (readsAs (fun k => rs.getD k 0) (f.sensors.failed ++ Machine.newlyFailed (fun k => rs.getD k 0) f.sensors.failed) o) = rs
  rw [hf]
  refine List.ext_getElem (by simp [h.length]) fun k hk hk' => ?_
  simp [readsAs, List.getElem?_eq_getElem hk']

theorem CoolSample.sampled_cBand : (f.sampled rs o).cBand = 0 := by
  have hb : (f.sampled rs o).cBand = nextBand f.cBand (((f.sampled rs o).sensors.readings.take 36).foldl max (-32768)) := rfl
  rw [hb, h.sampled_readings, h.band]
  exact nextBand_cool (foldl_max_lt (by decide) fun y hy => (h.range y (List.mem_of_mem_take hy)).2)

end Cool

end Sample

/-! ### The hottest domain (R440) -/

section Hottest
variable {e : Engine} {ds : List Nat} {d : Nat}

/-- Domain d is hotter than domain k, or as hot with no higher number. -/
def Engine.outranks (e : Engine) (d k : Nat) : Prop := (e.domain k).t8 < (e.domain d).t8 ∨ ((e.domain k).t8 = (e.domain d).t8 ∧ d ≤ k)

theorem Engine.outranks_trans {c : Nat} {k : Nat} (h : e.outranks d c) (hk : e.outranks c k) : e.outranks d k := by
  unfold Engine.outranks at *
  omega

/-- The hotter of the hottest domain so far and another one. -/
def Engine.hotter (e : Engine) (b : Option Nat) (d : Nat) : Option Nat :=
  match b with
  | none => some d
  | some c => if (e.domain c).t8 < (e.domain d).t8 ∨ ((e.domain c).t8 = (e.domain d).t8 ∧ d < c) then some d else some c

theorem hottestDomain_eq : e.hottestDomain ds = (ds.filter (fun d => decide (1520 < (e.domain d).t8))).foldl e.hotter none := rfl

/-- The hotter of two is one of them and outranks both. -/
theorem Engine.hotter_some (e : Engine) (c x : Nat) : ∃ y, e.hotter (some c) x = some y ∧ (y = c ∨ y = x) ∧ e.outranks y c ∧ e.outranks y x := by
  by_cases h : (e.domain c).t8 < (e.domain x).t8 ∨ ((e.domain c).t8 = (e.domain x).t8 ∧ x < c)
  · refine ⟨x, if_pos h, .inr rfl, ?_, .inr ⟨rfl, Nat.le_refl _⟩⟩
    unfold Engine.outranks
    omega
  · refine ⟨c, if_neg h, .inl rfl, .inr ⟨rfl, Nat.le_refl _⟩, ?_⟩
    unfold Engine.outranks
    omega

theorem foldl_hotter {c : Nat} (h : ds.foldl e.hotter (some c) = some d) : d ∈ c :: ds ∧ ∀ k ∈ c :: ds, e.outranks d k := by
  induction ds generalizing c with
  | nil =>
    obtain rfl : c = d := Option.some.inj h
    exact ⟨List.mem_cons_self, fun k hk => List.mem_singleton.mp hk ▸ .inr ⟨rfl, Nat.le_refl _⟩⟩
  | cons x xs ih =>
    obtain ⟨y, hy, hmem, hc, hx⟩ := e.hotter_some c x
    rw [List.foldl_cons, hy] at h
    obtain ⟨hd, hbest⟩ := ih h
    have hdy := hbest y List.mem_cons_self
    refine ⟨?_, fun k hk => ?_⟩
    · rcases List.mem_cons.mp hd with rfl | hd
      · rcases hmem with rfl | rfl <;> simp
      · simp [hd]
    · rcases List.mem_cons.mp hk with rfl | hk
      · exact Engine.outranks_trans hdy hc
      · rcases List.mem_cons.mp hk with rfl | hk
        · exact Engine.outranks_trans hdy hx
        · exact hbest k (List.mem_cons_of_mem _ hk)

theorem hottestDomain_none (h : ∀ d ∈ ds, (e.domain d).t8 ≤ 1520) : e.hottestDomain ds = none := by
  have hl : ds.filter (fun d => decide (1520 < (e.domain d).t8)) = [] := by
    simp only [List.filter_eq_nil_iff, decide_eq_true_eq]
    exact fun d hd => Int.not_lt.mpr (h d hd)
  rw [hottestDomain_eq, hl]
  rfl

theorem hottestDomain_some (h : e.hottestDomain ds = some d) : d ∈ ds ∧ 1520 < (e.domain d).t8 ∧ ∀ k ∈ ds, e.outranks d k := by
  rw [hottestDomain_eq] at h
  cases hl : ds.filter (fun d => decide (1520 < (e.domain d).t8)) with
  | nil => rw [hl] at h; cases h
  | cons x xs =>
    rw [hl] at h
    obtain ⟨hd, hbest⟩ := foldl_hotter (c := x) h
    rw [← hl] at hd hbest
    simp only [List.mem_filter, decide_eq_true_eq] at hd hbest
    obtain ⟨hd, hhot⟩ := hd
    refine ⟨hd, hhot, fun k hk => ?_⟩
    by_cases hk' : 1520 < (e.domain k).t8
    · exact hbest k ⟨hk, hk'⟩
    · exact .inl (by omega)

end Hottest

/-! ### The trip (R441) -/

section Trip
variable {e : Engine} {f w k now : Nat}

theorem thermalTrip_none (h : mget (fun _ => 0) (sensorIndex w k) (e.field f).sensors.trip < 3 ∨ e.sup.thermLatch = true) : thermalTrip f w k now e = e :=
  if_pos h

theorem thermalTrip_trips (hn : 3 ≤ mget (fun _ => 0) (sensorIndex w k) (e.field f).sensors.trip) (hl : e.sup.thermLatch = false) :
    thermalTrip f w k now e =
      (let e' := e.powerEvent now false (deckOf f) f 0x0601
         (ofSigned 16 ((e.field f).sensors.readings.getD (sensorIndex w k) 0) + 65536 * k + 16777216 * w) (fieldDomain f)
       (e'.fallOff now e'.holdUp).modSup (fun x => { x with thermLatch := true })) :=
  if_neg (not_or.mpr ⟨Nat.not_lt.mpr hn, ne_true_of_eq_false hl⟩)

end Trip

/-! ### Coolant (R443) -/

section Coolant
variable {e : Engine} {a now : Nat}

theorem Engine.flowResp_ite {c : Prop} [Decidable c] {t u : Engine} (ht : t.sup.flowResp = e.sup.flowResp) (hu : u.sup.flowResp = e.sup.flowResp) :
    (if c then t else u).sup.flowResp = e.sup.flowResp := by
  split
  · exact ht
  · exact hu

theorem Engine.msix_flowResp (e : Engine) (f : Fn) (v : Nat) : (e.msix f v).sup.flowResp = e.sup.flowResp := flowResp_ite rfl rfl

theorem Engine.journal_flowResp (e : Engine) (d : Nat) (x : LedgerEntry) : (e.journal d x).sup.flowResp = e.sup.flowResp := flowResp_ite rfl rfl

theorem Engine.ledgerVector_flowResp (e : Engine) (d : Nat) : (e.ledgerVector d).sup.flowResp = e.sup.flowResp :=
  List.foldlRecOn (motive := fun t : Engine => t.sup.flowResp = e.sup.flowResp) _ _ rfl fun t h _ _ => (t.msix_flowResp _ _).trans h

/-- An event leaves the flow response. -/
theorem Engine.eventIn_flowResp (e : Engine) (now d unit : Nat) (x : LedgerEntry) : (e.eventIn now d unit x).sup.flowResp = e.sup.flowResp :=
  have hs := flowResp_ite (Engine.journal_flowResp (e.modDeck ..) ..) rfl
  flowResp_ite ((Engine.ledgerVector_flowResp ..).trans hs) hs

/-- Under the flow response every throttleable domain is at level 9. -/
theorem Engine.levelOf_flowResp {d : Nat} (hr : e.sup.flowResp = true) (hd : throttleable d = true) : 9 ≤ e.levelOf d := by
  simp only [Engine.levelOf, hd, hr, Bool.not_true, Bool.false_eq_true, if_false, if_true]
  omega

theorem flowFalls_responds (hf : e.sup.flow < 700) (hl : e.sup.flowLow = none) :
    e.flowFalls now = (e.modSup (fun x => { x with flowLow := some now, flowResp := true })).flowEvent now 0 := if_pos ⟨hf, hl⟩

theorem flowFalls_levelOf {d : Nat} (hf : e.sup.flow < 700) (hl : e.sup.flowLow = none) (hd : throttleable d = true) : 9 ≤ (e.flowFalls now).levelOf d := by
  rw [flowFalls_responds hf hl]
  exact Engine.levelOf_flowResp (Engine.eventIn_flowResp ..) hd

theorem flowFalls_none (h : 700 ≤ e.sup.flow ∨ e.sup.flowLow ≠ none) : e.flowFalls now = e :=
  if_neg fun ⟨hf, hl⟩ => h.elim (Nat.not_le.mpr hf) (· hl)

theorem flowTimeout_none (hl : e.sup.flowLow = none) : flowTimeout now e = e := by simp only [flowTimeout, hl]

section Low
variable (hl : e.sup.flowLow = some a)
include hl

theorem flowBack_low : e.flowBack now =
    if 800 ≤ e.sup.flow ∧ now < a + 5000000 then (e.modSup (fun x => { x with flowLow := none })).flowEases.flowEvent now 1 else e := by
  simp only [Engine.flowBack, hl]

theorem flowBack_returns (hf : 800 ≤ e.sup.flow) (ht : now < a + 5000000) :
    e.flowBack now = (e.modSup (fun x => { x with flowLow := none, flowResp := x.flowResp && x.warm.isSome })).flowEvent now 1 :=
  (flowBack_low hl).trans (if_pos ⟨hf, ht⟩)

theorem flowBack_none (h : e.sup.flow < 800 ∨ a + 5000000 ≤ now) : e.flowBack now = e := (flowBack_low hl).trans (if_neg (by omega))

theorem flowTimeout_low : flowTimeout now e = if now < a + 5000000 then e else (e.flowEvent now 2).fallOff now true := by
  simp only [flowTimeout, hl]

end Low

end Coolant

/-! ### The contacts (R490, R491) -/

section Contacts
variable {e : Engine} {i p : Bool} {now : Nat}

/-- Samples in a row that disagree with a contact's state. -/
def contactRun (sample state : Bool) (run : Nat) : Nat := if sample = state then 0 else run + 1

/-- The strap after a sample. -/
def Engine.strapSampled (e : Engine) (now : Nat) (i : Bool) : Engine :=
  if contactRun i e.sup.imprintEn e.sup.imprintRun < 10 then e.modSup (fun x => { x with imprintRun := contactRun i e.sup.imprintEn e.sup.imprintRun })
  else e.takeStrap now i

theorem intlkSample_counts (hm : contactRun p e.sup.pwrOn e.sup.pwrRun < 10) : intlkSample i p now e =
    (e.strapSampled now i).modSup (fun x => { x with pwrRun := contactRun p e.sup.pwrOn e.sup.pwrRun }) :=
  congrArg (e.strapSampled now i).modSup (funext fun _ => if_pos hm)

theorem intlkSample_takes (hm : 10 ≤ contactRun p e.sup.pwrOn e.sup.pwrRun) : intlkSample i p now e =
    (e.strapSampled now i).modSup (fun x => x.takePwrOn now p) :=
  congrArg (e.strapSampled now i).modSup (funext fun _ => if_neg (Nat.not_lt.mpr hm))

end Contacts

/-- Settles O58: samples by their sensors, decisions by the hottest domain, and the coolant, the leak sensors and the contacts by their states. -/
theorem heatResults : Obligations.HeatResults := by
  refine ⟨fun s f rs hf hr => ?sample, fun s loads hl => ?decision, fun e ds => hottestDomain_none, fun e ds d => hottestDomain_some,
    fun s f w k hf hw hk => ?trip, fun s => ?coolant, fun e now => ?flow, fun s i p => ?contacts⟩
  case sample =>
    intro n e
    refine ⟨onUnit_of (f := sensorSample f rs) (by simp [hf, hr]), fun hnf hrange hnear hband => ?_⟩
    have h : CoolSample (s.eng.field f) rs := ⟨hr, hnf, hrange, hnear, hband⟩
    have he : e.field f = (s.eng.field f).sampled rs (toSigned 16 (Config.unstatedArg s.eng.freeCtr).toNat) := Engine.modField_field ..
    rw [he]
    exact ⟨h.sampled_readings, h.sampled_failed, h.sampled_cBand, congrArg List.length h.newlyFailed⟩
  case decision => exact onUnit_of (f := thermalDecision loads) (by simpa using hl)
  case trip =>
    have exec_eq {e : Engine} (h : thermalTrip f w k s.now s.eng = e) : exec (.thermalTrip f w k) s = .next (withEng s e) :=
      onUnit_eq (f := thermalTrip f w k) (by simp only [hf, hw, hk, decide_true, Bool.and_self]) h
    exact ⟨fun h => exec_eq (thermalTrip_none h), fun hn hl => exec_eq (thermalTrip_trips hn hl)⟩
  case coolant =>
    exact ⟨fun fl inl => ⟨fun h => onEng_eq (f := coolantFlow fl inl) (if_pos h), fun h => onEng_eq (f := coolantFlow fl inl) (if_neg h)⟩,
      fun hl => onEng_same (f := flowTimeout) (flowTimeout_none hl),
      fun a hl => ⟨fun ht => onEng_same (f := flowTimeout) ((flowTimeout_low hl).trans (if_pos ht)),
        fun ht => onEng_eq (f := flowTimeout) ((flowTimeout_low hl).trans (if_neg (Nat.not_lt.mpr ht)))⟩,
      fun fl h => onEng_same (f := flowRestored fl) (if_pos h), fun fl h => onEng_eq (f := flowRestored fl) (if_neg (Nat.not_lt.mpr h)),
      fun k hk => ⟨onUnit_of (f := leakSeen k false) (decide_eq_true hk), onUnit_of (f := leakSeen k true) (decide_eq_true hk)⟩⟩
  case flow =>
    exact ⟨fun hf hl => ⟨flowFalls_responds hf hl, fun d hd => flowFalls_levelOf hf hl hd⟩, flowFalls_none, fun a hl hf ht => flowBack_returns hl hf ht,
      fun a hl h => flowBack_none hl h⟩
  case contacts =>
    exact ⟨fun hm => onEng_eq (f := intlkSample i p) (intlkSample_counts hm), fun hm => onEng_eq (f := intlkSample i p) (intlkSample_takes hm)⟩

end Sys2Proof.Machine
end
